-- ==== Sys2Proof/Word.lean ====
section
/-! DEFINITION. The word and byte types (R6: every register is 32 bits wide, memory is byte addressed). -/

namespace Sys2Proof

/-- One 32-bit register or slot word (R6). -/
abbrev Word := BitVec 32

/-- One byte of memory (R6). -/
abbrev Byte := BitVec 8

end Sys2Proof
end

