-- ==== Sys2Proof/Machine/Store.lean ====
section
/-! DEFINITION. Sparse keyed storage in one canonical form, and the bit-field helpers every unit uses. -/

namespace Sys2Proof.Machine

/-- A sparse map from a number to plain data. A key that is not listed reads as the default its reader names.
Canonical form: keys strictly rising, no entry equal to the default (`storeWf`). -/
abbrev Store (α : Type) := List (Nat × α)

/-- The value stored under key `k`, or `d` when the key is not listed. -/
def storeGet {α : Type} (d : α) : Store α → Nat → α
  | [], _ => d
  | (k', v) :: rest, k => if k' = k then v else storeGet d rest k

/-- Remove every entry of key `k`. -/
def storeErase {α : Type} : Store α → Nat → Store α
  | [], _ => []
  | (k', v) :: rest, k => if k' = k then storeErase rest k else (k', v) :: storeErase rest k

/-- Insert an entry in front of the first larger key. -/
def storeInsert {α : Type} : Store α → Nat → α → Store α
  | [], k, v => [(k, v)]
  | (k', v') :: rest, k, v => if k < k' then (k, v) :: (k', v') :: rest else (k', v') :: storeInsert rest k v

/-- Write `v` under key `k`; writing the default removes the entry, so equal contents are equal lists. -/
def storePut {α : Type} [DecidableEq α] (d : α) (l : Store α) (k : Nat) (v : α) : Store α :=
  if v = d then storeErase l k else storeInsert (storeErase l k) k v

/-- Every key of the list is above `lo`, keys rise strictly, and no entry holds its key's default. -/
def storeWfFrom {α : Type} [DecidableEq α] (d : Nat → α) : Option Nat → Store α → Bool
  | _, [] => true
  | lo, (k, v) :: rest =>
    (match lo with | none => true | some b => decide (b < k)) && decide (v ≠ d k) && storeWfFrom d (some k) rest

/-- The canonical form of a sparse map whose unlisted key `k` reads as `d k`. -/
def storeWf {α : Type} [DecidableEq α] (d : Nat → α) (l : Store α) : Bool := storeWfFrom d none l

/-- Rewrite every listed value; entries that become their key's default go, with any later entry of the key. -/
def storeMap {α : Type} [DecidableEq α] (d : Nat → α) (f : Nat → α → α) : Store α → Store α
  | [] => []
  | (k, v) :: rest => if f k v = d k then storeErase (storeMap d f rest) k else (k, f k v) :: storeMap d f rest

/-- Bits `hi..lo` of a number. -/
def bitsOf (w hi lo : Nat) : Nat := (w / 2 ^ lo) % 2 ^ (hi + 1 - lo)

/-- Bit `i` of a number. -/
def bitOf (w i : Nat) : Bool := w.testBit i

/-- Whether a value lies in a range. -/
def inRange (lo v hi : Nat) : Bool := decide (lo ≤ v) && decide (v ≤ hi)

/-- 1 for true, 0 for false. -/
def b2n (b : Bool) : Nat := if b then 1 else 0

/-- Set (or clear) bit `i` of a number. -/
def setBitTo (w i : Nat) (b : Bool) : Nat :=
  if b then w ||| 2 ^ i else if w.testBit i then w - 2 ^ i else w

/-- The mask with ones in bits `hi..lo` of a 32-bit word. -/
def maskOf (hi lo : Nat) : Word := BitVec.ofNat 32 ((2 ^ (hi + 1 - lo) - 1) * 2 ^ lo)

/-- Bits `hi..lo` of a word, as a number. -/
def fieldGet (w : Word) (hi lo : Nat) : Nat := bitsOf w.toNat hi lo

/-- The word with bits `hi..lo` replaced by the low bits of `v`. -/
def fieldSet (w : Word) (hi lo v : Nat) : Word :=
  (w &&& ~~~ maskOf hi lo) ||| (BitVec.ofNat 32 (v * 2 ^ lo) &&& maskOf hi lo)

/-- The numbers below `n` that satisfy `p`, in rising order. -/
def below (n : Nat) (p : Nat → Bool) : List Nat := (List.range n).filter p

/-- The `i`-th element of a list, or 0 past its end. -/
def at0 (l : List Nat) (i : Nat) : Nat := l.getD i 0

end Sys2Proof.Machine
end

