-- ==== Sys2Proof/Machine/RegTypes.lean ====
section
/-! DEFINITION. What a register table of the spec says of a register: its window and offset (R33, R34), whether the
drawer views show it or hold copies (R12), who owns its positions (R36), its island (R30), and its fields with their
access codes (R8) and Cleared by entries (R11). -/

namespace Sys2Proof.Machine

/-- The Access column (R8). -/
inductive Acc | rw | ro | wo | w1c | w1s | rc
  deriving DecidableEq, Repr

/-- The Cleared by column (R11). -/
inductive Clr | isl | drw | wrld | sys | por | never
  deriving DecidableEq, Repr

/-- The block windows (R33). -/
inductive Win | carc | fab | drw | ring | lch | feed | inp | clp | lth | mtr | iom | dvt | ept | ztm | can | dwl | wld
  | til | recw | upd
  deriving DecidableEq, Repr

/-- Where a register stands: in the global window alone, in the global window and shown by every view, as kept-apart
copies in both (R12), or in the views alone. -/
inductive RegKind | glob | both | copy | view
  deriving DecidableEq, Repr

/-- What decides the owner of a register position (R36 item 4). -/
inductive Own
  | none | viewer | ring | chan | pwm | miPin | drvPin | clampRule | lthTask | hostWord | station | canCtl | hostQueue
  | tillSlot | semaphore | feed | saPort | mtrServed | swQueue
  deriving DecidableEq, Repr

/-- Which island holds a register position (R30): a fixed one, or one that follows from its index. -/
inductive IslRule
  | fix (n : Nat) | arb | bank | feed | canCtl | port
  deriving DecidableEq, Repr

/-- One field of a register table. -/
structure FieldDef where
  hi : Nat
  lo : Nat
  acc : Acc
  clr : Clr
  rst : Nat
  deriving DecidableEq, Repr

end Sys2Proof.Machine
end

