-- ==== Sys2Proof/Machine/Regs.lean ====
section
/-! DEFINITION. The register tables of the spec, one row per register, transcribed from the chapters' Registers
sections (window, offset, spacing, fields with access code, Cleared by entry and reset value). -/

namespace Sys2Proof.Machine

/-- Every register of the spec, under the spec's name (the index suffixes are the positions). -/
inductive RegId

  | CARC_ID | CARC_GRADE | CARC_UID | CARC_STATUS | CARC_REJ
  | CARC_DET | CARC_SECVER | CARC_BUILD | CARC_HASH | FAB_ISL_STATE
  | FAB_ISL_REQ | FAB_CLAIM | FAB_ISL_CLK | FAB_ARB_PTR | FAB_AERR_ADDR_LO
  | FAB_AERR_ADDR_HI | FAB_AERR_INFO | FAB_AERR_COUNT | FAB_RST_CAUSE | FAB_RST_REQ
  | FAB_PWR_STATUS | FAB_SLEEP_CTRL | FAB_SLEEP_STATUS | INP_MK_STATUS | INP_MK_TYPE
  | INP_MK_SERIAL | DRW_MOVE_CTRL | DRW_MOVE_ARG | DRW_MOVE_STATUS | DRW_RST_REQ
  | DRW_G_STATE | DRW_BIND | DRW_G_HOLD | DRW_HOLD | DRW_FEAT_OFFER
  | DRW_FEAT_ACCEPT | DRW_FEAT_CTRL | DRW_FEAT_STATUS | DRW_STATE | DRW_RST
  | DRW_IRQ_STATUS | DRW_IRQ_MASK | DRW_FAULT_HEAD | DRW_FAULT_STAT | DRW_RING_OWN
  | RING_BASE_LO | RING_BASE_HI | RING_CFG | RING_CTRL | RING_TAIL
  | RING_HEAD | RING_STATE | RING_FAULT | RING_FAULT_OFF | RING_DROPS
  | LCH_CMD | LCH_FLAGS | LCH_EVENTS | LCH_IRQ_EN | LCH_STATE
  | LCH_CFG | LCH_WIRE | LCH_G_VEC | LCH_VEC | LCH_WIRE_AMB
  | LCH_PWM | LCH_PROT | FEED_STATUS | FEED_LIMIT | FEED_BUDGET
  | FEED_SHEDS | FEED_EVENTS | FEED_IRQ_EN | INP_MI_CFG | INP_MI_VAL
  | INP_MI_STAT | INP_MI_EDGES | INP_DRV | INP_G_VEC | INP_VEC
  | CLP_STAT | CLP_FIRES | CLP_CFG | CLP_PINS | CLP_ACK
  | CLP_ACK_STATUS | CLP_CHAN | LTH_STATE | LTH_CTRL | LTH_PHASH
  | LTH_CHK_ITEM | LTH_TASK_CFG | LTH_TASK_STAT | LTH_TASK_OVR | LTH_TASK_TIME
  | LTH_TASK_TMAX | LTH_TASK_RESP | LTH_TASK_CTRL | LTH_TASK_COUNT | LTH_ERR_STAT
  | LTH_ERR_HEAD | LTH_SLOT_IDX | LTH_SLOT_DATA | LTH_HIN | LTH_G_VEC
  | LTH_VEC | LTH_STN_STAT | LTH_STN_ERR | LTH_STN_DROPS | LTH_STN_MODE
  | LTH_CHG_ITEM | LTH_CHG_VALUE | LTH_CHG_CTRL | LTH_CHG_STATUS | LTH_CHG_RES_IDX
  | LTH_CHG_RES | LTH_FRC_SID | LTH_FRC_VALUE | LTH_FRC_MASK | LTH_FRC_CTRL
  | LTH_FRC_STATUS | LTH_FRC_DROP_IDX | LTH_FRC_DROP | MTR_CFG | MTR_STATE
  | MTR_CTRL | MTR_SLICE_LEN | MTR_SLICES | MTR_EVENTS | MTR_LAST
  | MTR_LAST_LANES | MTR_LAST_SLICE | MTR_TEST | MTR_TEST_SIG | MTR_LMEM_ADDR
  | MTR_LMEM_DATA | MTR_ENTRY | MTR_INT_ROUTE | MTR_INT_ACK | MTR_DOORBELL
  | MTR_IRQ | MTR_IRQ_EN | MTR_VIEW_STAT | MTR_G_VEC | MTR_VEC
  | IOM_S2CFG | IOM_GIRQ | IOM_DIRTY_BASE | IOM_DIRTY_SIZE | IOM_DIRTY_MAP0
  | IOM_DIRTY_MAP1 | IOM_DIRTY_CTRL | IOM_DIRTY_STAT | IOM_DHELD | IOM_INVAL
  | IOM_INVAL_ADDR_LO | IOM_INVAL_ADDR_HI | IOM_INVAL_STAT | IOM_KEVT | IOM_KEVT_EN
  | IOM_GSTAT | IOM_DGRAN | IOM_SGRAN | IOM_S1CFG | IOM_S1ROOT_LO
  | IOM_S1ROOT_HI | IOM_S1INVAL | IOM_RFLT_INFO | IOM_RFLT_ADDR_LO | IOM_RFLT_ADDR_HI
  | IOM_RFLT_GPA_LO | IOM_RFLT_GPA_HI | DVT_PORT | DVT_PDROP | DVT_QLIM
  | DVT_QOCC | DVT_QDROP | DVT_QCBS | DVT_BUF_USED | DVT_BUF_CAP
  | DVT_CT_STOMP | DVT_DROP | DVT_CHARGE | DVT_VIEW_CHARGE | DVT_FDB_MAC_LO
  | DVT_FDB_MAC_HI | DVT_FDB_DEST_LO | DVT_FDB_DEST_HI | DVT_FDB_CTRL | DVT_FDB_STAT
  | DVT_FDB_COUNT | DVT_FDB_EVT | DVT_AGE | DVT_TRAP | DVT_LLEG
  | DVT_TBL_SEL | DVT_TBL_DATA | DVT_TBL_CTRL | DVT_TBL_STAT | DVT_CAP_CFG
  | DVT_CAP_PORTS_LO | DVT_CAP_PORTS_HI | DVT_CAP_LOST | EPT_PCFG | EPT_LINK
  | EPT_EVT | EPT_EVT_EN | EPT_PMAC | EPT_PSTAT | EPT_LDROPS
  | EPT_CNT | EPT_HALF_LO | EPT_HALF_HI | EPT_WAKE | EPT_WAKE_HIT
  | EPT_WMASK0 | EPT_WMASK1 | EPT_WMASK2 | EPT_WMASK3 | EPT_WCHECK
  | EPT_G_VEC | EPT_VEC | MSC_CFG | MSC_TXSCI_LO | MSC_TXSCI_HI
  | MSC_WINDOW | MSC_RXSCI_LO | MSC_RXSCI_HI | MSC_RXSC_CTRL | MSC_SA_CTRL
  | MSC_SA_PN_LO | MSC_SA_PN_HI | MSC_SA_SSCI | MSC_SA_SALT0 | MSC_SA_SALT1
  | MSC_SA_SALT2 | ZTM_NOW | ZTM_NOW_EP | ZTM_RAW | ZTM_EPOCH
  | ZTM_INCR_INT | ZTM_INCR_FRAC | ZTM_CTRL | ZTM_STEP | ZTM_PAIR_CTRL
  | ZTM_PAIR_RAW | ZTM_PAIR_NS | ZTM_PAIR_EP | ZTM_EVT | ZTM_EVT_EN
  | ZTM_PORT | ZTM_FB_CFG | ZTM_FB_REF | ZTM_FB_PERIOD | ZTM_FB_STAT
  | ZTM_FB_OFFS | ZTM_G_VEC | ZTM_VEC | CAN_CTRL | CAN_RECOVER
  | CAN_NBT | CAN_DBT | CAN_XBT | CAN_TDC | CAN_STAT
  | CAN_ERRC | CAN_EVT | CAN_EVT_EN | CAN_RXCFG | CAN_RXSTAT
  | CAN_RXDROP | CAN_LEC | CAN_QDROP | CAN_MRAM_IDX | CAN_MRAM_DATA
  | CAN_WAKE | CAN_TXDONE | CAN_TXDONE_EN | CAN_ACF_CFG | CAN_ACF_SID_LO
  | CAN_ACF_SID_HI | CAN_ACF_DA_LO | CAN_ACF_DA_HI | CAN_ACF_SA_LO | CAN_ACF_SA_HI
  | CAN_ACF_STAT | CAN_MB_ID | CAN_MB_CTL | CAN_MB_CMD | CAN_MB_STAMP
  | CAN_FLT_ID | CAN_FLT_MASK | CAN_FLT_CTL | CAN_FLT_HITS | CAN_G_VEC
  | CAN_VEC | DWL_REGION_BASE | DWL_REGION_SIZE | DWL_REGION_CFG | DWL_REGION_HITS
  | DWL_REGION_DISC | DWL_POLL | DWL_LINK | DWL_FN | DWL_SEM
  | DWL_SEQ | DWL_FENCE | DWL_FENCE_INFO | DWL_FENCE_ACK | DWL_EOI
  | DWL_VEVT | WLD_WM | WLD_STYLE | WLD_MONVEC_LO | WLD_MONVEC_HI
  | WLD_SECVEC_LO | WLD_SECVEC_HI | WLD_SVC | WLD_TIMEOUT | WLD_TIMEOUT_NS
  | WLD_DBG | WLD_MTR_WORLD | WLD_EVT | WLD_EVT_EN | WLD_RING_SEC
  | WLD_GATE_LO | WLD_GATE_HI | TIL_CMD | TIL_PARAM | TIL_NEW
  | TIL_SRC_LO | TIL_SRC_HI | TIL_SRC_LEN | TIL_DST_LO | TIL_DST_HI
  | TIL_DST_LEN | TIL_STAT | TIL_OUTLEN | TIL_LC | TIL_VDIG
  | TIL_ODIG | TIL_IDPUB | TIL_ENT | TIL_G_VEC | TIL_VEC
  | TIL_SLOT_ATTR | TIL_SLOT_HOLD | REC_CURSOR | REC_WIN | REC_LOG_EN
  | REC_TRACE_EN | REC_TRC_THRESH | REC_LOG_STAT | REC_LOG_SAMPLED | REC_LOG_LOST
  | REC_CFG_ITEM | REC_CFG_SRC | REC_CFG_LO | REC_CFG_WIDTH | REC_CFG_MODE
  | REC_CFG_CMD | REC_CFG_STAT | REC_CLEAR | REC_CLEARS | REC_FLUSH
  | REC_ALM_HEAD | REC_ALM_STAT | REC_EVT | REC_EVT_EN | REC_G_VEC
  | REC_VEC | UPD_MBX_HDR | UPD_MBX_LEN | UPD_MBX_CMD | UPD_MBX_STAT
  | UPD_SESS | UPD_SIZE | UPD_FILLED | UPD_LASTBOOT | UPD_ARB
  | UPD_CONFIRM | UPD_CONF_STAT | UPD_MBX_DATA | FAB_RET | FAB_SUS
  | FAB_CORE_STAT | FAB_SRAM_CE | FAB_RET_CLR | FAB_RET_CLR_STAT | FAB_RET_CLRS
  | FAB_SAFEN | FAB_SAFEN_MASK | FAB_SAFEN_CTRL

  deriving DecidableEq, Repr

/-- One row of a register table. `n1`, `st1` and `n2`, `st2` give the positions and their spacing. -/
structure RegDef where
  win : Win
  off : Nat
  n1 : Nat
  st1 : Nat
  n2 : Nat
  st2 : Nat
  kind : RegKind
  voff : Nat
  own : Own
  isl : IslRule
  vro : Bool
  shows : Option RegId
  fields : List FieldDef
  deriving DecidableEq, Repr

/-- The row of each register (rules cited beside the chapter that prints the table). -/
def regDef : RegId → RegDef
  | .CARC_ID => ⟨.carc, 0x0000, 1, 0, 1, 0, .glob, 0, .none, (.fix 1), false, none, [⟨31, 16, .ro, .never, 0x9640⟩, ⟨15, 8, .ro, .never, 0xa⟩, ⟨7, 0, .ro, .never, 1⟩]⟩
  | .CARC_GRADE => ⟨.carc, 0x0004, 1, 0, 1, 0, .glob, 0, .none, (.fix 1), false, none, [⟨7, 0, .ro, .never, 1⟩]⟩
  | .CARC_UID => ⟨.carc, 0x0010, 4, 4, 1, 0, .glob, 0, .none, (.fix 1), false, none, [⟨31, 0, .ro, .never, 0⟩]⟩
  | .CARC_STATUS => ⟨.carc, 0x0020, 1, 0, 1, 0, .glob, 0, .none, (.fix 1), false, none, [⟨1, 0, .ro, .sys, 0⟩, ⟨4, 4, .ro, .sys, 0⟩, ⟨5, 5, .ro, .sys, 0⟩, ⟨6, 6, .ro, .sys, 0⟩]⟩
  | .CARC_REJ => ⟨.carc, 0x0024, 2, 4, 1, 0, .glob, 0, .none, (.fix 1), false, none, [⟨7, 0, .ro, .sys, 0xff⟩, ⟨15, 8, .ro, .sys, 0⟩, ⟨27, 16, .ro, .sys, 0⟩]⟩
  | .CARC_DET => ⟨.carc, 0x002C, 2, 4, 1, 0, .glob, 0, .none, (.fix 1), false, none, [⟨15, 0, .ro, .sys, 0⟩]⟩
  | .CARC_SECVER => ⟨.carc, 0x0034, 1, 0, 1, 0, .glob, 0, .none, (.fix 1), false, none, [⟨31, 0, .ro, .sys, 0⟩]⟩
  | .CARC_BUILD => ⟨.carc, 0x0038, 1, 0, 1, 0, .glob, 0, .none, (.fix 1), false, none, [⟨31, 0, .ro, .sys, 0⟩]⟩
  | .CARC_HASH => ⟨.carc, 0x0040, 8, 4, 1, 0, .glob, 0, .none, (.fix 1), false, none, [⟨31, 0, .ro, .sys, 0⟩]⟩
  | .FAB_ISL_STATE => ⟨.fab, 0x0000, 41, 4, 1, 0, .glob, 0, .none, (.fix 0), false, none, [⟨2, 0, .ro, .sys, 0⟩, ⟨15, 8, .ro, .sys, 0⟩, ⟨17, 16, .ro, .sys, 0⟩, ⟨18, 18, .w1c, .sys, 0⟩]⟩
  | .FAB_ISL_REQ => ⟨.fab, 0x0100, 41, 4, 1, 0, .glob, 0, .none, (.fix 0), false, none, [⟨1, 0, .rw, .sys, 0⟩, ⟨8, 8, .ro, .sys, 0⟩]⟩
  | .FAB_CLAIM => ⟨.fab, 0x0200, 41, 4, 1, 0, .glob, 0, .none, (.fix 0), false, none, [⟨0, 0, .wo, .never, 0⟩, ⟨1, 1, .wo, .never, 0⟩, ⟨8, 8, .w1c, .sys, 0⟩, ⟨9, 9, .w1c, .sys, 0⟩]⟩
  | .FAB_ISL_CLK => ⟨.fab, 0x0400, 41, 4, 1, 0, .glob, 0, .none, (.fix 0), false, none, [⟨15, 0, .ro, .never, 0⟩, ⟨16, 16, .ro, .never, 0⟩, ⟨17, 17, .ro, .never, 0⟩]⟩
  | .FAB_ARB_PTR => ⟨.fab, 0x0500, 12, 4, 1, 0, .glob, 0, .none, .arb, false, none, [⟨3, 0, .ro, .isl, 0⟩]⟩
  | .FAB_AERR_ADDR_LO => ⟨.fab, 0x0600, 1, 0, 1, 0, .glob, 0, .none, (.fix 0), false, none, [⟨31, 0, .ro, .sys, 0⟩]⟩
  | .FAB_AERR_ADDR_HI => ⟨.fab, 0x0604, 1, 0, 1, 0, .glob, 0, .none, (.fix 0), false, none, [⟨7, 0, .ro, .sys, 0⟩]⟩
  | .FAB_AERR_INFO => ⟨.fab, 0x0608, 1, 0, 1, 0, .glob, 0, .none, (.fix 0), false, none, [⟨3, 0, .ro, .sys, 0⟩, ⟨4, 4, .ro, .sys, 0⟩, ⟨5, 5, .ro, .sys, 0⟩, ⟨11, 8, .ro, .sys, 0⟩, ⟨14, 12, .ro, .sys, 0⟩, ⟨31, 31, .w1c, .sys, 0⟩]⟩
  | .FAB_AERR_COUNT => ⟨.fab, 0x060C, 1, 0, 1, 0, .glob, 0, .none, (.fix 0), false, none, [⟨31, 0, .rc, .sys, 0⟩]⟩
  | .FAB_RST_CAUSE => ⟨.fab, 0x0700, 1, 0, 1, 0, .glob, 0, .none, (.fix 0), false, none, [⟨3, 0, .ro, .sys, 0⟩, ⟨4, 4, .ro, .sys, 0⟩, ⟨6, 5, .ro, .sys, 0⟩]⟩
  | .FAB_RST_REQ => ⟨.fab, 0x0704, 1, 0, 1, 0, .glob, 0, .none, (.fix 0), false, none, [⟨1, 0, .wo, .never, 0⟩, ⟨31, 16, .wo, .never, 0⟩]⟩
  | .FAB_PWR_STATUS => ⟨.fab, 0x0708, 1, 0, 1, 0, .glob, 0, .none, (.fix 0), false, none, [⟨0, 0, .ro, .never, 0⟩, ⟨1, 1, .ro, .sys, 0⟩, ⟨2, 2, .ro, .never, 0⟩, ⟨3, 3, .ro, .never, 0⟩, ⟨15, 8, .ro, .sys, 0⟩]⟩
  | .FAB_SLEEP_CTRL => ⟨.fab, 0x070C, 1, 0, 1, 0, .glob, 0, .none, (.fix 0), false, none, [⟨0, 0, .wo, .never, 0⟩, ⟨31, 16, .wo, .never, 0⟩]⟩
  | .FAB_SLEEP_STATUS => ⟨.fab, 0x0710, 1, 0, 1, 0, .glob, 0, .none, (.fix 0), false, none, [⟨1, 0, .ro, .por, 0⟩, ⟨6, 4, .ro, .por, 0⟩, ⟨15, 8, .ro, .por, 0⟩]⟩
  | .INP_MK_STATUS => ⟨.inp, 0xF000, 8, 4, 1, 0, .glob, 0, .none, (.fix 19), false, none, [⟨2, 0, .ro, .sys, 0⟩, ⟨3, 3, .ro, .sys, 0⟩, ⟨4, 4, .ro, .sys, 0⟩, ⟨14, 8, .ro, .sys, 0⟩, ⟨31, 16, .ro, .sys, 0⟩]⟩
  | .INP_MK_TYPE => ⟨.inp, 0xF020, 8, 4, 1, 0, .glob, 0, .none, (.fix 19), false, none, [⟨31, 0, .ro, .sys, 0⟩]⟩
  | .INP_MK_SERIAL => ⟨.inp, 0xF040, 8, 4, 1, 0, .glob, 0, .none, (.fix 19), false, none, [⟨31, 0, .ro, .sys, 0⟩]⟩
  | .DRW_MOVE_CTRL => ⟨.drw, 0x0000, 1, 0, 1, 0, .glob, 0, .none, (.fix 35), false, none, [⟨2, 0, .rw, .sys, 0⟩, ⟨8, 4, .rw, .sys, 0⟩, ⟨16, 12, .rw, .sys, 0⟩, ⟨31, 31, .wo, .never, 0⟩]⟩
  | .DRW_MOVE_ARG => ⟨.drw, 0x0004, 1, 0, 1, 0, .glob, 0, .none, (.fix 35), false, none, [⟨15, 0, .rw, .sys, 0⟩, ⟨31, 16, .rw, .sys, 0⟩]⟩
  | .DRW_MOVE_STATUS => ⟨.drw, 0x0008, 1, 0, 1, 0, .glob, 0, .none, (.fix 35), false, none, [⟨1, 0, .ro, .sys, 0⟩, ⟨7, 4, .ro, .sys, 0⟩, ⟨8, 8, .w1c, .sys, 0⟩]⟩
  | .DRW_RST_REQ => ⟨.drw, 0x0010, 1, 0, 1, 0, .glob, 0, .none, (.fix 35), false, none, [⟨3, 0, .wo, .never, 0⟩, ⟨4, 4, .wo, .never, 0⟩, ⟨31, 16, .wo, .never, 0⟩]⟩
  | .DRW_G_STATE => ⟨.drw, 0x0100, 16, 4, 1, 0, .glob, 0, .none, (.fix 35), false, none, [⟨1, 0, .ro, .sys, 0⟩, ⟨2, 2, .ro, .sys, 0⟩, ⟨3, 3, .ro, .sys, 0⟩, ⟨4, 4, .w1c, .sys, 0⟩]⟩
  | .DRW_BIND => ⟨.drw, 0x0200, 16, 4, 1, 0, .glob, 0, .none, (.fix 35), false, none, [⟨0, 0, .rw, .sys, 0⟩, ⟨31, 16, .rw, .sys, 0⟩]⟩
  | .DRW_G_HOLD => ⟨.drw, 0x0404, 16, 0x20, 6, 4, .glob, 0, .none, (.fix 35), false, none, [⟨15, 0, .ro, .sys, 0⟩]⟩
  | .DRW_HOLD => ⟨.drw, 0x0044, 6, 4, 1, 0, .view, 0x0044, .none, (.fix 35), false, some .DRW_G_HOLD, [⟨15, 0, .ro, .sys, 0⟩]⟩
  | .DRW_FEAT_OFFER => ⟨.drw, 0, 4, 4, 1, 0, .view, 0x0000, .none, (.fix 35), false, none, [⟨31, 0, .ro, .sys, 0⟩]⟩
  | .DRW_FEAT_ACCEPT => ⟨.drw, 0, 4, 4, 1, 0, .view, 0x0010, .none, (.fix 35), false, none, [⟨31, 0, .rw, .drw, 0⟩]⟩
  | .DRW_FEAT_CTRL => ⟨.drw, 0, 1, 0, 1, 0, .view, 0x0020, .none, (.fix 35), false, none, [⟨0, 0, .wo, .never, 0⟩]⟩
  | .DRW_FEAT_STATUS => ⟨.drw, 0, 1, 0, 1, 0, .view, 0x0024, .none, (.fix 35), false, none, [⟨2, 0, .ro, .drw, 0⟩, ⟨14, 8, .ro, .drw, 0⟩]⟩
  | .DRW_STATE => ⟨.drw, 0, 1, 0, 1, 0, .view, 0x0028, .none, (.fix 35), false, some .DRW_G_STATE, [⟨1, 0, .ro, .sys, 0⟩]⟩
  | .DRW_RST => ⟨.drw, 0, 1, 0, 1, 0, .view, 0x002C, .none, (.fix 35), false, none, [⟨0, 0, .wo, .never, 0⟩, ⟨31, 16, .wo, .never, 0⟩]⟩
  | .DRW_IRQ_STATUS => ⟨.drw, 0, 1, 0, 1, 0, .view, 0x0060, .none, (.fix 35), false, none, [⟨0, 0, .w1c, .drw, 0⟩, ⟨1, 1, .w1c, .drw, 0⟩, ⟨2, 2, .w1c, .sys, 0⟩]⟩
  | .DRW_IRQ_MASK => ⟨.drw, 0, 2, 4, 1, 0, .view, 0x0064, .none, (.fix 35), false, none, [⟨31, 0, .rw, .drw, 0⟩]⟩
  | .DRW_FAULT_HEAD => ⟨.drw, 0, 4, 4, 1, 0, .view, 0x0070, .none, (.fix 35), false, none, [⟨31, 0, .ro, .drw, 0⟩]⟩
  | .DRW_FAULT_STAT => ⟨.drw, 0, 1, 0, 1, 0, .view, 0x0080, .none, (.fix 35), false, none, [⟨4, 0, .ro, .drw, 0⟩, ⟨8, 8, .wo, .never, 0⟩, ⟨31, 16, .rc, .drw, 0⟩]⟩
  | .DRW_RING_OWN => ⟨.drw, 0, 8, 4, 1, 0, .view, 0x00A0, .none, (.fix 35), false, none, [⟨31, 0, .ro, .sys, 0⟩]⟩
  | .RING_BASE_LO => ⟨.ring, 0x00, 256, 0x40, 1, 0, .both, 0x00, .ring, (.fix 38), false, none, [⟨31, 0, .rw, .drw, 0⟩]⟩
  | .RING_BASE_HI => ⟨.ring, 0x04, 256, 0x40, 1, 0, .both, 0x04, .ring, (.fix 38), false, none, [⟨15, 0, .rw, .drw, 0⟩]⟩
  | .RING_CFG => ⟨.ring, 0x08, 256, 0x40, 1, 0, .both, 0x08, .ring, (.fix 38), false, none, [⟨3, 0, .rw, .drw, 0⟩, ⟨7, 4, .rw, .drw, 0⟩, ⟨13, 8, .rw, .drw, 0⟩, ⟨17, 16, .rw, .drw, 0⟩, ⟨23, 18, .rw, .drw, 0⟩, ⟨31, 24, .rw, .drw, 0⟩]⟩
  | .RING_CTRL => ⟨.ring, 0x0C, 256, 0x40, 1, 0, .both, 0x0C, .ring, (.fix 38), false, none, [⟨0, 0, .rw, .drw, 0⟩, ⟨1, 1, .wo, .never, 0⟩]⟩
  | .RING_TAIL => ⟨.ring, 0x10, 256, 0x40, 1, 0, .both, 0x10, .ring, (.fix 38), false, none, [⟨15, 0, .rw, .drw, 0⟩]⟩
  | .RING_HEAD => ⟨.ring, 0x14, 256, 0x40, 1, 0, .both, 0x14, .ring, (.fix 38), false, none, [⟨15, 0, .rw, .drw, 0⟩]⟩
  | .RING_STATE => ⟨.ring, 0x18, 256, 0x40, 1, 0, .both, 0x18, .ring, (.fix 38), false, none, [⟨1, 0, .ro, .drw, 0⟩, ⟨10, 8, .ro, .drw, 0⟩]⟩
  | .RING_FAULT => ⟨.ring, 0x1C, 256, 0x40, 1, 0, .both, 0x1C, .ring, (.fix 38), false, none, [⟨15, 0, .ro, .drw, 0⟩]⟩
  | .RING_FAULT_OFF => ⟨.ring, 0x20, 256, 0x40, 1, 0, .both, 0x20, .ring, (.fix 38), false, none, [⟨23, 0, .ro, .drw, 0⟩]⟩
  | .RING_DROPS => ⟨.ring, 0x24, 256, 0x40, 1, 0, .both, 0x24, .ring, (.fix 38), false, none, [⟨31, 0, .rc, .drw, 0⟩]⟩
  | .LCH_CMD => ⟨.lch, 0x00, 96, 0x20, 1, 0, .both, 0x00, .chan, .bank, false, none, [⟨0, 0, .rw, .sys, 0⟩, ⟨1, 1, .wo, .never, 0⟩]⟩
  | .LCH_FLAGS => ⟨.lch, 0x04, 96, 0x20, 1, 0, .both, 0x04, .chan, .bank, false, none, [⟨13, 0, .ro, .por, 0⟩]⟩
  | .LCH_EVENTS => ⟨.lch, 0x08, 96, 0x20, 1, 0, .both, 0x08, .chan, .bank, false, none, [⟨13, 0, .w1c, .drw, 0⟩]⟩
  | .LCH_IRQ_EN => ⟨.lch, 0x0C, 96, 0x20, 1, 0, .both, 0x0C, .chan, .bank, false, none, [⟨13, 0, .rw, .drw, 0⟩]⟩
  | .LCH_STATE => ⟨.lch, 0x10, 96, 0x20, 1, 0, .both, 0x10, .chan, .bank, false, none, [⟨1, 0, .ro, .por, 0⟩, ⟨3, 2, .ro, .por, 0⟩, ⟨6, 4, .ro, .por, 0⟩, ⟨7, 7, .ro, .por, 0⟩, ⟨11, 8, .ro, .por, 0⟩]⟩
  | .LCH_CFG => ⟨.lch, 0x14, 96, 0x20, 1, 0, .both, 0x14, .chan, .bank, false, none, [⟨2, 0, .ro, .sys, 0⟩, ⟨5, 4, .ro, .sys, 0⟩, ⟨9, 8, .ro, .sys, 0⟩, ⟨14, 10, .ro, .sys, 0⟩, ⟨19, 16, .ro, .sys, 0⟩, ⟨20, 20, .ro, .sys, 0⟩]⟩
  | .LCH_WIRE => ⟨.lch, 0x18, 96, 0x20, 1, 0, .both, 0x18, .chan, .bank, false, none, [⟨15, 0, .ro, .sys, 0⟩, ⟨18, 16, .ro, .sys, 0⟩, ⟨19, 19, .ro, .sys, 0⟩]⟩
  | .LCH_G_VEC => ⟨.lch, 0x0C40, 16, 4, 1, 0, .glob, 0, .none, (.fix 35), false, none, [⟨5, 0, .rw, .drw, 2⟩]⟩
  | .LCH_VEC => ⟨.lch, 0, 1, 0, 1, 0, .view, 0x0C00, .none, (.fix 35), false, some .LCH_G_VEC, [⟨5, 0, .rw, .drw, 2⟩]⟩
  | .LCH_WIRE_AMB => ⟨.lch, 0x0C80, 1, 0, 1, 0, .glob, 0, .none, (.fix 35), false, none, [⟨7, 0, .rw, .por, 0x41⟩]⟩
  | .LCH_PWM => ⟨.lch, 0x0D00, 32, 4, 1, 0, .both, 0x0D00, .pwm, (.fix 35), true, none, [⟨14, 0, .ro, .sys, 0⟩, ⟨15, 15, .ro, .sys, 0⟩, ⟨29, 16, .ro, .sys, 0⟩]⟩
  | .LCH_PROT => ⟨.lch, 0x1C, 96, 0x20, 1, 0, .both, 0x1C, .chan, .bank, false, none, [⟨2, 0, .ro, .por, 0⟩, ⟨7, 4, .ro, .por, 0⟩, ⟨8, 8, .ro, .por, 0⟩, ⟨9, 9, .ro, .por, 0⟩, ⟨10, 10, .ro, .por, 0⟩, ⟨11, 11, .w1c, .drw, 0⟩, ⟨12, 12, .ro, .por, 0⟩, ⟨13, 13, .ro, .sys, 0⟩, ⟨17, 16, .ro, .never, 0⟩]⟩
  | .FEED_STATUS => ⟨.feed, 0x00, 2, 0x20, 1, 0, .both, 0x00, .feed, .feed, true, none, [⟨0, 0, .ro, .por, 0⟩, ⟨1, 1, .w1c, .sys, 0⟩, ⟨14, 8, .ro, .por, 0⟩, ⟨16, 16, .ro, .sys, 0⟩]⟩
  | .FEED_LIMIT => ⟨.feed, 0x04, 2, 0x20, 1, 0, .both, 0x04, .feed, .feed, true, none, [⟨15, 0, .rw, .sys, 0⟩]⟩
  | .FEED_BUDGET => ⟨.feed, 0x08, 2, 0x20, 1, 0, .both, 0x08, .feed, .feed, true, none, [⟨15, 0, .ro, .sys, 0⟩]⟩
  | .FEED_SHEDS => ⟨.feed, 0x0C, 2, 0x20, 1, 0, .both, 0x0C, .feed, .feed, true, none, [⟨31, 0, .rc, .sys, 0⟩]⟩
  | .FEED_EVENTS => ⟨.feed, 0x10, 2, 0x20, 1, 0, .both, 0x10, .feed, .feed, true, none, [⟨0, 0, .w1c, .sys, 0⟩, ⟨1, 1, .w1c, .sys, 0⟩, ⟨2, 2, .w1c, .sys, 0⟩]⟩
  | .FEED_IRQ_EN => ⟨.feed, 0x14, 2, 0x20, 1, 0, .both, 0x14, .feed, .feed, true, none, [⟨0, 0, .rw, .sys, 0⟩, ⟨1, 1, .rw, .sys, 0⟩, ⟨2, 2, .rw, .sys, 0⟩]⟩
  | .INP_MI_CFG => ⟨.inp, 0x00, 128, 0x10, 1, 0, .both, 0x00, .miPin, (.fix 19), false, none, [⟨2, 0, .ro, .sys, 0⟩, ⟨3, 3, .ro, .sys, 0⟩, ⟨7, 4, .ro, .sys, 0⟩, ⟨15, 8, .ro, .sys, 0⟩, ⟨31, 16, .ro, .sys, 0⟩]⟩
  | .INP_MI_VAL => ⟨.inp, 0x04, 128, 0x10, 1, 0, .both, 0x04, .miPin, (.fix 19), false, none, [⟨27, 0, .ro, .isl, 0⟩]⟩
  | .INP_MI_STAT => ⟨.inp, 0x08, 128, 0x10, 1, 0, .both, 0x08, .miPin, (.fix 19), false, none, [⟨0, 0, .ro, .isl, 0⟩, ⟨1, 1, .ro, .isl, 0⟩, ⟨2, 2, .ro, .isl, 0⟩, ⟨3, 3, .ro, .isl, 0⟩, ⟨4, 4, .ro, .sys, 0⟩, ⟨5, 5, .ro, .never, 0⟩, ⟨8, 8, .w1c, .drw, 0⟩, ⟨9, 9, .w1c, .drw, 0⟩, ⟨10, 10, .w1c, .drw, 0⟩, ⟨18, 16, .rw, .drw, 0⟩]⟩
  | .INP_MI_EDGES => ⟨.inp, 0x0C, 128, 0x10, 1, 0, .both, 0x0C, .miPin, (.fix 19), false, none, [⟨31, 0, .ro, .isl, 0⟩]⟩
  | .INP_DRV => ⟨.inp, 0x0800, 16, 4, 1, 0, .both, 0x0800, .drvPin, (.fix 19), false, none, [⟨0, 0, .ro, .isl, 0⟩, ⟨1, 1, .ro, .sys, 0⟩, ⟨2, 2, .ro, .sys, 0⟩]⟩
  | .INP_G_VEC => ⟨.inp, 0x0C40, 16, 4, 1, 0, .glob, 0, .none, (.fix 19), false, none, [⟨5, 0, .rw, .drw, 2⟩]⟩
  | .INP_VEC => ⟨.inp, 0, 1, 0, 1, 0, .view, 0x0C00, .none, (.fix 19), false, some .INP_G_VEC, [⟨5, 0, .rw, .drw, 2⟩]⟩
  | .CLP_STAT => ⟨.clp, 0x00, 64, 0x10, 1, 0, .both, 0x00, .clampRule, (.fix 14), false, none, [⟨1, 0, .ro, .por, 0⟩, ⟨7, 4, .ro, .isl, 0⟩, ⟨8, 8, .ro, .isl, 0⟩, ⟨16, 16, .w1c, .drw, 0⟩, ⟨17, 17, .w1c, .drw, 0⟩, ⟨25, 24, .rw, .drw, 0⟩]⟩
  | .CLP_FIRES => ⟨.clp, 0x04, 64, 0x10, 1, 0, .both, 0x04, .clampRule, (.fix 14), false, none, [⟨15, 0, .rc, .isl, 0⟩]⟩
  | .CLP_CFG => ⟨.clp, 0x08, 64, 0x10, 1, 0, .both, 0x08, .clampRule, (.fix 14), false, none, [⟨31, 0, .ro, .sys, 0⟩]⟩
  | .CLP_PINS => ⟨.clp, 0x0C, 64, 0x10, 1, 0, .both, 0x0C, .clampRule, (.fix 14), false, none, [⟨31, 0, .ro, .sys, 0⟩]⟩
  | .CLP_ACK => ⟨.clp, 0x0400, 1, 0, 1, 0, .glob, 0, .none, (.fix 14), false, none, [⟨5, 0, .wo, .never, 0⟩, ⟨31, 31, .wo, .never, 0⟩]⟩
  | .CLP_ACK_STATUS => ⟨.clp, 0x0404, 1, 0, 1, 0, .glob, 0, .none, (.fix 14), false, none, [⟨1, 0, .ro, .isl, 0⟩, ⟨13, 8, .ro, .isl, 0⟩]⟩
  | .CLP_CHAN => ⟨.clp, 0x0800, 96, 4, 1, 0, .both, 0x0800, .chan, (.fix 14), false, none, [⟨0, 0, .ro, .por, 0⟩, ⟨1, 1, .ro, .por, 0⟩, ⟨2, 2, .ro, .por, 0⟩, ⟨13, 8, .ro, .por, 0⟩]⟩
  | .LTH_STATE => ⟨.lth, 0x0000, 1, 0, 1, 0, .both, 0x0000, .none, (.fix 13), true, none, [⟨2, 0, .ro, .sys, 0⟩, ⟨5, 4, .ro, .sys, 0⟩, ⟨6, 6, .ro, .never, 0⟩, ⟨10, 8, .ro, .sys, 0⟩, ⟨12, 12, .w1c, .sys, 0⟩]⟩
  | .LTH_CTRL => ⟨.lth, 0x0004, 1, 0, 1, 0, .glob, 0, .none, (.fix 13), false, none, [⟨1, 0, .wo, .never, 0⟩, ⟨31, 16, .wo, .never, 0⟩]⟩
  | .LTH_PHASH => ⟨.lth, 0x0010, 8, 4, 1, 0, .glob, 0, .none, (.fix 13), false, none, [⟨31, 0, .ro, .sys, 0⟩]⟩
  | .LTH_CHK_ITEM => ⟨.lth, 0x0030, 2, 4, 1, 0, .glob, 0, .none, (.fix 13), false, none, [⟨16, 0, .ro, .sys, 0⟩]⟩
  | .LTH_TASK_CFG => ⟨.lth, 0x0100, 9, 0x20, 1, 0, .both, 0x0100, .lthTask, (.fix 13), false, none, [⟨0, 0, .ro, .sys, 0⟩, ⟨1, 1, .ro, .sys, 0⟩, ⟨31, 12, .ro, .sys, 0⟩]⟩
  | .LTH_TASK_STAT => ⟨.lth, 0x0104, 9, 0x20, 1, 0, .both, 0x0104, .lthTask, (.fix 13), false, none, [⟨1, 0, .ro, .sys, 0⟩, ⟨5, 4, .ro, .sys, 0⟩, ⟨8, 8, .w1c, .drw, 0⟩, ⟨9, 9, .w1c, .drw, 0⟩, ⟨10, 10, .w1c, .drw, 0⟩, ⟨18, 16, .rw, .drw, 0⟩]⟩
  | .LTH_TASK_OVR => ⟨.lth, 0x0108, 9, 0x20, 1, 0, .both, 0x0108, .lthTask, (.fix 13), false, none, [⟨15, 0, .rc, .sys, 0⟩, ⟨31, 16, .rc, .sys, 0⟩]⟩
  | .LTH_TASK_TIME => ⟨.lth, 0x010C, 9, 0x20, 1, 0, .both, 0x010C, .lthTask, (.fix 13), false, none, [⟨15, 0, .ro, .sys, 0⟩]⟩
  | .LTH_TASK_TMAX => ⟨.lth, 0x0110, 9, 0x20, 1, 0, .both, 0x0110, .lthTask, (.fix 13), false, none, [⟨15, 0, .rc, .sys, 0⟩]⟩
  | .LTH_TASK_RESP => ⟨.lth, 0x0114, 9, 0x20, 1, 0, .both, 0x0114, .lthTask, (.fix 13), false, none, [⟨23, 0, .ro, .sys, 0⟩]⟩
  | .LTH_TASK_CTRL => ⟨.lth, 0x0118, 9, 0x20, 1, 0, .both, 0x0118, .lthTask, (.fix 13), false, none, [⟨0, 0, .wo, .never, 0⟩]⟩
  | .LTH_TASK_COUNT => ⟨.lth, 0x011C, 9, 0x20, 1, 0, .both, 0x011C, .lthTask, (.fix 13), false, none, [⟨31, 0, .ro, .sys, 0⟩]⟩
  | .LTH_ERR_STAT => ⟨.lth, 0x0400, 1, 0, 1, 0, .glob, 0, .none, (.fix 13), false, none, [⟨4, 0, .ro, .sys, 0⟩, ⟨8, 8, .wo, .never, 0⟩, ⟨15, 12, .ro, .sys, 0⟩, ⟨31, 16, .rc, .sys, 0⟩]⟩
  | .LTH_ERR_HEAD => ⟨.lth, 0x0404, 4, 4, 1, 0, .glob, 0, .none, (.fix 13), false, none, [⟨31, 0, .ro, .sys, 0⟩]⟩
  | .LTH_SLOT_IDX => ⟨.lth, 0x0800, 1, 0, 1, 0, .copy, 0x0800, .none, (.fix 13), false, none, [⟨13, 0, .rw, .drw, 0⟩, ⟨16, 16, .rw, .drw, 0⟩]⟩
  | .LTH_SLOT_DATA => ⟨.lth, 0x0804, 1, 0, 1, 0, .copy, 0x0804, .none, (.fix 13), false, none, [⟨31, 0, .ro, .never, 0⟩]⟩
  | .LTH_HIN => ⟨.lth, 0x1000, 256, 4, 1, 0, .both, 0x1000, .hostWord, (.fix 13), false, none, [⟨31, 0, .rw, .sys, 0⟩]⟩
  | .LTH_G_VEC => ⟨.lth, 0x0C40, 16, 4, 1, 0, .glob, 0, .none, (.fix 13), false, none, [⟨5, 0, .rw, .drw, 2⟩]⟩
  | .LTH_VEC => ⟨.lth, 0, 1, 0, 1, 0, .view, 0x0C00, .none, (.fix 13), false, some .LTH_G_VEC, [⟨5, 0, .rw, .drw, 2⟩]⟩
  | .LTH_STN_STAT => ⟨.lth, 0x2000, 64, 0x10, 1, 0, .both, 0x2000, .station, (.fix 13), false, none, [⟨1, 0, .ro, .sys, 0⟩, ⟨2, 2, .ro, .sys, 0⟩, ⟨3, 3, .ro, .sys, 0⟩, ⟨8, 8, .w1c, .drw, 0⟩, ⟨9, 9, .w1c, .drw, 0⟩, ⟨17, 16, .rw, .drw, 0⟩]⟩
  | .LTH_STN_ERR => ⟨.lth, 0x2004, 64, 0x10, 1, 0, .both, 0x2004, .station, (.fix 13), false, none, [⟨15, 0, .rc, .sys, 0⟩, ⟨31, 16, .rc, .sys, 0⟩]⟩
  | .LTH_STN_DROPS => ⟨.lth, 0x2008, 64, 0x10, 1, 0, .both, 0x2008, .station, (.fix 13), false, none, [⟨15, 0, .rc, .sys, 0⟩]⟩
  | .LTH_STN_MODE => ⟨.lth, 0x2400, 8, 4, 1, 0, .both, 0x2400, .lthTask, (.fix 13), false, none, [⟨0, 0, .rw, .sys, 0⟩]⟩
  | .LTH_CHG_ITEM => ⟨.lth, 0x2800, 1, 0, 1, 0, .copy, 0x2800, .none, (.fix 13), false, none, [⟨31, 0, .wo, .never, 0⟩]⟩
  | .LTH_CHG_VALUE => ⟨.lth, 0x2804, 1, 0, 1, 0, .copy, 0x2804, .none, (.fix 13), false, none, [⟨31, 0, .rw, .drw, 0⟩]⟩
  | .LTH_CHG_CTRL => ⟨.lth, 0x2808, 1, 0, 1, 0, .copy, 0x2808, .none, (.fix 13), false, none, [⟨0, 0, .wo, .never, 0⟩, ⟨1, 1, .wo, .never, 0⟩]⟩
  | .LTH_CHG_STATUS => ⟨.lth, 0x280C, 1, 0, 1, 0, .copy, 0x280C, .none, (.fix 13), false, none, [⟨3, 0, .ro, .drw, 0⟩, ⟨16, 8, .ro, .drw, 0⟩, ⟨31, 24, .ro, .drw, 0⟩]⟩
  | .LTH_CHG_RES_IDX => ⟨.lth, 0x2810, 1, 0, 1, 0, .copy, 0x2810, .none, (.fix 13), false, none, [⟨7, 0, .rw, .drw, 0⟩]⟩
  | .LTH_CHG_RES => ⟨.lth, 0x2814, 1, 0, 1, 0, .copy, 0x2814, .none, (.fix 13), false, none, [⟨2, 0, .ro, .drw, 0⟩]⟩
  | .LTH_FRC_SID => ⟨.lth, 0x2C00, 1, 0, 1, 0, .copy, 0x2C00, .none, (.fix 13), false, none, [⟨31, 0, .rw, .drw, 0⟩]⟩
  | .LTH_FRC_VALUE => ⟨.lth, 0x2C04, 1, 0, 1, 0, .copy, 0x2C04, .none, (.fix 13), false, none, [⟨31, 0, .rw, .drw, 0⟩]⟩
  | .LTH_FRC_MASK => ⟨.lth, 0x2C08, 1, 0, 1, 0, .copy, 0x2C08, .none, (.fix 13), false, none, [⟨31, 0, .rw, .drw, 0⟩]⟩
  | .LTH_FRC_CTRL => ⟨.lth, 0x2C0C, 1, 0, 1, 0, .copy, 0x2C0C, .none, (.fix 13), false, none, [⟨1, 0, .wo, .never, 0⟩]⟩
  | .LTH_FRC_STATUS => ⟨.lth, 0x2C10, 1, 0, 1, 0, .copy, 0x2C10, .none, (.fix 13), false, none, [⟨2, 0, .ro, .drw, 0⟩, ⟨25, 16, .ro, .por, 0⟩]⟩
  | .LTH_FRC_DROP_IDX => ⟨.lth, 0x2C14, 1, 0, 1, 0, .both, 0x2C14, .none, (.fix 13), true, none, [⟨8, 0, .rw, .sys, 0⟩, ⟨25, 16, .ro, .sys, 0⟩]⟩
  | .LTH_FRC_DROP => ⟨.lth, 0x2C18, 1, 0, 1, 0, .both, 0x2C18, .none, (.fix 13), true, none, [⟨31, 0, .ro, .sys, 0⟩]⟩
  | .MTR_CFG => ⟨.mtr, 0x0000, 1, 0, 1, 0, .glob, 0, .none, (.fix 12), false, none, [⟨0, 0, .ro, .sys, 0⟩, ⟨31, 16, .ro, .sys, 0⟩]⟩
  | .MTR_STATE => ⟨.mtr, 0x0004, 1, 0, 1, 0, .both, 0x0000, .mtrServed, (.fix 12), true, none, [⟨2, 0, .ro, .sys, 0⟩, ⟨5, 4, .ro, .sys, 0⟩, ⟨10, 8, .ro, .sys, 0⟩, ⟨13, 12, .ro, .sys, 0⟩, ⟨16, 16, .w1c, .sys, 0⟩]⟩
  | .MTR_CTRL => ⟨.mtr, 0x0008, 1, 0, 1, 0, .glob, 0, .none, (.fix 12), false, none, [⟨2, 0, .wo, .never, 0⟩, ⟨5, 4, .wo, .never, 0⟩, ⟨31, 16, .wo, .never, 0⟩]⟩
  | .MTR_SLICE_LEN => ⟨.mtr, 0x000C, 1, 0, 1, 0, .glob, 0, .none, (.fix 12), false, none, [⟨16, 0, .rw, .sys, 0x1000⟩]⟩
  | .MTR_SLICES => ⟨.mtr, 0x0010, 1, 0, 1, 0, .glob, 0, .none, (.fix 12), false, none, [⟨31, 0, .ro, .sys, 0⟩]⟩
  | .MTR_EVENTS => ⟨.mtr, 0x0014, 1, 0, 1, 0, .glob, 0, .none, (.fix 12), false, none, [⟨15, 0, .rc, .sys, 0⟩, ⟨31, 16, .rc, .sys, 0⟩]⟩
  | .MTR_LAST => ⟨.mtr, 0x0018, 1, 0, 1, 0, .glob, 0, .none, (.fix 12), false, none, [⟨1, 0, .ro, .sys, 0⟩, ⟨3, 2, .ro, .sys, 0⟩, ⟨4, 4, .ro, .sys, 0⟩, ⟨14, 8, .ro, .sys, 0⟩]⟩
  | .MTR_LAST_LANES => ⟨.mtr, 0x001C, 1, 0, 1, 0, .glob, 0, .none, (.fix 12), false, none, [⟨31, 0, .ro, .sys, 0⟩]⟩
  | .MTR_LAST_SLICE => ⟨.mtr, 0x0020, 1, 0, 1, 0, .glob, 0, .none, (.fix 12), false, none, [⟨31, 0, .ro, .sys, 0⟩]⟩
  | .MTR_TEST => ⟨.mtr, 0x0024, 1, 0, 1, 0, .glob, 0, .none, (.fix 12), false, none, [⟨31, 0, .ro, .sys, 0⟩]⟩
  | .MTR_TEST_SIG => ⟨.mtr, 0x0028, 1, 0, 1, 0, .glob, 0, .none, (.fix 12), false, none, [⟨0, 0, .ro, .sys, 0⟩, ⟨1, 1, .ro, .sys, 0⟩]⟩
  | .MTR_LMEM_ADDR => ⟨.mtr, 0x0030, 1, 0, 1, 0, .glob, 0, .none, (.fix 12), false, none, [⟨21, 2, .rw, .sys, 0⟩, ⟨31, 31, .rw, .sys, 0⟩]⟩
  | .MTR_LMEM_DATA => ⟨.mtr, 0x0034, 1, 0, 1, 0, .glob, 0, .none, (.fix 12), false, none, [⟨31, 0, .rw, .never, 0⟩]⟩
  | .MTR_ENTRY => ⟨.mtr, 0x0040, 2, 4, 1, 0, .glob, 0, .none, (.fix 12), false, none, [⟨31, 1, .rw, .sys, 0x20000000⟩]⟩
  | .MTR_INT_ROUTE => ⟨.mtr, 0x0050, 1, 0, 1, 0, .glob, 0, .none, (.fix 12), false, none, [⟨15, 0, .rw, .sys, 0⟩]⟩
  | .MTR_INT_ACK => ⟨.mtr, 0x0054, 1, 0, 1, 0, .glob, 0, .none, (.fix 12), false, none, [⟨15, 0, .w1c, .sys, 0⟩]⟩
  | .MTR_DOORBELL => ⟨.mtr, 0x0058, 1, 0, 1, 0, .glob, 0, .none, (.fix 12), false, none, [⟨0, 0, .wo, .never, 0⟩]⟩
  | .MTR_IRQ => ⟨.mtr, 0x0060, 1, 0, 1, 0, .glob, 0, .none, (.fix 12), false, none, [⟨0, 0, .w1c, .sys, 0⟩, ⟨1, 1, .w1c, .sys, 0⟩, ⟨2, 2, .w1c, .sys, 0⟩]⟩
  | .MTR_IRQ_EN => ⟨.mtr, 0x0064, 1, 0, 1, 0, .glob, 0, .none, (.fix 12), false, none, [⟨0, 0, .rw, .sys, 0⟩, ⟨1, 1, .rw, .sys, 0⟩, ⟨2, 2, .rw, .sys, 0⟩]⟩
  | .MTR_VIEW_STAT => ⟨.mtr, 0, 1, 0, 1, 0, .view, 0x0004, .mtrServed, (.fix 12), false, none, [⟨0, 0, .w1c, .drw, 0⟩, ⟨16, 16, .rw, .drw, 0⟩]⟩
  | .MTR_G_VEC => ⟨.mtr, 0x0C40, 16, 4, 1, 0, .glob, 0, .none, (.fix 12), false, none, [⟨5, 0, .rw, .drw, 2⟩]⟩
  | .MTR_VEC => ⟨.mtr, 0, 1, 0, 1, 0, .view, 0x0C00, .none, (.fix 12), false, some .MTR_G_VEC, [⟨5, 0, .rw, .drw, 2⟩]⟩
  | .IOM_S2CFG => ⟨.iom, 0x0000, 16, 0x40, 1, 0, .glob, 0, .none, (.fix 37), false, none, [⟨1, 0, .rw, .sys, 0⟩, ⟨31, 6, .rw, .sys, 0⟩]⟩
  | .IOM_GIRQ => ⟨.iom, 0x0004, 16, 0x40, 1, 0, .glob, 0, .none, (.fix 37), false, none, [⟨2, 0, .rw, .sys, 0⟩, ⟨6, 4, .rw, .sys, 0⟩, ⟨31, 16, .rc, .sys, 0⟩]⟩
  | .IOM_DIRTY_BASE => ⟨.iom, 0x0008, 16, 0x40, 1, 0, .glob, 0, .none, (.fix 37), false, none, [⟨17, 0, .rw, .sys, 0⟩]⟩
  | .IOM_DIRTY_SIZE => ⟨.iom, 0x000C, 16, 0x40, 1, 0, .glob, 0, .none, (.fix 37), false, none, [⟨6, 0, .rw, .sys, 0⟩]⟩
  | .IOM_DIRTY_MAP0 => ⟨.iom, 0x0010, 16, 0x40, 1, 0, .glob, 0, .none, (.fix 37), false, none, [⟨27, 0, .rw, .sys, 0⟩]⟩
  | .IOM_DIRTY_MAP1 => ⟨.iom, 0x0014, 16, 0x40, 1, 0, .glob, 0, .none, (.fix 37), false, none, [⟨27, 0, .rw, .sys, 0⟩]⟩
  | .IOM_DIRTY_CTRL => ⟨.iom, 0x0018, 16, 0x40, 1, 0, .glob, 0, .none, (.fix 37), false, none, [⟨0, 0, .wo, .never, 0⟩]⟩
  | .IOM_DIRTY_STAT => ⟨.iom, 0x001C, 16, 0x40, 1, 0, .glob, 0, .none, (.fix 37), false, none, [⟨0, 0, .ro, .sys, 0⟩, ⟨1, 1, .ro, .sys, 0⟩, ⟨2, 2, .w1c, .sys, 0⟩, ⟨31, 16, .ro, .sys, 0⟩]⟩
  | .IOM_DHELD => ⟨.iom, 0x0020, 16, 0x40, 1, 0, .glob, 0, .none, (.fix 37), false, none, [⟨12, 0, .ro, .sys, 0⟩, ⟨25, 16, .ro, .sys, 0⟩]⟩
  | .IOM_INVAL => ⟨.iom, 0x0400, 1, 0, 1, 0, .glob, 0, .none, (.fix 37), false, none, [⟨1, 0, .wo, .never, 0⟩, ⟨7, 4, .wo, .never, 0⟩, ⟨31, 31, .wo, .never, 0⟩]⟩
  | .IOM_INVAL_ADDR_LO => ⟨.iom, 0x0404, 1, 0, 1, 0, .glob, 0, .none, (.fix 37), false, none, [⟨31, 0, .rw, .sys, 0⟩]⟩
  | .IOM_INVAL_ADDR_HI => ⟨.iom, 0x0408, 1, 0, 1, 0, .glob, 0, .none, (.fix 37), false, none, [⟨3, 0, .rw, .sys, 0⟩]⟩
  | .IOM_INVAL_STAT => ⟨.iom, 0x040C, 1, 0, 1, 0, .glob, 0, .none, (.fix 37), false, none, [⟨0, 0, .ro, .sys, 0⟩, ⟨1, 1, .w1c, .sys, 0⟩]⟩
  | .IOM_KEVT => ⟨.iom, 0x0410, 1, 0, 1, 0, .glob, 0, .none, (.fix 37), false, none, [⟨15, 0, .w1c, .sys, 0⟩]⟩
  | .IOM_KEVT_EN => ⟨.iom, 0x0414, 1, 0, 1, 0, .glob, 0, .none, (.fix 37), false, none, [⟨15, 0, .rw, .sys, 0⟩]⟩
  | .IOM_GSTAT => ⟨.iom, 0x0418, 1, 0, 1, 0, .glob, 0, .none, (.fix 37), false, none, [⟨0, 0, .w1c, .sys, 0⟩]⟩
  | .IOM_DGRAN => ⟨.iom, 0x10000, 4096, 4, 1, 0, .glob, 0, .none, (.fix 37), false, none, [⟨3, 0, .rw, .sys, 0⟩, ⟨4, 4, .rw, .sys, 0⟩]⟩
  | .IOM_SGRAN => ⟨.iom, 0x14000, 768, 4, 1, 0, .glob, 0, .none, (.fix 37), false, none, [⟨3, 0, .rw, .sys, 0⟩, ⟨4, 4, .rw, .sys, 0⟩]⟩
  | .IOM_S1CFG => ⟨.iom, 0, 1, 0, 1, 0, .view, 0x000, .none, (.fix 37), false, none, [⟨1, 0, .rw, .drw, 0⟩]⟩
  | .IOM_S1ROOT_LO => ⟨.iom, 0, 1, 0, 1, 0, .view, 0x004, .none, (.fix 37), false, none, [⟨31, 0, .rw, .drw, 0⟩]⟩
  | .IOM_S1ROOT_HI => ⟨.iom, 0, 1, 0, 1, 0, .view, 0x008, .none, (.fix 37), false, none, [⟨3, 0, .rw, .drw, 0⟩]⟩
  | .IOM_S1INVAL => ⟨.iom, 0, 1, 0, 1, 0, .view, 0x00C, .none, (.fix 37), false, none, [⟨0, 0, .wo, .never, 0⟩, ⟨1, 1, .ro, .drw, 0⟩]⟩
  | .IOM_RFLT_INFO => ⟨.iom, 0x20000, 256, 0x20, 1, 0, .both, 0x2000, .ring, (.fix 37), false, none, [⟨3, 0, .ro, .drw, 0⟩, ⟨5, 4, .ro, .drw, 0⟩, ⟨9, 8, .ro, .drw, 0⟩, ⟨12, 12, .ro, .drw, 0⟩]⟩
  | .IOM_RFLT_ADDR_LO => ⟨.iom, 0x20004, 256, 0x20, 1, 0, .both, 0x2004, .ring, (.fix 37), false, none, [⟨31, 0, .ro, .drw, 0⟩]⟩
  | .IOM_RFLT_ADDR_HI => ⟨.iom, 0x20008, 256, 0x20, 1, 0, .both, 0x2008, .ring, (.fix 37), false, none, [⟨15, 0, .ro, .drw, 0⟩]⟩
  | .IOM_RFLT_GPA_LO => ⟨.iom, 0x2000C, 256, 0x20, 1, 0, .both, 0x200C, .ring, (.fix 37), false, none, [⟨31, 0, .ro, .drw, 0⟩]⟩
  | .IOM_RFLT_GPA_HI => ⟨.iom, 0x20010, 256, 0x20, 1, 0, .both, 0x2010, .ring, (.fix 37), false, none, [⟨15, 0, .ro, .drw, 0⟩]⟩
  | .DVT_PORT => ⟨.dvt, 0x0000, 37, 0x10, 1, 0, .both, 0x0000, .none, (.fix 20), true, none, [⟨11, 0, .ro, .sys, 0⟩, ⟨12, 12, .ro, .sys, 0⟩, ⟨13, 13, .ro, .sys, 0⟩, ⟨18, 16, .rw, .sys, 0⟩, ⟨19, 19, .rw, .sys, 1⟩]⟩
  | .DVT_PDROP => ⟨.dvt, 0x0004, 37, 0x10, 1, 0, .glob, 0, .none, (.fix 20), false, none, [⟨31, 0, .rc, .sys, 0⟩]⟩
  | .DVT_QLIM => ⟨.dvt, 0x1000, 296, 0x10, 1, 0, .glob, 0, .none, (.fix 20), false, none, [⟨15, 0, .ro, .sys, 0⟩, ⟨31, 16, .ro, .sys, 0⟩]⟩
  | .DVT_QOCC => ⟨.dvt, 0x1004, 296, 0x10, 1, 0, .both, 0x1004, .swQueue, (.fix 20), false, none, [⟨15, 0, .ro, .sys, 0⟩, ⟨31, 16, .rc, .sys, 0⟩]⟩
  | .DVT_QDROP => ⟨.dvt, 0x1008, 296, 0x10, 1, 0, .both, 0x1008, .swQueue, (.fix 20), false, none, [⟨31, 0, .rc, .sys, 0⟩]⟩
  | .DVT_QCBS => ⟨.dvt, 0x100C, 296, 0x10, 1, 0, .glob, 0, .none, (.fix 20), false, none, [⟨23, 0, .rw, .sys, 0⟩]⟩
  | .DVT_BUF_USED => ⟨.dvt, 0x3000, 1, 0, 1, 0, .glob, 0, .none, (.fix 20), false, none, [⟨15, 0, .ro, .sys, 0⟩, ⟨31, 16, .ro, .sys, 0⟩]⟩
  | .DVT_BUF_CAP => ⟨.dvt, 0x3004, 1, 0, 1, 0, .glob, 0, .none, (.fix 20), false, none, [⟨15, 0, .ro, .sys, 0⟩]⟩
  | .DVT_CT_STOMP => ⟨.dvt, 0x3008, 1, 0, 1, 0, .glob, 0, .none, (.fix 20), false, none, [⟨31, 0, .rc, .sys, 0⟩]⟩
  | .DVT_DROP => ⟨.dvt, 0x3104, 13, 4, 1, 0, .glob, 0, .none, (.fix 20), false, none, [⟨31, 0, .rc, .sys, 0⟩]⟩
  | .DVT_CHARGE => ⟨.dvt, 0x3200, 16, 4, 1, 0, .glob, 0, .none, (.fix 20), false, none, [⟨15, 0, .ro, .sys, 0⟩]⟩
  | .DVT_VIEW_CHARGE => ⟨.dvt, 0, 1, 0, 1, 0, .view, 0x3240, .none, (.fix 20), false, some .DVT_CHARGE, [⟨15, 0, .ro, .sys, 0⟩]⟩
  | .DVT_FDB_MAC_LO => ⟨.dvt, 0x4000, 1, 0, 1, 0, .glob, 0, .none, (.fix 20), false, none, [⟨31, 0, .rw, .sys, 0⟩]⟩
  | .DVT_FDB_MAC_HI => ⟨.dvt, 0x4004, 1, 0, 1, 0, .glob, 0, .none, (.fix 20), false, none, [⟨27, 0, .rw, .sys, 0⟩]⟩
  | .DVT_FDB_DEST_LO => ⟨.dvt, 0x4008, 1, 0, 1, 0, .glob, 0, .none, (.fix 20), false, none, [⟨31, 0, .rw, .sys, 0⟩]⟩
  | .DVT_FDB_DEST_HI => ⟨.dvt, 0x400C, 1, 0, 1, 0, .glob, 0, .none, (.fix 20), false, none, [⟨4, 0, .rw, .sys, 0⟩]⟩
  | .DVT_FDB_CTRL => ⟨.dvt, 0x4010, 1, 0, 1, 0, .glob, 0, .none, (.fix 20), false, none, [⟨2, 0, .wo, .never, 0⟩]⟩
  | .DVT_FDB_STAT => ⟨.dvt, 0x4014, 1, 0, 1, 0, .glob, 0, .none, (.fix 20), false, none, [⟨0, 0, .ro, .sys, 0⟩, ⟨3, 1, .ro, .sys, 0⟩, ⟨4, 4, .ro, .sys, 0⟩]⟩
  | .DVT_FDB_COUNT => ⟨.dvt, 0x4018, 1, 0, 1, 0, .glob, 0, .none, (.fix 20), false, none, [⟨14, 0, .ro, .sys, 0⟩, ⟨30, 16, .ro, .sys, 0⟩]⟩
  | .DVT_FDB_EVT => ⟨.dvt, 0x401C, 1, 0, 1, 0, .glob, 0, .none, (.fix 20), false, none, [⟨15, 0, .rc, .sys, 0⟩, ⟨31, 16, .rc, .sys, 0⟩]⟩
  | .DVT_AGE => ⟨.dvt, 0x4020, 1, 0, 1, 0, .glob, 0, .none, (.fix 20), false, none, [⟨19, 0, .rw, .sys, 0x12c⟩]⟩
  | .DVT_TRAP => ⟨.dvt, 0x4024, 1, 0, 1, 0, .glob, 0, .none, (.fix 20), false, none, [⟨5, 0, .rw, .sys, 0⟩, ⟨8, 8, .rw, .sys, 0⟩]⟩
  | .DVT_LLEG => ⟨.dvt, 0x4100, 56, 4, 1, 0, .glob, 0, .none, (.fix 20), false, none, [⟨29, 0, .rw, .sys, 0⟩]⟩
  | .DVT_TBL_SEL => ⟨.dvt, 0x5000, 1, 0, 1, 0, .glob, 0, .none, (.fix 20), false, none, [⟨2, 0, .rw, .sys, 0⟩, ⟨15, 8, .rw, .sys, 0⟩, ⟨22, 16, .rw, .sys, 0⟩]⟩
  | .DVT_TBL_DATA => ⟨.dvt, 0x5004, 1, 0, 1, 0, .glob, 0, .none, (.fix 20), false, none, [⟨31, 0, .rw, .never, 0⟩]⟩
  | .DVT_TBL_CTRL => ⟨.dvt, 0x5008, 1, 0, 1, 0, .glob, 0, .none, (.fix 20), false, none, [⟨0, 0, .wo, .never, 0⟩, ⟨1, 1, .wo, .never, 0⟩]⟩
  | .DVT_TBL_STAT => ⟨.dvt, 0x500C, 1, 0, 1, 0, .glob, 0, .none, (.fix 20), false, none, [⟨0, 0, .w1c, .sys, 0⟩, ⟨1, 1, .ro, .sys, 0⟩]⟩
  | .DVT_CAP_CFG => ⟨.dvt, 0x6000, 4, 0x20, 1, 0, .glob, 0, .none, (.fix 20), false, none, [⟨15, 0, .rw, .sys, 0⟩, ⟨16, 16, .rw, .sys, 0⟩, ⟨17, 17, .rw, .sys, 0⟩, ⟨18, 18, .rw, .sys, 0⟩]⟩
  | .DVT_CAP_PORTS_LO => ⟨.dvt, 0x6004, 4, 0x20, 1, 0, .glob, 0, .none, (.fix 20), false, none, [⟨31, 0, .rw, .sys, 0⟩]⟩
  | .DVT_CAP_PORTS_HI => ⟨.dvt, 0x6008, 4, 0x20, 1, 0, .glob, 0, .none, (.fix 20), false, none, [⟨4, 0, .rw, .sys, 0⟩]⟩
  | .DVT_CAP_LOST => ⟨.dvt, 0x600C, 4, 0x20, 1, 0, .glob, 0, .none, (.fix 20), false, none, [⟨31, 0, .rc, .sys, 0⟩]⟩
  | .EPT_PCFG => ⟨.ept, 0x0000, 30, 0x20, 1, 0, .glob, 0, .none, .port, false, none, [⟨0, 0, .rw, .sys, 0⟩, ⟨1, 1, .rw, .sys, 0⟩, ⟨2, 2, .rw, .sys, 0⟩, ⟨14, 4, .rw, .sys, 0xa⟩, ⟨16, 16, .wo, .never, 0⟩]⟩
  | .EPT_LINK => ⟨.ept, 0x0004, 30, 0x20, 1, 0, .glob, 0, .none, .port, false, none, [⟨1, 0, .ro, .sys, 0⟩, ⟨2, 2, .ro, .sys, 0⟩, ⟨3, 3, .ro, .sys, 0⟩, ⟨4, 4, .ro, .por, 0⟩]⟩
  | .EPT_EVT => ⟨.ept, 0x0008, 30, 0x20, 1, 0, .glob, 0, .none, .port, false, none, [⟨0, 0, .w1c, .sys, 0⟩, ⟨1, 1, .w1c, .sys, 0⟩, ⟨2, 2, .w1c, .sys, 0⟩, ⟨3, 3, .w1c, .sys, 0⟩, ⟨4, 4, .w1c, .sys, 0⟩, ⟨5, 5, .w1c, .sys, 0⟩, ⟨6, 6, .w1c, .sys, 0⟩]⟩
  | .EPT_EVT_EN => ⟨.ept, 0x000C, 30, 0x20, 1, 0, .glob, 0, .none, .port, false, none, [⟨0, 0, .rw, .sys, 0⟩, ⟨1, 1, .rw, .sys, 0⟩, ⟨2, 2, .rw, .sys, 0⟩, ⟨3, 3, .rw, .sys, 0⟩, ⟨4, 4, .rw, .sys, 0⟩, ⟨5, 5, .rw, .sys, 0⟩, ⟨6, 6, .rw, .sys, 0⟩]⟩
  | .EPT_PMAC => ⟨.ept, 0x0010, 30, 0x20, 1, 0, .glob, 0, .none, .port, false, none, [⟨0, 0, .rw, .sys, 0⟩, ⟨1, 1, .rw, .sys, 0⟩, ⟨9, 2, .rw, .sys, 0xff⟩, ⟨11, 10, .rw, .sys, 0⟩, ⟨18, 12, .rw, .sys, 0xa⟩]⟩
  | .EPT_PSTAT => ⟨.ept, 0x0014, 30, 0x20, 1, 0, .glob, 0, .none, .port, false, none, [⟨2, 0, .ro, .sys, 1⟩, ⟨3, 3, .ro, .sys, 0⟩]⟩
  | .EPT_LDROPS => ⟨.ept, 0x0018, 30, 0x20, 1, 0, .glob, 0, .none, .port, false, none, [⟨15, 0, .rc, .sys, 0⟩, ⟨31, 16, .rc, .sys, 0⟩]⟩
  | .EPT_CNT => ⟨.ept, 0x1000, 30, 0x100, 48, 4, .glob, 0, .none, .port, false, none, [⟨31, 0, .ro, .sys, 0⟩]⟩
  | .EPT_HALF_LO => ⟨.ept, 0x3000, 30, 8, 1, 0, .glob, 0, .none, .port, false, none, [⟨31, 0, .w1c, .sys, 0⟩]⟩
  | .EPT_HALF_HI => ⟨.ept, 0x3004, 30, 8, 1, 0, .glob, 0, .none, .port, false, none, [⟨15, 0, .w1c, .sys, 0⟩]⟩
  | .EPT_WAKE => ⟨.ept, 0x4000, 30, 4, 1, 0, .glob, 0, .none, .port, false, none, [⟨0, 0, .rw, .sys, 0⟩, ⟨15, 8, .rw, .sys, 0⟩]⟩
  | .EPT_WAKE_HIT => ⟨.ept, 0x4080, 1, 0, 1, 0, .glob, 0, .none, (.fix 0), false, none, [⟨4, 0, .ro, .por, 0⟩, ⟨10, 8, .ro, .por, 0⟩, ⟨12, 12, .ro, .por, 0⟩, ⟨31, 31, .w1c, .por, 0⟩]⟩
  | .EPT_WMASK0 => ⟨.ept, 0x5000, 30, 0x100, 8, 0x20, .glob, 0, .none, .port, false, none, [⟨31, 0, .rw, .sys, 0⟩]⟩
  | .EPT_WMASK1 => ⟨.ept, 0x5004, 30, 0x100, 8, 0x20, .glob, 0, .none, .port, false, none, [⟨31, 0, .rw, .sys, 0⟩]⟩
  | .EPT_WMASK2 => ⟨.ept, 0x5008, 30, 0x100, 8, 0x20, .glob, 0, .none, .port, false, none, [⟨31, 0, .rw, .sys, 0⟩]⟩
  | .EPT_WMASK3 => ⟨.ept, 0x500C, 30, 0x100, 8, 0x20, .glob, 0, .none, .port, false, none, [⟨31, 0, .rw, .sys, 0⟩]⟩
  | .EPT_WCHECK => ⟨.ept, 0x5010, 30, 0x100, 8, 0x20, .glob, 0, .none, .port, false, none, [⟨31, 0, .rw, .sys, 0⟩]⟩
  | .EPT_G_VEC => ⟨.ept, 0x0C40, 16, 4, 1, 0, .glob, 0, .none, (.fix 0), false, none, [⟨5, 0, .rw, .drw, 2⟩]⟩
  | .EPT_VEC => ⟨.ept, 0, 1, 0, 1, 0, .view, 0x0C00, .none, (.fix 0), false, some .EPT_G_VEC, [⟨5, 0, .rw, .drw, 2⟩]⟩
  | .MSC_CFG => ⟨.ept, 0x8000, 14, 0x400, 1, 0, .both, 0x8000, .saPort, (.fix 27), false, none, [⟨0, 0, .rw, .sys, 0⟩, ⟨2, 1, .rw, .sys, 0⟩, ⟨3, 3, .rw, .sys, 0⟩, ⟨7, 4, .rw, .sys, 0⟩, ⟨9, 8, .rw, .sys, 0⟩, ⟨16, 16, .w1c, .sys, 0⟩, ⟨17, 17, .w1c, .sys, 0⟩, ⟨19, 18, .rw, .sys, 0⟩]⟩
  | .MSC_TXSCI_LO => ⟨.ept, 0x8004, 14, 0x400, 1, 0, .both, 0x8004, .saPort, (.fix 27), false, none, [⟨31, 0, .rw, .sys, 0⟩]⟩
  | .MSC_TXSCI_HI => ⟨.ept, 0x8008, 14, 0x400, 1, 0, .both, 0x8008, .saPort, (.fix 27), false, none, [⟨31, 0, .rw, .sys, 0⟩]⟩
  | .MSC_WINDOW => ⟨.ept, 0x800C, 14, 0x400, 1, 0, .both, 0x800C, .saPort, (.fix 27), false, none, [⟨31, 0, .rw, .sys, 0⟩]⟩
  | .MSC_RXSCI_LO => ⟨.ept, 0x8020, 14, 0x400, 4, 0x10, .both, 0x8020, .saPort, (.fix 27), false, none, [⟨31, 0, .rw, .sys, 0⟩]⟩
  | .MSC_RXSCI_HI => ⟨.ept, 0x8024, 14, 0x400, 4, 0x10, .both, 0x8024, .saPort, (.fix 27), false, none, [⟨31, 0, .rw, .sys, 0⟩]⟩
  | .MSC_RXSC_CTRL => ⟨.ept, 0x8028, 14, 0x400, 4, 0x10, .both, 0x8028, .saPort, (.fix 27), false, none, [⟨0, 0, .rw, .sys, 0⟩]⟩
  | .MSC_SA_CTRL => ⟨.ept, 0x8100, 14, 0x400, 20, 0x20, .both, 0x8100, .saPort, (.fix 27), false, none, [⟨7, 0, .rw, .sys, 0⟩, ⟨8, 8, .wo, .never, 0⟩, ⟨9, 9, .wo, .never, 0⟩, ⟨10, 10, .ro, .sys, 0⟩, ⟨11, 11, .ro, .sys, 0⟩, ⟨14, 12, .ro, .sys, 0⟩]⟩
  | .MSC_SA_PN_LO => ⟨.ept, 0x8104, 14, 0x400, 20, 0x20, .both, 0x8104, .saPort, (.fix 27), false, none, [⟨31, 0, .rw, .sys, 0⟩]⟩
  | .MSC_SA_PN_HI => ⟨.ept, 0x8108, 14, 0x400, 20, 0x20, .both, 0x8108, .saPort, (.fix 27), false, none, [⟨31, 0, .rw, .sys, 0⟩]⟩
  | .MSC_SA_SSCI => ⟨.ept, 0x810C, 14, 0x400, 20, 0x20, .both, 0x810C, .saPort, (.fix 27), false, none, [⟨31, 0, .rw, .sys, 0⟩]⟩
  | .MSC_SA_SALT0 => ⟨.ept, 0x8110, 14, 0x400, 20, 0x20, .both, 0x8110, .saPort, (.fix 27), false, none, [⟨31, 0, .rw, .sys, 0⟩]⟩
  | .MSC_SA_SALT1 => ⟨.ept, 0x8114, 14, 0x400, 20, 0x20, .both, 0x8114, .saPort, (.fix 27), false, none, [⟨31, 0, .rw, .sys, 0⟩]⟩
  | .MSC_SA_SALT2 => ⟨.ept, 0x8118, 14, 0x400, 20, 0x20, .both, 0x8118, .saPort, (.fix 27), false, none, [⟨31, 0, .rw, .sys, 0⟩]⟩
  | .ZTM_NOW => ⟨.ztm, 0x00, 1, 0, 1, 0, .both, 0x00, .none, (.fix 34), true, none, [⟨31, 0, .ro, .sys, 0⟩]⟩
  | .ZTM_NOW_EP => ⟨.ztm, 0x04, 1, 0, 1, 0, .copy, 0x04, .none, (.fix 34), true, none, [⟨15, 0, .ro, .drw, 0⟩]⟩
  | .ZTM_RAW => ⟨.ztm, 0x08, 1, 0, 1, 0, .both, 0x08, .none, (.fix 34), true, none, [⟨31, 0, .ro, .sys, 0⟩]⟩
  | .ZTM_EPOCH => ⟨.ztm, 0x0C, 1, 0, 1, 0, .both, 0x0C, .none, (.fix 34), true, none, [⟨15, 0, .ro, .sys, 0⟩, ⟨16, 16, .ro, .sys, 0⟩, ⟨17, 17, .w1c, .sys, 0⟩]⟩
  | .ZTM_INCR_INT => ⟨.ztm, 0x10, 1, 0, 1, 0, .both, 0x10, .none, (.fix 34), true, none, [⟨7, 0, .rw, .sys, 2⟩]⟩
  | .ZTM_INCR_FRAC => ⟨.ztm, 0x14, 1, 0, 1, 0, .both, 0x14, .none, (.fix 34), true, none, [⟨31, 0, .rw, .sys, 0⟩]⟩
  | .ZTM_CTRL => ⟨.ztm, 0x18, 1, 0, 1, 0, .glob, 0, .none, (.fix 34), false, none, [⟨0, 0, .wo, .never, 0⟩, ⟨1, 1, .wo, .never, 0⟩, ⟨31, 16, .wo, .never, 0⟩]⟩
  | .ZTM_STEP => ⟨.ztm, 0x1C, 1, 0, 1, 0, .glob, 0, .none, (.fix 34), false, none, [⟨31, 0, .rw, .sys, 0⟩]⟩
  | .ZTM_PAIR_CTRL => ⟨.ztm, 0x20, 1, 0, 1, 0, .copy, 0x20, .none, (.fix 34), false, none, [⟨0, 0, .wo, .never, 0⟩]⟩
  | .ZTM_PAIR_RAW => ⟨.ztm, 0x24, 1, 0, 1, 0, .copy, 0x24, .none, (.fix 34), false, none, [⟨31, 0, .ro, .drw, 0⟩]⟩
  | .ZTM_PAIR_NS => ⟨.ztm, 0x28, 1, 0, 1, 0, .copy, 0x28, .none, (.fix 34), false, none, [⟨31, 0, .ro, .drw, 0⟩]⟩
  | .ZTM_PAIR_EP => ⟨.ztm, 0x2C, 1, 0, 1, 0, .copy, 0x2C, .none, (.fix 34), false, none, [⟨15, 0, .ro, .drw, 0⟩, ⟨16, 16, .ro, .drw, 0⟩]⟩
  | .ZTM_EVT => ⟨.ztm, 0x30, 1, 0, 1, 0, .copy, 0x30, .none, (.fix 34), false, none, [⟨0, 0, .w1c, .drw, 0⟩, ⟨1, 1, .w1c, .drw, 0⟩, ⟨2, 2, .w1c, .sys, 0⟩, ⟨3, 3, .w1c, .sys, 0⟩, ⟨4, 4, .w1c, .sys, 0⟩]⟩
  | .ZTM_EVT_EN => ⟨.ztm, 0x34, 1, 0, 1, 0, .copy, 0x34, .none, (.fix 34), false, none, [⟨0, 0, .rw, .drw, 0⟩, ⟨1, 1, .rw, .drw, 0⟩, ⟨2, 2, .rw, .sys, 0⟩, ⟨3, 3, .rw, .sys, 0⟩, ⟨4, 4, .rw, .sys, 0⟩]⟩
  | .ZTM_PORT => ⟨.ztm, 0x100, 30, 4, 1, 0, .glob, 0, .none, (.fix 34), false, none, [⟨0, 0, .rw, .sys, 1⟩, ⟨31, 16, .rc, .sys, 0⟩]⟩
  | .ZTM_FB_CFG => ⟨.ztm, 0x200, 1, 0, 1, 0, .glob, 0, .none, (.fix 34), false, none, [⟨3, 0, .rw, .sys, 0⟩, ⟨4, 4, .rw, .sys, 0⟩, ⟨5, 5, .rw, .sys, 0⟩, ⟨12, 8, .rw, .sys, 0⟩, ⟨27, 16, .rw, .sys, 0x3e8⟩]⟩
  | .ZTM_FB_REF => ⟨.ztm, 0x204, 1, 0, 1, 0, .glob, 0, .none, (.fix 34), false, none, [⟨28, 0, .rw, .sys, 0⟩, ⟨29, 29, .rw, .sys, 0⟩]⟩
  | .ZTM_FB_PERIOD => ⟨.ztm, 0x208, 1, 0, 1, 0, .glob, 0, .none, (.fix 34), false, none, [⟨9, 0, .rw, .sys, 0x64⟩]⟩
  | .ZTM_FB_STAT => ⟨.ztm, 0x20C, 1, 0, 1, 0, .glob, 0, .none, (.fix 34), false, none, [⟨1, 0, .ro, .sys, 0⟩, ⟨2, 2, .ro, .sys, 0⟩, ⟨15, 8, .ro, .sys, 0⟩, ⟨31, 16, .rc, .sys, 0⟩]⟩
  | .ZTM_FB_OFFS => ⟨.ztm, 0x210, 1, 0, 1, 0, .glob, 0, .none, (.fix 34), false, none, [⟨31, 0, .ro, .sys, 0⟩]⟩
  | .ZTM_G_VEC => ⟨.ztm, 0x0C40, 16, 4, 1, 0, .glob, 0, .none, (.fix 34), false, none, [⟨5, 0, .rw, .drw, 2⟩]⟩
  | .ZTM_VEC => ⟨.ztm, 0, 1, 0, 1, 0, .view, 0x0C00, .none, (.fix 34), false, some .ZTM_G_VEC, [⟨5, 0, .rw, .drw, 2⟩]⟩
  | .CAN_CTRL => ⟨.can, 0x000, 16, 0x1000, 1, 0, .both, 0x000, .canCtl, .canCtl, false, none, [⟨1, 0, .rw, .isl, 0⟩, ⟨4, 4, .rw, .isl, 0⟩, ⟨5, 5, .rw, .isl, 0⟩, ⟨6, 6, .rw, .isl, 0⟩, ⟨7, 7, .rw, .isl, 0⟩, ⟨8, 8, .rw, .isl, 0⟩]⟩
  | .CAN_RECOVER => ⟨.can, 0x004, 16, 0x1000, 1, 0, .both, 0x004, .canCtl, .canCtl, false, none, [⟨0, 0, .wo, .never, 0⟩, ⟨31, 16, .wo, .never, 0⟩]⟩
  | .CAN_NBT => ⟨.can, 0x008, 16, 0x1000, 1, 0, .both, 0x008, .canCtl, .canCtl, false, none, [⟨4, 0, .rw, .isl, 1⟩, ⟨15, 8, .rw, .isl, 0x7e⟩, ⟨22, 16, .rw, .isl, 0x1f⟩, ⟨30, 24, .rw, .isl, 0x1f⟩]⟩
  | .CAN_DBT => ⟨.can, 0x00C, 16, 0x1000, 1, 0, .both, 0x00C, .canCtl, .canCtl, false, none, [⟨4, 0, .rw, .isl, 0⟩, ⟨15, 8, .rw, .isl, 0x3e⟩, ⟨22, 16, .rw, .isl, 0xf⟩, ⟨30, 24, .rw, .isl, 0xf⟩]⟩
  | .CAN_XBT => ⟨.can, 0x010, 16, 0x1000, 1, 0, .both, 0x010, .canCtl, .canCtl, false, none, [⟨4, 0, .rw, .isl, 0⟩, ⟨15, 8, .rw, .isl, 0xa⟩, ⟨22, 16, .rw, .isl, 3⟩, ⟨30, 24, .rw, .isl, 3⟩]⟩
  | .CAN_TDC => ⟨.can, 0x014, 16, 0x1000, 1, 0, .both, 0x014, .canCtl, .canCtl, false, none, [⟨5, 0, .rw, .isl, 0⟩, ⟨13, 8, .rw, .isl, 0⟩, ⟨23, 16, .ro, .isl, 0⟩]⟩
  | .CAN_STAT => ⟨.can, 0x018, 16, 0x1000, 1, 0, .both, 0x018, .canCtl, .canCtl, false, none, [⟨2, 0, .ro, .isl, 0⟩, ⟨3, 3, .w1c, .isl, 0⟩, ⟨4, 4, .w1c, .isl, 0⟩, ⟨5, 5, .ro, .sys, 0⟩, ⟨6, 6, .ro, .sys, 0⟩, ⟨7, 7, .ro, .sys, 0⟩]⟩
  | .CAN_ERRC => ⟨.can, 0x01C, 16, 0x1000, 1, 0, .both, 0x01C, .canCtl, .canCtl, false, none, [⟨8, 0, .ro, .isl, 0⟩, ⟨23, 16, .ro, .isl, 0⟩]⟩
  | .CAN_EVT => ⟨.can, 0x020, 16, 0x1000, 1, 0, .both, 0x020, .canCtl, .canCtl, false, none, [⟨0, 0, .w1c, .drw, 0⟩, ⟨1, 1, .w1c, .drw, 0⟩, ⟨2, 2, .w1c, .drw, 0⟩, ⟨3, 3, .w1c, .drw, 0⟩, ⟨4, 4, .w1c, .drw, 0⟩, ⟨5, 5, .w1c, .drw, 0⟩, ⟨6, 6, .w1c, .drw, 0⟩]⟩
  | .CAN_EVT_EN => ⟨.can, 0x024, 16, 0x1000, 1, 0, .both, 0x024, .canCtl, .canCtl, false, none, [⟨0, 0, .rw, .drw, 0⟩, ⟨1, 1, .rw, .drw, 0⟩, ⟨2, 2, .rw, .drw, 0⟩, ⟨3, 3, .rw, .drw, 0⟩, ⟨4, 4, .rw, .drw, 0⟩, ⟨5, 5, .rw, .drw, 0⟩, ⟨6, 6, .rw, .drw, 0⟩]⟩
  | .CAN_RXCFG => ⟨.can, 0x028, 16, 0x1000, 1, 0, .both, 0x028, .canCtl, .canCtl, false, none, [⟨0, 0, .rw, .isl, 0⟩, ⟨1, 1, .rw, .isl, 0⟩]⟩
  | .CAN_RXSTAT => ⟨.can, 0x02C, 16, 0x1000, 1, 0, .both, 0x02C, .canCtl, .canCtl, false, none, [⟨5, 0, .ro, .isl, 0⟩]⟩
  | .CAN_RXDROP => ⟨.can, 0x030, 16, 0x1000, 1, 0, .both, 0x030, .canCtl, .canCtl, false, none, [⟨15, 0, .rc, .isl, 0⟩, ⟨31, 16, .rc, .isl, 0⟩]⟩
  | .CAN_LEC => ⟨.can, 0x034, 16, 0x1000, 1, 0, .both, 0x034, .canCtl, .canCtl, false, none, [⟨2, 0, .ro, .isl, 0⟩, ⟨31, 16, .rc, .isl, 0⟩]⟩
  | .CAN_QDROP => ⟨.can, 0x038, 16, 0x1000, 1, 0, .both, 0x038, .canCtl, .canCtl, false, none, [⟨15, 0, .rc, .isl, 0⟩]⟩
  | .CAN_MRAM_IDX => ⟨.can, 0x040, 16, 0x1000, 1, 0, .both, 0x040, .canCtl, .canCtl, false, none, [⟨12, 2, .rw, .isl, 0⟩, ⟨16, 16, .rw, .isl, 0⟩]⟩
  | .CAN_MRAM_DATA => ⟨.can, 0x044, 16, 0x1000, 1, 0, .both, 0x044, .canCtl, .canCtl, false, none, [⟨31, 0, .rw, .never, 0⟩]⟩
  | .CAN_WAKE => ⟨.can, 0x048, 16, 0x1000, 1, 0, .both, 0x048, .canCtl, .canCtl, false, none, [⟨0, 0, .rw, .isl, 0⟩]⟩
  | .CAN_TXDONE => ⟨.can, 0x050, 16, 0x1000, 2, 4, .both, 0x050, .canCtl, .canCtl, false, none, [⟨31, 0, .w1c, .drw, 0⟩]⟩
  | .CAN_TXDONE_EN => ⟨.can, 0x058, 16, 0x1000, 2, 4, .both, 0x058, .canCtl, .canCtl, false, none, [⟨31, 0, .rw, .drw, 0⟩]⟩
  | .CAN_ACF_CFG => ⟨.can, 0x100, 16, 0x1000, 1, 0, .both, 0x100, .canCtl, .canCtl, false, none, [⟨0, 0, .rw, .isl, 0⟩, ⟨1, 1, .rw, .isl, 0⟩, ⟨2, 2, .rw, .isl, 0⟩, ⟨3, 3, .rw, .isl, 0⟩, ⟨8, 4, .rw, .isl, 0⟩, ⟨21, 16, .rw, .isl, 0⟩, ⟨24, 24, .w1c, .isl, 0⟩]⟩
  | .CAN_ACF_SID_LO => ⟨.can, 0x104, 16, 0x1000, 1, 0, .both, 0x104, .canCtl, .canCtl, false, none, [⟨31, 0, .rw, .isl, 0⟩]⟩
  | .CAN_ACF_SID_HI => ⟨.can, 0x108, 16, 0x1000, 1, 0, .both, 0x108, .canCtl, .canCtl, false, none, [⟨31, 0, .rw, .isl, 0⟩]⟩
  | .CAN_ACF_DA_LO => ⟨.can, 0x10C, 16, 0x1000, 1, 0, .both, 0x10C, .canCtl, .canCtl, false, none, [⟨31, 0, .rw, .isl, 0⟩]⟩
  | .CAN_ACF_DA_HI => ⟨.can, 0x110, 16, 0x1000, 1, 0, .both, 0x110, .canCtl, .canCtl, false, none, [⟨15, 0, .rw, .isl, 0⟩]⟩
  | .CAN_ACF_SA_LO => ⟨.can, 0x114, 16, 0x1000, 1, 0, .both, 0x114, .canCtl, .canCtl, false, none, [⟨31, 0, .rw, .isl, 0⟩]⟩
  | .CAN_ACF_SA_HI => ⟨.can, 0x118, 16, 0x1000, 1, 0, .both, 0x118, .canCtl, .canCtl, false, none, [⟨15, 0, .rw, .isl, 0⟩]⟩
  | .CAN_ACF_STAT => ⟨.can, 0x11C, 16, 0x1000, 1, 0, .both, 0x11C, .canCtl, .canCtl, false, none, [⟨7, 0, .rc, .isl, 0⟩, ⟨15, 8, .rc, .isl, 0⟩, ⟨23, 16, .rc, .isl, 0⟩, ⟨31, 24, .rc, .isl, 0⟩]⟩
  | .CAN_MB_ID => ⟨.can, 0x400, 16, 0x1000, 64, 0x10, .both, 0x400, .canCtl, .canCtl, false, none, [⟨28, 0, .rw, .isl, 0⟩, ⟨29, 29, .rw, .isl, 0⟩]⟩
  | .CAN_MB_CTL => ⟨.can, 0x404, 16, 0x1000, 64, 0x10, .both, 0x404, .canCtl, .canCtl, false, none, [⟨10, 0, .rw, .isl, 0⟩, ⟨12, 12, .rw, .isl, 0⟩, ⟨13, 13, .rw, .isl, 0⟩, ⟨14, 14, .rw, .isl, 0⟩, ⟨15, 15, .rw, .isl, 0⟩, ⟨16, 16, .rw, .isl, 0⟩, ⟨28, 20, .rw, .isl, 0⟩]⟩
  | .CAN_MB_CMD => ⟨.can, 0x408, 16, 0x1000, 64, 0x10, .both, 0x408, .canCtl, .canCtl, false, none, [⟨0, 0, .wo, .never, 0⟩, ⟨1, 1, .wo, .never, 0⟩, ⟨9, 8, .ro, .isl, 0⟩, ⟨10, 10, .ro, .isl, 0⟩, ⟨15, 12, .ro, .isl, 0⟩]⟩
  | .CAN_MB_STAMP => ⟨.can, 0x40C, 16, 0x1000, 64, 0x10, .both, 0x40C, .canCtl, .canCtl, false, none, [⟨31, 0, .ro, .isl, 0⟩]⟩
  | .CAN_FLT_ID => ⟨.can, 0x800, 16, 0x1000, 32, 0x10, .both, 0x800, .canCtl, .canCtl, false, none, [⟨28, 0, .rw, .isl, 0⟩, ⟨29, 29, .rw, .isl, 0⟩]⟩
  | .CAN_FLT_MASK => ⟨.can, 0x804, 16, 0x1000, 32, 0x10, .both, 0x804, .canCtl, .canCtl, false, none, [⟨28, 0, .rw, .isl, 0⟩]⟩
  | .CAN_FLT_CTL => ⟨.can, 0x808, 16, 0x1000, 32, 0x10, .both, 0x808, .canCtl, .canCtl, false, none, [⟨0, 0, .rw, .isl, 0⟩, ⟨2, 1, .rw, .isl, 0⟩, ⟨6, 4, .rw, .isl, 0⟩]⟩
  | .CAN_FLT_HITS => ⟨.can, 0x80C, 16, 0x1000, 32, 0x10, .both, 0x80C, .canCtl, .canCtl, false, none, [⟨31, 0, .rc, .isl, 0⟩]⟩
  | .CAN_G_VEC => ⟨.can, 0x0C40, 16, 4, 1, 0, .glob, 0, .none, (.fix 28), false, none, [⟨5, 0, .rw, .drw, 2⟩]⟩
  | .CAN_VEC => ⟨.can, 0, 1, 0, 1, 0, .view, 0x0C00, .none, (.fix 28), false, some .CAN_G_VEC, [⟨5, 0, .rw, .drw, 2⟩]⟩
  | .DWL_REGION_BASE => ⟨.dwl, 0x0000, 32, 0x20, 1, 0, .glob, 0, .none, (.fix 35), false, none, [⟨27, 0, .ro, .sys, 0⟩]⟩
  | .DWL_REGION_SIZE => ⟨.dwl, 0x0004, 32, 0x20, 1, 0, .glob, 0, .none, (.fix 35), false, none, [⟨27, 0, .ro, .sys, 0⟩]⟩
  | .DWL_REGION_CFG => ⟨.dwl, 0x0008, 32, 0x20, 1, 0, .glob, 0, .none, (.fix 35), false, none, [⟨0, 0, .ro, .sys, 0⟩, ⟨1, 1, .ro, .sys, 0⟩]⟩
  | .DWL_REGION_HITS => ⟨.dwl, 0x000C, 32, 0x20, 1, 0, .glob, 0, .none, (.fix 35), false, none, [⟨31, 0, .rc, .sys, 0⟩]⟩
  | .DWL_REGION_DISC => ⟨.dwl, 0x0010, 32, 0x20, 1, 0, .glob, 0, .none, (.fix 35), false, none, [⟨31, 0, .rc, .sys, 0⟩]⟩
  | .DWL_POLL => ⟨.dwl, 0x0800, 1, 0, 1, 0, .glob, 0, .none, (.fix 35), false, none, [⟨9, 0, .rw, .sys, 0x64⟩]⟩
  | .DWL_LINK => ⟨.dwl, 0x0804, 1, 0, 1, 0, .glob, 0, .none, (.fix 35), false, none, [⟨0, 0, .ro, .sys, 0⟩, ⟨3, 1, .ro, .sys, 0⟩, ⟨6, 4, .ro, .sys, 0⟩, ⟨31, 16, .rc, .sys, 0⟩]⟩
  | .DWL_FN => ⟨.dwl, 0x0900, 16, 4, 1, 0, .glob, 0, .none, (.fix 35), false, none, [⟨0, 0, .ro, .sys, 0⟩, ⟨1, 1, .ro, .sys, 0⟩, ⟨2, 2, .ro, .sys, 0⟩, ⟨3, 3, .ro, .sys, 0⟩, ⟨5, 4, .ro, .sys, 0⟩]⟩
  | .DWL_SEM => ⟨.dwl, 0x0A00, 64, 4, 1, 0, .glob, 0, .none, (.fix 35), false, none, [⟨0, 0, .ro, .isl, 0⟩, ⟨1, 1, .ro, .isl, 0⟩, ⟨7, 4, .ro, .isl, 0⟩, ⟨31, 16, .rc, .isl, 0⟩]⟩
  | .DWL_SEQ => ⟨.dwl, 0, 1, 0, 1, 0, .view, 0x000, .none, (.fix 35), false, none, [⟨31, 0, .ro, .drw, 0⟩]⟩
  | .DWL_FENCE => ⟨.dwl, 0, 1, 0, 1, 0, .view, 0x004, .none, (.fix 35), false, none, [⟨31, 0, .ro, .drw, 0⟩]⟩
  | .DWL_FENCE_INFO => ⟨.dwl, 0, 1, 0, 1, 0, .view, 0x008, .none, (.fix 35), false, none, [⟨7, 0, .ro, .drw, 0⟩, ⟨12, 8, .ro, .drw, 0⟩, ⟨16, 16, .ro, .drw, 0⟩]⟩
  | .DWL_FENCE_ACK => ⟨.dwl, 0, 1, 0, 1, 0, .view, 0x00C, .none, (.fix 35), false, none, [⟨31, 0, .wo, .never, 0⟩]⟩
  | .DWL_EOI => ⟨.dwl, 0, 1, 0, 1, 0, .view, 0x010, .none, (.fix 35), false, none, [⟨5, 0, .wo, .never, 0⟩]⟩
  | .DWL_VEVT => ⟨.dwl, 0, 1, 0, 1, 0, .view, 0x014, .none, (.fix 35), false, none, [⟨0, 0, .w1c, .drw, 0⟩, ⟨31, 16, .rc, .drw, 0⟩]⟩
  | .WLD_WM => ⟨.wld, 0x0000, 3, 4, 1, 0, .glob, 0, .none, (.fix 40), false, none, [⟨12, 0, .ro, .sys, 0⟩]⟩
  | .WLD_STYLE => ⟨.wld, 0x000C, 1, 0, 1, 0, .glob, 0, .none, (.fix 40), false, none, [⟨5, 0, .ro, .sys, 0⟩]⟩
  | .WLD_MONVEC_LO => ⟨.wld, 0x0010, 1, 0, 1, 0, .glob, 0, .none, (.fix 40), false, none, [⟨31, 2, .rw, .wrld, 0⟩]⟩
  | .WLD_MONVEC_HI => ⟨.wld, 0x0014, 1, 0, 1, 0, .glob, 0, .none, (.fix 40), false, none, [⟨7, 0, .rw, .wrld, 0⟩]⟩
  | .WLD_SECVEC_LO => ⟨.wld, 0x0018, 1, 0, 1, 0, .glob, 0, .none, (.fix 40), false, none, [⟨31, 2, .rw, .wrld, 0⟩]⟩
  | .WLD_SECVEC_HI => ⟨.wld, 0x001C, 1, 0, 1, 0, .glob, 0, .none, (.fix 40), false, none, [⟨7, 0, .rw, .wrld, 0⟩]⟩
  | .WLD_SVC => ⟨.wld, 0x0020, 1, 0, 1, 0, .glob, 0, .none, (.fix 40), false, none, [⟨1, 0, .ro, .sys, 0⟩, ⟨5, 4, .ro, .sys, 0⟩, ⟨10, 8, .rw, .sys, 0⟩, ⟨16, 16, .wo, .never, 0⟩, ⟨17, 17, .wo, .never, 0⟩]⟩
  | .WLD_TIMEOUT => ⟨.wld, 0x0024, 1, 0, 1, 0, .glob, 0, .none, (.fix 40), false, none, [⟨2, 0, .ro, .sys, 0⟩, ⟨3, 3, .w1c, .sys, 0⟩]⟩
  | .WLD_TIMEOUT_NS => ⟨.wld, 0x0028, 1, 0, 1, 0, .glob, 0, .none, (.fix 40), false, none, [⟨31, 0, .ro, .sys, 0⟩]⟩
  | .WLD_DBG => ⟨.wld, 0x0030, 1, 0, 1, 0, .glob, 0, .none, (.fix 40), false, none, [⟨3, 0, .ro, .never, 0⟩, ⟨7, 4, .ro, .sys, 0⟩, ⟨11, 8, .ro, .sys, 0⟩]⟩
  | .WLD_MTR_WORLD => ⟨.wld, 0x0040, 1, 0, 1, 0, .glob, 0, .none, (.fix 40), false, none, [⟨1, 0, .rw, .wrld, 0⟩]⟩
  | .WLD_EVT => ⟨.wld, 0x0050, 1, 0, 1, 0, .glob, 0, .none, (.fix 40), false, none, [⟨0, 0, .w1c, .sys, 0⟩, ⟨1, 1, .w1c, .sys, 0⟩]⟩
  | .WLD_EVT_EN => ⟨.wld, 0x0054, 1, 0, 1, 0, .glob, 0, .none, (.fix 40), false, none, [⟨0, 0, .rw, .sys, 0⟩, ⟨1, 1, .rw, .sys, 0⟩]⟩
  | .WLD_RING_SEC => ⟨.wld, 0x0100, 8, 4, 1, 0, .glob, 0, .none, (.fix 40), false, none, [⟨31, 0, .rw, .wrld, 0⟩]⟩
  | .WLD_GATE_LO => ⟨.wld, 0x1000, 256, 8, 1, 0, .glob, 0, .none, (.fix 40), false, none, [⟨31, 0, .ro, .sys, 0⟩]⟩
  | .WLD_GATE_HI => ⟨.wld, 0x1004, 256, 8, 1, 0, .glob, 0, .none, (.fix 40), false, none, [⟨7, 0, .ro, .sys, 0⟩, ⟨31, 31, .ro, .sys, 0⟩]⟩
  | .TIL_CMD => ⟨.til, 0x000, 1, 0, 1, 0, .copy, 0x000, .none, (.fix 32), false, none, [⟨7, 0, .rw, .drw, 0⟩, ⟨15, 8, .rw, .drw, 0⟩, ⟨23, 16, .rw, .drw, 0⟩, ⟨31, 24, .rw, .drw, 0⟩]⟩
  | .TIL_PARAM => ⟨.til, 0x004, 1, 0, 1, 0, .copy, 0x004, .none, (.fix 32), false, none, [⟨31, 0, .rw, .drw, 0⟩]⟩
  | .TIL_NEW => ⟨.til, 0x008, 3, 4, 1, 0, .copy, 0x008, .none, (.fix 32), false, none, [⟨31, 0, .rw, .drw, 0⟩]⟩
  | .TIL_SRC_LO => ⟨.til, 0x014, 1, 0, 1, 0, .copy, 0x014, .none, (.fix 32), false, none, [⟨31, 0, .rw, .drw, 0⟩]⟩
  | .TIL_SRC_HI => ⟨.til, 0x018, 1, 0, 1, 0, .copy, 0x018, .none, (.fix 32), false, none, [⟨15, 0, .rw, .drw, 0⟩]⟩
  | .TIL_SRC_LEN => ⟨.til, 0x01C, 1, 0, 1, 0, .copy, 0x01C, .none, (.fix 32), false, none, [⟨31, 0, .rw, .drw, 0⟩]⟩
  | .TIL_DST_LO => ⟨.til, 0x020, 1, 0, 1, 0, .copy, 0x020, .none, (.fix 32), false, none, [⟨31, 0, .rw, .drw, 0⟩]⟩
  | .TIL_DST_HI => ⟨.til, 0x024, 1, 0, 1, 0, .copy, 0x024, .none, (.fix 32), false, none, [⟨15, 0, .rw, .drw, 0⟩]⟩
  | .TIL_DST_LEN => ⟨.til, 0x028, 1, 0, 1, 0, .copy, 0x028, .none, (.fix 32), false, none, [⟨31, 0, .rw, .drw, 0⟩]⟩
  | .TIL_STAT => ⟨.til, 0x030, 1, 0, 1, 0, .copy, 0x030, .none, (.fix 32), false, none, [⟨1, 0, .ro, .drw, 0⟩, ⟨12, 8, .ro, .drw, 0⟩, ⟨16, 16, .w1c, .drw, 0⟩, ⟨20, 20, .w1c, .drw, 0⟩, ⟨24, 24, .rw, .drw, 0⟩]⟩
  | .TIL_OUTLEN => ⟨.til, 0x034, 1, 0, 1, 0, .copy, 0x034, .none, (.fix 32), false, none, [⟨16, 0, .ro, .drw, 0⟩]⟩
  | .TIL_LC => ⟨.til, 0x0800, 1, 0, 1, 0, .glob, 0, .none, (.fix 32), false, none, [⟨2, 0, .ro, .never, 0⟩, ⟨3, 3, .ro, .never, 0⟩, ⟨4, 4, .ro, .sys, 0⟩]⟩
  | .TIL_VDIG => ⟨.til, 0x0840, 12, 4, 1, 0, .glob, 0, .none, (.fix 32), false, none, [⟨31, 0, .ro, .never, 0⟩]⟩
  | .TIL_ODIG => ⟨.til, 0x0880, 12, 4, 1, 0, .glob, 0, .none, (.fix 32), false, none, [⟨31, 0, .ro, .never, 0⟩]⟩
  | .TIL_IDPUB => ⟨.til, 0x0900, 24, 4, 1, 0, .glob, 0, .none, (.fix 32), false, none, [⟨31, 0, .ro, .never, 0⟩]⟩
  | .TIL_ENT => ⟨.til, 0x0A00, 1, 0, 1, 0, .glob, 0, .none, (.fix 32), false, none, [⟨0, 0, .ro, .sys, 0⟩, ⟨15, 8, .rc, .sys, 0⟩]⟩
  | .TIL_G_VEC => ⟨.til, 0x0C40, 16, 4, 1, 0, .glob, 0, .none, (.fix 32), false, none, [⟨5, 0, .rw, .drw, 2⟩]⟩
  | .TIL_VEC => ⟨.til, 0, 1, 0, 1, 0, .view, 0x0C00, .none, (.fix 32), false, some .TIL_G_VEC, [⟨5, 0, .rw, .drw, 2⟩]⟩
  | .TIL_SLOT_ATTR => ⟨.til, 0x1000, 256, 0x10, 3, 4, .both, 0x1000, .tillSlot, (.fix 32), true, none, [⟨31, 0, .ro, .never, 0⟩]⟩
  | .TIL_SLOT_HOLD => ⟨.til, 0x100C, 256, 0x10, 1, 0, .both, 0x100C, .tillSlot, (.fix 32), true, none, [⟨4, 0, .ro, .sys, 0⟩]⟩
  | .REC_CURSOR => ⟨.recw, 0x000, 1, 0, 1, 0, .copy, 0x000, .none, (.fix 33), false, none, [⟨11, 0, .rw, .drw, 0⟩, ⟨16, 16, .rw, .drw, 0⟩]⟩
  | .REC_WIN => ⟨.recw, 0x100, 64, 4, 1, 0, .copy, 0x100, .none, (.fix 33), false, none, [⟨31, 0, .ro, .drw, 0⟩]⟩
  | .REC_LOG_EN => ⟨.recw, 0x200, 1, 0, 1, 0, .copy, 0x200, .none, (.fix 33), false, none, [⟨8, 0, .rw, .drw, 0⟩]⟩
  | .REC_TRACE_EN => ⟨.recw, 0x204, 1, 0, 1, 0, .copy, 0x204, .none, (.fix 33), false, none, [⟨3, 0, .rw, .drw, 0⟩]⟩
  | .REC_TRC_THRESH => ⟨.recw, 0x208, 1, 0, 1, 0, .copy, 0x208, .none, (.fix 33), false, none, [⟨16, 0, .rw, .drw, 0x400⟩]⟩
  | .REC_LOG_STAT => ⟨.recw, 0x20C, 1, 0, 1, 0, .copy, 0x20C, .none, (.fix 33), false, none, [⟨3, 0, .ro, .drw, 0⟩, ⟨8, 8, .w1c, .drw, 0⟩, ⟨9, 9, .w1c, .drw, 0⟩, ⟨17, 16, .rw, .drw, 0⟩]⟩
  | .REC_LOG_SAMPLED => ⟨.recw, 0x210, 1, 0, 1, 0, .copy, 0x210, .none, (.fix 33), false, none, [⟨31, 0, .rc, .drw, 0⟩]⟩
  | .REC_LOG_LOST => ⟨.recw, 0x214, 1, 0, 1, 0, .copy, 0x214, .none, (.fix 33), false, none, [⟨15, 0, .rc, .drw, 0⟩, ⟨31, 16, .rc, .drw, 0⟩]⟩
  | .REC_CFG_ITEM => ⟨.recw, 0x400, 1, 0, 1, 0, .glob, 0, .none, (.fix 33), false, none, [⟨11, 0, .rw, .sys, 0⟩]⟩
  | .REC_CFG_SRC => ⟨.recw, 0x404, 1, 0, 1, 0, .glob, 0, .none, (.fix 33), false, none, [⟨23, 0, .rw, .sys, 0⟩]⟩
  | .REC_CFG_LO => ⟨.recw, 0x408, 1, 0, 1, 0, .glob, 0, .none, (.fix 33), false, none, [⟨31, 0, .rw, .sys, 0⟩]⟩
  | .REC_CFG_WIDTH => ⟨.recw, 0x40C, 1, 0, 1, 0, .glob, 0, .none, (.fix 33), false, none, [⟨31, 0, .rw, .sys, 0⟩]⟩
  | .REC_CFG_MODE => ⟨.recw, 0x410, 1, 0, 1, 0, .glob, 0, .none, (.fix 33), false, none, [⟨20, 0, .rw, .sys, 0⟩]⟩
  | .REC_CFG_CMD => ⟨.recw, 0x414, 1, 0, 1, 0, .glob, 0, .none, (.fix 33), false, none, [⟨0, 0, .wo, .never, 0⟩]⟩
  | .REC_CFG_STAT => ⟨.recw, 0x418, 1, 0, 1, 0, .glob, 0, .none, (.fix 33), false, none, [⟨0, 0, .w1c, .sys, 0⟩]⟩
  | .REC_CLEAR => ⟨.recw, 0x420, 1, 0, 1, 0, .glob, 0, .none, (.fix 33), false, none, [⟨11, 0, .wo, .never, 0⟩, ⟨30, 30, .wo, .never, 0⟩, ⟨31, 31, .wo, .never, 0⟩]⟩
  | .REC_CLEARS => ⟨.recw, 0x424, 1, 0, 1, 0, .glob, 0, .none, (.fix 33), false, none, [⟨31, 0, .ro, .never, 0⟩]⟩
  | .REC_FLUSH => ⟨.recw, 0x430, 1, 0, 1, 0, .glob, 0, .none, (.fix 33), false, none, [⟨0, 0, .wo, .never, 0⟩, ⟨8, 8, .ro, .sys, 0⟩, ⟨9, 9, .ro, .sys, 0⟩, ⟨10, 10, .w1c, .sys, 0⟩]⟩
  | .REC_ALM_HEAD => ⟨.recw, 0x440, 4, 4, 1, 0, .glob, 0, .none, (.fix 33), false, none, [⟨31, 0, .ro, .never, 0⟩]⟩
  | .REC_ALM_STAT => ⟨.recw, 0x450, 1, 0, 1, 0, .glob, 0, .none, (.fix 33), false, none, [⟨9, 0, .ro, .never, 0⟩, ⟨16, 16, .wo, .never, 0⟩]⟩
  | .REC_EVT => ⟨.recw, 0x460, 1, 0, 1, 0, .glob, 0, .none, (.fix 33), false, none, [⟨0, 0, .w1c, .sys, 0⟩, ⟨1, 1, .w1c, .sys, 0⟩]⟩
  | .REC_EVT_EN => ⟨.recw, 0x464, 1, 0, 1, 0, .glob, 0, .none, (.fix 33), false, none, [⟨0, 0, .rw, .sys, 0⟩, ⟨1, 1, .rw, .sys, 0⟩]⟩
  | .REC_G_VEC => ⟨.recw, 0x0C40, 16, 4, 1, 0, .glob, 0, .none, (.fix 33), false, none, [⟨5, 0, .rw, .drw, 2⟩]⟩
  | .REC_VEC => ⟨.recw, 0, 1, 0, 1, 0, .view, 0x0C00, .none, (.fix 33), false, some .REC_G_VEC, [⟨5, 0, .rw, .drw, 2⟩]⟩
  | .UPD_MBX_HDR => ⟨.upd, 0x0000, 4, 4, 1, 0, .glob, 0, .none, (.fix 39), false, none, [⟨31, 0, .rw, .sys, 0⟩]⟩
  | .UPD_MBX_LEN => ⟨.upd, 0x0010, 1, 0, 1, 0, .glob, 0, .none, (.fix 39), false, none, [⟨16, 0, .rw, .sys, 0⟩]⟩
  | .UPD_MBX_CMD => ⟨.upd, 0x0014, 1, 0, 1, 0, .glob, 0, .none, (.fix 39), false, none, [⟨2, 0, .wo, .never, 0⟩]⟩
  | .UPD_MBX_STAT => ⟨.upd, 0x0018, 1, 0, 1, 0, .glob, 0, .none, (.fix 39), false, none, [⟨0, 0, .ro, .sys, 0⟩, ⟨1, 1, .w1c, .sys, 0⟩, ⟨2, 2, .w1c, .sys, 0⟩, ⟨11, 8, .ro, .sys, 0⟩]⟩
  | .UPD_SESS => ⟨.upd, 0x0110, 3, 0x10, 1, 0, .glob, 0, .none, (.fix 39), false, none, [⟨1, 0, .ro, .never, 0⟩]⟩
  | .UPD_SIZE => ⟨.upd, 0x0114, 3, 0x10, 1, 0, .glob, 0, .none, (.fix 39), false, none, [⟨31, 0, .ro, .never, 0⟩]⟩
  | .UPD_FILLED => ⟨.upd, 0x0118, 3, 0x10, 1, 0, .glob, 0, .none, (.fix 39), false, none, [⟨31, 0, .ro, .never, 0⟩]⟩
  | .UPD_LASTBOOT => ⟨.upd, 0x011C, 3, 0x10, 1, 0, .glob, 0, .none, (.fix 39), false, none, [⟨7, 0, .ro, .sys, 0xff⟩, ⟨8, 8, .ro, .sys, 0⟩, ⟨9, 9, .ro, .sys, 0⟩]⟩
  | .UPD_ARB => ⟨.upd, 0x0204, 3, 4, 1, 0, .glob, 0, .none, (.fix 39), false, none, [⟨31, 0, .ro, .never, 0⟩]⟩
  | .UPD_CONFIRM => ⟨.upd, 0x0210, 1, 0, 1, 0, .glob, 0, .none, (.fix 39), false, none, [⟨1, 0, .wo, .never, 0⟩, ⟨31, 16, .wo, .never, 0⟩]⟩
  | .UPD_CONF_STAT => ⟨.upd, 0x0214, 1, 0, 1, 0, .glob, 0, .none, (.fix 39), false, none, [⟨0, 0, .w1c, .sys, 0⟩]⟩
  | .UPD_MBX_DATA => ⟨.upd, 0x10000, 4096, 0x10, 4, 4, .glob, 0, .none, (.fix 39), false, none, [⟨31, 0, .rw, .sys, 0⟩]⟩
  | .FAB_RET => ⟨.fab, 0x0810, 6, 0x10, 4, 4, .glob, 0, .none, (.fix 0), false, none, [⟨31, 0, .ro, .never, 0⟩]⟩
  | .FAB_SUS => ⟨.fab, 0x0910, 6, 0x10, 4, 4, .glob, 0, .none, (.fix 0), false, none, [⟨31, 0, .ro, .never, 0⟩]⟩
  | .FAB_CORE_STAT => ⟨.fab, 0x0980, 1, 0, 1, 0, .glob, 0, .none, (.fix 0), false, none, [⟨5, 0, .ro, .sys, 0⟩, ⟨13, 8, .ro, .por, 0⟩]⟩
  | .FAB_SRAM_CE => ⟨.fab, 0x0A80, 48, 4, 1, 0, .glob, 0, .none, (.fix 0), false, none, [⟨6, 0, .ro, .por, 0⟩, ⟨31, 16, .rc, .sys, 0⟩]⟩
  | .FAB_RET_CLR => ⟨.fab, 0x0A00, 1, 0, 1, 0, .glob, 0, .none, (.fix 0), false, none, [⟨2, 0, .wo, .never, 0⟩, ⟨14, 8, .wo, .never, 0⟩, ⟨31, 16, .wo, .never, 0⟩]⟩
  | .FAB_RET_CLR_STAT => ⟨.fab, 0x0A04, 1, 0, 1, 0, .glob, 0, .none, (.fix 0), false, none, [⟨2, 0, .ro, .sys, 0⟩]⟩
  | .FAB_RET_CLRS => ⟨.fab, 0x0A08, 1, 0, 1, 0, .glob, 0, .none, (.fix 0), false, none, [⟨31, 0, .ro, .never, 0⟩]⟩
  | .FAB_SAFEN => ⟨.fab, 0x0A10, 1, 0, 1, 0, .glob, 0, .none, (.fix 0), false, none, [⟨6, 0, .ro, .sys, 1⟩, ⟨8, 8, .ro, .sys, 0⟩]⟩
  | .FAB_SAFEN_MASK => ⟨.fab, 0x0A14, 1, 0, 1, 0, .glob, 0, .none, (.fix 0), false, none, [⟨6, 4, .rw, .sys, 0⟩]⟩
  | .FAB_SAFEN_CTRL => ⟨.fab, 0x0A18, 1, 0, 1, 0, .glob, 0, .none, (.fix 0), false, none, [⟨0, 0, .wo, .never, 0⟩, ⟨1, 1, .rw, .sys, 0⟩, ⟨31, 16, .wo, .never, 0⟩]⟩

/-- All registers, in the order of the chapters. -/
def regList0 : List RegId :=
  [.CARC_ID, .CARC_GRADE, .CARC_UID, .CARC_STATUS, .CARC_REJ, .CARC_DET,
   .CARC_SECVER, .CARC_BUILD, .CARC_HASH, .FAB_ISL_STATE, .FAB_ISL_REQ, .FAB_CLAIM,
   .FAB_ISL_CLK, .FAB_ARB_PTR, .FAB_AERR_ADDR_LO, .FAB_AERR_ADDR_HI, .FAB_AERR_INFO, .FAB_AERR_COUNT,
   .FAB_RST_CAUSE, .FAB_RST_REQ, .FAB_PWR_STATUS, .FAB_SLEEP_CTRL, .FAB_SLEEP_STATUS, .INP_MK_STATUS,
   .INP_MK_TYPE, .INP_MK_SERIAL, .DRW_MOVE_CTRL, .DRW_MOVE_ARG, .DRW_MOVE_STATUS, .DRW_RST_REQ,
   .DRW_G_STATE, .DRW_BIND, .DRW_G_HOLD, .DRW_HOLD, .DRW_FEAT_OFFER, .DRW_FEAT_ACCEPT,
   .DRW_FEAT_CTRL, .DRW_FEAT_STATUS, .DRW_STATE, .DRW_RST]

def regList1 : List RegId :=
  [.DRW_IRQ_STATUS, .DRW_IRQ_MASK, .DRW_FAULT_HEAD, .DRW_FAULT_STAT, .DRW_RING_OWN, .RING_BASE_LO,
   .RING_BASE_HI, .RING_CFG, .RING_CTRL, .RING_TAIL, .RING_HEAD, .RING_STATE,
   .RING_FAULT, .RING_FAULT_OFF, .RING_DROPS, .LCH_CMD, .LCH_FLAGS, .LCH_EVENTS,
   .LCH_IRQ_EN, .LCH_STATE, .LCH_CFG, .LCH_WIRE, .LCH_G_VEC, .LCH_VEC,
   .LCH_WIRE_AMB, .LCH_PWM, .LCH_PROT, .FEED_STATUS, .FEED_LIMIT, .FEED_BUDGET,
   .FEED_SHEDS, .FEED_EVENTS, .FEED_IRQ_EN, .INP_MI_CFG, .INP_MI_VAL, .INP_MI_STAT,
   .INP_MI_EDGES, .INP_DRV, .INP_G_VEC, .INP_VEC]

def regList2 : List RegId :=
  [.CLP_STAT, .CLP_FIRES, .CLP_CFG, .CLP_PINS, .CLP_ACK, .CLP_ACK_STATUS,
   .CLP_CHAN, .LTH_STATE, .LTH_CTRL, .LTH_PHASH, .LTH_CHK_ITEM, .LTH_TASK_CFG,
   .LTH_TASK_STAT, .LTH_TASK_OVR, .LTH_TASK_TIME, .LTH_TASK_TMAX, .LTH_TASK_RESP, .LTH_TASK_CTRL,
   .LTH_TASK_COUNT, .LTH_ERR_STAT, .LTH_ERR_HEAD, .LTH_SLOT_IDX, .LTH_SLOT_DATA, .LTH_HIN,
   .LTH_G_VEC, .LTH_VEC, .LTH_STN_STAT, .LTH_STN_ERR, .LTH_STN_DROPS, .LTH_STN_MODE,
   .LTH_CHG_ITEM, .LTH_CHG_VALUE, .LTH_CHG_CTRL, .LTH_CHG_STATUS, .LTH_CHG_RES_IDX, .LTH_CHG_RES,
   .LTH_FRC_SID, .LTH_FRC_VALUE, .LTH_FRC_MASK, .LTH_FRC_CTRL]

def regList3 : List RegId :=
  [.LTH_FRC_STATUS, .LTH_FRC_DROP_IDX, .LTH_FRC_DROP, .MTR_CFG, .MTR_STATE, .MTR_CTRL,
   .MTR_SLICE_LEN, .MTR_SLICES, .MTR_EVENTS, .MTR_LAST, .MTR_LAST_LANES, .MTR_LAST_SLICE,
   .MTR_TEST, .MTR_TEST_SIG, .MTR_LMEM_ADDR, .MTR_LMEM_DATA, .MTR_ENTRY, .MTR_INT_ROUTE,
   .MTR_INT_ACK, .MTR_DOORBELL, .MTR_IRQ, .MTR_IRQ_EN, .MTR_VIEW_STAT, .MTR_G_VEC,
   .MTR_VEC, .IOM_S2CFG, .IOM_GIRQ, .IOM_DIRTY_BASE, .IOM_DIRTY_SIZE, .IOM_DIRTY_MAP0,
   .IOM_DIRTY_MAP1, .IOM_DIRTY_CTRL, .IOM_DIRTY_STAT, .IOM_DHELD, .IOM_INVAL, .IOM_INVAL_ADDR_LO,
   .IOM_INVAL_ADDR_HI, .IOM_INVAL_STAT, .IOM_KEVT, .IOM_KEVT_EN]

def regList4 : List RegId :=
  [.IOM_GSTAT, .IOM_DGRAN, .IOM_SGRAN, .IOM_S1CFG, .IOM_S1ROOT_LO, .IOM_S1ROOT_HI,
   .IOM_S1INVAL, .IOM_RFLT_INFO, .IOM_RFLT_ADDR_LO, .IOM_RFLT_ADDR_HI, .IOM_RFLT_GPA_LO, .IOM_RFLT_GPA_HI,
   .DVT_PORT, .DVT_PDROP, .DVT_QLIM, .DVT_QOCC, .DVT_QDROP, .DVT_QCBS,
   .DVT_BUF_USED, .DVT_BUF_CAP, .DVT_CT_STOMP, .DVT_DROP, .DVT_CHARGE, .DVT_VIEW_CHARGE,
   .DVT_FDB_MAC_LO, .DVT_FDB_MAC_HI, .DVT_FDB_DEST_LO, .DVT_FDB_DEST_HI, .DVT_FDB_CTRL, .DVT_FDB_STAT,
   .DVT_FDB_COUNT, .DVT_FDB_EVT, .DVT_AGE, .DVT_TRAP, .DVT_LLEG, .DVT_TBL_SEL,
   .DVT_TBL_DATA, .DVT_TBL_CTRL, .DVT_TBL_STAT, .DVT_CAP_CFG]

def regList5 : List RegId :=
  [.DVT_CAP_PORTS_LO, .DVT_CAP_PORTS_HI, .DVT_CAP_LOST, .EPT_PCFG, .EPT_LINK, .EPT_EVT,
   .EPT_EVT_EN, .EPT_PMAC, .EPT_PSTAT, .EPT_LDROPS, .EPT_CNT, .EPT_HALF_LO,
   .EPT_HALF_HI, .EPT_WAKE, .EPT_WAKE_HIT, .EPT_WMASK0, .EPT_WMASK1, .EPT_WMASK2,
   .EPT_WMASK3, .EPT_WCHECK, .EPT_G_VEC, .EPT_VEC, .MSC_CFG, .MSC_TXSCI_LO,
   .MSC_TXSCI_HI, .MSC_WINDOW, .MSC_RXSCI_LO, .MSC_RXSCI_HI, .MSC_RXSC_CTRL, .MSC_SA_CTRL,
   .MSC_SA_PN_LO, .MSC_SA_PN_HI, .MSC_SA_SSCI, .MSC_SA_SALT0, .MSC_SA_SALT1, .MSC_SA_SALT2,
   .ZTM_NOW, .ZTM_NOW_EP, .ZTM_RAW, .ZTM_EPOCH]

def regList6 : List RegId :=
  [.ZTM_INCR_INT, .ZTM_INCR_FRAC, .ZTM_CTRL, .ZTM_STEP, .ZTM_PAIR_CTRL, .ZTM_PAIR_RAW,
   .ZTM_PAIR_NS, .ZTM_PAIR_EP, .ZTM_EVT, .ZTM_EVT_EN, .ZTM_PORT, .ZTM_FB_CFG,
   .ZTM_FB_REF, .ZTM_FB_PERIOD, .ZTM_FB_STAT, .ZTM_FB_OFFS, .ZTM_G_VEC, .ZTM_VEC,
   .CAN_CTRL, .CAN_RECOVER, .CAN_NBT, .CAN_DBT, .CAN_XBT, .CAN_TDC,
   .CAN_STAT, .CAN_ERRC, .CAN_EVT, .CAN_EVT_EN, .CAN_RXCFG, .CAN_RXSTAT,
   .CAN_RXDROP, .CAN_LEC, .CAN_QDROP, .CAN_MRAM_IDX, .CAN_MRAM_DATA, .CAN_WAKE,
   .CAN_TXDONE, .CAN_TXDONE_EN, .CAN_ACF_CFG, .CAN_ACF_SID_LO]

def regList7 : List RegId :=
  [.CAN_ACF_SID_HI, .CAN_ACF_DA_LO, .CAN_ACF_DA_HI, .CAN_ACF_SA_LO, .CAN_ACF_SA_HI, .CAN_ACF_STAT,
   .CAN_MB_ID, .CAN_MB_CTL, .CAN_MB_CMD, .CAN_MB_STAMP, .CAN_FLT_ID, .CAN_FLT_MASK,
   .CAN_FLT_CTL, .CAN_FLT_HITS, .CAN_G_VEC, .CAN_VEC, .DWL_REGION_BASE, .DWL_REGION_SIZE,
   .DWL_REGION_CFG, .DWL_REGION_HITS, .DWL_REGION_DISC, .DWL_POLL, .DWL_LINK, .DWL_FN,
   .DWL_SEM, .DWL_SEQ, .DWL_FENCE, .DWL_FENCE_INFO, .DWL_FENCE_ACK, .DWL_EOI,
   .DWL_VEVT, .WLD_WM, .WLD_STYLE, .WLD_MONVEC_LO, .WLD_MONVEC_HI, .WLD_SECVEC_LO,
   .WLD_SECVEC_HI, .WLD_SVC, .WLD_TIMEOUT, .WLD_TIMEOUT_NS]

def regList8 : List RegId :=
  [.WLD_DBG, .WLD_MTR_WORLD, .WLD_EVT, .WLD_EVT_EN, .WLD_RING_SEC, .WLD_GATE_LO,
   .WLD_GATE_HI, .TIL_CMD, .TIL_PARAM, .TIL_NEW, .TIL_SRC_LO, .TIL_SRC_HI,
   .TIL_SRC_LEN, .TIL_DST_LO, .TIL_DST_HI, .TIL_DST_LEN, .TIL_STAT, .TIL_OUTLEN,
   .TIL_LC, .TIL_VDIG, .TIL_ODIG, .TIL_IDPUB, .TIL_ENT, .TIL_G_VEC,
   .TIL_VEC, .TIL_SLOT_ATTR, .TIL_SLOT_HOLD, .REC_CURSOR, .REC_WIN, .REC_LOG_EN,
   .REC_TRACE_EN, .REC_TRC_THRESH, .REC_LOG_STAT, .REC_LOG_SAMPLED, .REC_LOG_LOST, .REC_CFG_ITEM,
   .REC_CFG_SRC, .REC_CFG_LO, .REC_CFG_WIDTH, .REC_CFG_MODE]

def regList9 : List RegId :=
  [.REC_CFG_CMD, .REC_CFG_STAT, .REC_CLEAR, .REC_CLEARS, .REC_FLUSH, .REC_ALM_HEAD,
   .REC_ALM_STAT, .REC_EVT, .REC_EVT_EN, .REC_G_VEC, .REC_VEC, .UPD_MBX_HDR,
   .UPD_MBX_LEN, .UPD_MBX_CMD, .UPD_MBX_STAT, .UPD_SESS, .UPD_SIZE, .UPD_FILLED,
   .UPD_LASTBOOT, .UPD_ARB, .UPD_CONFIRM, .UPD_CONF_STAT, .UPD_MBX_DATA, .FAB_RET,
   .FAB_SUS, .FAB_CORE_STAT, .FAB_SRAM_CE, .FAB_RET_CLR, .FAB_RET_CLR_STAT, .FAB_RET_CLRS,
   .FAB_SAFEN, .FAB_SAFEN_MASK, .FAB_SAFEN_CTRL]

/-- All registers. -/
def regTable : List RegId := regList0 ++ regList1 ++ regList2 ++ regList3 ++ regList4 ++ regList5 ++ regList6 ++ regList7 ++ regList8 ++ regList9

/-- One field of one register. -/
structure Fld where
  reg : RegId
  hi : Nat
  lo : Nat
  deriving DecidableEq, Repr

namespace F

/-- CARC_ID.TYPE, R4. -/
abbrev CARC_ID_TYPE : Fld := ⟨.CARC_ID, 31, 16⟩
/-- CARC_ID.MAJOR, R4. -/
abbrev CARC_ID_MAJOR : Fld := ⟨.CARC_ID, 15, 8⟩
/-- CARC_ID.MINOR, R4. -/
abbrev CARC_ID_MINOR : Fld := ⟨.CARC_ID, 7, 0⟩
/-- CARC_GRADE.GRADE, R1. -/
abbrev CARC_GRADE_GRADE : Fld := ⟨.CARC_GRADE, 7, 0⟩
/-- CARC_UID.UID, R4. -/
abbrev CARC_UID_UID : Fld := ⟨.CARC_UID, 31, 0⟩
/-- CARC_STATUS.STATE, R15. -/
abbrev CARC_STATUS_STATE : Fld := ⟨.CARC_STATUS, 1, 0⟩
/-- CARC_STATUS.BANK, R15. -/
abbrev CARC_STATUS_BANK : Fld := ⟨.CARC_STATUS, 4, 4⟩
/-- CARC_STATUS.FALLBACK, R15. -/
abbrev CARC_STATUS_FALLBACK : Fld := ⟨.CARC_STATUS, 5, 5⟩
/-- CARC_STATUS.PREFERRED, R15. -/
abbrev CARC_STATUS_PREFERRED : Fld := ⟨.CARC_STATUS, 6, 6⟩
/-- CARC_REJ.CODE, R29. -/
abbrev CARC_REJ_CODE : Fld := ⟨.CARC_REJ, 7, 0⟩
/-- CARC_REJ.SECTION, R29. -/
abbrev CARC_REJ_SECTION : Fld := ⟨.CARC_REJ, 15, 8⟩
/-- CARC_REJ.INDEX, R29. -/
abbrev CARC_REJ_INDEX : Fld := ⟨.CARC_REJ, 27, 16⟩
/-- CARC_DET.DETAIL, R184. -/
abbrev CARC_DET_DETAIL : Fld := ⟨.CARC_DET, 15, 0⟩
/-- CARC_SECVER.VALUE, R29. -/
abbrev CARC_SECVER_VALUE : Fld := ⟨.CARC_SECVER, 31, 0⟩
/-- CARC_BUILD.VALUE, R29. -/
abbrev CARC_BUILD_VALUE : Fld := ⟨.CARC_BUILD, 31, 0⟩
/-- CARC_HASH.HASH, R28. -/
abbrev CARC_HASH_HASH : Fld := ⟨.CARC_HASH, 31, 0⟩
/-- FAB_ISL_STATE.STATE, R44. -/
abbrev FAB_ISL_STATE_STATE : Fld := ⟨.FAB_ISL_STATE, 2, 0⟩
/-- FAB_ISL_STATE.CLAIM, R44. -/
abbrev FAB_ISL_STATE_CLAIM : Fld := ⟨.FAB_ISL_STATE, 15, 8⟩
/-- FAB_ISL_STATE.PENDING, R44. -/
abbrev FAB_ISL_STATE_PENDING : Fld := ⟨.FAB_ISL_STATE, 17, 16⟩
/-- FAB_ISL_STATE.REJ, R44. -/
abbrev FAB_ISL_STATE_REJ : Fld := ⟨.FAB_ISL_STATE, 18, 18⟩
/-- FAB_ISL_REQ.REQ, R44. -/
abbrev FAB_ISL_REQ_REQ : Fld := ⟨.FAB_ISL_REQ, 1, 0⟩
/-- FAB_ISL_REQ.BY_SECURE, R44. -/
abbrev FAB_ISL_REQ_BY_SECURE : Fld := ⟨.FAB_ISL_REQ, 8, 8⟩
/-- FAB_CLAIM.INC, R44. -/
abbrev FAB_CLAIM_INC : Fld := ⟨.FAB_CLAIM, 0, 0⟩
/-- FAB_CLAIM.DEC, R44. -/
abbrev FAB_CLAIM_DEC : Fld := ⟨.FAB_CLAIM, 1, 1⟩
/-- FAB_CLAIM.WIPED, R44. -/
abbrev FAB_CLAIM_WIPED : Fld := ⟨.FAB_CLAIM, 8, 8⟩
/-- FAB_CLAIM.SAT, R44. -/
abbrev FAB_CLAIM_SAT : Fld := ⟨.FAB_CLAIM, 9, 9⟩
/-- FAB_ISL_CLK.FREQ_100K, R30. -/
abbrev FAB_ISL_CLK_FREQ_100K : Fld := ⟨.FAB_ISL_CLK, 15, 0⟩
/-- FAB_ISL_CLK.GATE_OK, R30. -/
abbrev FAB_ISL_CLK_GATE_OK : Fld := ⟨.FAB_ISL_CLK, 16, 16⟩
/-- FAB_ISL_CLK.OFF_OK, R30. -/
abbrev FAB_ISL_CLK_OFF_OK : Fld := ⟨.FAB_ISL_CLK, 17, 17⟩
/-- FAB_ARB_PTR.PTR, R40. -/
abbrev FAB_ARB_PTR_PTR : Fld := ⟨.FAB_ARB_PTR, 3, 0⟩
/-- FAB_AERR_ADDR_LO.ADDR, R48. -/
abbrev FAB_AERR_ADDR_LO_ADDR : Fld := ⟨.FAB_AERR_ADDR_LO, 31, 0⟩
/-- FAB_AERR_ADDR_HI.ADDR, R48. -/
abbrev FAB_AERR_ADDR_HI_ADDR : Fld := ⟨.FAB_AERR_ADDR_HI, 7, 0⟩
/-- FAB_AERR_INFO.CAUSE, R48. -/
abbrev FAB_AERR_INFO_CAUSE : Fld := ⟨.FAB_AERR_INFO, 3, 0⟩
/-- FAB_AERR_INFO.WRITE, R48. -/
abbrev FAB_AERR_INFO_WRITE : Fld := ⟨.FAB_AERR_INFO, 4, 4⟩
/-- FAB_AERR_INFO.WORLD, R48. -/
abbrev FAB_AERR_INFO_WORLD : Fld := ⟨.FAB_AERR_INFO, 5, 5⟩
/-- FAB_AERR_INFO.DRAWER, R48. -/
abbrev FAB_AERR_INFO_DRAWER : Fld := ⟨.FAB_AERR_INFO, 11, 8⟩
/-- FAB_AERR_INFO.SOURCE, R48. -/
abbrev FAB_AERR_INFO_SOURCE : Fld := ⟨.FAB_AERR_INFO, 14, 12⟩
/-- FAB_AERR_INFO.VALID, R48. -/
abbrev FAB_AERR_INFO_VALID : Fld := ⟨.FAB_AERR_INFO, 31, 31⟩
/-- FAB_AERR_COUNT.COUNT, R48. -/
abbrev FAB_AERR_COUNT_COUNT : Fld := ⟨.FAB_AERR_COUNT, 31, 0⟩
/-- FAB_RST_CAUSE.CAUSE, R55. -/
abbrev FAB_RST_CAUSE_CAUSE : Fld := ⟨.FAB_RST_CAUSE, 3, 0⟩
/-- FAB_RST_CAUSE.HELD, R55. -/
abbrev FAB_RST_CAUSE_HELD : Fld := ⟨.FAB_RST_CAUSE, 4, 4⟩
/-- FAB_RST_CAUSE.FLUSH, R55. -/
abbrev FAB_RST_CAUSE_FLUSH : Fld := ⟨.FAB_RST_CAUSE, 6, 5⟩
/-- FAB_RST_REQ.KIND, R55. -/
abbrev FAB_RST_REQ_KIND : Fld := ⟨.FAB_RST_REQ, 1, 0⟩
/-- FAB_RST_REQ.KEY, R55. -/
abbrev FAB_RST_REQ_KEY : Fld := ⟨.FAB_RST_REQ, 31, 16⟩
/-- FAB_PWR_STATUS.VLOG_OK, R50. -/
abbrev FAB_PWR_STATUS_VLOG_OK : Fld := ⟨.FAB_PWR_STATUS, 0, 0⟩
/-- FAB_PWR_STATUS.CHOLD_OK, R50. -/
abbrev FAB_PWR_STATUS_CHOLD_OK : Fld := ⟨.FAB_PWR_STATUS, 1, 1⟩
/-- FAB_PWR_STATUS.FEEDA_OK, R50. -/
abbrev FAB_PWR_STATUS_FEEDA_OK : Fld := ⟨.FAB_PWR_STATUS, 2, 2⟩
/-- FAB_PWR_STATUS.FEEDB_OK, R50. -/
abbrev FAB_PWR_STATUS_FEEDB_OK : Fld := ⟨.FAB_PWR_STATUS, 3, 3⟩
/-- FAB_PWR_STATUS.CHOLD_V, R50. -/
abbrev FAB_PWR_STATUS_CHOLD_V : Fld := ⟨.FAB_PWR_STATUS, 15, 8⟩
/-- FAB_SLEEP_CTRL.ENTER, R61. -/
abbrev FAB_SLEEP_CTRL_ENTER : Fld := ⟨.FAB_SLEEP_CTRL, 0, 0⟩
/-- FAB_SLEEP_CTRL.KEY, R61. -/
abbrev FAB_SLEEP_CTRL_KEY : Fld := ⟨.FAB_SLEEP_CTRL, 31, 16⟩
/-- FAB_SLEEP_STATUS.RESULT, R63. -/
abbrev FAB_SLEEP_STATUS_RESULT : Fld := ⟨.FAB_SLEEP_STATUS, 1, 0⟩
/-- FAB_SLEEP_STATUS.KIND, R63. -/
abbrev FAB_SLEEP_STATUS_KIND : Fld := ⟨.FAB_SLEEP_STATUS, 6, 4⟩
/-- FAB_SLEEP_STATUS.INDEX, R63. -/
abbrev FAB_SLEEP_STATUS_INDEX : Fld := ⟨.FAB_SLEEP_STATUS, 15, 8⟩
/-- INP_MK_STATUS.VERDICT, R70. -/
abbrev INP_MK_STATUS_VERDICT : Fld := ⟨.INP_MK_STATUS, 2, 0⟩
/-- INP_MK_STATUS.LOST, R70. -/
abbrev INP_MK_STATUS_LOST : Fld := ⟨.INP_MK_STATUS, 3, 3⟩
/-- INP_MK_STATUS.REREAD, R70. -/
abbrev INP_MK_STATUS_REREAD : Fld := ⟨.INP_MK_STATUS, 4, 4⟩
/-- INP_MK_STATUS.ENTRIES, R70. -/
abbrev INP_MK_STATUS_ENTRIES : Fld := ⟨.INP_MK_STATUS, 14, 8⟩
/-- INP_MK_STATUS.VARIANT, R70. -/
abbrev INP_MK_STATUS_VARIANT : Fld := ⟨.INP_MK_STATUS, 31, 16⟩
/-- INP_MK_TYPE.VALUE, R68. -/
abbrev INP_MK_TYPE_VALUE : Fld := ⟨.INP_MK_TYPE, 31, 0⟩
/-- INP_MK_SERIAL.VALUE, R68. -/
abbrev INP_MK_SERIAL_VALUE : Fld := ⟨.INP_MK_SERIAL, 31, 0⟩
/-- DRW_MOVE_CTRL.CLASS, R77. -/
abbrev DRW_MOVE_CTRL_CLASS : Fld := ⟨.DRW_MOVE_CTRL, 2, 0⟩
/-- DRW_MOVE_CTRL.FROM, R77. -/
abbrev DRW_MOVE_CTRL_FROM : Fld := ⟨.DRW_MOVE_CTRL, 8, 4⟩
/-- DRW_MOVE_CTRL.TO, R77. -/
abbrev DRW_MOVE_CTRL_TO : Fld := ⟨.DRW_MOVE_CTRL, 16, 12⟩
/-- DRW_MOVE_CTRL.GO, R77. -/
abbrev DRW_MOVE_CTRL_GO : Fld := ⟨.DRW_MOVE_CTRL, 31, 31⟩
/-- DRW_MOVE_ARG.FIRST, R77. -/
abbrev DRW_MOVE_ARG_FIRST : Fld := ⟨.DRW_MOVE_ARG, 15, 0⟩
/-- DRW_MOVE_ARG.COUNT, R77. -/
abbrev DRW_MOVE_ARG_COUNT : Fld := ⟨.DRW_MOVE_ARG, 31, 16⟩
/-- DRW_MOVE_STATUS.STATE, R78. -/
abbrev DRW_MOVE_STATUS_STATE : Fld := ⟨.DRW_MOVE_STATUS, 1, 0⟩
/-- DRW_MOVE_STATUS.CODE, R78. -/
abbrev DRW_MOVE_STATUS_CODE : Fld := ⟨.DRW_MOVE_STATUS, 7, 4⟩
/-- DRW_MOVE_STATUS.OVERLAP, R78. -/
abbrev DRW_MOVE_STATUS_OVERLAP : Fld := ⟨.DRW_MOVE_STATUS, 8, 8⟩
/-- DRW_RST_REQ.DRAWER, R91. -/
abbrev DRW_RST_REQ_DRAWER : Fld := ⟨.DRW_RST_REQ, 3, 0⟩
/-- DRW_RST_REQ.MODE, R91. -/
abbrev DRW_RST_REQ_MODE : Fld := ⟨.DRW_RST_REQ, 4, 4⟩
/-- DRW_RST_REQ.KEY, R91. -/
abbrev DRW_RST_REQ_KEY : Fld := ⟨.DRW_RST_REQ, 31, 16⟩
/-- DRW_G_STATE.STATE, R74. -/
abbrev DRW_G_STATE_STATE : Fld := ⟨.DRW_G_STATE, 1, 0⟩
/-- DRW_G_STATE.EXISTS, R74. -/
abbrev DRW_G_STATE_EXISTS : Fld := ⟨.DRW_G_STATE, 2, 2⟩
/-- DRW_G_STATE.ESCALATED, R74. -/
abbrev DRW_G_STATE_ESCALATED : Fld := ⟨.DRW_G_STATE, 3, 3⟩
/-- DRW_G_STATE.DONE, R74. -/
abbrev DRW_G_STATE_DONE : Fld := ⟨.DRW_G_STATE, 4, 4⟩
/-- DRW_BIND.MODE, R73. -/
abbrev DRW_BIND_MODE : Fld := ⟨.DRW_BIND, 0, 0⟩
/-- DRW_BIND.EIID_BASE, R73. -/
abbrev DRW_BIND_EIID_BASE : Fld := ⟨.DRW_BIND, 31, 16⟩
/-- DRW_G_HOLD.AMOUNT, R76. -/
abbrev DRW_G_HOLD_AMOUNT : Fld := ⟨.DRW_G_HOLD, 15, 0⟩
/-- DRW_HOLD.AMOUNT, R76. -/
abbrev DRW_HOLD_AMOUNT : Fld := ⟨.DRW_HOLD, 15, 0⟩
/-- DRW_FEAT_OFFER.OFFER, R80. -/
abbrev DRW_FEAT_OFFER_OFFER : Fld := ⟨.DRW_FEAT_OFFER, 31, 0⟩
/-- DRW_FEAT_ACCEPT.ACCEPT, R81. -/
abbrev DRW_FEAT_ACCEPT_ACCEPT : Fld := ⟨.DRW_FEAT_ACCEPT, 31, 0⟩
/-- DRW_FEAT_CTRL.COMMIT, R81. -/
abbrev DRW_FEAT_CTRL_COMMIT : Fld := ⟨.DRW_FEAT_CTRL, 0, 0⟩
/-- DRW_FEAT_STATUS.RESULT, R81. -/
abbrev DRW_FEAT_STATUS_RESULT : Fld := ⟨.DRW_FEAT_STATUS, 2, 0⟩
/-- DRW_FEAT_STATUS.BAD_BIT, R81. -/
abbrev DRW_FEAT_STATUS_BAD_BIT : Fld := ⟨.DRW_FEAT_STATUS, 14, 8⟩
/-- DRW_STATE.STATE, R74. -/
abbrev DRW_STATE_STATE : Fld := ⟨.DRW_STATE, 1, 0⟩
/-- DRW_RST.MODE, R91. -/
abbrev DRW_RST_MODE : Fld := ⟨.DRW_RST, 0, 0⟩
/-- DRW_RST.KEY, R91. -/
abbrev DRW_RST_KEY : Fld := ⟨.DRW_RST, 31, 16⟩
/-- DRW_IRQ_STATUS.FAULT, R90. -/
abbrev DRW_IRQ_STATUS_FAULT : Fld := ⟨.DRW_IRQ_STATUS, 0, 0⟩
/-- DRW_IRQ_STATUS.MOVED, R90. -/
abbrev DRW_IRQ_STATUS_MOVED : Fld := ⟨.DRW_IRQ_STATUS, 1, 1⟩
/-- DRW_IRQ_STATUS.RESET_DONE, R90. -/
abbrev DRW_IRQ_STATUS_RESET_DONE : Fld := ⟨.DRW_IRQ_STATUS, 2, 2⟩
/-- DRW_IRQ_MASK.MASK, R89. -/
abbrev DRW_IRQ_MASK_MASK : Fld := ⟨.DRW_IRQ_MASK, 31, 0⟩
/-- DRW_FAULT_HEAD.WORD, R90. -/
abbrev DRW_FAULT_HEAD_WORD : Fld := ⟨.DRW_FAULT_HEAD, 31, 0⟩
/-- DRW_FAULT_STAT.COUNT, R90. -/
abbrev DRW_FAULT_STAT_COUNT : Fld := ⟨.DRW_FAULT_STAT, 4, 0⟩
/-- DRW_FAULT_STAT.POP, R90. -/
abbrev DRW_FAULT_STAT_POP : Fld := ⟨.DRW_FAULT_STAT, 8, 8⟩
/-- DRW_FAULT_STAT.LOST, R90. -/
abbrev DRW_FAULT_STAT_LOST : Fld := ⟨.DRW_FAULT_STAT, 31, 16⟩
/-- DRW_RING_OWN.OWN, R76. -/
abbrev DRW_RING_OWN_OWN : Fld := ⟨.DRW_RING_OWN, 31, 0⟩
/-- RING_BASE_LO.BASE, R84. -/
abbrev RING_BASE_LO_BASE : Fld := ⟨.RING_BASE_LO, 31, 0⟩
/-- RING_BASE_HI.BASE, R84. -/
abbrev RING_BASE_HI_BASE : Fld := ⟨.RING_BASE_HI, 15, 0⟩
/-- RING_CFG.SIZE_LOG2, R84. -/
abbrev RING_CFG_SIZE_LOG2 : Fld := ⟨.RING_CFG, 3, 0⟩
/-- RING_CFG.KIND, R84. -/
abbrev RING_CFG_KIND : Fld := ⟨.RING_CFG, 7, 4⟩
/-- RING_CFG.ENDPOINT, R84. -/
abbrev RING_CFG_ENDPOINT : Fld := ⟨.RING_CFG, 13, 8⟩
/-- RING_CFG.CLASS, R84. -/
abbrev RING_CFG_CLASS : Fld := ⟨.RING_CFG, 17, 16⟩
/-- RING_CFG.VEC, R84. -/
abbrev RING_CFG_VEC : Fld := ⟨.RING_CFG, 23, 18⟩
/-- RING_CFG.HOLD_MS, R84. -/
abbrev RING_CFG_HOLD_MS : Fld := ⟨.RING_CFG, 31, 24⟩
/-- RING_CTRL.ENABLE, R85. -/
abbrev RING_CTRL_ENABLE : Fld := ⟨.RING_CTRL, 0, 0⟩
/-- RING_CTRL.RESUME, R85. -/
abbrev RING_CTRL_RESUME : Fld := ⟨.RING_CTRL, 1, 1⟩
/-- RING_TAIL.INDEX, R83. -/
abbrev RING_TAIL_INDEX : Fld := ⟨.RING_TAIL, 15, 0⟩
/-- RING_HEAD.INDEX, R83. -/
abbrev RING_HEAD_INDEX : Fld := ⟨.RING_HEAD, 15, 0⟩
/-- RING_STATE.STATE, R85. -/
abbrev RING_STATE_STATE : Fld := ⟨.RING_STATE, 1, 0⟩
/-- RING_STATE.ERR, R85. -/
abbrev RING_STATE_ERR : Fld := ⟨.RING_STATE, 10, 8⟩
/-- RING_FAULT.DESC, R85. -/
abbrev RING_FAULT_DESC : Fld := ⟨.RING_FAULT, 15, 0⟩
/-- RING_FAULT_OFF.OFFSET, R85. -/
abbrev RING_FAULT_OFF_OFFSET : Fld := ⟨.RING_FAULT_OFF, 23, 0⟩
/-- RING_DROPS.COUNT, R240. -/
abbrev RING_DROPS_COUNT : Fld := ⟨.RING_DROPS, 31, 0⟩
/-- LCH_CMD.ON, R98. -/
abbrev LCH_CMD_ON : Fld := ⟨.LCH_CMD, 0, 0⟩
/-- LCH_CMD.REARM, R98. -/
abbrev LCH_CMD_REARM : Fld := ⟨.LCH_CMD, 1, 1⟩
/-- LCH_FLAGS.FLAGS, R117. -/
abbrev LCH_FLAGS_FLAGS : Fld := ⟨.LCH_FLAGS, 13, 0⟩
/-- LCH_EVENTS.EVENTS, R118. -/
abbrev LCH_EVENTS_EVENTS : Fld := ⟨.LCH_EVENTS, 13, 0⟩
/-- LCH_IRQ_EN.EN, R118. -/
abbrev LCH_IRQ_EN_EN : Fld := ⟨.LCH_IRQ_EN, 13, 0⟩
/-- LCH_STATE.OUT, R101. -/
abbrev LCH_STATE_OUT : Fld := ⟨.LCH_STATE, 1, 0⟩
/-- LCH_STATE.PHASE, R101. -/
abbrev LCH_STATE_PHASE : Fld := ⟨.LCH_STATE, 3, 2⟩
/-- LCH_STATE.WINNER, R101. -/
abbrev LCH_STATE_WINNER : Fld := ⟨.LCH_STATE, 6, 4⟩
/-- LCH_STATE.SRC_VAL, R101. -/
abbrev LCH_STATE_SRC_VAL : Fld := ⟨.LCH_STATE, 7, 7⟩
/-- LCH_STATE.TRIP_CAUSE, R101. -/
abbrev LCH_STATE_TRIP_CAUSE : Fld := ⟨.LCH_STATE, 11, 8⟩
/-- LCH_CFG.KIND, R119. -/
abbrev LCH_CFG_KIND : Fld := ⟨.LCH_CFG, 2, 0⟩
/-- LCH_CFG.WIDTH_M1, R119. -/
abbrev LCH_CFG_WIDTH_M1 : Fld := ⟨.LCH_CFG, 5, 4⟩
/-- LCH_CFG.SRC, R119. -/
abbrev LCH_CFG_SRC : Fld := ⟨.LCH_CFG, 9, 8⟩
/-- LCH_CFG.SEL, R119. -/
abbrev LCH_CFG_SEL : Fld := ⟨.LCH_CFG, 14, 10⟩
/-- LCH_CFG.OWNER, R119. -/
abbrev LCH_CFG_OWNER : Fld := ⟨.LCH_CFG, 19, 16⟩
/-- LCH_CFG.EXISTS, R119. -/
abbrev LCH_CFG_EXISTS : Fld := ⟨.LCH_CFG, 20, 20⟩
/-- LCH_WIRE.CSA, R112. -/
abbrev LCH_WIRE_CSA : Fld := ⟨.LCH_WIRE, 15, 0⟩
/-- LCH_WIRE.INSUL, R112. -/
abbrev LCH_WIRE_INSUL : Fld := ⟨.LCH_WIRE, 18, 16⟩
/-- LCH_WIRE.FROM_MARK, R112. -/
abbrev LCH_WIRE_FROM_MARK : Fld := ⟨.LCH_WIRE, 19, 19⟩
/-- LCH_G_VEC.VEC, R118. -/
abbrev LCH_G_VEC_VEC : Fld := ⟨.LCH_G_VEC, 5, 0⟩
/-- LCH_VEC.VEC, R118. -/
abbrev LCH_VEC_VEC : Fld := ⟨.LCH_VEC, 5, 0⟩
/-- LCH_WIRE_AMB.AMB_C, R114. -/
abbrev LCH_WIRE_AMB_AMB_C : Fld := ⟨.LCH_WIRE_AMB, 7, 0⟩
/-- LCH_PWM.FREQ_HZ, R99. -/
abbrev LCH_PWM_FREQ_HZ : Fld := ⟨.LCH_PWM, 14, 0⟩
/-- LCH_PWM.ENABLE, R99. -/
abbrev LCH_PWM_ENABLE : Fld := ⟨.LCH_PWM, 15, 15⟩
/-- LCH_PWM.DUTY, R99. -/
abbrev LCH_PWM_DUTY : Fld := ⟨.LCH_PWM, 29, 16⟩
/-- LCH_PROT.STATE, R120. -/
abbrev LCH_PROT_STATE : Fld := ⟨.LCH_PROT, 2, 0⟩
/-- LCH_PROT.RETRY_LEFT, R120. -/
abbrev LCH_PROT_RETRY_LEFT : Fld := ⟨.LCH_PROT, 7, 4⟩
/-- LCH_PROT.EPISODE, R120. -/
abbrev LCH_PROT_EPISODE : Fld := ⟨.LCH_PROT, 8, 8⟩
/-- LCH_PROT.HARD_SHORT, R120. -/
abbrev LCH_PROT_HARD_SHORT : Fld := ⟨.LCH_PROT, 9, 9⟩
/-- LCH_PROT.WIRE_GATE, R120. -/
abbrev LCH_PROT_WIRE_GATE : Fld := ⟨.LCH_PROT, 10, 10⟩
/-- LCH_PROT.REARM_REJ, R120. -/
abbrev LCH_PROT_REARM_REJ : Fld := ⟨.LCH_PROT, 11, 11⟩
/-- LCH_PROT.HOLD_EXPIRED, R120. -/
abbrev LCH_PROT_HOLD_EXPIRED : Fld := ⟨.LCH_PROT, 12, 12⟩
/-- LCH_PROT.IMAGE_CHANGED, R120. -/
abbrev LCH_PROT_IMAGE_CHANGED : Fld := ⟨.LCH_PROT, 13, 13⟩
/-- LCH_PROT.RETIRE_CAUSE, R120. -/
abbrev LCH_PROT_RETIRE_CAUSE : Fld := ⟨.LCH_PROT, 17, 16⟩
/-- FEED_STATUS.OVER, R136. -/
abbrev FEED_STATUS_OVER : Fld := ⟨.FEED_STATUS, 0, 0⟩
/-- FEED_STATUS.SHORTFALL, R136. -/
abbrev FEED_STATUS_SHORTFALL : Fld := ⟨.FEED_STATUS, 1, 1⟩
/-- FEED_STATUS.SHED_COUNT, R136. -/
abbrev FEED_STATUS_SHED_COUNT : Fld := ⟨.FEED_STATUS, 14, 8⟩
/-- FEED_STATUS.NOMINAL_48, R136. -/
abbrev FEED_STATUS_NOMINAL_48 : Fld := ⟨.FEED_STATUS, 16, 16⟩
/-- FEED_LIMIT.LIMIT, R136. -/
abbrev FEED_LIMIT_LIMIT : Fld := ⟨.FEED_LIMIT, 15, 0⟩
/-- FEED_BUDGET.BUDGET, R136. -/
abbrev FEED_BUDGET_BUDGET : Fld := ⟨.FEED_BUDGET, 15, 0⟩
/-- FEED_SHEDS.COUNT, R137. -/
abbrev FEED_SHEDS_COUNT : Fld := ⟨.FEED_SHEDS, 31, 0⟩
/-- FEED_EVENTS.SHED, R137. -/
abbrev FEED_EVENTS_SHED : Fld := ⟨.FEED_EVENTS, 0, 0⟩
/-- FEED_EVENTS.RESTORE, R137. -/
abbrev FEED_EVENTS_RESTORE : Fld := ⟨.FEED_EVENTS, 1, 1⟩
/-- FEED_EVENTS.SHORTFALL, R137. -/
abbrev FEED_EVENTS_SHORTFALL : Fld := ⟨.FEED_EVENTS, 2, 2⟩
/-- FEED_IRQ_EN.SHED, R137. -/
abbrev FEED_IRQ_EN_SHED : Fld := ⟨.FEED_IRQ_EN, 0, 0⟩
/-- FEED_IRQ_EN.RESTORE, R137. -/
abbrev FEED_IRQ_EN_RESTORE : Fld := ⟨.FEED_IRQ_EN, 1, 1⟩
/-- FEED_IRQ_EN.SHORTFALL, R137. -/
abbrev FEED_IRQ_EN_SHORTFALL : Fld := ⟨.FEED_IRQ_EN, 2, 2⟩
/-- INP_MI_CFG.MODE, R140. -/
abbrev INP_MI_CFG_MODE : Fld := ⟨.INP_MI_CFG, 2, 0⟩
/-- INP_MI_CFG.WAKE, R140. -/
abbrev INP_MI_CFG_WAKE : Fld := ⟨.INP_MI_CFG, 3, 3⟩
/-- INP_MI_CFG.OWNER, R140. -/
abbrev INP_MI_CFG_OWNER : Fld := ⟨.INP_MI_CFG, 7, 4⟩
/-- INP_MI_CFG.FILTER, R140. -/
abbrev INP_MI_CFG_FILTER : Fld := ⟨.INP_MI_CFG, 15, 8⟩
/-- INP_MI_CFG.THRESH, R140. -/
abbrev INP_MI_CFG_THRESH : Fld := ⟨.INP_MI_CFG, 31, 16⟩
/-- INP_MI_VAL.VALUE, R142. -/
abbrev INP_MI_VAL_VALUE : Fld := ⟨.INP_MI_VAL, 27, 0⟩
/-- INP_MI_STAT.RAW, R142. -/
abbrev INP_MI_STAT_RAW : Fld := ⟨.INP_MI_STAT, 0, 0⟩
/-- INP_MI_STAT.OVERRANGE, R142. -/
abbrev INP_MI_STAT_OVERRANGE : Fld := ⟨.INP_MI_STAT, 1, 1⟩
/-- INP_MI_STAT.OPEN, R142. -/
abbrev INP_MI_STAT_OPEN : Fld := ⟨.INP_MI_STAT, 2, 2⟩
/-- INP_MI_STAT.STALLED, R142. -/
abbrev INP_MI_STAT_STALLED : Fld := ⟨.INP_MI_STAT, 3, 3⟩
/-- INP_MI_STAT.TEST_FAIL, R142. -/
abbrev INP_MI_STAT_TEST_FAIL : Fld := ⟨.INP_MI_STAT, 4, 4⟩
/-- INP_MI_STAT.RETIRED, R142. -/
abbrev INP_MI_STAT_RETIRED : Fld := ⟨.INP_MI_STAT, 5, 5⟩
/-- INP_MI_STAT.RISE, R142. -/
abbrev INP_MI_STAT_RISE : Fld := ⟨.INP_MI_STAT, 8, 8⟩
/-- INP_MI_STAT.FALL, R142. -/
abbrev INP_MI_STAT_FALL : Fld := ⟨.INP_MI_STAT, 9, 9⟩
/-- INP_MI_STAT.RANGE_EV, R142. -/
abbrev INP_MI_STAT_RANGE_EV : Fld := ⟨.INP_MI_STAT, 10, 10⟩
/-- INP_MI_STAT.EN, R142. -/
abbrev INP_MI_STAT_EN : Fld := ⟨.INP_MI_STAT, 18, 16⟩
/-- INP_MI_EDGES.EDGES, R145. -/
abbrev INP_MI_EDGES_EDGES : Fld := ⟨.INP_MI_EDGES, 31, 0⟩
/-- INP_DRV.LEVEL, R148. -/
abbrev INP_DRV_LEVEL : Fld := ⟨.INP_DRV, 0, 0⟩
/-- INP_DRV.USED, R148. -/
abbrev INP_DRV_USED : Fld := ⟨.INP_DRV, 1, 1⟩
/-- INP_DRV.INVERT, R148. -/
abbrev INP_DRV_INVERT : Fld := ⟨.INP_DRV, 2, 2⟩
/-- INP_G_VEC.VEC, R89. -/
abbrev INP_G_VEC_VEC : Fld := ⟨.INP_G_VEC, 5, 0⟩
/-- INP_VEC.VEC, R89. -/
abbrev INP_VEC_VEC : Fld := ⟨.INP_VEC, 5, 0⟩
/-- CLP_STAT.STATE, R150. -/
abbrev CLP_STAT_STATE : Fld := ⟨.CLP_STAT, 1, 0⟩
/-- CLP_STAT.COND, R150. -/
abbrev CLP_STAT_COND : Fld := ⟨.CLP_STAT, 7, 4⟩
/-- CLP_STAT.RESULT, R150. -/
abbrev CLP_STAT_RESULT : Fld := ⟨.CLP_STAT, 8, 8⟩
/-- CLP_STAT.FIRED, R150. -/
abbrev CLP_STAT_FIRED : Fld := ⟨.CLP_STAT, 16, 16⟩
/-- CLP_STAT.RELEASED, R150. -/
abbrev CLP_STAT_RELEASED : Fld := ⟨.CLP_STAT, 17, 17⟩
/-- CLP_STAT.EN, R150. -/
abbrev CLP_STAT_EN : Fld := ⟨.CLP_STAT, 25, 24⟩
/-- CLP_FIRES.COUNT, R150. -/
abbrev CLP_FIRES_COUNT : Fld := ⟨.CLP_FIRES, 15, 0⟩
/-- CLP_CFG.WORD, R149. -/
abbrev CLP_CFG_WORD : Fld := ⟨.CLP_CFG, 31, 0⟩
/-- CLP_PINS.WORD, R149. -/
abbrev CLP_PINS_WORD : Fld := ⟨.CLP_PINS, 31, 0⟩
/-- CLP_ACK.RULE, R151. -/
abbrev CLP_ACK_RULE : Fld := ⟨.CLP_ACK, 5, 0⟩
/-- CLP_ACK.ACK, R151. -/
abbrev CLP_ACK_ACK : Fld := ⟨.CLP_ACK, 31, 31⟩
/-- CLP_ACK_STATUS.RESULT, R151. -/
abbrev CLP_ACK_STATUS_RESULT : Fld := ⟨.CLP_ACK_STATUS, 1, 0⟩
/-- CLP_ACK_STATUS.RULE, R151. -/
abbrev CLP_ACK_STATUS_RULE : Fld := ⟨.CLP_ACK_STATUS, 13, 8⟩
/-- CLP_CHAN.HELD, R155. -/
abbrev CLP_CHAN_HELD : Fld := ⟨.CLP_CHAN, 0, 0⟩
/-- CLP_CHAN.CMD, R155. -/
abbrev CLP_CHAN_CMD : Fld := ⟨.CLP_CHAN, 1, 1⟩
/-- CLP_CHAN.FROZEN, R155. -/
abbrev CLP_CHAN_FROZEN : Fld := ⟨.CLP_CHAN, 2, 2⟩
/-- CLP_CHAN.RULE, R155. -/
abbrev CLP_CHAN_RULE : Fld := ⟨.CLP_CHAN, 13, 8⟩
/-- LTH_STATE.STATE, R179. -/
abbrev LTH_STATE_STATE : Fld := ⟨.LTH_STATE, 2, 0⟩
/-- LTH_STATE.RESTART, R179. -/
abbrev LTH_STATE_RESTART : Fld := ⟨.LTH_STATE, 5, 4⟩
/-- LTH_STATE.RET_VALID, R179. -/
abbrev LTH_STATE_RET_VALID : Fld := ⟨.LTH_STATE, 6, 6⟩
/-- LTH_STATE.COLD_WHY, R179. -/
abbrev LTH_STATE_COLD_WHY : Fld := ⟨.LTH_STATE, 10, 8⟩
/-- LTH_STATE.CMD_REJ, R179. -/
abbrev LTH_STATE_CMD_REJ : Fld := ⟨.LTH_STATE, 12, 12⟩
/-- LTH_CTRL.CMD, R182. -/
abbrev LTH_CTRL_CMD : Fld := ⟨.LTH_CTRL, 1, 0⟩
/-- LTH_CTRL.KEY, R182. -/
abbrev LTH_CTRL_KEY : Fld := ⟨.LTH_CTRL, 31, 16⟩
/-- LTH_PHASH.HASH, R161. -/
abbrev LTH_PHASH_HASH : Fld := ⟨.LTH_PHASH, 31, 0⟩
/-- LTH_CHK_ITEM.ITEM, R184. -/
abbrev LTH_CHK_ITEM_ITEM : Fld := ⟨.LTH_CHK_ITEM, 16, 0⟩
/-- LTH_TASK_CFG.ENABLE, R160. -/
abbrev LTH_TASK_CFG_ENABLE : Fld := ⟨.LTH_TASK_CFG, 0, 0⟩
/-- LTH_TASK_CFG.LANE, R160. -/
abbrev LTH_TASK_CFG_LANE : Fld := ⟨.LTH_TASK_CFG, 1, 1⟩
/-- LTH_TASK_CFG.PERIOD_US, R160. -/
abbrev LTH_TASK_CFG_PERIOD_US : Fld := ⟨.LTH_TASK_CFG, 31, 12⟩
/-- LTH_TASK_STAT.STATE, R177. -/
abbrev LTH_TASK_STAT_STATE : Fld := ⟨.LTH_TASK_STAT, 1, 0⟩
/-- LTH_TASK_STAT.FAULT_RUN, R177. -/
abbrev LTH_TASK_STAT_FAULT_RUN : Fld := ⟨.LTH_TASK_STAT, 5, 4⟩
/-- LTH_TASK_STAT.OVR_EV, R177. -/
abbrev LTH_TASK_STAT_OVR_EV : Fld := ⟨.LTH_TASK_STAT, 8, 8⟩
/-- LTH_TASK_STAT.STOP_EV, R177. -/
abbrev LTH_TASK_STAT_STOP_EV : Fld := ⟨.LTH_TASK_STAT, 9, 9⟩
/-- LTH_TASK_STAT.ERR_EV, R177. -/
abbrev LTH_TASK_STAT_ERR_EV : Fld := ⟨.LTH_TASK_STAT, 10, 10⟩
/-- LTH_TASK_STAT.EN, R177. -/
abbrev LTH_TASK_STAT_EN : Fld := ⟨.LTH_TASK_STAT, 18, 16⟩
/-- LTH_TASK_OVR.OVERRUNS, R176. -/
abbrev LTH_TASK_OVR_OVERRUNS : Fld := ⟨.LTH_TASK_OVR, 15, 0⟩
/-- LTH_TASK_OVR.LIMITS, R176. -/
abbrev LTH_TASK_OVR_LIMITS : Fld := ⟨.LTH_TASK_OVR, 31, 16⟩
/-- LTH_TASK_TIME.CYCLES, R174. -/
abbrev LTH_TASK_TIME_CYCLES : Fld := ⟨.LTH_TASK_TIME, 15, 0⟩
/-- LTH_TASK_TMAX.CYCLES, R174. -/
abbrev LTH_TASK_TMAX_CYCLES : Fld := ⟨.LTH_TASK_TMAX, 15, 0⟩
/-- LTH_TASK_RESP.RESP, R175. -/
abbrev LTH_TASK_RESP_RESP : Fld := ⟨.LTH_TASK_RESP, 23, 0⟩
/-- LTH_TASK_CTRL.START, R177. -/
abbrev LTH_TASK_CTRL_START : Fld := ⟨.LTH_TASK_CTRL, 0, 0⟩
/-- LTH_TASK_COUNT.COUNT, R175. -/
abbrev LTH_TASK_COUNT_COUNT : Fld := ⟨.LTH_TASK_COUNT, 31, 0⟩
/-- LTH_ERR_STAT.QUEUED, R178. -/
abbrev LTH_ERR_STAT_QUEUED : Fld := ⟨.LTH_ERR_STAT, 4, 0⟩
/-- LTH_ERR_STAT.POP, R178. -/
abbrev LTH_ERR_STAT_POP : Fld := ⟨.LTH_ERR_STAT, 8, 8⟩
/-- LTH_ERR_STAT.SELF, R178. -/
abbrev LTH_ERR_STAT_SELF : Fld := ⟨.LTH_ERR_STAT, 15, 12⟩
/-- LTH_ERR_STAT.LOST, R178. -/
abbrev LTH_ERR_STAT_LOST : Fld := ⟨.LTH_ERR_STAT, 31, 16⟩
/-- LTH_ERR_HEAD.WORD, R178. -/
abbrev LTH_ERR_HEAD_WORD : Fld := ⟨.LTH_ERR_HEAD, 31, 0⟩
/-- LTH_SLOT_IDX.IDX, R158. -/
abbrev LTH_SLOT_IDX_IDX : Fld := ⟨.LTH_SLOT_IDX, 13, 0⟩
/-- LTH_SLOT_IDX.AUTO, R158. -/
abbrev LTH_SLOT_IDX_AUTO : Fld := ⟨.LTH_SLOT_IDX, 16, 16⟩
/-- LTH_SLOT_DATA.DATA, R158. -/
abbrev LTH_SLOT_DATA_DATA : Fld := ⟨.LTH_SLOT_DATA, 31, 0⟩
/-- LTH_HIN.VALUE, R162. -/
abbrev LTH_HIN_VALUE : Fld := ⟨.LTH_HIN, 31, 0⟩
/-- LTH_G_VEC.VEC, R89. -/
abbrev LTH_G_VEC_VEC : Fld := ⟨.LTH_G_VEC, 5, 0⟩
/-- LTH_VEC.VEC, R89. -/
abbrev LTH_VEC_VEC : Fld := ⟨.LTH_VEC, 5, 0⟩
/-- LTH_STN_STAT.STATE, R192. -/
abbrev LTH_STN_STAT_STATE : Fld := ⟨.LTH_STN_STAT, 1, 0⟩
/-- LTH_STN_STAT.SYNC, R192. -/
abbrev LTH_STN_STAT_SYNC : Fld := ⟨.LTH_STN_STAT, 2, 2⟩
/-- LTH_STN_STAT.FAULT, R192. -/
abbrev LTH_STN_STAT_FAULT : Fld := ⟨.LTH_STN_STAT, 3, 3⟩
/-- LTH_STN_STAT.DROP_EV, R192. -/
abbrev LTH_STN_STAT_DROP_EV : Fld := ⟨.LTH_STN_STAT, 8, 8⟩
/-- LTH_STN_STAT.RET_EV, R192. -/
abbrev LTH_STN_STAT_RET_EV : Fld := ⟨.LTH_STN_STAT, 9, 9⟩
/-- LTH_STN_STAT.EN, R192. -/
abbrev LTH_STN_STAT_EN : Fld := ⟨.LTH_STN_STAT, 17, 16⟩
/-- LTH_STN_ERR.BAD, R189. -/
abbrev LTH_STN_ERR_BAD : Fld := ⟨.LTH_STN_ERR, 15, 0⟩
/-- LTH_STN_ERR.STALE, R189. -/
abbrev LTH_STN_ERR_STALE : Fld := ⟨.LTH_STN_ERR, 31, 16⟩
/-- LTH_STN_DROPS.COUNT, R192. -/
abbrev LTH_STN_DROPS_COUNT : Fld := ⟨.LTH_STN_DROPS, 15, 0⟩
/-- LTH_STN_MODE.SYNC, R194. -/
abbrev LTH_STN_MODE_SYNC : Fld := ⟨.LTH_STN_MODE, 0, 0⟩
/-- LTH_CHG_ITEM.SID, R195. -/
abbrev LTH_CHG_ITEM_SID : Fld := ⟨.LTH_CHG_ITEM, 31, 0⟩
/-- LTH_CHG_VALUE.VALUE, R195. -/
abbrev LTH_CHG_VALUE_VALUE : Fld := ⟨.LTH_CHG_VALUE, 31, 0⟩
/-- LTH_CHG_CTRL.COMMIT, R196. -/
abbrev LTH_CHG_CTRL_COMMIT : Fld := ⟨.LTH_CHG_CTRL, 0, 0⟩
/-- LTH_CHG_CTRL.CLEAR, R196. -/
abbrev LTH_CHG_CTRL_CLEAR : Fld := ⟨.LTH_CHG_CTRL, 1, 1⟩
/-- LTH_CHG_STATUS.RESULT, R196. -/
abbrev LTH_CHG_STATUS_RESULT : Fld := ⟨.LTH_CHG_STATUS, 3, 0⟩
/-- LTH_CHG_STATUS.COUNT, R196. -/
abbrev LTH_CHG_STATUS_COUNT : Fld := ⟨.LTH_CHG_STATUS, 16, 8⟩
/-- LTH_CHG_STATUS.FIRST_BAD, R196. -/
abbrev LTH_CHG_STATUS_FIRST_BAD : Fld := ⟨.LTH_CHG_STATUS, 31, 24⟩
/-- LTH_CHG_RES_IDX.IDX, R197. -/
abbrev LTH_CHG_RES_IDX_IDX : Fld := ⟨.LTH_CHG_RES_IDX, 7, 0⟩
/-- LTH_CHG_RES.ITEM_RES, R197. -/
abbrev LTH_CHG_RES_ITEM_RES : Fld := ⟨.LTH_CHG_RES, 2, 0⟩
/-- LTH_FRC_SID.WORD, R200. -/
abbrev LTH_FRC_SID_WORD : Fld := ⟨.LTH_FRC_SID, 31, 0⟩
/-- LTH_FRC_VALUE.WORD, R200. -/
abbrev LTH_FRC_VALUE_WORD : Fld := ⟨.LTH_FRC_VALUE, 31, 0⟩
/-- LTH_FRC_MASK.WORD, R200. -/
abbrev LTH_FRC_MASK_WORD : Fld := ⟨.LTH_FRC_MASK, 31, 0⟩
/-- LTH_FRC_CTRL.OP, R200. -/
abbrev LTH_FRC_CTRL_OP : Fld := ⟨.LTH_FRC_CTRL, 1, 0⟩
/-- LTH_FRC_STATUS.RESULT, R200. -/
abbrev LTH_FRC_STATUS_RESULT : Fld := ⟨.LTH_FRC_STATUS, 2, 0⟩
/-- LTH_FRC_STATUS.COUNT, R200. -/
abbrev LTH_FRC_STATUS_COUNT : Fld := ⟨.LTH_FRC_STATUS, 25, 16⟩
/-- LTH_FRC_DROP_IDX.IDX, R201. -/
abbrev LTH_FRC_DROP_IDX_IDX : Fld := ⟨.LTH_FRC_DROP_IDX, 8, 0⟩
/-- LTH_FRC_DROP_IDX.TOTAL, R201. -/
abbrev LTH_FRC_DROP_IDX_TOTAL : Fld := ⟨.LTH_FRC_DROP_IDX, 25, 16⟩
/-- LTH_FRC_DROP.SID, R201. -/
abbrev LTH_FRC_DROP_SID : Fld := ⟨.LTH_FRC_DROP, 31, 0⟩
/-- MTR_CFG.MODE, R220. -/
abbrev MTR_CFG_MODE : Fld := ⟨.MTR_CFG, 0, 0⟩
/-- MTR_CFG.SERVED, R220. -/
abbrev MTR_CFG_SERVED : Fld := ⟨.MTR_CFG, 31, 16⟩
/-- MTR_STATE.STATE, R220. -/
abbrev MTR_STATE_STATE : Fld := ⟨.MTR_STATE, 2, 0⟩
/-- MTR_STATE.COPY, R220. -/
abbrev MTR_STATE_COPY : Fld := ⟨.MTR_STATE, 5, 4⟩
/-- MTR_STATE.CAUSE, R220. -/
abbrev MTR_STATE_CAUSE : Fld := ⟨.MTR_STATE, 10, 8⟩
/-- MTR_STATE.CORES, R220. -/
abbrev MTR_STATE_CORES : Fld := ⟨.MTR_STATE, 13, 12⟩
/-- MTR_STATE.CMD_REJ, R220. -/
abbrev MTR_STATE_CMD_REJ : Fld := ⟨.MTR_STATE, 16, 16⟩
/-- MTR_CTRL.CMD, R221. -/
abbrev MTR_CTRL_CMD : Fld := ⟨.MTR_CTRL, 2, 0⟩
/-- MTR_CTRL.CORES, R221. -/
abbrev MTR_CTRL_CORES : Fld := ⟨.MTR_CTRL, 5, 4⟩
/-- MTR_CTRL.KEY, R221. -/
abbrev MTR_CTRL_KEY : Fld := ⟨.MTR_CTRL, 31, 16⟩
/-- MTR_SLICE_LEN.LEN, R204. -/
abbrev MTR_SLICE_LEN_LEN : Fld := ⟨.MTR_SLICE_LEN, 16, 0⟩
/-- MTR_SLICES.COUNT, R214. -/
abbrev MTR_SLICES_COUNT : Fld := ⟨.MTR_SLICES, 31, 0⟩
/-- MTR_EVENTS.MISMATCH, R214. -/
abbrev MTR_EVENTS_MISMATCH : Fld := ⟨.MTR_EVENTS, 15, 0⟩
/-- MTR_EVENTS.LATENT, R214. -/
abbrev MTR_EVENTS_LATENT : Fld := ⟨.MTR_EVENTS, 31, 16⟩
/-- MTR_LAST.KIND, R211. -/
abbrev MTR_LAST_KIND : Fld := ⟨.MTR_LAST, 1, 0⟩
/-- MTR_LAST.ODD, R211. -/
abbrev MTR_LAST_ODD : Fld := ⟨.MTR_LAST, 3, 2⟩
/-- MTR_LAST.WHERE, R211. -/
abbrev MTR_LAST_WHERE : Fld := ⟨.MTR_LAST, 4, 4⟩
/-- MTR_LAST.ENTRY, R211. -/
abbrev MTR_LAST_ENTRY : Fld := ⟨.MTR_LAST, 14, 8⟩
/-- MTR_LAST_LANES.LANES, R210. -/
abbrev MTR_LAST_LANES_LANES : Fld := ⟨.MTR_LAST_LANES, 31, 0⟩
/-- MTR_LAST_SLICE.SLICE, R214. -/
abbrev MTR_LAST_SLICE_SLICE : Fld := ⟨.MTR_LAST_SLICE, 31, 0⟩
/-- MTR_TEST.LANE_FAIL, R218. -/
abbrev MTR_TEST_LANE_FAIL : Fld := ⟨.MTR_TEST, 31, 0⟩
/-- MTR_TEST_SIG.SIG_FAIL, R218. -/
abbrev MTR_TEST_SIG_SIG_FAIL : Fld := ⟨.MTR_TEST_SIG, 0, 0⟩
/-- MTR_TEST_SIG.DONE, R218. -/
abbrev MTR_TEST_SIG_DONE : Fld := ⟨.MTR_TEST_SIG, 1, 1⟩
/-- MTR_LMEM_ADDR.OFFSET, R208. -/
abbrev MTR_LMEM_ADDR_OFFSET : Fld := ⟨.MTR_LMEM_ADDR, 21, 2⟩
/-- MTR_LMEM_ADDR.BANK, R208. -/
abbrev MTR_LMEM_ADDR_BANK : Fld := ⟨.MTR_LMEM_ADDR, 31, 31⟩
/-- MTR_LMEM_DATA.DATA, R208. -/
abbrev MTR_LMEM_DATA_DATA : Fld := ⟨.MTR_LMEM_DATA, 31, 0⟩
/-- MTR_ENTRY.PC, R221. -/
abbrev MTR_ENTRY_PC : Fld := ⟨.MTR_ENTRY, 31, 1⟩
/-- MTR_INT_ROUTE.ROUTE, R224. -/
abbrev MTR_INT_ROUTE_ROUTE : Fld := ⟨.MTR_INT_ROUTE, 15, 0⟩
/-- MTR_INT_ACK.ACK, R224. -/
abbrev MTR_INT_ACK_ACK : Fld := ⟨.MTR_INT_ACK, 15, 0⟩
/-- MTR_DOORBELL.RING, R224. -/
abbrev MTR_DOORBELL_RING : Fld := ⟨.MTR_DOORBELL, 0, 0⟩
/-- MTR_IRQ.SAFE, R216. -/
abbrev MTR_IRQ_SAFE : Fld := ⟨.MTR_IRQ, 0, 0⟩
/-- MTR_IRQ.MISMATCH, R216. -/
abbrev MTR_IRQ_MISMATCH : Fld := ⟨.MTR_IRQ, 1, 1⟩
/-- MTR_IRQ.LATENT, R216. -/
abbrev MTR_IRQ_LATENT : Fld := ⟨.MTR_IRQ, 2, 2⟩
/-- MTR_IRQ_EN.SAFE, R89. -/
abbrev MTR_IRQ_EN_SAFE : Fld := ⟨.MTR_IRQ_EN, 0, 0⟩
/-- MTR_IRQ_EN.MISMATCH, R89. -/
abbrev MTR_IRQ_EN_MISMATCH : Fld := ⟨.MTR_IRQ_EN, 1, 1⟩
/-- MTR_IRQ_EN.LATENT, R89. -/
abbrev MTR_IRQ_EN_LATENT : Fld := ⟨.MTR_IRQ_EN, 2, 2⟩
/-- MTR_VIEW_STAT.SAFE, R216. -/
abbrev MTR_VIEW_STAT_SAFE : Fld := ⟨.MTR_VIEW_STAT, 0, 0⟩
/-- MTR_VIEW_STAT.EN, R216. -/
abbrev MTR_VIEW_STAT_EN : Fld := ⟨.MTR_VIEW_STAT, 16, 16⟩
/-- MTR_G_VEC.VEC, R89. -/
abbrev MTR_G_VEC_VEC : Fld := ⟨.MTR_G_VEC, 5, 0⟩
/-- MTR_VEC.VEC, R89. -/
abbrev MTR_VEC_VEC : Fld := ⟨.MTR_VEC, 5, 0⟩
/-- IOM_S2CFG.MODE, R232. -/
abbrev IOM_S2CFG_MODE : Fld := ⟨.IOM_S2CFG, 1, 0⟩
/-- IOM_S2CFG.ROOT_PPN, R232. -/
abbrev IOM_S2CFG_ROOT_PPN : Fld := ⟨.IOM_S2CFG, 31, 6⟩
/-- IOM_GIRQ.HART, R228. -/
abbrev IOM_GIRQ_HART : Fld := ⟨.IOM_GIRQ, 2, 0⟩
/-- IOM_GIRQ.GFILE, R228. -/
abbrev IOM_GIRQ_GFILE : Fld := ⟨.IOM_GIRQ, 6, 4⟩
/-- IOM_GIRQ.DROPS, R228. -/
abbrev IOM_GIRQ_DROPS : Fld := ⟨.IOM_GIRQ, 31, 16⟩
/-- IOM_DIRTY_BASE.BASE_1G, R242. -/
abbrev IOM_DIRTY_BASE_BASE_1G : Fld := ⟨.IOM_DIRTY_BASE, 17, 0⟩
/-- IOM_DIRTY_SIZE.SIZE_1G, R242. -/
abbrev IOM_DIRTY_SIZE_SIZE_1G : Fld := ⟨.IOM_DIRTY_SIZE, 6, 0⟩
/-- IOM_DIRTY_MAP0.PPN, R242. -/
abbrev IOM_DIRTY_MAP0_PPN : Fld := ⟨.IOM_DIRTY_MAP0, 27, 0⟩
/-- IOM_DIRTY_MAP1.PPN, R242. -/
abbrev IOM_DIRTY_MAP1_PPN : Fld := ⟨.IOM_DIRTY_MAP1, 27, 0⟩
/-- IOM_DIRTY_CTRL.SWAP, R243. -/
abbrev IOM_DIRTY_CTRL_SWAP : Fld := ⟨.IOM_DIRTY_CTRL, 0, 0⟩
/-- IOM_DIRTY_STAT.CUR, R243. -/
abbrev IOM_DIRTY_STAT_CUR : Fld := ⟨.IOM_DIRTY_STAT, 0, 0⟩
/-- IOM_DIRTY_STAT.BUSY, R243. -/
abbrev IOM_DIRTY_STAT_BUSY : Fld := ⟨.IOM_DIRTY_STAT, 1, 1⟩
/-- IOM_DIRTY_STAT.OVERFLOW, R243. -/
abbrev IOM_DIRTY_STAT_OVERFLOW : Fld := ⟨.IOM_DIRTY_STAT, 2, 2⟩
/-- IOM_DIRTY_STAT.EPOCH, R243. -/
abbrev IOM_DIRTY_STAT_EPOCH : Fld := ⟨.IOM_DIRTY_STAT, 31, 16⟩
/-- IOM_DHELD.DGRAN, R229. -/
abbrev IOM_DHELD_DGRAN : Fld := ⟨.IOM_DHELD, 12, 0⟩
/-- IOM_DHELD.SGRAN, R229. -/
abbrev IOM_DHELD_SGRAN : Fld := ⟨.IOM_DHELD, 25, 16⟩
/-- IOM_INVAL.SCOPE, R234. -/
abbrev IOM_INVAL_SCOPE : Fld := ⟨.IOM_INVAL, 1, 0⟩
/-- IOM_INVAL.DRAWER, R234. -/
abbrev IOM_INVAL_DRAWER : Fld := ⟨.IOM_INVAL, 7, 4⟩
/-- IOM_INVAL.GO, R234. -/
abbrev IOM_INVAL_GO : Fld := ⟨.IOM_INVAL, 31, 31⟩
/-- IOM_INVAL_ADDR_LO.PAGE, R234. -/
abbrev IOM_INVAL_ADDR_LO_PAGE : Fld := ⟨.IOM_INVAL_ADDR_LO, 31, 0⟩
/-- IOM_INVAL_ADDR_HI.PAGE, R234. -/
abbrev IOM_INVAL_ADDR_HI_PAGE : Fld := ⟨.IOM_INVAL_ADDR_HI, 3, 0⟩
/-- IOM_INVAL_STAT.BUSY, R234. -/
abbrev IOM_INVAL_STAT_BUSY : Fld := ⟨.IOM_INVAL_STAT, 0, 0⟩
/-- IOM_INVAL_STAT.DONE, R234. -/
abbrev IOM_INVAL_STAT_DONE : Fld := ⟨.IOM_INVAL_STAT, 1, 1⟩
/-- IOM_KEVT.S2FAULT, R237. -/
abbrev IOM_KEVT_S2FAULT : Fld := ⟨.IOM_KEVT, 15, 0⟩
/-- IOM_KEVT_EN.S2FAULT, R237. -/
abbrev IOM_KEVT_EN_S2FAULT : Fld := ⟨.IOM_KEVT_EN, 15, 0⟩
/-- IOM_GSTAT.REJ, R231. -/
abbrev IOM_GSTAT_REJ : Fld := ⟨.IOM_GSTAT, 0, 0⟩
/-- IOM_DGRAN.OWNER, R229. -/
abbrev IOM_DGRAN_OWNER : Fld := ⟨.IOM_DGRAN, 3, 0⟩
/-- IOM_DGRAN.VALID, R229. -/
abbrev IOM_DGRAN_VALID : Fld := ⟨.IOM_DGRAN, 4, 4⟩
/-- IOM_SGRAN.OWNER, R229. -/
abbrev IOM_SGRAN_OWNER : Fld := ⟨.IOM_SGRAN, 3, 0⟩
/-- IOM_SGRAN.VALID, R229. -/
abbrev IOM_SGRAN_VALID : Fld := ⟨.IOM_SGRAN, 4, 4⟩
/-- IOM_S1CFG.MODE, R232. -/
abbrev IOM_S1CFG_MODE : Fld := ⟨.IOM_S1CFG, 1, 0⟩
/-- IOM_S1ROOT_LO.PPN, R232. -/
abbrev IOM_S1ROOT_LO_PPN : Fld := ⟨.IOM_S1ROOT_LO, 31, 0⟩
/-- IOM_S1ROOT_HI.PPN, R232. -/
abbrev IOM_S1ROOT_HI_PPN : Fld := ⟨.IOM_S1ROOT_HI, 3, 0⟩
/-- IOM_S1INVAL.GO, R234. -/
abbrev IOM_S1INVAL_GO : Fld := ⟨.IOM_S1INVAL, 0, 0⟩
/-- IOM_S1INVAL.BUSY, R234. -/
abbrev IOM_S1INVAL_BUSY : Fld := ⟨.IOM_S1INVAL, 1, 1⟩
/-- IOM_RFLT_INFO.CAUSE, R237. -/
abbrev IOM_RFLT_INFO_CAUSE : Fld := ⟨.IOM_RFLT_INFO, 3, 0⟩
/-- IOM_RFLT_INFO.STAGE, R237. -/
abbrev IOM_RFLT_INFO_STAGE : Fld := ⟨.IOM_RFLT_INFO, 5, 4⟩
/-- IOM_RFLT_INFO.SIDE, R237. -/
abbrev IOM_RFLT_INFO_SIDE : Fld := ⟨.IOM_RFLT_INFO, 9, 8⟩
/-- IOM_RFLT_INFO.WRITE, R237. -/
abbrev IOM_RFLT_INFO_WRITE : Fld := ⟨.IOM_RFLT_INFO, 12, 12⟩
/-- IOM_RFLT_ADDR_LO.ADDR, R237. -/
abbrev IOM_RFLT_ADDR_LO_ADDR : Fld := ⟨.IOM_RFLT_ADDR_LO, 31, 0⟩
/-- IOM_RFLT_ADDR_HI.ADDR, R237. -/
abbrev IOM_RFLT_ADDR_HI_ADDR : Fld := ⟨.IOM_RFLT_ADDR_HI, 15, 0⟩
/-- IOM_RFLT_GPA_LO.ADDR, R237. -/
abbrev IOM_RFLT_GPA_LO_ADDR : Fld := ⟨.IOM_RFLT_GPA_LO, 31, 0⟩
/-- IOM_RFLT_GPA_HI.ADDR, R237. -/
abbrev IOM_RFLT_GPA_HI_ADDR : Fld := ⟨.IOM_RFLT_GPA_HI, 15, 0⟩
/-- DVT_PORT.PVID, R253. -/
abbrev DVT_PORT_PVID : Fld := ⟨.DVT_PORT, 11, 0⟩
/-- DVT_PORT.ENABLED, R253. -/
abbrev DVT_PORT_ENABLED : Fld := ⟨.DVT_PORT, 12, 12⟩
/-- DVT_PORT.CUT_THROUGH, R253. -/
abbrev DVT_PORT_CUT_THROUGH : Fld := ⟨.DVT_PORT, 13, 13⟩
/-- DVT_PORT.DEF_PCP, R253. -/
abbrev DVT_PORT_DEF_PCP : Fld := ⟨.DVT_PORT, 18, 16⟩
/-- DVT_PORT.LEARN, R253. -/
abbrev DVT_PORT_LEARN : Fld := ⟨.DVT_PORT, 19, 19⟩
/-- DVT_PDROP.COUNT, R271. -/
abbrev DVT_PDROP_COUNT : Fld := ⟨.DVT_PDROP, 31, 0⟩
/-- DVT_QLIM.LIMIT, R247. -/
abbrev DVT_QLIM_LIMIT : Fld := ⟨.DVT_QLIM, 15, 0⟩
/-- DVT_QLIM.RESERVE, R247. -/
abbrev DVT_QLIM_RESERVE : Fld := ⟨.DVT_QLIM, 31, 16⟩
/-- DVT_QOCC.OCC, R247. -/
abbrev DVT_QOCC_OCC : Fld := ⟨.DVT_QOCC, 15, 0⟩
/-- DVT_QOCC.PEAK, R247. -/
abbrev DVT_QOCC_PEAK : Fld := ⟨.DVT_QOCC, 31, 16⟩
/-- DVT_QDROP.DROPS, R271. -/
abbrev DVT_QDROP_DROPS : Fld := ⟨.DVT_QDROP, 31, 0⟩
/-- DVT_QCBS.IDLE_KBPS, R266. -/
abbrev DVT_QCBS_IDLE_KBPS : Fld := ⟨.DVT_QCBS, 23, 0⟩
/-- DVT_BUF_USED.TOTAL, R247. -/
abbrev DVT_BUF_USED_TOTAL : Fld := ⟨.DVT_BUF_USED, 15, 0⟩
/-- DVT_BUF_USED.SHARED, R247. -/
abbrev DVT_BUF_USED_SHARED : Fld := ⟨.DVT_BUF_USED, 31, 16⟩
/-- DVT_BUF_CAP.SHARED_CAP, R247. -/
abbrev DVT_BUF_CAP_SHARED_CAP : Fld := ⟨.DVT_BUF_CAP, 15, 0⟩
/-- DVT_CT_STOMP.COUNT, R268. -/
abbrev DVT_CT_STOMP_COUNT : Fld := ⟨.DVT_CT_STOMP, 31, 0⟩
/-- DVT_DROP.COUNT, R271. -/
abbrev DVT_DROP_COUNT : Fld := ⟨.DVT_DROP, 31, 0⟩
/-- DVT_CHARGE.CELLS, R249. -/
abbrev DVT_CHARGE_CELLS : Fld := ⟨.DVT_CHARGE, 15, 0⟩
/-- DVT_VIEW_CHARGE.CELLS, R249. -/
abbrev DVT_VIEW_CHARGE_CELLS : Fld := ⟨.DVT_VIEW_CHARGE, 15, 0⟩
/-- DVT_FDB_MAC_LO.MAC, R257. -/
abbrev DVT_FDB_MAC_LO_MAC : Fld := ⟨.DVT_FDB_MAC_LO, 31, 0⟩
/-- DVT_FDB_MAC_HI.MAC_VID, R257. -/
abbrev DVT_FDB_MAC_HI_MAC_VID : Fld := ⟨.DVT_FDB_MAC_HI, 27, 0⟩
/-- DVT_FDB_DEST_LO.DEST, R257. -/
abbrev DVT_FDB_DEST_LO_DEST : Fld := ⟨.DVT_FDB_DEST_LO, 31, 0⟩
/-- DVT_FDB_DEST_HI.DEST_HI, R257. -/
abbrev DVT_FDB_DEST_HI_DEST_HI : Fld := ⟨.DVT_FDB_DEST_HI, 4, 0⟩
/-- DVT_FDB_CTRL.OP, R257. -/
abbrev DVT_FDB_CTRL_OP : Fld := ⟨.DVT_FDB_CTRL, 2, 0⟩
/-- DVT_FDB_STAT.BUSY, R257. -/
abbrev DVT_FDB_STAT_BUSY : Fld := ⟨.DVT_FDB_STAT, 0, 0⟩
/-- DVT_FDB_STAT.RESULT, R257. -/
abbrev DVT_FDB_STAT_RESULT : Fld := ⟨.DVT_FDB_STAT, 3, 1⟩
/-- DVT_FDB_STAT.DYNAMIC, R257. -/
abbrev DVT_FDB_STAT_DYNAMIC : Fld := ⟨.DVT_FDB_STAT, 4, 4⟩
/-- DVT_FDB_COUNT.STATIC, R255. -/
abbrev DVT_FDB_COUNT_STATIC : Fld := ⟨.DVT_FDB_COUNT, 14, 0⟩
/-- DVT_FDB_COUNT.DYNAMIC, R255. -/
abbrev DVT_FDB_COUNT_DYNAMIC : Fld := ⟨.DVT_FDB_COUNT, 30, 16⟩
/-- DVT_FDB_EVT.LEARN_FULL, R256. -/
abbrev DVT_FDB_EVT_LEARN_FULL : Fld := ⟨.DVT_FDB_EVT, 15, 0⟩
/-- DVT_FDB_EVT.MOVES, R256. -/
abbrev DVT_FDB_EVT_MOVES : Fld := ⟨.DVT_FDB_EVT, 31, 16⟩
/-- DVT_AGE.AGE_S, R256. -/
abbrev DVT_AGE_AGE_S : Fld := ⟨.DVT_AGE, 19, 0⟩
/-- DVT_TRAP.QUEUE, R254. -/
abbrev DVT_TRAP_QUEUE : Fld := ⟨.DVT_TRAP, 5, 0⟩
/-- DVT_TRAP.EN, R254. -/
abbrev DVT_TRAP_EN : Fld := ⟨.DVT_TRAP, 8, 8⟩
/-- DVT_LLEG.PORTS, R254. -/
abbrev DVT_LLEG_PORTS : Fld := ⟨.DVT_LLEG, 29, 0⟩
/-- DVT_TBL_SEL.TABLE, R272. -/
abbrev DVT_TBL_SEL_TABLE : Fld := ⟨.DVT_TBL_SEL, 2, 0⟩
/-- DVT_TBL_SEL.INDEX, R272. -/
abbrev DVT_TBL_SEL_INDEX : Fld := ⟨.DVT_TBL_SEL, 15, 8⟩
/-- DVT_TBL_SEL.WORD, R272. -/
abbrev DVT_TBL_SEL_WORD : Fld := ⟨.DVT_TBL_SEL, 22, 16⟩
/-- DVT_TBL_DATA.DATA, R272. -/
abbrev DVT_TBL_DATA_DATA : Fld := ⟨.DVT_TBL_DATA, 31, 0⟩
/-- DVT_TBL_CTRL.LOAD, R272. -/
abbrev DVT_TBL_CTRL_LOAD : Fld := ⟨.DVT_TBL_CTRL, 0, 0⟩
/-- DVT_TBL_CTRL.COMMIT, R272. -/
abbrev DVT_TBL_CTRL_COMMIT : Fld := ⟨.DVT_TBL_CTRL, 1, 1⟩
/-- DVT_TBL_STAT.REJ, R272. -/
abbrev DVT_TBL_STAT_REJ : Fld := ⟨.DVT_TBL_STAT, 0, 0⟩
/-- DVT_TBL_STAT.PENDING, R272. -/
abbrev DVT_TBL_STAT_PENDING : Fld := ⟨.DVT_TBL_STAT, 1, 1⟩
/-- DVT_CAP_CFG.N, R269. -/
abbrev DVT_CAP_CFG_N : Fld := ⟨.DVT_CAP_CFG, 15, 0⟩
/-- DVT_CAP_CFG.IN, R269. -/
abbrev DVT_CAP_CFG_IN : Fld := ⟨.DVT_CAP_CFG, 16, 16⟩
/-- DVT_CAP_CFG.OUT, R269. -/
abbrev DVT_CAP_CFG_OUT : Fld := ⟨.DVT_CAP_CFG, 17, 17⟩
/-- DVT_CAP_CFG.DROPS, R269. -/
abbrev DVT_CAP_CFG_DROPS : Fld := ⟨.DVT_CAP_CFG, 18, 18⟩
/-- DVT_CAP_PORTS_LO.PORTS, R269. -/
abbrev DVT_CAP_PORTS_LO_PORTS : Fld := ⟨.DVT_CAP_PORTS_LO, 31, 0⟩
/-- DVT_CAP_PORTS_HI.PORTS, R269. -/
abbrev DVT_CAP_PORTS_HI_PORTS : Fld := ⟨.DVT_CAP_PORTS_HI, 4, 0⟩
/-- DVT_CAP_LOST.LOST, R270. -/
abbrev DVT_CAP_LOST_LOST : Fld := ⟨.DVT_CAP_LOST, 31, 0⟩
/-- EPT_PCFG.LINK_EN, R275. -/
abbrev EPT_PCFG_LINK_EN : Fld := ⟨.EPT_PCFG, 0, 0⟩
/-- EPT_PCFG.ROLE, R275. -/
abbrev EPT_PCFG_ROLE : Fld := ⟨.EPT_PCFG, 1, 1⟩
/-- EPT_PCFG.PAUSE_EN, R275. -/
abbrev EPT_PCFG_PAUSE_EN : Fld := ⟨.EPT_PCFG, 2, 2⟩
/-- EPT_PCFG.PAUSE_WD_MS, R275. -/
abbrev EPT_PCFG_PAUSE_WD_MS : Fld := ⟨.EPT_PCFG, 14, 4⟩
/-- EPT_PCFG.RETRAIN, R275. -/
abbrev EPT_PCFG_RETRAIN : Fld := ⟨.EPT_PCFG, 16, 16⟩
/-- EPT_LINK.STATE, R275. -/
abbrev EPT_LINK_STATE : Fld := ⟨.EPT_LINK, 1, 0⟩
/-- EPT_LINK.PAUSED, R275. -/
abbrev EPT_LINK_PAUSED : Fld := ⟨.EPT_LINK, 2, 2⟩
/-- EPT_LINK.TEST_FAIL, R275. -/
abbrev EPT_LINK_TEST_FAIL : Fld := ⟨.EPT_LINK, 3, 3⟩
/-- EPT_LINK.PHY_FAULT, R275. -/
abbrev EPT_LINK_PHY_FAULT : Fld := ⟨.EPT_LINK, 4, 4⟩
/-- EPT_EVT.LINK_UP, R289. -/
abbrev EPT_EVT_LINK_UP : Fld := ⟨.EPT_EVT, 0, 0⟩
/-- EPT_EVT.LINK_DOWN, R289. -/
abbrev EPT_EVT_LINK_DOWN : Fld := ⟨.EPT_EVT, 1, 1⟩
/-- EPT_EVT.PAUSE_BREAK, R289. -/
abbrev EPT_EVT_PAUSE_BREAK : Fld := ⟨.EPT_EVT, 2, 2⟩
/-- EPT_EVT.VERIFY_DONE, R289. -/
abbrev EPT_EVT_VERIFY_DONE : Fld := ⟨.EPT_EVT, 3, 3⟩
/-- EPT_EVT.WAKE_MATCH, R289. -/
abbrev EPT_EVT_WAKE_MATCH : Fld := ⟨.EPT_EVT, 4, 4⟩
/-- EPT_EVT.RETIRED, R289. -/
abbrev EPT_EVT_RETIRED : Fld := ⟨.EPT_EVT, 5, 5⟩
/-- EPT_EVT.CNT_HALF, R289. -/
abbrev EPT_EVT_CNT_HALF : Fld := ⟨.EPT_EVT, 6, 6⟩
/-- EPT_EVT_EN.LINK_UP, R289. -/
abbrev EPT_EVT_EN_LINK_UP : Fld := ⟨.EPT_EVT_EN, 0, 0⟩
/-- EPT_EVT_EN.LINK_DOWN, R289. -/
abbrev EPT_EVT_EN_LINK_DOWN : Fld := ⟨.EPT_EVT_EN, 1, 1⟩
/-- EPT_EVT_EN.PAUSE_BREAK, R289. -/
abbrev EPT_EVT_EN_PAUSE_BREAK : Fld := ⟨.EPT_EVT_EN, 2, 2⟩
/-- EPT_EVT_EN.VERIFY_DONE, R289. -/
abbrev EPT_EVT_EN_VERIFY_DONE : Fld := ⟨.EPT_EVT_EN, 3, 3⟩
/-- EPT_EVT_EN.WAKE_MATCH, R289. -/
abbrev EPT_EVT_EN_WAKE_MATCH : Fld := ⟨.EPT_EVT_EN, 4, 4⟩
/-- EPT_EVT_EN.RETIRED, R289. -/
abbrev EPT_EVT_EN_RETIRED : Fld := ⟨.EPT_EVT_EN, 5, 5⟩
/-- EPT_EVT_EN.CNT_HALF, R289. -/
abbrev EPT_EVT_EN_CNT_HALF : Fld := ⟨.EPT_EVT_EN, 6, 6⟩
/-- EPT_PMAC.PRE_EN, R277. -/
abbrev EPT_PMAC_PRE_EN : Fld := ⟨.EPT_PMAC, 0, 0⟩
/-- EPT_PMAC.VERIFY_DIS, R277. -/
abbrev EPT_PMAC_VERIFY_DIS : Fld := ⟨.EPT_PMAC, 1, 1⟩
/-- EPT_PMAC.EXPRESS, R277. -/
abbrev EPT_PMAC_EXPRESS : Fld := ⟨.EPT_PMAC, 9, 2⟩
/-- EPT_PMAC.ADD_FRAG, R277. -/
abbrev EPT_PMAC_ADD_FRAG : Fld := ⟨.EPT_PMAC, 11, 10⟩
/-- EPT_PMAC.VERIFY_MS, R277. -/
abbrev EPT_PMAC_VERIFY_MS : Fld := ⟨.EPT_PMAC, 18, 12⟩
/-- EPT_PSTAT.VERIFY, R278. -/
abbrev EPT_PSTAT_VERIFY : Fld := ⟨.EPT_PSTAT, 2, 0⟩
/-- EPT_PSTAT.ACTIVE, R278. -/
abbrev EPT_PSTAT_ACTIVE : Fld := ⟨.EPT_PSTAT, 3, 3⟩
/-- EPT_LDROPS.DROPS, R275. -/
abbrev EPT_LDROPS_DROPS : Fld := ⟨.EPT_LDROPS, 15, 0⟩
/-- EPT_LDROPS.BREAKS, R275. -/
abbrev EPT_LDROPS_BREAKS : Fld := ⟨.EPT_LDROPS, 31, 16⟩
/-- EPT_CNT.COUNT, R288. -/
abbrev EPT_CNT_COUNT : Fld := ⟨.EPT_CNT, 31, 0⟩
/-- EPT_HALF_LO.HALF, R288. -/
abbrev EPT_HALF_LO_HALF : Fld := ⟨.EPT_HALF_LO, 31, 0⟩
/-- EPT_HALF_HI.HALF, R288. -/
abbrev EPT_HALF_HI_HALF : Fld := ⟨.EPT_HALF_HI, 15, 0⟩
/-- EPT_WAKE.ARM, R284. -/
abbrev EPT_WAKE_ARM : Fld := ⟨.EPT_WAKE, 0, 0⟩
/-- EPT_WAKE.PAT_EN, R284. -/
abbrev EPT_WAKE_PAT_EN : Fld := ⟨.EPT_WAKE, 15, 8⟩
/-- EPT_WAKE_HIT.PORT, R284. -/
abbrev EPT_WAKE_HIT_PORT : Fld := ⟨.EPT_WAKE_HIT, 4, 0⟩
/-- EPT_WAKE_HIT.PATTERN, R284. -/
abbrev EPT_WAKE_HIT_PATTERN : Fld := ⟨.EPT_WAKE_HIT, 10, 8⟩
/-- EPT_WAKE_HIT.IN_SLEEP, R284. -/
abbrev EPT_WAKE_HIT_IN_SLEEP : Fld := ⟨.EPT_WAKE_HIT, 12, 12⟩
/-- EPT_WAKE_HIT.VALID, R284. -/
abbrev EPT_WAKE_HIT_VALID : Fld := ⟨.EPT_WAKE_HIT, 31, 31⟩
/-- EPT_WMASK0.MASK, R283. -/
abbrev EPT_WMASK0_MASK : Fld := ⟨.EPT_WMASK0, 31, 0⟩
/-- EPT_WMASK1.MASK, R283. -/
abbrev EPT_WMASK1_MASK : Fld := ⟨.EPT_WMASK1, 31, 0⟩
/-- EPT_WMASK2.MASK, R283. -/
abbrev EPT_WMASK2_MASK : Fld := ⟨.EPT_WMASK2, 31, 0⟩
/-- EPT_WMASK3.MASK, R283. -/
abbrev EPT_WMASK3_MASK : Fld := ⟨.EPT_WMASK3, 31, 0⟩
/-- EPT_WCHECK.CHECK, R283. -/
abbrev EPT_WCHECK_CHECK : Fld := ⟨.EPT_WCHECK, 31, 0⟩
/-- EPT_G_VEC.VEC, R89. -/
abbrev EPT_G_VEC_VEC : Fld := ⟨.EPT_G_VEC, 5, 0⟩
/-- EPT_VEC.VEC, R89. -/
abbrev EPT_VEC_VEC : Fld := ⟨.EPT_VEC, 5, 0⟩
/-- MSC_CFG.EN, R285. -/
abbrev MSC_CFG_EN : Fld := ⟨.MSC_CFG, 0, 0⟩
/-- MSC_CFG.CIPHER, R285. -/
abbrev MSC_CFG_CIPHER : Fld := ⟨.MSC_CFG, 2, 1⟩
/-- MSC_CFG.REPLAY_EN, R285. -/
abbrev MSC_CFG_REPLAY_EN : Fld := ⟨.MSC_CFG, 3, 3⟩
/-- MSC_CFG.OWNER, R285. -/
abbrev MSC_CFG_OWNER : Fld := ⟨.MSC_CFG, 7, 4⟩
/-- MSC_CFG.TX_AN, R285. -/
abbrev MSC_CFG_TX_AN : Fld := ⟨.MSC_CFG, 9, 8⟩
/-- MSC_CFG.PN_THRESH, R285. -/
abbrev MSC_CFG_PN_THRESH : Fld := ⟨.MSC_CFG, 16, 16⟩
/-- MSC_CFG.EXHAUST, R285. -/
abbrev MSC_CFG_EXHAUST : Fld := ⟨.MSC_CFG, 17, 17⟩
/-- MSC_CFG.EV_EN, R285. -/
abbrev MSC_CFG_EV_EN : Fld := ⟨.MSC_CFG, 19, 18⟩
/-- MSC_TXSCI_LO.SCI, R285. -/
abbrev MSC_TXSCI_LO_SCI : Fld := ⟨.MSC_TXSCI_LO, 31, 0⟩
/-- MSC_TXSCI_HI.SCI, R285. -/
abbrev MSC_TXSCI_HI_SCI : Fld := ⟨.MSC_TXSCI_HI, 31, 0⟩
/-- MSC_WINDOW.WINDOW, R285. -/
abbrev MSC_WINDOW_WINDOW : Fld := ⟨.MSC_WINDOW, 31, 0⟩
/-- MSC_RXSCI_LO.SCI, R285. -/
abbrev MSC_RXSCI_LO_SCI : Fld := ⟨.MSC_RXSCI_LO, 31, 0⟩
/-- MSC_RXSCI_HI.SCI, R285. -/
abbrev MSC_RXSCI_HI_SCI : Fld := ⟨.MSC_RXSCI_HI, 31, 0⟩
/-- MSC_RXSC_CTRL.VALID, R285. -/
abbrev MSC_RXSC_CTRL_VALID : Fld := ⟨.MSC_RXSC_CTRL, 0, 0⟩
/-- MSC_SA_CTRL.SLOT, R286. -/
abbrev MSC_SA_CTRL_SLOT : Fld := ⟨.MSC_SA_CTRL, 7, 0⟩
/-- MSC_SA_CTRL.INSTALL, R286. -/
abbrev MSC_SA_CTRL_INSTALL : Fld := ⟨.MSC_SA_CTRL, 8, 8⟩
/-- MSC_SA_CTRL.REMOVE, R286. -/
abbrev MSC_SA_CTRL_REMOVE : Fld := ⟨.MSC_SA_CTRL, 9, 9⟩
/-- MSC_SA_CTRL.VALID, R286. -/
abbrev MSC_SA_CTRL_VALID : Fld := ⟨.MSC_SA_CTRL, 10, 10⟩
/-- MSC_SA_CTRL.EXHAUSTED, R286. -/
abbrev MSC_SA_CTRL_EXHAUSTED : Fld := ⟨.MSC_SA_CTRL, 11, 11⟩
/-- MSC_SA_CTRL.RESULT, R286. -/
abbrev MSC_SA_CTRL_RESULT : Fld := ⟨.MSC_SA_CTRL, 14, 12⟩
/-- MSC_SA_PN_LO.VALUE, R286. -/
abbrev MSC_SA_PN_LO_VALUE : Fld := ⟨.MSC_SA_PN_LO, 31, 0⟩
/-- MSC_SA_PN_HI.VALUE, R286. -/
abbrev MSC_SA_PN_HI_VALUE : Fld := ⟨.MSC_SA_PN_HI, 31, 0⟩
/-- MSC_SA_SSCI.VALUE, R286. -/
abbrev MSC_SA_SSCI_VALUE : Fld := ⟨.MSC_SA_SSCI, 31, 0⟩
/-- MSC_SA_SALT0.VALUE, R286. -/
abbrev MSC_SA_SALT0_VALUE : Fld := ⟨.MSC_SA_SALT0, 31, 0⟩
/-- MSC_SA_SALT1.VALUE, R286. -/
abbrev MSC_SA_SALT1_VALUE : Fld := ⟨.MSC_SA_SALT1, 31, 0⟩
/-- MSC_SA_SALT2.VALUE, R286. -/
abbrev MSC_SA_SALT2_VALUE : Fld := ⟨.MSC_SA_SALT2, 31, 0⟩
/-- ZTM_NOW.NS, R291. -/
abbrev ZTM_NOW_NS : Fld := ⟨.ZTM_NOW, 31, 0⟩
/-- ZTM_NOW_EP.EPOCH, R297. -/
abbrev ZTM_NOW_EP_EPOCH : Fld := ⟨.ZTM_NOW_EP, 15, 0⟩
/-- ZTM_RAW.RAW, R293. -/
abbrev ZTM_RAW_RAW : Fld := ⟨.ZTM_RAW, 31, 0⟩
/-- ZTM_EPOCH.EPOCH, R296. -/
abbrev ZTM_EPOCH_EPOCH : Fld := ⟨.ZTM_EPOCH, 15, 0⟩
/-- ZTM_EPOCH.STEPPED, R296. -/
abbrev ZTM_EPOCH_STEPPED : Fld := ⟨.ZTM_EPOCH, 16, 16⟩
/-- ZTM_EPOCH.STEP_REJ, R296. -/
abbrev ZTM_EPOCH_STEP_REJ : Fld := ⟨.ZTM_EPOCH, 17, 17⟩
/-- ZTM_INCR_INT.INT, R292. -/
abbrev ZTM_INCR_INT_INT : Fld := ⟨.ZTM_INCR_INT, 7, 0⟩
/-- ZTM_INCR_FRAC.FRAC, R292. -/
abbrev ZTM_INCR_FRAC_FRAC : Fld := ⟨.ZTM_INCR_FRAC, 31, 0⟩
/-- ZTM_CTRL.OPEN, R296. -/
abbrev ZTM_CTRL_OPEN : Fld := ⟨.ZTM_CTRL, 0, 0⟩
/-- ZTM_CTRL.STEP, R296. -/
abbrev ZTM_CTRL_STEP : Fld := ⟨.ZTM_CTRL, 1, 1⟩
/-- ZTM_CTRL.KEY, R296. -/
abbrev ZTM_CTRL_KEY : Fld := ⟨.ZTM_CTRL, 31, 16⟩
/-- ZTM_STEP.VALUE, R296. -/
abbrev ZTM_STEP_VALUE : Fld := ⟨.ZTM_STEP, 31, 0⟩
/-- ZTM_PAIR_CTRL.SAMPLE, R303. -/
abbrev ZTM_PAIR_CTRL_SAMPLE : Fld := ⟨.ZTM_PAIR_CTRL, 0, 0⟩
/-- ZTM_PAIR_RAW.VALUE, R303. -/
abbrev ZTM_PAIR_RAW_VALUE : Fld := ⟨.ZTM_PAIR_RAW, 31, 0⟩
/-- ZTM_PAIR_NS.VALUE, R303. -/
abbrev ZTM_PAIR_NS_VALUE : Fld := ⟨.ZTM_PAIR_NS, 31, 0⟩
/-- ZTM_PAIR_EP.EPOCH, R303. -/
abbrev ZTM_PAIR_EP_EPOCH : Fld := ⟨.ZTM_PAIR_EP, 15, 0⟩
/-- ZTM_PAIR_EP.AUTO, R303. -/
abbrev ZTM_PAIR_EP_AUTO : Fld := ⟨.ZTM_PAIR_EP, 16, 16⟩
/-- ZTM_EVT.HALF, R295. -/
abbrev ZTM_EVT_HALF : Fld := ⟨.ZTM_EVT, 0, 0⟩
/-- ZTM_EVT.EPOCH, R295. -/
abbrev ZTM_EVT_EPOCH : Fld := ⟨.ZTM_EVT, 1, 1⟩
/-- ZTM_EVT.FB_ON, R295. -/
abbrev ZTM_EVT_FB_ON : Fld := ⟨.ZTM_EVT, 2, 2⟩
/-- ZTM_EVT.FB_OFF, R295. -/
abbrev ZTM_EVT_FB_OFF : Fld := ⟨.ZTM_EVT, 3, 3⟩
/-- ZTM_EVT.OFFS, R295. -/
abbrev ZTM_EVT_OFFS : Fld := ⟨.ZTM_EVT, 4, 4⟩
/-- ZTM_EVT_EN.HALF, R295. -/
abbrev ZTM_EVT_EN_HALF : Fld := ⟨.ZTM_EVT_EN, 0, 0⟩
/-- ZTM_EVT_EN.EPOCH, R295. -/
abbrev ZTM_EVT_EN_EPOCH : Fld := ⟨.ZTM_EVT_EN, 1, 1⟩
/-- ZTM_EVT_EN.FB_ON, R295. -/
abbrev ZTM_EVT_EN_FB_ON : Fld := ⟨.ZTM_EVT_EN, 2, 2⟩
/-- ZTM_EVT_EN.FB_OFF, R295. -/
abbrev ZTM_EVT_EN_FB_OFF : Fld := ⟨.ZTM_EVT_EN, 3, 3⟩
/-- ZTM_EVT_EN.OFFS, R295. -/
abbrev ZTM_EVT_EN_OFFS : Fld := ⟨.ZTM_EVT_EN, 4, 4⟩
/-- ZTM_PORT.EN, R301. -/
abbrev ZTM_PORT_EN : Fld := ⟨.ZTM_PORT, 0, 0⟩
/-- ZTM_PORT.NOCORR, R301. -/
abbrev ZTM_PORT_NOCORR : Fld := ⟨.ZTM_PORT, 31, 16⟩
/-- ZTM_FB_CFG.CAN, R306. -/
abbrev ZTM_FB_CFG_CAN : Fld := ⟨.ZTM_FB_CFG, 3, 0⟩
/-- ZTM_FB_CFG.ROLE, R306. -/
abbrev ZTM_FB_CFG_ROLE : Fld := ⟨.ZTM_FB_CFG, 4, 4⟩
/-- ZTM_FB_CFG.EN, R306. -/
abbrev ZTM_FB_CFG_EN : Fld := ⟨.ZTM_FB_CFG, 5, 5⟩
/-- ZTM_FB_CFG.GPTP_PORT, R306. -/
abbrev ZTM_FB_CFG_GPTP_PORT : Fld := ⟨.ZTM_FB_CFG, 12, 8⟩
/-- ZTM_FB_CFG.LOSS_MS, R306. -/
abbrev ZTM_FB_CFG_LOSS_MS : Fld := ⟨.ZTM_FB_CFG, 27, 16⟩
/-- ZTM_FB_REF.ID, R305. -/
abbrev ZTM_FB_REF_ID : Fld := ⟨.ZTM_FB_REF, 28, 0⟩
/-- ZTM_FB_REF.IDE, R305. -/
abbrev ZTM_FB_REF_IDE : Fld := ⟨.ZTM_FB_REF, 29, 29⟩
/-- ZTM_FB_PERIOD.PERIOD_MS, R307. -/
abbrev ZTM_FB_PERIOD_PERIOD_MS : Fld := ⟨.ZTM_FB_PERIOD, 9, 0⟩
/-- ZTM_FB_STAT.STATE, R306. -/
abbrev ZTM_FB_STAT_STATE : Fld := ⟨.ZTM_FB_STAT, 1, 0⟩
/-- ZTM_FB_STAT.EP_DIFF, R306. -/
abbrev ZTM_FB_STAT_EP_DIFF : Fld := ⟨.ZTM_FB_STAT, 2, 2⟩
/-- ZTM_FB_STAT.SEQ, R306. -/
abbrev ZTM_FB_STAT_SEQ : Fld := ⟨.ZTM_FB_STAT, 15, 8⟩
/-- ZTM_FB_STAT.SKIPS, R306. -/
abbrev ZTM_FB_STAT_SKIPS : Fld := ⟨.ZTM_FB_STAT, 31, 16⟩
/-- ZTM_FB_OFFS.OFFS, R307. -/
abbrev ZTM_FB_OFFS_OFFS : Fld := ⟨.ZTM_FB_OFFS, 31, 0⟩
/-- ZTM_G_VEC.VEC, R89. -/
abbrev ZTM_G_VEC_VEC : Fld := ⟨.ZTM_G_VEC, 5, 0⟩
/-- ZTM_VEC.VEC, R89. -/
abbrev ZTM_VEC_VEC : Fld := ⟨.ZTM_VEC, 5, 0⟩
/-- CAN_CTRL.MODE, R313. -/
abbrev CAN_CTRL_MODE : Fld := ⟨.CAN_CTRL, 1, 0⟩
/-- CAN_CTRL.FD_EN, R313. -/
abbrev CAN_CTRL_FD_EN : Fld := ⟨.CAN_CTRL, 4, 4⟩
/-- CAN_CTRL.XL_EN, R313. -/
abbrev CAN_CTRL_XL_EN : Fld := ⟨.CAN_CTRL, 5, 5⟩
/-- CAN_CTRL.XL_FAST, R313. -/
abbrev CAN_CTRL_XL_FAST : Fld := ⟨.CAN_CTRL, 6, 6⟩
/-- CAN_CTRL.XL_ES, R313. -/
abbrev CAN_CTRL_XL_ES : Fld := ⟨.CAN_CTRL, 7, 7⟩
/-- CAN_CTRL.TDC_EN, R313. -/
abbrev CAN_CTRL_TDC_EN : Fld := ⟨.CAN_CTRL, 8, 8⟩
/-- CAN_RECOVER.RECOVER, R313. -/
abbrev CAN_RECOVER_RECOVER : Fld := ⟨.CAN_RECOVER, 0, 0⟩
/-- CAN_RECOVER.KEY, R313. -/
abbrev CAN_RECOVER_KEY : Fld := ⟨.CAN_RECOVER, 31, 16⟩
/-- CAN_NBT.BRP, R310. -/
abbrev CAN_NBT_BRP : Fld := ⟨.CAN_NBT, 4, 0⟩
/-- CAN_NBT.TSEG1, R310. -/
abbrev CAN_NBT_TSEG1 : Fld := ⟨.CAN_NBT, 15, 8⟩
/-- CAN_NBT.TSEG2, R310. -/
abbrev CAN_NBT_TSEG2 : Fld := ⟨.CAN_NBT, 22, 16⟩
/-- CAN_NBT.SJW, R310. -/
abbrev CAN_NBT_SJW : Fld := ⟨.CAN_NBT, 30, 24⟩
/-- CAN_DBT.BRP, R310. -/
abbrev CAN_DBT_BRP : Fld := ⟨.CAN_DBT, 4, 0⟩
/-- CAN_DBT.TSEG1, R310. -/
abbrev CAN_DBT_TSEG1 : Fld := ⟨.CAN_DBT, 15, 8⟩
/-- CAN_DBT.TSEG2, R310. -/
abbrev CAN_DBT_TSEG2 : Fld := ⟨.CAN_DBT, 22, 16⟩
/-- CAN_DBT.SJW, R310. -/
abbrev CAN_DBT_SJW : Fld := ⟨.CAN_DBT, 30, 24⟩
/-- CAN_XBT.BRP, R310. -/
abbrev CAN_XBT_BRP : Fld := ⟨.CAN_XBT, 4, 0⟩
/-- CAN_XBT.TSEG1, R310. -/
abbrev CAN_XBT_TSEG1 : Fld := ⟨.CAN_XBT, 15, 8⟩
/-- CAN_XBT.TSEG2, R310. -/
abbrev CAN_XBT_TSEG2 : Fld := ⟨.CAN_XBT, 22, 16⟩
/-- CAN_XBT.SJW, R310. -/
abbrev CAN_XBT_SJW : Fld := ⟨.CAN_XBT, 30, 24⟩
/-- CAN_TDC.SSP_OFF_D, R311. -/
abbrev CAN_TDC_SSP_OFF_D : Fld := ⟨.CAN_TDC, 5, 0⟩
/-- CAN_TDC.SSP_OFF_X, R311. -/
abbrev CAN_TDC_SSP_OFF_X : Fld := ⟨.CAN_TDC, 13, 8⟩
/-- CAN_TDC.TDCV, R311. -/
abbrev CAN_TDC_TDCV : Fld := ⟨.CAN_TDC, 23, 16⟩
/-- CAN_STAT.STATE, R312. -/
abbrev CAN_STAT_STATE : Fld := ⟨.CAN_STAT, 2, 0⟩
/-- CAN_STAT.CFG_REJ, R312. -/
abbrev CAN_STAT_CFG_REJ : Fld := ⟨.CAN_STAT, 3, 3⟩
/-- CAN_STAT.REC_REJ, R312. -/
abbrev CAN_STAT_REC_REJ : Fld := ⟨.CAN_STAT, 4, 4⟩
/-- CAN_STAT.RSV_LATHE, R312. -/
abbrev CAN_STAT_RSV_LATHE : Fld := ⟨.CAN_STAT, 5, 5⟩
/-- CAN_STAT.RSV_TIME, R312. -/
abbrev CAN_STAT_RSV_TIME : Fld := ⟨.CAN_STAT, 6, 6⟩
/-- CAN_STAT.TEST_FAIL, R312. -/
abbrev CAN_STAT_TEST_FAIL : Fld := ⟨.CAN_STAT, 7, 7⟩
/-- CAN_ERRC.TEC, R315. -/
abbrev CAN_ERRC_TEC : Fld := ⟨.CAN_ERRC, 8, 0⟩
/-- CAN_ERRC.REC, R315. -/
abbrev CAN_ERRC_REC : Fld := ⟨.CAN_ERRC, 23, 16⟩
/-- CAN_EVT.WARN, R312. -/
abbrev CAN_EVT_WARN : Fld := ⟨.CAN_EVT, 0, 0⟩
/-- CAN_EVT.PASSIVE, R312. -/
abbrev CAN_EVT_PASSIVE : Fld := ⟨.CAN_EVT, 1, 1⟩
/-- CAN_EVT.BUS_OFF, R312. -/
abbrev CAN_EVT_BUS_OFF : Fld := ⟨.CAN_EVT, 2, 2⟩
/-- CAN_EVT.RECOVERED, R312. -/
abbrev CAN_EVT_RECOVERED : Fld := ⟨.CAN_EVT, 3, 3⟩
/-- CAN_EVT.PEX, R312. -/
abbrev CAN_EVT_PEX : Fld := ⟨.CAN_EVT, 4, 4⟩
/-- CAN_EVT.RX_OVERRUN, R312. -/
abbrev CAN_EVT_RX_OVERRUN : Fld := ⟨.CAN_EVT, 5, 5⟩
/-- CAN_EVT.RETIRED, R312. -/
abbrev CAN_EVT_RETIRED : Fld := ⟨.CAN_EVT, 6, 6⟩
/-- CAN_EVT_EN.WARN, R312. -/
abbrev CAN_EVT_EN_WARN : Fld := ⟨.CAN_EVT_EN, 0, 0⟩
/-- CAN_EVT_EN.PASSIVE, R312. -/
abbrev CAN_EVT_EN_PASSIVE : Fld := ⟨.CAN_EVT_EN, 1, 1⟩
/-- CAN_EVT_EN.BUS_OFF, R312. -/
abbrev CAN_EVT_EN_BUS_OFF : Fld := ⟨.CAN_EVT_EN, 2, 2⟩
/-- CAN_EVT_EN.RECOVERED, R312. -/
abbrev CAN_EVT_EN_RECOVERED : Fld := ⟨.CAN_EVT_EN, 3, 3⟩
/-- CAN_EVT_EN.PEX, R312. -/
abbrev CAN_EVT_EN_PEX : Fld := ⟨.CAN_EVT_EN, 4, 4⟩
/-- CAN_EVT_EN.RX_OVERRUN, R312. -/
abbrev CAN_EVT_EN_RX_OVERRUN : Fld := ⟨.CAN_EVT_EN, 5, 5⟩
/-- CAN_EVT_EN.RETIRED, R312. -/
abbrev CAN_EVT_EN_RETIRED : Fld := ⟨.CAN_EVT_EN, 6, 6⟩
/-- CAN_RXCFG.DEFAULT, R323. -/
abbrev CAN_RXCFG_DEFAULT : Fld := ⟨.CAN_RXCFG, 0, 0⟩
/-- CAN_RXCFG.SELF_RX, R323. -/
abbrev CAN_RXCFG_SELF_RX : Fld := ⟨.CAN_RXCFG, 1, 1⟩
/-- CAN_RXSTAT.FIFO, R324. -/
abbrev CAN_RXSTAT_FIFO : Fld := ⟨.CAN_RXSTAT, 5, 0⟩
/-- CAN_RXDROP.NO_RING, R324. -/
abbrev CAN_RXDROP_NO_RING : Fld := ⟨.CAN_RXDROP, 15, 0⟩
/-- CAN_RXDROP.OVERRUN, R324. -/
abbrev CAN_RXDROP_OVERRUN : Fld := ⟨.CAN_RXDROP, 31, 16⟩
/-- CAN_LEC.LEC, R315. -/
abbrev CAN_LEC_LEC : Fld := ⟨.CAN_LEC, 2, 0⟩
/-- CAN_LEC.ERRS, R315. -/
abbrev CAN_LEC_ERRS : Fld := ⟨.CAN_LEC, 31, 16⟩
/-- CAN_QDROP.LATHE, R321. -/
abbrev CAN_QDROP_LATHE : Fld := ⟨.CAN_QDROP, 15, 0⟩
/-- CAN_MRAM_IDX.OFFSET, R316. -/
abbrev CAN_MRAM_IDX_OFFSET : Fld := ⟨.CAN_MRAM_IDX, 12, 2⟩
/-- CAN_MRAM_IDX.AUTO, R316. -/
abbrev CAN_MRAM_IDX_AUTO : Fld := ⟨.CAN_MRAM_IDX, 16, 16⟩
/-- CAN_MRAM_DATA.DATA, R316. -/
abbrev CAN_MRAM_DATA_DATA : Fld := ⟨.CAN_MRAM_DATA, 31, 0⟩
/-- CAN_WAKE.ARM, R329. -/
abbrev CAN_WAKE_ARM : Fld := ⟨.CAN_WAKE, 0, 0⟩
/-- CAN_TXDONE.DONE, R320. -/
abbrev CAN_TXDONE_DONE : Fld := ⟨.CAN_TXDONE, 31, 0⟩
/-- CAN_TXDONE_EN.EN, R320. -/
abbrev CAN_TXDONE_EN_EN : Fld := ⟨.CAN_TXDONE_EN, 31, 0⟩
/-- CAN_ACF_CFG.EN, R326. -/
abbrev CAN_ACF_CFG_EN : Fld := ⟨.CAN_ACF_CFG, 0, 0⟩
/-- CAN_ACF_CFG.BRIEF, R326. -/
abbrev CAN_ACF_CFG_BRIEF : Fld := ⟨.CAN_ACF_CFG, 1, 1⟩
/-- CAN_ACF_CFG.DIR_TX, R326. -/
abbrev CAN_ACF_CFG_DIR_TX : Fld := ⟨.CAN_ACF_CFG, 2, 2⟩
/-- CAN_ACF_CFG.DIR_RX, R326. -/
abbrev CAN_ACF_CFG_DIR_RX : Fld := ⟨.CAN_ACF_CFG, 3, 3⟩
/-- CAN_ACF_CFG.BUS_ID, R326. -/
abbrev CAN_ACF_CFG_BUS_ID : Fld := ⟨.CAN_ACF_CFG, 8, 4⟩
/-- CAN_ACF_CFG.HOSTQ, R326. -/
abbrev CAN_ACF_CFG_HOSTQ : Fld := ⟨.CAN_ACF_CFG, 21, 16⟩
/-- CAN_ACF_CFG.ACF_REJ, R326. -/
abbrev CAN_ACF_CFG_ACF_REJ : Fld := ⟨.CAN_ACF_CFG, 24, 24⟩
/-- CAN_ACF_SID_LO.VALUE, R326. -/
abbrev CAN_ACF_SID_LO_VALUE : Fld := ⟨.CAN_ACF_SID_LO, 31, 0⟩
/-- CAN_ACF_SID_HI.VALUE, R326. -/
abbrev CAN_ACF_SID_HI_VALUE : Fld := ⟨.CAN_ACF_SID_HI, 31, 0⟩
/-- CAN_ACF_DA_LO.VALUE, R326. -/
abbrev CAN_ACF_DA_LO_VALUE : Fld := ⟨.CAN_ACF_DA_LO, 31, 0⟩
/-- CAN_ACF_DA_HI.VALUE, R326. -/
abbrev CAN_ACF_DA_HI_VALUE : Fld := ⟨.CAN_ACF_DA_HI, 15, 0⟩
/-- CAN_ACF_SA_LO.VALUE, R326. -/
abbrev CAN_ACF_SA_LO_VALUE : Fld := ⟨.CAN_ACF_SA_LO, 31, 0⟩
/-- CAN_ACF_SA_HI.VALUE, R326. -/
abbrev CAN_ACF_SA_HI_VALUE : Fld := ⟨.CAN_ACF_SA_HI, 15, 0⟩
/-- CAN_ACF_STAT.SKIP, R327. -/
abbrev CAN_ACF_STAT_SKIP : Fld := ⟨.CAN_ACF_STAT, 7, 0⟩
/-- CAN_ACF_STAT.RX_OVF, R327. -/
abbrev CAN_ACF_STAT_RX_OVF : Fld := ⟨.CAN_ACF_STAT, 15, 8⟩
/-- CAN_ACF_STAT.TX_OVF, R327. -/
abbrev CAN_ACF_STAT_TX_OVF : Fld := ⟨.CAN_ACF_STAT, 23, 16⟩
/-- CAN_ACF_STAT.XL_SKIP, R327. -/
abbrev CAN_ACF_STAT_XL_SKIP : Fld := ⟨.CAN_ACF_STAT, 31, 24⟩
/-- CAN_MB_ID.ID, R316. -/
abbrev CAN_MB_ID_ID : Fld := ⟨.CAN_MB_ID, 28, 0⟩
/-- CAN_MB_ID.IDE, R316. -/
abbrev CAN_MB_ID_IDE : Fld := ⟨.CAN_MB_ID, 29, 29⟩
/-- CAN_MB_CTL.LEN, R316. -/
abbrev CAN_MB_CTL_LEN : Fld := ⟨.CAN_MB_CTL, 10, 0⟩
/-- CAN_MB_CTL.FDF, R316. -/
abbrev CAN_MB_CTL_FDF : Fld := ⟨.CAN_MB_CTL, 12, 12⟩
/-- CAN_MB_CTL.XLF, R316. -/
abbrev CAN_MB_CTL_XLF : Fld := ⟨.CAN_MB_CTL, 13, 13⟩
/-- CAN_MB_CTL.BRS, R316. -/
abbrev CAN_MB_CTL_BRS : Fld := ⟨.CAN_MB_CTL, 14, 14⟩
/-- CAN_MB_CTL.RTR, R316. -/
abbrev CAN_MB_CTL_RTR : Fld := ⟨.CAN_MB_CTL, 15, 15⟩
/-- CAN_MB_CTL.ONE_SHOT, R316. -/
abbrev CAN_MB_CTL_ONE_SHOT : Fld := ⟨.CAN_MB_CTL, 16, 16⟩
/-- CAN_MB_CTL.OFFSET, R316. -/
abbrev CAN_MB_CTL_OFFSET : Fld := ⟨.CAN_MB_CTL, 28, 20⟩
/-- CAN_MB_CMD.REQ, R319. -/
abbrev CAN_MB_CMD_REQ : Fld := ⟨.CAN_MB_CMD, 0, 0⟩
/-- CAN_MB_CMD.ABORT, R319. -/
abbrev CAN_MB_CMD_ABORT : Fld := ⟨.CAN_MB_CMD, 1, 1⟩
/-- CAN_MB_CMD.STATE, R319. -/
abbrev CAN_MB_CMD_STATE : Fld := ⟨.CAN_MB_CMD, 9, 8⟩
/-- CAN_MB_CMD.ABORT_REQ, R319. -/
abbrev CAN_MB_CMD_ABORT_REQ : Fld := ⟨.CAN_MB_CMD, 10, 10⟩
/-- CAN_MB_CMD.RESULT, R319. -/
abbrev CAN_MB_CMD_RESULT : Fld := ⟨.CAN_MB_CMD, 15, 12⟩
/-- CAN_MB_STAMP.RAW, R322. -/
abbrev CAN_MB_STAMP_RAW : Fld := ⟨.CAN_MB_STAMP, 31, 0⟩
/-- CAN_FLT_ID.ID, R323. -/
abbrev CAN_FLT_ID_ID : Fld := ⟨.CAN_FLT_ID, 28, 0⟩
/-- CAN_FLT_ID.IDE, R323. -/
abbrev CAN_FLT_ID_IDE : Fld := ⟨.CAN_FLT_ID, 29, 29⟩
/-- CAN_FLT_MASK.MASK, R323. -/
abbrev CAN_FLT_MASK_MASK : Fld := ⟨.CAN_FLT_MASK, 28, 0⟩
/-- CAN_FLT_CTL.EN, R323. -/
abbrev CAN_FLT_CTL_EN : Fld := ⟨.CAN_FLT_CTL, 0, 0⟩
/-- CAN_FLT_CTL.ACTION, R323. -/
abbrev CAN_FLT_CTL_ACTION : Fld := ⟨.CAN_FLT_CTL, 2, 1⟩
/-- CAN_FLT_CTL.FMT, R323. -/
abbrev CAN_FLT_CTL_FMT : Fld := ⟨.CAN_FLT_CTL, 6, 4⟩
/-- CAN_FLT_HITS.HITS, R323. -/
abbrev CAN_FLT_HITS_HITS : Fld := ⟨.CAN_FLT_HITS, 31, 0⟩
/-- CAN_G_VEC.VEC, R89. -/
abbrev CAN_G_VEC_VEC : Fld := ⟨.CAN_G_VEC, 5, 0⟩
/-- CAN_VEC.VEC, R89. -/
abbrev CAN_VEC_VEC : Fld := ⟨.CAN_VEC, 5, 0⟩
/-- DWL_REGION_BASE.BASE_4K, R342. -/
abbrev DWL_REGION_BASE_BASE_4K : Fld := ⟨.DWL_REGION_BASE, 27, 0⟩
/-- DWL_REGION_SIZE.SIZE_4K, R342. -/
abbrev DWL_REGION_SIZE_SIZE_4K : Fld := ⟨.DWL_REGION_SIZE, 27, 0⟩
/-- DWL_REGION_CFG.VALID, R342. -/
abbrev DWL_REGION_CFG_VALID : Fld := ⟨.DWL_REGION_CFG, 0, 0⟩
/-- DWL_REGION_CFG.PREFETCH, R342. -/
abbrev DWL_REGION_CFG_PREFETCH : Fld := ⟨.DWL_REGION_CFG, 1, 1⟩
/-- DWL_REGION_HITS.COUNT, R344. -/
abbrev DWL_REGION_HITS_COUNT : Fld := ⟨.DWL_REGION_HITS, 31, 0⟩
/-- DWL_REGION_DISC.COUNT, R344. -/
abbrev DWL_REGION_DISC_COUNT : Fld := ⟨.DWL_REGION_DISC, 31, 0⟩
/-- DWL_POLL.PERIOD, R351. -/
abbrev DWL_POLL_PERIOD : Fld := ⟨.DWL_POLL, 9, 0⟩
/-- DWL_LINK.DL_UP, R337. -/
abbrev DWL_LINK_DL_UP : Fld := ⟨.DWL_LINK, 0, 0⟩
/-- DWL_LINK.SPEED, R337. -/
abbrev DWL_LINK_SPEED : Fld := ⟨.DWL_LINK, 3, 1⟩
/-- DWL_LINK.WIDTH, R337. -/
abbrev DWL_LINK_WIDTH : Fld := ⟨.DWL_LINK, 6, 4⟩
/-- DWL_LINK.DOWNS, R337. -/
abbrev DWL_LINK_DOWNS : Fld := ⟨.DWL_LINK, 31, 16⟩
/-- DWL_FN.EXISTS, R337. -/
abbrev DWL_FN_EXISTS : Fld := ⟨.DWL_FN, 0, 0⟩
/-- DWL_FN.BME, R337. -/
abbrev DWL_FN_BME : Fld := ⟨.DWL_FN, 1, 1⟩
/-- DWL_FN.MSIX_EN, R337. -/
abbrev DWL_FN_MSIX_EN : Fld := ⟨.DWL_FN, 2, 2⟩
/-- DWL_FN.FLR_BUSY, R337. -/
abbrev DWL_FN_FLR_BUSY : Fld := ⟨.DWL_FN, 3, 3⟩
/-- DWL_FN.DSTATE, R337. -/
abbrev DWL_FN_DSTATE : Fld := ⟨.DWL_FN, 5, 4⟩
/-- DWL_SEM.HELD, R339. -/
abbrev DWL_SEM_HELD : Fld := ⟨.DWL_SEM, 0, 0⟩
/-- DWL_SEM.LR, R339. -/
abbrev DWL_SEM_LR : Fld := ⟨.DWL_SEM, 1, 1⟩
/-- DWL_SEM.DRAWER, R339. -/
abbrev DWL_SEM_DRAWER : Fld := ⟨.DWL_SEM, 7, 4⟩
/-- DWL_SEM.WAITS, R339. -/
abbrev DWL_SEM_WAITS : Fld := ⟨.DWL_SEM, 31, 16⟩
/-- DWL_SEQ.TAG, R345. -/
abbrev DWL_SEQ_TAG : Fld := ⟨.DWL_SEQ, 31, 0⟩
/-- DWL_FENCE.TAG, R349. -/
abbrev DWL_FENCE_TAG : Fld := ⟨.DWL_FENCE, 31, 0⟩
/-- DWL_FENCE_INFO.CAUSE, R349. -/
abbrev DWL_FENCE_INFO_CAUSE : Fld := ⟨.DWL_FENCE_INFO, 7, 0⟩
/-- DWL_FENCE_INFO.COUNT, R349. -/
abbrev DWL_FENCE_INFO_COUNT : Fld := ⟨.DWL_FENCE_INFO, 12, 8⟩
/-- DWL_FENCE_INFO.OVERFLOW, R349. -/
abbrev DWL_FENCE_INFO_OVERFLOW : Fld := ⟨.DWL_FENCE_INFO, 16, 16⟩
/-- DWL_FENCE_ACK.TAG, R349. -/
abbrev DWL_FENCE_ACK_TAG : Fld := ⟨.DWL_FENCE_ACK, 31, 0⟩
/-- DWL_EOI.VEC, R351. -/
abbrev DWL_EOI_VEC : Fld := ⟨.DWL_EOI, 5, 0⟩
/-- DWL_VEVT.PERR, R347. -/
abbrev DWL_VEVT_PERR : Fld := ⟨.DWL_VEVT, 0, 0⟩
/-- DWL_VEVT.LOST, R347. -/
abbrev DWL_VEVT_LOST : Fld := ⟨.DWL_VEVT, 31, 16⟩
/-- WLD_WM.VALUE, R353. -/
abbrev WLD_WM_VALUE : Fld := ⟨.WLD_WM, 12, 0⟩
/-- WLD_STYLE.GATEWAY, R357. -/
abbrev WLD_STYLE_GATEWAY : Fld := ⟨.WLD_STYLE, 5, 0⟩
/-- WLD_MONVEC_LO.ADDR, R359. -/
abbrev WLD_MONVEC_LO_ADDR : Fld := ⟨.WLD_MONVEC_LO, 31, 2⟩
/-- WLD_MONVEC_HI.ADDR, R359. -/
abbrev WLD_MONVEC_HI_ADDR : Fld := ⟨.WLD_MONVEC_HI, 7, 0⟩
/-- WLD_SECVEC_LO.ADDR, R363. -/
abbrev WLD_SECVEC_LO_ADDR : Fld := ⟨.WLD_SECVEC_LO, 31, 2⟩
/-- WLD_SECVEC_HI.ADDR, R363. -/
abbrev WLD_SECVEC_HI_ADDR : Fld := ⟨.WLD_SECVEC_HI, 7, 0⟩
/-- WLD_SVC.STATE, R365. -/
abbrev WLD_SVC_STATE : Fld := ⟨.WLD_SVC, 1, 0⟩
/-- WLD_SVC.RESTARTS, R365. -/
abbrev WLD_SVC_RESTARTS : Fld := ⟨.WLD_SVC, 5, 4⟩
/-- WLD_SVC.HART, R365. -/
abbrev WLD_SVC_HART : Fld := ⟨.WLD_SVC, 10, 8⟩
/-- WLD_SVC.READY, R365. -/
abbrev WLD_SVC_READY : Fld := ⟨.WLD_SVC, 16, 16⟩
/-- WLD_SVC.RESTART, R365. -/
abbrev WLD_SVC_RESTART : Fld := ⟨.WLD_SVC, 17, 17⟩
/-- WLD_TIMEOUT.HART, R366. -/
abbrev WLD_TIMEOUT_HART : Fld := ⟨.WLD_TIMEOUT, 2, 0⟩
/-- WLD_TIMEOUT.VALID, R366. -/
abbrev WLD_TIMEOUT_VALID : Fld := ⟨.WLD_TIMEOUT, 3, 3⟩
/-- WLD_TIMEOUT_NS.NS, R366. -/
abbrev WLD_TIMEOUT_NS_NS : Fld := ⟨.WLD_TIMEOUT_NS, 31, 0⟩
/-- WLD_DBG.LC, R368. -/
abbrev WLD_DBG_LC : Fld := ⟨.WLD_DBG, 3, 0⟩
/-- WLD_DBG.UNLOCK, R368. -/
abbrev WLD_DBG_UNLOCK : Fld := ⟨.WLD_DBG, 7, 4⟩
/-- WLD_DBG.EFFECTIVE, R368. -/
abbrev WLD_DBG_EFFECTIVE : Fld := ⟨.WLD_DBG, 11, 8⟩
/-- WLD_MTR_WORLD.SECURE, R356. -/
abbrev WLD_MTR_WORLD_SECURE : Fld := ⟨.WLD_MTR_WORLD, 1, 0⟩
/-- WLD_EVT.RESTARTING, R366. -/
abbrev WLD_EVT_RESTARTING : Fld := ⟨.WLD_EVT, 0, 0⟩
/-- WLD_EVT.DEAD, R366. -/
abbrev WLD_EVT_DEAD : Fld := ⟨.WLD_EVT, 1, 1⟩
/-- WLD_EVT_EN.RESTARTING, R366. -/
abbrev WLD_EVT_EN_RESTARTING : Fld := ⟨.WLD_EVT_EN, 0, 0⟩
/-- WLD_EVT_EN.DEAD, R366. -/
abbrev WLD_EVT_EN_DEAD : Fld := ⟨.WLD_EVT_EN, 1, 1⟩
/-- WLD_RING_SEC.SECURE, R356. -/
abbrev WLD_RING_SEC_SECURE : Fld := ⟨.WLD_RING_SEC, 31, 0⟩
/-- WLD_GATE_LO.ADDR, R360. -/
abbrev WLD_GATE_LO_ADDR : Fld := ⟨.WLD_GATE_LO, 31, 0⟩
/-- WLD_GATE_HI.ADDR, R360. -/
abbrev WLD_GATE_HI_ADDR : Fld := ⟨.WLD_GATE_HI, 7, 0⟩
/-- WLD_GATE_HI.VALID, R360. -/
abbrev WLD_GATE_HI_VALID : Fld := ⟨.WLD_GATE_HI, 31, 31⟩
/-- TIL_CMD.OP, R376. -/
abbrev TIL_CMD_OP : Fld := ⟨.TIL_CMD, 7, 0⟩
/-- TIL_CMD.SLOT, R376. -/
abbrev TIL_CMD_SLOT : Fld := ⟨.TIL_CMD, 15, 8⟩
/-- TIL_CMD.SLOT2, R376. -/
abbrev TIL_CMD_SLOT2 : Fld := ⟨.TIL_CMD, 23, 16⟩
/-- TIL_CMD.DSLOT, R376. -/
abbrev TIL_CMD_DSLOT : Fld := ⟨.TIL_CMD, 31, 24⟩
/-- TIL_PARAM.VALUE, R378. -/
abbrev TIL_PARAM_VALUE : Fld := ⟨.TIL_PARAM, 31, 0⟩
/-- TIL_NEW.VALUE, R371. -/
abbrev TIL_NEW_VALUE : Fld := ⟨.TIL_NEW, 31, 0⟩
/-- TIL_SRC_LO.VALUE, R376. -/
abbrev TIL_SRC_LO_VALUE : Fld := ⟨.TIL_SRC_LO, 31, 0⟩
/-- TIL_SRC_HI.VALUE, R376. -/
abbrev TIL_SRC_HI_VALUE : Fld := ⟨.TIL_SRC_HI, 15, 0⟩
/-- TIL_SRC_LEN.VALUE, R376. -/
abbrev TIL_SRC_LEN_VALUE : Fld := ⟨.TIL_SRC_LEN, 31, 0⟩
/-- TIL_DST_LO.VALUE, R376. -/
abbrev TIL_DST_LO_VALUE : Fld := ⟨.TIL_DST_LO, 31, 0⟩
/-- TIL_DST_HI.VALUE, R376. -/
abbrev TIL_DST_HI_VALUE : Fld := ⟨.TIL_DST_HI, 15, 0⟩
/-- TIL_DST_LEN.VALUE, R376. -/
abbrev TIL_DST_LEN_VALUE : Fld := ⟨.TIL_DST_LEN, 31, 0⟩
/-- TIL_STAT.STATE, R376. -/
abbrev TIL_STAT_STATE : Fld := ⟨.TIL_STAT, 1, 0⟩
/-- TIL_STAT.RESULT, R376. -/
abbrev TIL_STAT_RESULT : Fld := ⟨.TIL_STAT, 12, 8⟩
/-- TIL_STAT.REJ, R376. -/
abbrev TIL_STAT_REJ : Fld := ⟨.TIL_STAT, 16, 16⟩
/-- TIL_STAT.DONE_EV, R376. -/
abbrev TIL_STAT_DONE_EV : Fld := ⟨.TIL_STAT, 20, 20⟩
/-- TIL_STAT.EN, R376. -/
abbrev TIL_STAT_EN : Fld := ⟨.TIL_STAT, 24, 24⟩
/-- TIL_OUTLEN.OUTLEN, R376. -/
abbrev TIL_OUTLEN_OUTLEN : Fld := ⟨.TIL_OUTLEN, 16, 0⟩
/-- TIL_LC.STATE, R383. -/
abbrev TIL_LC_STATE : Fld := ⟨.TIL_LC, 2, 0⟩
/-- TIL_LC.OWNER_SET, R383. -/
abbrev TIL_LC_OWNER_SET : Fld := ⟨.TIL_LC, 3, 3⟩
/-- TIL_LC.INTENT, R383. -/
abbrev TIL_LC_INTENT : Fld := ⟨.TIL_LC, 4, 4⟩
/-- TIL_VDIG.BYTES, R384. -/
abbrev TIL_VDIG_BYTES : Fld := ⟨.TIL_VDIG, 31, 0⟩
/-- TIL_ODIG.BYTES, R384. -/
abbrev TIL_ODIG_BYTES : Fld := ⟨.TIL_ODIG, 31, 0⟩
/-- TIL_IDPUB.BYTES, R381. -/
abbrev TIL_IDPUB_BYTES : Fld := ⟨.TIL_IDPUB, 31, 0⟩
/-- TIL_ENT.HEALTH_OK, R380. -/
abbrev TIL_ENT_HEALTH_OK : Fld := ⟨.TIL_ENT, 0, 0⟩
/-- TIL_ENT.FAILS, R380. -/
abbrev TIL_ENT_FAILS : Fld := ⟨.TIL_ENT, 15, 8⟩
/-- TIL_G_VEC.VEC, R89. -/
abbrev TIL_G_VEC_VEC : Fld := ⟨.TIL_G_VEC, 5, 0⟩
/-- TIL_VEC.VEC, R89. -/
abbrev TIL_VEC_VEC : Fld := ⟨.TIL_VEC, 5, 0⟩
/-- TIL_SLOT_ATTR.ATTR, R371. -/
abbrev TIL_SLOT_ATTR_ATTR : Fld := ⟨.TIL_SLOT_ATTR, 31, 0⟩
/-- TIL_SLOT_HOLD.HOLDER, R373. -/
abbrev TIL_SLOT_HOLD_HOLDER : Fld := ⟨.TIL_SLOT_HOLD, 4, 0⟩
/-- REC_CURSOR.ITEM, R395. -/
abbrev REC_CURSOR_ITEM : Fld := ⟨.REC_CURSOR, 11, 0⟩
/-- REC_CURSOR.AUTO, R395. -/
abbrev REC_CURSOR_AUTO : Fld := ⟨.REC_CURSOR, 16, 16⟩
/-- REC_WIN.WORD, R395. -/
abbrev REC_WIN_WORD : Fld := ⟨.REC_WIN, 31, 0⟩
/-- REC_LOG_EN.LOG_EN, R400. -/
abbrev REC_LOG_EN_LOG_EN : Fld := ⟨.REC_LOG_EN, 8, 0⟩
/-- REC_TRACE_EN.TRACE_EN, R400. -/
abbrev REC_TRACE_EN_TRACE_EN : Fld := ⟨.REC_TRACE_EN, 3, 0⟩
/-- REC_TRC_THRESH.THRESH, R402. -/
abbrev REC_TRC_THRESH_THRESH : Fld := ⟨.REC_TRC_THRESH, 16, 0⟩
/-- REC_LOG_STAT.LEVEL, R402. -/
abbrev REC_LOG_STAT_LEVEL : Fld := ⟨.REC_LOG_STAT, 3, 0⟩
/-- REC_LOG_STAT.LOG_LOST, R402. -/
abbrev REC_LOG_STAT_LOG_LOST : Fld := ⟨.REC_LOG_STAT, 8, 8⟩
/-- REC_LOG_STAT.LEVEL_UP, R402. -/
abbrev REC_LOG_STAT_LEVEL_UP : Fld := ⟨.REC_LOG_STAT, 9, 9⟩
/-- REC_LOG_STAT.EN, R402. -/
abbrev REC_LOG_STAT_EN : Fld := ⟨.REC_LOG_STAT, 17, 16⟩
/-- REC_LOG_SAMPLED.SAMPLED, R402. -/
abbrev REC_LOG_SAMPLED_SAMPLED : Fld := ⟨.REC_LOG_SAMPLED, 31, 0⟩
/-- REC_LOG_LOST.LOGS, R401. -/
abbrev REC_LOG_LOST_LOGS : Fld := ⟨.REC_LOG_LOST, 15, 0⟩
/-- REC_LOG_LOST.TRACES, R401. -/
abbrev REC_LOG_LOST_TRACES : Fld := ⟨.REC_LOG_LOST, 31, 16⟩
/-- REC_CFG_ITEM.ITEM, R391. -/
abbrev REC_CFG_ITEM_ITEM : Fld := ⟨.REC_CFG_ITEM, 11, 0⟩
/-- REC_CFG_SRC.SRC, R391. -/
abbrev REC_CFG_SRC_SRC : Fld := ⟨.REC_CFG_SRC, 23, 0⟩
/-- REC_CFG_LO.VALUE, R391. -/
abbrev REC_CFG_LO_VALUE : Fld := ⟨.REC_CFG_LO, 31, 0⟩
/-- REC_CFG_WIDTH.VALUE, R391. -/
abbrev REC_CFG_WIDTH_VALUE : Fld := ⟨.REC_CFG_WIDTH, 31, 0⟩
/-- REC_CFG_MODE.MODE, R391. -/
abbrev REC_CFG_MODE_MODE : Fld := ⟨.REC_CFG_MODE, 20, 0⟩
/-- REC_CFG_CMD.WRITE, R391. -/
abbrev REC_CFG_CMD_WRITE : Fld := ⟨.REC_CFG_CMD, 0, 0⟩
/-- REC_CFG_STAT.REJ, R391. -/
abbrev REC_CFG_STAT_REJ : Fld := ⟨.REC_CFG_STAT, 0, 0⟩
/-- REC_CLEAR.ITEM, R396. -/
abbrev REC_CLEAR_ITEM : Fld := ⟨.REC_CLEAR, 11, 0⟩
/-- REC_CLEAR.ALL, R396. -/
abbrev REC_CLEAR_ALL : Fld := ⟨.REC_CLEAR, 30, 30⟩
/-- REC_CLEAR.GO, R396. -/
abbrev REC_CLEAR_GO : Fld := ⟨.REC_CLEAR, 31, 31⟩
/-- REC_CLEARS.COUNT, R396. -/
abbrev REC_CLEARS_COUNT : Fld := ⟨.REC_CLEARS, 31, 0⟩
/-- REC_FLUSH.GO, R393. -/
abbrev REC_FLUSH_GO : Fld := ⟨.REC_FLUSH, 0, 0⟩
/-- REC_FLUSH.BUSY, R393. -/
abbrev REC_FLUSH_BUSY : Fld := ⟨.REC_FLUSH, 8, 8⟩
/-- REC_FLUSH.PENDING, R393. -/
abbrev REC_FLUSH_PENDING : Fld := ⟨.REC_FLUSH, 9, 9⟩
/-- REC_FLUSH.DONE, R393. -/
abbrev REC_FLUSH_DONE : Fld := ⟨.REC_FLUSH, 10, 10⟩
/-- REC_ALM_HEAD.WORD, R399. -/
abbrev REC_ALM_HEAD_WORD : Fld := ⟨.REC_ALM_HEAD, 31, 0⟩
/-- REC_ALM_STAT.COUNT, R399. -/
abbrev REC_ALM_STAT_COUNT : Fld := ⟨.REC_ALM_STAT, 9, 0⟩
/-- REC_ALM_STAT.POP, R399. -/
abbrev REC_ALM_STAT_POP : Fld := ⟨.REC_ALM_STAT, 16, 16⟩
/-- REC_EVT.ALARM, R399. -/
abbrev REC_EVT_ALARM : Fld := ⟨.REC_EVT, 0, 0⟩
/-- REC_EVT.FLUSH_DONE, R399. -/
abbrev REC_EVT_FLUSH_DONE : Fld := ⟨.REC_EVT, 1, 1⟩
/-- REC_EVT_EN.ALARM, R399. -/
abbrev REC_EVT_EN_ALARM : Fld := ⟨.REC_EVT_EN, 0, 0⟩
/-- REC_EVT_EN.FLUSH_DONE, R399. -/
abbrev REC_EVT_EN_FLUSH_DONE : Fld := ⟨.REC_EVT_EN, 1, 1⟩
/-- REC_G_VEC.VEC, R89. -/
abbrev REC_G_VEC_VEC : Fld := ⟨.REC_G_VEC, 5, 0⟩
/-- REC_VEC.VEC, R89. -/
abbrev REC_VEC_VEC : Fld := ⟨.REC_VEC, 5, 0⟩
/-- UPD_MBX_HDR.WORD, R404. -/
abbrev UPD_MBX_HDR_WORD : Fld := ⟨.UPD_MBX_HDR, 31, 0⟩
/-- UPD_MBX_LEN.LEN, R404. -/
abbrev UPD_MBX_LEN_LEN : Fld := ⟨.UPD_MBX_LEN, 16, 0⟩
/-- UPD_MBX_CMD.OP, R404. -/
abbrev UPD_MBX_CMD_OP : Fld := ⟨.UPD_MBX_CMD, 2, 0⟩
/-- UPD_MBX_STAT.BUSY, R406. -/
abbrev UPD_MBX_STAT_BUSY : Fld := ⟨.UPD_MBX_STAT, 0, 0⟩
/-- UPD_MBX_STAT.DONE, R406. -/
abbrev UPD_MBX_STAT_DONE : Fld := ⟨.UPD_MBX_STAT, 1, 1⟩
/-- UPD_MBX_STAT.REJ, R406. -/
abbrev UPD_MBX_STAT_REJ : Fld := ⟨.UPD_MBX_STAT, 2, 2⟩
/-- UPD_MBX_STAT.STATUS, R406. -/
abbrev UPD_MBX_STAT_STATUS : Fld := ⟨.UPD_MBX_STAT, 11, 8⟩
/-- UPD_SESS.STATE, R407. -/
abbrev UPD_SESS_STATE : Fld := ⟨.UPD_SESS, 1, 0⟩
/-- UPD_SIZE.BYTES, R405. -/
abbrev UPD_SIZE_BYTES : Fld := ⟨.UPD_SIZE, 31, 0⟩
/-- UPD_FILLED.BYTES, R405. -/
abbrev UPD_FILLED_BYTES : Fld := ⟨.UPD_FILLED, 31, 0⟩
/-- UPD_LASTBOOT.CODE, R411. -/
abbrev UPD_LASTBOOT_CODE : Fld := ⟨.UPD_LASTBOOT, 7, 0⟩
/-- UPD_LASTBOOT.RESUMED, R411. -/
abbrev UPD_LASTBOOT_RESUMED : Fld := ⟨.UPD_LASTBOOT, 8, 8⟩
/-- UPD_LASTBOOT.BANK, R411. -/
abbrev UPD_LASTBOOT_BANK : Fld := ⟨.UPD_LASTBOOT, 9, 9⟩
/-- UPD_ARB.COUNTER, R410. -/
abbrev UPD_ARB_COUNTER : Fld := ⟨.UPD_ARB, 31, 0⟩
/-- UPD_CONFIRM.KIND, R410. -/
abbrev UPD_CONFIRM_KIND : Fld := ⟨.UPD_CONFIRM, 1, 0⟩
/-- UPD_CONFIRM.KEY, R410. -/
abbrev UPD_CONFIRM_KEY : Fld := ⟨.UPD_CONFIRM, 31, 16⟩
/-- UPD_CONF_STAT.REJ, R410. -/
abbrev UPD_CONF_STAT_REJ : Fld := ⟨.UPD_CONF_STAT, 0, 0⟩
/-- UPD_MBX_DATA.DATA, R404. -/
abbrev UPD_MBX_DATA_DATA : Fld := ⟨.UPD_MBX_DATA, 31, 0⟩
/-- FAB_RET.UNITS, R415. -/
abbrev FAB_RET_UNITS : Fld := ⟨.FAB_RET, 31, 0⟩
/-- FAB_SUS.UNITS, R415. -/
abbrev FAB_SUS_UNITS : Fld := ⟨.FAB_SUS, 31, 0⟩
/-- FAB_CORE_STAT.TEST_FAIL, R413. -/
abbrev FAB_CORE_STAT_TEST_FAIL : Fld := ⟨.FAB_CORE_STAT, 5, 0⟩
/-- FAB_CORE_STAT.RUN_ERR, R413. -/
abbrev FAB_CORE_STAT_RUN_ERR : Fld := ⟨.FAB_CORE_STAT, 13, 8⟩
/-- FAB_SRAM_CE.WINDOW, R414. -/
abbrev FAB_SRAM_CE_WINDOW : Fld := ⟨.FAB_SRAM_CE, 6, 0⟩
/-- FAB_SRAM_CE.TOTAL, R414. -/
abbrev FAB_SRAM_CE_TOTAL : Fld := ⟨.FAB_SRAM_CE, 31, 16⟩
/-- FAB_RET_CLR.KIND, R417. -/
abbrev FAB_RET_CLR_KIND : Fld := ⟨.FAB_RET_CLR, 2, 0⟩
/-- FAB_RET_CLR.UNIT, R417. -/
abbrev FAB_RET_CLR_UNIT : Fld := ⟨.FAB_RET_CLR, 14, 8⟩
/-- FAB_RET_CLR.KEY, R417. -/
abbrev FAB_RET_CLR_KEY : Fld := ⟨.FAB_RET_CLR, 31, 16⟩
/-- FAB_RET_CLR_STAT.RESULT, R417. -/
abbrev FAB_RET_CLR_STAT_RESULT : Fld := ⟨.FAB_RET_CLR_STAT, 2, 0⟩
/-- FAB_RET_CLRS.COUNT, R417. -/
abbrev FAB_RET_CLRS_COUNT : Fld := ⟨.FAB_RET_CLRS, 31, 0⟩
/-- FAB_SAFEN.REASON, R422. -/
abbrev FAB_SAFEN_REASON : Fld := ⟨.FAB_SAFEN, 6, 0⟩
/-- FAB_SAFEN.ASSERTED, R422. -/
abbrev FAB_SAFEN_ASSERTED : Fld := ⟨.FAB_SAFEN, 8, 8⟩
/-- FAB_SAFEN_MASK.ARM, R422. -/
abbrev FAB_SAFEN_MASK_ARM : Fld := ⟨.FAB_SAFEN_MASK, 6, 4⟩
/-- FAB_SAFEN_CTRL.RELEASE, R423. -/
abbrev FAB_SAFEN_CTRL_RELEASE : Fld := ⟨.FAB_SAFEN_CTRL, 0, 0⟩
/-- FAB_SAFEN_CTRL.FORCE, R423. -/
abbrev FAB_SAFEN_CTRL_FORCE : Fld := ⟨.FAB_SAFEN_CTRL, 1, 1⟩
/-- FAB_SAFEN_CTRL.KEY, R423. -/
abbrev FAB_SAFEN_CTRL_KEY : Fld := ⟨.FAB_SAFEN_CTRL, 31, 16⟩

end F

end Sys2Proof.Machine
end

