-- ==== Sys2Proof/Machine/Types.lean ====
section
/-! DEFINITION. The plain data the units of the machine hold beside their registers, and the operands commands carry. -/

namespace Sys2Proof.Machine

/-- The source kind of an access tag (R35), coded as FAB_AERR_INFO.SOURCE; `device` is the fault record's 5 (R90). -/
inductive Src | core | pcie | dma | mitre | debug | device
  deriving DecidableEq, Repr

/-- The code of a source kind. -/
def Src.code : Src → Nat
  | .core => 0 | .pcie => 1 | .dma => 2 | .mitre => 3 | .debug => 4 | .device => 5

/-- The tag of an access (R35): a drawer, the world bit and the source kind. -/
structure Tag where
  drawer : Fin 16
  secure : Bool
  src : Src
  deriving DecidableEq, Repr

/-- The operations of an AMO (R339). -/
inductive AtomOp | swap | add | xor | and_ | or_ | min | max | minu | maxu
  deriving DecidableEq, Repr

/-- What an access does: a read, a write, one of the locked sequences of R339 to R341 (`cas` carries its compare value), or an
instruction fetch. -/
inductive AccOp
  | read
  | write
  | amo (o : AtomOp)
  | cas (cmp : Nat)
  | lr
  | sc
  | fetch
  deriving DecidableEq, Repr

/-- Whether an access writes. -/
def AccOp.writes : AccOp → Bool
  | .read => false
  | .lr => false
  | .fetch => false
  | _ => true

/-- One access at the point of entry (R36): its tag, the requester's number within its source kind (hart, function, Mitre
core), address, bytes, operation, data, and the sequence tag of a posted write (R345; 0 for any other access). -/
structure Access where
  tag : Tag
  num : Nat
  addr : Nat
  size : Nat
  op : AccOp
  data : Nat
  seq : Nat
  deriving DecidableEq, Repr

/-- Who issues an access (R35, R227): a hart with V as given, a PCIe function, a Mitre core, or JTAG debug. -/
inductive Master
  | hart (h : Fin 6) (virt : Bool)
  | pcie (f : Fin 16)
  | mitre (c : Fin 2)
  | debug
  deriving DecidableEq, Repr

/-- The answer the last access or read received: whether it passed its checks, and the data (R37: zero on a failure). -/
structure Resp where
  ok : Bool
  data : Nat
  deriving DecidableEq, Repr

/-- A zone time and its epoch (R291, R296). -/
structure Stamp where
  ns : Nat
  ep : Nat
  deriving DecidableEq, Repr

/-- One claim presented to an arbitration point (R40, R41): what it is for (at point 2 the ring, at 6 the semaphore, at 7 the host
queue), the drawer, and the order within one drawer: source (core, PCIe, DMA), then hart or ring number. -/
structure Claim where
  unit : Nat
  drawer : Fin 16
  src : Src
  num : Nat
  deriving DecidableEq, Repr

/-- A fault record of a drawer (R90): word 0 without REPEAT, the address, unit, detail, stamp, REPEAT and frozen. -/
structure FaultRec where
  cause : Nat
  source : Nat
  write : Bool
  rep : Nat
  addr : Nat
  unit : Nat
  detail : Nat
  ns : Nat
  frozen : Bool
  deriving DecidableEq, Repr

/-- A pending alarm record (R398), with the frozen mark of R399. -/
structure AlarmRec where
  code : Nat
  drawer : Nat
  rep : Nat
  unit : Nat
  detail : Nat
  at_ : Stamp
  frozen : Bool
  deriving DecidableEq, Repr

/-- A log, trace or LOST record (R400). -/
structure LogRec where
  cls : Nat
  src : Nat
  level : Nat
  unit : Nat
  at_ : Stamp
  seq : Nat
  arg0 : Nat
  arg1 : Nat
  deriving DecidableEq, Repr

/-- A recorder item (R388): configuration words, counters, extremes with stamps, sum and bins. -/
structure RecItem where
  kind : Nat
  index : Nat
  lo : Int
  width : Nat
  enable : Bool
  mode : Nat
  sat : Bool
  shift : Nat
  count : Nat
  mn : Int
  mnAt : Stamp
  mx : Int
  mxAt : Stamp
  clears : Nat
  clrAt : Stamp
  sum : Int
  bins : List Nat
  deriving DecidableEq, Repr

/-- An item of a blank recorder. -/
def RecItem.blank : RecItem :=
  ⟨0, 0, 0, 0, false, 0, false, 0, 0, 2147483647, ⟨0, 0⟩, -2147483648, ⟨0, 0⟩, 0, ⟨0, 0⟩, 0, List.replicate 32 0⟩

/-- One sample of a source, with the stamp its source gave it (R389, R392). -/
structure Sample where
  kind : Nat
  index : Nat
  val : BitVec 32
  at_ : Stamp
  deriving DecidableEq, Repr

/-- One half of the eMRAM recorder area (R53, R388): items and alarm store. -/
structure RecHalf where
  items : Store RecItem
  alarms : List AlarmRec
  deriving DecidableEq, Repr

/-- The event recorder's buffer and eMRAM halves (R388 to R402), with the samples its sources have accumulated since the last
merge (R392). -/
structure RecSt where
  items : Store RecItem
  accum : List Sample
  alarms : List AlarmRec
  staging : Store (List LogRec)
  backlog : List (Nat × LogRec)
  seq : Store Nat
  lostLogs : Store Nat
  lostTraces : Store Nat
  lostFirst : Store Nat
  halfA : RecHalf
  halfB : RecHalf
  current : Bool
  deriving DecidableEq, Repr

/-- An accepted move (R77, R78): its operands, whether it has committed, and the accesses that had passed their check under the
old owner and were outstanding when it did. -/
structure MoveSt where
  cls : Nat
  from_ : Nat
  to_ : Nat
  first : Nat
  count : Nat
  committed : Bool
  left : List Access
  deriving DecidableEq, Repr

/-- Drawers (ch. 4): how many exist, owners of numbered units (owner + 1; 0 is the POOL), fault FIFOs, and the accepted move. -/
structure DrwSt where
  count : Nat
  ringOwner : Store Nat
  tillOwner : Store Nat
  recOwner : Store Nat
  faults : Store (List FaultRec)
  move : Option MoveSt
  deriving DecidableEq, Repr

/-- The fabric (ch. 2): accesses waiting for an island, whether each waking island wakes from POWER_OFF, what each island drains
or is held for (1 CLOCK_GATED, 2 POWER_OFF), the last grant of each arbitration point (drawer + 1), and the slots each drawer has
used of its DMA share in the current round of points 0 and 2 (key 16 × point + drawer; log entry 105). -/
structure FabSt where
  waiting : List (Nat × Access)
  fromOff : Store Bool
  target : Store Nat
  granted : Store Nat
  used : Store Nat
  deriving DecidableEq, Repr

/-- A Carcass image section: its TYPE and its 32-bit words in order (R18, R20). -/
abbrev Section := Nat × List Nat

/-- The Carcass image in force (R13): its sections, versions and structure hash; `none` sections in the bare state. -/
structure Image where
  sections : List Section
  secVersion : Nat
  buildId : Nat
  hash : List Nat
  deriving DecidableEq, Repr

/-- A CAN frame (R323, R325): identifier, formats and flags, the XL header, the DLC and the data. -/
structure CanFrame where
  id : Nat
  ide : Bool
  rtr : Bool
  fdf : Bool
  xlf : Bool
  brs : Bool
  esi : Bool
  sdt : Nat
  vcid : Nat
  sec : Bool
  af : Nat
  dlc : Nat
  data : List Nat
  deriving DecidableEq, Repr

/-- A frame in a controller's receive FIFO (R324): the frame, its raw stamp, the filter that took it and TX_ECHO. -/
structure CanRx where
  frame : CanFrame
  raw : Nat
  filter : Nat
  echo : Bool
  deriving DecidableEq, Repr

/-- The attempt under way on a bus (R318): the mailbox (64 for the tunnel, 65 for a frame of the tunnel that a reset has discarded), the frame copied for it, and the raw counter and
zone time at its start of frame. -/
structure CanTry where
  mb : Nat
  frame : CanFrame
  raw : Nat
  at_ : Stamp
  deriving DecidableEq, Repr

/-- What a CAN controller holds beside its registers (ch. 15): message RAM by word, the MODE in force, the MODE that waits for bus idle, the
overtemperature hold, the attempt under way, the receive FIFO, the tunnel's transmit queue and FIFO, and its sequence_num. -/
structure CanSt where
  mram : Store Word
  mode : Nat
  modeNext : Option Nat
  hot : Bool
  att : Option CanTry
  rx : List CanRx
  tunTx : List (List Nat)
  tunRx : List CanFrame
  seq : Nat
  deriving DecidableEq, Repr

/-- A controller after a reset. -/
def CanSt.rst : CanSt := ⟨[], 0, none, false, none, [], [], [], 0⟩

/-- Zone time (ch. 14): the zone counter as a 64-bit fixed-point value (32 bits of ns, 32 of fraction), the raw counter in ns, the
Lathe timebase in the unit of the zone counter, the staged fraction, the sum of the steps so far, and the state of the CAN fallback's
reference messages: the last stamps and SEQ, and the message that waits, with its controller. -/
structure ZtmSt where
  zone : Nat
  raw : Nat
  tb : Nat
  fracStaged : Nat
  steps : Nat
  fbPrev : Option Stamp
  fbLastSeq : Option Nat
  fbLastOwn : Option Stamp
  fbMsg : Option (Nat × CanFrame)
  deriving DecidableEq, Repr

/-- What a power-stage die holds for a channel beside its registers (ch. 5, 6): the edge under way (0 none, 1 on, 2 off),
whether the activation is within its first 10 µs, the model temperature and conductor, the episode clocks in ms, the hold's
captured value, policy and beginning (0 none, 1 ISL of BNKk, 2 SYS or power-fail, 3 sleep), the step of the off-state check,
the last Clamp command (0 none, 1 OFF, 2 ON) and whether it is frozen, whether sleep entry has turned the channel off (R61), and
whether the next turn-on is a new activation whatever the gap (R123, R133). -/
structure LoadCh where
  edge : Nat
  hsWin : Bool
  temp : Rat
  csa : Nat
  insul : Nat
  episodeMs : Nat
  quietMs : Nat
  holdVal : Bool
  holdPol : Nat
  holdBy : Nat
  chk : Nat
  clamp : Nat
  frozen : Bool
  asleep : Bool
  renew : Bool
  deriving DecidableEq, Repr

/-- A channel of a die in its POR state (R114, R120). -/
def LoadCh.por : LoadCh := ⟨0, false, 65, 0, 0, 0, 0, false, 0, 0, 0, 0, false, false, false⟩

/-- A PWM unit (R99): its output, the DUTY to take up at the next period, and whether that DUTY was written by a commit
after the start. -/
structure PwmSt where
  out : Bool
  next : Nat
  fresh : Bool
  deriving DecidableEq, Repr

/-- A PWM unit after a reset. -/
def PwmSt.rst : PwmSt := ⟨false, 0, false⟩

/-- A feed's budget logic in its dies (R136): FEED_LIMIT in force, the last mean in mA, the OVER and restore counts. -/
structure FeedSt where
  limit : Nat
  mean : Nat
  overs : Nat
  restore : Nat
  deriving DecidableEq, Repr

/-- A feed after POR. -/
def FeedSt.por : FeedSt := ⟨0, 0, 0, 0⟩

/-- The power-stage dies (ch. 5, 6): channels, PWM units, feeds, and which dies have lost their state (R51). -/
structure LoadSt where
  ch : Store LoadCh
  pwm : Store PwmSt
  feed : Store FeedSt
  lost : Store Bool
  deriving DecidableEq, Repr

/-- Retirement (ch. 21): units out of service (key 256 × kind + unit), classified units whose record is not yet written, the
units retired by a start test of the current start, and the counts of a start test failing (SUSPECT is FAB_SUS). -/
structure FltSt where
  out : Store Bool
  pend : List (Nat × Nat)
  byTest : Bool
  deriving DecidableEq, Repr

/-- What the input controller holds for an MI pin (ch. 7): the conversions in the filter, newest first, whether a rising
edge has been accepted since the last stall or restart, the wake reference, and whether the last sleep sample was true. -/
structure PinSt where
  codes : List Nat
  hasEdge : Bool
  wakeRef : Bool
  wakeSeen : Bool
  deriving DecidableEq, Repr

/-- The analog front end beside the pins (R140 to R142, R148): the comparator outputs of the MI pins and the accepted levels of the DRV pins,
bit p for pin p; they outlive every reset while the compute die has power. -/
structure FrontSt where
  cmp : Nat
  drv : Nat
  deriving DecidableEq, Repr

/-- Voltages of MI pins, in mV. -/
abbrev PinMv := List (Fin 128 × Nat)

/-- A pin after a restart of island INP. -/
def PinSt.rst : PinSt := ⟨[], false, false, false⟩

/-- What the device sent to the outside: `kind` 1 a station message at a port's MAC, 2 a frame on a CAN bus, 3 a frame
leaving a port, 4 an interrupt message, 6 a write to host memory, 7 a verify mPacket; `unit` the port, controller or drawer; `data` its bytes. -/
structure Emit where
  kind : Nat
  unit : Nat
  dest : Nat
  data : List Nat
  deriving DecidableEq, Repr

/-- A station message in the queue of a controller's mailbox 0 (R188, R321): identifier, IDE and bytes. -/
structure CanMsg where
  id : Nat
  ide : Bool
  data : List Nat
  deriving DecidableEq, Repr

/-- A Lathe error record (R178). -/
structure LthErr where
  w0 : Nat
  w1 : Nat
  w2 : Nat
  w3 : Nat
  deriving DecidableEq, Repr

/-- What a lane and the commit unit hold for a task (R172 to R175): the phase of its run (0 none, 1 latching, 2 latched and
waiting for the lane, 3 executing, 4 preempted, 5 commit requested), the lane context, the last release instant it was given in µs
of the timebase, the timebase and the stamp of the instance's release, the shadow, the latched inputs, the synchronous cycle, and why it
stopped. -/
structure TaskSt where
  phase : Nat
  pc : Nat
  flag : Bool
  stack : List Nat
  cycles : Nat
  made : Option Nat
  relTb : Nat
  relAt : Stamp
  shadow : Store Word
  inputs : Store Word
  sync : Bool
  faultStop : Bool
  startLeft : Nat
  deriving DecidableEq, Repr

/-- A task with nothing in progress. -/
def TaskSt.idle : TaskSt := ⟨0, 0, false, [], 0, none, 0, ⟨0, 0⟩, [], [], false, false, 0⟩

/-- The timebase in µs at the release of the instance (R169, R187). -/
def TaskSt.relUs (x : TaskSt) : Nat := x.relTb / 2 ^ 32 / 1000

/-- What the Lathe holds for a station (R189 to R194): the last accepted SEQ, the values of the last valid IN, the count of
consecutive valid INs, the SEQ of the next OUT, whether it answered the current SYNC, and STN_FAULT of the last valid IN. -/
structure StnSt where
  lastSeq : Option Nat
  vals : List Nat
  run : Nat
  outSeq : Nat
  answered : Bool
  fault : Option Bool
  deriving DecidableEq, Repr

/-- A station from which nothing has been heard. -/
def StnSt.fresh : StnSt := ⟨none, [], 0, 0, false, none⟩

/-- A force (R199). -/
structure Force where
  sid : Nat
  value : Word
  mask : Word
  deriving DecidableEq, Repr

/-- A force request that waits for its instant (R200): the register copy it came through, whether it sets, the force. -/
structure ForceReq where
  cp : Nat
  set_ : Bool
  force : Force
  deriving DecidableEq, Repr

/-- The retentive image in eMRAM with its journal marker (R181): PROG_HASH, the retentive values in slot order (their number is the
marker's slot count), the forces saved with it (R201), and the marker's CRC-32. -/
structure RetImg where
  hash : List Nat
  vals : List Word
  forces : List Force
  crc : Nat
  deriving DecidableEq, Repr

/-- The Lathe (ch. 8, 9): the slot image, tasks, which task each lane executes (task + 1), the order of commit requests, the
error FIFO, t0, whether no commit has ended since RUNNING, a save in progress, the retentive image, whether the program is
being reloaded, how the restart was asked for, stations, forces and their requests, dropped SIDs, and the staged, waiting and
judged change transactions of each register copy. -/
structure LthSt where
  slots : Store Word
  task : Store TaskSt
  lane : Store Nat
  commitQ : List Nat
  errs : List LthErr
  t0 : Nat
  firstCommit : Bool
  saving : Option RetImg
  ret : RetImg
  reloading : Bool
  coldAsked : Bool
  stn : Store StnSt
  forces : List Force
  forceReqs : List ForceReq
  dropped : List Nat
  dropReport : Bool
  staged : Store (List (Nat × Word))
  waiting : List Nat
  results : Store (List Nat)
  deriving DecidableEq, Repr

/-- One entry of a commit queue (R206): address, data and byte enables of a store. -/
structure QEntry where
  addr : Nat
  data : Word
  be : Nat
  deriving DecidableEq, Repr

/-- What a copy does in a slice that R206 records, in program order: a store outside local memory, a load from there (address, size and
value), a read of cycle, time or instret (CSR number and value), and a write of a word of local memory (plain offset and value). -/
inductive SliceEv
  | store (e : QEntry)
  | load (addr size : Nat) (val : Word)
  | csr (num : Nat) (val : Word)
  | lmem (off : Nat) (val : Word)
  deriving DecidableEq, Repr

/-- The event that ends a slice in copy A (R204): its instruction count is reached, a WFI, a next instruction that needs `n` more entries
of the commit queue, the read log or the undo log than there are, or a load of `addr` that the commit queue holds. -/
inductive SliceEnd
  | count
  | wfi
  | queueFull (n : Nat)
  | logFull (n : Nat)
  | undoFull (n : Nat)
  | hazard (addr : Nat)
  deriving DecidableEq, Repr

/-- What a copy of a slice produced, its transforms removed (R206, R209, R210): what it did, the words of its end-of-slice state in
the order of R209 with mtvec and mscratch after them, the instructions retired, and what ended the slice. -/
structure CopyRec where
  evs : List SliceEv
  regs : List Word
  instrs : Nat
  ending : SliceEnd
  deriving DecidableEq, Repr

/-- The commit queue of a copy (R206). -/
def CopyRec.queue (r : CopyRec) : List QEntry := r.evs.filterMap fun | .store e => some e | _ => none

/-- The read log of a copy (R206): address or CSR number, and the value returned. -/
def CopyRec.reads (r : CopyRec) : List (Nat × Word) :=
  r.evs.filterMap fun | .load a _ v => some (a, v) | .csr n v => some (n, v) | _ => none

/-- The loads of a copy from outside local memory, with their sizes. -/
def CopyRec.loads (r : CopyRec) : List (Nat × Nat × Word) := r.evs.filterMap fun | .load a n v => some (a, n, v) | _ => none

/-- The writes of a copy to local memory (R206). -/
def CopyRec.writes (r : CopyRec) : List (Nat × Word) := r.evs.filterMap fun | .lmem o v => some (o, v) | _ => none

/-- The Mitre unit (ch. 10): the two banks of local memory as stored, the architectural state of copy A (plain) and copy B
(inverted), in split mode that of cores 0 and 1 (plain), the records of the copies of the slice, copy A's undo log, copy C's overlay as
stored, the outside loads copy A has made, copy A's state at the checkpoint, the slice length and the interrupt lines sampled there,
the odd copy being resynchronised (0 none, 1 A, 2 B), whether the unit halts at the end of the slice, and the
slice numbers of the last latent divergences and resolved mismatches, newest first, and the cores halted by debug with the pending halt
requests (bit c: core c). -/
structure MtrSt where
  bank0 : Store Word
  bank1 : Store Word
  archA : List Word
  archB : List Word
  recA : Option CopyRec
  recB : Option CopyRec
  recC : Option CopyRec
  undo : List (Nat × Word)
  overlay : Store (Option Word)
  loads : List (Nat × Nat × Word)
  ckArch : List Word
  ckLen : Nat
  ckIrq : Nat
  odd : Nat
  haltReq : Bool
  latents : List Nat
  mismatches : List Nat
  dbg : Nat
  dbgReq : Nat
  deriving DecidableEq, Repr

/-- The Mitre unit after SYS and POR: local memory zeroed (R222). -/
def MtrSt.rst : MtrSt :=
  ⟨[], [], List.replicate 72 0#32, List.replicate 72 0xFFFFFFFF#32, none, none, none, [], [], [], List.replicate 72 0#32, 4096, 0, 0,
    false, [], [], 0, 0⟩

/-- A descriptor as the driver wrote it (R87). -/
structure Desc where
  addr : Nat
  len : Nat
  op : Nat
  flags : Nat
  tag : Nat
  arg0 : Nat
  arg1 : Nat
  deriving DecidableEq, Repr

/-- What the ring engine holds for a ring (ch. 4, 11): the descriptor in progress, the bytes committed, its RESULT and
DETAIL, whether every unit is done and only the writeback is left, whether its data ends the frame, the bytes to be written
to (or read from) the buffer with their stamp, the bytes of an ETH_TX frame read so far with the cells charged for them, the
launch it names, the side of the fault that holds it, whether its receive hold has expired, and whether a record buffer takes
no further record. -/
structure RingSt where
  desc : Option Desc
  off : Nat
  result : Nat
  detail : Nat
  ready : Bool
  ended : Bool
  src : List Nat
  stamp : Stamp
  tx : List Nat
  txCells : Nat
  llPort : Nat
  launch : Option Stamp
  side : Nat
  expired : Bool
  close : Bool
  deriving DecidableEq, Repr

/-- A ring with nothing in progress. -/
def RingSt.idle : RingSt := ⟨none, 0, 0, 0, false, false, [], ⟨0, 0⟩, [], 0, 0, none, 0, false, false⟩

/-- A cached translation (R233, R234): the 4 KiB input page of a drawer in one world, whether it may be written, whether
stage 1 took part, and the output page in device or host memory. -/
structure TlbE where
  drawer : Nat
  secure : Bool
  page : Nat
  wr : Bool
  s1 : Bool
  host : Bool
  out : Nat
  deriving DecidableEq, Repr

/-- The IOMMU (ch. 11): cached translations and the keeper's invalidation in progress (scope, drawer, page). -/
structure IomSt where
  tlb : List TlbE
  inval : Option (Nat × Nat × Nat)
  deriving DecidableEq, Repr

/-- A copy of a frame in an egress queue (ch. 12): the frame it belongs to, its bytes without the FCS, its class, priority and
VID, the ingress port and stamp, the ETH_TX ring it came from, its launch, its stream handle, the drawer charged for a host
queue, the cells admitted, whether it is cut through, whether its FCS is inverted, the queue depth at admission, the collisions it
has met, whether its launch time has come, whether the egress leaves it as it is (R254), the steps of zone time before its ingress, and the
bytes sent before a preemption. -/
structure QCopy where
  fid : Nat
  data : List Nat
  cls : Nat
  prio : Nat
  vid : Nat
  port : Nat
  at_ : Stamp
  ring : Option Nat
  launch : Option Stamp
  handle : Option Nat
  drawer : Option Nat
  cells : Nat
  cut : Bool
  bad : Bool
  depth : Nat
  cols : Nat
  due : Bool
  plain : Bool
  base : Nat
  sent : Nat
  deriving DecidableEq, Repr

/-- A frame in the switch buffer: its cells, the copies not yet gone, and the drawer charged for its ETH_TX ring (R249). -/
structure FrameRec where
  cells : Nat
  refs : Nat
  txDrawer : Option Nat
  deriving DecidableEq, Repr

/-- A frame at an ingress port, waiting for the switch: bytes without the FCS, stamp, ring it came from (host ports), launch,
LL_PORT, whether its FCS or length was bad at the MAC, the steps of zone time before its ingress, and for a frame of a CAN
tunnel (R327) the owner drawer and the host queue. -/
structure InFrame where
  port : Nat
  data : List Nat
  at_ : Stamp
  ring : Option Nat
  launch : Option Stamp
  llPort : Nat
  bad : Bool
  base : Nat
  tun : Option (Nat × Nat)
  deriving DecidableEq, Repr

/-- An entry of the forwarding database (R255). -/
structure FdbE where
  mac : Nat
  vid : Nat
  dest : Nat
  static : Bool
  age : Nat
  deriving DecidableEq, Repr

/-- A Qbv or gate list in force (R264): its words, the entry it stands in, and the zone times at which that entry and the cycle began. -/
structure ListSt where
  words : List Nat
  idx : Nat
  since : Nat
  cycle : Nat
  deriving DecidableEq, Repr

/-- A meter's buckets in bits, and the raw time they were last filled (R261). -/
structure MeterSt where
  c : Rat
  e : Rat
  last : Nat
  deriving DecidableEq, Repr

/-- A vector recovery entry (R262): whether any number is taken next, the last number, and the history, newest first. -/
structure RecovSt where
  any : Bool
  seq : Nat
  hist : List Bool
  deriving DecidableEq, Repr

/-- The credit of a class in bits, and the raw time it was last brought up to date (R266). -/
structure CreditSt where
  bits : Rat
  last : Nat
  deriving DecidableEq, Repr

/-- The Dovetail switch (ch. 12). -/
structure DvtSt where
  ingress : List InFrame
  frames : Store FrameRec
  nextFid : Nat
  queue : Store (List QCopy)
  sending : Store (Option QCopy)
  suspended : Store (Option QCopy)
  fdb : Store (List FdbE)
  fdbOp : Nat
  tables : Store (List Nat)
  stage : List Nat
  lists : Store (Option ListSt)
  pendingLists : Store (List Nat)
  meters : Store MeterSt
  recov : Store RecovSt
  credit : Store CreditSt
  capSeen : Store Nat
  capSeq : Store Nat
  deriving DecidableEq, Repr

/-- The switch after a reset. -/
def DvtSt.rst : DvtSt := ⟨[], [], 0, [], [], [], [], 0, [], [], [], [], [], [], [], [], []⟩

/-- What a port's MAC holds beside registers (ch. 13): verify mPackets sent, whether a collision's back-off runs, its length
in slot times, the LFSR of the draw, and whether the link trained as SLAVE (R276). -/
structure PortSt where
  verifySent : Nat
  backoff : Bool
  slots : Nat
  lfsr : Nat
  slave : Bool
  deriving DecidableEq, Repr

/-- A port after a reset. -/
def PortSt.rst : PortSt := ⟨0, false, 0, 0, false⟩

/-- The configuration of a PCIe function (R333, R334, R337): Bus Master Enable, Memory Space Enable, MSI-X Enable, Function Mask,
D3hot, and the Completion Timeout Value. -/
structure FnSt where
  bme : Bool
  mse : Bool
  msix : Bool
  fmask : Bool
  d3 : Bool
  cto : Nat
  deriving DecidableEq, Repr

/-- A function whose configuration is at its reset values. -/
def FnSt.rst : FnSt := ⟨false, false, false, false, false, 0⟩

/-- A prefetched line (R343): whose read caused it, its region and 64-byte block, the words held (offset, value), the raw time its
data arrived, and whether it has served a read. -/
structure PLine where
  tag : Tag
  num : Nat
  region : Nat
  block : Nat
  words : List (Nat × Nat)
  at_ : Nat
  served : Bool
  deriving DecidableEq, Repr

/-- A posted-error record that waits (R347, R348): its bytes before LOST and after it. -/
structure PostErr where
  head : List Nat
  tail : List Nat
  deriving DecidableEq, Repr

/-- The Dowel bridge (ch. 16): functions, VF Enable, prefetched lines, unacknowledged failures (tag, cause) by drawer and source
kind with OVERFLOW and the latched DWL_FENCE_INFO, posted errors that wait and those dropped, vectors in service and pending
under a mask, the MSI-X table's entries and pending bits, guest interrupt files, the reservation of each hart (word address + 1). -/
structure DwlSt where
  fn : Store FnSt
  vfEn : Bool
  lines : List PLine
  unacked : Store (List (Nat × Nat))
  tooMany : Store Bool
  info : Store Nat
  perr : Store (List PostErr)
  perrLost : Store Nat
  inSvc : Store Bool
  held : Store Bool
  msix : Store (Nat × Nat × Bool)
  pba : Store Bool
  resv : Store Nat
  deriving DecidableEq, Repr

/-- The bridge after a reset. -/
def DwlSt.rst : DwlSt := ⟨[], false, [], [], [], [], [], [], [], [], [], [], []⟩

/-- A Till slot (R371): its attribute words and its key material. -/
structure SlotSt where
  w0 : Nat
  w1 : Nat
  w2 : Nat
  key : List Nat
  deriving DecidableEq, Repr

/-- An EMPTY slot. -/
def SlotSt.empty : SlotSt := ⟨0, 0, 0, []⟩

/-- The Till (ch. 18): slots, the command sets that wait at arbitration point 4 in the order they queued, the set whose command
runs, the current nonce with its raw time, the OWNER digest, a journaled intent, the random values drawn so far, RESULT and the bytes
written of the command that has run, and whether a WRLD reset waits for it to clear the secure set. -/
structure TilSt where
  slots : Store SlotSt
  queue : List Nat
  busy : Option Nat
  nonce : Option (List Nat × Nat)
  owner : List Nat
  intent : Option Nat
  draws : Nat
  result : Option (Nat × Nat)
  wrldPend : Bool
  deriving DecidableEq, Repr

/-- A staged session of an image kind (R405, R407): 0 NONE, 1 OPEN, 2 SEALED, its size, and its pages of 4 KiB. -/
structure SessSt where
  state : Nat
  size : Nat
  pages : Store (List Nat)
  deriving DecidableEq, Repr

/-- No session. -/
def SessSt.none_ : SessSt := ⟨0, 0, []⟩

/-- An update command (R404): its ring (256 for the mailbox), operation, header bytes and payload. -/
structure UpdCmd where
  ring : Nat
  op : Nat
  head : List Nat
  pay : List Nat
  deriving DecidableEq, Repr

/-- How a journaled copy ends (R409): whole; a page that reads back wrong; a staged page that cannot be read; or cut off by the loss
of VLOG before a page. -/
inductive CopyEnd
  | whole
  | mismatch (page : Nat)
  | unreadable (page : Nat)
  | cut (page : Nat)
  deriving DecidableEq, Repr

/-- Image update (ch. 20): sessions by kind, commands in the order they reached UPD (ring 257: its ring was disabled since), the status
of the first of them once it has run, the journaled copy (kind, target, next page), the preferred bank of each kind, the bank (+ 1) and
SEC_VERSION the current start took of each kind, and the pages of the two NAND secure banks. -/
structure UpdSt where
  sess : Store SessSt
  cmds : List UpdCmd
  ran : Option Nat
  journal : Option (Nat × Nat × Nat)
  pref : Store Nat
  took : Store (Nat × Nat)
  nand : Store (List Nat)
  deriving DecidableEq, Repr

/-- An interrupt file of an IMSIC (R228): whether it delivers, its threshold, and the identities enabled and pending, 1 to 255. -/
structure ImsicFile where
  delivery : Bool
  threshold : Nat
  enabled : BitVec 256
  pending : BitVec 256
  deriving DecidableEq, Repr

/-- A file after a reset. -/
def ImsicFile.rst : ImsicFile := ⟨false, 0, 0#256, 0#256⟩

/-- GEILEN (R228): the guest files of a hart. -/
def geilen : Nat := 7

/-- An application hart (ch. 11, 17): world, caller's mode, FORCED, return address, pc, privilege mode, V, hdrawer, the
integer and floating-point registers with fcsr, the entry snapshot, the counters and whether they stand, whether it runs, is
halted by debug, has a halt request pending, waits in reset, whether its call timer runs, the code of the last exception
raised in it, satp, vsatp and hgatp (R225), and its interrupt files (R228): the machine file, the supervisor file, guest files 1 to 7. -/
structure HartSt where
  w : Bool
  ppriv : Nat
  forced : Bool
  mwepc : Nat
  pc : Nat
  priv : Nat
  virt : Bool
  hdrawer : Nat
  x : List (BitVec 64)
  f : List (BitVec 64)
  fcsr : Nat
  snap : Option (List (BitVec 64) × List (BitVec 64) × Nat)
  counters : List (BitVec 64)
  counting : Bool
  inReset : Bool
  halted : Bool
  haltReq : Bool
  timing : Bool
  trap : Option Nat
  satp : BitVec 64
  vsatp : BitVec 64
  hgatp : BitVec 64
  imsic : List ImsicFile
  deriving DecidableEq, Repr

/-- A hart after SYS: secure, in M-mode with PPRIV 3 (R357), in reset until released (R225). -/
def HartSt.rst : HartSt :=
  ⟨true, 3, false, 0, 0, 3, false, 0, List.replicate 32 0#64, List.replicate 32 0#64, 0, none, List.replicate 31 0#64,
    false, true, false, false, false, none, 0#64, 0#64, 0#64, List.replicate (2 + geilen) ImsicFile.rst⟩

/-- What a hart's own instructions have made of it when it reaches one of the device's (log entry 29): pc, privilege mode, V, the
integer and floating-point registers with fcsr, in the secure world the PPRIV and mwepc its M-mode wrote (R357), satp, vsatp and hgatp
(R225), and its interrupt files (R228). -/
structure HartCtx where
  pc : BitVec 64
  priv : Fin 4
  virt : Bool
  x : List (BitVec 64)
  f : List (BitVec 64)
  fcsr : BitVec 8
  ppriv : Fin 4
  mwepc : BitVec 64
  satp : BitVec 64
  vsatp : BitVec 64
  hgatp : BitVec 64
  imsic : List ImsicFile
  deriving DecidableEq, Repr

/-- The world controller (ch. 17) beside its registers: whether the wipe of a WRLD reset runs. -/
structure WldSt where
  wiping : Bool
  deriving DecidableEq, Repr

/-- The instruction a debug single step retires (R369): an ordinary one with the pc after it, or one of the three of R358. -/
inductive StepKind
  | plain (pc : Nat)
  | wcall
  | gate (pa : Nat)
  | wret
  deriving DecidableEq, Repr

/-- A core: a hart or a Mitre core. -/
inductive DbgTarget
  | hart (h : Fin 6)
  | mitre (c : Fin 2)
  deriving DecidableEq, Repr

/-- Where a station message comes from (R188, R189): a port or a CAN controller, its number, and the sender's MAC address, or its CAN
identifier with IDE in bit 29. -/
structure StnFrom where
  eth : Bool
  unit : Fin 32
  addr : BitVec 48
  deriving DecidableEq, Repr

/-- What training came to (R275, R276): the port, and whether its partner takes the role SLAVE. -/
structure Trained where
  port : Fin 30
  slave : Bool
  deriving DecidableEq, Repr

/-- A Clamp rule, and the voltages of MI pins at that instant (R151). -/
structure RulePins where
  rule : Fin 64
  pins : PinMv
  deriving DecidableEq, Repr

/-- What the device holds for a mark line during the harness check (R67, R70): 0 unpowered, 1 waiting for its memory, 2 the header is
read, 3 the gap before the header is read again, 4 the gap before the body, 5 the body is read, 6 the gap before it is read again,
7 judged; whether the transaction under way is the second; the header's 16 bytes and the body. -/
structure MarkSt where
  stage : Nat
  again : Bool
  hdr : List Nat
  body : List Nat
  deriving DecidableEq, Repr

/-- A mark line without power. -/
def MarkSt.off : MarkSt := ⟨0, false, [], []⟩

/-- Supplies, starts and sleep (ch. 3): the phase (0 off, 1 a start before the Boot ROM, 2 the banks are checked, 3 from the image
taken to the end of the start, 4 running, 5 bare, 6 the power-fail sequence, 7 sleep entry, 8 sleep), the kind, CAUSE, HELD and FLUSH of
the start, the FLUSH the next one records, whether VLOG came back during the power-fail sequence, whether the recorder has been
restored, whether the compute die was off since the Clamp rules last ran, mark lines, the harness check's end, the channels it and
R72 block, RSTOUTN low, the wake held during sleep entry (kind, index, zone time), whether an armed wake source is active, whether CHOLD
is being charged (R50), and whether the image this start took has another structure hash than the one before (R134). -/
structure StartSt where
  phase : Nat
  por : Bool
  cause : Nat
  held : Bool
  flush : Nat
  flushNext : Nat
  vlogBack : Bool
  recUp : Bool
  wasOff : Bool
  marks : Store MarkSt
  checked : Bool
  blocked : List Nat
  rstLow : Bool
  wakeHeld : Option (Nat × Nat × Nat)
  wakeNow : Bool
  charging : Bool
  renewed : Bool
  deriving DecidableEq, Repr

/-- What a mark line shows when its memory should be ready (R70). -/
inductive MarkCond | absent | short | ok
  deriving DecidableEq, Repr

/-- Words the host answered: address / 8 and the 64-bit word (log entry 14). -/
abbrev HostMem := List (Nat × Nat)

/-- What a MAC makes of what it received: a frame with good or bad FCS, a failed reassembly, an unknown SMD, a symbol error. -/
inductive RxKind | good | badFcs | assyErr | smdErr | symErr | verify
  deriving DecidableEq, Repr

/-- What the host writes in configuration space or in an MSI-X table (R333, R334, R352). -/
inductive CfgWrite
  | bme (on : Bool)
  | mse (on : Bool)
  | msixEnable (on : Bool)
  | functionMask (on : Bool)
  | dState (hot : Bool)
  | completionTimeout (v : Fin 16)
  | vfEnable
  | msixEntry (v : Fin 64) (addr data : Nat) (masked : Bool)
  deriving DecidableEq, Repr

/-- A granule of memory (R231): of DRAM or of SRAM. -/
inductive Granule
  | dram (n : Fin 4096)
  | sram (n : Fin 768)
  deriving DecidableEq, Repr

/-- The condition of a Lathe operation (R166): always, P (the flag is 1) or PN (the flag is 0). -/
inductive OpCond | always | p | pn
  deriving DecidableEq, Repr

/-- The source B of a Lathe operation (R166): a slot number or an immediate value. -/
inductive OpSrc
  | slot (n : BitVec 14)
  | imm (v : BitVec 14)
  deriving DecidableEq, Repr

/-- What the scrubber finds at an SRAM word (R414): no error; one it corrects; one that is in error again after its write-back; or
one it cannot correct. -/
inductive ScrubFind | clean | corrected | again | bad
  deriving DecidableEq, Repr

/-- A time-gated list (R264): entry n of the gate table, or port p's Qbv list. -/
inductive ListRef
  | gate (n : Fin 128)
  | qbv (p : Fin 22)
  deriving DecidableEq, Repr

end Sys2Proof.Machine
end

