-- ==== Sys2Proof/Syntax.lean ====
section
/-! DEFINITION. The commands of the block, one constructor per row of spec/opcode_table.json. -/

namespace Sys2Proof
open Machine

/-- A command. -/
inductive Instr where
  /-- VLOG_VALID. VLOG is valid; `cut` says VLOG was lost again before the power-fail sequence had ended (R52, R54, R55). -/
  | vlogValid (cut : Bool)
  /-- RSTN_ASSERT. RSTN is held low for 1 µs (R55). -/
  | rstnAssert
  /-- RST_REQ_SYS. A write of FAB_RST_REQ with KIND SYS and the KEY (R55). -/
  | rstReqSys (m : Master)
  /-- RST_REQ_POR. A write of FAB_RST_REQ with KIND POR and the KEY (R55). -/
  | rstReqPor (m : Master)
  /-- PLL_LOSS. A PLL is out of lock for more than 10 µs (R31, R55). -/
  | pllLoss
  /-- BOOT_ROM_RUN. The Boot ROM runs; the operands say how a copy it makes of each kind ends (R59, R386, R408, R409). -/
  | bootRomRun (boot carcass secure : CopyEnd)
  /-- CARCASS_BANK_CHECKED. The check of one Carcass bank ends; `mv` holds the voltages of the MI pins then (R15, R141). -/
  | carcassBankChecked (mv : PinMv)
  /-- MI_START_TEST. The start test of MI pin p ends (R147). -/
  | miStartTest (p : Fin 128) (pass : Bool)
  /-- PORT_START_TEST. The loopback test of port p ends (R289). -/
  | portStartTest (p : Fin 30) (pass : Bool)
  /-- CAN_START_TEST. The loopback test of CAN controller k ends (R331). -/
  | canStartTest (k : Fin 16) (pass : Bool)
  /-- CORE_SELF_TEST. The self-test of core c ends (R413). -/
  | coreSelfTest (c : Fin 6) (pass : Bool)
  /-- SRAM_SELF_TEST. The self-test of SRAM unit u ends (R414). -/
  | sramSelfTest (u : Fin 48) (pass : Bool)
  /-- MARK_MEMORY_READY. Mark line n is judged 5 ms after idle, or the header READ starts (R70). -/
  | markMemoryReady (n : Fin 8) (c : MarkCond)
  /-- MARK_ANSWER. The answer to a READ on mark line n completes (R66, R67). -/
  | markAnswer (n : Fin 8) (bytes : List (BitVec 8)) (crc : BitVec 16)
  /-- MARK_PREAMBLE_TIMEOUT. No preamble begins within 200 µs (R67). -/
  | markPreambleTimeout (n : Fin 8)
  /-- MARK_IDLE_GAP_END. The 40 µs gap ends (R67). -/
  | markIdleGapEnd (n : Fin 8)
  /-- MARK_LINE_SHORT. A line shows SHORT during the reads (R70). -/
  | markLineShort (n : Fin 8)
  /-- MARK_LINE_LOST. The current of a monitored line is out of range for 10 ms (R72). -/
  | markLineLost (n : Fin 8)
  /-- START_END. The start ends (R60, R76, R132, R201). -/
  | startEnd
  /-- SECURE_IMAGE_UPDATE. The boot firmware updates the SECURE image; `e` says how the copy ends (R408). -/
  | secureImageUpdate (e : CopyEnd)
  /-- VLOG_FAIL. VLOG stays below the fail threshold (R52). -/
  | vlogFail
  /-- POWER_FAIL_DONE. The power-fail flush commits, and the dies power off (R52). -/
  | powerFailDone
  /-- CHOLD_OK_REACHED. CHOLD reaches CHOLD_OK (R50). -/
  | choldOkReached
  /-- FEED_LOSS. Feed f falls below 4.5 V (R51). -/
  | feedLoss (f : Fin 2)
  /-- FEED_RETURN. Feed f rises above 4.5 V (R454). -/
  | feedReturn (f : Fin 2)
  /-- DIE_RELOAD_DONE. Power-stage die b has been reloaded (R454). -/
  | dieReloadDone (b : Fin 4)
  /-- SLEEP_ENTER. A write of FAB_SLEEP_CTRL with ENTER and KEY; `wakeActive` says an armed wake source is active (R61). -/
  | sleepEnter (m : Master) (wakeActive : Bool)
  /-- SLEEP_POWER_OFF. Sleep entry ends, and the compute die powers off (R62). -/
  | sleepPowerOff
  /-- MI_WAKE_SAMPLE. The 2 ms sample of wake pin p, in mV (R63, R146). -/
  | miWakeSample (p : Fin 128) (mv : Nat)
  /-- WAKE_PIN. WAKE pin n is above 3.5 V for 32 µs (R63). -/
  | wakePin (n : Fin 4)
  /-- ISLAND_RESET. An ISL of island n, absorbed by a POR or SYS start (R57); `mv` and `dv` hold voltages of MI and DRV pins then (R10, R55, R154). -/
  | islandReset (n : Fin 41) (mv : PinMv) (dv : List (Fin 16 × Nat))
  /-- REGISTER_WRITE. A write at an address (R8, R36). -/
  | registerWrite (m : Master) (addr : BitVec 40) (size : Fin 9) (data : BitVec 64)
  /-- ARBITRATION_GRANT. Arbitration point k grants one claim; point 4 grants among the Till's queued commands (R40, R376). -/
  | arbitrationGrant (k : Fin 12) (claims : List Claim)
  /-- ISL_REQ_ON. A write of FAB_ISL_REQ_n with ON (R44). -/
  | islReqOn (m : Master) (n : Fin 41)
  /-- ISL_REQ_CLOCK_GATE. A write of FAB_ISL_REQ_n with CLOCK_GATE (R44). -/
  | islReqClockGate (m : Master) (n : Fin 41)
  /-- ISL_REQ_POWER_OFF. A write of FAB_ISL_REQ_n with POWER_OFF (R44). -/
  | islReqPowerOff (m : Master) (n : Fin 41)
  /-- ISLAND_DRAIN_END. No transfer of island n is outstanding (R44). -/
  | islandDrainEnd (n : Fin 41)
  /-- CLAIM_BOUND_EXPIRY. The claim bound of island n expires (R45). -/
  | claimBoundExpiry (n : Fin 41)
  /-- ISLAND_WIPE_END. The wipe of island n ends (R46, R47). -/
  | islandWipeEnd (n : Fin 41)
  /-- ISLAND_WAKE_END. The wake time of island n passes, the MI pins at `mv` and the DRV pins at `dv`, which an ISL reset of INP reads (R44). -/
  | islandWakeEnd (n : Fin 41) (mv : PinMv) (dv : List (Fin 16 × Nat))
  /-- CLAIM_INC. A write of FAB_CLAIM_n with INC (R44). -/
  | claimInc (m : Master) (n : Fin 41)
  /-- CLAIM_DEC. A write of FAB_CLAIM_n with DEC (R44). -/
  | claimDec (m : Master) (n : Fin 41)
  /-- MOVE. A write of DRW_MOVE_CTRL with GO; DRW_MOVE_ARG holds FIRST and COUNT (R77). -/
  | move (m : Master) (cls : Fin 8) (src dst : Fin 32)
  /-- MOVE_COMMIT. The accepted move commits (R78). -/
  | moveCommit
  /-- MOVE_DONE. No access checked under the old owner remains (R78). -/
  | moveDone
  /-- FEATURE_COMMIT. A write of DRW_FEAT_CTRL with COMMIT through the view of drawer d (R81). -/
  | featureCommit (m : Master) (d : Fin 16)
  /-- DRW_RST_REQ_DRAIN. A write of DRW_RST_REQ with MODE drain (R91). -/
  | drwRstReqDrain (m : Master) (d : Fin 16)
  /-- DRW_RST_REQ_SQUASH. A write of DRW_RST_REQ with MODE squash (R91). -/
  | drwRstReqSquash (m : Master) (d : Fin 16)
  /-- DRW_RST_DRAIN. A write of DRW_RST with MODE drain through the view of drawer d (R91). -/
  | drwRstDrain (m : Master) (d : Fin 16)
  /-- DRW_RST_SQUASH. A write of DRW_RST with MODE squash through the view of drawer d (R91). -/
  | drwRstSquash (m : Master) (d : Fin 16)
  /-- DRAIN_ESCALATION. The drain of drawer d still runs after 1 ms (R91). -/
  | drainEscalation (d : Fin 16)
  /-- DRAWER_RESET_COMPLETE. Nothing of drawer d is outstanding (R93). -/
  | drawerResetComplete (d : Fin 16)
  /-- RING_TAIL_WRITE. A write of RING_TAIL_r (R83). -/
  | ringTailWrite (m : Master) (v : Option (Fin 16)) (r : Fin 256) (tail : BitVec 16)
  /-- RING_ENABLE. A write of RING_CTRL_r with ENABLE = 1 (R84). -/
  | ringEnable (m : Master) (v : Option (Fin 16)) (r : Fin 256)
  /-- RING_DISABLE. A write of RING_CTRL_r with ENABLE = 0 (R85). -/
  | ringDisable (m : Master) (v : Option (Fin 16)) (r : Fin 256)
  /-- RING_RESUME. A write of RING_CTRL_r with ENABLE = 1 and RESUME (R238). -/
  | ringResume (m : Master) (v : Option (Fin 16)) (r : Fin 256)
  /-- DESCRIPTOR_FETCH. The data of the descriptor at HEAD arrives; `h` holds the words host memory answers (R86). -/
  | descriptorFetch (r : Fin 256) (h : HostMem)
  /-- UNIT_COMMIT. The next unit of ring r commits (R236). -/
  | unitCommit (r : Fin 256) (h : HostMem)
  /-- DESCRIPTOR_COMPLETE. The writeback of ring r is written (R86). -/
  | descriptorComplete (r : Fin 256)
  /-- TRANSLATION_WALK_DONE. A walk for an input page of drawer d ends (R233). -/
  | translationWalkDone (d : Fin 16) (sec : Bool) (h : HostMem) (va : BitVec 64) (wr : Bool)
  /-- RING_FAULT. The first fault of ring r's accesses takes effect (R237). -/
  | ringFault (r : Fin 256) (h : HostMem)
  /-- FAULT_POP. A write of DRW_FAULT_STAT with POP through the view of drawer d (R90). -/
  | faultPop (m : Master) (d : Fin 16)
  /-- FAULT_HEAD_READ. A read of DRW_FAULT_HEAD0 through the view of drawer d (R90). -/
  | faultHeadRead (m : Master) (d : Fin 16)
  /-- RX_HOLD_EXPIRY. HOLD_MS passes for a FAULTED ETH_RX ring (R240). -/
  | rxHoldExpiry (r : Fin 256)
  /-- ETH_TX_CELL_READ. An ETH_TX ring reads its next cell (R250). -/
  | ethTxCellRead (r : Fin 256)
  /-- GRANULE_WRITE. A write of a granule entry (R231). -/
  | granuleWrite (m : Master) (g : Granule) (w : BitVec 32)
  /-- INVAL_ALL. A write of IOM_INVAL with GO and scope 0 (R234). -/
  | invalAll (m : Master)
  /-- INVAL_DRAWER. A write of IOM_INVAL with GO and scope 1 (R234). -/
  | invalDrawer (m : Master) (d : Fin 16)
  /-- INVAL_PAGE. A write of IOM_INVAL with GO and scope 2; IOM_INVAL_ADDR holds the page (R234). -/
  | invalPage (m : Master) (d : Fin 16)
  /-- INVAL_STAGE1. A write of IOM_INVAL with GO and scope 3 (R234). -/
  | invalStage1 (m : Master) (d : Fin 16)
  /-- S1INVAL. A write of IOM_S1INVAL with GO through the view of drawer d (R234). -/
  | s1inval (m : Master) (d : Fin 16)
  /-- INVAL_DONE. The keeper's invalidation ends, or that of drawer `who` (R234). -/
  | invalDone (who : Option (Fin 16))
  /-- DIRTY_SWAP. A write of IOM_DIRTY_CTRL with SWAP (R243). -/
  | dirtySwap (m : Master) (d : Fin 16)
  /-- DIRTY_SWAP_DONE. The old half has been written (R243). -/
  | dirtySwapDone (d : Fin 16)
  /-- LCH_CMD_ON. A write of LCH_CMD_c with ON (R98). -/
  | lchCmdOn (m : Master) (v : Option (Fin 16)) (c : Fin 96) (on : Bool)
  /-- REARM. A write of LCH_CMD_c with REARM, and ON as given (R126). -/
  | rearm (m : Master) (v : Option (Fin 16)) (c : Fin 96) (on : Bool)
  /-- SLEW_END. The slew phase of channel c ends (R103). -/
  | slewEnd (c : Fin 96)
  /-- INRUSH_WINDOW_END. The inrush window of channel c ends (R103). -/
  | inrushWindowEnd (c : Fin 96)
  /-- EDGE_COMPLETE. An edge of channel c reaches its full level (R104). -/
  | edgeComplete (c : Fin 96)
  /-- ACTIVATION_GAP_END. The high side of channel c has been open for longer than the gap (R103). -/
  | activationGapEnd (c : Fin 96)
  /-- PWM_PERIOD_START. A period of PWM unit k starts (R99). -/
  | pwmPeriodStart (k : Fin 32)
  /-- PWM_DUTY_END. The on-time of a period of PWM unit k ends (R99). -/
  | pwmDutyEnd (k : Fin 32)
  /-- DRV_LEVEL_CHANGE. A DRV pin has held a level for 200 ns, at `mv` (R148). -/
  | drvLevelChange (p : Fin 16) (mv : Nat)
  /-- OC_WARN_CHANGE. The 1 ms mean crosses 0.9 or 0.85 × I_LIM (R106). -/
  | ocWarnChange (c : Fin 96) (above : Bool)
  /-- OC_TRIP. 20 of the last 25 counted samples exceed I_LIM (R107, R110). -/
  | ocTrip (c : Fin 96)
  /-- SHORT_FAST. The current is above the short threshold (R108, R110). -/
  | shortFast (c : Fin 96)
  /-- SEG_SHARE_TRIP. A segment of a gang exceeds 1.5 × its rating (R109). -/
  | segShareTrip (c : Fin 96)
  /-- TEMP_WARN_CHANGE. A segment reaches 150 °C, or all are below 145 °C (R111). -/
  | tempWarnChange (c : Fin 96) (hot : Bool)
  /-- TEMP_LATCH. A segment reaches 170 °C (R111). -/
  | tempLatch (c : Fin 96)
  /-- TEMP_LATCH_RELEASE. All segments are below 140 °C (R111). -/
  | tempLatchRelease (c : Fin 96)
  /-- WIRE_MODEL_STEP. The 1 ms step of the wire model, with the mean of I² in mA² (R112). -/
  | wireModelStep (c : Fin 96) (meanI2 : Nat)
  /-- OPEN_LOAD_ONSTATE. 10 ms of on-time below, or at or above, I_OPEN (R115). -/
  | openLoadOnstate (c : Fin 96) (below : Bool)
  /-- OFF_STATE_CHECK_TICK. The 100 ms tick of die b; `l` are the channels open for at least 10 ms (R116). -/
  | offStateCheckTick (b : Fin 4) (l : List (Fin 96))
  /-- OFF_STATE_SHORT_SAMPLE. Step 1 samples the output (R116). -/
  | offStateShortSample (c : Fin 96) (high : Bool)
  /-- OFF_STATE_OPEN_SAMPLE. Step 2 samples the output (R116). -/
  | offStateOpenSample (c : Fin 96) (high : Bool)
  /-- RESTART. The restart delay of a WAITING channel has elapsed (R123). -/
  | restart (c : Fin 96)
  /-- EPISODE_CLOSE. QUIET_TIME reaches RETRY_WINDOW (R122). -/
  | episodeClose (c : Fin 96)
  /-- RETIREMENT_RECORD. A classified retirement is written into eMRAM (R416). -/
  | retirementRecord (kind : Fin 7) (unit : Fin 128)
  /-- HOLD_MS_EXPIRY. A KEEP_FOR time runs out (R130). -/
  | holdMsExpiry (c : Fin 96)
  /-- FEED_MEAN. The 100 µs mean of feed f in mA (R136). -/
  | feedMean (f : Fin 2) (mean : Nat)
  /-- SHED_STEP. A shed step after 20 OVER means, with the channels' 1 ms means in mA (R137). -/
  | shedStep (f : Fin 2) (means : List (Fin 96 × Nat))
  /-- RESTORE. A restore after 5000 low means (R138). -/
  | restore (f : Fin 2)
  /-- CLAMP_RESULT_TRUE. The result of rule r goes true, with the MI pins at `mv` (R150). -/
  | clampResultTrue (r : Fin 64) (mv : PinMv)
  /-- CLAMP_RESULT_FALSE. The result of rule r goes false, with the MI pins at `mv` (R150). -/
  | clampResultFalse (r : Fin 64) (mv : PinMv)
  /-- CLAMP_ACK. A write of CLP_ACK with ACK for a rule, with the MI pins as they are in that cycle (R151). -/
  | clampAck (m : Master) (x : RulePins)
  /-- MI_LEVEL_CHANGE. The comparator of a DIGITAL pin has held for FILTER µs, the pin standing at `mv` (R141, R142). -/
  | miLevelChange (p : Fin 128) (mv : Nat)
  /-- ANALOG_CONVERSION. A conversion of an analog or resistive pin ends; `comp` says the pin stood at the compliance voltage (R143, R144). -/
  | analogConversion (p : Fin 128) (code : BitVec 12) (comp : Bool)
  /-- FREQ_RISING_EDGE. An accepted rising edge, `ticks` of 10 ns after the previous one (R145). -/
  | freqRisingEdge (p : Fin 128) (ticks : BitVec 32)
  /-- FREQ_STALL. No accepted rising edge for 2 s (R145). -/
  | freqStall (p : Fin 128)
  /-- TASK_RELEASE. Cyclic task k reaches its release instant (R171). -/
  | taskRelease (k : Fin 8)
  /-- LATCH_COMPLETE. The latch of task k completes (R173). -/
  | latchComplete (k : Fin 9)
  /-- INSTANCE_LIMIT. The instance on lane l reaches 32,768 cycles of its own (R174). -/
  | instanceLimit (l : Fin 2)
  /-- COMMIT. The oldest commit ends; `resp` is its task's response time in 10 ns (R175). -/
  | commit (resp : BitVec 24)
  /-- ERROR_TASK_RELEASE. The error task is released (R178). -/
  | errorTaskRelease
  /-- LTH_ERR_POP. A write of LTH_ERR_STAT with POP (R178). -/
  | lthErrPop (m : Master)
  /-- TASK_START. A write of LTH_TASK_CTRL_k with START (R177). -/
  | taskStart (m : Master) (v : Option (Fin 16)) (k : Fin 9)
  /-- LATHE_STOP. A write of LTH_CTRL with STOP (R182). -/
  | latheStop (m : Master)
  /-- LATHE_RUN_WARM. A write of LTH_CTRL with RUN_WARM (R182). -/
  | latheRunWarm (m : Master)
  /-- LATHE_RUN_COLD. A write of LTH_CTRL with RUN_COLD (R182). -/
  | latheRunCold (m : Master)
  /-- LATHE_INIT_END. The initialisation of a restart ends (R180). -/
  | latheInitEnd
  /-- RETENTIVE_SAVE_DONE. A save commits its journal marker (R181). -/
  | retentiveSaveDone
  /-- LATHE_RELOAD_DONE. The program is reloaded after an ISL of LTH (R183). -/
  | latheReloadDone
  /-- SLOT_DATA_READ. A read of LTH_SLOT_DATA (R158). -/
  | slotDataRead (m : Master) (v : Option (Fin 16))
  /-- NOP. Nothing; one cycle (R166). -/
  | opNop (l : Fin 2)
  /-- MOV. D ← B (R166). -/
  | opMov (l : Fin 2) (c : OpCond) (d : BitVec 14) (b : OpSrc)
  /-- LDB. F ← A[BIT] (R166). -/
  | opLdb (l : Fin 2) (c : OpCond) (a : BitVec 14) (bit : BitVec 5)
  /-- LDBN. F ← ¬A[BIT] (R166). -/
  | opLdbn (l : Fin 2) (c : OpCond) (a : BitVec 14) (bit : BitVec 5)
  /-- ANDB. F ← F ∧ A[BIT] (R166). -/
  | opAndb (l : Fin 2) (c : OpCond) (a : BitVec 14) (bit : BitVec 5)
  /-- ANDBN. F ← F ∧ ¬A[BIT] (R166). -/
  | opAndbn (l : Fin 2) (c : OpCond) (a : BitVec 14) (bit : BitVec 5)
  /-- ORB. F ← F ∨ A[BIT] (R166). -/
  | opOrb (l : Fin 2) (c : OpCond) (a : BitVec 14) (bit : BitVec 5)
  /-- ORBN. F ← F ∨ ¬A[BIT] (R166). -/
  | opOrbn (l : Fin 2) (c : OpCond) (a : BitVec 14) (bit : BitVec 5)
  /-- XORB. F ← F ⊕ A[BIT] (R166). -/
  | opXorb (l : Fin 2) (c : OpCond) (a : BitVec 14) (bit : BitVec 5)
  /-- STB. D[BIT] ← F (R166). -/
  | opStb (l : Fin 2) (c : OpCond) (d : BitVec 14) (bit : BitVec 5)
  /-- STBN. D[BIT] ← ¬F (R166). -/
  | opStbn (l : Fin 2) (c : OpCond) (d : BitVec 14) (bit : BitVec 5)
  /-- SETB. If F, D[BIT] ← 1 (R166). -/
  | opSetb (l : Fin 2) (c : OpCond) (d : BitVec 14) (bit : BitVec 5)
  /-- RSTB. If F, D[BIT] ← 0 (R166). -/
  | opRstb (l : Fin 2) (c : OpCond) (d : BitVec 14) (bit : BitVec 5)
  /-- NOTF. F ← ¬F (R166). -/
  | opNotf (l : Fin 2) (c : OpCond)
  /-- LDF. F ← (A ≠ 0) (R166). -/
  | opLdf (l : Fin 2) (c : OpCond) (a : BitVec 14)
  /-- STF. D ← F (R166). -/
  | opStf (l : Fin 2) (c : OpCond) (d : BitVec 14)
  /-- ADD. D ← A + B modulo 2³² (R166). -/
  | opAdd (l : Fin 2) (c : OpCond) (d a : BitVec 14) (b : OpSrc)
  /-- SUB. D ← A − B modulo 2³² (R166). -/
  | opSub (l : Fin 2) (c : OpCond) (d a : BitVec 14) (b : OpSrc)
  /-- MUL. D ← low 32 bits of A × B (R166). -/
  | opMul (l : Fin 2) (c : OpCond) (d a : BitVec 14) (b : OpSrc)
  /-- DIV. D ← A / B, signed, truncated toward zero (R166, R167). -/
  | opDiv (l : Fin 2) (c : OpCond) (d a : BitVec 14) (b : OpSrc)
  /-- MOD. D ← A − (A / B) × B (R166, R167). -/
  | opMod (l : Fin 2) (c : OpCond) (d a : BitVec 14) (b : OpSrc)
  /-- AND. D ← bitwise and of A and B (R166). -/
  | opAnd (l : Fin 2) (c : OpCond) (d a : BitVec 14) (b : OpSrc)
  /-- OR. D ← bitwise or of A and B (R166). -/
  | opOr (l : Fin 2) (c : OpCond) (d a : BitVec 14) (b : OpSrc)
  /-- XOR. D ← bitwise exclusive or of A and B (R166). -/
  | opXor (l : Fin 2) (c : OpCond) (d a : BitVec 14) (b : OpSrc)
  /-- NOT. D ← bitwise ¬A (R166). -/
  | opNot (l : Fin 2) (c : OpCond) (d a : BitVec 14)
  /-- SHL. D ← A shifted left by B mod 32 (R166). -/
  | opShl (l : Fin 2) (c : OpCond) (d a : BitVec 14) (b : OpSrc)
  /-- SHR. D ← A shifted right logically by B mod 32 (R166). -/
  | opShr (l : Fin 2) (c : OpCond) (d a : BitVec 14) (b : OpSrc)
  /-- SAR. D ← A shifted right arithmetically by B mod 32 (R166). -/
  | opSar (l : Fin 2) (c : OpCond) (d a : BitVec 14) (b : OpSrc)
  /-- ROL. D ← A rotated left by B mod 32 (R166). -/
  | opRol (l : Fin 2) (c : OpCond) (d a : BitVec 14) (b : OpSrc)
  /-- MIN. D ← the signed minimum of A and B (R166). -/
  | opMin (l : Fin 2) (c : OpCond) (d a : BitVec 14) (b : OpSrc)
  /-- MAX. D ← the signed maximum of A and B (R166). -/
  | opMax (l : Fin 2) (c : OpCond) (d a : BitVec 14) (b : OpSrc)
  /-- LIMIT. D ← min(max(D, A), B), signed (R166). -/
  | opLimit (l : Fin 2) (c : OpCond) (d a : BitVec 14) (b : OpSrc)
  /-- EQ. F ← (A = B) (R166). -/
  | opEq (l : Fin 2) (c : OpCond) (a : BitVec 14) (b : OpSrc)
  /-- NE. F ← (A ≠ B) (R166). -/
  | opNe (l : Fin 2) (c : OpCond) (a : BitVec 14) (b : OpSrc)
  /-- LT. F ← (A < B, signed) (R166). -/
  | opLt (l : Fin 2) (c : OpCond) (a : BitVec 14) (b : OpSrc)
  /-- LE. F ← (A ≤ B, signed) (R166). -/
  | opLe (l : Fin 2) (c : OpCond) (a : BitVec 14) (b : OpSrc)
  /-- GT. F ← (A > B, signed) (R166). -/
  | opGt (l : Fin 2) (c : OpCond) (a : BitVec 14) (b : OpSrc)
  /-- GE. F ← (A ≥ B, signed) (R166). -/
  | opGe (l : Fin 2) (c : OpCond) (a : BitVec 14) (b : OpSrc)
  /-- LTU. F ← (A < B, unsigned) (R166). -/
  | opLtu (l : Fin 2) (c : OpCond) (a : BitVec 14) (b : OpSrc)
  /-- GEU. F ← (A ≥ B, unsigned) (R166). -/
  | opGeu (l : Fin 2) (c : OpCond) (a : BitVec 14) (b : OpSrc)
  /-- FADD. D ← the binary32 sum (R166, R167). -/
  | opFadd (l : Fin 2) (c : OpCond) (d a : BitVec 14) (b : OpSrc)
  /-- FSUB. D ← the binary32 difference (R166, R167). -/
  | opFsub (l : Fin 2) (c : OpCond) (d a : BitVec 14) (b : OpSrc)
  /-- FMUL. D ← the binary32 product (R166, R167). -/
  | opFmul (l : Fin 2) (c : OpCond) (d a : BitVec 14) (b : OpSrc)
  /-- FDIV. D ← the binary32 quotient (R166, R167). -/
  | opFdiv (l : Fin 2) (c : OpCond) (d a : BitVec 14) (b : OpSrc)
  /-- FSQRT. D ← the binary32 square root of A (R166, R167). -/
  | opFsqrt (l : Fin 2) (c : OpCond) (d a : BitVec 14)
  /-- FMIN. D ← the binary32 minimum (R166). -/
  | opFmin (l : Fin 2) (c : OpCond) (d a : BitVec 14) (b : OpSrc)
  /-- FMAX. D ← the binary32 maximum (R166). -/
  | opFmax (l : Fin 2) (c : OpCond) (d a : BitVec 14) (b : OpSrc)
  /-- FABS. D ← A with its sign bit clear (R166). -/
  | opFabs (l : Fin 2) (c : OpCond) (d a : BitVec 14)
  /-- FNEG. D ← A with its sign bit inverted (R166). -/
  | opFneg (l : Fin 2) (c : OpCond) (d a : BitVec 14)
  /-- FLT. F ← (A < B) in binary32 (R166). -/
  | opFlt (l : Fin 2) (c : OpCond) (a : BitVec 14) (b : OpSrc)
  /-- FLE. F ← (A ≤ B) in binary32 (R166). -/
  | opFle (l : Fin 2) (c : OpCond) (a : BitVec 14) (b : OpSrc)
  /-- FEQ. F ← (A = B) in binary32 (R166). -/
  | opFeq (l : Fin 2) (c : OpCond) (a : BitVec 14) (b : OpSrc)
  /-- ITOF. D ← A, a signed integer, as binary32 (R166). -/
  | opItof (l : Fin 2) (c : OpCond) (d a : BitVec 14)
  /-- FTOI. D ← A, binary32, as a signed integer (R166, R167). -/
  | opFtoi (l : Fin 2) (c : OpCond) (d a : BitVec 14)
  /-- SEL. D ← F ? B : A (R166). -/
  | opSel (l : Fin 2) (c : OpCond) (d a : BitVec 14) (b : OpSrc)
  /-- LDX. D ← slot (A + B) (R166, R167). -/
  | opLdx (l : Fin 2) (c : OpCond) (d a : BitVec 14) (b : OpSrc)
  /-- STX. Slot (A + B) ← D (R166, R167). -/
  | opStx (l : Fin 2) (c : OpCond) (d a : BitVec 14) (b : OpSrc)
  /-- REDGE. F ← F ∧ ¬D[0], D[0] ← F (R168). -/
  | opRedge (l : Fin 2) (d : BitVec 14)
  /-- FEDGE. F ← ¬F ∧ D[0], D[0] ← F (R168). -/
  | opFedge (l : Fin 2) (d : BitVec 14)
  /-- TON. An on-delay timer (R169). -/
  | opTon (l : Fin 2) (d a : BitVec 14)
  /-- TOF. An off-delay timer (R169). -/
  | opTof (l : Fin 2) (d a : BitVec 14)
  /-- TP. A pulse timer (R169). -/
  | opTp (l : Fin 2) (d a : BitVec 14)
  /-- CTU. An up-counter (R170). -/
  | opCtu (l : Fin 2) (d a : BitVec 14)
  /-- CTD. A down-counter (R170). -/
  | opCtd (l : Fin 2) (d a : BitVec 14)
  /-- CLOAD. If F, D+1 ← A (R166). -/
  | opCload (l : Fin 2) (d a : BitVec 14)
  /-- JMP. Continue at T (R166). -/
  | opJmp (l : Fin 2) (t : BitVec 16)
  /-- JF. Continue at T when F = 1 (R166). -/
  | opJf (l : Fin 2) (t : BitVec 16)
  /-- JNF. Continue at T when F = 0 (R166). -/
  | opJnf (l : Fin 2) (t : BitVec 16)
  /-- CALL. Push the next operation and continue at T (R166, R167; log entry 22). -/
  | opCall (l : Fin 2) (t : BitVec 16)
  /-- RET. Continue at the popped operation, or end the execute phase (R166, R167). -/
  | opRet (l : Fin 2)
  /-- END. End of the execute phase (R174). -/
  | opEnd (l : Fin 2)
  /-- RDTB. D ← low 32 bits of the timebase at the release (R166). -/
  | opRdtb (l : Fin 2) (c : OpCond) (d : BitVec 14)
  /-- RDZT. D ← zone time in ns at the release, D+1 ← its epoch (R166). -/
  | opRdzt (l : Fin 2) (c : OpCond) (d : BitVec 14)
  /-- TRAP. Queues an error record with cause TRAP (R166, R178). -/
  | opTrap (l : Fin 2) (c : OpCond) (b : OpSrc)
  /-- STATION_IN. A station message arrives from an address on a CAN controller or at a port (R189). -/
  | stationIn (x : StnFrom) (pdu : List (BitVec 8))
  /-- STATION_ALLOWANCE_EXPIRY. ALLOW_US passes without a valid IN of station n (R192). -/
  | stationAllowanceExpiry (n : Fin 64)
  /-- STATION_SYNC_TIMEOUT. TIMEOUT_US passes after the SYNC of task k (R194). -/
  | stationSyncTimeout (k : Fin 8)
  /-- CHG_ITEM. A write of LTH_CHG_ITEM (R195). -/
  | chgItem (m : Master) (v : Option (Fin 16)) (sid : BitVec 32)
  /-- CHG_COMMIT. A write of LTH_CHG_CTRL with COMMIT (R196). -/
  | chgCommit (m : Master) (v : Option (Fin 16))
  /-- CHG_CLEAR. A write of LTH_CHG_CTRL with CLEAR (R195). -/
  | chgClear (m : Master) (v : Option (Fin 16))
  /-- CHANGE_APPLY. The instant of a waiting transaction comes, forces first (R197, R200). -/
  | changeApply
  /-- CHANGE_TIMEOUT. A waiting transaction has found no instant within 100 ms (R197). -/
  | changeTimeout (v : Option (Fin 16))
  /-- FORCE_SET. A write of LTH_FRC_CTRL with SET (R200). -/
  | forceSet (m : Master) (v : Option (Fin 16))
  /-- FORCE_RELEASE. A write of LTH_FRC_CTRL with RELEASE (R200). -/
  | forceRelease (m : Master) (v : Option (Fin 16))
  /-- FORCE_RELEASE_ALL. A write of LTH_FRC_CTRL with RELEASE_ALL (R200). -/
  | forceReleaseAll (m : Master) (v : Option (Fin 16))
  /-- FORCE_APPLY. The instant of a force request comes (R200). -/
  | forceApply
  /-- MITRE_RUN. A write of MTR_CTRL with RUN; CORES as given (R221). -/
  | mitreRun (m : Master) (cores : Fin 4)
  /-- MITRE_HALT. A write of MTR_CTRL with HALT (R221). -/
  | mitreHalt (m : Master) (cores : Fin 4)
  /-- MITRE_TEST. A write of MTR_CTRL with TEST (R221). -/
  | mitreTest (m : Master)
  /-- MITRE_CLEAR. A write of MTR_CTRL with CLEAR (R221). -/
  | mitreClear (m : Master)
  /-- MITRE_SELF_TEST. The self-test ends: the lanes that failed, and whether the signature register did (R219). -/
  | mitreSelfTest (lanes : BitVec 32) (sigFail : Bool)
  /-- COPY_A_END. Copy A reaches a slice end with record `r` (R204). -/
  | copyAEnd (r : CopyRec)
  /-- COPY_B_END. Copy B ends with record `r`, and the compare decides (R211). -/
  | copyBEnd (r : CopyRec)
  /-- COPY_C_END. Copy C ends with record `r`, and the majority decides (R212). -/
  | copyCEnd (r : CopyRec)
  /-- RESYNC_END. Resynchronisation of the odd copy ends (R213). -/
  | resyncEnd
  /-- DOORBELL. A write of MTR_DOORBELL with RING (R224). -/
  | doorbell (m : Master)
  /-- LMEM_DATA_ACCESS. A write, or a read, of MTR_LMEM_DATA (R208). -/
  | lmemDataAccess (m : Master) (data : Option (BitVec 32))
  /-- SWITCH_FRAME_ARRIVAL. The first frame waiting at ingress port p enters the switch (R252). -/
  | switchFrameArrival (p : Fin 37)
  /-- EGRESS_SELECT. Port p picks its next frame; `sent` bytes of the frame it sends have left, and `deferred` says the medium was busy (R263, R279). -/
  | egressSelect (p : Fin 37) (sent : Nat) (deferred : Bool)
  /-- EGRESS_DONE. The last bit of a copy leaves port p; `c` is its class at a host port (R246). -/
  | egressDone (p : Fin 37) (c : Fin 8)
  /-- LAUNCH_TIME. The launch time of the frame at the head of queue q is reached (R300). -/
  | launchTime (q : Fin 296)
  /-- FDB_AGING_SCAN. An aging scan (R256). -/
  | fdbAgingScan
  /-- FDB_LOOKUP. A write of DVT_FDB_CTRL with LOOKUP (R257). -/
  | fdbLookup (m : Master)
  /-- FDB_ADD_STATIC. A write of DVT_FDB_CTRL with ADD_STATIC (R257). -/
  | fdbAddStatic (m : Master)
  /-- FDB_DELETE. A write of DVT_FDB_CTRL with DELETE (R257). -/
  | fdbDelete (m : Master)
  /-- FDB_FLUSH_PORT. A write of DVT_FDB_CTRL with FLUSH_PORT (R257). -/
  | fdbFlushPort (m : Master)
  /-- FDB_FLUSH_ALL. A write of DVT_FDB_CTRL with FLUSH_ALL (R257). -/
  | fdbFlushAll (m : Master)
  /-- TBL_LOAD. A write of DVT_TBL_CTRL with LOAD (R272). -/
  | tblLoad (m : Master)
  /-- TBL_COMMIT. A write of DVT_TBL_CTRL with COMMIT (R272). -/
  | tblCommit (m : Master)
  /-- TBL_DATA_ACCESS. A write, or a read, of DVT_TBL_DATA (R272). -/
  | tblDataAccess (m : Master) (data : Option (BitVec 32))
  /-- CBS_IDLE_SLOPE_WRITE. A write of DVT_QCBS_q (R266). -/
  | cbsIdleSlopeWrite (m : Master) (q : Fin 296) (v : BitVec 32)
  /-- GATE_CYCLE_START. A list reaches a cycle start; `newList` says that it is that of a pending list (R264). -/
  | gateCycleStart (l : ListRef) (newList : Bool)
  /-- GATE_ENTRY_END. The interval of a list entry ends (R264). -/
  | gateEntryEnd (l : ListRef)
  /-- FRER_RESET_TIMEOUT. The reset timeout of FRER_REC entry n expires (R262). -/
  | frerResetTimeout (n : Fin 64)
  /-- CAPTURE_BUFFER_TIMEOUT. 1 ms after the first record of ring r's capture buffer (R270). -/
  | captureBufferTimeout (r : Fin 256)
  /-- PORT_LINK_ENABLE. A write of EPT_PCFG_p with LINK_EN = 1, its other fields from `w` (R275). -/
  | portLinkEnable (m : Master) (p : Fin 30) (w : BitVec 32)
  /-- PORT_LINK_DISABLE. A write of EPT_PCFG_p with LINK_EN = 0 (R275). -/
  | portLinkDisable (m : Master) (p : Fin 30) (w : BitVec 32)
  /-- RETRAIN. A write of EPT_PCFG_p with RETRAIN (R275). -/
  | retrain (m : Master) (p : Fin 30) (w : BitVec 32)
  /-- TRAINING_COMPLETE. Training of a port with a ready partner reaches its end (R275); only opposite roles complete (R276). -/
  | trainingComplete (x : Trained)
  /-- TRAINING_TIME_LIMIT. Training of port p passes its time limit and restarts: the port stays in TRAINING (R275). -/
  | trainingTimeLimit (p : Fin 30)
  /-- LINK_LOSS. The link of port p fails (R275). -/
  | linkLoss (p : Fin 30)
  /-- MAC_RX_FRAME. A frame, without its FCS, is received whole; `frags` counts its fragments when it was preempted (R274). -/
  | macRxFrame (p : Fin 30) (bytes : List (BitVec 8)) (kind : RxKind) (frags : Nat)
  /-- PAUSE_RECEIVED. A PAUSE frame is received (R280). -/
  | pauseReceived (p : Fin 30) (quanta : BitVec 16)
  /-- PAUSE_EXPIRY. The pause in force expires (R281). -/
  | pauseExpiry (p : Fin 30)
  /-- PAUSE_WATCHDOG. A continuous pause lasts PAUSE_WD_MS (R281). -/
  | pauseWatchdog (p : Fin 30)
  /-- PMAC_WRITE. A write of EPT_PMAC_p (R278). -/
  | pmacWrite (m : Master) (p : Fin 30) (w : BitVec 32)
  /-- VERIFY_TIMER. VERIFY_MS passes without a response (R278). -/
  | verifyTimer (p : Fin 30)
  /-- RESPOND_MPACKET. A valid respond mPacket arrives (R278). -/
  | respondMpacket (p : Fin 30)
  /-- COLLISION. A collision on a 10BASE-T1S port (R282). -/
  | collision (p : Fin 30) (late : Bool)
  /-- BACKOFF_EXPIRY. The back-off ends (R282). -/
  | backoffExpiry (p : Fin 30)
  /-- SA_INSTALL. A write of MSC_SA_CTRL with INSTALL (R286). -/
  | saInstall (m : Master) (v : Option (Fin 16)) (p : Fin 14) (a : Fin 20) (slot : BitVec 8)
  /-- SA_REMOVE. A write of MSC_SA_CTRL with REMOVE (R286). -/
  | saRemove (m : Master) (v : Option (Fin 16)) (p : Fin 14) (a : Fin 20)
  /-- PHY_FAULT. A run-time PHY fault of port p (R289). -/
  | phyFault (p : Fin 30)
  /-- ZONE_HALF. Time runs on to the next change of bit 31 of ZONE_NS (R295). -/
  | zoneHalf
  /-- INCR_INT_WRITE. A write of ZTM_INCR_INT (R292). -/
  | incrIntWrite (m : Master) (v : BitVec 32)
  /-- INCR_FRAC_STAGE. A write of ZTM_INCR_FRAC (R292). -/
  | incrFracStage (m : Master) (v : BitVec 32)
  /-- EPOCH_OPEN. A write of ZTM_CTRL with OPEN (R296). -/
  | epochOpen (m : Master)
  /-- EPOCH_STEP. A write of ZTM_CTRL with STEP, and OPEN as given (R296). -/
  | epochStep (m : Master) (open_ : Bool)
  /-- ZTM_NOW_READ. A read of ZTM_NOW (R297). -/
  | ztmNowRead (m : Master) (v : Option (Fin 16))
  /-- PAIR_SAMPLE. A write of ZTM_PAIR_CTRL with SAMPLE (R303). -/
  | pairSample (m : Master) (v : Option (Fin 16))
  /-- FALLBACK_ENABLE. A write of ZTM_FB_CFG with EN = 1, its other fields from `w` (R306). -/
  | fallbackEnable (m : Master) (w : BitVec 32)
  /-- FALLBACK_DISABLE. A write of ZTM_FB_CFG with EN = 0 (R306). -/
  | fallbackDisable (m : Master) (w : BitVec 32)
  /-- FALLBACK_LOSS_TIMEOUT. No qualifying Sync for LOSS_MS (R306). -/
  | fallbackLossTimeout
  /-- REFERENCE_PERIOD. PERIOD_MS passes at the master (R307). -/
  | referencePeriod
  /-- REFERENCE_MESSAGE_RX. A slave receives a reference message, `ago` ns after its start of frame (R307). -/
  | referenceMessageRx (data : List (BitVec 8)) (ago : BitVec 32)
  /-- CAN_MODE_CONFIG. A write of CAN_CTRL_k with MODE 0, its other fields from `w` (R313). -/
  | canModeConfig (m : Master) (v : Option (Fin 16)) (k : Fin 16) (w : BitVec 32)
  /-- CAN_MODE_NORMAL. A write of CAN_CTRL_k with MODE NORMAL (R313). -/
  | canModeNormal (m : Master) (v : Option (Fin 16)) (k : Fin 16) (w : BitVec 32)
  /-- CAN_MODE_RESTRICTED. A write of CAN_CTRL_k with MODE RESTRICTED (R313). -/
  | canModeRestricted (m : Master) (v : Option (Fin 16)) (k : Fin 16) (w : BitVec 32)
  /-- CAN_MODE_MONITOR. A write of CAN_CTRL_k with MODE MONITOR (R313). -/
  | canModeMonitor (m : Master) (v : Option (Fin 16)) (k : Fin 16) (w : BitVec 32)
  /-- CAN_RECOVER. A write of CAN_RECOVER_k with RECOVER and KEY (R313). -/
  | canRecover (m : Master) (v : Option (Fin 16)) (k : Fin 16)
  /-- CAN_BUS_INTEGRATED. 11 consecutive recessive bits on bus k (R312). -/
  | canBusIntegrated (k : Fin 16)
  /-- CAN_RECOVERY_DONE. 128 occurrences of 11 recessive bits on bus k (R312). -/
  | canRecoveryDone (k : Fin 16)
  /-- CAN_ERROR. A bus error, with the counters that ISO 11898-1 leaves (R312, R315). -/
  | canError (k : Fin 16) (lec : Fin 8) (tec : Fin 512) (rec_ : Fin 256)
  /-- CAN_PROTOCOL_EXCEPTION. A frame of a disabled format (R309). -/
  | canProtocolException (k : Fin 16)
  /-- CAN_OVERTEMP. A transceiver's overtemperature shutdown starts or ends (R312). -/
  | canOvertemp (k : Fin 16) (hot : Bool)
  /-- MB_REQ. A write of CAN_MB_CMD with REQ (R317). -/
  | mbReq (m : Master) (v : Option (Fin 16)) (k : Fin 16) (mb : Fin 64)
  /-- MB_ABORT. A write of CAN_MB_CMD with ABORT (R320). -/
  | mbAbort (m : Master) (v : Option (Fin 16)) (k : Fin 16) (mb : Fin 64)
  /-- CAN_FRAME_START. Bus k is idle, or its intermission has passed (R318). -/
  | canFrameStart (k : Fin 16)
  /-- CAN_ARB_LOST. The frame of controller k loses arbitration (R320). -/
  | canArbLost (k : Fin 16)
  /-- CAN_ARB_WON. The arbitration field ends with controller k as transmitter (R319). -/
  | canArbWon (k : Fin 16)
  /-- CAN_TX_COMPLETE. The frame of controller k ends successfully (R320). -/
  | canTxComplete (k : Fin 16) (tec : Fin 512) (rec_ : Fin 256)
  /-- CAN_RX_FRAME. A frame received without error, `ago` ns of raw time after its start of frame (R323). -/
  | canRxFrame (k : Fin 16) (f : CanFrame) (ago : BitVec 32) (tec : Fin 512) (rec_ : Fin 256)
  /-- CAN_RX_DELIVER. The oldest frame of the FIFO goes into a ready CAN_RX descriptor (R324). -/
  | canRxDeliver (k : Fin 16)
  /-- MRAM_DATA_ACCESS. A write, or a read, of CAN_MRAM_DATA_k (R316). -/
  | mramDataAccess (m : Master) (v : Option (Fin 16)) (k : Fin 16) (data : Option (BitVec 32))
  /-- ACF_CFG_WRITE. A write of CAN_ACF_CFG_k (R326). -/
  | acfCfgWrite (m : Master) (v : Option (Fin 16)) (k : Fin 16) (w : BitVec 32)
  /-- TUNNEL_TX_RELEASE. A waiting tunnel frame may be queued (R327). -/
  | tunnelTxRelease (k : Fin 16)
  /-- ACF_RX. A tunnel frame at the host queue is taken (R328). -/
  | acfRx (k : Fin 16)
  /-- CAN_WAKE_PATTERN. The wake-up pattern on bus k (R329). -/
  | canWakePattern (k : Fin 16)
  /-- PCIE_POISONED_WRITE. A poisoned inbound write of function f (R336). -/
  | pciePoisonedWrite (f : Fin 16) (addr : BitVec 40)
  /-- FUNCTION_LEVEL_RESET. An FLR of function f (R337). -/
  | functionLevelReset (f : Fin 16)
  /-- VF_ENABLE_CLEAR. VF Enable is cleared (R337). -/
  | vfEnableClear
  /-- PCIE_LINK_DOWN. DL_Down (R337). -/
  | pcieLinkDown
  /-- AMO_W. An AMO*.W (R340). -/
  | amoW (m : Master) (o : AtomOp) (addr : BitVec 40) (x : BitVec 32)
  /-- LR_W. An LR.W of a hart, V of which is `virt`, or of a Mitre core (R207, R341). -/
  | lrW (c : DbgTarget) (virt : Bool) (addr : BitVec 40)
  /-- SC_W. An SC.W of a hart, V of which is `virt`, or of a Mitre core (R207, R341). -/
  | scW (c : DbgTarget) (virt : Bool) (addr : BitVec 40) (x : BitVec 32)
  /-- RESERVATION_EXPIRY. 2 µs after the LR.W of hart h (R341). -/
  | reservationExpiry (h : Fin 6)
  /-- PCIE_FETCH_ADD. A PCIe FetchAdd (R339). -/
  | pcieFetchAdd (f : Fin 16) (addr : BitVec 40) (x : BitVec 32)
  /-- PCIE_SWAP. A PCIe Swap (R339). -/
  | pcieSwap (f : Fin 16) (addr : BitVec 40) (x : BitVec 32)
  /-- PCIE_CAS. A PCIe CAS (R339). -/
  | pcieCas (f : Fin 16) (addr : BitVec 40) (cmp x : BitVec 32)
  /-- PREFETCH_LINE_EXPIRY. The line at place n is 200 ns old (R344). -/
  | prefetchLineExpiry (n : Fin 32)
  /-- POSTED_WRITE_FAILURE. A posted write fails after its check (R346, R347). -/
  | postedWriteFailure (d : Fin 16) (src : Fin 5) (unit : BitVec 16) (addr : BitVec 40) (cause : BitVec 8) (data : BitVec 32)
  /-- HOST_READ_FAILURE. An outbound read of ring r fails (R350). -/
  | hostReadFailure (r : Fin 256) (cause : BitVec 8) (va : BitVec 64)
  /-- FENCE. A read of DWL_FENCE through a view (R349). -/
  | fence (m : Master) (v : Fin 16)
  /-- FENCE_ACK. A write of DWL_FENCE_ACK through a view (R349). -/
  | fenceAck (m : Master) (v : Fin 16) (tag : BitVec 32)
  /-- INTERRUPT_SCAN. The bridge scans the vector lines (R351). -/
  | interruptScan
  /-- EOI. A write of DWL_EOI through a view (R351). -/
  | eoi (m : Master) (v : Fin 16) (vec : Fin 64)
  /-- MSIX_PENDING_SEND. A pending MSI-X message may leave (R352). -/
  | msixPendingSend (f : Fin 16) (v : Fin 64)
  /-- WCALL. Hart h retires WCALL (R359). -/
  | wcall (h : Fin 6) (c : HartCtx)
  /-- GATE. Hart h retires GATE at a physical address (R361). -/
  | gate (h : Fin 6) (c : HartCtx) (pa : BitVec 40)
  /-- WRET. Hart h retires WRET (R362). -/
  | wret (h : Fin 6) (c : HartCtx)
  /-- CALL_TIMEOUT. The call timer of hart h reaches 10 ms (R366). -/
  | callTimeout (h : Fin 6)
  /-- WRLD_WIPE_END. The wipe ends; `c` is the state in which the restart hart takes the restart entry (R366). -/
  | wrldWipeEnd (c : HartCtx)
  /-- SERVICES_READY. A write of WLD_SVC with READY, HART as given (R365). -/
  | servicesReady (m : Master) (hart : Fin 6)
  /-- SERVICES_RESTART. A write of WLD_SVC with RESTART (R366). -/
  | servicesRestart (m : Master) (hart : Fin 6)
  /-- RESTART_TIMEOUT. READY is not written within 1 s of the restart entry (R366). -/
  | restartTimeout
  /-- RING_SEC_WRITE. A write of WLD_RING_SEC_k (R356). -/
  | ringSecWrite (m : Master) (k : Fin 8) (w : BitVec 32)
  /-- MTR_WORLD_WRITE. A write of WLD_MTR_WORLD (R356). -/
  | mtrWorldWrite (m : Master) (w : Fin 4)
  /-- DEBUG_HALT. A debug halt request (R369). -/
  | debugHalt (t : DbgTarget)
  /-- DEBUG_STEP. A debug single step of hart h (R369). -/
  | debugStep (h : Fin 6) (k : StepKind)
  /-- DEBUG_SYSBUS_READ. A debug system-bus read (R369). -/
  | debugSysbusRead (addr : BitVec 40)
  /-- DEBUG_SYSBUS_WRITE. A debug system-bus write (R369). -/
  | debugSysbusWrite (addr : BitVec 40) (x : BitVec 32)
  /-- GENERATE. GENERATE of the running command: a new key in DSLOT (R378). -/
  | tillGenerate (h : HostMem)
  /-- IMPORT. IMPORT of the running command: a key imported into DSLOT (R378). -/
  | tillImport (h : HostMem)
  /-- UNWRAP. UNWRAP of the running command: a blob unwrapped into DSLOT (R379). -/
  | tillUnwrap (h : HostMem)
  /-- WRAP. WRAP of the running command: an exportable key wrapped into a blob (R379). -/
  | tillWrap (h : HostMem)
  /-- DESTROY. DESTROY of the running command: a slot destroyed (R375, R378). -/
  | tillDestroy (h : HostMem)
  /-- PUBKEY. PUBKEY of the running command: a slot's public key written (R378). -/
  | tillPubkey (h : HostMem)
  /-- ENCRYPT. ENCRYPT of the running command: AES in CTR or GCM mode (R379). -/
  | tillEncrypt (h : HostMem)
  /-- DECRYPT. DECRYPT of the running command: AES in CTR or GCM mode (R379). -/
  | tillDecrypt (h : HostMem)
  /-- MAC. MAC of the running command: an HMAC tag (R378). -/
  | tillMac (h : HostMem)
  /-- MAC_VERIFY. MAC_VERIFY of the running command: an HMAC tag verified (R379). -/
  | tillMacVerify (h : HostMem)
  /-- HASH. HASH of the running command: a SHA digest (R378). -/
  | tillHash (h : HostMem)
  /-- SIGN. SIGN of the running command: ECDSA or Ed25519 (R379). -/
  | tillSign (h : HostMem)
  /-- VERIFY. VERIFY of the running command: a signature verified (R379). -/
  | tillVerify (h : HostMem)
  /-- AGREE. AGREE of the running command: ECDH, storing a SECRET (R379). -/
  | tillAgree (h : HostMem)
  /-- DERIVE. DERIVE of the running command: a key derived by HKDF or the counter KDF (R379). -/
  | tillDerive (h : HostMem)
  /-- RANDOM. RANDOM of the running command: DRBG output (R380). -/
  | tillRandom (h : HostMem)
  /-- ATTEST. ATTEST of the running command: a signed statement (R382). -/
  | tillAttest (h : HostMem)
  /-- CHALLENGE. CHALLENGE of the running command: a new nonce (R385). -/
  | tillChallenge (h : HostMem)
  /-- LC_CHANGE. LC_CHANGE of the running command: a lifecycle change by token (R386). -/
  | tillLcChange (h : HostMem)
  /-- UNLOCK. UNLOCK of the running command: the debug unlock by token (R387). -/
  | tillUnlock (h : HostMem)
  /-- SET_OWNER. SET_OWNER of the running command: the OWNER digest, once in FACTORY (R384). -/
  | tillSetOwner (h : HostMem)
  /-- TILL_COMMAND_DONE. The running command completes (R376). -/
  | tillCommandDone
  /-- ENTROPY_HEALTH_FAIL. The noise source fails its health test (R380). -/
  | entropyHealthFail
  /-- SAMPLE_MERGE. The sources hand over their samples; `l` holds those of the analog sources (R390, R392). -/
  | sampleMerge (l : List Sample)
  /-- FLUSH_PERIODIC. 600 s after the previous flush (R393). -/
  | flushPeriodic
  /-- FLUSH_GO. A write of REC_FLUSH with GO (R393). -/
  | flushGo (m : Master)
  /-- FLUSH_DONE. The running flush commits its journal marker (R393). -/
  | flushDone
  /-- ITEM_CONFIG. A write of REC_CFG_CMD with WRITE (R391). -/
  | itemConfig (m : Master)
  /-- ITEM_CLEAR. A write of REC_CLEAR with GO for one item (R396). -/
  | itemClear (m : Master) (n : Fin 4096)
  /-- ITEM_CLEAR_ALL. A write of REC_CLEAR with GO and ALL (R396). -/
  | itemClearAll (m : Master)
  /-- WINDOW_SNAPSHOT. A read of REC_WIN_0 (R395). -/
  | windowSnapshot (m : Master) (v : Option (Fin 16))
  /-- WINDOW_ADVANCE. A read of REC_WIN_63 (R395). -/
  | windowAdvance (m : Master) (v : Option (Fin 16))
  /-- ALARM_HEAD_READ. A read of REC_ALM_HEAD0 (R399). -/
  | alarmHeadRead (m : Master)
  /-- ALARM_POP. A write of REC_ALM_STAT with POP (R399). -/
  | alarmPop (m : Master)
  /-- LOG_DELIVER. Records of drawer d are written into its LOG ring's buffers (R401). -/
  | logDeliver (d : Fin 16)
  /-- LOG_BUFFER_TIMEOUT. 1 ms after the first record of ring r's LOG buffer (R401). -/
  | logBufferTimeout (r : Fin 256)
  /-- TRACE_LEVEL_UPDATE. The 1 ms step of drawer d's sampling level (R402). -/
  | traceLevelUpdate (d : Fin 16)
  /-- UPDATE_BEGIN. A BEGIN is carried out (R405). -/
  | updateBegin (nandErr : Bool)
  /-- UPDATE_BLOCK. A BLOCK is carried out (R405). -/
  | updateBlock (nandErr : Bool)
  /-- UPDATE_END. An END is carried out (R405). -/
  | updateEnd (nandErr : Bool)
  /-- UPDATE_ABORT. An ABORT is carried out (R405). -/
  | updateAbort (nandErr : Bool)
  /-- UPDATE_COMMAND_DONE. The command at the front finishes and reports its status (R406). -/
  | updateCommandDone
  /-- UPD_CONFIRM. A write of UPD_CONFIRM with KEY (R410). -/
  | updConfirm (m : Master) (kind : Fin 4)
  /-- CORE_RUNTIME_ERROR. An uncorrectable error of core c (R413). -/
  | coreRuntimeError (c : Fin 6)
  /-- SCRUB_READ. The scrubber reads a word of SRAM unit u (R414). -/
  | scrubRead (u : Fin 48) (x : ScrubFind)
  /-- SRAM_CORRECTABLE_ERROR. An access to SRAM unit u finds a correctable error (R414). -/
  | sramCorrectableError (u : Fin 48)
  /-- SRAM_UNCORRECTABLE_ERROR. An access finds an uncorrectable error (R414). -/
  | sramUncorrectableError (m : Master) (addr : BitVec 40) (size : Fin 9) (op : AccOp) (data : BitVec 64)
  /-- RETIREMENT_CLEAR. A write of FAB_RET_CLR with KEY (R417). -/
  | retirementClear (m : Master) (kind : Fin 8) (unit : Fin 128)
  /-- SAFEN_RELEASE. A write of FAB_SAFEN_CTRL with RELEASE and KEY, FORCE as given (R423). -/
  | safenRelease (m : Master) (force : Bool)
  /-- SAFEN_FORCE. A write of FAB_SAFEN_CTRL with KEY that sets or clears FORCE (R421). -/
  | safenForce (m : Master) (on : Bool)
  /-- SAFEN_MASK_WRITE. A write of FAB_SAFEN_MASK (R422). -/
  | safenMaskWrite (m : Master) (w : BitVec 32)
  /-- REGISTER_READ. A read at an address (R8, R36). -/
  | registerRead (m : Master) (addr : BitVec 40) (size : Fin 9)
  /-- MEMORY_ACCESS. A load, store, atomic or fetch at an address (R229). -/
  | memoryAccess (m : Master) (addr : BitVec 40) (size : Fin 9) (op : AccOp) (data : BitVec 64)
  /-- HARD_SHORT_WINDOW_END. An activation of channel c passes 10 µs without a fast short (R127). -/
  | hardShortWindowEnd (c : Fin 96)
  /-- PCIE_LINK_UP. The data link comes up at generation gen + 1 with 2^lanes lanes (R337). -/
  | pcieLinkUp (gen : Fin 4) (lanes : Fin 3)
  /-- PCIE_CONFIG_WRITE. The host writes the configuration space of function f (R333, R337). -/
  | pcieConfigWrite (f : Fin 16) (w : CfgWrite)
  /-- DEBUG_RESUME. A debug resume request (R369). -/
  | debugResume (t : DbgTarget)
  /-- HDRAWER_WRITE. Hart h writes hdrawer, or reads it (R227). -/
  | hdrawerWrite (h : Fin 6) (c : HartCtx) (v : Option (BitVec 64))
  /-- ENTROPY_RESTART_PASS. A restart of the entropy source passes its health test (R380). -/
  | entropyRestartPass
  /-- CE_WINDOW_END. The 24 h window of SRAM unit u ends (R414). -/
  | ceWindowEnd (u : Fin 48)
  /-- FDB_OPERATION_DONE. The forwarding-database operation in progress finishes (R257). -/
  | fdbOperationDone
  deriving DecidableEq, Repr

end Sys2Proof
end

