-- ==== Sys2Proof/Machine/Crc.lean ====
section
/-! DEFINITION. The checks over byte strings: CRC-32 (IEEE 802.3, reflected, R18) and the CRC-16 of mark reads (R66). -/

namespace Sys2Proof.Machine

/-- A number from bytes, most significant first. -/
def beNat (l : List Nat) : Nat := l.foldl (fun a b => a * 256 + b % 256) 0

/-- The `n` bytes of a number, most significant first. -/
def beBytes : Nat → Nat → List Nat
  | 0, _ => []
  | n + 1, v => v / 2 ^ (8 * n) % 256 :: beBytes n v

/-- Bytes filled with zeros to a length. -/
def padTo (l : List Nat) (n : Nat) : List Nat := l ++ List.replicate (n - l.length) 0

/-- Part of a byte string. -/
def slice (l : List Nat) (a n : Nat) : List Nat := (l.drop a).take n

/-- Shift a reflected CRC-32 register by `n` bits. -/
def crc32Bits : Nat → Nat → Nat
  | 0, c => c
  | n + 1, c => crc32Bits n (if c % 2 = 1 then (c / 2) ^^^ 0xEDB88320 else c / 2)

/-- CRC-32: polynomial of IEEE 802.3, reflected, initial and final XOR 0xFFFF_FFFF. -/
def crc32 (l : List Nat) : Nat := (l.foldl (fun c b => crc32Bits 8 (c ^^^ (b % 256))) 0xFFFFFFFF) ^^^ 0xFFFFFFFF

/-- Shift a CRC-16 register by `n` bits. -/
def crc16Bits : Nat → Nat → Nat
  | 0, c => c
  | n + 1, c => crc16Bits n (if c / 0x8000 % 2 = 1 then (c * 2 % 0x10000) ^^^ 0x1021 else c * 2 % 0x10000)

/-- CRC-16: polynomial 0x1021, initial value 0xFFFF, no reflection, no final XOR (R66). -/
def crc16 (l : List Nat) : Nat := l.foldl (fun c b => crc16Bits 8 (c ^^^ (b % 256 * 256))) 0xFFFF

end Sys2Proof.Machine
end

