-- ==== Sys2Proof/Machine/Sha.lean ====
section
/-! DEFINITION. The SHA-2 hashes of FIPS 180-4 (R19, R28, R378), HMAC, and the key derivations of R379, over byte strings. -/

namespace Sys2Proof.Machine

/-- A SHA-2 family: word width in bits, rounds, the rotations of Σ0, Σ1, and those of σ0, σ1 with a shift last. -/
structure ShaFam (n : Nat) where
  rounds : Nat
  k : Array (BitVec n)
  s0 : Nat × Nat × Nat
  s1 : Nat × Nat × Nat
  m0 : Nat × Nat × Nat
  m1 : Nat × Nat × Nat

/-- The eight working words. -/
structure ShaSt (n : Nat) where
  a : BitVec n
  b : BitVec n
  c : BitVec n
  d : BitVec n
  e : BitVec n
  f : BitVec n
  g : BitVec n
  h : BitVec n

/-- Σ: three rotations. -/
def bigSigma {n : Nat} (r : Nat × Nat × Nat) (x : BitVec n) : BitVec n :=
  x.rotateRight r.1 ^^^ x.rotateRight r.2.1 ^^^ x.rotateRight r.2.2

/-- σ: two rotations and a shift. -/
def smallSigma {n : Nat} (r : Nat × Nat × Nat) (x : BitVec n) : BitVec n :=
  x.rotateRight r.1 ^^^ x.rotateRight r.2.1 ^^^ (x >>> r.2.2)

/-- The message schedule, the newest word first, from the 16 words of a block. -/
def shaSchedule {n : Nat} (p : ShaFam n) : Nat → List (BitVec n) → List (BitVec n)
  | 0, w => w
  | k + 1, w =>
    let at_ := fun i => w.getD i 0
    shaSchedule p k ((smallSigma p.m1 (at_ 1) + at_ 6 + smallSigma p.m0 (at_ 14) + at_ 15) :: w)

/-- One round with its word and constant. -/
def shaRound {n : Nat} (p : ShaFam n) (x : ShaSt n) (wk : BitVec n × BitVec n) : ShaSt n :=
  let t1 := x.h + bigSigma p.s1 x.e + ((x.e &&& x.f) ^^^ (~~~x.e &&& x.g)) + wk.2 + wk.1
  let t2 := bigSigma p.s0 x.a + ((x.a &&& x.b) ^^^ (x.a &&& x.c) ^^^ (x.b &&& x.c))
  ⟨t1 + t2, x.a, x.b, x.c, x.d + t1, x.e, x.f, x.g⟩

/-- The hash value after one block. -/
def shaBlock {n : Nat} (p : ShaFam n) (x : ShaSt n) (w : List (BitVec n)) : ShaSt n :=
  let ws := (shaSchedule p (p.rounds - 16) w.reverse).reverse
  let y := (ws.zip p.k.toList).foldl (shaRound p) x
  ⟨x.a + y.a, x.b + y.b, x.c + y.c, x.d + y.d, x.e + y.e, x.f + y.f, x.g + y.g, x.h + y.h⟩

/-- A message padded to whole blocks of `16 k` bytes, `k` being the bytes of a word. -/
def shaPad (k : Nat) (m : List Nat) : List Nat :=
  m ++ 0x80 :: List.replicate ((32 * k - 1 - 2 * k - m.length % (16 * k)) % (16 * k)) 0 ++ beBytes (2 * k) (8 * m.length)

/-- The 16 words at the front of a padded message. -/
def shaWords (n k : Nat) (l : List Nat) : List (BitVec n) := (List.range 16).map fun i => BitVec.ofNat n (beNat (slice l (k * i) k))

/-- The hash of the blocks of a padded message; the fuel is its number of blocks. -/
def shaRun {n : Nat} (p : ShaFam n) (k : Nat) : Nat → ShaSt n → List Nat → ShaSt n
  | 0, x, _ => x
  | f + 1, x, l => shaRun p k f (shaBlock p x (shaWords n k l)) (l.drop (16 * k))

/-- A SHA-2 digest, all of it. -/
def shaHash {n : Nat} (p : ShaFam n) (iv : ShaSt n) (m : List Nat) : List Nat :=
  let k := n / 8
  let l := shaPad k m
  let x := shaRun p k (l.length / (16 * k)) iv l
  [x.a, x.b, x.c, x.d, x.e, x.f, x.g, x.h].flatMap fun w => beBytes k w.toNat

/-- The round constants of SHA-512 (FIPS 180-4), 0 to 19. -/
def sha512K0 : List Nat :=
  [0x428a2f98d728ae22, 0x7137449123ef65cd, 0xb5c0fbcfec4d3b2f, 0xe9b5dba58189dbbc, 0x3956c25bf348b538,
    0x59f111f1b605d019, 0x923f82a4af194f9b, 0xab1c5ed5da6d8118, 0xd807aa98a3030242, 0x12835b0145706fbe,
    0x243185be4ee4b28c, 0x550c7dc3d5ffb4e2, 0x72be5d74f27b896f, 0x80deb1fe3b1696b1, 0x9bdc06a725c71235,
    0xc19bf174cf692694, 0xe49b69c19ef14ad2, 0xefbe4786384f25e3, 0x0fc19dc68b8cd5b5, 0x240ca1cc77ac9c65]

/-- The round constants of SHA-512 (FIPS 180-4), 20 to 39. -/
def sha512K1 : List Nat :=
  [0x2de92c6f592b0275, 0x4a7484aa6ea6e483, 0x5cb0a9dcbd41fbd4, 0x76f988da831153b5, 0x983e5152ee66dfab,
    0xa831c66d2db43210, 0xb00327c898fb213f, 0xbf597fc7beef0ee4, 0xc6e00bf33da88fc2, 0xd5a79147930aa725,
    0x06ca6351e003826f, 0x142929670a0e6e70, 0x27b70a8546d22ffc, 0x2e1b21385c26c926, 0x4d2c6dfc5ac42aed,
    0x53380d139d95b3df, 0x650a73548baf63de, 0x766a0abb3c77b2a8, 0x81c2c92e47edaee6, 0x92722c851482353b]

/-- The round constants of SHA-512 (FIPS 180-4), 40 to 59. -/
def sha512K2 : List Nat :=
  [0xa2bfe8a14cf10364, 0xa81a664bbc423001, 0xc24b8b70d0f89791, 0xc76c51a30654be30, 0xd192e819d6ef5218,
    0xd69906245565a910, 0xf40e35855771202a, 0x106aa07032bbd1b8, 0x19a4c116b8d2d0c8, 0x1e376c085141ab53,
    0x2748774cdf8eeb99, 0x34b0bcb5e19b48a8, 0x391c0cb3c5c95a63, 0x4ed8aa4ae3418acb, 0x5b9cca4f7763e373,
    0x682e6ff3d6b2b8a3, 0x748f82ee5defb2fc, 0x78a5636f43172f60, 0x84c87814a1f0ab72, 0x8cc702081a6439ec]

/-- The round constants of SHA-512 (FIPS 180-4), 60 to 79. -/
def sha512K3 : List Nat :=
  [0x90befffa23631e28, 0xa4506cebde82bde9, 0xbef9a3f7b2c67915, 0xc67178f2e372532b, 0xca273eceea26619c,
    0xd186b8c721c0c207, 0xeada7dd6cde0eb1e, 0xf57d4f7fee6ed178, 0x06f067aa72176fba, 0x0a637dc5a2c898a6,
    0x113f9804bef90dae, 0x1b710b35131c471b, 0x28db77f523047d84, 0x32caab7b40c72493, 0x3c9ebe0a15c9bebc,
    0x431d67c49c100d4c, 0x4cc5d4becb3e42b6, 0x597f299cfc657e2a, 0x5fcb6fab3ad6faec, 0x6c44198c4a475817]

/-- The 80 round constants of SHA-512. -/
def sha512K : List Nat := sha512K0 ++ sha512K1 ++ sha512K2 ++ sha512K3

/-- The family of SHA-384 and SHA-512. -/
def sha512Fam : ShaFam 64 := ⟨80, sha512K.toArray.map (BitVec.ofNat 64), (28, 34, 39), (14, 18, 41), (1, 8, 7), (19, 61, 6)⟩

/-- The family of SHA-256, whose constants are the upper halves of the first 64 of SHA-512. -/
def sha256Fam : ShaFam 32 :=
  ⟨64, (sha512K.take 64).toArray.map fun k => BitVec.ofNat 32 (k / 2 ^ 32), (2, 13, 22), (6, 11, 25), (7, 18, 3), (17, 19, 10)⟩

/-- SHA-256 (FIPS 180-4). -/
def sha256 (m : List Nat) : List Nat :=
  shaHash sha256Fam ⟨0x6a09e667, 0xbb67ae85, 0x3c6ef372, 0xa54ff53a, 0x510e527f, 0x9b05688c, 0x1f83d9ab, 0x5be0cd19⟩ m

/-- SHA-512 (FIPS 180-4). -/
def sha512 (m : List Nat) : List Nat :=
  shaHash sha512Fam ⟨0x6a09e667f3bcc908, 0xbb67ae8584caa73b, 0x3c6ef372fe94f82b, 0xa54ff53a5f1d36f1, 0x510e527fade682d1,
    0x9b05688c2b3e6c1f, 0x1f83d9abfb41bd6b, 0x5be0cd19137e2179⟩ m

/-- SHA-384 (FIPS 180-4): the first 48 bytes under initial values of its own. -/
def sha384 (m : List Nat) : List Nat :=
  (shaHash sha512Fam ⟨0xcbbb9d5dc1059ed8, 0x629a292a367cd507, 0x9159015a3070dd17, 0x152fecd8f70e5939, 0x67332667ffc00b31,
    0x8eb44a8768581511, 0xdb0c2e0d64f98fa7, 0x47b5481dbefa4fa4⟩ m).take 48

/-- HMAC (FIPS 198-1) over a hash with blocks of `b` bytes. -/
def hmac (hash : List Nat → List Nat) (b : Nat) (key m : List Nat) : List Nat :=
  let k := padTo (if b < key.length then hash key else key) b
  hash (k.map (· ^^^ 0x5c) ++ hash (k.map (· ^^^ 0x36) ++ m))

/-- HMAC-SHA-256 and HMAC-SHA-384. -/
def hmac256 (key m : List Nat) : List Nat := hmac sha256 64 key m
def hmac384 (key m : List Nat) : List Nat := hmac sha384 128 key m

/-- The expand step of HKDF (RFC 5869): blocks T(i), T(i + 1), … each over the one before. -/
def hkdfBlocks (prk info : List Nat) : Nat → Nat → List Nat → List Nat
  | 0, _, _ => []
  | f + 1, i, prev =>
    let t := hmac256 prk (prev ++ info ++ [i % 256])
    t ++ hkdfBlocks prk info f (i + 1) t

/-- HKDF with HMAC-SHA-256 (RFC 5869, R379): `n` bytes from a key, a salt and an info. -/
def hkdf (key salt info : List Nat) (n : Nat) : List Nat :=
  (hkdfBlocks (hmac256 (if salt.isEmpty then List.replicate 32 0 else salt) key) info ((n + 31) / 32) 1 []).take n

/-- The counter KDF (SP 800-108, R379): `n` bytes from a key, a label and a context. -/
def counterKdf (key label ctx : List Nat) (n : Nat) : List Nat :=
  ((List.range ((n + 31) / 32)).flatMap fun i =>
    hmac256 key (beBytes 4 (i + 1) ++ label ++ 0 :: ctx ++ beBytes 4 (8 * n))).take n

end Sys2Proof.Machine
end

