-- ==== Sys2Proof/Machine/Ecc.lean ====
section
/-! DEFINITION. The curves of R18 and R379: ECDSA and ECDH over P-256 and P-384 (FIPS 186-5, SP 800-186), and pure Ed25519. -/

namespace Sys2Proof.Machine

/-- b ^ e modulo m, over the low `n` bits of the exponent. -/
def powMod (m : Nat) : Nat → Nat → Nat → Nat
  | 0, _, _ => 1 % m
  | n + 1, b, e => let r := powMod m n (b * b % m) (e / 2); if e % 2 = 1 then r * b % m else r

/-- The inverse modulo a prime m below 2⁵²¹. -/
def invMod (m a : Nat) : Nat := powMod m 521 (a % m) (m - 2)

/-- The difference modulo m. -/
def subMod (m a b : Nat) : Nat := (a % m + m - b % m) % m

/-- A curve y² = x³ − 3 x + b over the integers modulo p, with its base point of prime order n, and the bytes of an element. -/
structure Curve where
  p : Nat
  b : Nat
  n : Nat
  gx : Nat
  gy : Nat
  len : Nat

/-- A point; none is the point at infinity. -/
abbrev EcPoint := Option (Nat × Nat)

/-- Whether a pair is a point of the curve. -/
def Curve.on (c : Curve) (x y : Nat) : Bool :=
  decide (x < c.p) && decide (y < c.p) && y * y % c.p == (x * x % c.p * x + subMod c.p 0 (3 * x) + c.b) % c.p

/-- The third point of the line of slope l through x1, y1 and a point at x2, reflected. -/
def Curve.chord (c : Curve) (l x1 y1 x2 : Nat) : EcPoint :=
  let x := subMod c.p (l * l) (x1 + x2)
  some (x, subMod c.p (l * subMod c.p x1 x) y1)

/-- Addition of points. -/
def Curve.add (c : Curve) : EcPoint → EcPoint → EcPoint
  | none, q => q
  | q, none => q
  | some (x1, y1), some (x2, y2) =>
    if x1 = x2 then
      if (y1 + y2) % c.p = 0 then none
      else c.chord ((3 * x1 * x1 + c.p - 3) % c.p * invMod c.p (2 * y1) % c.p) x1 y1 x2
    else c.chord (subMod c.p y2 y1 * invMod c.p (subMod c.p x2 x1) % c.p) x1 y1 x2

/-- k times a point, over the low `n` bits of k. -/
def Curve.mul (c : Curve) : Nat → Nat → EcPoint → EcPoint
  | 0, _, _ => none
  | n + 1, k, q => let r := c.mul n (k / 2) (c.add q q); if k % 2 = 1 then c.add r q else r

/-- k times the base point. -/
def Curve.base (c : Curve) (k : Nat) : EcPoint := c.mul 384 k (some (c.gx, c.gy))

/-- P-256 and P-384 (SP 800-186). -/
def p256 : Curve :=
  ⟨0xffffffff00000001000000000000000000000000ffffffffffffffffffffffff, 0x5ac635d8aa3a93e7b3ebbd55769886bc651d06b0cc53b0f63bce3c3e27d2604b,
    0xffffffff00000000ffffffffffffffffbce6faada7179e84f3b9cac2fc632551, 0x6b17d1f2e12c4247f8bce6e563a440f277037d812deb33a0f4a13945d898c296,
    0x4fe342e2fe1a7f9b8ee7eb4a7c0f9e162bce33576b315ececbb6406837bf51f5, 32⟩

def p384 : Curve :=
  ⟨0xfffffffffffffffffffffffffffffffffffffffffffffffffffffffffffffffeffffffff0000000000000000ffffffff,
    0xb3312fa7e23ee7e4988e056be3f82d19181d9c6efe8141120314088f5013875ac656398d8a2ed19d2a85c8edd3ec2aef,
    0xffffffffffffffffffffffffffffffffffffffffffffffffc7634d81f4372ddf581a0db248b0a77aecec196accc52973,
    0xaa87ca22be8b05378eb1c71ef320ad746e1d3b628ba79b9859f741e082542a385502f25dbf55296c3a545e3872760ab7,
    0x3617de4a96262c6f5d9e98bf9292dc29f8f41dbd289a147ce9da3113b5f0b8c00a60b1ce1d7e819d7a431d7c90ea0e5f, 48⟩

/-- The bytes X‖Y of a point. -/
def Curve.bytes (c : Curve) (q : EcPoint) : List Nat := let (x, y) := q.getD (0, 0); beBytes c.len x ++ beBytes c.len y

/-- The public key X‖Y of a private key. -/
def Curve.pub (c : Curve) (d : List Nat) : List Nat := c.bytes (c.base (beNat d % c.n))

/-- A private key, or a per-signature value, from random bytes with 64 bits to spare (FIPS 186-5). -/
def Curve.scalar (c : Curve) (l : List Nat) : Nat := beNat l % (c.n - 1) + 1

/-- The digest as a number: its leftmost bits, which are all of it here. -/
def Curve.hashed (c : Curve) (e : List Nat) : Nat := beNat (e.take c.len)

/-- ECDSA: the signature r‖s of a digest by a private key with a per-signature value. -/
def Curve.sign (c : Curve) (d e k : List Nat) : List Nat :=
  let kk := c.scalar k
  let r := ((c.base kk).getD (0, 0)).1 % c.n
  let s := invMod c.n kk * (c.hashed e + r * (beNat d % c.n)) % c.n
  beBytes c.len r ++ beBytes c.len s

/-- ECDSA: whether a signature r‖s of a digest verifies under a public key X‖Y. -/
def Curve.verify (c : Curve) (pub e sig : List Nat) : Bool :=
  let x := beNat (slice pub 0 c.len)
  let y := beNat (slice pub c.len c.len)
  let r := beNat (slice sig 0 c.len)
  let s := beNat (slice sig c.len c.len)
  let w := invMod c.n s
  let q := c.add (c.base (c.hashed e * w % c.n)) (c.mul 384 (r * w % c.n) (some (x, y)))
  c.on x y && decide (0 < r) && decide (r < c.n) && decide (0 < s) && decide (s < c.n) &&
    match q with
    | some (px, _) => px % c.n == r
    | none => false

/-- ECDH: the X coordinate, or none when the peer's point is not on the curve. -/
def Curve.agree (c : Curve) (d peer : List Nat) : Option (List Nat) :=
  let x := beNat (slice peer 0 c.len)
  let y := beNat (slice peer c.len c.len)
  if c.on x y then (c.mul 384 (beNat d % c.n) (some (x, y))).map fun q => beBytes c.len q.1 else none

/-- ECDSA P-384 with SHA-384 (R18): public key, message, signature. -/
def ecdsaVerifies (pub m sig : List Nat) : Bool := p384.verify pub (sha384 m) sig

/-! Ed25519 (FIPS 186-5) -/

abbrev edP : Nat := 2 ^ 255 - 19
abbrev edL : Nat := 2 ^ 252 + 27742317777372353535851937790883648493

/-- The constant d of the curve −x² + y² = 1 + d x² y². -/
def edD : Nat := subMod edP 0 (121665 * invMod edP 121666)

/-- A little-endian number. -/
def lsbNat (l : List Nat) : Nat := beNat l.reverse

/-- Addition of points. -/
def edAdd (a b : Nat × Nat) : Nat × Nat :=
  let m := a.1 * b.1 % edP * (a.2 * b.2 % edP) % edP * edD % edP
  let x := (a.1 * b.2 + b.1 * a.2) % edP * invMod edP (1 + m) % edP
  let y := (a.2 * b.2 + a.1 * b.1) % edP * invMod edP (subMod edP 1 m) % edP
  (x, y)

/-- k times a point, over the low `n` bits of k. -/
def edMul : Nat → Nat → Nat × Nat → Nat × Nat
  | 0, _, _ => (0, 1)
  | n + 1, k, q => let r := edMul n (k / 2) (edAdd q q); if k % 2 = 1 then edAdd r q else r

/-- The base point. -/
def edBase : Nat × Nat :=
  (15112221349535400772501151409588531511454012693041857206046113283949847762202,
    46316835694926478169428394003475163141307993866256225615783033603165251855960)

/-- A point encoded: y, with the low bit of x on top. -/
def edEncode (q : Nat × Nat) : List Nat := (beBytes 32 (q.2 + q.1 % 2 * 2 ^ 255)).reverse

/-- A point decoded, or none. -/
def edDecode (l : List Nat) : Option (Nat × Nat) :=
  let v := lsbNat l
  let sign := v / 2 ^ 255 % 2
  let y := v % 2 ^ 255
  let u := subMod edP (y * y) 1
  let w := (edD * (y * y % edP) + 1) % edP
  let x2 := u * invMod edP w % edP
  let r := powMod edP 255 x2 ((edP + 3) / 8)
  let r := if r * r % edP = x2 then r else r * powMod edP 255 2 ((edP - 1) / 4) % edP
  if edP ≤ y ∨ l.length ≠ 32 ∨ r * r % edP ≠ x2 ∨ (r = 0 ∧ sign = 1) then none
  else some (if r % 2 = sign then r else edP - r, y)

/-- The secret scalar of a private key, from the first half of its hash. -/
def edScalar (h : List Nat) : Nat := 2 ^ 254 + lsbNat (h.take 32) % 2 ^ 254 / 8 * 8

/-- The public key of a private key. -/
def edPub (key : List Nat) : List Nat := edEncode (edMul 256 (edScalar (sha512 key)) edBase)

/-- The signature R‖S of a message. -/
def edSign (key m : List Nat) : List Nat :=
  let h := sha512 key
  let a := edScalar h
  let r := lsbNat (sha512 (h.drop 32 ++ m)) % edL
  let rr := edEncode (edMul 256 r edBase)
  let k := lsbNat (sha512 (rr ++ edPub key ++ m)) % edL
  rr ++ (beBytes 32 ((r + k * a) % edL)).reverse

/-- Whether a signature of a message verifies: 8 S B = 8 R + 8 k A. -/
def edVerify (pub m sig : List Nat) : Bool :=
  match edDecode pub, edDecode (slice sig 0 32) with
  | some a, some r =>
    let s := lsbNat (slice sig 32 32)
    let k := lsbNat (sha512 (slice sig 0 32 ++ pub ++ m)) % edL
    let e8 := fun q => edMul 4 8 q
    decide (s < edL) && sig.length == 64 && e8 (edMul 256 s edBase) == e8 (edAdd r (edMul 256 k a))
  | _, _ => false

end Sys2Proof.Machine
end

