-- ==== Sys2Proof/Machine/Aes.lean ====
section
/-! DEFINITION. AES (FIPS 197) in counter mode (SP 800-38A) and GCM (SP 800-38D), over byte strings (R285, R379). -/

namespace Sys2Proof.Machine

/-- Multiplication by x in the AES field. -/
def aesX (a : Nat) : Nat := if a < 128 then 2 * a else (2 * a) % 256 ^^^ 0x1b

/-- The product of two bytes in the AES field, over the low `n` bits of the second. -/
def aesMul : Nat → Nat → Nat → Nat
  | 0, _, _ => 0
  | n + 1, a, b => (if b % 2 = 1 then a else 0) ^^^ aesMul n (aesX a) (b / 2)

/-- The inverse of a byte in the AES field, its 254th power; 0 for 0. -/
def aesInv (a : Nat) : Nat :=
  let sq := fun x => aesMul 8 x x
  let a2 := sq a
  let a3 := aesMul 8 a2 a
  let a12 := sq (sq a3)
  let a15 := aesMul 8 a12 a3
  let a240 := sq (sq (sq (sq a15)))
  aesMul 8 (aesMul 8 a240 a12) a2

/-- The S-box of a byte. -/
def aesBox (a : Nat) : Nat :=
  let b := aesInv a
  let rot := fun k => (b * 2 ^ k) % 256 + b / 2 ^ (8 - k)
  b ^^^ rot 1 ^^^ rot 2 ^^^ rot 3 ^^^ rot 4 ^^^ 0x63

/-- The S-box as a table. -/
def aesTable : Array Nat := ((List.range 256).map aesBox).toArray

def aesSub (a : Nat) : Nat := aesTable.getD a 0

/-- XOR of two byte strings, as long as the shorter. -/
def xorBytes (a b : List Nat) : List Nat := (a.zip b).map fun p => p.1 ^^^ p.2

/-- The key schedule, as words of four bytes, the newest first; `nk` words make the key, `rc` is the next round constant. -/
def aesExpand (nk : Nat) : Nat → Nat → Nat → List (List Nat) → List (List Nat)
  | 0, _, _, w => w
  | f + 1, i, rc, w =>
    let t := w.getD 0 []
    let t' :=
      if i % nk = 0 then
        match (t.drop 1 ++ t.take 1).map aesSub with
        | a :: l => (a ^^^ rc) :: l
        | [] => []
      else if nk = 8 ∧ i % 8 = 4 then t.map aesSub
      else t
    aesExpand nk f (i + 1) (if i % nk = 0 then aesX rc else rc) (xorBytes (w.getD (nk - 1) []) t' :: w)

/-- The words of a key, newest first. -/
def keyWords (key : List Nat) : List (List Nat) := ((List.range (key.length / 4)).map fun i => slice key (4 * i) 4).reverse

/-- The round keys of a key of 16 or 32 bytes, 16 bytes each. -/
def aesKeys (key : List Nat) : List (List Nat) :=
  let nk := key.length / 4
  let rounds := nk + 6
  let l := (aesExpand nk (4 * (rounds + 1) - nk) nk 1 (keyWords key)).reverse.flatten
  (List.range (rounds + 1)).map fun r => slice l (16 * r) 16

/-- Row r of the state moves r places: byte 4c + r comes from column c + r. -/
def aesShift (b : List Nat) : List Nat := (List.range 16).map fun i => b.getD ((i + 4 * (i % 4)) % 16) 0

/-- One column mixed. -/
def aesColumn (a b c d : Nat) : List Nat :=
  let m := fun w x y z => aesX w ^^^ (aesX x ^^^ x) ^^^ y ^^^ z
  [m a b c d, m b c d a, m c d a b, m d a b c]

/-- All four columns mixed. -/
def aesMix (l : List Nat) : List Nat :=
  (List.range 4).flatMap fun c => aesColumn (l.getD (4 * c) 0) (l.getD (4 * c + 1) 0) (l.getD (4 * c + 2) 0) (l.getD (4 * c + 3) 0)

/-- The rounds after the first key; the last one mixes no columns. -/
def aesRounds : List (List Nat) → List Nat → List Nat
  | [], b => b
  | [k], b => xorBytes (aesShift (b.map aesSub)) k
  | k :: l, b => aesRounds l (xorBytes (aesMix (aesShift (b.map aesSub))) k)

/-- AES encryption of a block under its round keys. -/
def aesBlock (keys : List (List Nat)) (b : List Nat) : List Nat := aesRounds (keys.drop 1) (xorBytes b (keys.getD 0 []))

/-- AES in counter mode over `n` blocks, the 128-bit counter taken modulo `w` in its low part (2¹²⁸ for CTR, 2³² for GCM). -/
def aesCtr (keys : List (List Nat)) (w : Nat) : Nat → Nat → List Nat → List Nat
  | 0, _, _ => []
  | n + 1, c, l =>
    xorBytes l (aesBlock keys (beBytes 16 c)) ++ aesCtr keys w n (c / w * w + (c + 1) % w) (l.drop 16)

/-- CTR (SP 800-38A, R379): the counter block, then the data. -/
def ctrCrypt (key block l : List Nat) : List Nat := aesCtr (aesKeys key) (2 ^ 128) ((l.length + 15) / 16) (beNat block) l

/-- The product of GHASH, over the `n` bits of the first factor that are left, most significant first. -/
def ghashMul : Nat → Nat → Nat → Nat
  | 0, _, _ => 0
  | n + 1, x, v =>
    (if (x / 2 ^ n) % 2 = 1 then v else 0) ^^^ ghashMul n x (if v % 2 = 1 then v / 2 ^^^ 0xe1000000000000000000000000000000 else v / 2)

/-- GHASH of whole blocks; the fuel is their number. -/
def ghash (h : Nat) : Nat → Nat → List Nat → Nat
  | 0, y, _ => y
  | n + 1, y, l => ghash h n (ghashMul 128 (y ^^^ beNat (l.take 16)) h) (l.drop 16)

/-- A byte string filled with zeros to whole blocks. -/
def gcmPad (l : List Nat) : List Nat := padTo l ((l.length + 15) / 16 * 16)

/-- The GCM tag of a ciphertext, with a 96-bit IV. -/
def gcmTag (key iv aad c : List Nat) : List Nat :=
  let keys := aesKeys key
  let h := beNat (aesBlock keys (List.replicate 16 0))
  let l := gcmPad aad ++ gcmPad c ++ beBytes 8 (8 * aad.length) ++ beBytes 8 (8 * c.length)
  xorBytes (beBytes 16 (ghash h (l.length / 16) 0 l)) (aesBlock keys (iv ++ [0, 0, 0, 1]))

/-- GCM's keystream applied to a text, with a 96-bit IV. -/
def gcmCrypt (key iv l : List Nat) : List Nat :=
  aesCtr (aesKeys key) (2 ^ 32) ((l.length + 15) / 16) (beNat (iv ++ [0, 0, 0, 2])) l

/-- GCM encryption: ciphertext and tag. -/
def gcmSeal (key iv aad l : List Nat) : List Nat := gcmCrypt key iv l ++ gcmTag key iv aad (gcmCrypt key iv l)

/-- GCM decryption: none when the tag does not match. -/
def gcmOpen (key iv aad c tag : List Nat) : Option (List Nat) := if gcmTag key iv aad c = tag then some (gcmCrypt key iv c) else none

end Sys2Proof.Machine
end

