-- ==== Sys2Proof/Machine/Float32.lean ====
section
/-! DEFINITION. The Lathe's binary32 arithmetic (R166, R167): IEEE 754 with round-to-nearest-even, subnormal operands and
results flushed to zero with their sign, every NaN result 0x7FC0_0000. -/

namespace Sys2Proof.Machine

/-- The one NaN a result can be (R167). -/
def fpNan : Word := 0x7FC00000#32

/-- Sign, exponent field and fraction field. -/
def fpSign (w : Word) : Bool := bitOf w.toNat 31
def fpExp (w : Word) : Nat := bitsOf w.toNat 30 23
def fpFrac (w : Word) : Nat := bitsOf w.toNat 22 0

def fpIsNan (w : Word) : Bool := fpExp w == 255 && fpFrac w != 0
def fpIsInf (w : Word) : Bool := fpExp w == 255 && fpFrac w == 0

/-- Zero, subnormals included: they are flushed (R167). -/
def fpIsZero (w : Word) : Bool := fpExp w == 0

/-- Pack a sign, an exponent field and a fraction. -/
def fpPack (sign : Bool) (ex frac : Nat) : Word := BitVec.ofNat 32 (b2n sign * 2 ^ 31 + ex * 2 ^ 23 + frac)

def fpZero (sign : Bool) : Word := fpPack sign 0 0
def fpInf (sign : Bool) : Word := fpPack sign 255 0

/-- The significand of a finite operand with its hidden bit; 0 for a flushed one. -/
def fpMant (w : Word) : Nat := if fpExp w = 0 then 0 else 2 ^ 23 + fpFrac w

/-- The weight of a significand's last bit, plus 150 (so that it is a number ≥ 1 for normal operands). -/
def fpScale (w : Word) : Int := (fpExp w : Int) - 150

/-- Round the exact value `m` × 2^`e` (plus something below it when `sticky`) to binary32 (R167). -/
def fpRound (sign : Bool) (m : Nat) (e : Int) (sticky : Bool) : Word :=
  if m = 0 then fpZero sign
  else
    let q : Int := max ((Nat.log2 m : Int) + e - 23) (-149)
    let sh : Int := q - e
    let mant :=
      if sh ≤ 0 then m * 2 ^ (-sh).toNat
      else
        let k := sh.toNat
        let r := m / 2 ^ k
        let rem := m % 2 ^ k
        let half := 2 ^ (k - 1)
        if rem > half || (rem == half && (sticky || r % 2 == 1)) then r + 1 else r
    let (mant, q) := if mant ≥ 2 ^ 24 then (mant / 2, q + 1) else (mant, q)
    if mant < 2 ^ 23 then fpZero sign
    else
      let ex := q + 150
      if ex ≥ 255 then fpInf sign else fpPack sign ex.toNat (mant - 2 ^ 23)

/-- A finite operand as a signed significand at scale `e`. -/
def fpInt (w : Word) (e : Int) : Int :=
  let m : Int := fpMant w * 2 ^ (fpScale w - e).toNat
  if fpSign w then -m else m

/-- FADD. -/
def fpAdd (a b : Word) : Word :=
  if fpIsNan a || fpIsNan b then fpNan
  else if fpIsInf a then (if fpIsInf b && fpSign a != fpSign b then fpNan else fpInf (fpSign a))
  else if fpIsInf b then fpInf (fpSign b)
  else
    let e := min (fpScale a) (fpScale b)
    let s := fpInt a e + fpInt b e
    if s = 0 then fpZero (fpSign a && fpSign b)
    else fpRound (decide (s < 0)) s.natAbs e false

/-- The operand with its sign inverted. -/
def fpFlip (w : Word) : Word := w ^^^ 0x80000000#32

/-- FSUB. -/
def fpSub (a b : Word) : Word := if fpIsNan b then fpNan else fpAdd a (fpFlip b)

/-- FMUL. -/
def fpMul (a b : Word) : Word :=
  let s := fpSign a != fpSign b
  if fpIsNan a || fpIsNan b then fpNan
  else if fpIsInf a || fpIsInf b then (if fpIsZero a || fpIsZero b then fpNan else fpInf s)
  else if fpIsZero a || fpIsZero b then fpZero s
  else fpRound s (fpMant a * fpMant b) (fpScale a + fpScale b) false

/-- FDIV. -/
def fpDiv (a b : Word) : Word :=
  let s := fpSign a != fpSign b
  if fpIsNan a || fpIsNan b then fpNan
  else if fpIsInf a then (if fpIsInf b then fpNan else fpInf s)
  else if fpIsInf b then fpZero s
  else if fpIsZero b then (if fpIsZero a then fpNan else fpInf s)
  else if fpIsZero a then fpZero s
  else
    let n := fpMant a * 2 ^ 64
    fpRound s (n / fpMant b) (fpScale a - fpScale b - 64) (n % fpMant b != 0)

/-- The integer square root, one bit at a time from bit `k - 1`. -/
def isqrt (n : Nat) : Nat → Nat → Nat
  | 0, r => r
  | k + 1, r => let t := r + 2 ^ k; isqrt n k (if t * t ≤ n then t else r)

/-- FSQRT. -/
def fpSqrt (a : Word) : Word :=
  if fpIsNan a then fpNan
  else if fpIsZero a then fpZero (fpSign a)
  else if fpSign a then fpNan
  else if fpIsInf a then fpInf false
  else
    let odd := fpScale a % 2 != 0
    let m := fpMant a * 2 ^ (if odd then 65 else 64)
    let e := if odd then fpScale a - 65 else fpScale a - 64
    let r := isqrt m 48 0
    fpRound false r (e / 2) (r * r != m)

/-- A flushed operand. -/
def fpFlush (w : Word) : Word := if fpIsZero w then fpZero (fpSign w) else w

/-- The order of finite operands and infinities, −0 below +0: sign and magnitude as one number. -/
def fpKey (w : Word) : Int :=
  let m : Int := (fpFlush w).toNat % 2 ^ 31
  if fpSign w then -m - 1 else m

/-- FMIN and FMAX: a NaN operand yields the other; −0 counts as smaller than +0. -/
def fpMin (a b : Word) : Word :=
  if fpIsNan a then (if fpIsNan b then fpNan else fpFlush b)
  else if fpIsNan b then fpFlush a
  else if fpKey b < fpKey a then fpFlush b else fpFlush a
def fpMax (a b : Word) : Word :=
  if fpIsNan a then (if fpIsNan b then fpNan else fpFlush b)
  else if fpIsNan b then fpFlush a
  else if fpKey a < fpKey b then fpFlush b else fpFlush a

/-- FABS and FNEG (log entry 9: a NaN gives the one NaN result, a subnormal is flushed). -/
def fpAbs (a : Word) : Word := if fpIsNan a then fpNan else fpFlush a &&& 0x7FFFFFFF#32
def fpNeg (a : Word) : Word := if fpIsNan a then fpNan else fpFlip (fpFlush a)

/-- The order used by the compares: −0 equals +0. -/
def fpVal (w : Word) : Int :=
  let m : Int := (fpFlush w).toNat % 2 ^ 31
  if fpSign w then -m else m

def fpLt (a b : Word) : Bool := !fpIsNan a && !fpIsNan b && decide (fpVal a < fpVal b)
def fpLe (a b : Word) : Bool := !fpIsNan a && !fpIsNan b && decide (fpVal a ≤ fpVal b)
def fpEq (a b : Word) : Bool := !fpIsNan a && !fpIsNan b && decide (fpVal a = fpVal b)

/-- ITOF. -/
def fpOfInt (i : Int) : Word := fpRound (decide (i < 0)) i.natAbs 0 false

/-- FTOI: nearest even, saturating; NaN gives 0. -/
def fpToInt (a : Word) : Word :=
  if fpIsNan a then 0#32
  else if fpIsInf a then (if fpSign a then 0x80000000#32 else 0x7FFFFFFF#32)
  else
    let m := fpMant a
    let r : Nat :=
      if fpScale a ≥ 0 then m * 2 ^ (fpScale a).toNat
      else
        let k := (-fpScale a).toNat
        let q := m / 2 ^ k
        let rem := m % 2 ^ k
        if 2 * rem > 2 ^ k || (2 * rem == 2 ^ k && q % 2 == 1) then q + 1 else q
    let i : Int := if fpSign a then -(r : Int) else r
    if i < -2147483648 then 0x80000000#32
    else if i > 2147483647 then 0x7FFFFFFF#32
    else BitVec.ofInt 32 i

end Sys2Proof.Machine
end

