-- ==== Sys2Proof/Config.lean ====
section
/-! DEFINITION. What the spec leaves open or outside the device: uninterpreted constants with no body, so that no
statement can rest on a particular value. -/

namespace Sys2Proof.Config

/-- The `n`-th free value: a word the spec leaves unspecified (log entry 4). -/
opaque freeWord : Nat → Nat

/-- Byte `n` of the Till's DRBG output since the source was seeded (R380): random, so free (log entry 4). -/
opaque drbg : Nat → Nat

/-- Byte `n` of VENDOR, the fused digest of the vendor authority key (R384; log entry 1). -/
opaque vendorByte : Nat → Nat

/-- Byte `n` of the private identity key, which the counter KDF derives from the fused root secret (R381; log entry 1). -/
opaque idSecretByte : Nat → Nat

end Sys2Proof.Config
end

