-- ==== Sys2Proof/Machine/RegFile.lean ====
section
/-! DEFINITION. The register file as one sparse store: keys, addresses, field reads and writes, access-code writes, and
the reset of fields by the Cleared by lattice (R7, R8, R11, R12, R33, R34). -/

namespace Sys2Proof.Machine

/-- The key of position (`i`, `j`) of a register; `cp` is 0 for the global window and n + 1 for the view of drawer n. No register has
more than 4096 by 64 positions, so that two registers never share a key. -/
def keyOf (r : RegId) (cp i j : Nat) : Nat := ((r.ctorIdx * 32 + cp % 32) * 4096 + i % 4096) * 64 + j % 64

/-- The register a key belongs to. -/
def regOfKey (k : Nat) : RegId := regTable.getD (k / 8388608) .CARC_ID

/-- The copy a key belongs to. -/
def cpOfKey (k : Nat) : Nat := k / 262144 % 32

/-- The first index of a key. -/
def idxOfKey (k : Nat) : Nat := k / 64 % 4096

/-- The reset value of a register: its fields' reset values (a field loaded from the image has 0 here, R12). -/
def resetWord (r : RegId) : Word :=
  (regDef r).fields.foldl (fun w f => fieldSet w f.hi f.lo f.rst) 0#32

/-- The reset value of the register a key belongs to: what an unlisted key reads as. -/
def keyReset (k : Nat) : Word := resetWord (regOfKey k)

/-- The registers: unlisted positions hold their reset value. -/
abbrev RegFile := Store Word

/-- The word of one register position. -/
def regGet (l : RegFile) (r : RegId) (i j cp : Nat) : Word := storeGet (resetWord r) l (keyOf r cp i j)

/-- Replace the word of one register position. -/
def regPut (l : RegFile) (r : RegId) (w : Word) (i j cp : Nat) : RegFile :=
  storePut (resetWord r) l (keyOf r cp i j) w

/-- The first address of a block window (R33). -/
def winBase : Win → Nat
  | .carc => 0x20000000 | .fab => 0x20100000 | .drw => 0x20200000 | .ring => 0x20300000 | .lch => 0x21000000
  | .feed => 0x21080000 | .inp => 0x21100000 | .clp => 0x21200000 | .lth => 0x22000000 | .mtr => 0x22100000
  | .iom => 0x23000000 | .dvt => 0x24000000 | .ept => 0x24100000 | .ztm => 0x24200000 | .can => 0x25000000
  | .dwl => 0x26000000 | .wld => 0x27000000 | .til => 0x27100000 | .recw => 0x28000000 | .upd => 0x28100000

/-- The size of a block window (R33). -/
def winSize : Win → Nat
  | .lch => 0x80000 | .feed => 0x80000
  | _ => 0x100000

/-- Every window. -/
def allWins : List Win :=
  [.carc, .fab, .drw, .ring, .lch, .feed, .inp, .clp, .lth, .mtr, .iom, .dvt, .ept, .ztm, .can, .dwl, .wld, .til,
   .recw, .upd]

/-- The block of each 64 KiB sub-window of a view (R34). -/
def subWin : Nat → Win
  | 0 => .drw | 1 => .ring | 2 => .lch | 3 => .feed | 4 => .inp | 5 => .clp | 6 => .lth | 7 => .mtr | 8 => .iom
  | 9 => .dvt | 10 => .ept | 11 => .ztm | 12 => .can | 13 => .dwl | 14 => .til | _ => .recw

/-- The window an address lies in (R33). -/
def winOf (a : Nat) : Option Win := allWins.find? (fun w => decide (winBase w ≤ a) && decide (a < winBase w + winSize w))

/-- The drawer whose view an address lies in (R34). -/
def viewOf (a : Nat) : Option Nat :=
  if 0x30000000 ≤ a ∧ a < 0x31000000 then some ((a - 0x30000000) / 0x100000) else none

/-- The positions an offset names in a register row. -/
def posAt (d : RegDef) (base off : Nat) : Option (Nat × Nat) :=
  if off < base then none
  else
    let x := off - base
    let i := if d.st1 = 0 then 0 else if d.n2 ≤ 1 then x / d.st1 else if d.st2 ≥ d.st1 then x % d.st2 / d.st1 else x / d.st1
    let j := if d.n2 ≤ 1 then 0 else (x - i * d.st1) / d.st2
    if x = i * d.st1 + j * d.st2 ∧ i < d.n1 ∧ j < d.n2 then some (i, j) else none

/-- A register position an address names: the register whose table the position has, the register that holds the value
(the two differ for a view register that shows a global one), the copy, the indices and the viewing drawer. -/
structure Hit where
  shown : RegId
  reg : RegId
  cp : Nat
  i : Nat
  j : Nat
  viewer : Option Nat
  deriving DecidableEq, Repr

/-- The position of a register at an offset of its global window. -/
def hitGlobal (w : Win) (off : Nat) (r : RegId) : Option Hit :=
  let d := regDef r
  if d.win = w ∧ d.kind ≠ .view then
    (posAt d d.off off).map fun (i, j) => ⟨r, r, 0, i, j, none⟩
  else none

/-- The position of a register at an offset of its block's sub-window in the view of drawer `n`. -/
def hitView (w : Win) (n off : Nat) (r : RegId) : Option Hit :=
  let d := regDef r
  if d.win = w ∧ d.kind ≠ .glob then
    (posAt d d.voff off).map fun (i, j) =>
      match d.shows with
      | some t => ⟨r, t, 0, n, i, some n⟩
      | none => ⟨r, r, if d.kind = .both then 0 else n + 1, i, j, some n⟩
  else none

/-- The register position at an address, if a register occupies it. -/
def hitAt (a : Nat) : Option Hit :=
  match viewOf a with
  | some n =>
    let o := (a - 0x30000000) % 0x100000
    regTable.findSome? (hitView (subWin (o / 0x10000)) n (o % 0x10000))
  | none =>
    match winOf a with
    | some w => regTable.findSome? (hitGlobal w (a - winBase w))
    | none => none

/-- What the access codes let a read see: WO fields and reserved bits read zero (R7, R8). -/
def readable (r : RegId) (w : Word) : Word :=
  (regDef r).fields.foldl (fun acc f => if f.acc = .wo then acc else fieldSet acc f.hi f.lo (fieldGet w f.hi f.lo)) 0#32

/-- What a read leaves behind: RC fields are cleared (R8). -/
def afterRead (r : RegId) (w : Word) : Word :=
  (regDef r).fields.foldl (fun acc f => if f.acc = .rc then fieldSet acc f.hi f.lo 0 else acc) w

/-- What a write of `data` leaves in a register, field by field by access code (R7, R8). -/
def afterWrite (r : RegId) (old data : Word) : Word :=
  (regDef r).fields.foldl
    (fun acc f =>
      match f.acc with
      | .rw => fieldSet acc f.hi f.lo (fieldGet data f.hi f.lo)
      | .w1c => acc &&& ~~~ (data &&& maskOf f.hi f.lo)
      | .w1s => acc ||| (data &&& maskOf f.hi f.lo)
      | .ro => acc
      | .wo => acc
      | .rc => acc)
    old

/-- A word whose fields selected by `p` have taken their reset values. -/
def resetFields (p : FieldDef → Bool) (r : RegId) (w : Word) : Word :=
  (regDef r).fields.foldl (fun acc f => if p f then fieldSet acc f.hi f.lo f.rst else acc) w

/-- Reset the fields selected by register, copy, index and field (R11). -/
def regResetBy (p : RegId → Nat → Nat → FieldDef → Bool) (l : RegFile) : RegFile :=
  storeMap keyReset (fun k w => resetFields (p (regOfKey k) (cpOfKey k) (idxOfKey k)) (regOfKey k) w) l

/-- Which Cleared by entries a SYS clears (R11). -/
def Clr.onSys : Clr → Bool
  | .isl => true | .drw => true | .wrld => true | .sys => true | .por => false | .never => false

/-- Which Cleared by entries a POR clears (R11). -/
def Clr.onPor : Clr → Bool
  | .never => false
  | _ => true

end Sys2Proof.Machine
end

