-- ==== Sys2Proof/Machine/State.lean ====
section
/-! DEFINITION. The state of the machine, its stops, and the state after reset. -/

namespace Sys2Proof.Machine

/-- Why the machine may stop with a fault. -/
inductive Fault
  /-- Raised by no meaning: an access to an address the spec says does not exist is an access error of the device (R33,
  R37), which is a next state. Safe. -/
  | none_
  deriving DecidableEq, Repr

/-- Why a command may be refused. -/
inductive Refusal
  /-- Raised by a dispatch arm whose command has no meaning yet. Safe. -/
  | notModelled (mnemonic : String)
  deriving DecidableEq, Repr

/-- The whole state. `resp` is the answer the last access got; `freeIx` counts the free values taken. -/
structure State where
  regs : RegFile
  mem : List Host.Cell
  img : Option Image
  fab : FabSt
  drw : DrwSt
  recd : RecSt
  ztm : ZtmSt
  load : LoadSt
  flt : FltSt
  pins : Store PinSt
  front : FrontSt
  latchedRules : Nat
  lth : LthSt
  canLthQ : Store (List CanMsg)
  can : Store CanSt
  emitted : List Emit
  mtr : MtrSt
  ring : Store RingSt
  ringSig : Store Nat
  seqs : Store Nat
  iom : IomSt
  dvt : DvtSt
  port : Store PortSt
  saKey : Store (List Nat)
  hart : Store HartSt
  wld : WldSt
  dwl : DwlSt
  til : TilSt
  upd : UpdSt
  start : StartSt
  resp : Resp
  freeIx : Nat
  pending : List Instr
  deriving DecidableEq, Repr

/-- The recorder's buffer and its eMRAM halves, blank (log entry 2). -/
def RecSt.blank : RecSt := ⟨[], [], [], [], [], [], [], [], [], ⟨[], []⟩, ⟨[], []⟩, false⟩

/-- The Lathe after a reset, with a blank retentive image. -/
def LthSt.rst : LthSt :=
  ⟨[], [], [], [], [], 0, false, none, ⟨[], [], [], 0⟩, false, false, [], [], [], [], false, [], [], []⟩

/-- The machine right after a POR (R10, R55 to R58), with every register at its reset value: VLOG is valid and a start has begun, no
image is in force (R16), no power-stage die has its state yet (R51), the feeds are absent, and eMRAM and NAND are blank (log entries
2 and 3). -/
def State.reset : State where
  regs := regPut [] .FAB_PWR_STATUS (fieldSet (resetWord .FAB_PWR_STATUS) 0 0 1) 0 0 0
  mem := []
  img := none
  fab := ⟨[], [], [], [], []⟩
  drw := ⟨1, [], [], [], [], none⟩
  recd := RecSt.blank
  ztm := ⟨0, 0, 0, 0, 0, none, none, none, none⟩
  load := ⟨[], [], [], [(0, true), (1, true), (2, true), (3, true)]⟩
  flt := ⟨[], [], false⟩
  pins := []
  front := ⟨0, 0⟩
  latchedRules := 0
  lth := LthSt.rst
  canLthQ := []
  can := []
  emitted := []
  mtr := MtrSt.rst
  ring := []
  ringSig := []
  seqs := []
  iom := ⟨[], none⟩
  dvt := DvtSt.rst
  port := []
  saKey := []
  hart := []
  wld := ⟨false⟩
  dwl := DwlSt.rst
  til := ⟨[], [], none, none, [], none, 0, none, false⟩
  upd := ⟨[], [], none, none, [], [], []⟩
  start := ⟨1, true, 1, false, 0, 0, false, false, false, [], false, [], true, none, false, false, false⟩
  resp := ⟨false, 0⟩
  freeIx := 0
  pending := []

end Sys2Proof.Machine
end

