-- ==== Sys2Proof/Machine/Ops.lean ====
section
/-! DEFINITION. The named operations every unit shares: register fields, stamps, the Carcass image's records, drawers'
features and fault records (R80, R90), alarms, logs and traces (R398 to R402), and memory bytes. -/

namespace Sys2Proof.Machine

/-- The value of a register field at a position. -/
def State.get (s : State) (x : Fld) (i : Nat := 0) (j : Nat := 0) (cp : Nat := 0) : Nat :=
  fieldGet (regGet s.regs x.reg i j cp) x.hi x.lo

/-- Whether a one-bit field is 1. -/
def State.is (s : State) (x : Fld) (i : Nat := 0) (j : Nat := 0) (cp : Nat := 0) : Bool := s.get x i j cp == 1

/-- The state with one register field replaced. -/
def State.put (s : State) (x : Fld) (v : Nat) (i : Nat := 0) (j : Nat := 0) (cp : Nat := 0) : State :=
  { s with regs := regPut s.regs x.reg (fieldSet (regGet s.regs x.reg i j cp) x.hi x.lo v) i j cp }

/-- A plain write of a register: its fields change by their access codes (R7, R8). -/
def State.store (s : State) (r : RegId) (w : Nat) (i : Nat := 0) (j : Nat := 0) (cp : Nat := 0) : State :=
  { s with regs := regPut s.regs r (afterWrite r (regGet s.regs r i j cp) (BitVec.ofNat 32 w)) i j cp }

/-- Raise a counting field by `n`, stopping at its largest value. -/
def State.bump (s : State) (x : Fld) (n : Nat) (i : Nat := 0) (j : Nat := 0) (cp : Nat := 0) : State :=
  s.put x (min (s.get x i j cp + n) (2 ^ (x.hi + 1 - x.lo) - 1)) i j cp

/-- Raise a counting field by one, wrapping. -/
def State.incr (s : State) (x : Fld) (i : Nat := 0) (j : Nat := 0) (cp : Nat := 0) : State :=
  s.put x ((s.get x i j cp + 1) % 2 ^ (x.hi + 1 - x.lo)) i j cp

/-- Fold an update over a list. -/
def State.each {α : Type} (s : State) (l : List α) (f : State → α → State) : State := l.foldl f s

/-- The state with update `f` when `c` holds. -/
def State.when (s : State) (c : Bool) (f : State → State) : State := if c then f s else s

/-- The next free value, and the state that has used it up (log entry 4). -/
def State.free (s : State) : Nat × State := (Config.freeWord s.freeIx, { s with freeIx := s.freeIx + 1 })

/-- Zone time and epoch now (R291, R296). -/
def State.now (s : State) : Stamp := ⟨s.ztm.zone / 2 ^ 32 % 2 ^ 32, s.get F.ZTM_EPOCH_EPOCH⟩

/-- What a byte of memory that nothing has written reads as (log entry 6). -/
def blankByte : Byte := 0#8

/-- One byte of memory. -/
def memByte (m : List Host.Cell) (a : Nat) : Byte := storeGet blankByte m a

/-- Write one byte of memory, keeping the canonical form. -/
def memPut (m : List Host.Cell) (a : Nat) (b : Byte) : List Host.Cell := storePut blankByte m a b

/-- The canonical form of memory. -/
def Memory.wf (m : List Host.Cell) : Bool := storeWf (fun _ => blankByte) m

/-- `n` bytes from address `a`, lowest first. -/
def memBytes (m : List Host.Cell) (a n : Nat) : List Nat := (List.range n).map fun k => (memByte m (a + k)).toNat

/-- Write a byte string from address `a`. -/
def memWrite (m : List Host.Cell) (a : Nat) : List Nat → List Host.Cell
  | [] => m
  | b :: rest => memWrite (memPut m a (BitVec.ofNat 8 b)) (a + 1) rest

/-- A little-endian number from bytes (R6). -/
def leNat : List Nat → Nat
  | [] => 0
  | b :: rest => b % 256 + 256 * leNat rest

/-- The `n` little-endian bytes of a number (R6). -/
def leBytes : Nat → Nat → List Nat
  | 0, _ => []
  | n + 1, v => v % 256 :: leBytes n (v / 256)

/-- Whether the device is in the bare state (R16). -/
def State.bare (s : State) : Bool := s.start.phase == 5

/-! The Carcass image in force -/

/-- The words of section `t` of the image in force; empty when absent. -/
def State.sec (s : State) (t : Nat) : List Nat :=
  match s.img with
  | none => []
  | some im => (im.sections.find? (fun p => p.1 == t)).elim [] (·.2)

/-- Whether the image in force has section `t`. -/
def State.hasSec (s : State) (t : Nat) : Bool :=
  match s.img with
  | none => false
  | some im => im.sections.any (fun p => p.1 == t)

/-- Bits `hi..lo` of word `w` of record `i` of a section whose records have `n` words. -/
def State.imgF (s : State) (t n i w hi lo : Nat) : Nat := bitsOf (at0 (s.sec t) (n * i + w)) hi lo

/-- DRAWERS record field (section 7, 12 words). -/
def State.drawerRec (s : State) (d w hi lo : Nat) : Nat := s.imgF 7 12 d w hi lo

/-- HOSTQ_MASK bit q of drawer d (R25): words 8 and 9 of its DRAWERS record. -/
def State.ownsHostQ (s : State) (d q : Nat) : Bool :=
  if q < 32 then bitOf (s.drawerRec d 8 31 0) q else bitOf (s.drawerRec d 9 31 0) (q - 32)

/-- The drawer that owns host queue q, if any. -/
def State.hostQOwner (s : State) (q : Nat) : Option Nat := (List.range s.drw.count).find? (fun d => s.ownsHostQ d q)

/-- The drawer that owns CAN controller k, if any. -/
def State.canOwner (s : State) (k : Nat) : Option Nat :=
  (List.range s.drw.count).find? (fun d => bitOf (s.drawerRec d 6 15 0) k)

/-- The drawer that owns cyclic task k, if any; the error task (8) is the keeper's. -/
def State.taskOwner (s : State) (k : Nat) : Option Nat :=
  if k = 8 then some 0 else (List.range s.drw.count).find? (fun d => bitOf (s.drawerRec d 7 7 0) k)

/-- The CHANNELS record that defines channel c (R21: a channel has the number of its first segment). -/
def State.chanIdx (s : State) (c : Nat) : Option Nat :=
  (List.range ((s.sec 1).length / 8)).find? (fun i => s.imgF 1 8 i 0 6 0 == c)

/-- Whether c is a channel number. -/
def State.isChan (s : State) (c : Nat) : Bool := (s.chanIdx c).isSome

/-- Bits of word `w` of channel c's CHANNELS record; 0 when c is no channel. -/
def State.ch (s : State) (c w hi lo : Nat) : Nat :=
  match s.chanIdx c with
  | some i => s.imgF 1 8 i w hi lo
  | none => 0

/-- The channel numbers of the image in force, ascending. -/
def State.chans (s : State) : List Nat := below 96 s.isChan

/-- The owner drawer of channel c. -/
def State.chanOwner (s : State) (c : Nat) : Option Nat := if s.isChan c then some (s.ch c 0 19 16) else none

/-! Drawers -/

/-- The drawer's state (R74): 0 IDLE, 1 RUNNING, 2 DRAINING, 3 SQUASHING. -/
def State.drwState (s : State) (d : Nat) : Nat := s.get F.DRW_G_STATE_STATE d

/-- Whether feature bit f is in force for drawer d: accepted by a commit and not yet cleared by a reset (R81, R82). -/
def State.feat (s : State) (d f : Nat) : Bool :=
  s.drwState d != 0 && bitOf (s.get F.DRW_FEAT_ACCEPT_ACCEPT (f / 32) 0 (d + 1)) (f % 32)

/-- The owner of ring r; none in the POOL. -/
def State.ringOwner (s : State) (r : Nat) : Option Nat :=
  match storeGet 0 s.drw.ringOwner r with
  | 0 => none
  | d + 1 => some d

/-- The holder of Till slot k; none in the POOL. -/
def State.tillHolder (s : State) (k : Nat) : Option Nat :=
  match storeGet 0 s.drw.tillOwner k with
  | 0 => none
  | d + 1 => some d

/-- The holder of recorder item k; none in the POOL. -/
def State.recHolder (s : State) (k : Nat) : Option Nat :=
  match storeGet 0 s.drw.recOwner k with
  | 0 => none
  | d + 1 => some d

/-- The rings of a drawer that are not DISABLED and have a kind. -/
def State.ringsOfKind (s : State) (d kind : Nat) : List Nat :=
  below 256 fun r =>
    s.ringOwner r == some d && s.get F.RING_CFG_KIND r == kind && s.get F.RING_STATE_STATE r != 0

/-- Add a fault to drawer d's FIFO (R90): coalesce with the newest record, or add, or drop and count; FAULT is set. -/
def State.faultRecord (s : State) (d cause source : Nat) (write : Bool) (addr unit detail : Nat) : State :=
  let l := storeGet [] s.drw.faults d
  let s := s.put F.DRW_IRQ_STATUS_FAULT 1 0 0 (d + 1)
  let same := match l.getLast? with
    | some r => r.cause == cause && r.unit == unit && r.addr == addr && !r.frozen
    | none => false
  if same then
    let l' := l.dropLast ++ (l.getLast?.map fun r => { r with rep := min (r.rep + 1) 255 }).toList
    { s with drw := { s.drw with faults := storePut [] s.drw.faults d l' } }
  else if l.length < 16 then
    let r : FaultRec := ⟨cause, source, write, 0, addr, unit, detail, s.now.ns, false⟩
    { s with drw := { s.drw with faults := storePut [] s.drw.faults d (l ++ [r]) } }
  else s.bump F.DRW_FAULT_STAT_LOST 1 0 0 (d + 1)

/-- Word k of a fault record as DRW_FAULT_HEADk shows it (R90). -/
def FaultRec.word (r : FaultRec) : Nat → Nat
  | 0 => r.cause + r.source * 256 + b2n r.write * 2048 + r.rep * 65536
  | 1 => r.addr % 2 ^ 32
  | 2 => r.addr / 2 ^ 32 % 256 + r.unit * 256 + r.detail * 16777216
  | _ => r.ns

/-! Alarms, logs and traces -/

/-- Start a flush, or note that a further one follows (R393). -/
def State.flushStart (s : State) : State :=
  if s.is F.REC_FLUSH_BUSY then s.put F.REC_FLUSH_PENDING 1 else s.put F.REC_FLUSH_BUSY 1

/-- Raise an alarm (R399): a pending unfrozen record of the same CODE and UNIT counts it, else it enters the store, sets
REC_EVT.ALARM and starts a flush. -/
def State.alarm (s : State) (code unit detail drawer : Nat) : State :=
  if s.recd.alarms.any (fun r => r.code == code && r.unit == unit && !r.frozen) then
    let l := s.recd.alarms.map fun r =>
      if r.code == code && r.unit == unit && !r.frozen then { r with rep := min (r.rep + 1) 255 } else r
    { s with recd := { s.recd with alarms := l } }
  else
    let r : AlarmRec := ⟨code, drawer, 0, unit, detail, s.now, false⟩
    ({ s with recd := { s.recd with alarms := s.recd.alarms ++ [r] } }.put F.REC_EVT_ALARM 1).flushStart

/-- Word k of an alarm record (R398). -/
def AlarmRec.word (r : AlarmRec) : Nat → Nat
  | 0 => r.code + r.drawer * 256 + r.rep * 65536
  | 1 => r.unit + r.detail * 65536
  | 2 => r.at_.ns
  | _ => r.at_.ep

/-- The register copies that act for a drawer: its view's, and for D0 the global window's too. -/
def cpsOf (d : Nat) : List Nat := if d = 0 then [0, 1] else [d + 1]

/-- Set a field in every copy that acts for a drawer. -/
def State.putFor (s : State) (d : Nat) (x : Fld) (v : Nat) : State := s.each (cpsOf d) fun s cp => s.put x v 0 0 cp

/-- Raise a counting field in every copy that acts for a drawer. -/
def State.bumpFor (s : State) (d : Nat) (x : Fld) : State := s.each (cpsOf d) fun s cp => s.bump x 1 0 0 cp

/-- Whether a bit of a field is set in any copy that acts for a drawer. -/
def State.bitFor (s : State) (d : Nat) (x : Fld) (b : Nat) : Bool := (cpsOf d).any fun cp => bitOf (s.get x 0 0 cp) b

/-- Count a log of sequence number `n` as lost (R401). -/
def State.loseLog (s : State) (d n : Nat) : State :=
  let c := storeGet 0 s.recd.lostLogs d
  let first := if c = 0 then storePut 0 s.recd.lostFirst d n else s.recd.lostFirst
  { s with recd := { s.recd with lostLogs := storePut 0 s.recd.lostLogs d (c + 1), lostFirst := first } }.bumpFor d
    F.REC_LOG_LOST_LOGS

/-- Stage the LOST record of drawer d when logs were lost, none is staged and a place is free (R401). -/
def State.stageLost (s : State) (d : Nat) : State :=
  let st := storeGet [] s.recd.staging d
  let c := storeGet 0 s.recd.lostLogs d
  if c ≠ 0 ∧ st.length < 16 ∧ st.all (fun r => r.cls != 3) then
    let r : LogRec :=
      ⟨3, 0, 0, 0, s.now, storeGet 0 s.recd.lostFirst d, c, storeGet 0 s.recd.lostTraces d⟩
    { s with recd := { s.recd with
        staging := storePut [] s.recd.staging d (st ++ [r])
        lostLogs := storePut 0 s.recd.lostLogs d 0
        lostTraces := storePut 0 s.recd.lostTraces d 0 } }
  else s

/-- The number of the next record of drawer d's sources (R400), and the state that has used it. -/
def State.nextSeq (s : State) (d : Nat) : Nat × State :=
  let n := storeGet 0 s.recd.seq d
  (n, { s with recd := { s.recd with seq := storePut 0 s.recd.seq d ((n + 1) % 2 ^ 32) } })

/-- A rising event of LOG source `src` on a unit of drawer d (R400, R401). -/
def State.logEvent (s : State) (d src unit bits : Nat) : State :=
  if s.bitFor d F.REC_LOG_EN_LOG_EN src then
    let (n, s) := s.nextSeq d
    if !s.feat d 12 || (s.ringsOfKind d 5).isEmpty then s.loseLog d n
    else
      let s := s.stageLost d
      let st := storeGet [] s.recd.staging d
      if st.length < 16 then
        let r : LogRec := ⟨1, src, 0, unit, s.now, n, bits, 0⟩
        { s with recd := { s.recd with staging := storePut [] s.recd.staging d (st ++ [r]) } }
      else (s.loseLog d n).putFor d F.REC_LOG_STAT_LOG_LOST 1
  else s

/-- The trace backlog's places (R388). -/
def backlogCap : Nat := 97792

/-- An event of TRACE source `src` of drawer d (R400, R402). -/
def State.trace (s : State) (d src unit a0 a1 : Nat) : State :=
  if s.bitFor d F.REC_TRACE_EN_TRACE_EN src then
    let (n, s) := s.nextSeq d
    let lv := s.get F.REC_LOG_STAT_LEVEL 0 0 (d + 1)
    if n % 2 ^ lv ≠ 0 then s.bumpFor d F.REC_LOG_SAMPLED_SAMPLED
    else if s.recd.backlog.length ≥ backlogCap then
      { s with recd := { s.recd with
          lostTraces := storePut 0 s.recd.lostTraces d (storeGet 0 s.recd.lostTraces d + 1) } }.bumpFor d
        F.REC_LOG_LOST_TRACES
    else
      let r : LogRec := ⟨2, src, lv, unit, s.now, n, a0, a1⟩
      { s with recd := { s.recd with backlog := s.recd.backlog ++ [(d, r)] } }
  else s

/-- Set event bits of a W1C field; the bits that rise are logged for the owner drawer, when the unit has one (R118). -/
def State.raise (s : State) (x : Fld) (mask i j cp : Nat) (owner : Option Nat) (src unit : Nat) : State :=
  let old := s.get x i j cp
  let new := (old ||| mask) - old
  if new = 0 then s
  else
    let s := s.put x (old ||| mask) i j cp
    match owner with
    | some d => s.logEvent d src unit new
    | none => s

/-- A source takes a sample (R390, R392): it waits in its accumulation until the next merge. -/
def State.sample (s : State) (kind index : Nat) (v : Nat) : State :=
  { s with recd := { s.recd with accum := s.recd.accum ++ [⟨kind, index, BitVec.ofNat 32 v, s.now⟩] } }

/-- Record an answer. -/
def State.answer (s : State) (ok : Bool) (data : Nat) : State := { s with resp := ⟨ok, data⟩ }

/-! Atomic operations (R339) -/

/-- Whether an operation is an atomic sequence. -/
def AccOp.atomic : AccOp → Bool
  | .amo _ => true
  | .cas _ => true
  | .lr => true
  | .sc => true
  | _ => false

/-- What an atomic operation writes (RISC-V A extension; R339). -/
def amoResult {n : Nat} (o : AtomOp) (v x : BitVec n) : BitVec n :=
  match o with
  | .swap => x
  | .add => v + x
  | .xor => v ^^^ x
  | .and_ => v &&& x
  | .or_ => v ||| x
  | .min => if v.slt x then v else x
  | .max => if v.slt x then x else v
  | .minu => if v.ult x then v else x
  | .maxu => if v.ult x then x else v

/-- What an atomic writes when the target held `v`. -/
def atomicResult (o : AtomOp) (size v x : Nat) : Nat :=
  (amoResult o (BitVec.ofNat (8 * size) v) (BitVec.ofNat (8 * size) x)).toNat

/-! Power and islands (R44, R55) -/

/-- The phases of a device (R49 to R63). -/
abbrev Ph.off : Nat := 0
abbrev Ph.began : Nat := 1
abbrev Ph.banks : Nat := 2
abbrev Ph.taken : Nat := 3
abbrev Ph.run : Nat := 4
abbrev Ph.bare : Nat := 5
abbrev Ph.fail : Nat := 6
abbrev Ph.toSleep : Nat := 7
abbrev Ph.sleep : Nat := 8

def State.phase (s : State) : Nat := s.start.phase

/-- Whether the compute die has power. -/
def State.awake (s : State) : Bool := s.phase != Ph.off && s.phase != Ph.sleep

/-- The power state of an island (R44). -/
def State.islState (s : State) (n : Nat) : Nat := s.get F.FAB_ISL_STATE_STATE n

/-- States of an island (R44). -/
abbrev Isl.on : Nat := 0
abbrev Isl.draining : Nat := 1
abbrev Isl.hold : Nat := 2
abbrev Isl.wiping : Nat := 3
abbrev Isl.gated : Nat := 4
abbrev Isl.off : Nat := 5
abbrev Isl.waking : Nat := 6

/-- Whether the engines of island n work: the device has power, and the island is neither gated nor off nor waking (R44). -/
def State.live (s : State) (n : Nat) : Bool :=
  s.awake && s.islState n < Isl.gated

/-- Whether an external port's link is up (R275); host ports are always up (R251). -/
def State.portUp (s : State) (p : Nat) : Bool := decide (30 ≤ p) || s.get F.EPT_LINK_STATE p == 2

/-! Counters of a port (R288) -/

/-- Count in counter i of port p: it wraps, and a change of bit 31 sets its HALF bit and CNT_HALF. -/
def State.cnt (s : State) (p i n : Nat) : State :=
  if s.get F.EPT_LINK_STATE p = 3 ∨ 30 ≤ p then s
  else
    let old := s.get F.EPT_CNT_COUNT p i
    let new := (old + n) % 2 ^ 32
    let s := s.put F.EPT_CNT_COUNT new p i
    if bitOf old 31 == bitOf new 31 then s
    else
      let s := if i < 32 then s.put F.EPT_HALF_LO_HALF (setBitTo (s.get F.EPT_HALF_LO_HALF p) i true) p
        else s.put F.EPT_HALF_HI_HALF (setBitTo (s.get F.EPT_HALF_HI_HALF p) (i - 32) true) p
      s.raise ⟨.EPT_EVT, 6, 0⟩ 64 p 0 0 (some 0) 6 p

/-- Events of a port, by bit of EPT_EVT; logged for the keeper (R400). -/
def State.portEvt (s : State) (p b : Nat) : State := s.raise ⟨.EPT_EVT, 6, 0⟩ (2 ^ b) p 0 0 (some 0) 6 p

/-- The length counter of a frame, from index `base`. -/
def lenBin (base n : Nat) : Nat :=
  base + (if n ≤ 64 then 0 else if n ≤ 127 then 1 else if n ≤ 255 then 2 else if n ≤ 511 then 3
    else if n ≤ 1023 then 4 else if n ≤ 1518 then 5 else 6)

/-- The destination-kind counter of a frame, from index `base`. -/
def kindBin (base : Nat) (data : List Nat) : Nat :=
  if data.take 6 = [255, 255, 255, 255, 255, 255] then base + 2
  else if at0 data 0 % 2 = 1 then base + 1 else base

/-- Count a good frame received. -/
def State.cntRx (s : State) (p : Nat) (data : List Nat) : State :=
  let n := data.length + 4
  ((((s.cnt p 0 1).cnt p 1 n).cnt p (kindBin 2 data) 1).cnt p (lenBin 5 n) 1).sample 6 p n

/-- Count a frame sent whole. -/
def State.cntTx (s : State) (p : Nat) (data : List Nat) : State :=
  let n := data.length + 4
  (((s.cnt p 22 1).cnt p 23 n).cnt p (kindBin 24 data) 1).cnt p (lenBin 27 n) 1

/-- A next state. -/
abbrev Out := Host.Outcome State Fault Refusal

end Sys2Proof.Machine
end

