-- ==== Sys2Proof/Machine/LoadOps.lean ====
section
/-! DEFINITION. Channels in their power-stage dies: flags and events, output resolution and edges, trips, retries,
retirement, holds, the wire model and feed budgets (ch. 5 and 6), with SAFEN's reasons and unit retirement (ch. 21). -/

namespace Sys2Proof.Machine

/-! SAFEN reasons and retirement of units (R416, R422) -/

/-- Set a SAFEN reason bit; bits 4 to 6 only while armed (R422). -/
def State.safenSet (s : State) (b : Nat) : State :=
  if b < 4 || bitOf (s.get F.FAB_SAFEN_MASK_ARM) (b - 4) then
    s.put F.FAB_SAFEN_REASON (setBitTo (s.get F.FAB_SAFEN_REASON) b true)
  else s

/-- The key of a retirable unit. -/
def unitKey (kind unit : Nat) : Nat := 256 * kind + unit

/-- Whether a retirable unit is out of service (R419). -/
def State.unitOut (s : State) (kind unit : Nat) : Bool := storeGet false s.flt.out (unitKey kind unit)

/-- Whether eMRAM holds a unit as RETIRED (R415). -/
def State.unitRetired (s : State) (kind unit : Nat) : Bool :=
  bitOf (s.get F.FAB_RET_UNITS (kind - 1) (unit / 32)) (unit % 32)

/-- Set or clear a unit's RETIRED bit in eMRAM. -/
def State.putRetired (s : State) (kind unit : Nat) (b : Bool) : State :=
  s.put F.FAB_RET_UNITS (setBitTo (s.get F.FAB_RET_UNITS (kind - 1) (unit / 32)) (unit % 32) b) (kind - 1) (unit / 32)

/-- Whether eMRAM holds a unit as SUSPECT (R415). -/
def State.unitSuspect (s : State) (kind unit : Nat) : Bool :=
  bitOf (s.get F.FAB_SUS_UNITS (kind - 1) (unit / 32)) (unit % 32)

/-- Set or clear a unit's SUSPECT bit in eMRAM. -/
def State.putSuspect (s : State) (kind unit : Nat) (b : Bool) : State :=
  s.put F.FAB_SUS_UNITS (setBitTo (s.get F.FAB_SUS_UNITS (kind - 1) (unit / 32)) (unit % 32) b) (kind - 1) (unit / 32)

/-- A unit is classified permanent (R416): out of service at once, its record pending, its alarm raised, and the SAFEN
reason RETIRE set when armed. -/
def State.retireUnit (s : State) (kind unit code drawer detail : Nat) : State :=
  let s := { s with flt := { s.flt with
    out := storePut false s.flt.out (unitKey kind unit) true
    pend := if s.flt.pend.contains (kind, unit) then s.flt.pend else s.flt.pend ++ [(kind, unit)] } }
  (s.alarm code unit detail drawer).safenSet 4

/-- The outcome of one start test of a unit (R412, R415): a pass clears SUSPECT, a failure in OK makes it SUSPECT, a
failure in SUSPECT retires it. A unit already out of service is left. -/
def State.startTest (s : State) (kind unit code drawer : Nat) (pass : Bool) : State :=
  if s.unitOut kind unit then s
  else if pass then s.putSuspect kind unit false
  else if s.unitSuspect kind unit then
    let s := s.putSuspect kind unit false
    let s := { s with flt := { s.flt with byTest := true } }
    s.retireUnit kind unit code drawer 0
  else s.putSuspect kind unit true

/-! Channels: state, flags and events -/

/-- What the die holds for channel c. -/
def State.lc (s : State) (c : Nat) : LoadCh := storeGet LoadCh.por s.load.ch c

/-- Replace what the die holds for channel c. -/
def State.putLc (s : State) (c : Nat) (x : LoadCh) : State :=
  { s with load := { s.load with ch := storePut LoadCh.por s.load.ch c x } }

/-- Raise an interrupt line of the Mitre unit (R224): a level that MTR_INT_ACK shows and clears. -/
def State.mitreLine (s : State) (n : Nat) : State :=
  s.put F.MTR_INT_ACK_ACK (setBitTo (s.get F.MTR_INT_ACK_ACK) n true)

/-- Flag positions (R117). -/
abbrev Flag.onState : Nat := 0
abbrev Flag.ocWarn : Nat := 1
abbrev Flag.ocTrip : Nat := 2
abbrev Flag.wireWarn : Nat := 3
abbrev Flag.wireTrip : Nat := 4
abbrev Flag.openLoad : Nat := 5
abbrev Flag.shortBat : Nat := 6
abbrev Flag.tempWarn : Nat := 7
abbrev Flag.tempLatch : Nat := 8
abbrev Flag.retryExh : Nat := 9
abbrev Flag.retired : Nat := 10
abbrev Flag.holding : Nat := 11
abbrev Flag.budgetShed : Nat := 12
abbrev Flag.harnessBlock : Nat := 13

/-- Whether a channel's flag is set. -/
def State.flag (s : State) (c b : Nat) : Bool := bitOf (s.get F.LCH_FLAGS_FLAGS c) b

/-- Set a flag; its rising edge sets the event bit (R118), and a trip flag's raises Mitre line 9 (R224). -/
def State.setFlag (s : State) (c b : Nat) : State :=
  if s.flag c b then s
  else
    let s := s.put F.LCH_FLAGS_FLAGS (setBitTo (s.get F.LCH_FLAGS_FLAGS c) b true) c
    let s := s.raise F.LCH_EVENTS_EVENTS (2 ^ b) c 0 0 (s.chanOwner c) 0 c
    if b = Flag.ocTrip ∨ b = Flag.wireTrip ∨ b = Flag.tempLatch then s.mitreLine 9 else s

/-- Clear a flag. -/
def State.clearFlag (s : State) (c b : Nat) : State :=
  s.put F.LCH_FLAGS_FLAGS (setBitTo (s.get F.LCH_FLAGS_FLAGS c) b false) c

/-- Set or clear a flag. -/
def State.flagTo (s : State) (c b : Nat) (v : Bool) : State := if v then s.setFlag c b else s.clearFlag c b

/-- Protection states (R120). -/
abbrev Prot.armed : Nat := 0
abbrev Prot.waiting : Nat := 1
abbrev Prot.latched : Nat := 2
abbrev Prot.exhausted : Nat := 3
abbrev Prot.retired : Nat := 4

/-- The protection state of a channel. -/
def State.prot (s : State) (c : Nat) : Nat := s.get F.LCH_PROT_STATE c

/-- The kind of a channel (R97): 0 LAMP, 1 MOTOR, 2 HEATER, 3 VALVE, 4 CAPFEED. -/
def State.chKind (s : State) (c : Nat) : Nat := s.ch c 0 14 12

/-- The drive source of a channel (R98): 0 LATHE_BIT, 1 PWM, 2 DRV, 3 REG. -/
def State.chSrc (s : State) (c : Nat) : Nat := s.ch c 1 1 0

/-- The SEL field of a channel. -/
def State.chSel (s : State) (c : Nat) : Nat := s.ch c 1 6 2

/-- The bank, and power-stage die, of a channel or segment (R94). -/
def bankOf (c : Nat) : Nat := c / 24

/-- The feed of a channel or segment (R94): 0 FEEDA, 1 FEEDB. -/
def feedOf (c : Nat) : Nat := c / 48

/-- The rated temperature of an insulation class code in °C (R69). -/
def insulTemp : Nat → Rat
  | 1 => 85 | 2 => 100 | 3 => 125 | 4 => 150 | 5 => 175 | 6 => 200
  | _ => 85

/-- T_a in °C: LCH_WIRE_AMB read as two's complement and held within −40 to 125 (R114). -/
def State.ambient (s : State) : Int :=
  let v := s.get F.LCH_WIRE_AMB_AMB_C
  let i : Int := if v < 128 then v else (v : Int) - 256
  max (-40) (min 125 i)

/-- The wire condition of R113 and R123: after a WIRE trip, the model is at or above T_r − 20 K. -/
def State.wireGate (s : State) (c : Nat) : Bool :=
  s.flag c Flag.wireTrip && decide ((s.lc c).temp ≥ insulTemp (s.lc c).insul - 20)

/-! Output resolution (R101 to R104) -/

/-- The deciding level and the command it gives: 0 OFF, 1 high side on, 2 low side on (R101, R102). -/
def State.decide_ (s : State) (c : Nat) : Nat × Nat :=
  let x := s.lc c
  if s.flag c Flag.retired || s.flag c Flag.harnessBlock then (1, 0)
  else if s.prot c != Prot.armed || s.flag c Flag.ocTrip || s.flag c Flag.wireTrip || s.flag c Flag.tempLatch then (2, 0)
  else if x.asleep then (6, 0)
  else if x.clamp = 1 then (3, 0)
  else if x.clamp = 2 then (3, 1)
  else if s.flag c Flag.budgetShed then (4, 0)
  else if s.flag c Flag.holding then (5, b2n x.holdVal)
  else if s.is F.LCH_STATE_SRC_VAL c then (6, 1)
  else (6, if s.chKind c = 1 then 2 else 0)

/-- An off edge ends: the high side is open; with an activation gap of zero the activation ends (R103), and with it its first 10 µs,
which go on when only a pulse of a PWM source ends (R127). The low side of a MOTOR channel follows when the command is LOW (R96). -/
def State.offDone (s : State) (c : Nat) : State :=
  let (lvl, cmd) := s.decide_ c
  let s := s.putLc c { s.lc c with edge := 0, hsWin := (s.lc c).hsWin && s.chSrc c == 1 && lvl == 6 }
  let s := s.put F.LCH_STATE_OUT (if cmd = 2 then 2 else 0) c
  if s.chSrc c = 1 then s else (s.clearFlag c Flag.onState).put F.LCH_STATE_PHASE 0 c

/-- The high side begins to conduct: within an activation only an on edge, else a new activation with the full profile
(R103), and after a restart or a hold (R123, R133); an off-state check ends (R116). -/
def State.turnOn (s : State) (c : Nat) : State :=
  let s := s.put F.LCH_STATE_OUT 1 c
  if s.flag c Flag.onState && !(s.lc c).renew then s.putLc c { s.lc c with edge := 1, chk := 0 }
  else
    let (v, s) := s.free
    let s := s.putLc c { s.lc c with edge := 1, chk := 0, hsWin := true, renew := false }
    let s := (s.setFlag c Flag.onState).put F.LCH_STATE_PHASE 1 c
    match s.chanOwner c with
    | some d => s.trace d 1 c c v
    | none => s

/-- Bring the output of channel c to a command; `fast` discharges the gate at once (R102). -/
def State.applyCmd (s : State) (c cmd : Nat) (fast : Bool) : State :=
  let out := s.get F.LCH_STATE_OUT c
  let x := s.lc c
  if cmd = 1 then
    if out = 1 then (if x.edge = 2 then s.putLc c { x with edge := 1 } else s) else s.turnOn c
  else if out = 1 then
    if fast || s.chKind c == 3 then s.offDone c
    else if x.edge = 2 then s else s.putLc c { x with edge := 2 }
  else if cmd = 2 then (s.put F.LCH_STATE_OUT 2 c).putLc c { x with chk := 0 }
  else s.put F.LCH_STATE_OUT 0 c

/-- Resolve the output of channel c (R101). A die without state drives nothing (R51, R454). -/
def State.resolve (s : State) (c : Nat) : State :=
  if !s.isChan c || storeGet false s.load.lost (bankOf c) then s
  else
    let (lvl, cmd) := s.decide_ c
    (s.put F.LCH_STATE_WINNER lvl c).applyCmd c cmd (decide (lvl ≤ 2))

/-- Whether drive values reach the power-stage dies: not once a power-fail sequence or sleep entry has begun (R52, R61). -/
def State.drivesReach (s : State) : Bool := decide (s.start.phase < 6)

/-- The drive value a die has of channel c. -/
def State.setDrive (s : State) (c : Nat) (v : Bool) : State :=
  if s.drivesReach then s.put F.LCH_STATE_SRC_VAL (b2n v) c else s

/-- The drive value of channel c changes (R98). -/
def State.drive (s : State) (c : Nat) (v : Bool) : State := (s.setDrive c v).resolve c

/-! Trips, retries and retirement (R120 to R129) -/

/-- Retire channel c (R128): OFF at level 1, BUDGET_SHED cleared, an alarm, and a record pending for every segment. -/
def State.retireChan (s : State) (c cause : Nat) : State :=
  let s := (s.put F.LCH_PROT_STATE Prot.retired c).put F.LCH_PROT_RETIRE_CAUSE cause c
  let s := (s.setFlag c Flag.retired).clearFlag c Flag.budgetShed
  let segs := (List.range (s.ch c 0 9 8 + 1)).map (c + ·)
  let s := { s with flt := { s.flt with
    out := segs.foldl (fun o g => storePut false o (unitKey 1 g) true) s.flt.out
    pend := s.flt.pend ++ (segs.map fun g => (1, g)).filter (fun p => !s.flt.pend.contains p) } }
  let s := (s.alarm 0x02 c cause ((s.chanOwner c).getD 0)).safenSet 4
  s.resolve c

/-- Trip causes, as LCH_STATE.TRIP_CAUSE codes them. -/
abbrev Trip.oc : Nat := 1
abbrev Trip.shortFast : Nat := 2
abbrev Trip.segShare : Nat := 3
abbrev Trip.wire : Nat := 4
abbrev Trip.temp : Nat := 5
abbrev Trip.lowSide : Nat := 6

/-- The flag a trip cause sets (R117). -/
def tripFlag (cause : Nat) : Nat :=
  if cause = Trip.wire then Flag.wireTrip else if cause = Trip.temp then Flag.tempLatch else Flag.ocTrip

/-- A protection trip of channel c in ARMED (R121, R127): the flag and cause, the episode, the classification, and the next
protection state; the output then opens at level 1 or 2. -/
def State.trip (s : State) (c cause : Nat) : State :=
  if s.prot c != Prot.armed then s
  else
    let x := s.lc c
    let s := (s.setFlag c (tripFlag cause)).put F.LCH_STATE_TRIP_CAUSE cause c
    let fresh := !s.is F.LCH_PROT_EPISODE c
    let ep := if fresh then 0 else x.episodeMs
    let s := (s.put F.LCH_PROT_EPISODE 1 c).putLc c { x with episodeMs := ep, quietMs := 0 }
    let attempt := cause == Trip.shortFast && x.hsWin
    let hard := attempt && s.is F.LCH_PROT_HARD_SHORT c
    let window := s.get F.LCH_PROT_RETRY_LEFT c == 0 && decide (1 ≤ s.ch c 4 3 0) && decide (ep < s.ch c 4 15 4 * 1000)
    let s := if attempt then s.put F.LCH_PROT_HARD_SHORT 1 c else s
    if hard || window then s.retireChan c (if hard then 2 else 1)
    else if s.get F.LCH_PROT_RETRY_LEFT c = 0 then
      ((s.put F.LCH_PROT_STATE Prot.exhausted c).setFlag c Flag.retryExh).resolve c
    else (s.put F.LCH_PROT_STATE (if cause = Trip.temp then Prot.latched else Prot.waiting) c).resolve c

/-- TEMP_LATCH is set (R111): a trip in ARMED; in WAITING it moves the channel to LATCHED and is no further trip (R120). -/
def State.tempLatch (s : State) (c : Nat) : State :=
  if s.prot c = Prot.armed then s.trip c Trip.temp
  else
    let s := s.setFlag c Flag.tempLatch
    if s.prot c = Prot.waiting then s.put F.LCH_PROT_STATE Prot.latched c else s

/-- The restart of a WAITING channel (R123): it needs TEMP_LATCH clear and the wire condition, clears the trip flags, uses
one retry and enters ARMED. -/
def State.restart (s : State) (c : Nat) : State :=
  if s.prot c == Prot.waiting && !s.flag c Flag.tempLatch && !s.wireGate c then
    let s := (s.clearFlag c Flag.ocTrip).clearFlag c Flag.wireTrip
    let s := s.put F.LCH_PROT_RETRY_LEFT (s.get F.LCH_PROT_RETRY_LEFT c - 1) c
    let s := s.putLc c { s.lc c with renew := true }
    (s.put F.LCH_PROT_STATE Prot.armed c).resolve c
  else s

/-- A REARM write (R126): accepted only in EXHAUSTED with TEMP_LATCH clear and the wire condition met; else REARM_REJ, which an accepted
REARM leaves as it is (log entry 120). -/
def State.rearm (s : State) (c : Nat) : State :=
  if s.prot c == Prot.exhausted && !s.flag c Flag.tempLatch && !s.wireGate c then
    let s := ((s.clearFlag c Flag.ocTrip).clearFlag c Flag.wireTrip).clearFlag c Flag.retryExh
    let s := (s.put F.LCH_PROT_RETRY_LEFT (s.ch c 4 3 0) c).put F.LCH_PROT_EPISODE 0 c
    let s := (s.put F.LCH_PROT_HARD_SHORT 0 c).putLc c { s.lc c with episodeMs := 0, quietMs := 0 }
    (s.put F.LCH_PROT_STATE Prot.armed c).resolve c
  else s.put F.LCH_PROT_REARM_REJ 1 c

/-- The episode closes (R122). -/
def State.episodeClose (s : State) (c : Nat) : State :=
  let s := (s.put F.LCH_PROT_RETRY_LEFT (s.ch c 4 3 0) c).put F.LCH_PROT_EPISODE 0 c
  s.putLc c { s.lc c with episodeMs := 0, quietMs := 0 }

/-- The protection state a channel has after POR or a clearance (R129, R454): ARMED, budget full, no episode, count 0. -/
def State.freshProt (s : State) (c : Nat) : State :=
  let s := (s.put F.LCH_PROT_STATE Prot.armed c).put F.LCH_PROT_RETRY_LEFT (s.ch c 4 3 0) c
  let s := (s.put F.LCH_PROT_EPISODE 0 c).put F.LCH_PROT_HARD_SHORT 0 c
  s.putLc c { s.lc c with episodeMs := 0, quietMs := 0 }

/-! The wire model (R112, R113) -/

/-- The resistance per metre of a conductor: 0.0178 / A × (1 + 0.00393 × (T_r − 20)). -/
def wireR (csa insul : Nat) : Rat :=
  (178 / 10000) / ((csa : Rat) / 100) * (1 + (393 / 100000) * (insulTemp insul - 20))

/-- The integer square root of n, when it has at most `b` bits. -/
def natRoot : Nat → Nat → Nat
  | 0, _ => 0
  | b + 1, n =>
    let r := 2 * natRoot b (n / 4)
    if (r + 1) * (r + 1) ≤ n then r + 1 else r

/-- √csa, to 12 decimal places (log entry 7). -/
def wireRoot (csa : Nat) : Rat := (natRoot 48 (csa * 10 ^ 24) : Rat) / 10 ^ 12

/-- The thermal resistance per metre, 14 / √A, A being csa / 100 mm². -/
def wireK (csa : Nat) : Rat := 140 / wireRoot csa

/-- The step factor exp(−0.001 / τ), τ = 63 × √A, by its series to the fourth power: the terms left out are below 10⁻²¹ (log entry 7). -/
def wireDecay (csa : Nat) : Rat :=
  let x := 1 / (6300 * wireRoot csa)
  1 - x + x * x / 2 - x * x * x / 6 + x * x * x * x / 24

/-- One 1 ms step of the model temperature from the mean of I² in mA². -/
def wireStep (ta t : Rat) (csa insul meanI2 : Nat) : Rat :=
  let p := (meanI2 : Rat) / 1000000 * wireR csa insul
  let tss := ta + p * wireK csa
  tss + (t - tss) * wireDecay csa

/-- The 1 ms step of channel c: the episode clocks (R121), the temperature, WIRE_WARN, and the WIRE trip (R113). -/
def State.wireModel (s : State) (c meanI2 : Nat) : State :=
  let x := s.lc c
  let run := !s.flag c Flag.tempLatch && s.is F.LCH_PROT_EPISODE c
  let t := wireStep s.ambient x.temp x.csa x.insul meanI2
  let x' := { x with
    temp := t
    episodeMs := if run then x.episodeMs + 1 else x.episodeMs
    quietMs := if run && s.prot c == Prot.armed then x.quietMs + 1 else x.quietMs }
  let s := s.putLc c x'
  let tr := insulTemp x.insul
  let s := if t ≥ tr - 10 then s.setFlag c Flag.wireWarn
    else if t < tr - 15 then s.clearFlag c Flag.wireWarn else s
  if t ≥ tr then s.trip c Trip.wire else s

/-! Holds (R130 to R135) -/

/-- Sleep entry turns channel c off whatever commands it (R61): both switches open until the next start. -/
def State.sleepDrop (s : State) (c : Nat) : State :=
  let s := s.setDrive c false
  (s.putLc c { s.lc c with asleep := true, holdVal := false }).resolve c

/-- A start ends what sleep entry did to channel c. -/
def State.sleepLift (s : State) (c : Nat) : State :=
  if (s.lc c).asleep then (s.putLc c { s.lc c with asleep := false }).resolve c else s

/-- The value a hold captures: the drive value in force; for a PWM source, whether the DUTY in force is not 0 (R130). A channel that sleep
entry turned off had none. -/
def State.captured (s : State) (c : Nat) : Bool :=
  if (s.lc c).asleep then false
  else if s.chSrc c = 1 then s.get F.LCH_PWM_DUTY (s.chSel c) != 0 else s.is F.LCH_STATE_SRC_VAL c

/-- A hold begins on channel c at an event of kind `by_` (1 ISL of BNKk, 2 SYS or power-fail, 3 sleep). An event during a
hold starts no new one, but the hold then ends as the wider event's does; the SYS of a wake begins the channel's own policy
with the value it holds (R130, R135). -/
def State.holdBegin (s : State) (by_ c : Nat) : State :=
  let x := s.lc c
  let pol := if by_ = 3 then 1 else s.ch c 0 27 26
  if s.flag c Flag.holding then
    if x.holdBy = 3 ∧ by_ = 2 then
      let s := s.put F.LCH_PROT_HOLD_EXPIRED 0 c
      (s.putLc c { x with holdPol := pol, holdBy := 2, holdVal := x.holdVal && decide (pol ≠ 0) }).resolve c
    else if by_ = 3 then s.putLc c { x with holdPol := 1, holdBy := 3 }
    else s.putLc c { x with holdBy := max x.holdBy by_ }
  else
    let v := s.captured c && decide (pol ≠ 0)
    let s := (s.put F.LCH_PROT_HOLD_EXPIRED 0 c).putLc c { x with holdPol := pol, holdBy := by_, holdVal := v }
    (s.setFlag c Flag.holding).resolve c

/-- A KEEP_FOR time runs out (R130). -/
def State.holdExpire (s : State) (c : Nat) : State :=
  let x := s.lc c
  if s.flag c Flag.holding && x.holdPol == 2 then
    ((s.put F.LCH_PROT_HOLD_EXPIRED 1 c).putLc c { x with holdVal := false }).resolve c
  else s

/-- The actual output of channel c as a hold's end or a restart adopts it (R132, R180; log entry 121): 0 from the start of an off edge. -/
def State.actualOut (s : State) (c : Nat) : Bool := s.get F.LCH_STATE_OUT c == 1 && (s.lc c).edge != 2

/-- The hold of channel c ends (R132): a REG channel adopts its actual output; level 6 decides from then on. While an off edge is under
way the actual output counts as 0 (log entry 121). -/
def State.holdEnd (s : State) (c : Nat) : State :=
  let s := if s.chSrc c = 3 then
      let v := b2n (s.actualOut c)
      (s.put F.LCH_CMD_ON v c).put F.LCH_STATE_SRC_VAL v c
    else s
  let s := s.putLc c { s.lc c with holdBy := 0, holdPol := 0, holdVal := false, renew := s.get F.LCH_STATE_OUT c != 1 }
  let s := (s.clearFlag c Flag.holding).resolve c
  s.putLc c { s.lc c with renew := false }

/-! PWM units (R99) -/

/-- What the unit holds. -/
def State.pw (s : State) (k : Nat) : PwmSt := storeGet PwmSt.rst s.load.pwm k

/-- Replace what the unit holds. -/
def State.putPw (s : State) (k : Nat) (x : PwmSt) : State :=
  { s with load := { s.load with pwm := storePut PwmSt.rst s.load.pwm k x } }

/-- Rounded division, halves upward. -/
def divRound (a b : Nat) : Nat := (2 * a + b) / (2 * b)

/-- FREQ_HZ and ENABLE of PWM unit k (section 3). -/
def State.pwmFreq (s : State) (k : Nat) : Nat := s.imgF 3 1 k 0 14 0
def State.pwmEnabled (s : State) (k : Nat) : Bool := s.imgF 3 1 k 0 15 15 == 1

/-- The period in ticks of 10 ns. -/
def State.pwmPeriod (s : State) (k : Nat) : Nat := divRound 100000000 (s.pwmFreq k)

/-- The ticks a DUTY keeps the output at 1: round(P × DUTY / 10,000), DUTY at most 10,000. -/
def State.pwmOnTicks (s : State) (k : Nat) : Nat :=
  divRound (s.pwmPeriod k * min (s.get F.LCH_PWM_DUTY k) 10000) 10000

/-- The channels a PWM unit drives. -/
def State.pwmChans (s : State) (k : Nat) : List Nat := s.chans.filter fun c => s.chSrc c == 1 && s.chSel c == k

/-- The output of a unit changes. -/
def State.pwmOut (s : State) (k : Nat) (v : Bool) : State :=
  (s.putPw k { s.pw k with out := v }).each (s.pwmChans k) fun s c => s.drive c v

/-! Feed budget (R136 to R138) -/

/-- What the feed logic holds. -/
def State.fd (s : State) (f : Nat) : FeedSt := storeGet FeedSt.por s.load.feed f

/-- Replace what the feed logic holds. -/
def State.putFd (s : State) (f : Nat) (x : FeedSt) : State :=
  { s with load := { s.load with feed := storePut FeedSt.por s.load.feed f x } }

/-- BUDGET and NOMINAL of a feed (section 2). -/
def State.feedBudget (s : State) (f : Nat) : Nat := s.imgF 2 2 f 0 15 0
def State.feedNominal48 (s : State) (f : Nat) : Bool := s.imgF 2 2 f 0 16 16 == 1

/-- The channels of a feed, ascending. -/
def State.feedChans (s : State) (f : Nat) : List Nat := s.chans.filter fun c => feedOf c == f

/-- SHED_PRIO of a channel. -/
def State.shedPrio (s : State) (c : Nat) : Nat := s.ch c 0 23 21

/-- The candidates of a shed step in the order they are shed: SHED_PRIO from 0 to 6, the higher channel first (R137). -/
def State.shedOrder (s : State) (f : Nat) : List Nat :=
  (List.range 7).flatMap fun p => ((s.feedChans f).filter fun c =>
    s.shedPrio c == p && s.prot c == Prot.armed && s.flag c Flag.onState && !s.flag c Flag.budgetShed &&
      (s.lc c).clamp != 2).reverse

/-- The leading candidates whose mean currents (mA, by channel) reach the excess, and whether they do. -/
def shedTake (mean : Nat → Nat) (excess : Nat) : List Nat → List Nat × Bool
  | [] => ([], excess == 0)
  | c :: rest =>
    if excess = 0 then ([], true)
    else let (l, ok) := shedTake mean (excess - mean c) rest; (c :: l, ok)

/-- Shed one channel (R137). -/
def State.shedChan (s : State) (c : Nat) : State :=
  ((s.setFlag c Flag.budgetShed).bump F.FEED_SHEDS_COUNT 1 (feedOf c)).resolve c

/-- The channel the next restore takes: the highest SHED_PRIO, then the lowest number (R138). -/
def State.restoreNext (s : State) (f : Nat) : Option Nat :=
  ((List.range 8).reverse.flatMap fun p => (s.feedChans f).filter fun c =>
    s.shedPrio c == p && s.flag c Flag.budgetShed).head?

end Sys2Proof.Machine
end

