-- ==== Sys2Proof/Machine/InputOps.lean ====
section
/-! DEFINITION. Multifunction pins, DRV pins and Clamp rules (ch. 7). -/

namespace Sys2Proof.Machine

/-- Bits of word `w` of MI pin p's INPUTS record (section 4). -/
def State.mi (s : State) (p w hi lo : Nat) : Nat := s.imgF 4 2 p w hi lo

/-- MODE of pin p: 0 UNUSED, 1 DIGITAL, 2 ANALOG58, 3 ANALOG5, 4 RESISTIVE, 5 FREQUENCY. -/
def State.miMode (s : State) (p : Nat) : Nat := s.mi p 0 2 0

/-- The owner drawer of pin p. -/
def State.miOwner (s : State) (p : Nat) : Nat := s.mi p 0 7 4

/-- Whether pin p is in service (R147): a retired pin reads 0 and raises nothing. -/
def State.miLive (s : State) (p : Nat) : Bool := !s.unitOut 2 p && s.miMode p != 0

/-- What the controller holds for pin p. -/
def State.pin (s : State) (p : Nat) : PinSt := storeGet PinSt.rst s.pins p

/-- Replace what the controller holds for pin p. -/
def State.putPin (s : State) (p : Nat) (x : PinSt) : State := { s with pins := storePut PinSt.rst s.pins p x }

/-- THRESH of pin p, and THRESH − HYST, in mV (R141); a FREQUENCY pin's fixed levels (R145). -/
def State.miHigh (s : State) (p : Nat) : Nat := if s.miMode p = 5 then 2500 else 10 * s.mi p 0 31 16
def State.miLow (s : State) (p : Nat) : Nat := if s.miMode p = 5 then 2000 else 10 * (s.mi p 0 31 16 - s.mi p 1 15 0)

/-- Whether pin p's comparator is in use (R141, R143 to R145). -/
def State.miCompares (s : State) (p : Nat) : Bool := s.miMode p == 1 || s.miMode p == 5

/-- The comparator output of pin p. -/
def State.cmpOut (s : State) (p : Nat) : Bool := bitOf s.front.cmp p

/-- What the comparator of pin p gives at `mv`: between the two levels it keeps its last output (R141). -/
def State.compare (s : State) (p mv : Nat) : Bool :=
  if s.miCompares p then decide (s.miHigh p < mv) || (s.cmpOut p && decide (s.miLow p ≤ mv)) else s.cmpOut p

/-- A pin's comparator sees `mv`. -/
def State.sense (s : State) (p mv : Nat) : State := { s with front := { s.front with cmp := setBitTo s.front.cmp p (s.compare p mv) } }

/-- The comparators of the listed pins see their voltages. -/
def State.sensePins (s : State) (l : PinMv) : State := s.each l fun s x => s.sense x.1 x.2

/-- After an image is taken the outputs start from the pins' levels compared with THRESH (R141); a pin not listed is at 0 V. -/
def State.frontStart (s : State) (l : PinMv) : State := { s with front := { s.front with cmp := 0 } }.sensePins l

/-- Event bits of INP_MI_STAT (register bits 8 RISE, 9 FALL, 10 RANGE_EV), logged as source 1 (R400). -/
def State.miEvent (s : State) (p : Nat) (x : Fld) : State := s.raise x 1 p 0 0 (some (s.miOwner p)) 1 p

/-- LEVEL of a DIGITAL pin takes a value (R142). -/
def State.miLevel (s : State) (p : Nat) (v : Bool) : State :=
  let old := bitOf (s.get F.INP_MI_VAL_VALUE p) 0
  let s := s.put F.INP_MI_VAL_VALUE (b2n v) p
  if old = v then s else s.miEvent p (if v then F.INP_MI_STAT_RISE else F.INP_MI_STAT_FALL)

/-- How many conversions the filter of pin p averages: those of the last FILTER µs at one per 10 µs, at least one (R143,
log entry 8). -/
def State.miDepth (s : State) (p : Nat) : Nat := max 1 (s.mi p 1 23 16 / 10)

/-- The sum of a list. -/
def sumList : List Nat → Nat
  | [] => 0
  | x :: rest => x + sumList rest

/-- The mean of conversions, rounded to the nearest code (R143). -/
def meanCode (l : List Nat) : Nat := divRound (sumList l) l.length

/-- A conversion of an analog or resistive pin completes (R143, R144); `comp` says the pin stood at the compliance
voltage. -/
def State.miConvert (s : State) (p code : Nat) (comp : Bool) : State :=
  let x := s.pin p
  let code := min code 4095
  let codes := (code :: x.codes).take (s.miDepth p)
  let m := meanCode codes
  let s := s.putPin p { x with codes := codes }
  if s.miMode p = 4 then
    let v := if comp then 0xFFFFF else min 0xFFFFF (divRound (m * 200000) (4096 * s.mi p 1 15 0))
    let s := (s.put F.INP_MI_VAL_VALUE v p)
    let was := s.is F.INP_MI_STAT_OPEN p
    let s := s.put F.INP_MI_STAT_OPEN (b2n comp) p
    if comp && !was then s.miEvent p F.INP_MI_STAT_RANGE_EV else s
  else
    let topCode := code == 4095
    let was := s.is F.INP_MI_STAT_OVERRANGE p
    let s := (s.put F.INP_MI_VAL_VALUE m p).put F.INP_MI_STAT_OVERRANGE (b2n topCode) p
    if topCode && !was then s.miEvent p F.INP_MI_STAT_RANGE_EV else s

/-- An accepted rising edge of a FREQUENCY pin, `ticks` of 10 ns after the previous one (R145). -/
def State.miEdge (s : State) (p ticks : Nat) : State :=
  let s := s.incr F.INP_MI_EDGES_EDGES p
  if (s.pin p).hasEdge then (s.put F.INP_MI_VAL_VALUE ticks p).put F.INP_MI_STAT_STALLED 0 p
  else s.putPin p { s.pin p with hasEdge := true }

/-- No accepted rising edge for 2 s (R145). -/
def State.miStall (s : State) (p : Nat) : State :=
  let was := s.is F.INP_MI_STAT_STALLED p
  let s := (s.putPin p { s.pin p with hasEdge := false }).put F.INP_MI_VAL_VALUE 0 p
  let s := s.put F.INP_MI_STAT_STALLED 1 p
  if was then s else s.miEvent p F.INP_MI_STAT_RANGE_EV

/-- DRIVES record bits of DRV pin p (section 5): USED and INVERT. -/
def State.drvUsed (s : State) (p : Nat) : Bool := s.imgF 5 1 p 0 0 0 == 1
def State.drvInvert (s : State) (p : Nat) : Bool := s.imgF 5 1 p 0 1 1 == 1

/-- The channel that follows DRV pin p, if any (R26: at most one). -/
def State.drvChan (s : State) (p : Nat) : Option Nat := s.chans.find? fun c => s.chSrc c == 2 && s.chSel c == p

/-- What DRV pin p reads at `mv`: high above 2.0 V, low below 1.0 V, its last value between (R148). -/
def State.drvReads (s : State) (p mv : Nat) : Bool := decide (2000 < mv) || (bitOf s.front.drv p && decide (1000 ≤ mv))

/-- The pin's accepted level changes; INVERT is applied, and the channel follows (R148, R98). -/
def State.drvLevel (s : State) (p : Nat) (high : Bool) : State :=
  if s.drvUsed p then
    let v := high != s.drvInvert p
    let s := { s with front := { s.front with drv := setBitTo s.front.drv p high } }.put F.INP_DRV_LEVEL (b2n v) p
    match s.drvChan p with
    | some c => s.drive c v
    | none => s
  else s

/-! Clamp rules (R149 to R156) -/

/-- Rule states (R150). -/
abbrev Rule.disabled : Nat := 0
abbrev Rule.idle : Nat := 1
abbrev Rule.active : Nat := 2
abbrev Rule.latched : Nat := 3

/-- Bits of word `w` of rule r's CLAMP record (section 6). -/
def State.rule (s : State) (r w hi lo : Nat) : Nat := s.imgF 6 4 r w hi lo

/-- The number of CLAMP records. -/
def State.ruleCount (s : State) : Nat := (s.sec 6).length / 4

/-- Whether rule r is enabled by the image. -/
def State.ruleOn (s : State) (r : Nat) : Bool := decide (r < s.ruleCount) && s.rule r 0 0 0 == 1

/-- Whether rule r releases only by acknowledgement (RELEASE = 1). -/
def State.ruleLatches (s : State) (r : Nat) : Bool := s.rule r 0 2 2 == 1

/-- ACTION of rule r: false force off, true force on. -/
def State.ruleForcesOn (s : State) (r : Nat) : Bool := s.rule r 0 3 3 == 1

/-- The valid targets of rule r, in order (words 2 and 3). -/
def State.ruleTargets (s : State) (r : Nat) : List Nat :=
  ((List.range 8).filter fun j => s.rule r (2 + j / 4) (8 * (j % 4) + 7) (8 * (j % 4) + 7) == 1).map fun j =>
    s.rule r (2 + j / 4) (8 * (j % 4) + 6) (8 * (j % 4))

/-- Condition k of rule r: the comparator of its pin as `cmp` gives it, against LOW; a retired pin acts toward off (R149,
R156). -/
def State.ruleCond (s : State) (r k : Nat) (cmp : Nat) : Bool :=
  if s.unitOut 2 (s.rule r 1 (8 * k + 6) (8 * k)) then !s.ruleForcesOn r
  else bitOf cmp k != (s.rule r 1 (8 * k + 7) (8 * k + 7) == 1)

/-- The result of rule r for the comparator outputs `cmp` of its condition pins (bit k), AND or OR (R149). -/
def State.ruleResult (s : State) (r cmp : Nat) : Bool :=
  let l := (List.range (s.rule r 0 9 8 + 1)).map fun k => s.ruleCond r k cmp
  if s.rule r 0 1 1 = 1 then l.any id else l.all id

/-- The condition bits of rule r as CLP_STAT.COND shows them. -/
def State.ruleConds (s : State) (r cmp : Nat) : Nat :=
  (List.range (s.rule r 0 9 8 + 1)).foldl (fun a k => setBitTo a k (s.ruleCond r k cmp)) 0

/-- Whether rule r holds its targets (R152). -/
def State.ruleHolds (s : State) (r : Nat) : Bool :=
  s.get F.CLP_STAT_STATE r == Rule.active || s.get F.CLP_STAT_STATE r == Rule.latched

/-- The lowest rule that holds channel c with an action, if any. -/
def State.holder (s : State) (c : Nat) (on : Bool) : Option Nat :=
  (List.range 64).find? fun r => s.ruleHolds r && s.ruleForcesOn r == on && (s.ruleTargets r).contains c

/-- Bring channel c's Clamp command up to date: OFF if any holding rule forces off, else ON if any forces on (R24, R152);
CLP_CHAN shows it, a live command replaces a frozen one (R155), and the output resolves. -/
def State.clampChan (s : State) (c : Nat) : State :=
  let (held, cmd, rule) := match s.holder c false, s.holder c true with
    | some r, _ => (1, 0, r)
    | none, some r => (1, 1, r)
    | none, none => (0, 0, 0)
  let s := (s.put F.CLP_CHAN_HELD held c).put F.CLP_CHAN_CMD cmd c
  let s := (s.put F.CLP_CHAN_FROZEN 0 c).put F.CLP_CHAN_RULE rule c
  let s := s.putLc c { s.lc c with clamp := if held = 0 then 0 else cmd + 1, frozen := false }
  s.resolve c

/-- Bring every target of rule r up to date. -/
def State.clampTargets (s : State) (r : Nat) : State := s.each (s.ruleTargets r) fun s c => s.clampChan c

/-- A fire of rule r (R150): FIRES, FIRED, Mitre line 8, and for a latched rule an alarm. -/
def State.ruleFire (s : State) (r : Nat) : State :=
  let d := s.rule r 0 7 4
  let s := s.bump F.CLP_FIRES_COUNT 1 r
  let s := (s.raise F.CLP_STAT_FIRED 1 r 0 0 (some d) 2 r).mitreLine 8
  if s.ruleLatches r then s.alarm 0x03 r 0 d else s

/-- The state of rule r under its result (R150): entered, left, and the fire; the targets are brought up to date apart. -/
def State.ruleStep (s : State) (r : Nat) (v : Bool) : State :=
  let st := s.get F.CLP_STAT_STATE r
  let s := s.put F.CLP_STAT_RESULT (b2n v) r
  if v then
    if st = Rule.idle then (s.put F.CLP_STAT_STATE Rule.active r).ruleFire r
    else if st = Rule.latched then s.put F.CLP_STAT_STATE Rule.active r
    else s
  else if st = Rule.active then s.put F.CLP_STAT_STATE (if s.ruleLatches r then Rule.latched else Rule.idle) r
  else s

/-- The result of rule r changes (R150): its state moves, and its targets follow. -/
def State.ruleMove (s : State) (r : Nat) (v : Bool) : State := (s.ruleStep r v).clampTargets r

/-- The comparator outputs of the condition pins of rule r, bit k for condition k. -/
def State.ruleCmp (s : State) (r : Nat) : Nat :=
  (List.range 4).foldl (fun a k => setBitTo a k (s.cmpOut (s.rule r 1 (8 * k + 6) (8 * k)))) 0

/-- The result rule r has from the comparators now. -/
def State.ruleNow (s : State) (r : Nat) : Bool := s.ruleResult r (s.ruleCmp r)

/-- CLP_STAT.COND follows the comparators. -/
def State.ruleShow (s : State) (r : Nat) : State := s.put F.CLP_STAT_COND (s.ruleConds r (s.ruleCmp r)) r

/-- An acknowledgement of rule r (R151): a rule whose result is true again enters IDLE and then ACTIVE at once, and its hold never drops. -/
def State.ruleAck (s : State) (r : Nat) : State :=
  let st := s.get F.CLP_STAT_STATE r
  let s := s.put F.CLP_ACK_STATUS_RULE r
  if st = Rule.latched then
    let s := (s.put F.CLP_ACK_STATUS_RESULT 1).put F.CLP_STAT_STATE Rule.idle r
    let s := s.raise F.CLP_STAT_RELEASED 1 r 0 0 (some (s.rule r 0 7 4)) 2 r
    if s.ruleNow r then (s.ruleShow r).ruleMove r true else s.clampTargets r
  else s.put F.CLP_ACK_STATUS_RESULT (if st = Rule.active then 3 else 2)

/-- A rule starts from its newly loaded latches (R150, R155): DISABLED or IDLE. -/
def State.ruleLoad (s : State) (r : Nat) : State :=
  (s.put F.CLP_STAT_STATE (if s.ruleOn r then Rule.idle else Rule.disabled) r).put F.CLP_STAT_RESULT 0 r

end Sys2Proof.Machine
end

