-- ==== Sys2Proof/Machine/LatheOps.lean ====
section
/-! DEFINITION. The Lathe: its program in the LATHE section, slots and shadows, stations, tasks and commits, restarts, online
change and forces (ch. 8 and 9). -/

namespace Sys2Proof.Machine

/-! The LATHE section (R160) -/

/-- Word `i` of the LATHE section. -/
def State.lw (s : State) (i : Nat) : Nat := at0 (s.sec 14) i

def State.opCount (s : State) : Nat := s.lw 2
def State.slotCount (s : State) : Nat := s.lw 3
def State.mapCount (s : State) : Nat := bitsOf (s.lw 4) 15 0
def State.restCount (s : State) : Nat := bitsOf (s.lw 4) 31 16

/-- The first word of each part. -/
def State.sidBase (s : State) : Nat := 88 + (s.slotCount + 7) / 8 * 2
def State.initBase (s : State) : Nat := s.sidBase + s.slotCount
def State.mapBase (s : State) : Nat := s.initBase + s.slotCount
def State.restBase (s : State) : Nat := s.mapBase + 2 * s.mapCount
def State.opBase (s : State) : Nat := s.restBase + 2 * s.restCount
def State.stnBase (s : State) : Nat := s.opBase + 2 * s.opCount

/-- Bits of word `w` of task k's record. -/
def State.taskRec (s : State) (k w hi lo : Nat) : Nat := bitsOf (s.lw (16 + 8 * k + w)) hi lo

def State.taskEn (s : State) (k : Nat) : Bool := s.taskRec k 0 0 0 == 1
def State.taskLane (s : State) (k : Nat) : Nat := s.taskRec k 0 1 1

/-- PROG_HASH, 32 bytes. -/
def State.progHash (s : State) : List Nat := (List.range 8).flatMap fun i => leBytes 4 (s.lw (6 + i))

/-- Attribute fields of slot n (R157): TASK, AREA, RETAIN. -/
def State.slotAttr (s : State) (n : Nat) : Nat := s.lw (88 + n / 4) / 2 ^ (8 * (n % 4)) % 256
def State.slotTask (s : State) (n : Nat) : Nat := bitsOf (s.slotAttr n) 3 0
def State.slotArea (s : State) (n : Nat) : Nat := bitsOf (s.slotAttr n) 5 4
def State.slotRetain (s : State) (n : Nat) : Bool := bitOf (s.slotAttr n) 6

/-- Areas (R157). -/
abbrev Area.memory : Nat := 0
abbrev Area.input : Nat := 1
abbrev Area.output : Nat := 2
abbrev Area.const : Nat := 3

def State.slotSid (s : State) (n : Nat) : Nat := s.lw (s.sidBase + n)
def State.slotInit (s : State) (n : Nat) : Word := BitVec.ofNat 32 (s.lw (s.initBase + n))

/-- Whether slot n is shadowed for its task (R158): OUTPUT, or retentive MEMORY. -/
def State.slotShadowed (s : State) (n : Nat) : Bool :=
  s.slotArea n == Area.output || (s.slotArea n == Area.memory && s.slotRetain n)

/-- The slots of task k that satisfy a condition, ascending. -/
def State.taskSlots (s : State) (k : Nat) (p : Nat → Bool) : List Nat :=
  below s.slotCount fun n => s.slotTask n == k && p n

/-- The slot with a SID, if any. -/
def State.slotOfSid (s : State) (sid : Nat) : Option Nat :=
  if sid = 0 then none else (List.range s.slotCount).find? fun n => s.slotSid n == sid

/-- I/O map record m: SLOT, KIND, INDEX, BIT (R161). -/
def State.mapF (s : State) (m w hi lo : Nat) : Nat := bitsOf (s.lw (s.mapBase + 2 * m + w)) hi lo

/-- The rest value of slot n (R163). -/
def State.restVal (s : State) (n : Nat) : Word :=
  match (List.range s.restCount).find? fun r => bitsOf (s.lw (s.restBase + 2 * r)) 13 0 == n with
  | some r => BitVec.ofNat 32 (s.lw (s.restBase + 2 * r + 1))
  | none => 0#32

/-- The owner drawers of the tasks that map host word w (R162); none when no task maps it. -/
def State.hostWordOwner (s : State) (w : Nat) : Option Nat :=
  match (List.range s.mapCount).find? fun m => s.mapF m 0 19 16 == 5 && s.mapF m 1 15 0 == w with
  | some m => s.taskOwner (s.slotTask (s.mapF m 0 13 0))
  | none => none

/-! Slots, shadows and forces (R158, R199) -/

/-- The value of slot n in the image. -/
def State.slot (s : State) (n : Nat) : Word := storeGet 0#32 s.lth.slots n

/-- Write slot n of the image. -/
def State.putSlot (s : State) (n : Nat) (v : Word) : State :=
  { s with lth := { s.lth with slots := storePut 0#32 s.lth.slots n v } }

/-- What the lanes hold for task k. -/
def State.tk (s : State) (k : Nat) : TaskSt := storeGet TaskSt.idle s.lth.task k

/-- Replace what the lanes hold for task k. -/
def State.putTk (s : State) (k : Nat) (x : TaskSt) : State :=
  { s with lth := { s.lth with task := storePut TaskSt.idle s.lth.task k x } }

/-- A value as a force lets a read see it (R199). -/
def State.forced (s : State) (n : Nat) (v : Word) : Word :=
  match s.lth.forces.find? fun f => f.sid == s.slotSid n && s.slotSid n != 0 with
  | some f => (v &&& ~~~ f.mask) ||| (f.value &&& f.mask)
  | none => v

/-- Whether a force covers slot n. -/
def State.isForced (s : State) (n : Nat) : Bool :=
  s.slotSid n != 0 && s.lth.forces.any fun f => f.sid == s.slotSid n

/-- The value of slot n beneath any force as task k holds it: its shadow for a shadowed slot of its own, else the image. A
slot that does not exist holds 0. -/
def State.beneath (s : State) (k n : Nat) : Word :=
  if n < s.slotCount then
    if s.slotTask n == k && s.slotShadowed n then storeGet 0#32 (s.tk k).shadow n else s.slot n
  else 0#32

/-- What an operation of task k reads from slot n: its value under the forces. A slot that does not exist reads 0. -/
def State.readSlot (s : State) (k n : Nat) : Word :=
  if n < s.slotCount then s.forced n (s.beneath k n) else 0#32

/-- What an operation of task k writes to slot n (R158): the shadow for a shadowed slot of its own, the image at once for
its own MEMORY; no other slot is writable. -/
def State.writeSlot (s : State) (k n : Nat) (v : Word) : State :=
  if n < s.slotCount && s.slotTask n == k then
    if s.slotShadowed n then s.putTk k { s.tk k with shadow := storePut 0#32 (s.tk k).shadow n v }
    else if s.slotArea n == Area.memory then s.putSlot n v
    else s
  else s

/-! Errors (R178) -/

/-- The Lathe timebase in µs (R169). -/
def State.tbUs (s : State) : Nat := s.ztm.tb / 2 ^ 32 / 1000

/-- Queue an error record; an error of the error task itself is only counted (R178). -/
def State.lthErr (s : State) (task cause op arg : Nat) : State :=
  if task = 8 then s.bump F.LTH_ERR_STAT_SELF 1
  else
    if s.lth.errs.length < 16 then
      let s := if task < 8 then s.raise F.LTH_TASK_STAT_ERR_EV 1 task 0 0 (s.taskOwner task) 3 task else s
      let fr := if task < 8 then s.get F.LTH_TASK_STAT_FAULT_RUN task else 0
      let r : LthErr := ⟨cause + task * 256 + fr * 4096, op, s.tbUs % 2 ^ 32, arg⟩
      { s with lth := { s.lth with errs := s.lth.errs ++ [r] } }
    else s.bump F.LTH_ERR_STAT_LOST 1

/-- Word k of an error record. -/
def LthErr.word (r : LthErr) : Nat → Nat
  | 0 => r.w0 | 1 => r.w1 | 2 => r.w2 | _ => r.w3

/-! Stations (R185 to R194) -/

def State.stnLen (s : State) : Nat := s.lw 5
def State.stnCount (s : State) : Nat := if s.stnLen = 0 then 0 else bitsOf (s.lw s.stnBase) 6 0
def State.stnStartup (s : State) : Nat := bitsOf (s.lw s.stnBase) 15 8
def State.stnEtherType (s : State) : Nat := bitsOf (s.lw (s.stnBase + 1)) 15 0
def State.stnSyncId (s : State) : Nat := bitsOf (s.lw (s.stnBase + 2)) 28 0
def State.stnSyncIde (s : State) : Bool := bitOf (s.lw (s.stnBase + 2)) 29

/-- Bits of word `w` of station record n. -/
def State.stnRec (s : State) (n w hi lo : Nat) : Nat := bitsOf (s.lw (s.stnBase + 4 + 6 * n + w)) hi lo

def State.stnEn (s : State) (n : Nat) : Bool := decide (n < s.stnCount) && s.stnRec n 0 0 0 == 1
def State.stnEth (s : State) (n : Nat) : Bool := s.stnRec n 0 1 1 == 1
def State.stnEndpoint (s : State) (n : Nat) : Nat := s.stnRec n 0 6 2
def State.stnIn (s : State) (n : Nat) : Nat := s.stnRec n 0 14 8
def State.stnOut (s : State) (n : Nat) : Nat := s.stnRec n 0 22 16
def State.stnTask (s : State) (n : Nat) : Nat := s.stnRec n 0 26 24
def State.stnMac (s : State) (n : Nat) : Nat := s.stnRec n 3 31 0 + s.stnRec n 4 15 0 * 2 ^ 32
def State.stnCanId (s : State) (n : Nat) : Nat := s.stnRec n 3 28 0
def State.stnCanIde (s : State) (n : Nat) : Bool := s.stnRec n 3 29 29 == 1

/-- The word of point record `i` of station n. -/
def State.pointWord (s : State) (n i w : Nat) : Nat :=
  let before := sumList ((List.range n).map fun t => s.stnIn t + s.stnOut t)
  s.lw (s.stnBase + 4 + 6 * s.stnCount + 2 * (before + i) + w)

/-- The enabled stations of task k, ascending. -/
def State.taskStations (s : State) (k : Nat) : List Nat := below 64 fun n => s.stnEn n && s.stnTask n == k

/-- The owner of a station is the owner of its task (R186). -/
def State.stnOwner (s : State) (n : Nat) : Option Nat := if s.stnEn n then s.taskOwner (s.stnTask n) else none

/-- What the Lathe holds for station n. -/
def State.stn (s : State) (n : Nat) : StnSt := storeGet StnSt.fresh s.lth.stn n

/-- Replace what the Lathe holds for station n. -/
def State.putStn (s : State) (n : Nat) (x : StnSt) : State :=
  { s with lth := { s.lth with stn := storePut StnSt.fresh s.lth.stn n x } }

/-- Station states (R192). -/
abbrev Stn.disabled : Nat := 0
abbrev Stn.joining : Nat := 1
abbrev Stn.active : Nat := 2
abbrev Stn.dropped : Nat := 3

def State.stnState (s : State) (n : Nat) : Nat := s.get F.LTH_STN_STAT_STATE n

/-- The current value of input point i of station n (R190). -/
def State.pointValue (s : State) (n i : Nat) : Word :=
  let last := BitVec.ofNat 32 (at0 (s.stn n).vals i)
  if s.stnState n = Stn.active then last
  else match bitsOf (s.pointWord n i 0) 17 16 with
    | 0 => last
    | 1 => BitVec.ofNat 32 (s.pointWord n i 1)
    | _ => 0#32

/-- A station PDU with its CRC-32 (R187). -/
def stnPdu (ty stn seq cycle flags : Nat) (data : List Nat) : List Nat :=
  let l := [ty, stn] ++ leBytes 2 seq ++ leBytes 4 cycle ++ leBytes 2 data.length ++ leBytes 2 flags ++ data
  l ++ leBytes 4 (crc32 l)

/-- The smallest CAN FD data length that holds n bytes. -/
def canFdLen (n : Nat) : Nat := ([0, 1, 2, 3, 4, 5, 6, 7, 8, 12, 16, 20, 24, 32, 48, 64].find? (fun k => n ≤ k)).getD 64

/-- A frame leaves the device at a medium. -/
def State.emit (s : State) (kind unit dest : Nat) (data : List Nat) : State :=
  { s with emitted := s.emitted ++ [⟨kind, unit, dest, data⟩] }

/-- A station message joins the queue of a controller's mailbox 0; a full queue discards and counts it (R321). -/
def State.canQueue (s : State) (k id : Nat) (ide : Bool) (pdu : List Nat) : State :=
  let q := storeGet [] s.canLthQ k
  if q.length < 64 then
    let s := { s with canLthQ := storePut [] s.canLthQ k (q ++ [⟨id, ide, padTo pdu (canFdLen pdu.length)⟩]) }
    if s.get F.CAN_MB_CMD_STATE k 0 = 0 then s.put F.CAN_MB_CMD_STATE 1 k 0 else s
  else s.bump F.CAN_QDROP_LATHE 1 k

/-- A station message leaves at the MAC of port e, untagged, of type ETHERTYPE (R188), and is counted there (R288); nothing leaves while the
link is down. -/
def State.stnSend (s : State) (e dest : Nat) (pdu : List Nat) : State :=
  let body := beBytes 2 s.stnEtherType ++ pdu
  if s.portUp e then (s.cntTx e (padTo (beBytes 6 dest ++ List.replicate 6 0 ++ body) 60)).emit 1 e dest body else s

/-- Send one OUT to station n with the committed values of its output points under the forces (R187, R190). -/
def State.sendOut (s : State) (n : Nat) : State :=
  let x := s.stn n
  let t := s.tk (s.stnTask n)
  let data := (List.range (s.stnOut n)).flatMap fun i =>
    let sl := bitsOf (s.pointWord n (s.stnIn n + i) 0) 13 0
    leBytes 4 (s.forced sl (s.slot sl)).toNat
  let pdu := stnPdu 0x12 n x.outSeq (if t.sync then t.relUs % 2 ^ 32 else 0) (b2n t.sync) data
  let s := s.putStn n { x with outSeq := (x.outSeq + 1) % 65536 }
  if s.stnEth n then s.stnSend (s.stnEndpoint n) (s.stnMac n) pdu
  else s.canQueue (s.stnEndpoint n) (s.stnCanId n) (s.stnCanIde n) pdu

/-- Send one SYNC on every endpoint that carries a station of task k (R194). -/
def State.sendSync (s : State) (k : Nat) : State :=
  let l := s.taskStations k
  let pdu := stnPdu 0x11 0xFF 0 ((s.tk k).relUs % 2 ^ 32) 1 []
  let eth := (l.filter s.stnEth).map s.stnEndpoint
  let can := (l.filter fun n => !s.stnEth n).map s.stnEndpoint
  let s := s.each (below 32 can.contains) fun s e => s.canQueue e s.stnSyncId s.stnSyncIde pdu
  s.each (below 32 eth.contains) fun s e => s.stnSend e 0xFFFFFFFFFFFF pdu

/-- A station enters DROPPED (R192) with an error cause. -/
def State.stnDrop (s : State) (n cause : Nat) : State :=
  let s := (s.put F.LTH_STN_STAT_STATE Stn.dropped n).bump F.LTH_STN_DROPS_COUNT 1 n
  let s := (s.raise F.LTH_STN_STAT_DROP_EV 1 n 0 0 (s.stnOwner n) 4 n).putStn n { s.stn n with run := 0 }
  s.lthErr 15 cause 0 n

/-- A valid IN of station n (R189, R192): values, the STN_FAULT edge, and the second consecutive one makes it ACTIVE. -/
def State.stnValid (s : State) (n seq : Nat) (fault : Bool) (vals : List Nat) : State :=
  let x := s.stn n
  let s := s.putStn n { x with lastSeq := some seq, vals := vals, run := x.run + 1, answered := true, fault := some fault }
  let s := s.put F.LTH_STN_STAT_FAULT (b2n fault) n
  let s := if fault && x.fault == some false then s.lthErr 15 0x13 0 n else s
  if x.run + 1 ≥ 2 && s.stnState n != Stn.active then
    let back := s.stnState n == Stn.dropped
    let s := s.put F.LTH_STN_STAT_STATE Stn.active n
    if back then (s.raise F.LTH_STN_STAT_RET_EV 1 n 0 0 (s.stnOwner n) 4 n).lthErr 15 0x11 0 n else s
  else s

/-- Little-endian words of a byte string. -/
def leWords : List Nat → List Nat
  | a :: b :: c :: d :: rest => leNat [a, b, c, d] :: leWords rest
  | _ => []

/-- An IN message of the station whose address it came from (R189): BAD, STALE or valid. -/
def State.stationIn (s : State) (n : Nat) (pdu : List Nat) : State :=
  let len := leNat (slice pdu 8 2)
  let body := pdu.take (12 + len)
  let t := s.tk (s.stnTask n)
  let ok := at0 pdu 0 == 0x13 && at0 pdu 1 == n && len == 4 * s.stnIn n && decide (pdu.length ≥ 16 + len)
    && leNat (slice pdu (12 + len) 4) == crc32 body && (!t.sync || leNat (slice pdu 4 4) == t.relUs % 2 ^ 32)
  let seq := leNat (slice pdu 2 2)
  let fresh := match (s.stn n).lastSeq with
    | none => true
    | some l => let d := (seq + 65536 - l) % 65536; decide (1 ≤ d ∧ d ≤ 32767)
  if !ok then s.bump F.LTH_STN_ERR_BAD 1 n
  else if !fresh then s.bump F.LTH_STN_ERR_STALE 1 n
  else s.stnValid n seq (bitOf (leNat (slice pdu 10 2)) 1) (leWords (slice pdu 12 len))

/-- The address a message of station n comes from (R188, R189): its MAC address, or identifier + 1 with IDE in bit 29. -/
def State.stnSource (s : State) (n : Nat) : Nat :=
  if s.stnEth n then s.stnMac n else s.stnCanId n + 1 + 2 ^ 29 * b2n (s.stnCanIde n)

/-- Whether station n is an enabled one of a medium and endpoint. -/
def State.stnAt (s : State) (eth : Bool) (e n : Nat) : Bool := s.stnEn n && s.stnEth n == eth && s.stnEndpoint n == e

/-- A station message arrives on an endpoint from an address (R189): the station of that address judges it. From any other address it
is BAD for the station that its STATION byte names on this endpoint (log entry 129). -/
def State.stnMessage (s : State) (eth : Bool) (e src : Nat) (pdu : List Nat) : State :=
  match (List.range 64).find? fun n => s.stnAt eth e n && s.stnSource n == src with
  | some n => s.stationIn n pdu
  | none => if s.stnAt eth e (at0 pdu 1) then s.bump F.LTH_STN_ERR_BAD 1 (at0 pdu 1) else s

/-! Publishing (R175) -/

/-- The committed value of slot n as it is published: under the forces. -/
def State.published (s : State) (n : Nat) : Word := s.forced n (s.slot n)

/-- Publish slots in one broadcast: LATHE_BIT drive values and PWM duties (R175); `ends` says that the holds of these
channels end with it (R132). -/
def State.publish (s : State) (slots : List Nat) (ends : Bool) : State :=
  let s := s.each (List.range s.mapCount) fun s m =>
    if s.mapF m 0 19 16 = 7 ∧ slots.contains (s.mapF m 0 13 0) then
      let u := s.mapF m 1 15 0
      s.putPw u { s.pw u with next := (s.published (s.mapF m 0 13 0)).toNat % 2 ^ 14, fresh := true }
    else s
  let cs := s.chans.filter fun c => s.chSrc c == 0 && slots.contains (s.ch c 1 20 7)
  let s := s.each cs fun s c =>
    s.setDrive c ((s.published (s.ch c 1 20 7)).getLsbD (s.chSel c))
  s.each cs fun s c => if ends && s.flag c Flag.holding && (s.lc c).holdBy == 2 then s.holdEnd c else s.resolve c

/-- The journal write at the first commit since RUNNING, of rest values or of an instance: RET_VALID 0 (R181). -/
def State.firstCommit (s : State) : State :=
  if s.lth.firstCommit then { s.put F.LTH_STATE_RET_VALID 0 with lth := { s.lth with firstCommit := false } } else s

/-- Commit the rest values of task k's OUTPUT slots and publish them (R163, R176). -/
def State.commitRest (s : State) (k : Nat) : State :=
  let s := s.firstCommit
  let outs := s.taskSlots k fun n => s.slotArea n == Area.output
  let s := s.each outs fun s n => s.putSlot n (s.restVal n)
  (s.publish outs true).each (s.taskStations k) fun s n => s.sendOut n

/-! Lanes (R172) -/

/-- The task a lane executes, if any. -/
def State.laneTask (s : State) (l : Nat) : Option Nat :=
  match storeGet 0 s.lth.lane l with
  | 0 => none
  | k + 1 => some k

def State.putLane (s : State) (l : Nat) (t : Option Nat) : State :=
  { s with lth := { s.lth with lane := storePut 0 s.lth.lane l (t.elim 0 (· + 1)) } }

/-- Priority of a task on its lane: the error task first, then 0 to 7 (R172). -/
def taskRank (k : Nat) : Nat := if k = 8 then 0 else k + 1

/-- Tasks in priority order. -/
def tasksByRank : List Nat := [8, 0, 1, 2, 3, 4, 5, 6, 7]

/-- A latched task starts on its lane: F 0, at ENTRY, with an empty call stack (R165, R174). -/
def State.startRun (s : State) (k : Nat) : State :=
  let x := { s.tk k with phase := 3, pc := s.taskRec k 5 15 0, flag := false, stack := [], cycles := 0 }
  (s.putTk k x).putLane (s.taskLane k) (some k)

/-- The lane takes its next work: the highest-ranking waiting or preempted task; switching back in costs 4 cycles. -/
def State.laneNext (s : State) (l : Nat) : State :=
  match tasksByRank.find? fun k => s.taskLane k == l && ((s.tk k).phase == 2 || (s.tk k).phase == 4) with
  | some k =>
    if (s.tk k).phase = 2 then s.startRun k
    else (s.putTk k { s.tk k with phase := 3, cycles := (s.tk k).cycles + 4 }).putLane l (some k)
  | none => s.putLane l none

/-- Abandon the run of task k without a commit: its shadow is discarded (R159). -/
def State.abandon (s : State) (k : Nat) : State :=
  let x := s.tk k
  let s := s.putTk k { x with phase := 0, shadow := [], inputs := [], stack := [] }
  let s := { s with lth := { s.lth with commitQ := s.lth.commitQ.filter (· != k) } }
  if x.phase = 3 then s.laneNext (s.taskLane k) else s

/-- Task states (R177). -/
abbrev Task.disabled : Nat := 0
abbrev Task.idle : Nat := 1
abbrev Task.busy : Nat := 2
abbrev Task.stopped : Nat := 3

def State.taskState (s : State) (k : Nat) : Nat := s.get F.LTH_TASK_STAT_STATE k

/-- FAULT_RUN has reached 3: abandon, commit the rest values, queue TASK_STOPPED, enter STOPPED (R176, R422). -/
def State.faultStop (s : State) (k : Nat) : State :=
  let s := (s.abandon k).commitRest k
  let s := (s.lthErr k 0x03 0 0).put F.LTH_TASK_STAT_STATE Task.stopped k
  let s := s.putTk k { s.tk k with faultStop := true }
  (s.raise F.LTH_TASK_STAT_STOP_EV 1 k 0 0 (s.taskOwner k) 3 k).safenSet 6

/-- An overrun or a LIMIT raises FAULT_RUN by one; at 3 the task stops (R176). -/
def State.faultRun (s : State) (k cause op : Nat) : State :=
  let s := s.put F.LTH_TASK_STAT_FAULT_RUN (min 3 (s.get F.LTH_TASK_STAT_FAULT_RUN k + 1)) k
  let s := s.lthErr k cause op 0
  if s.get F.LTH_TASK_STAT_FAULT_RUN k ≥ 3 then s.faultStop k else s

/-- The source of an input map record as latched (R162, R173); a retired MI pin gives 0. -/
def State.mapValue (s : State) (m : Nat) (old : Word) : Word :=
  let ix := s.mapF m 1 15 0
  let bit := s.mapF m 1 20 16
  let setB (v : Bool) : Word := if v then old ||| BitVec.ofNat 32 (2 ^ bit) else old &&& ~~~ BitVec.ofNat 32 (2 ^ bit)
  match s.mapF m 0 19 16 with
  | 1 => if s.unitOut 2 ix then 0#32 else BitVec.ofNat 32 (s.get F.INP_MI_VAL_VALUE ix)
  | 2 => setB (!s.unitOut 2 ix && bitOf (s.get F.INP_MI_VAL_VALUE ix) 0)
  | 3 => setB (s.is F.INP_DRV_LEVEL ix)
  | 4 => BitVec.ofNat 32 (s.get F.LCH_FLAGS_FLAGS ix)
  | 5 => BitVec.ofNat 32 (s.get F.LTH_HIN_VALUE ix)
  | _ => s.pointValue (ix / 64) (ix % 64)

/-- The input map records of task k; `stations` picks the STATION kind or the others. -/
def State.inputMaps (s : State) (k : Nat) (stations : Bool) : List Nat :=
  below s.mapCount fun m =>
    let kind := s.mapF m 0 19 16
    s.slotTask (s.mapF m 0 13 0) == k && decide (1 ≤ kind ∧ kind ≤ 6) && (decide (kind = 6) == stations)

/-- Sample map records into the latched inputs of task k. -/
def State.sampleInputs (s : State) (k : Nat) (maps : List Nat) : State :=
  let x := s.tk k
  let ins := maps.foldl (fun l m =>
    let n := s.mapF m 0 13 0
    let old := match l.find? (fun p => p.1 == n) with | some p => p.2 | none => s.slot n
    storeInsert (storeErase l n) n (s.mapValue m old)) x.inputs
  s.putTk k { x with inputs := ins }

/-- A release of task k at the timebase `tb` that starts an instance (R158, R171, R173, R194): BUSY, the shadow taken from the image, the
inputs of the release instant sampled, and in synchronous mode a SYNC sent. -/
def State.release (s : State) (k tb : Nat) : State :=
  let x := s.tk k
  let hasStn := !(s.taskStations k).isEmpty
  let sync := hasStn && (decide (x.startLeft > 0) || s.is F.LTH_STN_MODE_SYNC k)
  let shadow := (s.taskSlots k s.slotShadowed).foldl (fun l n => storePut 0#32 l n (s.slot n)) []
  let s := s.put F.LTH_TASK_STAT_STATE Task.busy k
  let s := s.putTk k { x with
    phase := 1, relTb := tb, relAt := s.now, shadow := shadow, inputs := [], sync := sync
    startLeft := x.startLeft - 1 }
  let s := s.each (s.taskStations k) fun s n =>
    (s.put F.LTH_STN_STAT_SYNC (b2n sync) n).putStn n { s.stn n with answered := false }
  let s := s.sampleInputs k (s.inputMaps k false)
  if sync then s.sendSync k else s.sampleInputs k (s.inputMaps k true)

/-- Whether task k has a release instant now (R171): t0 + OFFSET_US + m × PERIOD_US, given at most once. -/
def State.releaseDue (s : State) (k : Nat) : Bool :=
  let first := s.lth.t0 + s.taskRec k 2 19 0
  decide (first ≤ s.tbUs) && (s.tbUs - first) % s.taskRec k 1 19 0 == 0 && (s.tk k).made != some s.tbUs

/-- Whether task j is latched before task k by the one latch unit (R173): an earlier release, then the error task, then 0 to 7. A task
that waits for its stations holds up no other (R194). -/
def State.latchBefore (s : State) (j k : Nat) : Bool :=
  let x := s.tk j
  let y := s.tk k
  x.phase == 1 && !x.sync && (decide (x.relTb < y.relTb) || (x.relTb == y.relTb && decide (taskRank j < taskRank k)))

/-- The latch of task k may complete: no other task is latched first (R173), and in synchronous mode every station not DROPPED has
answered (R194). -/
def State.latchReady (s : State) (k : Nat) : Bool :=
  (s.tk k).phase == 1 && !tasksByRank.any (s.latchBefore · k) &&
    (!(s.tk k).sync || (s.taskStations k).all fun n => s.stnState n == Stn.dropped || (s.stn n).answered)

/-- The latch of task k completes (R172, R173, R178): the inputs enter their slots, the error task takes the oldest record,
and the task starts, preempts a lower one, or waits for the lane. -/
def State.latchDone (s : State) (k : Nat) : State :=
  let s := if (s.tk k).sync then s.sampleInputs k (s.inputMaps k true) else s
  let s := s.each (s.tk k).inputs fun s p => s.putSlot p.1 p.2
  let s :=
    if k = 8 then
      match s.lth.errs with
      | r :: rest =>
        let ins := (s.taskSlots 8 fun n => s.slotArea n == Area.input).take 4
        let s := s.each ins.zipIdx fun s p => s.putSlot p.1 (BitVec.ofNat 32 (r.word p.2))
        { s with lth := { s.lth with errs := rest } }
      | [] => s
    else s
  let s := s.putTk k { s.tk k with phase := 2, inputs := [] }
  let l := s.taskLane k
  match s.laneTask l with
  | none => s.startRun k
  | some j =>
    if taskRank k < taskRank j then
      (s.putTk j { s.tk j with phase := 4, cycles := (s.tk j).cycles + 4 }).startRun k
    else s

/-- An instance reaches its execute time limit (R174): it is abandoned, LIMIT is queued, and TIME and TMAX take the mark 32,768. -/
def State.limitRun (s : State) (k : Nat) : State :=
  let pc := (s.tk k).pc
  let s := ((s.abandon k).put F.LTH_TASK_STAT_STATE Task.idle k).bump F.LTH_TASK_OVR_LIMITS 1 k
  let s := (s.put F.LTH_TASK_TIME_CYCLES 32768 k).put F.LTH_TASK_TMAX_CYCLES (max 32768 (s.get F.LTH_TASK_TMAX_CYCLES k)) k
  s.faultRun k 0x02 pc

/-- The execute phase of the task on lane l ends: its commit is requested and the lane takes its next work (R174, R175). -/
def State.execEnd (s : State) (l : Nat) : State :=
  match s.laneTask l with
  | some k =>
    let s := s.putTk k { s.tk k with phase := 5 }
    ({ s with lth := { s.lth with commitQ := s.lth.commitQ ++ [k] } }).laneNext l
  | none => s

/-- The commit of task k (R175): the shadow enters the image and is published, stations get their OUT, the instance is
complete; the first commit since RUNNING clears RET_VALID (R181). `resp` is its response time in 10 ns. -/
def State.commit (s : State) (k resp : Nat) : State :=
  let x := s.tk k
  let slots := s.taskSlots k s.slotShadowed
  let s := { s with lth := { s.lth with commitQ := s.lth.commitQ.filter (· != k) } }
  let s := s.each slots fun s n => s.putSlot n (storeGet 0#32 x.shadow n)
  let s := s.putTk k { x with phase := 0, shadow := [] }
  let s := s.firstCommit
  let s := s.publish (slots.filter fun n => s.slotArea n == Area.output) true
  let s := if k < 8 then s.mitreLine k else s
  let s := s.each (s.taskStations k) fun s n => s.sendOut n
  let s := (s.put F.LTH_TASK_STAT_FAULT_RUN 0 k).put F.LTH_TASK_STAT_STATE Task.idle k
  let s := ((s.incr F.LTH_TASK_COUNT_COUNT k).put F.LTH_TASK_RESP_RESP resp k).sample 9 k resp
  let cyc := min x.cycles 65535
  let s := (s.put F.LTH_TASK_TIME_CYCLES cyc k).put F.LTH_TASK_TMAX_CYCLES (max cyc (s.get F.LTH_TASK_TMAX_CYCLES k)) k
  match s.taskOwner k with
  | some d => s.trace d 0 k k (resp % 2 ^ 24)
  | none => s

/-! Engine (R179 to R183) -/

/-- Engine states. -/
abbrev Eng.idle : Nat := 0
abbrev Eng.starting : Nat := 1
abbrev Eng.running : Nat := 2
abbrev Eng.stopped : Nat := 3

def State.engine (s : State) : Nat := s.get F.LTH_STATE_STATE

/-- Whether the Lathe works: its island is clocked and its program is there (R183). -/
def State.latheLive (s : State) : Bool := s.live 13 && !s.lth.reloading

/-- Whether the engine is RUNNING (R171, R179); a power-fail sequence has stopped it (R52). -/
def State.latheRuns (s : State) : Bool := s.latheLive && s.engine == Eng.running && s.phase != Ph.fail

/-- The retentive slots, ascending (R181). -/
def State.retSlots (s : State) : List Nat := below s.slotCount s.slotRetain

/-- The CRC-32 of a retentive image's values (R181). -/
def retCrc (vals : List Word) : Nat := crc32 (vals.flatMap fun v => leBytes 4 v.toNat)

/-- Whether a retentive image can be used: RET_VALID is 1 and its CRC-32 is right (R181). -/
def State.retOk (s : State) : Bool := s.is F.LTH_STATE_RET_VALID && s.lth.ret.crc == retCrc s.lth.ret.vals

/-- The retentive image as it stands. -/
def State.retNow (s : State) : RetImg :=
  let vals := s.retSlots.map s.slot
  ⟨s.progHash, vals, s.lth.forces, retCrc vals⟩

/-- A save's journal marker commits (R181). -/
def State.retCommit (s : State) (im : RetImg) : State :=
  { s with lth := { s.lth with ret := im, saving := none } }.put F.LTH_STATE_RET_VALID 1

/-- The save at a reset trigger or power-fail: only while RUNNING or STOPPED and not reloading; runs in progress commit
nothing (R181). -/
def State.retSave (s : State) : State :=
  if (s.engine = Eng.running ∨ s.engine = Eng.stopped) ∧ !s.lth.reloading then s.retCommit s.retNow else s

/-- Whether a restart is warm (R180). -/
def State.warmOk (s : State) : Bool :=
  s.retOk && s.lth.ret.hash == s.progHash && !s.lth.coldAsked

/-- The timers of the program: opcode and D slot of each TON, TOF and TP (R166, R169). -/
def State.timerBlocks (s : State) : List (Nat × Nat) :=
  ((List.range s.opCount).map fun o =>
    (s.lw (s.opBase + 2 * o) % 256, bitsOf (s.lw (s.opBase + 2 * o)) 21 8)).filter fun p =>
    p.1 == 0x52 || p.1 == 0x53 || p.1 == 0x54

/-- Move START of the retentive timers whose RUN bit, or TON input, is set to now − ET (R180). -/
def State.fixTimers (s : State) : State :=
  s.each s.timerBlocks fun s p =>
    let n := p.2
    if s.slotRetain n && ((s.slot n).getLsbD 1 || (p.1 == 0x52 && (s.slot n).getLsbD 2)) then
      s.putSlot (n + 2) (BitVec.ofNat 32 s.tbUs - s.slot (n + 1))
    else s

/-- The slots after a warm or cold restart, before adoption (R180). -/
def State.initSlots (s : State) (warm : Bool) : State :=
  let base : Store Word := (List.range s.slotCount).foldl
    (fun l n => storePut 0#32 l n (if s.slotArea n == Area.input then 0#32 else s.slotInit n)) []
  let s' := { s with lth := { s.lth with slots := base } }
  if warm then s'.each (s.retSlots.zip s.lth.ret.vals) fun s p => s.putSlot p.1 p.2 else s'

/-- Bit SEL of the SLOT of each LATHE_BIT channel (R180): adopted from the output on a warm restart, INIT_ON on a cold. `fresh` says that
the image has just replaced one of another STRUCT_HASH, whose outputs no channel adopts (R134). -/
def State.adoptBits (s : State) (warm fresh : Bool) : State :=
  s.each (s.chans.filter fun c => s.chSrc c == 0) fun s c =>
    let v := if warm then !fresh && s.actualOut c else s.ch c 0 25 25 == 1
    let n := s.ch c 1 20 7
    let m := BitVec.ofNat 32 (2 ^ s.chSel c)
    s.putSlot n (if v then s.slot n ||| m else s.slot n &&& ~~~ m)

/-- The forces after a restart (R201): a cold restart drops every force; a warm one after a program load restores those of the
retentive image whose SID the program has; RUN_WARM keeps them all. A SID that was forced or saved, and no longer is, is dropped. -/
def State.restartForces (s : State) (warm load : Bool) : State :=
  let saved := if warm then s.lth.ret.forces.filter fun f => !s.lth.forces.any (·.sid == f.sid) else []
  let from_ := if load then s.lth.forces ++ saved else s.lth.forces
  let keep := if warm then (if load then s.lth.ret.forces.filter fun f => (s.slotOfSid f.sid).isSome else from_) else []
  let drop := (from_.filter fun f => !keep.any (·.sid == f.sid)).map (·.sid)
  let ret := if warm then s.lth.ret else { s.lth.ret with forces := [] }
  let s := { s with lth := { s.lth with ret := ret, forces := keep, forceReqs := [], dropped := drop, dropReport := !drop.isEmpty } }
  (s.put F.LTH_FRC_DROP_IDX_TOTAL drop.length)

/-- Initialisation of a restart (R180): `load` says a program load preceded it. -/
def State.latheInit (s : State) (load : Bool) : State :=
  let warm := s.warmOk
  let why := if warm then 0 else if s.lth.coldAsked then 3 else if !s.retOk then 1 else 2
  let s := (s.put F.LTH_STATE_RESTART (if warm then 1 else 2)).put F.LTH_STATE_COLD_WHY why
  let s := ((s.initSlots warm).adoptBits warm (load && s.start.renewed)).restartForces warm load
  let s := if warm then s.fixTimers else s
  { s with lth := { s.lth with coldAsked := false } }

/-- What a station's exchange keeps as the engine enters RUNNING: the SEQ of its messages, which counts on (R187), and its STN_FAULT (R192). -/
def StnSt.rejoin (x : StnSt) : StnSt := { StnSt.fresh with outSeq := x.outSeq, fault := x.fault }

/-- The Lathe's state as it enters RUNNING: no instance, commit or station answer is left, and t0 is the timebase in whole
microseconds, rounded up (R171). -/
def LthSt.runFrom (x : LthSt) (tb : Nat) : LthSt :=
  { x with task := [], lane := [], commitQ := []
           stn := x.stn.foldl (fun l p => storePut StnSt.fresh l p.1 p.2.rejoin) [], t0 := (tb + 1000 * 2 ^ 32 - 1) / (1000 * 2 ^ 32), firstCommit := true }

/-- Report the forces that a restart has dropped (R201). -/
def State.tellDropped (s : State) : State :=
  if s.lth.dropReport then
    let s := s.lthErr 15 0x14 0 s.lth.dropped.length
    { s with lth := { s.lth with dropReport := false } }
  else s

/-- The engine enters RUNNING (R171, R177, R180, R193, R201). -/
def State.enterRunning (s : State) : State :=
  let s := s.put F.LTH_STATE_STATE Eng.running
  let s := { s with lth := s.lth.runFrom s.ztm.tb }
  let s := s.each (List.range 9) fun s k =>
    let s := (s.put F.LTH_TASK_STAT_FAULT_RUN 0 k).put F.LTH_TASK_STAT_STATE (if s.taskEn k then Task.idle else 0) k
    if (s.taskStations k).isEmpty then s else s.putTk k { TaskSt.idle with startLeft := s.stnStartup }
  let s := s.each (List.range 64) fun s n =>
    s.put F.LTH_STN_STAT_STATE (if s.stnEn n then Stn.joining else Stn.disabled) n
  s.tellDropped

/-- Discard every waiting change transaction with ABORTED (R198). -/
def State.abortChanges (s : State) : State :=
  let s := s.each s.lth.waiting fun s cp =>
    let s := (s.put F.LTH_CHG_STATUS_RESULT 8 0 0 cp).put F.LTH_CHG_STATUS_COUNT 0 0 0 cp
    { s with lth := { s.lth with staged := storePut [] s.lth.staged cp [] } }
  { s with lth := { s.lth with waiting := [] } }

/-- An accepted STOP (R182): runs are abandoned, rest values committed, lower task numbers first, and a save begins. -/
def State.engineStop (s : State) : State :=
  let s := s.put F.LTH_STATE_STATE Eng.stopped
  let s := s.each (List.range 9) fun s k =>
    if s.taskEn k then (s.abandon k).put F.LTH_TASK_STAT_STATE Task.stopped k else s
  let s := { s with lth := { s.lth with lane := [] } }
  let s := s.each ((List.range 9).filter s.taskEn) fun s k => s.commitRest k
  let s := s.abortChanges
  { s with lth := { s.lth with saving := some s.retNow } }

/-- The program is reloaded after an ISL of LTH (R183): STOPPED, and rest values committed for every enabled task. -/
def State.reloaded (s : State) : State :=
  let s := (s.put F.LTH_STATE_STATE Eng.stopped)
  let s := { s with lth := { s.lth with reloading := false } }
  let en := (List.range 9).filter s.taskEn
  let s := s.each en fun s k => s.put F.LTH_TASK_STAT_STATE Task.stopped k
  s.each en fun s k => s.commitRest k

/-! Online change and forces (R195 to R200) -/

/-- The drawer a register copy acts for through a view; none for the global window. -/
def cpDrawer (cp : Nat) : Option Nat := if cp = 0 then none else some (cp - 1)

/-- Whether a copy may act on slot n (R196, R200): the global window on any, a view on slots of its own tasks, never TASK
15. -/
def State.maySlot (s : State) (cp n : Nat) : Bool :=
  match cpDrawer cp with
  | none => true
  | some d => s.slotTask n != 15 && s.taskOwner (s.slotTask n) == some d

/-- ITEM_RES of a staged item at COMMIT (R196): 0 when it may be applied. -/
def State.itemCheck (s : State) (cp sid : Nat) : Nat :=
  match s.slotOfSid sid with
  | none => 1
  | some n => if s.slotArea n == Area.input then 2 else if s.maySlot cp n then 0 else 3

/-- The items staged through a copy. -/
def State.items (s : State) (cp : Nat) : List (Nat × Word) := storeGet [] s.lth.staged cp

/-- Set the staged items of a copy and its COUNT. -/
def State.putItems (s : State) (cp : Nat) (l : List (Nat × Word)) : State :=
  { s with lth := { s.lth with staged := storePut [] s.lth.staged cp l } }.put F.LTH_CHG_STATUS_COUNT l.length 0 0 cp

/-- Whether a task lets a change or force of slot n act now: the task that holds it is IDLE; for TASK 15 every enabled task (R197). -/
def State.slotQuiet (s : State) (n : Nat) : Bool :=
  if s.slotTask n = 15 then (List.range 9).all fun k => !s.taskEn k || s.taskState k == Task.idle
  else s.taskState (s.slotTask n) == Task.idle

/-- The instant rule of R197 for a set of slots: no commit in progress and the tasks quiet, or the engine STOPPED. -/
def State.instant (s : State) (slots : List Nat) : Bool :=
  s.engine == Eng.stopped || (s.engine == Eng.running && s.lth.commitQ.isEmpty && slots.all s.slotQuiet)

/-- The forces the device holds at most (R199). -/
def forceCap : Nat := 512

/-- Apply one force request (R199, R200): DONE, or NO_ROOM for a new one beyond the limit. -/
def State.applyForce (s : State) (r : ForceReq) : State :=
  let rest := s.lth.forces.filter fun f => f.sid != r.force.sid
  let l := if r.set_ then rest ++ [r.force] else rest
  if forceCap < l.length then s.put F.LTH_FRC_STATUS_RESULT 4 0 0 r.cp
  else ({ s with lth := { s.lth with forces := l } }).put F.LTH_FRC_STATUS_RESULT 1 0 0 r.cp

/-- Apply the waiting force requests whose instant has come, in order. -/
def State.applyForces (s : State) : State :=
  let ready (r : ForceReq) : Bool := match s.slotOfSid r.force.sid with | some n => s.instant [n] | none => true
  let now := s.lth.forceReqs.filter ready
  let later := s.lth.forceReqs.filter fun r => !ready r
  ({ s with lth := { s.lth with forceReqs := later } }).each now fun s r => s.applyForce r

/-- The slots of a copy's staged items. -/
def State.itemSlots (s : State) (cp : Nat) : List Nat := (s.items cp).filterMap fun p => s.slotOfSid p.1

/-- Apply the transaction of a copy at its instant (R197): values into the image (and an open shadow for MEMORY), OUTPUT
items published in one broadcast, APPLIED, forced items marked SHADOWED_BY_FORCE. -/
def State.applyChange (s : State) (cp : Nat) : State :=
  let l := (s.items cp).filterMap fun p => (s.slotOfSid p.1).map fun n => (n, p.2)
  let s := s.each l fun s p =>
    let s := s.putSlot p.1 p.2
    if s.slotArea p.1 == Area.memory && s.slotRetain p.1 && (s.tk (s.slotTask p.1)).phase != 0 then
      let k := s.slotTask p.1
      s.putTk k { s.tk k with shadow := storePut 0#32 (s.tk k).shadow p.1 p.2 }
    else s
  let s := s.publish ((l.map (·.1)).filter fun n => s.slotArea n == Area.output) false
  let res := l.map fun p => if s.isForced p.1 then 4 else 0
  let s := { s with lth := { s.lth with
    results := storePut [] s.lth.results cp res, waiting := s.lth.waiting.filter (· != cp) } }
  (s.putItems cp []).put F.LTH_CHG_STATUS_RESULT 1 0 0 cp

/-- Apply, in order, every waiting transaction whose instant has come; one that waits holds those behind it (R198). -/
def State.applyWaiting (s : State) : List Nat → State
  | [] => s
  | cp :: rest => if s.instant (s.itemSlots cp) then (s.applyChange cp).applyWaiting rest else s

/-- Forces first, then the transactions (R200). -/
def State.applyInstant (s : State) : State :=
  let s := s.applyForces
  s.applyWaiting s.lth.waiting

/-- COMMIT of a copy's transaction (R196). -/
def State.changeCommit (s : State) (cp : Nat) : State :=
  let fail (r : Nat) : State := (s.put F.LTH_CHG_STATUS_RESULT r 0 0 cp).put F.LTH_CHG_STATUS_FIRST_BAD 0 0 0 cp
  let l := s.items cp
  let res := l.map fun p => s.itemCheck cp p.1
  let noF9 := match cpDrawer cp with | some d => !s.feat d 9 | none => false
  if s.lth.waiting.contains cp then s
  else if s.engine = Eng.idle ∨ s.engine = Eng.starting then fail 5
  else if noF9 then fail 6
  else if l.isEmpty then fail 7
  else if res.any (· != 0) then
    let s := (s.put F.LTH_CHG_STATUS_RESULT 2 0 0 cp).put F.LTH_CHG_STATUS_FIRST_BAD (res.findIdx (· != 0)) 0 0 cp
    let s := { s with lth := { s.lth with results := storePut [] s.lth.results cp res } }
    s.putItems cp []
  else
    let s := (s.put F.LTH_CHG_STATUS_RESULT 4 0 0 cp).put F.LTH_CHG_STATUS_FIRST_BAD 0 0 0 cp
    let s := { s with lth := { s.lth with waiting := s.lth.waiting ++ [cp] } }
    if s.engine = Eng.stopped then s.applyInstant else s

/-- A force request through a copy (R200): `op` 1 SET, 2 RELEASE, 3 RELEASE_ALL. The order of the refusals is log entry 10. -/
def State.forceRequest (s : State) (cp op : Nat) : State :=
  let done (r : Nat) : State := s.put F.LTH_FRC_STATUS_RESULT r 0 0 cp
  let sid := s.get F.LTH_FRC_SID_WORD 0 0 cp
  let f : Force := ⟨sid, BitVec.ofNat 32 (s.get F.LTH_FRC_VALUE_WORD 0 0 cp),
    BitVec.ofNat 32 (s.get F.LTH_FRC_MASK_WORD 0 0 cp)⟩
  let noF10 := match cpDrawer cp with | some d => !s.feat d 10 | none => false
  let held := s.lth.forces.any fun g => g.sid == sid
  let coming := (s.lth.forceReqs.filter fun r => r.set_ && !s.lth.forces.any (·.sid == r.force.sid)).map (·.force.sid)
  let set_ := op == 1 && f.mask != 0#32
  let go (rs : List ForceReq) : State :=
    ({ s with lth := { s.lth with forceReqs := s.lth.forceReqs ++ rs } }).when (s.engine == Eng.stopped) State.applyForces
  if op = 0 then s
  else if s.engine = Eng.idle ∨ s.engine = Eng.starting then done 7
  else if noF10 then done 6
  else if op = 3 then
    let mine := s.lth.forces.filter fun g => match s.slotOfSid g.sid with | some n => s.maySlot cp n | none => cp == 0
    if mine.isEmpty then done 1 else go (mine.map fun g => ⟨cp, false, g⟩)
  else match s.slotOfSid sid with
    | none => done 2
    | some n =>
      if !s.maySlot cp n then done 3
      else if set_ && !held && !coming.contains sid && decide (s.lth.forces.length + coming.eraseDups.length ≥ forceCap) then done 4
      else if !set_ && !held then done 5
      else go [⟨cp, set_, f⟩]

end Sys2Proof.Machine
end

