-- ==== Sys2Proof/Machine/MitreOps.lean ====
section
/-! DEFINITION. The Mitre safe core (ch. 10): local memory and the copies' transforms, signatures and the comparator, the
unit's states and commands, safe faults, and resynchronisation. What the two cores execute is the operand of the copy rows. -/

namespace Sys2Proof.Machine

/-- MODE and SERVED of the MITRE section. -/
def State.mtrSplit (s : State) : Bool := s.imgF 12 2 0 0 0 0 == 1
def State.mtrServed (s : State) (d : Nat) : Bool := bitOf (s.imgF 12 2 0 1 15 0) d

/-- States of the unit (R220). -/
abbrev Mtr.halted : Nat := 0
abbrev Mtr.testing : Nat := 1
abbrev Mtr.running : Nat := 2
abbrev Mtr.resolving : Nat := 3
abbrev Mtr.safeFault : Nat := 4
abbrev Mtr.failed : Nat := 5

def State.mtrState (s : State) : Nat := s.get F.MTR_STATE_STATE

/-! Local memory and transforms (R202, R208) -/

/-- The word offset of copies B and C for plain byte offset `a`: a XOR 0x000F_FFFC, as a word number. -/
def xformWord (a : Nat) : Nat := (a ^^^ 0xFFFFC) / 4

/-- A copy B word as stored: inverted, then rotated left by 13 bits. -/
def storeB (v : Word) : Word := (~~~ v).rotateLeft 13

/-- The plain value of a stored copy B word. -/
def loadB (v : Word) : Word := ~~~ (v.rotateRight 13)

/-- What bank 1 reads as after zeroing: plain zero in copy B's domain in braced mode, zero in split mode (log entry 11). -/
def State.bank1Zero (s : State) : Word := if s.mtrSplit then 0#32 else 0xFFFFFFFF#32

/-- Copy A's word at plain byte offset `a`. -/
def State.lmemA (s : State) (a : Nat) : Word := storeGet 0#32 s.mtr.bank0 (a / 4)

/-- Write copy A's word. -/
def State.putLmemA (s : State) (a : Nat) (v : Word) : State :=
  { s with mtr := { s.mtr with bank0 := storePut 0#32 s.mtr.bank0 (a / 4) v } }

/-- Copy B's plain word at plain byte offset `a`. -/
def State.lmemB (s : State) (a : Nat) : Word := loadB (storeGet s.bank1Zero s.mtr.bank1 (xformWord a))

/-- Write copy B's word, transformed. -/
def State.putLmemB (s : State) (a : Nat) (v : Word) : State :=
  { s with mtr := { s.mtr with bank1 := storePut s.bank1Zero s.mtr.bank1 (xformWord a) (storeB v) } }

/-- A word of bank 1 in split mode. -/
def State.putBank1 (s : State) (a : Nat) (v : Word) : State :=
  { s with mtr := { s.mtr with bank1 := storePut s.bank1Zero s.mtr.bank1 (a / 4) v } }

/-- MTR_LMEM_DATA is usable in HALTED and FAILED. -/
def State.lmemUsable (s : State) : Bool := s.mtrState == Mtr.halted || s.mtrState == Mtr.failed

/-- The byte offset MTR_LMEM_ADDR names: within 1 MiB in braced mode, 2 MiB in split mode. -/
def State.lmemOff (s : State) : Nat :=
  let o := 4 * s.get F.MTR_LMEM_ADDR_OFFSET
  if s.mtrSplit then o % 0x200000 else o % 0x100000

/-- Each access to MTR_LMEM_DATA advances OFFSET by 4. -/
def State.lmemAdvance (s : State) : State := s.incr F.MTR_LMEM_ADDR_OFFSET

/-- What a read of MTR_LMEM_DATA returns. -/
def State.lmemRead (s : State) : Word :=
  if s.mtrSplit && s.is F.MTR_LMEM_ADDR_BANK then storeGet 0#32 s.mtr.bank1 (s.lmemOff / 4) else s.lmemA s.lmemOff

/-- What a write of MTR_LMEM_DATA stores. -/
def State.lmemWrite (s : State) (v : Word) : State :=
  let a := s.lmemOff
  if s.mtrSplit then (if s.is F.MTR_LMEM_ADDR_BANK then s.putBank1 a v else s.putLmemA a v)
  else (s.putLmemA a v).putLmemB a v

/-- Local memory zeroed and every record discarded (R222). -/
def State.mtrZero (s : State) : State := { s with mtr := MtrSt.rst }

/-! Signatures and the comparator (R209, R210) -/

/-- One step of the 64-bit multiple-input signature register, feedback x⁶⁴ + x⁴ + x³ + x + 1 (log entry 12). -/
def misrStep (sig : BitVec 64) (w : Word) : BitVec 64 :=
  (sig <<< 1) ^^^ (if sig.msb then 0x1B#64 else 0#64) ^^^ w.setWidth 64

/-- The signature of a copy: every local-memory word write, then the 70 words of the end-of-slice state. -/
def CopyRec.signature (r : CopyRec) : BitVec 64 :=
  (r.regs.take 70).foldl misrStep
    (r.writes.foldl (fun g p => misrStep (misrStep g (BitVec.ofNat 32 p.1)) p.2) 0#64)

/-- Two commit queues and read logs agree: entries equal, read logs equal in number and address (R210). -/
def queuesAgree (a b : CopyRec) : Bool := a.queue == b.queue && a.reads.map (·.1) == b.reads.map (·.1)

/-- Two copies agree (R210). -/
def copiesAgree (a b : CopyRec) : Bool := queuesAgree a b && a.signature == b.signature

/-- The first index at which two lists differ. -/
def firstDiff {α : Type} [DecidableEq α] : List α → List α → Nat
  | a :: l, b :: m => if a = b then firstDiff l m + 1 else 0
  | _, _ => 0

/-- The two beats of an entry (R210; log entry 13): its word address with the byte enables in bits 1 to 0 and 31 to 30, which an
address outside local memory leaves 0, and its data. -/
def QEntry.beats (e : QEntry) : Nat × Nat :=
  (e.addr % 2 ^ 30 / 4 * 4 + e.be % 4 + e.be / 4 % 4 * 2 ^ 30, e.data.toNat)

/-- The lanes of the first differing beat of two entries. -/
def entryLanes (a b : Option QEntry) : Nat :=
  let x := (a.getD ⟨0, 0#32, 0⟩).beats
  let y := (b.getD ⟨0, 0#32, 0⟩).beats
  if x.1 ≠ y.1 then x.1 ^^^ y.1 else x.2 ^^^ y.2

/-- WHERE, ENTRY and LANES of the first difference of two copies. -/
def diffOf (a b : CopyRec) : Nat × Nat × Nat :=
  if a.queue ≠ b.queue then
    let i := firstDiff a.queue b.queue
    (0, i, entryLanes a.queue[i]? b.queue[i]?)
  else if a.reads.map (·.1) ≠ b.reads.map (·.1) then
    let i := firstDiff (a.reads.map (·.1)) (b.reads.map (·.1))
    (0, i, (((a.reads[i]?).elim 0 (·.1)) ^^^ ((b.reads[i]?).elim 0 (·.1))) % 2 ^ 32)
  else
    let x := (a.signature ^^^ b.signature).toNat
    (1, 0, if x % 2 ^ 32 ≠ 0 then x % 2 ^ 32 else x / 2 ^ 32)

/-- Record the last compare event (MTR_LAST, MTR_LAST_LANES, MTR_LAST_SLICE). -/
def State.mtrLast (s : State) (kind odd : Nat) (d : Nat × Nat × Nat) : State :=
  let s := ((s.put F.MTR_LAST_KIND kind).put F.MTR_LAST_ODD odd).put F.MTR_LAST_WHERE d.1
  let s := (s.put F.MTR_LAST_ENTRY (min 63 d.2.1)).put F.MTR_LAST_LANES_LANES d.2.2
  s.put F.MTR_LAST_SLICE_SLICE (s.get F.MTR_SLICES_COUNT)

/-! Commands and slices (R204, R205, R221) -/

/-- A keeper event bit of MTR_IRQ, logged for the keeper (R400). -/
def State.mtrIrq (s : State) (b : Nat) : State := s.raise ⟨.MTR_IRQ, 2, 0⟩ (2 ^ b) 0 0 0 (some 0) 7 0

/-- The slice length in force: LEN held within 256 and 65,536. -/
def State.sliceLen (s : State) : Nat := max 256 (min 65536 (s.get F.MTR_SLICE_LEN_LEN))

/-! The state of a core (R205, R209) -/

/-- Places in the state words of a core, in R209's order, then mtvec and mscratch. -/
abbrev archPc : Nat := 63
abbrev archMstatus : Nat := 65
abbrev archMepc : Nat := 66
abbrev archMcause : Nat := 67
abbrev archMtval : Nat := 68
abbrev archMie : Nat := 69
abbrev archMtvec : Nat := 70

/-- mstatus after a trap: MPIE takes MIE, MIE is 0, MPP is machine mode (log entry 130). -/
def trapStatus (x : Word) : Word :=
  (x &&& 0xFFFFE777#32) ||| 0x1800#32 ||| (if x.getLsbD 3 then 0x80#32 else 0#32)

/-- Where a trap goes: the base of mtvec, and for an interrupt in vectored mode the entry of its number (log entry 130). -/
def trapVector (tvec cause : Word) : Word :=
  (tvec &&& 0xFFFFFFFC#32) + (if cause.msb && tvec &&& 3#32 == 1#32 then 4#32 * (cause &&& 0x7FFFFFFF#32) else 0#32)

/-- A core's state words after it takes a trap. -/
def trapWords (l : List Word) (cause tval : Word) : List Word :=
  let w := fun i => l.getD i 0#32
  ((((l.set archMepc (w archPc)).set archMcause cause).set archMtval tval).set archMstatus (trapStatus (w archMstatus))).set archPc
    (trapVector (w archMtvec) cause)

/-- Core c takes a trap; in braced mode every copy takes it, each in its own domain (R205, R207). -/
def State.coreTrap (s : State) (c : Nat) (cause tval : Word) : State :=
  let inv := fun l : List Word => l.map (~~~ ·)
  if !s.mtrSplit then { s with mtr := { s.mtr with
    archA := trapWords s.mtr.archA cause tval, archB := inv (trapWords (inv s.mtr.archB) cause tval) } }
  else if c = 0 then { s with mtr := { s.mtr with archA := trapWords s.mtr.archA cause tval } }
  else { s with mtr := { s.mtr with archB := trapWords s.mtr.archB cause tval } }

/-- The interrupt lines that go to core c (R224): by MTR_INT_ROUTE in split mode, all to the safe core in braced mode. -/
def State.mtrLines (s : State) (c : Nat) : Nat :=
  let p := s.get F.MTR_INT_ACK_ACK
  let r := s.get F.MTR_INT_ROUTE_ROUTE
  if !s.mtrSplit then p else if c = 0 then p &&& (0xFFFF ^^^ r) else p &&& r

/-- The interrupt a core with these state words takes of the pending lines: the lowest that mie enables at bit 16 + k, with MIE 1 (log
entry 130). -/
def irqOf (l : List Word) (lines : Nat) : Option Nat :=
  if (l.getD archMstatus 0#32).getLsbD 3 then
    (List.range 16).find? fun k => bitOf lines k && (l.getD archMie 0#32).getLsbD (16 + k)
  else none

/-- Core c takes a pending interrupt, if it can (R205, R224). -/
def State.coreIrq (s : State) (c lines : Nat) : State :=
  match irqOf (if s.mtrSplit && c != 0 then s.mtr.archB else s.mtr.archA) lines with
  | some k => s.coreTrap c (BitVec.ofNat 32 (0x80000010 + k)) 0#32
  | none => s

/-- A checkpoint is taken and copy A starts (R205): an interrupt pending at the checkpoint is taken before the first instruction. -/
def State.checkpoint (s : State) : State :=
  let s := { s with mtr := { s.mtr with
    recA := none, recB := none, recC := none, undo := [], overlay := [], loads := [], odd := 0
    ckArch := s.mtr.archA, ckLen := s.sliceLen, ckIrq := s.mtrLines 0 } }
  ((s.coreIrq 0 s.mtr.ckIrq).put F.MTR_STATE_STATE Mtr.running).put F.MTR_STATE_COPY 1

/-- The next slice starts, or the unit halts when a halt waits (R221, R222), or stands for a debug halt (R205). -/
def State.nextSlice (s : State) : State :=
  if s.mtr.haltReq then
    let s := { s with mtr := { s.mtr with haltReq := false } }
    (s.put F.MTR_STATE_STATE Mtr.halted).put F.MTR_STATE_COPY 0
  else if bitOf s.mtr.dbgReq 0 then
    { s with mtr := { s.mtr with dbgReq := 0, dbg := 1 } }.put F.MTR_STATE_COPY 0
  else s.checkpoint

/-- A command in a state not listed is ignored and sets CMD_REJ (R221). -/
def State.mtrReject (s : State) : State := s.put F.MTR_STATE_CMD_REJ 1

/-- RUN (R221). -/
def State.mtrRun (s : State) (cores : Nat) : State :=
  let st := s.mtrState
  let entry := fun c => BitVec.ofNat 32 (2 * s.get F.MTR_ENTRY_PC c)
  if st ≠ Mtr.halted then s.mtrReject
  else if s.mtrSplit then
    let run := cores % 4
    let s := { s with mtr := { s.mtr with
      archA := if bitOf run 0 then s.mtr.archA.set archPc (entry 0) else s.mtr.archA
      archB := if bitOf run 1 then s.mtr.archB.set archPc (entry 1) else s.mtr.archB } }
    (s.put F.MTR_STATE_CORES run).put F.MTR_STATE_STATE (if run = 0 then Mtr.halted else Mtr.running)
  else
    let pc := entry 0
    let s := { s with mtr := { s.mtr with
      archA := s.mtr.archA.set archPc pc, archB := s.mtr.archB.set archPc (~~~ pc), latents := [], mismatches := [] } }
    (s.put F.MTR_SLICES_COUNT 0).checkpoint

/-- HALT (R221, R222): at the end of the slice in braced mode, also when it arrives in RESOLVING. -/
def State.mtrHalt (s : State) (cores : Nat) : State :=
  let st := s.mtrState
  if s.mtrSplit then
    if st = Mtr.running then
      let run := s.get F.MTR_STATE_CORES &&& (3 - cores % 4)
      (s.put F.MTR_STATE_CORES run).put F.MTR_STATE_STATE (if run = 0 then Mtr.halted else Mtr.running)
    else s.mtrReject
  else if st = Mtr.running ∨ st = Mtr.resolving then { s with mtr := { s.mtr with haltReq := true } }
  else s.mtrReject

/-- TEST (R221). -/
def State.mtrTest (s : State) : State :=
  if s.mtrState == Mtr.halted && !s.mtrSplit then s.put F.MTR_STATE_STATE Mtr.testing else s.mtrReject

/-- CLEAR (R221): local memory is zeroed and the self-test runs. -/
def State.mtrClear (s : State) : State :=
  if s.mtrState == Mtr.safeFault || s.mtrState == Mtr.failed then s.mtrZero.put F.MTR_STATE_STATE Mtr.testing
  else s.mtrReject

/-- One command of MTR_CTRL; other values are ignored. In the bare state the unit is halted and takes none (R16; log entry 127). -/
def State.mtrCommand (s : State) (cmd cores : Nat) : State :=
  if s.bare then (if cmd ≤ 4 ∧ cmd ≠ 0 then s.mtrReject else s) else
  match cmd with
  | 1 => s.mtrRun cores
  | 2 => s.mtrHalt cores
  | 3 => s.mtrTest
  | 4 => s.mtrClear
  | _ => s

/-- A power-fail or a sleep entry asks the unit to stop at the end of the slice (R52, R61, R222). -/
def State.mtrStopReq (s : State) : State :=
  if s.mtrSplit then (s.put F.MTR_STATE_CORES 0).put F.MTR_STATE_STATE Mtr.halted
  else if s.mtrState == Mtr.running || s.mtrState == Mtr.resolving then { s with mtr := { s.mtr with haltReq := true } }
  else s

/-! Safe fault (R216) and self-test (R219) -/

/-- Steps 2 to 4 of R216: SAFEN, the safe state of the served drawers, the alarm. -/
def State.safeActions (s : State) (cause : Nat) : State :=
  let s := s.safenSet 2
  let served := below s.drw.count s.mtrServed
  let s := s.each served fun s d =>
    let tasks := below 9 fun k =>
      s.taskOwner k == some d && (s.taskState k == Task.idle || s.taskState k == Task.busy)
    let s := s.each tasks fun s k => s.faultStop k
    let chans := s.chans.filter fun c => s.chanOwner c == some d && s.chSrc c == 3
    s.each chans fun s c => (s.put F.LCH_CMD_ON 0 c).drive c false
  s.alarm 0x04 0 cause 0

/-- A safe fault (R216). -/
def State.safeFault (s : State) (cause : Nat) : State :=
  let s := { s with mtr := { s.mtr with recA := none, recB := none, recC := none, undo := [], odd := 0, haltReq := false } }
  let s := (s.put F.MTR_STATE_COPY 0).safeActions cause
  let s := ((s.put F.MTR_STATE_CAUSE cause).put F.MTR_STATE_STATE Mtr.safeFault).mtrIrq 0
  s.each (below s.drw.count s.mtrServed) fun s d => s.raise F.MTR_VIEW_STAT_SAFE 1 0 0 (d + 1) (some d) 7 0

/-- The self-test ends (R219): failed lanes, and whether the signature register failed. -/
def State.mtrSelfTest (s : State) (lanes : Nat) (sigFail : Bool) : State :=
  let s := ((s.put F.MTR_TEST_LANE_FAIL lanes).put F.MTR_TEST_SIG_SIG_FAIL (b2n sigFail)).put F.MTR_TEST_SIG_DONE 1
  if lanes = 0 ∧ !sigFail then s.put F.MTR_STATE_STATE Mtr.halted
  else (((s.safeActions 4).put F.MTR_STATE_CAUSE 4).put F.MTR_STATE_STATE Mtr.failed).mtrIrq 0

/-- A write of ON = 1 to a REG channel of a served drawer is ignored in SAFE_FAULT (R216). -/
def State.onBlocked (s : State) (c : Nat) : Bool :=
  s.mtrState == Mtr.safeFault && (s.chanOwner c).any s.mtrServed

/-! The copies' ends (R204 to R214) -/

/-- The undo log of a run of writes: each word first written, with its value at slice start (R206). -/
def State.undoOf (s : State) (w : List (Nat × Word)) : List (Nat × Word) :=
  w.foldl (fun acc p => if acc.any (·.1 == p.1) then acc else acc ++ [(p.1, s.lmemA p.1)]) []

/-- The word address of an access outside local memory. -/
def wordOf (a : Nat) : Nat := a / 4 * 4

/-- A store or a load that a core makes outside local memory (R202, R206): the store a word with its byte enables. -/
def SliceEv.ok : SliceEv → Bool
  | .store e => decide (e.addr % 4 = 0) && decide (e.addr < 0x40000000) && inRange 1 e.be 15
  | .load a n _ => decide (a + n ≤ 0x40000000) && decide (n ≤ 4)
  | .csr n _ => n == 0xC00 || n == 0xC01 || n == 0xC02
  | .lmem o _ => decide (o % 4 = 0) && decide (o < 0x100000)

/-- A slice goes on past no load that the commit queue held by then (R204). -/
def noHazard : List Nat → List SliceEv → Bool
  | _, [] => true
  | q, .store e :: l => noHazard (e.addr :: q) l
  | q, .load a n _ :: l => !q.contains (wordOf a) && !q.contains (wordOf (a + n - 1)) && noHazard q l
  | q, _ :: l => noHazard q l

/-- What one instruction can add to a record: two entries at most, when it crosses a word. -/
def needs (n used cap : Nat) : Bool := inRange 1 n 2 && decide (cap < used + n)

/-- Whether the event that ended copy A's slice is one of R204. -/
def State.endOk (s : State) (r : CopyRec) : Bool :=
  match r.ending with
  | .count => r.instrs == s.mtr.ckLen
  | .wfi => decide (1 ≤ r.instrs)
  | .queueFull n => needs n r.queue.length 64
  | .logFull n => needs n r.reads.length 64
  | .undoFull n => needs n (s.undoOf r.writes).length 4096
  | .hazard a => decide (a < 0x40000000) && r.queue.any fun e => e.addr == wordOf a

/-- A record a slice can produce: within the capacities of R206 and the slice length of R204. -/
def State.sliceFits (s : State) (r : CopyRec) : Bool :=
  decide (r.queue.length ≤ 64) && decide (r.reads.length ≤ 64) && decide ((s.undoOf r.writes).length ≤ 4096) &&
    decide (r.instrs ≤ s.mtr.ckLen) && decide (r.regs.length = 72) && r.evs.all SliceEv.ok && noHazard [] r.evs

/-- The outcome of an outside load or counter read as copies B and C take it: the value in copy A's read log, in order (R206). -/
def takeLog : List (Nat × Word) → List SliceEv → List SliceEv
  | (_, v) :: log, .load a n _ :: l => .load a n v :: takeLog log l
  | (_, v) :: log, .csr n _ :: l => .csr n v :: takeLog log l
  | log, e :: l => e :: takeLog log l
  | _, [] => []

/-- The record of copy B or C, with the values it read from copy A's log. -/
def CopyRec.logged (r a : CopyRec) : CopyRec := { r with evs := takeLog a.reads r.evs }

/-- Copy A ends a slice: its writes stand in bank 0, and copy B starts. -/
def State.copyAEnd (s : State) (r : CopyRec) : State :=
  let undo := s.undoOf r.writes
  let s := s.each r.writes fun s p => s.putLmemA p.1 p.2
  { s with mtr := { s.mtr with recA := some r, undo := undo, archA := r.regs } }.put F.MTR_STATE_COPY 2

/-- Copy B's writes stand in bank 1, its registers inverted. -/
def State.copyBState (s : State) (r : CopyRec) : State :=
  let s := s.each r.writes fun s p => s.putLmemB p.1 p.2
  { s with mtr := { s.mtr with recB := some r, archB := r.regs.map (~~~ ·) } }

/-- The rate conditions of R214, from the numbers of the earlier events, newest first. -/
def rateMet (old : List Nat) (k now : Nat) : Bool :=
  match old[k]? with
  | some n => decide ((now + 2 ^ 32 - n) % 2 ^ 32 ≤ 999)
  | none => false

/-- A slice's queue has left the unit: the released slices are counted. -/
def State.sliceReleased (s : State) : State := s.incr F.MTR_SLICES_COUNT

/-- The MITRE_GAP sample of an event (R390): the slices since the previous event of the kind; free before any (log entry 4). -/
def State.mtrGap (s : State) (ix now : Nat) (old : List Nat) : State :=
  match old with
  | n :: _ => s.sample 10 ix (min ((now + 2 ^ 32 - n) % 2 ^ 32) (2 ^ 31 - 1))
  | [] =>
    let (v, s) := s.free
    s.sample 10 ix v

/-- LATENT_DIVERGENCE (R211, R214): counted, sent to the recorder's sources, and remembered; true when the rate is met. -/
def State.latentEvent (s : State) (a b : CopyRec) : Bool × State :=
  let n := s.get F.MTR_SLICES_COUNT
  let hit := rateMet s.mtr.latents 2 n
  let s := ((s.mtrGap 0 n s.mtr.latents).mtrLast 1 0 (diffOf a b)).bump F.MTR_EVENTS_LATENT 1
  (hit, { s with mtr := { s.mtr with latents := (n :: s.mtr.latents).take 3 } }.mtrIrq 2)

/-- A MISMATCH is resolved with an odd copy (R212, R214); true when the rate is met. -/
def State.mismatchEvent (s : State) (odd : Nat) (a b : CopyRec) : Bool × State :=
  let n := s.get F.MTR_SLICES_COUNT
  let hit := rateMet s.mtr.mismatches 6 n
  let s := ((s.mtrGap 1 n s.mtr.mismatches).mtrLast 2 odd (diffOf a b)).bump F.MTR_EVENTS_MISMATCH 1
  (hit, { s with mtr := { s.mtr with mismatches := (n :: s.mtr.mismatches).take 7 } }.mtrIrq 1)

/-- The unit is resynchronising the odd copy (R213). -/
def State.resyncBegin (s : State) (odd : Nat) : State :=
  ({ s with mtr := { s.mtr with odd := odd } }.put F.MTR_STATE_STATE Mtr.running).put F.MTR_STATE_COPY 0

/-- Copy C's word in its overlay: at the transformed offset, rotated left by 13 bits (R208). -/
def State.putOverlay (s : State) (a : Nat) (v : Word) : State :=
  { s with mtr := { s.mtr with overlay := storePut none s.mtr.overlay (xformWord a) (some (v.rotateLeft 13)) } }

/-- Copy C's writes stand in its overlay. -/
def State.copyCState (s : State) (r : CopyRec) : State :=
  let s := s.each r.writes fun s p => s.putOverlay p.1 p.2
  { s with mtr := { s.mtr with recC := some r } }

/-- The plain end value of a word in copy C: its overlay, else the slice-start value (R208). -/
def State.copyCWord (s : State) (a : Nat) : Word :=
  match storeGet none s.mtr.overlay (xformWord a) with
  | some v => v.rotateRight 13
  | none => match s.mtr.undo.find? (·.1 == a) with
    | some p => p.2
    | none => s.lmemA a

/-- The offsets a copy wrote. -/
def wroteOf (r : Option CopyRec) : List Nat := r.elim [] fun r => r.writes.map (·.1)

/-- Resynchronisation ends (R213): the odd copy's words and registers take the majority's, and the next slice starts. -/
def State.resyncEnd (s : State) : State :=
  let offs := wroteOf s.mtr.recA ++ wroteOf s.mtr.recB
  let s := match s.mtr.odd, s.mtr.recC with
    | 1, some c =>
      let vals := (offs ++ c.writes.map fun q : Nat × Word => q.1).map fun a => (a, s.copyCWord a)
      let s := s.each vals fun s (p : Nat × Word) => s.putLmemA p.1 p.2
      { s with mtr := { s.mtr with archA := c.regs } }
    | _, _ =>
      let s := s.each offs fun s (a : Nat) => s.putLmemB a (s.lmemA a)
      { s with mtr := { s.mtr with archB := s.mtr.archA.map (~~~ ·) } }
  s.nextSlice

/-! Accesses of a core (R202, R206, R207) -/

/-- Whether core c executes: in split mode by CORES, in braced mode while copy A runs on core 0 (R204, R206, R220); not while debug
halts it. -/
def State.mtrRuns (s : State) (c : Nat) : Bool :=
  s.live 12 && !bitOf s.mtr.dbg c && (if s.mtrSplit then bitOf (s.get F.MTR_STATE_CORES) c
    else c == 0 && s.mtrState == Mtr.running && s.get F.MTR_STATE_COPY == 1)

/-- Local memory of a core lies between these addresses (R202). -/
def lmemBase : Nat := 0x40000000
def State.lmemTop (s : State) : Nat := if s.mtrSplit then 0x40200000 else 0x40100000

/-- Whether an access of a core lies in its local memory. -/
def State.inLmem (s : State) (a n : Nat) : Bool := decide (lmemBase ≤ a) && decide (a + n ≤ s.lmemTop)

/-- A byte of a core's local memory in split mode. -/
def State.lmemByte (s : State) (c a : Nat) : Nat :=
  (storeGet 0#32 (if c = 0 then s.mtr.bank0 else s.mtr.bank1) (a / 4)).toNat / 2 ^ (8 * (a % 4)) % 256

/-- Write a byte of a core's local memory in split mode. -/
def State.putLmemByte (s : State) (c a v : Nat) : State :=
  let b := if c = 0 then s.mtr.bank0 else s.mtr.bank1
  let w := (storeGet 0#32 b (a / 4)).toNat
  let w' := BitVec.ofNat 32 (w - w / 2 ^ (8 * (a % 4)) % 256 * 2 ^ (8 * (a % 4)) + v % 256 * 2 ^ (8 * (a % 4)))
  if c = 0 then { s with mtr := { s.mtr with bank0 := storePut 0#32 s.mtr.bank0 (a / 4) w' } }
  else { s with mtr := { s.mtr with bank1 := storePut 0#32 s.mtr.bank1 (a / 4) w' } }

/-- Little-endian value of a core's local memory. -/
def State.lmemLoad (s : State) (c a n : Nat) : Nat := leNat ((List.range n).map fun i => s.lmemByte c (a - lmemBase + i))

/-- Store to a core's local memory. -/
def State.lmemStore (s : State) (c a n v : Nat) : State :=
  s.each (leBytes n v).zipIdx fun s p => s.putLmemByte c (a - lmemBase + p.2) p.1

/-- An access of a split core to its local memory. The success of an SC there is a free value (log entry 26). -/
def State.lmemAccess (s : State) (c a n : Nat) (op : AccOp) (data : Nat) : State :=
  let v := s.lmemLoad c a n
  match op with
  | .read => s.answer true v
  | .fetch => s.answer true v
  | .lr => s.answer true v
  | .write => (s.lmemStore c a n data).answer true 0
  | .amo o => (s.lmemStore c a n (atomicResult o n v data)).answer true v
  | .cas k => (if v = k then s.lmemStore c a n data else s).answer true v
  | .sc =>
    if s.free.1 % 2 = 0 then (s.free.2.lmemStore c a n data).answer true 0 else s.free.2.answer true 1

/-- The exception of a failed access: instruction, load, or store and AMO access fault (log entry 130). -/
def accFault : AccOp → Word
  | .fetch => 1#32
  | .read => 5#32
  | .lr => 5#32
  | _ => 7#32

/-- Copy A's log takes what an outside load returned (R206). -/
def State.mtrLogged (s : State) (a : Access) : State :=
  if a.tag.src = .mitre ∧ a.op = .read ∧ !s.mtrSplit then
    { s with mtr := { s.mtr with loads := s.mtr.loads ++ [(a.addr, a.size, BitVec.ofNat 32 s.resp.data)] } }
  else s

end Sys2Proof.Machine
end

