-- ==== Sys2Proof/Machine/AccessOps.lean ====
section
/-! DEFINITION. The memories of the address map and their checks (R33, R36, R229, R230, R353, R354), access errors (R37,
R48), and what leaves the device over PCIe. -/

namespace Sys2Proof.Machine

/-- The island that holds a memory address (R30, R33); none when it is no memory address. -/
def memIsland (a : Nat) : Option Nat :=
  if a < 0x40000 then some 1
  else if 0x08000000 ≤ a ∧ a < 0x09000000 then some 11
  else if 0x10000000 ≤ a ∧ a < 0x13000000 then some (5 + (a - 0x10000000) / 0xC00000)
  else if 0x100000000 ≤ a ∧ a < 0x300000000 then some 9
  else none

/-- Whether an address lies in DRAM. -/
def isDram (a : Nat) : Bool := decide (0x100000000 ≤ a) && decide (a < 0x300000000)

/-- Whether an address lies in system SRAM. -/
def isSram (a : Nat) : Bool := decide (0x10000000 ≤ a) && decide (a < 0x13000000)

/-- Whether an address lies in eMRAM. -/
def isEmram (a : Nat) : Bool := decide (0x08000000 ≤ a) && decide (a < 0x09000000)

/-- Device memory of R232. -/
def isDevMem (a : Nat) : Bool := isDram a || isSram a

/-- The device areas of eMRAM: everything below the Spare area (R230). -/
def isDevArea (a : Nat) : Bool := decide (0x08000000 ≤ a) && decide (a < 0x08F80000)

/-- The split addresses of R353; 0 watermarks in the bare state. -/
def State.sramSplit (s : State) : Nat := 0x10000000 + s.imgF 9 8 0 0 9 0 * 0x10000
def State.emramSplit (s : State) : Nat := 0x08000000 + s.imgF 9 8 0 1 8 0 * 0x10000
def State.dramSplit (s : State) : Nat := 0x100000000 + s.imgF 9 8 0 2 12 0 * 0x200000

/-- Whether a memory address is secure (R353). -/
def State.secureAddr (s : State) (a : Nat) : Bool :=
  if a < 0x40000 then true
  else if isSram a then decide (a < s.sramSplit)
  else if isEmram a then decide (a < s.emramSplit)
  else if isDram a then decide (a < s.dramSplit)
  else false

/-- The owner of the granule of a DRAM or SRAM address (R229). -/
def State.granuleOwner (s : State) (a : Nat) : Option Nat :=
  if isDram a then
    let g := (a - 0x100000000) / 0x200000
    if s.is F.IOM_DGRAN_VALID g then some (s.get F.IOM_DGRAN_OWNER g) else none
  else if isSram a then
    let g := (a - 0x10000000) / 0x10000
    if s.is F.IOM_SGRAN_VALID g then some (s.get F.IOM_SGRAN_OWNER g) else none
  else none

/-- The granule check of R229 for memory addresses. -/
def State.granuleOk (s : State) (d : Nat) (secure : Bool) (a : Nat) : Bool :=
  if d = 0 || secure then true
  else if isDevMem a then s.granuleOwner a == some d
  else !isEmram a

/-- The world check of R354, with the device areas of R230. -/
def State.worldOk (s : State) (secure write : Bool) (a : Nat) : Bool :=
  if isDevArea a then secure && !write else secure || !s.secureAddr a

/-- Causes of an access error (FAB_AERR_INFO.CAUSE). -/
abbrev Aerr.unmapped : Nat := 1
abbrev Aerr.misaligned : Nat := 2
abbrev Aerr.windowDenied : Nat := 3
abbrev Aerr.notOwner : Nat := 4
abbrev Aerr.secure : Nat := 5
abbrev Aerr.islandOff : Nat := 6
abbrev Aerr.secureWiped : Nat := 7
abbrev Aerr.retired : Nat := 8

/-- Put an island into a state. -/
def State.putIsl (s : State) (n st : Nat) : State := s.put F.FAB_ISL_STATE_STATE st n

/-- An island wakes (R44); `off` says it was without power. -/
def State.islandWake (s : State) (n : Nat) (off : Bool) : State :=
  { s with fab := { s.fab with fromOff := storePut false s.fab.fromOff n off } }.putIsl n Isl.waking

/-- Whether an island makes accesses wait (R44). -/
def State.islandHolds (s : State) (n : Nat) : Bool :=
  s.islState n == Isl.draining || s.islState n == Isl.gated || s.islState n == Isl.waking

/-- An access that reaches a clock-gated island wakes it (R38). -/
def State.ungate (s : State) (n : Nat) : State := if s.islState n = Isl.gated then s.islandWake n false else s

/-- Items 6 and 7 of R36: the cause that refuses an access to an island, 0 when none. -/
def State.islandCause (s : State) (n : Nat) (secure : Bool) : Nat :=
  if secure && (s.islState n == 3 || s.is F.FAB_CLAIM_WIPED n) then Aerr.secureWiped
  else if s.islState n = 5 then Aerr.islandOff
  else 0

/-- The check of one byte of a memory access (R36, R230): 0 when granted, else the first cause. -/
def State.memCause (s : State) (d : Nat) (secure write : Bool) (a : Nat) : Nat :=
  match memIsland a with
  | none => Aerr.unmapped
  | some n =>
    if isDevArea a && write then Aerr.secure
    else if !s.granuleOk d secure a then Aerr.notOwner
    else if !s.worldOk secure write a then Aerr.secure
    else
      match s.islandCause n secure with
      | 0 => if isSram a && s.unitOut 6 ((a - 0x10000000) / 0x100000) then Aerr.retired else 0
      | c => c

/-- Record an access error (R37, R48): captured while VALID is 0, counted, and added to the drawer's faults. -/
def State.aerr (s : State) (tag : Tag) (addr : Nat) (write : Bool) (cause : Nat) : State :=
  let s :=
    if s.is F.FAB_AERR_INFO_VALID then s
    else
      let s := (s.put F.FAB_AERR_ADDR_LO_ADDR addr).put F.FAB_AERR_ADDR_HI_ADDR (addr / 2 ^ 32)
      let s := (s.put F.FAB_AERR_INFO_CAUSE cause).put F.FAB_AERR_INFO_WRITE (b2n write)
      let s := (s.put F.FAB_AERR_INFO_WORLD (b2n tag.secure)).put F.FAB_AERR_INFO_DRAWER tag.drawer.val
      (s.put F.FAB_AERR_INFO_SOURCE tag.src.code).put F.FAB_AERR_INFO_VALID 1
  (s.bump F.FAB_AERR_COUNT_COUNT 1).faultRecord tag.drawer.val cause tag.src.code write addr 0 0

/-- Bytes of memory as a number, and the write of a number's bytes. -/
def State.memRead (s : State) (a n : Nat) : Nat := leNat (memBytes s.mem a n)
def State.memStore (s : State) (a : Nat) (l : List Nat) : State := { s with mem := memWrite s.mem a l }

/-- The next sequence tag of a drawer and source kind (R345): counts from 1, and after 0x1FFF_FFFF from 1 again. -/
def State.nextTag (s : State) (d src : Nat) : Nat × State :=
  let n := storeGet 1 s.seqs (8 * d + src)
  (src * 2 ^ 29 + n, { s with seqs := storePut 1 s.seqs (8 * d + src) (if n = 0x1FFFFFFF then 1 else n + 1) })

/-! Posted writes that fail (R345 to R349) -/

/-- List a failure that waits for an acknowledgement (R349): at most 16 per drawer and source kind, DMA not listed. -/
def State.addFailure (s : State) (d src tag cause : Nat) : State :=
  if src = 2 then s
  else
    let k := 8 * d + src
    let l := storeGet [] s.dwl.unacked k
    if l.length < 16 then { s with dwl := { s.dwl with unacked := storePut [] s.dwl.unacked k (l ++ [(tag, cause)]) } }
    else { s with dwl := { s.dwl with tooMany := storePut false s.dwl.tooMany k true } }

/-- A far failure is reported to the drawer of its tag (R347): a record for the POSTED_ERR ring with F11, else a fault record. -/
def State.farFailure (s : State) (d src unit addr tag cause data : Nat) : State :=
  let s := s.addFailure d src tag cause
  if s.feat d 11 then
    let s := s.put F.DWL_VEVT_PERR 1 0 0 (d + 1)
    let l := storeGet [] s.dwl.perr d
    let r : PostErr :=
      ⟨leBytes 8 (addr % 2 ^ 40) ++ leBytes 4 tag ++ [cause, d + src * 16] ++ leBytes 2 unit ++ leBytes 4 data,
        leBytes 4 s.now.ns ++ leBytes 2 s.now.ep ++ [0, 0]⟩
    if l.length < 8 then { s with dwl := { s.dwl with perr := storePut [] s.dwl.perr d (l ++ [r]) } }
    else
      { s with dwl := { s.dwl with perrLost := storePut 0 s.dwl.perrLost d (storeGet 0 s.dwl.perrLost d + 1) } }.bump
        F.DWL_VEVT_LOST 1 0 0 (d + 1)
  else s.faultRecord d 0x20 src true (addr % 2 ^ 40) 0 0

/-- What a PCIe function's configuration is. -/
def State.fn (s : State) (f : Nat) : FnSt := storeGet FnSt.rst s.dwl.fn f

/-- Why outbound requests of a drawer are not issued (R337, R346): 0 when they are. -/
def State.outboundCause (s : State) (d : Nat) : Nat :=
  if !(s.fn d).bme then 0x0C else if !s.is F.DWL_LINK_DL_UP then 0x0D else 0

/-- A posted write to host memory by ring `unit` (R236, R345), `va` being its input address: it leaves with its sequence tag, or fails and
is reported by that address (R348). -/
def State.hostWrite (s : State) (d src unit va addr : Nat) (l : List Nat) : State :=
  let (t, s) := s.nextTag d src
  if s.outboundCause d = 0 then s.emit 6 d addr l
  else s.farFailure d src unit va t (s.outboundCause d) (if l.length = 4 then leNat l else 0)

/-! Arbitration (R40 to R42, R79) -/

/-- The distance of a drawer above a pointer, wrapping. -/
def ptrDist (p d : Nat) : Nat := (d + 16 - p) % 16

/-- A claim goes before another at a point whose pointer is `p`, `ra` and `rb` being the resource's own order of the two: that order, then
the pointer, then within one drawer the source and the lower number. -/
def Claim.before (p ra rb : Nat) (a b : Claim) : Bool :=
  if ra ≠ rb then decide (ra < rb)
  else if a.drawer ≠ b.drawer then decide (ptrDist p a.drawer < ptrDist p b.drawer)
  else if a.src.code ≠ b.src.code then decide (a.src.code < b.src.code)
  else decide (a.num < b.num)

/-- The claim granted, `rank` being the resource's own order (smaller first). -/
def claimPick (p : Nat) (rank : Claim → Nat) : List Claim → Option Claim
  | [] => none
  | a :: l =>
    match claimPick p rank l with
    | none => some a
    | some b => if b.before p (rank b) (rank a) a then some b else some a

/-- The DMA share of a drawer, its weight at points 0 and 2 (R79); 0 for a drawer that does not exist, as for the POOL. -/
def State.dmaShare (s : State) (d : Nat) : Nat := if d < s.drw.count then s.get F.DRW_G_HOLD_AMOUNT d 1 else 0

/-- The slots of its share that a drawer has used in the current round of a point. -/
def State.shareUsed (s : State) (k d : Nat) : Nat := storeGet 0 s.fab.used (16 * k + d)

/-- Where the share puts a drawer's claims (log entry 105): those whose share of the round is not used up, then those whose share
is, then those of weight 0. -/
def State.shareRank (s : State) (k d : Nat) : Nat :=
  if s.dmaShare d = 0 then 2 else if s.shareUsed k d < s.dmaShare d then 0 else 1

/-- The own order of point `k` (R40, R239, R263): at DMA issue the ring's class, then the share; at DRAM the share; at the semaphores the
lower number; at the host queues the higher class. -/
def State.claimRank (s : State) (k : Nat) (c : Claim) : Nat :=
  if k = 0 then s.shareRank 0 c.drawer
  else if k = 2 then
    4 * (3 - (if s.feat c.drawer 1 then s.get F.RING_CFG_CLASS c.unit else 0)) + s.shareRank 2 c.drawer
  else if k = 6 then c.unit % 64
  else if k = 7 then 7 - c.unit % 8
  else 0

/-- A slot of a share is used; when every share that claimed was used up, a new round has begun. -/
def State.shareUse (s : State) (k d : Nat) : State :=
  match s.shareRank k d with
  | 0 => { s with fab := { s.fab with used := storePut 0 s.fab.used (16 * k + d) (s.shareUsed k d + 1) } }
  | 1 => { s with fab := { s.fab with used := storePut 0 (s.fab.used.filter fun p => p.1 / 16 != k) (16 * k + d) 1 } }
  | _ => s

/-- A grant of arbitration point `k` to drawer `d` moves its pointer. -/
def State.arbMove (s : State) (k : Nat) (d : Fin 16) : State :=
  let s := if k = 0 ∨ k = 2 then s.shareUse k d else s
  { s with fab := { s.fab with granted := storePut 0 s.fab.granted k (d.val + 1) } }.put F.FAB_ARB_PTR_PTR ((d.val + 1) % 16) k

/-- The drawer with a number below 16, as arbitration knows it. -/
def drawerFin (d : Nat) : Fin 16 := ⟨d % 16, Nat.mod_lt _ (by decide)⟩

/-- The arbitration point on the way to an address (R40): DRAM, the port of a system SRAM, or the field-side register path. -/
def pointOf (a : Nat) : Nat := if isDram a then 0 else if isSram a then 8 + (a - 0x10000000) / 0xC00000 else 1

end Sys2Proof.Machine
end

