-- ==== Sys2Proof/Machine/DmaOps.lean ====
section
/-! DEFINITION. Translation for DMA and the ring engine (ch. 4, 11): page-table walks, cached translations, rings and
descriptors, commit units, dirty logging, translation faults. Words of host memory come as operands of the rows that read
them: a list of (address / 8, 64-bit word); an address not listed answers 0 (log entry 14). -/

namespace Sys2Proof.Machine

/-- The 64-bit word of host memory that holds a byte address. -/
def hostWord (h : HostMem) (a : Nat) : Nat := ((h.find? (·.1 == a / 8)).elim 0 (·.2)) % 2 ^ 64

/-- `n` bytes of host memory. -/
def hostBytes (h : HostMem) (a n : Nat) : List Nat :=
  (List.range n).map fun k => hostWord h (a + k) / 2 ^ (8 * ((a + k) % 8)) % 256

/-- Whether drawer d runs under HOST binding (R73). -/
def State.hostBound (s : State) (d : Nat) : Bool := s.get F.DRW_BIND_MODE d == 0

/-- Whether a ring issues secure accesses (R355). -/
def State.ringSecure (s : State) (r : Nat) : Bool := bitOf (s.get F.WLD_RING_SEC_SECURE (r / 32)) (r % 32)

/-! Walks (R232, R233) -/

/-- A place an output address names: device or host memory. -/
structure Place where
  host : Bool
  addr : Nat
  deriving DecidableEq, Repr

/-- A translation fault: cause, stage and GPA, and, where a check of R36 refused an access, that access error (R37): its tag, the checked
address, whether it writes, and its cause. -/
structure DmaFault where
  cause : Nat
  stage : Nat
  gpa : Nat
  err : Option (Tag × Nat × Bool × Nat)
  deriving DecidableEq, Repr

/-- What a translation comes to: a place with the PTE bits to set on the way, a fault, or a wait for an island that a walk read needs. -/
inductive Xlate
  | ok (out : Place) (upd : List (Place × Nat))
  | fault (f : DmaFault)
  | hold (island : Nat)
  deriving DecidableEq, Repr

/-- Causes of IOM_RFLT_INFO. -/
abbrev Iof.s1Invalid : Nat := 1
abbrev Iof.s1Perm : Nat := 2
abbrev Iof.s2Invalid : Nat := 3
abbrev Iof.s2Perm : Nat := 4
abbrev Iof.walk : Nat := 5
abbrev Iof.notOwner : Nat := 6
abbrev Iof.range : Nat := 7
abbrev Iof.hostOnly : Nat := 8
abbrev Iof.secure : Nat := 9

/-- Checks of R36 that IOM_RFLT_INFO has no code for (log entry 109): a wiped island, an island without power, a retired SRAM unit. -/
abbrev Iof.wiped : Nat := 10
abbrev Iof.islandOff : Nat := 11
abbrev Iof.retired : Nat := 12

/-- The fault cause of a check of R36 that failed. -/
def iofOf (aerr : Nat) : Nat :=
  if aerr = Aerr.notOwner then Iof.notOwner else if aerr = Aerr.secure then Iof.secure
  else if aerr = Aerr.secureWiped then Iof.wiped else if aerr = Aerr.islandOff then Iof.islandOff else Iof.retired

/-- The access error of a fault cause; 0 for one that is no failed check of R36. -/
def aerrOf (iof : Nat) : Nat :=
  if iof = Iof.notOwner then Aerr.notOwner else if iof = Iof.secure then Aerr.secure
  else if iof = Iof.wiped then Aerr.secureWiped else if iof = Iof.islandOff then Aerr.islandOff
  else if iof = Iof.retired then Aerr.retired else 0

/-- A PTE that no walk may use: V = 0, W without R, a reserved bit, or N = 1 (R225, R233); PBMT is ignored. -/
def pteBad (p : Nat) : Bool :=
  !bitOf p 0 || (bitOf p 2 && !bitOf p 1) || bitsOf p 60 54 != 0 || bitOf p 63

/-- A PTE that points to the next table. -/
def pteTable (p : Nat) : Bool := !bitOf p 1 && !bitOf p 3

/-- The A and D bits a use sets: those of `0x40` and, on a write, `0x80` that the PTE lacks. -/
def pteNeed (p : Nat) (wr : Bool) : Nat :=
  (if bitOf p 6 then 0 else 0x40) + (if wr && !bitOf p 7 then 0x80 else 0)

/-- The output address of a leaf at level `l`, or none when the superpage is misaligned. -/
def pteOut (p l a : Nat) : Option Nat :=
  let ppn := bitsOf p 53 10
  let low := 2 ^ (9 * l)
  if ppn % low ≠ 0 then none else some (ppn * 4096 + a % (4096 * low))

/-- Where a guest-physical address leads under stage 2 Bare (R232). -/
def bareOut (host : Bool) (a : Nat) : Xlate :=
  if host then .ok ⟨true, a⟩ [] else if a < 2 ^ 40 then .ok ⟨false, a⟩ [] else .fault ⟨Iof.range, 0, 0, none⟩

/-- Where a stage-2 output address leads (R232). -/
def pagedOut (host : Bool) (a : Nat) (upd : List (Place × Nat)) : Xlate :=
  if bitsOf a 55 40 = 0 then .ok ⟨false, a⟩ upd
  else if bitOf a 46 then
    if !host then .fault ⟨Iof.hostOnly, 0, 0, none⟩
    else if bitsOf a 55 47 = 0 then .ok ⟨true, a % 2 ^ 46⟩ upd
    else .fault ⟨Iof.range, 0, 0, none⟩
  else .fault ⟨Iof.range, 0, 0, none⟩

/-- The check of a walk read or a DMA access to device memory: 0, or the fault cause (R36, R229, R230, R232). -/
def State.dmaCause (s : State) (d : Nat) (secure write : Bool) (a : Nat) : Nat :=
  if isDevArea a && write then Iof.secure
  else if !isDevMem a then Iof.range
  else match s.memCause d secure write a with
    | 0 => 0
    | c => iofOf c

/-- The tag of a DMA access (R35). -/
def dmaTag (d : Nat) (sec : Bool) : Tag := ⟨drawerFin d, sec, .dma⟩

/-- The access error that a refused DMA access records. -/
def State.dmaErr (s : State) (d : Nat) (sec write : Bool) (a : Nat) : Option (Tag × Nat × Bool × Nat) :=
  match aerrOf (s.dmaCause d sec write a) with
  | 0 => none
  | c => some (dmaTag d sec, a, write, c)

/-- The island that makes an access to device memory wait (R38). -/
def State.memHeld (s : State) (a : Nat) : Option Nat := (memIsland a).filter s.islandHolds

/-- Stage 2 from level `l` down: table reads are device-physical with tag D0. -/
def State.walk2 (s : State) (host : Bool) (gpa : Nat) (wr : Bool) : Nat → Nat → Nat → Xlate
  | l, base, idx =>
    let pa := base + 8 * idx
    if s.dmaCause 0 false false pa ≠ 0 then .fault ⟨Iof.walk, 2, gpa, s.dmaErr 0 false false pa⟩
    else
      match s.memHeld pa with
      | some n => .hold n
      | none =>
        let p := s.memRead pa 8
        let bad := fun c => Xlate.fault ⟨c, 2, gpa, none⟩
        if pteBad p then bad Iof.s2Invalid
        else if pteTable p then
          match l with
          | 0 => bad Iof.s2Invalid
          | l + 1 =>
            if bitsOf p 7 6 ≠ 0 ∨ bitOf p 4 then bad Iof.s2Invalid
            else s.walk2 host gpa wr l (bitsOf p 53 10 * 4096) (gpa / 2 ^ (12 + 9 * l) % 512)
        else if !bitOf p 4 || !bitOf p 1 || (wr && !bitOf p 2) then bad Iof.s2Perm
        else
          match pteOut p l gpa with
          | none => bad Iof.s2Invalid
          | some a => pagedOut host a (if pteNeed p wr = 0 then [] else [(⟨false, pa⟩, pteNeed p wr)])

/-- Stage 2 of drawer d on a guest-physical address. -/
def State.stage2 (s : State) (d gpa : Nat) (wr : Bool) : Xlate :=
  let host := s.hostBound d
  let root := s.get F.IOM_S2CFG_ROOT_PPN d * 0x4000
  match s.get F.IOM_S2CFG_MODE d with
  | 1 => if gpa ≥ 2 ^ 41 then .fault ⟨Iof.range, 0, 0, none⟩ else s.walk2 host gpa wr 2 root (gpa / 2 ^ 30)
  | 2 => if gpa ≥ 2 ^ 50 then .fault ⟨Iof.range, 0, 0, none⟩ else s.walk2 host gpa wr 3 root (gpa / 2 ^ 39)
  | _ => bareOut host gpa

/-- The update of a stage-1 PTE that a walk needs (R233): it passes stage 2 as a write; one that would fail is a fault S1_INVALID. -/
def State.pteWrite (s : State) (d : Nat) (sec : Bool) (gpa a need : Nat) (upd : List (Place × Nat)) : Xlate :=
  match s.stage2 d gpa true with
  | .fault f => .fault ⟨Iof.s1Invalid, 1, 0, f.err⟩
  | .hold n => .hold n
  | .ok out u =>
    if out.host && s.outboundCause d != 0 then .fault ⟨Iof.s1Invalid, 1, 0, none⟩
    else if !out.host && s.dmaCause d sec true out.addr != 0 then .fault ⟨Iof.s1Invalid, 1, 0, s.dmaErr d sec true out.addr⟩
    else .ok ⟨false, a⟩ (upd ++ u ++ [(out, need)])

/-- Stage 1 from level `l` down: table reads are guest-physical, pass through stage 2 and carry the drawer's tag; the U bit is ignored. The
result is the guest-physical address with the PTE bits to set. -/
def State.walk1 (s : State) (d : Nat) (sec : Bool) (h : HostMem) (va : Nat) (wr : Bool) :
    Nat → Nat → List (Place × Nat) → Xlate
  | l, base, upd =>
    let gpa := base + 8 * (va / 2 ^ (12 + 9 * l) % 512)
    match s.stage2 d gpa false with
    | .fault f => .fault f
    | .hold n => .hold n
    | .ok out u2 =>
      if !out.host && s.dmaCause d sec false out.addr != 0 then .fault ⟨Iof.walk, 1, 0, s.dmaErr d sec false out.addr⟩
      else
        match if out.host then none else s.memHeld out.addr with
        | some n => .hold n
        | none =>
          let p := if out.host then hostWord h out.addr else s.memRead out.addr 8
          let bad := fun c => Xlate.fault ⟨c, 1, 0, none⟩
          if pteBad p then bad Iof.s1Invalid
          else if pteTable p then
            match l with
            | 0 => bad Iof.s1Invalid
            | l + 1 =>
              if bitsOf p 7 6 ≠ 0 then bad Iof.s1Invalid
              else s.walk1 d sec h va wr l (bitsOf p 53 10 * 4096) (upd ++ u2)
          else if !bitOf p 1 || (wr && !bitOf p 2) then bad Iof.s1Perm
          else
            match pteOut p l va with
            | none => bad Iof.s1Invalid
            | some a =>
              if pteNeed p wr = 0 then .ok ⟨false, a⟩ (upd ++ u2) else s.pteWrite d sec gpa a (pteNeed p wr) (upd ++ u2)

/-- The full translation of an input address of drawer d (R232). -/
def State.translate (s : State) (d : Nat) (sec : Bool) (h : HostMem) (va : Nat) (wr : Bool) : Xlate :=
  let root := (s.get F.IOM_S1ROOT_LO_PPN 0 0 (d + 1) + s.get F.IOM_S1ROOT_HI_PPN 0 0 (d + 1) * 2 ^ 32) * 4096
  let gpa : Xlate := match s.get F.IOM_S1CFG_MODE 0 0 (d + 1) with
    | 1 => if va ≥ 2 ^ 39 then .fault ⟨Iof.range, 0, 0, none⟩ else s.walk1 d sec h va wr 2 root []
    | 2 => if va ≥ 2 ^ 48 then .fault ⟨Iof.range, 0, 0, none⟩ else s.walk1 d sec h va wr 3 root []
    | _ => .ok ⟨false, va⟩ []
  match gpa with
  | .fault f => .fault f
  | .hold n => .hold n
  | .ok g upd =>
    match s.stage2 d g.addr wr with
    | .fault f => .fault f
    | .hold n => .hold n
    | .ok out u2 => .ok out (upd ++ u2)

/-- Set A and D bits in a PTE (R233): an atomic update in device memory, a write over PCIe in host memory. -/
def State.pteUpdate (s : State) (d : Nat) (h : HostMem) (u : Place × Nat) : State :=
  if u.1.host then s.hostWrite d 2 0 u.1.addr u.1.addr (leBytes 8 (hostWord h u.1.addr ||| u.2))
  else s.memStore u.1.addr (leBytes 8 (s.memRead u.1.addr 8 ||| u.2))

/-- Whether drawer d translates at all: otherwise nothing is cached and nothing need be. -/
def State.paged (s : State) (d : Nat) : Bool :=
  s.get F.IOM_S1CFG_MODE 0 0 (d + 1) != 0 || s.get F.IOM_S2CFG_MODE d != 0

/-- The cached translation of a page that serves an access. -/
def State.tlbFind (s : State) (d : Nat) (sec : Bool) (va : Nat) (wr : Bool) : Option TlbE :=
  s.iom.tlb.find? fun e => e.drawer == d && e.secure == sec && e.page == va / 4096 && (e.wr || !wr)

/-- A walk completes (R233, R234): a valid translation is cached and its PTE bits are set; a fault is not cached, and a walk read that
needs a clock-gated island wakes it. A page that a cached entry serves needs no walk: entries go by invalidation alone. -/
def State.walkDone (s : State) (d : Nat) (sec : Bool) (h : HostMem) (va : Nat) (wr : Bool) : State :=
  if (s.tlbFind d sec va wr).isSome then s
  else
    let s := s.arbMove 3 (drawerFin d)
    match s.translate d sec h va wr with
    | .fault _ => s
    | .hold n => s.ungate n
    | .ok out upd =>
      let s := s.each upd fun s u => s.pteUpdate d h u
      let e : TlbE := ⟨d, sec, va / 4096, wr, s.get F.IOM_S1CFG_MODE 0 0 (d + 1) != 0, out.host, out.addr / 4096⟩
      { s with iom := { s.iom with tlb := s.iom.tlb ++ [e] } }

/-- The place an access goes to when its page is translated already: a cached entry serves it until it is invalidated, and a Bare drawer
needs no walk. -/
def State.located (s : State) (d : Nat) (sec : Bool) (va : Nat) (wr : Bool) : Option Place :=
  match s.tlbFind d sec va wr with
  | some e => some ⟨e.host, e.out * 4096 + va % 4096⟩
  | none =>
    if s.paged d then none
    else
      match s.translate d sec [] va wr with
      | .ok out _ => some out
      | _ => none

/-- A piece of an access that lies in one page: input address and length. -/
abbrev Piece := Nat × Nat

/-- Split a short access at a 4 KiB boundary. -/
def pieces (va n : Nat) : List Piece :=
  let room := 4096 - va % 4096
  if n ≤ room then [(va, n)] else [(va, room), (va + room, n - room)]

/-- Where a piece goes when it may be performed at once: translated, granted by the checks at this moment (R229), and in an island that
does not make it wait (R38). -/
def State.granted (s : State) (d : Nat) (sec wr : Bool) (p : Piece) : Option Place :=
  match s.located d sec p.1 wr with
  | none => none
  | some out =>
    if out.host then some out
    else if s.dmaCause d sec wr out.addr = 0 && (s.memHeld out.addr).isNone then some out
    else none

/-- A piece that waits for a clock-gated island wakes it (R38). -/
def State.dmaUngate (s : State) (d : Nat) (sec : Bool) (l : List (Bool × Piece)) : State :=
  s.each l fun s p =>
    match s.located d sec p.2.1 p.1 with
    | some out =>
      if out.host || s.dmaCause d sec p.1 out.addr != 0 then s else (s.memHeld out.addr).elim s s.ungate
    | none => s

/-- The grant of the arbitration point on the way to each piece in device memory (R40). -/
def State.dmaGrants (s : State) (d : Nat) (sec : Bool) (l : List (Bool × Piece)) : State :=
  s.each l fun s p =>
    match s.located d sec p.2.1 p.1 with
    | some out => if out.host then s else s.arbMove (pointOf out.addr) (drawerFin d)
    | none => s

/-- Read pieces. -/
def State.readPieces (s : State) (d : Nat) (sec : Bool) (h : HostMem) : List Piece → Option (List Nat)
  | [] => some []
  | p :: rest =>
    match s.granted d sec false p with
    | none => none
    | some out =>
      if out.host && s.outboundCause d != 0 then none
      else
        let l := if out.host then hostBytes h out.addr p.2 else memBytes s.mem out.addr p.2
        (s.readPieces d sec h rest).map (l ++ ·)

/-! Dirty logging (R242, R243) -/

/-- Log one page of drawer d's dirty bitmap by input address. -/
def State.dirtyLog (s : State) (d va : Nat) : State :=
  if !s.feat d 4 then s
  else
    let size := min 64 (s.get F.IOM_DIRTY_SIZE_SIZE_1G d) * 2 ^ 30
    let start := s.get F.IOM_DIRTY_BASE_BASE_1G d * 2 ^ 30
    if va < start ∨ start + size ≤ va then s.put F.IOM_DIRTY_STAT_OVERFLOW 1 d
    else
      let page := (va - start) / 4096
      let ppn := if s.is F.IOM_DIRTY_STAT_CUR d then s.get F.IOM_DIRTY_MAP1_PPN d else s.get F.IOM_DIRTY_MAP0_PPN d
      let a := ppn * 4096 + page / 8
      if !isDevMem a then s.put F.IOM_DIRTY_STAT_OVERFLOW 1 d
      else match s.dmaErr 0 false true a with
        | some e => s.aerr e.1 e.2.1 e.2.2.1 e.2.2.2
        | none => s.memStore a [(s.memRead a 1) ||| 2 ^ (page % 8)]

/-- SWAP (R243): ignored while BUSY. -/
def State.dirtySwap (s : State) (d : Nat) : State :=
  if s.is F.IOM_DIRTY_STAT_BUSY d then s
  else
    let s := s.put F.IOM_DIRTY_STAT_CUR (1 - s.get F.IOM_DIRTY_STAT_CUR d) d
    (s.incr F.IOM_DIRTY_STAT_EPOCH d).put F.IOM_DIRTY_STAT_BUSY 1 d

/-- Write pieces and log their pages; none when a piece may not be written. -/
def State.writePieces (s : State) (d r : Nat) (sec : Bool) : List Piece → List Nat → Option State
  | [], _ => some s
  | p :: rest, l =>
    match s.granted d sec true p with
    | none => none
    | some out =>
      let bytes := l.take p.2
      let s' := if out.host then s.hostWrite d 2 r p.1 out.addr bytes else s.memStore out.addr bytes
      (s'.dirtyLog d p.1).writePieces d r sec rest (l.drop p.2)

/-! Rings (R83 to R88) -/

/-- What the engine holds for ring r. -/
def State.rg (s : State) (r : Nat) : RingSt := storeGet RingSt.idle s.ring r

/-- Replace what the engine holds for ring r. -/
def State.putRg (s : State) (r : Nat) (x : RingSt) : State := { s with ring := storePut RingSt.idle s.ring r x }

/-- Ring states (R85) and kinds (R84). -/
abbrev Rst.disabled : Nat := 0
abbrev Rst.running : Nat := 1
abbrev Rst.faulted : Nat := 2
abbrev Rst.stopping : Nat := 3
abbrev Kind.ethTx : Nat := 1
abbrev Kind.ethRx : Nat := 2
abbrev Kind.canRx : Nat := 3
abbrev Kind.copy : Nat := 4
abbrev Kind.log : Nat := 5
abbrev Kind.postedErr : Nat := 6
abbrev Kind.capture : Nat := 7
abbrev Kind.update : Nat := 8

def State.ringState (s : State) (r : Nat) : Nat := s.get F.RING_STATE_STATE r
def State.ringKind (s : State) (r : Nat) : Nat := s.get F.RING_CFG_KIND r
def State.ringEnd (s : State) (r : Nat) : Nat := s.get F.RING_CFG_ENDPOINT r
def State.ringBase (s : State) (r : Nat) : Nat := s.get F.RING_BASE_LO_BASE r + s.get F.RING_BASE_HI_BASE r * 2 ^ 32
def State.ringSize (s : State) (r : Nat) : Nat := 2 ^ s.get F.RING_CFG_SIZE_LOG2 r
def State.ringHead (s : State) (r : Nat) : Nat := s.get F.RING_HEAD_INDEX r

/-- The descriptors the ring holds (R83). -/
def State.ringHeld (s : State) (r : Nat) : Nat := (s.get F.RING_TAIL_INDEX r + 65536 - s.ringHead r) % 65536

/-- The input address of the descriptor in use. -/
def State.descAddr (s : State) (r : Nat) : Nat := s.ringBase r + 32 * (s.ringHead r % s.ringSize r)

/-- The ring of a kind on an endpoint that is not DISABLED. -/
def State.ringOn (s : State) (kind ep : Nat) : Option Nat :=
  (List.range 256).find? fun r => s.ringState r != Rst.disabled && s.ringKind r == kind && s.ringEnd r == ep

/-- The ring of a kind of drawer d that is not DISABLED. -/
def State.ringOf (s : State) (d kind : Nat) : Option Nat := (s.ringsOfKind d kind).head?

/-- Whether a ring has a descriptor ready to take data: RUNNING with one in progress that is not done, its drawer RUNNING too (R74, R92). -/
def State.ringReady (s : State) (r : Nat) : Bool :=
  s.ringState r == Rst.running && (s.rg r).desc.isSome && !(s.rg r).ready && (s.ringOwner r).any fun d => s.drwState d == 1

/-- The vector of a ring: 0 and 1 act as 2. -/
def vecOf (v : Nat) : Nat := if v < 2 then 2 else v

/-- Signal the vector of a ring (R89): latched for the drawer until the scan delivers it. -/
def State.ringSignal (s : State) (r : Nat) : State :=
  match s.ringOwner r with
  | none => s
  | some d =>
    { s with ringSig := storePut 0 s.ringSig d (setBitTo (storeGet 0 s.ringSig d) (vecOf (s.get F.RING_CFG_VEC r)) true) }

/-- A descriptor from its 32 bytes (R87). -/
def Desc.of (l : List Nat) : Desc :=
  let g := fun a n => leNat (slice l a n)
  ⟨g 0 8, g 8 4, g 12 1, g 13 1, g 14 2, g 16 8, g 24 4⟩

/-- Flags of a descriptor. -/
def Desc.irq (x : Desc) : Bool := bitOf x.flags 0
def Desc.more (x : Desc) : Bool := bitOf x.flags 1
def Desc.launch (x : Desc) : Bool := bitOf x.flags 3

/-- A descriptor the device refuses (R88): a reserved bit set, LEN 0 or an unknown OP (log entry 15). -/
def State.descBad (s : State) (r : Nat) (x : Desc) : Bool :=
  let k := s.ringKind r
  let d := (s.ringOwner r).getD 0
  decide (x.addr ≥ 2 ^ 48) || decide (x.len ≥ 2 ^ 24) || x.len == 0 || bitsOf x.flags 7 4 != 0 ||
    (x.more && k != Kind.ethTx) || (x.launch && !(k == Kind.ethTx && s.feat d 5)) ||
    (if k = Kind.copy then decide (x.op > 1) else if k = Kind.update then decide (x.op < 1 ∨ x.op > 4) else x.op != 0)

/-- The bytes of a record of a record kind (R270, R347, R401); 0 for other kinds. A shorter buffer takes none. -/
def recBytes (k : Nat) : Nat := if k = 7 then 160 else if k = 5 then 32 else if k = 6 then 32 else 0

/-- The data of a fetched descriptor arrives (R86 to R88); SOURCE and WRITE of its fault record are log entry 110. -/
def State.descFetched (s : State) (r : Nat) (l : List Nat) : State :=
  let x := Desc.of l
  let g := s.rg r
  if s.descBad r x then
    let s := s.putRg r { g with desc := some x, off := 0, result := 3, detail := 0, ready := true, ended := false }
    match s.ringOwner r with
    | some d => s.faultRecord d 0x11 2 false 0 r 0
    | none => s
  else
    let first := g.tx.isEmpty
    let small := decide (x.len < recBytes (s.ringKind r))
    s.putRg r { g with
      desc := some x, off := 0, result := 0, detail := 0, ready := small, ended := false, close := false
      llPort := if first then bitsOf x.arg1 4 0 else g.llPort
      launch := if x.launch then some ⟨x.arg0 % 2 ^ 32, x.arg0 / 2 ^ 32 % 2 ^ 16⟩ else if first then none else g.launch }

/-- Fetch the descriptor at HEAD, when its page is translated; none starts once the drawer drains (R92). -/
def State.descFetch (s : State) (r : Nat) (h : HostMem) : State :=
  if s.ringState r = Rst.running ∧ (s.rg r).desc = none ∧ s.ringHeld r ≠ 0 then
    match s.ringOwner r with
    | none => s
    | some d =>
      if s.drwState d ≠ 1 then s
      else
      let p := pieces (s.descAddr r) 32
      match s.readPieces d (s.ringSecure r) h p with
      | some l => (s.dmaGrants d (s.ringSecure r) (p.map (false, ·))).descFetched r l
      | none => s.dmaUngate d (s.ringSecure r) (p.map (false, ·))
  else s

/-! Commit units (R235, R236) -/

/-- Whether a kind writes the buffer (it otherwise reads it, or copies). -/
def writesBuffer (k : Nat) : Bool := k == 2 || k == 3 || k == 5 || k == 6 || k == 7

/-- The bytes the descriptor in progress moves. -/
def State.xferLen (s : State) (r : Nat) : Nat :=
  match (s.rg r).desc with
  | none => 0
  | some x => if writesBuffer (s.ringKind r) then min (s.rg r).src.length x.len else x.len

/-- The address on the unit side at the first uncommitted byte. -/
def State.unitAddr (s : State) (r : Nat) : Nat :=
  match (s.rg r).desc with
  | none => 0
  | some x => (if s.ringKind r = Kind.copy then x.arg0 else x.addr) + (s.rg r).off

/-- The length of the next unit: to the end of its 64-byte block, or of the transfer. -/
def State.unitLen (s : State) (r : Nat) : Nat :=
  min (64 - s.unitAddr r % 64) (s.xferLen r - (s.rg r).off)

/-- The pieces the next unit reads and writes. -/
def State.unitReads (s : State) (r : Nat) : List Piece :=
  match (s.rg r).desc with
  | none => []
  | some x =>
    let k := s.ringKind r
    if writesBuffer k || (k == Kind.copy && x.op == 1) then [] else pieces (x.addr + (s.rg r).off) (s.unitLen r)

def State.unitWrites (s : State) (r : Nat) : List Piece :=
  let k := s.ringKind r
  if writesBuffer k || k == Kind.copy then pieces (s.unitAddr r) (s.unitLen r) else []

/-- The bytes of a fill from offset `o`. -/
def fillBytes (pat o n : Nat) : List Nat := (List.range n).map fun k => pat / 2 ^ (8 * ((o + k) % 4)) % 256

/-- The cells an ETH_TX ring may fill: bytes beyond its charged cells wait (R250). -/
def State.txRoom (s : State) (r : Nat) : Bool :=
  s.ringKind r != Kind.ethTx || decide ((s.rg r).tx.length + s.unitLen r ≤ 256 * (s.rg r).txCells)

/-- The transfer has moved its last unit: whether only the writeback is left. The last descriptor of an ETH_TX frame waits
until the frame is queued, and a record buffer until it is closed. -/
def State.xferDone (s : State) (r : Nat) : Bool :=
  let k := s.ringKind r
  decide ((s.rg r).off = s.xferLen r) &&
    (if k = 1 then (s.rg r).desc.any Desc.more else if recBytes k = 0 then true else (s.rg r).close)

/-- A record buffer takes no further record (R270, R401): it completes when its bytes are written. -/
def State.closeBuf (s : State) (r : Nat) : State :=
  if (s.rg r).desc.isSome && !(s.rg r).ready then
    let s := s.putRg r { s.rg r with close := true }
    if s.xferDone r then s.putRg r { s.rg r with ready := true } else s
  else s

/-- Append a record to the buffer in progress; the buffer closes when another would not fit. -/
def State.addRecord (s : State) (r : Nat) (l : List Nat) : State :=
  let g := s.rg r
  let src := g.src ++ l
  let room := g.desc.elim 0 (·.len) - src.length
  s.putRg r { g with src := src, close := decide (room < recBytes (s.ringKind r)) || s.ringKind r == 6 }

/-- The frame an ETH_TX ring has read whole stands at its host port (R241, R244). -/
def State.txQueued (s : State) (r : Nat) : State :=
  let g := s.rg r
  let f : InFrame := ⟨30 + s.ringEnd r / 8, g.tx, s.now, some r, g.launch, g.llPort, false, s.ztm.steps, none⟩
  { s with dvt := { s.dvt with ingress := s.dvt.ingress ++ [f] } }

/-- The update command of a descriptor read whole reaches island UPD (R404, R406); the descriptor waits for its status. -/
def State.updReach (s : State) (r : Nat) (x : Desc) : State :=
  let g := s.rg r
  let c : UpdCmd := ⟨r, x.op, g.src.take 16, g.src.drop 16⟩
  { s.putRg r { g with src := [] } with upd := { s.upd with cmds := s.upd.cmds ++ [c] } }

/-- What follows the write of a unit of `n` bytes of ring r's descriptor `x` (R236): the engine's progress, and the end of the transfer. -/
def State.unitTaken (s : State) (r n : Nat) (x : Desc) (data : List Nat) : State :=
  let k := s.ringKind r
  let g := s.rg r
  let g := { g with off := g.off + n }
  let g := if k = Kind.ethTx then { g with tx := g.tx ++ data }
    else if k = Kind.update then { g with src := g.src ++ data } else g
  let s := s.putRg r g
  if s.drwState ((s.ringOwner r).getD 0) = 3 then s.putRg r { g with desc := none }
  else if k = Kind.update ∧ g.off = x.len then s.updReach r x
  else if s.xferDone r then s.putRg r { g with ready := true }
  else if k = 1 ∧ g.off = x.len then s.txQueued r
  else s

/-- The pieces of the next unit, with whether each is written. -/
def State.unitPieces (s : State) (r : Nat) : List (Bool × Piece) :=
  (s.unitReads r).map (false, ·) ++ (s.unitWrites r).map (true, ·)

/-- Whether ring r has a unit that could commit but for arbitration: it works, and every page of the unit is translated and granted. -/
def State.unitReady (s : State) (r : Nat) : Bool :=
  match s.ringOwner r, (s.rg r).desc with
  | some d, some _ =>
    (s.ringState r == Rst.running || s.ringState r == Rst.stopping) && !(s.rg r).ready && decide (0 < s.unitLen r) && s.txRoom r &&
      (s.unitPieces r).all fun p =>
        match s.granted d (s.ringSecure r) p.1 p.2 with
        | some out => !(out.host && !p.1 && s.outboundCause d != 0)
        | none => false
  | _, _ => false

/-- The claim of a ring at arbitration point 2. -/
def State.ringClaim (s : State) (r : Nat) : Claim := ⟨r, drawerFin ((s.ringOwner r).getD 0), .dma, r⟩

/-- Whether no other ring that has a unit ready goes before ring r at arbitration point 2 (R239). -/
def State.slotWins (s : State) (r : Nat) : Bool :=
  (List.range 256).all fun q =>
    q == r || !s.unitReady q ||
      !(s.ringClaim q).before (s.get F.FAB_ARB_PTR_PTR 2) (s.claimRank 2 (s.ringClaim q)) (s.claimRank 2 (s.ringClaim r)) (s.ringClaim r)

/-- The bytes of the next unit of ring r, `rd` being what it reads. -/
def State.unitData (s : State) (r : Nat) (x : Desc) (rd : List Nat) : List Nat :=
  if writesBuffer (s.ringKind r) then slice (s.rg r).src (s.rg r).off (s.unitLen r)
  else if s.ringKind r = Kind.copy ∧ x.op = 1 then fillBytes x.arg1 (s.rg r).off (s.unitLen r) else rd

/-- The grants that the next unit of drawer d's ring r takes: its slot at DMA issue, and the points on the way to device memory. -/
def State.unitGrants (s : State) (r d : Nat) : State :=
  (s.dmaGrants d (s.ringSecure r) (s.unitPieces r)).arbMove 2 (drawerFin d)

/-- The next unit commits: translated, granted, first at arbitration point 2, and written whole (R236, R239). Nothing happens while a page
is not translated or another ring goes before; a unit that waits for a clock-gated island wakes it. The unit in flight when the drawer
squashes is the descriptor's last (R92). -/
def State.unitCommit (s : State) (r : Nat) (h : HostMem) : State :=
  let st := s.ringState r
  let g := s.rg r
  let n := s.unitLen r
  match s.ringOwner r, g.desc with
  | some d, some x =>
    if !((st == Rst.running || st == Rst.stopping) && !g.ready && decide (0 < n) && s.txRoom r) then s
    else if !s.slotWins r then s
    else
      match s.readPieces d (s.ringSecure r) h (s.unitReads r) with
      | none => s.dmaUngate d (s.ringSecure r) (s.unitPieces r)
      | some rd =>
        match (s.unitGrants r d).writePieces d r (s.ringSecure r) (s.unitWrites r) (s.unitData r x rd) with
        | none => s.dmaUngate d (s.ringSecure r) (s.unitPieces r)
        | some t => t.unitTaken r n x (s.unitData r x rd)
  | _, _ => s

/-! Translation faults (R237) -/

/-- The accesses the ring waits for, in the order they are made: side, write, piece. -/
def State.needs (s : State) (r : Nat) : List (Nat × Bool × Piece) :=
  let g := s.rg r
  match g.desc with
  | none => if s.ringHeld r ≠ 0 then (pieces (s.descAddr r) 32).map fun p => (0, false, p) else []
  | some _ =>
    if g.ready then [(3, true, (s.descAddr r + 16, 16))]
    else if s.unitLen r = 0 then []
    else (s.unitReads r).map (fun p => (1, false, p)) ++ (s.unitWrites r).map fun p => (2, true, p)

/-- The fault of an access at a place, if the checks refuse it now. -/
def State.placeFault (s : State) (d : Nat) (sec wr : Bool) (out : Place) : Option DmaFault :=
  if out.host then none
  else match s.dmaCause d sec wr out.addr with
    | 0 => none
    | c => some ⟨c, 0, 0, s.dmaErr d sec wr out.addr⟩

/-- The fault an access meets when it is walked now. -/
def State.faultOf (s : State) (d : Nat) (sec : Bool) (h : HostMem) (wr : Bool) (va : Nat) : Option DmaFault :=
  match s.located d sec va wr with
  | some out => s.placeFault d sec wr out
  | none =>
    match s.translate d sec h va wr with
    | .fault f => some f
    | .hold _ => none
    | .ok out _ => s.placeFault d sec wr out

/-- The first access of the ring's needs that faults now. -/
def State.firstFault (s : State) (r d : Nat) (h : HostMem) : Option ((Nat × Bool × Piece) × DmaFault) :=
  (s.needs r).findSome? fun n => (s.faultOf d (s.ringSecure r) h n.2.1 n.2.2.1).map fun f => (n, f)

/-- What IOM_RFLT_INFO.CAUSE shows of a fault, and the state that has shown it: a free value for a check without a code (log entry 109). -/
def State.faultCode (s : State) (cause : Nat) : Nat × State := if cause ≤ 9 then (cause, s) else (s.free.1 % 16, s.free.2)

/-- The side of a fault shows in RING_FAULT and IOM_RFLT (R237). -/
def State.faultShown (s : State) (r : Nat) (n : Nat × Bool × Piece) (f : DmaFault) : State :=
  let g := s.rg r
  let off := if n.1 = 0 then 0 else if n.1 = 3 then s.xferLen r else g.off
  let va := n.2.2.1
  let s := (s.putRg r { g with side := n.1, expired := false }).put F.RING_STATE_STATE Rst.faulted r
  let s := (s.put F.RING_FAULT_DESC (s.ringHead r) r).put F.RING_FAULT_OFF_OFFSET off r
  let c := s.faultCode f.cause
  let s := ((c.2.put F.IOM_RFLT_INFO_CAUSE c.1 r).put F.IOM_RFLT_INFO_STAGE f.stage r).put F.IOM_RFLT_INFO_SIDE n.1 r
  let s := s.put F.IOM_RFLT_INFO_WRITE (b2n n.2.1) r
  let s := (s.put F.IOM_RFLT_ADDR_LO_ADDR va r).put F.IOM_RFLT_ADDR_HI_ADDR (va / 2 ^ 32) r
  let g2 := if f.stage = 2 then f.gpa else 0
  (s.put F.IOM_RFLT_GPA_LO_ADDR g2 r).put F.IOM_RFLT_GPA_HI_ADDR (g2 / 2 ^ 32) r

/-- A fault takes effect (R237). A failed check of R36, the access's own or that of a walk read, is recorded as R37 states, with the
checked output address (log entry 111). -/
def State.faultTaken (s : State) (r d : Nat) (n : Nat × Bool × Piece) (f : DmaFault) : State :=
  let s := s.faultShown r n f
  let s := f.err.elim s fun e => s.aerr e.1 e.2.1 e.2.2.1 e.2.2.2
  let s := (s.faultRecord d 0x10 2 n.2.1 (n.2.2.1 % 2 ^ 40) r 0).ringSignal r
  if f.stage = 2 ∨ (5 ≤ f.cause ∧ f.cause ≤ 8) then
    s.put F.IOM_KEVT_S2FAULT (setBitTo (s.get F.IOM_KEVT_S2FAULT) d true)
  else s

/-! Enables, disables and resume (R84, R85, R238) -/

/-- ERR of an enable (R84); 0 when it passes. -/
def State.enableErr (s : State) (r d : Nat) : Nat :=
  let k := s.ringKind r
  let e := s.ringEnd r
  let sz := s.get F.RING_CFG_SIZE_LOG2 r
  let owned :=
    if k = 1 ∨ k = 2 then decide (e < 56) && s.ownsHostQ d e
    else if k = 3 then decide (e < 16) && s.canOwner e == some d
    else if k = 7 then decide (e < 4)
    else e == 0
  let busy := (List.range 256).any fun q =>
    q != r && s.ringState q != Rst.disabled && s.ringKind q == k &&
      (if k = 5 ∨ k = 6 then s.ringOwner q == some d else s.ringEnd q == e)
  if s.drwState d ≠ 1 then 1
  else if s.ringBase r % 64 ≠ 0 then 2
  else if sz < 3 ∨ 12 < sz then 3
  else if k < 1 ∨ 8 < k ∨ ((k = 7 ∨ k = 8) ∧ d ≠ 0) then 4
  else if !owned then 5
  else if busy then 6
  else 0

/-- A write of ENABLE = 1 to a DISABLED ring (R84). -/
def State.ringEnable (s : State) (r : Nat) : State :=
  if s.ringState r ≠ Rst.disabled then s
  else
    let e := match s.ringOwner r with | some d => s.enableErr r d | none => 1
    let s := s.put F.RING_STATE_ERR e r
    if e = 0 then ((s.putRg r RingSt.idle).put F.RING_STATE_STATE Rst.running r).put F.RING_CTRL_ENABLE 1 r else s

/-- Cells charged to a drawer (R249). -/
def State.charge (s : State) (d n : Nat) : State :=
  s.put F.DVT_CHARGE_CELLS (s.get F.DVT_CHARGE_CELLS d + n) d

/-- Cells given back. -/
def State.uncharge (s : State) (d n : Nat) : State :=
  s.put F.DVT_CHARGE_CELLS (s.get F.DVT_CHARGE_CELLS d - n) d

/-- What controller k holds beside its registers. -/
def State.cn (s : State) (k : Nat) : CanSt := storeGet CanSt.rst s.can k

/-- Replace what controller k holds. -/
def State.putCn (s : State) (k : Nat) (x : CanSt) : State := { s with can := storePut CanSt.rst s.can k x }

/-- No CAN_RX ring takes the frames of controller k: those in its FIFO are dropped and counted in NO_RING (R324). -/
def State.canNoRing (s : State) (k : Nat) : State :=
  (s.putCn k { s.cn k with rx := [] }).bump F.CAN_RXDROP_NO_RING (s.cn k).rx.length k

/-- Update commands of a ring lose it: they end without a descriptor. -/
def State.updOrphan (s : State) (r : Nat) : State :=
  { s with upd := { s.upd with cmds := s.upd.cmds.map fun c => if c.ring = r then { c with ring := 257 } else c } }

/-- Cells charged for a frame that ring r reads are freed. -/
def State.txFree (s : State) (r : Nat) : State :=
  match s.ringOwner r with
  | some d => s.uncharge d (s.rg r).txCells
  | none => s

/-- The ring is DISABLED: nothing in progress is kept, and cells charged for a frame being read are freed (R241). -/
def State.ringOff (s : State) (r : Nat) : State :=
  let s := ((((s.txFree r).putRg r RingSt.idle).put F.RING_STATE_STATE Rst.disabled r).put F.RING_CTRL_ENABLE 0 r).updOrphan r
  if s.ringKind r = Kind.canRx then s.canNoRing (s.ringEnd r) else s

/-- RESUME on a FAULTED ring with F2 (R238, R240): after an expired hold the frame starts again with the next one. A drawer that resets
lets no further unit commit. -/
def State.ringResume (s : State) (r : Nat) : State :=
  match s.ringOwner r with
  | some d =>
    if s.ringState r = Rst.faulted ∧ s.feat d 2 ∧ s.drwState d = 1 then
      let g := s.rg r
      let g := if g.side = 0 then { g with desc := none } else g
      let g := if g.expired then { g with off := 0, expired := false } else g
      (s.putRg r g).put F.RING_STATE_STATE Rst.running r
    else s
  | none => s

/-- A write of RING_TAIL (R83): an overrun is ignored and recorded, with SOURCE device and WRITE (log entry 110). -/
def State.tailWrite (s : State) (r v : Nat) : State :=
  if (v + 65536 - s.ringHead r) % 65536 > s.ringSize r then
    match s.ringOwner r with
    | some d => s.faultRecord d 0x12 5 true 0 r 0
    | none => s
  else s.put F.RING_TAIL_INDEX v r

/-- Restart the units of IOM for invalidations (R234): the entries in scope go and DONE is reported. -/
def State.invalScope (s : State) (scope d page : Nat) : State :=
  let keep : TlbE → Bool := fun e =>
    match scope with
    | 0 => false
    | 1 => e.drawer != d
    | 2 => !(e.drawer == d && e.page == page)
    | _ => !(e.drawer == d && e.s1)
  { s with iom := { s.iom with tlb := s.iom.tlb.filter keep } }

/-- GO of IOM_INVAL; ignored while BUSY. -/
def State.invalGo (s : State) (scope d : Nat) : State :=
  if s.is F.IOM_INVAL_STAT_BUSY then s
  else
    let page := s.get F.IOM_INVAL_ADDR_LO_PAGE + s.get F.IOM_INVAL_ADDR_HI_PAGE * 2 ^ 32
    { s with iom := { s.iom with inval := some (scope, d, page) } }.put F.IOM_INVAL_STAT_BUSY 1

/-- The keeper's invalidation completes. -/
def State.invalDone (s : State) : State :=
  match s.iom.inval with
  | none => s
  | some (scope, d, page) =>
    let s := s.invalScope scope d page
    ({ s with iom := { s.iom with inval := none } }.put F.IOM_INVAL_STAT_BUSY 0).put F.IOM_INVAL_STAT_DONE 1

/-- A drawer's own stage-1 invalidation completes. -/
def State.s1InvalDone (s : State) (d : Nat) : State :=
  if s.is F.IOM_S1INVAL_BUSY 0 0 (d + 1) then (s.invalScope 3 d 0).put F.IOM_S1INVAL_BUSY 0 0 0 (d + 1) else s

/-- The DRAM granules assigned to a drawer, leaving granule `g` out (R231). -/
def State.dramGranules (s : State) (d : Nat) (g : Option Nat) : Nat :=
  ((List.range 4096).filter fun k => g != some k && s.is F.IOM_DGRAN_VALID k && s.get F.IOM_DGRAN_OWNER k == d).length

/-- A write of a granule entry (R231, R419): refused writes set REJ. -/
def State.granuleWrite (s : State) (dram : Bool) (g : Nat) (w : Nat) : State :=
  let owner := bitsOf w 3 0
  let valid := bitOf w 4
  let below := if dram then decide (g < s.imgF 9 8 0 2 12 0) else decide (g < s.imgF 9 8 0 0 9 0)
  let held := s.dramGranules owner (some g)
  let had := s.is F.IOM_DGRAN_VALID g && s.get F.IOM_DGRAN_OWNER g == owner
  let tooMany := dram && !had && decide (2 * (held + 1) > s.get F.DRW_G_HOLD_AMOUNT owner 5)
  let retired := !dram && s.unitOut 6 (g / 16)
  if valid && (below || tooMany || retired) then s.put F.IOM_GSTAT_REJ 1
  else if dram then (s.put F.IOM_DGRAN_OWNER owner g).put F.IOM_DGRAN_VALID (b2n valid) g
  else (s.put F.IOM_SGRAN_OWNER owner g).put F.IOM_SGRAN_VALID (b2n valid) g

end Sys2Proof.Machine
end

