-- ==== Sys2Proof/Machine/DvtOps.lean ====
section
/-! DEFINITION. The Dovetail switch (ch. 12): classification, stream filters, forwarding database, admission, transmission
selection, gate lists, credits, capture and the table interface. A frame's bytes are those from the destination address to
the last byte before the FCS; its length counts the FCS (log entry 16). -/

namespace Sys2Proof.Machine

/-! Ports and the SWITCH section (R244, R253) -/

/-- The rate of a port in Mb/s (R244). -/
def portRate (p : Nat) : Nat :=
  if p < 2 then 10000 else if p < 6 then 2500 else if p < 14 then 1000 else if p < 22 then 100
  else if p < 30 then 10 else 14000

def State.portPvid (s : State) (p : Nat) : Nat := bitsOf (at0 (s.sec 11) (2 + 2 * p)) 11 0
def State.portEnabled (s : State) (p : Nat) : Bool := bitOf (at0 (s.sec 11) (2 + 2 * p)) 12
def State.portCut (s : State) (p : Nat) : Bool := decide (p < 30) && bitOf (at0 (s.sec 11) (2 + 2 * p)) 13

/-- LIMIT and RESERVE of queue 8p + c. -/
def State.qLimit (s : State) (q : Nat) : Nat := bitsOf (at0 (s.sec 11) (76 + q)) 15 0
def State.qReserve (s : State) (q : Nat) : Nat := bitsOf (at0 (s.sec 11) (76 + q)) 31 16

/-- The VLAN record of a VID. -/
def State.vlanIdx (s : State) (vid : Nat) : Option Nat :=
  (List.range (bitsOf (at0 (s.sec 11) 0) 12 0)).find? fun i => bitsOf (at0 (s.sec 11) (372 + 4 * i)) 11 0 == vid

/-- Whether port p is in MEMBER of a VLAN record, or in its UNTAGGED mask. -/
def State.vlanMember (s : State) (i p : Nat) : Bool :=
  let w := fun k => at0 (s.sec 11) (372 + 4 * i + k)
  bitOf (bitsOf (w 0) 31 16 + w 1 * 65536) p
def State.vlanUntagged (s : State) (i p : Nat) : Bool :=
  let w := fun k => at0 (s.sec 11) (372 + 4 * i + k)
  bitOf (w 2 + bitsOf (w 3) 15 0 * 2 ^ 32) p

/-! Drops (R271) -/

/-- Drop a frame at its ingress port with reason 1 to 6. -/
def State.dropIn (s : State) (p r : Nat) : State :=
  (s.bump F.DVT_DROP_COUNT 1 (r - 1)).bump F.DVT_PDROP_COUNT 1 p

/-- Drop a copy for queue q with reason 7 to 13; HOST_FAULT and RESET count in RING_DROPS too. -/
def State.dropQ (s : State) (q r : Nat) : State :=
  let s := (s.bump F.DVT_DROP_COUNT 1 (r - 1)).bump F.DVT_QDROP_DROPS 1 q
  if r = 12 ∨ r = 13 then
    match s.ringOn Kind.ethRx (q - 240) with
    | some k => s.bump F.RING_DROPS_COUNT 1 k
    | none => s
  else s

/-! Occupancy, charges and release (R246, R247, R249) -/

def State.occ (s : State) (q : Nat) : Nat := s.get F.DVT_QOCC_OCC q

/-- Change a queue's occupancy, raising PEAK. -/
def State.putOcc (s : State) (q n : Nat) : State :=
  let s := s.put F.DVT_QOCC_OCC n q
  s.put F.DVT_QOCC_PEAK (max n (s.get F.DVT_QOCC_PEAK q)) q

/-- The shared use over all queues, and the shared capacity (R247). -/
def State.sharedUse (s : State) : Nat := sumList ((List.range 296).map fun q => s.occ q - s.qReserve q)
def State.sharedCap (s : State) : Nat := 32768 - sumList ((List.range 296).map s.qReserve)

/-- Physical cells in use: frames, and frames being read by ETH_TX rings. -/
def State.bufTotal (s : State) : Nat :=
  sumList (s.dvt.frames.map fun p => p.2.cells) + sumList (s.ring.map fun p => p.2.txCells)

/-- The drawer that owns the host queue of switch queue q. -/
def State.queueDrawer (s : State) (q : Nat) : Option Nat := if q < 240 then none else s.hostQOwner (q - 240)

def State.queueOf (s : State) (q : Nat) : List QCopy := storeGet [] s.dvt.queue q

def State.putQueue (s : State) (q : Nat) (l : List QCopy) : State :=
  { s with dvt := { s.dvt with queue := storePut [] s.dvt.queue q l } }

/-- What a port, or a host queue (key 64 + queue), is sending. -/
def State.sendingAt (s : State) (k : Nat) : Option QCopy := storeGet none s.dvt.sending k

def State.putSending (s : State) (k : Nat) (x : Option QCopy) : State :=
  { s with dvt := { s.dvt with sending := storePut none s.dvt.sending k x } }

def State.suspendedAt (s : State) (p : Nat) : Option QCopy := storeGet none s.dvt.suspended p

def State.putSuspended (s : State) (p : Nat) (x : Option QCopy) : State :=
  { s with dvt := { s.dvt with suspended := storePut none s.dvt.suspended p x } }

/-- One copy of a frame is gone; with the last, the frame's ETH_TX charge ends. -/
def State.frameRelease (s : State) (fid : Nat) : State :=
  let none_ : FrameRec := ⟨0, 0, none⟩
  let f := storeGet none_ s.dvt.frames fid
  if f.refs ≤ 1 then
    let s := { s with dvt := { s.dvt with frames := storeErase s.dvt.frames fid } }
    match f.txDrawer with
    | some d => s.uncharge d f.cells
    | none => s
  else { s with dvt := { s.dvt with frames := storePut none_ s.dvt.frames fid { f with refs := f.refs - 1 } } }

/-- Release the cells of a copy of queue q (R246). -/
def State.release_ (s : State) (q : Nat) (x : QCopy) : State :=
  let s := s.putOcc q (s.occ q - x.cells)
  let s := match x.drawer with
    | some d => s.uncharge d x.cells
    | none => s
  s.frameRelease x.fid

/-- Whether the ETH_RX ring of a host queue has stopped for a drawer reset (R92): its drawer squashes, or drains with no frame in delivery. -/
def State.rxResets (s : State) (r : Nat) : Bool :=
  match s.ringOwner r with
  | some d => s.drwState d == 3 || (s.drwState d == 2 && (s.sendingAt (64 + s.ringEnd r)).isNone)
  | none => false

/-- Why a copy for queue q is not taken now: PORT_DOWN, NO_RING, HOST_FAULT, RESET; 0 when it is (R251). -/
def State.portRefuses (s : State) (q : Nat) : Nat :=
  let p := q / 8
  if p < 30 then (if s.portUp p && !s.unitOut 3 p then 0 else 10)
  else
    match s.ringOn Kind.ethRx (q - 240) with
    | none => 11
    | some r =>
      if s.rxResets r then 13
      else if s.ringState r = Rst.stopping then 11
      else if s.ringState r = Rst.faulted then
        if (s.ringOwner r).any (fun d => s.feat d 3) && !(s.rg r).expired then 0 else 12
      else 0

/-! Frames (R253, R254, R262) -/

def dstOf (l : List Nat) : Nat := beNat (l.take 6)
def srcOf (l : List Nat) : Nat := beNat (slice l 6 6)

/-- Whether a frame carries a VLAN tag (TPID 0x8100). -/
def isTagged (l : List Nat) : Bool := slice l 12 2 == [0x81, 0x00]

/-- The TCI of a tagged frame. -/
def tciOf (l : List Nat) : Nat := beNat (slice l 14 2)

/-- A frame without its VLAN tag, and with one. -/
def untag (l : List Nat) : List Nat := if isTagged l then l.take 12 ++ l.drop 16 else l
def withTag (l : List Nat) (prio vid : Nat) : List Nat :=
  l.take 12 ++ [0x81, 0x00] ++ beBytes 2 (prio * 8192 + vid) ++ l.drop 12

/-- Link-local destinations (R254). -/
def isLinkLocal (l : List Nat) : Bool := dstOf l / 16 == 0x0180C200000

/-- Whether an untagged frame carries an R-tag, its sequence number, and the frame without it or with one (R262). -/
def hasRtag (l : List Nat) : Bool := slice l 12 2 == [0xF1, 0xC1]
def rtagSeq (l : List Nat) : Nat := beNat (slice l 16 2)
def dropRtag (l : List Nat) : List Nat := l.take 12 ++ l.drop 18
def addRtag (l : List Nat) (seq : Nat) : List Nat := l.take 12 ++ [0xF1, 0xC1, 0, 0] ++ beBytes 2 seq ++ l.drop 12

/-- The class of a priority (R259). -/
def classOf (p : Nat) : Nat := [1, 0, 2, 3, 4, 5, 6, 7].getD p 0

/-- Cells of a frame of `n` bytes without the FCS (R245). -/
def cellsOf (n : Nat) : Nat := (n + 4 + 255) / 256

/-! Tables (R272) -/

abbrev Tbl.sid : Nat := 1
abbrev Tbl.filter : Nat := 2
abbrev Tbl.gate : Nat := 3
abbrev Tbl.meter : Nat := 4
abbrev Tbl.qbv : Nat := 5
abbrev Tbl.gen : Nat := 6
abbrev Tbl.rec_ : Nat := 7

/-- Entries and words of a table. -/
def tblEntries (t : Nat) : Nat := [0, 256, 256, 128, 128, 22, 64, 64].getD t 0
def tblWords (t : Nat) : Nat := [0, 3, 4, 20, 6, 68, 1, 6].getD t 0

/-- A committed entry. -/
def State.tbl (s : State) (t i : Nat) : List Nat := storeGet [] s.dvt.tables (256 * t + i)

def State.putTbl (s : State) (t i : Nat) (l : List Nat) : State :=
  { s with dvt := { s.dvt with tables := storePut [] s.dvt.tables (256 * t + i) l } }

def State.tblF (s : State) (t i w hi lo : Nat) : Nat := bitsOf (at0 (s.tbl t i) w) hi lo

/-- A list with entry `i` replaced, extended with zeros as needed. -/
def setAt (l : List Nat) (i v : Nat) : List Nat := (padTo l (i + 1)).set i v

/-- Raise a wrapping counter word of an entry. -/
def State.tblCount (s : State) (t i w : Nat) : State :=
  s.putTbl t i (setAt (s.tbl t i) w ((at0 (s.tbl t i) w + 1) % 2 ^ 32))

/-! Gate lists (R264, R265) -/

/-- The key of a list: table GATE or QBV and index. -/
def listKey (t i : Nat) : Nat := 256 * t + i

/-- The list in force, if any. -/
def State.listAt (s : State) (t i : Nat) : Option ListSt := storeGet none s.dvt.lists (listKey t i)

def State.putList (s : State) (t i : Nat) (x : Option ListSt) : State :=
  { s with dvt := { s.dvt with lists := storePut none s.dvt.lists (listKey t i) x } }

/-- The number of entries of a list. -/
def listLen (t : Nat) (w : List Nat) : Nat := if t = Tbl.gate then bitsOf (at0 w 0) 5 1 else bitsOf (at0 w 0) 7 1

/-- The current entry word of a list in force; none while no list is. -/
def State.entryWord (s : State) (t i : Nat) : Option Nat :=
  match s.listAt t i with
  | some x => if bitOf (at0 x.words 0) 0 then some (at0 x.words (4 + x.idx)) else none
  | none => none

/-- Whether the gate of class c of port p is open (R263); an absent or stopped list holds every gate open. -/
def State.gateOpen (s : State) (p c : Nat) : Bool := (s.entryWord Tbl.qbv p).all fun w => bitOf w c

/-- Time until the gate of class c closes, in ns, walking at most `fuel` entries from entry `e`, which has `own` ns of its interval left in
a cycle that ends in `rem` ns; none when it does not close. The last entry holds until the cycle ends, and the end cuts the list (R264). -/
def closeIn (w : List Nat) (len c : Nat) : Nat → Nat → Nat → Nat → Nat → Option Nat
  | 0, _, _, _, _ => none
  | fuel + 1, e, own, rem, acc =>
    let next := fun e => bitsOf (at0 w (4 + e)) 31 8 * 8
    if !bitOf (at0 w (4 + e)) c then some acc
    else if e + 1 < len ∧ own < rem then closeIn w len c fuel (e + 1) (next (e + 1)) (rem - own) (acc + own)
    else closeIn w len c fuel 0 (next 0) (at0 w 1) (acc + rem)

/-- The time left before the gate of class c of port p next closes. -/
def State.gateLeft (s : State) (p c : Nat) : Option Nat :=
  match s.listAt Tbl.qbv p with
  | none => none
  | some x =>
    if !bitOf (at0 x.words 0) 0 then none
    else
      let len := max 1 (listLen Tbl.qbv x.words)
      let own := bitsOf (at0 x.words (4 + x.idx)) 31 8 * 8 - (s.now.ns + 2 ^ 32 - x.since) % 2 ^ 32
      let rem := at0 x.words 1 - (s.now.ns + 2 ^ 32 - x.cycle) % 2 ^ 32
      closeIn x.words len c (2 * len + 1) x.idx own rem 0

/-! Credits (R266) -/

def State.creditOf (s : State) (q : Nat) : CreditSt := storeGet ⟨0, 0⟩ s.dvt.credit q

def State.putCredit (s : State) (q : Nat) (x : CreditSt) : State :=
  { s with dvt := { s.dvt with credit := storePut ⟨0, 0⟩ s.dvt.credit q x } }

/-- Whether class q % 8 of port q / 8 is shaped. -/
def State.cbsOn (s : State) (q : Nat) : Bool := decide (q < 176) && s.get F.DVT_QCBS_IDLE_KBPS q != 0

/-- Whether class c of port p has nothing left to send: no frame waits, and none is suspended by a preemption. -/
def State.classEmpty (s : State) (p c : Nat) : Bool :=
  (s.queueOf (8 * p + c)).isEmpty && !(s.suspendedAt p).any fun x => x.cls == c

/-- The credits of port p brought up to date. `done` names the class whose frame has just left: its sendSlope has run for the time passed,
and for `dur` ns at least; a class that is sending is settled then. A closed gate keeps the credit of its class, and an empty queue holds no
positive credit. One kb/s is one bit in 10⁶ ns. -/
def State.creditRun (s : State) (p dur : Nat) (done : Option Nat) : State :=
  s.each (List.range 8) fun s c =>
    let q := 8 * p + c
    if !s.cbsOn q || (done != some c && (s.sendingAt p).any fun x => x.cls == c) then s
    else
      let x := s.creditOf q
      let dt : Nat := s.ztm.raw - x.last
      let idle : Rat := s.get F.DVT_QCBS_IDLE_KBPS q
      let b :=
        if done = some c then x.bits + (idle - portRate p * 1000) * (max dur dt) / 1000000
        else if !s.gateOpen p c then x.bits
        else x.bits + idle * dt / 1000000
      s.putCredit q ⟨if s.classEmpty p c && (done == some c || s.gateOpen p c) then min 0 b else b, s.ztm.raw⟩

/-- A class of a port whose queue has emptied loses a positive credit. -/
def State.creditEmpty (s : State) (q : Nat) : State :=
  if s.cbsOn q && s.classEmpty (q / 8) (q % 8) then s.putCredit q { s.creditOf q with bits := min 0 (s.creditOf q).bits } else s

/-- Every credit of a port starts again at 0 (link up). -/
def State.creditReset (s : State) (p : Nat) : State :=
  s.each (List.range 8) fun s c => s.putCredit (8 * p + c) ⟨0, s.ztm.raw⟩

/-- Before the gates of a list change: the credits of a Qbv list's port are brought up to date under the old gates (R264). -/
def State.gateSettle (s : State) (t i : Nat) : State := if t = Tbl.qbv then s.creditRun i 0 none else s

/-! Cycles of the lists (R264, R265) -/

/-- A cycle starts (R264): a pending list may take effect. -/
def State.cycleStart (s : State) (t i : Nat) (newList : Bool) : State :=
  let pend := storeGet [] s.dvt.pendingLists (listKey t i)
  let s := s.gateSettle t i
  if newList then
    if pend.isEmpty then s
    else
      let s := { s with dvt := { s.dvt with pendingLists := storeErase s.dvt.pendingLists (listKey t i) } }
      s.putList t i (some ⟨pend, 0, s.now.ns, s.now.ns⟩)
  else
    match s.listAt t i with
    | some x => s.putList t i (some { x with idx := 0, since := s.now.ns, cycle := s.now.ns })
    | none => s

/-- An entry's interval ends: the next takes effect; the last holds until the cycle ends. -/
def State.entryEnd (s : State) (t i : Nat) : State :=
  match s.listAt t i with
  | some x =>
    if x.idx + 1 < listLen t x.words then (s.gateSettle t i).putList t i (some { x with idx := x.idx + 1, since := s.now.ns }) else s
  | none => s

/-- EPOCH_STOP of a list. -/
def State.stopMark (s : State) (t i : Nat) : State :=
  s.putTbl t i (setAt (s.tbl t i) 0 (setBitTo (at0 (s.tbl t i) 0) 31 true))

/-- The epoch changed (R265): lists of another epoch stop with all gates open, pending ones too, and EPOCH_STOP is set. -/
def State.epochStop (s : State) : State :=
  let ep := s.now.ep
  let old := fun (w : List Nat) => bitsOf (at0 w 3) 15 0 != ep
  let s := s.each (s.dvt.lists.map (·.1)) fun s k =>
    if (s.listAt (k / 256) (k % 256)).any fun x => old x.words then
      ((s.gateSettle (k / 256) (k % 256)).putList (k / 256) (k % 256) none).stopMark (k / 256) (k % 256)
    else s
  s.each (s.dvt.pendingLists.map (·.1)) fun s k =>
    if old (storeGet [] s.dvt.pendingLists k) then
      { s with dvt := { s.dvt with pendingLists := storeErase s.dvt.pendingLists k } }.stopMark (k / 256) (k % 256)
    else s

/-! Admission (R247) -/

/-- Admit a copy to queue q, or drop it (R247). -/
def State.admitCopy (s : State) (q : Nat) (x : QCopy) : State :=
  let n := x.cells
  let o := s.occ q
  let res := s.qReserve q
  let d := s.queueDrawer q
  let no := s.portRefuses q
  if no ≠ 0 then s.dropQ q no
  else if o + n > s.qLimit q then s.dropQ q 7
  else if s.sharedUse + ((o + n - res) - (o - res)) > s.sharedCap then s.dropQ q 8
  else if d.any fun d => decide (s.get F.DVT_CHARGE_CELLS d + n > s.get F.DRW_G_HOLD_AMOUNT d 2) then s.dropQ q 9
  else
    let s := if q < 176 then s.creditRun (q / 8) 0 none else s
    let s := (s.putOcc q (o + n)).sample 7 q (o + n)
    let s := match d with
      | some d => s.charge d n
      | none => s
    let none_ : FrameRec := ⟨0, 0, none⟩
    let f := storeGet none_ s.dvt.frames x.fid
    let s := { s with dvt := { s.dvt with frames := storePut none_ s.dvt.frames x.fid { f with refs := f.refs + 1 } } }
    s.putQueue q (s.queueOf q ++ [{ x with drawer := d, depth := o + n }])

/-- A write of IDLE_KBPS (R266): refused with REJ on P22 to P36, or above 75 % of the port rate. -/
def State.idleSlope (s : State) (q v : Nat) : State :=
  let p := q / 8
  let others := sumList (((List.range 8).filter (· != q % 8)).map fun c => s.get F.DVT_QCBS_IDLE_KBPS (8 * p + c))
  if 22 ≤ p ∨ (others + v) * 100 > portRate p * 1000 * 75 then s.put F.DVT_TBL_STAT_REJ 1
  else (s.put F.DVT_QCBS_IDLE_KBPS v q).putCredit q ⟨0, s.ztm.raw⟩

/-! Transmission selection (R263, R279) -/

/-- Whether preemption is active on a port (R277). -/
def State.preActive (s : State) (p : Nat) : Bool :=
  decide (p < 22) && s.portUp p && s.is F.EPT_PMAC_PRE_EN p &&
    (s.get F.EPT_PSTAT_VERIFY p == 3 || s.get F.EPT_PSTAT_VERIFY p == 0)

/-- Whether class c of port p is express. -/
def State.express (s : State) (p c : Nat) : Bool := bitOf (s.get F.EPT_PMAC_EXPRESS p) c

/-- The minimum non-final fragment, FCS excluded (R277). -/
def State.minFrag (s : State) (p : Nat) : Nat := 64 * (1 + s.get F.EPT_PMAC_ADD_FRAG p) - 4

/-- Whether `n` bytes and the overhead fit before the gate of class c closes (R263). -/
def State.fits (s : State) (p c n : Nat) : Bool :=
  match s.gateLeft p c with
  | none => true
  | some t => decide ((n + 20) * 8 * 1000 ≤ t * portRate p)

/-- Gate, fit and credit of class c of port p for a frame of `n` bytes (R263, R279). -/
def State.classFree (s : State) (p c n : Nat) : Bool :=
  let need := if s.preActive p && !s.express p c then min n (s.minFrag p) else n
  if p < 22 then
    s.gateOpen p c && s.fits p c need && (!s.cbsOn (8 * p + c) || decide ((s.creditOf (8 * p + c)).bits ≥ 0))
  else true

/-- A launch time that counts as passed (R300). -/
def launchPassed (now l : Nat) : Bool :=
  let x := (now + 2 ^ 32 - l % 2 ^ 32) % 2 ^ 32
  decide (1 ≤ x) && decide (x ≤ 2 ^ 31 - 1)

/-- The ETH_TX descriptor of ring r ends with a RESULT (R88): only its writeback is left. -/
def State.txResult (s : State) (r res : Nat) : State :=
  let g := s.rg r
  if g.desc.isSome && s.ringKind r == Kind.ethTx then
    s.putRg r { g with result := res, ready := true, launch := none }
  else s

/-- Frames at the head of a queue whose launch is of another epoch, or has passed, are dropped (R88, R297, R300). -/
def State.headCheck (s : State) (q : Nat) : Nat → State
  | 0 => s
  | fuel + 1 =>
    match s.queueOf q with
    | [] => s
    | x :: rest =>
      match x.launch with
      | none => s
      | some l =>
        if x.due then s
        else
          let res := if l.ep ≠ s.now.ep then 4 else if launchPassed s.now.ns l.ns then 2 else 0
          if res = 0 then s
          else
            let s := ((s.putQueue q rest).release_ q x).creditEmpty q
            let s := match x.ring with
              | some r => s.txResult r res
              | none => s
            s.headCheck q fuel

/-- The launch time of the frame at the head of a queue is reached (R300): its ring's descriptor completes. -/
def State.launchDue (s : State) (q : Nat) : State :=
  let s := s.headCheck q (s.queueOf q).length
  match s.queueOf q with
  | [] => s
  | x :: rest =>
    if x.launch.isSome && !x.due then
      let s := s.putQueue q ({ x with due := true } :: rest)
      match x.ring with
      | some r => s.txResult r 0
      | none => s
    else s

/-- The head frame of a queue that may leave now: a launch waits for its time. -/
def State.headReady (s : State) (q : Nat) : Option QCopy :=
  match s.queueOf q with
  | [] => none
  | x :: _ => if x.launch.isSome && !x.due then none else some x

/-- The classes of port p from 7 down that may send, among those `f` allows. -/
def State.pickClass (s : State) (p : Nat) (f : Nat → Bool) : Option Nat :=
  [7, 6, 5, 4, 3, 2, 1, 0].find? fun c =>
    f c && (s.headReady (8 * p + c)).any fun x => s.classFree p c (x.data.length + 4)

/-! Forwarding database (R255 to R258) -/

/-- The bucket of a key. -/
def fdbBucket (mac vid : Nat) : Nat := crc32 (beBytes 6 mac ++ beBytes 2 vid) % 4096

def State.bucket (s : State) (b : Nat) : List FdbE := storeGet [] s.dvt.fdb b

def State.putBucket (s : State) (b : Nat) (l : List FdbE) : State :=
  { s with dvt := { s.dvt with fdb := storePut [] s.dvt.fdb b l } }

def FdbE.isKey (e : FdbE) (mac vid : Nat) : Bool := e.mac == mac && e.vid == vid

/-- The entry of a key. -/
def State.fdbFind (s : State) (mac vid : Nat) : Option FdbE := (s.bucket (fdbBucket mac vid)).find? (·.isKey mac vid)

/-- Source learning (R256). -/
def State.learn (s : State) (p mac vid : Nat) : State :=
  if mac / 2 ^ 40 % 2 = 1 ∨ !s.is F.DVT_PORT_LEARN p then s
  else
    let b := fdbBucket mac vid
    let l := s.bucket b
    match l.find? (·.isKey mac vid) with
    | some e =>
      if e.static then s
      else
        let moved := e.dest != 2 ^ p
        let s := s.putBucket b (l.map fun x => if x.isKey mac vid then { x with dest := 2 ^ p, age := 0 } else x)
        if moved then s.bump F.DVT_FDB_EVT_MOVES 1 else s
    | none =>
      if l.length < 4 then s.putBucket b (l ++ [⟨mac, vid, 2 ^ p, false, 0⟩])
      else s.bump F.DVT_FDB_EVT_LEARN_FULL 1

/-- One aging scan: entries whose age would reach 5 go (R256). -/
def State.ageScan (s : State) : State :=
  s.each (s.dvt.fdb.map (·.1)) fun s b =>
    let l := (s.bucket b).filter fun e => e.static || decide (e.age < 4)
    s.putBucket b (l.map fun e => if e.static then e else { e with age := e.age + 1 })

/-- The key in DVT_FDB_MAC. -/
def State.fdbKey (s : State) : Nat × Nat :=
  (s.get F.DVT_FDB_MAC_LO_MAC + bitsOf (s.get F.DVT_FDB_MAC_HI_MAC_VID) 15 0 * 2 ^ 32,
    bitsOf (s.get F.DVT_FDB_MAC_HI_MAC_VID) 27 16)

/-- Dynamic entries selected by `p` are removed. -/
def State.fdbFlush (s : State) (p : FdbE → Bool) : State :=
  s.each (s.dvt.fdb.map (·.1)) fun s b => s.putBucket b ((s.bucket b).filter fun e => e.static || !p e)

/-- An operation of DVT_FDB_CTRL (R257): it acts at once, BUSY stands until it is reported. -/
def State.fdbStart (s : State) (op : Nat) : State :=
  if s.is F.DVT_FDB_STAT_BUSY ∨ op = 0 ∨ 5 < op then s
  else
    let (mac, vid) := s.fdbKey
    let b := fdbBucket mac vid
    let l := s.bucket b
    let hit := l.find? (·.isKey mac vid)
    let dest := s.get F.DVT_FDB_DEST_LO_DEST + s.get F.DVT_FDB_DEST_HI_DEST_HI * 2 ^ 32
    let (s, res, dyn) : State × Nat × Nat :=
      match op with
      | 1 => match hit with
        | some e => ((s.put F.DVT_FDB_DEST_LO_DEST e.dest).put F.DVT_FDB_DEST_HI_DEST_HI (e.dest / 2 ^ 32), 1, b2n !e.static)
        | none => (s, 2, 0)
      | 2 =>
        if dest = 0 ∨ vid = 0 ∨ vid = 4095 then (s, 4, 0)
        else if hit.isSome then
          (s.putBucket b (l.map fun x => if x.isKey mac vid then ⟨mac, vid, dest, true, 0⟩ else x), 1, 0)
        else if l.length < 4 then (s.putBucket b (l ++ [⟨mac, vid, dest, true, 0⟩]), 1, 0)
        else (s, 3, 0)
      | 3 => if hit.isSome then (s.putBucket b (l.filter fun x => !x.isKey mac vid), 1, 0) else (s, 2, 0)
      | 4 => (s.fdbFlush fun e => e.dest == 2 ^ (s.get F.DVT_FDB_DEST_LO_DEST % 64), 1, 0)
      | _ => (s.fdbFlush fun _ => true, 1, 0)
    { s with dvt := { s.dvt with fdbOp := 2 * res + dyn } }.put F.DVT_FDB_STAT_BUSY 1

/-- The operation in progress is reported. -/
def State.fdbDone (s : State) : State :=
  if s.is F.DVT_FDB_STAT_BUSY then
    ((s.put F.DVT_FDB_STAT_RESULT (s.dvt.fdbOp / 2)).put F.DVT_FDB_STAT_DYNAMIC (s.dvt.fdbOp % 2)).put F.DVT_FDB_STAT_BUSY 0
  else s

/-- Entries of the database by kind. -/
def State.fdbCount (s : State) (static : Bool) : Nat :=
  sumList (s.dvt.fdb.map fun p => (p.2.filter fun e => e.static == static).length)

/-! Stream filters, meters and recovery (R260 to R262) -/

/-- The handle of a frame: the first valid identification entry that matches. -/
def State.handleOf (s : State) (mac vid : Nat) : Option Nat :=
  ((List.range 256).find? fun i =>
    s.tblF Tbl.sid i 1 31 31 == 1 && s.tblF Tbl.sid i 0 31 0 + s.tblF Tbl.sid i 1 15 0 * 2 ^ 32 == mac &&
      (s.tblF Tbl.sid i 1 30 30 == 1 || s.tblF Tbl.sid i 1 27 16 == vid)).map fun i => s.tblF Tbl.sid i 2 7 0

/-- A meter's credits after `dt` ns at rates `cir` and `eir` kb/s, and a frame of `n` bytes judged (R261): whether it is red, and the
committed and excess credit after it. Rates in kb/s are bits per 10⁶ ns. -/
def meterJudge (x : MeterSt) (dt cir cbs eir ebs n : Nat) : Bool × Rat × Rat :=
  let c : Rat := min (8 * cbs) (x.c + cir * dt / 1000000)
  let e : Rat := min (8 * ebs) (x.e + eir * dt / 1000000)
  let b : Rat := 8 * n
  if b ≤ c then (false, c - b, e) else if b ≤ e then (false, c, e - b) else (true, c, e)

/-- A meter judges a frame of `n` bytes: true when it is red (R261). -/
def State.meterRed (s : State) (m n : Nat) : Bool × State :=
  if s.tblF Tbl.meter m 4 0 0 = 0 then (false, s)
  else
    let x := storeGet ⟨0, 0, 0⟩ s.dvt.meters m
    let f := fun w => s.tblF Tbl.meter m w 31 0
    let r := meterJudge x (s.ztm.raw - x.last) (f 0) (f 1) (f 2) (f 3) n
    let s := { s with dvt := { s.dvt with meters := storePut ⟨0, 0, 0⟩ s.dvt.meters m ⟨r.2.1, r.2.2, s.ztm.raw⟩ } }
    (r.1, if r.1 then s.tblCount Tbl.meter m 5 else s)

/-- A recovery entry that takes any number next. -/
def RecovSt.fresh : RecovSt := ⟨true, 0, []⟩

/-- Vector recovery (R262, 802.1CB): whether the number passes, and the entry after it. -/
def recover (h : Nat) (x : RecovSt) (seq : Nat) : Bool × RecovSt :=
  if x.any then (true, ⟨false, seq, true :: List.replicate (h - 1) false⟩)
  else
    let d := (seq + 65536 - x.seq) % 65536
    if d = 0 then (false, x)
    else if d < 32768 then
      if d ≥ h then (false, x)
      else (true, ⟨false, seq, (true :: (List.replicate (d - 1) false ++ x.hist)).take h⟩)
    else
      let back := 65536 - d
      if back ≥ h then (false, x)
      else if x.hist.getD back false then (false, x)
      else (true, { x with hist := x.hist.set back true })

/-- The reset timeout of a recovery entry (R262): the next number is taken whatever it is. -/
def State.recovReset (s : State) (i : Nat) : State :=
  { s with dvt := { s.dvt with recov := storePut RecovSt.fresh s.dvt.recov i RecovSt.fresh } }.tblCount Tbl.rec_ i 5

/-- Whether a frame is longer than the MAX_SDU of its handle (R260). -/
def State.overSdu (s : State) (hd n : Nat) : Bool :=
  let sdu := s.tblF Tbl.filter hd 0 15 0
  sdu != 0 && decide (sdu < n)

/-- The word of the stream gate of a handle that acts, if any (R261): GATE_EN, and a list in force with ENABLE. -/
def State.streamGate (s : State) (hd : Nat) : Option Nat :=
  if s.tblF Tbl.filter hd 1 7 7 = 1 then s.entryWord Tbl.gate (s.tblF Tbl.filter hd 1 6 0) else none

/-- The class of a frame of a handle: the gate's IPV, or its own (R261). -/
def State.streamClass (s : State) (hd cls : Nat) : Nat :=
  match s.streamGate hd with
  | some w => if bitOf w 4 then bitsOf w 3 1 else cls
  | none => cls

/-- A frame over MAX_SDU blocks its handle, when BLOCK_OVERSIZE is set (R260). -/
def State.blockOver (s : State) (hd : Nat) : State :=
  if s.tblF Tbl.filter hd 0 16 16 = 1 then
    s.putTbl Tbl.filter hd (setAt (s.tbl Tbl.filter hd) 0 (setBitTo (at0 (s.tbl Tbl.filter hd) 0) 17 true))
  else s

/-- What step 4 says of a frame: the drop reason (0 passes), the class, the state. A frame over MAX_SDU that leaves by cut-through is
not dropped (R268). -/
def State.streamCheck (s : State) (hd cls n : Nat) (cut : Bool) : Nat × Nat × State :=
  let s := s.tblCount Tbl.filter hd 2
  let f := fun w hi lo => s.tblF Tbl.filter hd w hi lo
  if f 0 17 17 = 1 then (3, cls, s.tblCount Tbl.filter hd 3)
  else if s.overSdu hd n && !cut then (3, cls, (s.blockOver hd).tblCount Tbl.filter hd 3)
  else
    let s := if s.overSdu hd n then s.blockOver hd else s
    if (s.streamGate hd).any fun w => !bitOf w 0 then (4, cls, s.tblCount Tbl.filter hd 3)
    else
      let cls := s.streamClass hd cls
      if f 1 15 15 = 1 then
        let m := f 1 14 8
        let r := s.meterRed m n
        if r.1 then (5, cls, r.2.tblCount Tbl.filter hd 3) else (0, cls, r.2)
      else (0, cls, s)

/-- Sequence recovery entry `ri` on a frame (R262): none when it is a duplicate; else the frame, whether its tag was taken off, the
state. -/
def State.frerRecover (s : State) (ri : Nat) (l : List Nat) : Option (List Nat) × Bool × State :=
  if hasRtag l then
    let r := recover (s.tblF Tbl.rec_ ri 0 6 1) (storeGet RecovSt.fresh s.dvt.recov ri) (rtagSeq l)
    let s := { s with dvt := { s.dvt with recov := storePut RecovSt.fresh s.dvt.recov ri r.2 } }
    if r.1 then
      let strip := s.tblF Tbl.rec_ ri 0 7 7 == 1
      (some (if strip then dropRtag l else l), strip, s.tblCount Tbl.rec_ ri 2)
    else (none, false, s.tblCount Tbl.rec_ ri 3)
  else (some l, false, s.tblCount Tbl.rec_ ri 4)

/-- Sequence generation entry `gi` puts an R-TAG with its next number on a frame (R262). -/
def State.frerSplit (s : State) (gi : Nat) (l : List Nat) : Option (List Nat) × Bool × State :=
  let seq := s.tblF Tbl.gen gi 0 15 0
  (some (addRtag l seq), true, s.putTbl Tbl.gen gi (setAt (s.tbl Tbl.gen gi) 0 ((seq + 1) % 65536)))

/-- Step 5 (R262) on an untagged frame: none when it is a duplicate; else the frame, whether it changed, the state. -/
def State.frerCheck (s : State) (hd : Nat) (l : List Nat) : Option (List Nat) × Bool × State :=
  let f := fun w hi lo => s.tblF Tbl.filter hd w hi lo
  let ri := f 1 29 24
  let recOn := f 1 30 30 == 1 && s.tblF Tbl.rec_ ri 0 0 0 == 1
  if recOn then
    let x := s.frerRecover ri l
    match x.1 with
    | none => (none, false, x.2.2)
    | some l1 => if f 1 22 22 = 1 && !hasRtag l1 then x.2.2.frerSplit (f 1 21 16) l1 else (some l1, x.2.1, x.2.2)
  else if f 1 22 22 = 1 && !hasRtag l then s.frerSplit (f 1 21 16) l
  else (some l, false, s)

/-! Capture (R269, R270) -/

/-- The ports a capture point watches. -/
def State.capWatches (s : State) (k p : Nat) : Bool :=
  bitOf (s.get F.DVT_CAP_PORTS_LO_PORTS k + s.get F.DVT_CAP_PORTS_HI_PORTS k * 2 ^ 32) p

/-- The FCS of a frame as it stands on the medium: least significant byte first, inverted when `bad`. -/
def fcsOf (l : List Nat) (bad : Bool) : List Nat := leBytes 4 (if bad then 2 ^ 32 - 1 - crc32 l else crc32 l)

/-- A capture record (R270); `fcs` are the last four bytes of the frame. -/
def capRecord (at_ : Stamp) (p flags vid cls verdict seq depth stream : Nat) (l fcs : List Nat) : List Nat :=
  let n := l.length + 4
  leBytes 4 at_.ns ++ leBytes 2 at_.ep ++ [p, flags] ++ leBytes 2 n ++ leBytes 2 vid ++ [cls, verdict] ++
    leBytes 2 (min n 128) ++ leBytes 4 seq ++ leBytes 4 depth ++ leBytes 4 stream ++ leBytes 4 0 ++
    padTo ((l ++ fcs).take 128) 128

/-- Capture point k sees a frame: every N-th is recorded, or lost when its ring takes none. -/
def State.capSee (s : State) (k : Nat) (mk : Nat → List Nat) : State :=
  let n := s.get F.DVT_CAP_CFG_N k
  if n = 0 then s
  else
    let seen := (storeGet 0 s.dvt.capSeen k + 1) % n
    let s := { s with dvt := { s.dvt with capSeen := storePut 0 s.dvt.capSeen k seen } }
    if seen ≠ 0 then s
    else
      let seq := storeGet 0 s.dvt.capSeq k
      let s := { s with dvt := { s.dvt with capSeq := storePut 0 s.dvt.capSeq k ((seq + 1) % 2 ^ 32) } }
      match s.ringOn Kind.capture k with
      | some r => if s.ringReady r && !(s.rg r).close then s.addRecord r (mk seq) else s.bump F.DVT_CAP_LOST_LOST 1 k
      | none => s.bump F.DVT_CAP_LOST_LOST 1 k

/-- STREAM of a capture record. -/
def streamWord (h : Option Nat) : Nat := h.elim 0 (· + 256)

/-- What the steps made of a frame: its verdict (0 when it is admitted, 1 to 13 the drop reason; 255 for a frame that only its MAC
counts), VID, class, handle, and whether it leaves by cut-through. -/
structure Verdict where
  why : Nat
  vid : Nat
  cls : Nat
  handle : Option Nat
  cut : Bool
  deriving DecidableEq, Repr

/-- Whether capture point k sees a frame that arrives at port p with verdict `why` (R269). -/
def State.capTakes (s : State) (k p why : Nat) : Bool :=
  s.get F.DVT_CAP_CFG_N k != 0 && s.is F.DVT_CAP_CFG_IN k && s.capWatches k p && (why == 0 || s.is F.DVT_CAP_CFG_DROPS k)

/-- Ingress capture at the end of step 8 with the verdict. The FCS of a frame that arrived with a bad one is a free value (log entry 137). -/
def State.capIngress (s : State) (f : InFrame) (v : Verdict) : State :=
  if v.why = 255 || !(List.range 4).any (fun k => s.capTakes k f.port v.why) then s
  else
    let fr := if f.bad then s.free else (0, s)
    let fcs := if f.bad then leBytes 4 (fr.1 % 2 ^ 32) else fcsOf f.data false
    fr.2.each (List.range 4) fun s k =>
      if s.capTakes k f.port v.why then
        s.capSee k fun seq =>
          capRecord f.at_ f.port ((if v.cut then 2 else 0) + if isTagged f.data then 4 else 0) v.vid v.cls v.why seq 0 (streamWord v.handle)
            f.data fcs
      else s

/-- Egress capture as a copy leaves. -/
def State.capEgress (s : State) (p : Nat) (x : QCopy) (l : List Nat) : State :=
  s.each (List.range 4) fun s k =>
    if s.is F.DVT_CAP_CFG_OUT k && s.capWatches k p then
      s.capSee k fun seq =>
        capRecord s.now p (1 + (if x.cut then 2 else 0) + if isTagged l then 4 else 0) x.vid x.cls 0 seq x.depth
          (streamWord x.handle) l (fcsOf l (x.cut && x.bad))
    else s

/-! The arrival of a frame (R252) -/

/-- Whether MACsec is in use on a port. -/
def State.mscOn (s : State) (p : Nat) : Bool := decide (p < 14) && s.is F.MSC_CFG_EN p

/-- Frames of EtherType 0x888E pass unprotected (R285). -/
def isEapol (l : List Nat) : Bool := slice l 12 2 == [0x88, 0x8E]

/-- Cut-through of the one copy of a frame (R267), the credits of the egress port brought up to date. -/
def State.cutOk (s : State) (l : List Nat) (inp out cls : Nat) (rtagChanged : Bool) : Bool :=
  s.portCut inp && s.portCut out && decide (portRate out ≤ portRate inp) &&
    (s.sendingAt out).isNone && (List.range 8).all (fun c => (s.queueOf (8 * out + c)).isEmpty) &&
    (s.creditRun out 0 none).classFree out cls 2048 && (isEapol l || (!s.mscOn inp && !s.mscOn out)) && !rtagChanged &&
    (s.express out cls || !s.preActive out)

/-- The drops a state has counted with reason r: tells whether an admission dropped. -/
def State.drops (s : State) (r : Nat) : Nat := s.get F.DVT_DROP_COUNT (r - 1)

/-- Admit one copy of frame `fid`; the verdict is the reason that dropped it, else the one before. -/
def State.admitOne (fid : Nat) (p : State × Nat) (q : Nat × QCopy) : State × Nat :=
  let t := p.1.admitCopy q.1 { q.2 with fid := fid }
  let v := ([7, 8, 9, 10, 11, 12, 13].find? fun r => t.drops r != p.1.drops r).getD 0
  (t, if v = 0 then p.2 else v)

/-- The drawer that a frame's cells are charged to. -/
def State.payer (s : State) (f : InFrame) : Option Nat :=
  match f.tun with
  | some t => some t.1
  | none => f.ring.bind s.ringOwner

/-- A frame's cells are charged to drawer `d`; an ETH_TX ring's own charge passes to its frame. -/
def State.frameCharge (s : State) (f : InFrame) (cells : Nat) (d : Option Nat) : State :=
  match f.ring, d with
  | some r, some d =>
    let s := (s.uncharge d (s.rg r).txCells).charge d cells
    s.putRg r { s.rg r with tx := [], txCells := 0, stamp := s.now }
  | none, some d => s.charge d cells
  | _, _ => s

/-- A frame without copies. -/
def FrameRec.none_ : FrameRec := ⟨0, 0, none⟩

/-- Admit copies of one frame in ascending order of egress port (R248), then settle the frame's charge. The verdict is the
reason that dropped the last copy when none was admitted. -/
def State.admitAll (s : State) (f : InFrame) (cells : Nat) (copies : List (Nat × QCopy)) : State × Nat :=
  let fid := s.dvt.nextFid
  let d := s.payer f
  let s := { s with dvt := { s.dvt with
    nextFid := fid + 1
    frames := storePut FrameRec.none_ s.dvt.frames fid ⟨cells, 0, d⟩ } }
  let r := copies.foldl (State.admitOne fid) (s.frameCharge f cells d, 0)
  let refs := (storeGet FrameRec.none_ r.1.dvt.frames fid).refs
  (if refs = 0 then r.1.frameRelease fid else r.1, if refs = 0 then r.2 else 0)

/-- An ETH_TX frame has been taken, or dropped: its last descriptor completes, unless its launch is still to come. -/
def State.txTaken (s : State) (f : InFrame) (queued : Bool) : State :=
  match f.ring with
  | none => s
  | some r =>
    let g := s.rg r
    let s := match s.ringOwner r with
      | some d => s.uncharge d g.txCells
      | none => s
    let s := s.putRg r { g with tx := [], txCells := 0, stamp := s.now }
    if queued && f.launch.isSome then s else s.txResult r 0

/-- A blank copy of a frame. -/
def copyOf (f : InFrame) (data : List Nat) (cls prio vid cells : Nat) (h : Option Nat) : QCopy :=
  ⟨0, data, cls, prio, vid, f.port, f.at_, f.ring, f.launch, h, none, cells, false, f.bad, 0, 0, false, false, f.base, 0⟩

/-- The longest frame, FCS included (R245). -/
def frameMax : Nat := 2048

/-- Whether a frame is longer than the switch forwards. -/
def tooLong (l : List Nat) : Bool := decide (frameMax < l.length + 4)

/-- A frame that is not forwarded because of its MAC's findings: its MAC has counted it (R245); one of a ring is dropped with PSFP_FILTER
(log entry 136). -/
def State.macDrop (s : State) (f : InFrame) : State × Nat :=
  if f.ring.isNone && f.tun.isNone then (s, 255) else (s.dropIn f.port 3, 3)

/-- Step 1 (R254): a link-local frame; the verdict is its drop reason. -/
def State.linkLocal (s : State) (f : InFrame) : State × Verdict :=
  let cells := cellsOf f.data.length
  let q := match f.ring with
    | none => 240 + min 55 (s.get F.DVT_TRAP_QUEUE)
    | some r => 8 * f.llPort + s.ringEnd r % 8
  let ok := match f.ring with
    | none => s.is F.DVT_TRAP_EN && f.tun.isNone
    | some r => decide (f.llPort < 30) && bitOf (s.get F.DVT_LLEG_PORTS (s.ringEnd r)) f.llPort && s.portEnabled f.llPort
  let r := if f.bad || tooLong f.data then s.macDrop f
    else if ok then s.admitAll f cells [(q, { copyOf f f.data (q % 8) 0 0 cells none with plain := true })]
    else (s.dropIn f.port 2, 2)
  (r.1, ⟨r.2, 0, q % 8, none, false⟩)

/-- The destination set of step 7 (R258): the ports a frame for `mac` leaves by. -/
def State.destPorts (s : State) (f : InFrame) (mac vi vid : Nat) : List Nat :=
  let hit := s.fdbFind mac vid
  below 37 fun p =>
    (match hit with
      | some e => (mac / 2 ^ 40 % 2 == 1 && !e.static) || bitOf e.dest p
      | none => true) && s.vlanMember vi p && s.portEnabled p && !(decide (f.port < 30) && p == f.port)

/-- Whether a frame leaves by cut-through: it has come from an external port and has exactly one copy (R267). -/
def State.cutsThrough (s : State) (f : InFrame) (l : List Nat) (vi vid cls : Nat) (rtag : Bool) : Bool :=
  match s.destPorts f (dstOf l) vi vid with
  | [p] => f.ring.isNone && f.tun.isNone && s.cutOk l f.port p cls rtag
  | _ => false

/-- What has ended of a cut-through frame when its last byte is in: the unused cells of its 8 are released (R247; log entry 136). -/
def State.cutEnd (s : State) (q cells : Nat) : State :=
  match (s.queueOf q).reverse with
  | x :: l => (s.putQueue q (({ x with cells := cells } :: l).reverse)).putOcc q (s.occ q - (x.cells - cells))
  | [] => s

/-- Step 8 for the one copy of a cut-through frame: 8 cells, and at its end those it fills; its FCS is inverted when the frame came with a bad
one, or grew too long (R245, R247, R268). -/
def State.admitCut (s : State) (f : InFrame) (p : Nat) (d : List Nat) (vid prio cls : Nat) (h : Option Nat) : State × Nat :=
  let l := d.take (frameMax - 4)
  let n := cellsOf l.length
  let r := s.admitAll f n [(8 * p + cls, { copyOf f l cls prio vid 8 h with cut := true, bad := f.bad || tooLong d })]
  (if r.2 = 0 then r.1.cutEnd (8 * p + cls) n else r.1, r.2)

/-- Step 8 (R247): admission of the copies that fit, `outs` holding each egress port and its frame. -/
def State.admitFit (s : State) (f : InFrame) (cells vid prio cls : Nat) (h : Option Nat) (outs : List (Nat × List Nat)) : State × Nat :=
  let fit := outs.filter fun o => !tooLong o.2
  let s := s.each (outs.filter fun o => tooLong o.2) fun s _ => s.dropIn f.port 3
  if fit.isEmpty then (s, 3) else s.admitAll f cells (fit.map fun o => (8 * o.1 + cls, copyOf f o.2 cls prio vid cells h))

/-- Steps 7 and 8 (R258, R247): the destination set, and admission of each copy; `cut` says that the frame leaves by cut-through. -/
def State.forward (s : State) (f : InFrame) (l : List Nat) (vi vid prio cls : Nat) (h : Option Nat) (cut : Bool) : State × Nat :=
  let dest := s.destPorts f (dstOf l) vi vid
  let cells := cellsOf (f.data.length + l.length - (untag f.data).length)
  let outs := dest.map fun p => (p, if s.vlanUntagged vi p then l else withTag l prio vid)
  match outs, cut with
  | [], _ => (s.dropIn f.port 2, 2)
  | [o], true => s.admitCut f o.1 o.2 vid prio cls h
  | _, _ => if f.bad || tooLong f.data then s.macDrop f else s.admitFit f cells vid prio cls h outs

/-- Whether step 5 puts an R-tag on an untagged frame of a handle, or takes one off (R262, R267). -/
def State.rtagActs (s : State) (hd : Nat) (l : List Nat) : Bool :=
  let f := fun w hi lo => s.tblF Tbl.filter hd w hi lo
  let rec_ := f 1 30 30 == 1 && s.tblF Tbl.rec_ (f 1 29 24) 0 0 0 == 1 && s.tblF Tbl.rec_ (f 1 29 24) 0 7 7 == 1
  (rec_ && hasRtag l) || (f 1 22 22 == 1 && (!hasRtag l || rec_))

/-- The priority and the class of a frame (R253, R259). -/
def State.frameClass (s : State) (f : InFrame) : Nat × Nat :=
  let prio := if isTagged f.data then tciOf f.data / 8192 else s.get F.DVT_PORT_DEF_PCP f.port
  (prio, match f.ring with
    | some r => s.ringEnd r % 8
    | none => f.tun.elim (classOf prio) (·.2 % 8))

/-- Steps 4 to 8 for a frame with a handle (R260 to R262). -/
def State.bridgeStream (s : State) (f : InFrame) (vi vid hd : Nat) : State × Verdict :=
  let pc := s.frameClass f
  let l := untag f.data
  let n := f.data.length + 4
  let cut := s.cutsThrough f l vi vid (s.streamClass hd pc.2) (s.rtagActs hd l)
  let f := { f with bad := f.bad || (cut && s.overSdu hd n) }
  let c := s.streamCheck hd pc.2 n cut
  if c.1 ≠ 0 then (c.2.2.dropIn f.port c.1, ⟨c.1, vid, c.2.1, some hd, false⟩)
  else
    let e := c.2.2.frerCheck hd l
    match e.1 with
    | none => (e.2.2.dropIn f.port 6, ⟨6, vid, c.2.1, some hd, false⟩)
    | some l =>
      let r := (e.2.2.learn f.port (srcOf l) vid).forward f l vi vid pc.1 c.2.1 (some hd) cut
      (r.1, ⟨r.2, vid, c.2.1, some hd, cut⟩)

/-- Steps 2 to 8 for a frame that is not link-local. -/
def State.bridge (s : State) (f : InFrame) : State × Verdict :=
  let tci := tciOf f.data
  let vid := if isTagged f.data ∧ tci % 4096 ≠ 0 then tci % 4096 else s.portPvid f.port
  let pc := s.frameClass f
  let l := untag f.data
  match s.vlanIdx vid with
  | none => (s.dropIn f.port 1, ⟨1, vid, pc.2, none, false⟩)
  | some vi =>
    if vid = 4095 ∨ !s.vlanMember vi f.port then (s.dropIn f.port 1, ⟨1, vid, pc.2, none, false⟩)
    else
      match s.handleOf (dstOf l) vid with
      | none =>
        let cut := s.cutsThrough f l vi vid pc.2 false
        let r := (s.learn f.port (srcOf l) vid).forward f l vi vid pc.1 pc.2 none cut
        (r.1, ⟨r.2, vid, pc.2, none, cut⟩)
      | some hd => s.bridgeStream f vi vid hd

/-- The first frame waiting at an ingress port goes through the switch (R252). -/
def State.frameArrival (s : State) (p : Nat) : State :=
  match s.dvt.ingress.find? (·.port == p) with
  | none => s
  | some f =>
    let s := { s with dvt := { s.dvt with ingress := s.dvt.ingress.erase f } }
    let s := match f.tun with
      | some t => s.uncharge t.1 (cellsOf f.data.length)
      | none => s
    if !s.portEnabled p then s.txTaken f false
    else
      let r := if isLinkLocal f.data then s.linkLocal f else s.bridge f
      (r.1.txTaken f (r.2.why == 0)).capIngress f r.2

/-- An ETH_TX ring reads its next cell while the drawer's charge is below its holding (R250). -/
def State.cellRead (s : State) (r : Nat) : State :=
  match s.ringOwner r with
  | some d =>
    let g := s.rg r
    if s.ringKind r = Kind.ethTx ∧ g.desc.isSome ∧ !g.ready ∧ 256 * g.txCells < g.tx.length + s.unitLen r ∧
        s.get F.DVT_CHARGE_CELLS d < s.get F.DRW_G_HOLD_AMOUNT d 2 then
      (s.putRg r { g with txCells := g.txCells + 1 }).charge d 1
    else s
  | none => s

/-! Drops of queued copies (R251, R240, R92) -/

/-- A queued copy is dropped from queue q; the descriptor of a frame whose launch was still to come completes. -/
def State.copyDrop (s : State) (q reason : Nat) (x : QCopy) : State :=
  let s := (s.release_ q x).dropQ q reason
  match x.ring with
  | some r => if x.launch.isSome && !x.due then s.txResult r 0 else s
  | none => s

/-- Drop every copy queued on q, and the one in delivery there, with a reason; the number dropped. -/
def State.dropQueue (s : State) (q reason : Nat) : State × Nat :=
  let l := s.queueOf q
  let s := (s.putQueue q []).each l fun s x => s.copyDrop q reason x
  if q < 240 then (s, l.length)
  else
    match s.sendingAt (64 + (q - 240)) with
    | some x => (((s.putSending (64 + (q - 240)) none).release_ q x).dropQ q reason, l.length + 1)
    | none => (s, l.length)

/-- The link of port p is down (R251): copies queued, sent and suspended are dropped with PORT_DOWN. -/
def State.dropPort (s : State) (p : Nat) : State :=
  let s := s.each (List.range 8) fun s c => (s.dropQueue (8 * p + c) 10).1
  let s := match s.sendingAt p with
    | some x => ((s.putSending p none).release_ (8 * p + x.cls) x).dropQ (8 * p + x.cls) 10
    | none => s
  match s.suspendedAt p with
  | some x => ((s.putSuspended p none).release_ (8 * p + x.cls) x).dropQ (8 * p + x.cls) 10
  | none => s

/-- A descriptor whose frame is dropped starts again from byte 0 with the next frame (R240). -/
def RingSt.restart (g : RingSt) : RingSt := { g with src := [], off := 0, result := 0, detail := 0, ready := false, ended := false }

/-- A fault of an ETH_RX ring takes effect (R240): without F3 the frame in progress and the queue are dropped. -/
def State.rxFault (s : State) (r : Nat) : State :=
  if s.ringKind r = Kind.ethRx ∧ !(s.ringOwner r).any (fun d => s.feat d 3) then
    let s := (s.dropQueue (240 + s.ringEnd r) 12).1
    (s.putRg r (s.rg r).restart).put F.RING_FAULT_OFF_OFFSET 0 r
  else s

/-- The receive hold of a FAULTED ring expires (R240); SOURCE and WRITE of its fault record are log entry 110. -/
def State.holdExpired (s : State) (r : Nat) : State :=
  match s.ringOwner r with
  | some d =>
    if s.ringState r = Rst.faulted ∧ s.ringKind r = Kind.ethRx ∧ s.feat d 3 ∧ !(s.rg r).expired then
      let x := s.dropQueue (240 + s.ringEnd r) 12
      let s := x.1.putRg r { (x.1.rg r).restart with expired := true }
      (s.put F.RING_FAULT_OFF_OFFSET 0 r).faultRecord d 0x13 5 false 0 r (min 255 x.2)
    else s
  | none => s

/-- An ETH_RX frame in delivery goes back to the head of its queue. -/
def State.rxRequeue (s : State) (r : Nat) : State :=
  let q := 240 + s.ringEnd r
  if s.ringKind r = Kind.ethRx then
    match s.sendingAt (64 + s.ringEnd r) with
    | some x => (s.putSending (64 + s.ringEnd r) none).putQueue q (x :: s.queueOf q)
    | none => s
  else s

/-- A ring is disabled (R85). -/
def State.ringStop (s : State) (r : Nat) : State := (s.rxRequeue r).ringOff r

/-- Whether a ring holds a descriptor whose transfer has not begun: a fetched buffer that no frame or record has reached. -/
def State.ringIdle (s : State) (r : Nat) : Bool :=
  let g := s.rg r
  g.desc.isSome && writesBuffer (s.ringKind r) && !g.ready && g.src.isEmpty && g.off == 0

/-- A write of ENABLE = 0 (R85): a RUNNING ring stops after its descriptor in progress, a FAULTED ring at once. A fetched descriptor that
no data has reached is not in progress (log entry 112). -/
def State.ringDisable (s : State) (r : Nat) : State :=
  let st := s.ringState r
  if st = Rst.running then
    if (s.rg r).desc.isNone || s.ringIdle r then s.ringStop r
    else (s.put F.RING_STATE_STATE Rst.stopping r).put F.RING_CTRL_ENABLE 0 r
  else if st = Rst.faulted then s.ringStop r
  else s

/-- The bytes the device writes back into a descriptor (R86, R87): stamp, DONE_LEN and STATUS. -/
def writeback (at_ : Stamp) (done status : Nat) : List Nat :=
  leBytes 4 at_.ns ++ leBytes 2 at_.ep ++ [0, 0] ++ leBytes 4 done ++ leBytes 4 status

/-- A received frame's buffer is full (R87, R88): the rest goes to the next descriptor when the ring holds one, else it is lost
and the result is TRUNCATED (log entry 17). The result is RESULT, DETAIL, END and the bytes left. -/
def State.rxEnd (s : State) (r : Nat) : Nat × Nat × Bool × List Nat :=
  let g := s.rg r
  let rest := g.src.drop g.off
  if rest.isEmpty then (g.result, g.detail, true, [])
  else if s.ringKind r = Kind.ethRx ∧ 1 < s.ringHeld r then (0, 0, false, rest)
  else (1, min 255 (rest.length / 64), true, [])

/-- Ring r is done with its descriptor, whose writeback has been written (R86): HEAD advances; `rest` are the bytes of a received frame
that go to the next descriptor. -/
def State.headOn (s : State) (r : Nat) (irq : Bool) (status : Nat) (rest : List Nat) : State :=
  let g := { s.rg r with desc := none, off := 0, result := 0, detail := 0, ready := false, ended := false, close := false, src := rest }
  let s := (s.putRg r g).incr F.RING_HEAD_INDEX r
  let s := s.sample 8 r (s.ringHeld r)
  let s := if irq then s.ringSignal r else s
  match s.ringOwner r with
  | some d => if s.ringKind r ≠ Kind.log then s.trace d 3 r r status else s
  | none => s

/-- What a descriptor's writeback reports (R86, R87): RESULT, DETAIL, END and the bytes left of a received frame. -/
def State.descResult (s : State) (r : Nat) : Nat × Nat × Bool × List Nat :=
  let g := s.rg r
  let k := s.ringKind r
  if (k = Kind.ethRx ∨ k = Kind.canRx) ∧ g.result ≠ 3 then s.rxEnd r else (g.result, g.detail, false, [])

/-- The stamp of a descriptor's writeback (R86): a frame's own, or now. -/
def State.descStamp (s : State) (r : Nat) (more : Bool) : Stamp :=
  let g := s.rg r
  let k := s.ringKind r
  if (k = Kind.ethRx ∨ k = Kind.canRx ∨ (k = Kind.ethTx ∧ !more)) ∧ g.result ≠ 3 then g.stamp else s.now

/-- The frames of an ETH_RX ring that a drain has stopped are dropped (R92). -/
def State.rxDrain (s : State) (r : Nat) : State :=
  let s := (s.dropQueue (240 + s.ringEnd r) 13).1
  s.putRg r { s.rg r with src := [] }

/-- Ring r is done with its descriptor: a STOPPING ring is disabled, and a draining drawer's ETH_RX ring takes no further buffer for the
frame in delivery. -/
def State.descEnd (s : State) (r d : Nat) (stopping irq : Bool) (status : Nat) (rest : List Nat) : State :=
  let s := s.headOn r irq status rest
  if stopping then s.ringStop r
  else if s.drwState d = 2 ∧ s.ringKind r = Kind.ethRx ∧ rest ≠ [] then s.rxDrain r
  else s

/-- Whether the writeback of ring r may be made: its descriptor is done, and the ring works, or is FAULTED while its drawer drains (R238);
a drawer that squashes writes none (R92). -/
def State.mayWriteBack (s : State) (r d : Nat) : Bool :=
  let st := s.ringState r
  (s.rg r).ready && s.drwState d != 3 &&
    (st == Rst.running || st == Rst.stopping || (st == Rst.faulted && s.drwState d == 2))

/-- The writeback of a descriptor is written, and HEAD advances (R86). Nothing happens while its page is not translated; one that waits
for a clock-gated island wakes it (R38). -/
def State.descComplete (s : State) (r : Nat) : State :=
  match s.ringOwner r, (s.rg r).desc with
  | some d, some x =>
    if !s.mayWriteBack r d then s
    else
      let e := s.descResult r
      let status := e.1 + e.2.1 * 256 + b2n e.2.2.1 * 65536 + 2 ^ 31
      let p := pieces (s.descAddr r + 16) 16
      match (s.dmaGrants d (s.ringSecure r) (p.map (true, ·))).writePieces d r (s.ringSecure r) p
          (writeback (s.descStamp r x.more) (s.rg r).off status) with
      | none => s.dmaUngate d (s.ringSecure r) (p.map (true, ·))
      | some t => t.descEnd r d (s.ringState r == Rst.stopping) x.irq status e.2.2.2
  | _, _ => s

/-! The table interface (R272) -/

/-- Whether a staged entry passes its checks. -/
def State.tblOk (s : State) (t i : Nat) (w : List Nat) : Bool :=
  let g := fun k hi lo => bitsOf (at0 w k) hi lo
  let lists := fun (len maxLen : Nat) =>
    decide (1 ≤ len) && decide (len ≤ maxLen) && decide (1000 ≤ g 1 31 0) && decide (g 1 31 0 ≤ 1000000000) &&
      g 3 15 0 == s.now.ep && (List.range len).all fun e => decide (1 ≤ g (4 + e) 31 8)
  decide (i < tblEntries t) &&
    (if t = Tbl.gate then lists (g 0 5 1) 16
    else if t = Tbl.qbv then lists (g 0 7 1) 64
    else if t = Tbl.rec_ then decide (1 ≤ g 0 6 1) && decide (g 0 6 1 ≤ 32) && decide (1 ≤ g 1 15 0)
    else true)

/-- LOAD: the committed entry is staged. -/
def State.tblLoad (s : State) : State :=
  let t := s.get F.DVT_TBL_SEL_TABLE
  let i := s.get F.DVT_TBL_SEL_INDEX
  if i < tblEntries t then { s with dvt := { s.dvt with stage := padTo (s.tbl t i) (tblWords t) } }
  else s.put F.DVT_TBL_STAT_REJ 1

/-- The bits of word k of an entry of table t that are fields (R272); the others are reserved and read zero (R7). -/
def tblMask (t k : Nat) : Nat :=
  match t, k with
  | 1, 1 => 0xCFFFFFFF
  | 1, 2 => 0xFF
  | 2, 0 => 0x3FFFF
  | 2, 1 => 0x7F7FFFFF
  | 3, 0 => 0x3F
  | 3, 3 => 0xFFFF
  | 3, k => if 4 ≤ k then 0xFFFFFF1F else 0xFFFFFFFF
  | 4, 4 => 1
  | 5, 0 => 0xFF
  | 5, 3 => 0xFFFF
  | 6, 0 => 0xFFFF
  | 7, 0 => 0xFF
  | 7, 1 => 0xFFFF
  | _, _ => 0xFFFFFFFF

/-- A staged entry as committed: read-only words keep their counts, and reserved bits are 0. A new list has EPOCH_STOP 0. -/
def State.tblMerge (s : State) (t i : Nat) (w : List Nat) : List Nat :=
  let old := s.tbl t i
  let keep : Nat → Bool := fun k =>
    (t == Tbl.filter && decide (2 ≤ k)) || (t == Tbl.meter && k == 5) || (t == Tbl.rec_ && decide (2 ≤ k))
  (List.range (tblWords t)).map fun k => if keep k then at0 old k else at0 w k &&& tblMask t k

/-- COMMIT: the staged entry is checked and applied whole; lists become pending (R264). -/
def State.tblCommit (s : State) : State :=
  let t := s.get F.DVT_TBL_SEL_TABLE
  let i := s.get F.DVT_TBL_SEL_INDEX
  if !s.tblOk t i s.dvt.stage then s.put F.DVT_TBL_STAT_REJ 1
  else
    let w := s.tblMerge t i s.dvt.stage
    let s := s.putTbl t i w
    if t = Tbl.gate ∨ t = Tbl.qbv then
      { s with dvt := { s.dvt with pendingLists := storePut [] s.dvt.pendingLists (listKey t i) w } }
    else if t = Tbl.meter then
      let x : MeterSt := ⟨8 * at0 w 1, 8 * at0 w 3, s.ztm.raw⟩
      { s with dvt := { s.dvt with meters := storePut ⟨0, 0, 0⟩ s.dvt.meters i x } }
    else if t = Tbl.rec_ then
      { s with dvt := { s.dvt with recov := storePut RecovSt.fresh s.dvt.recov i RecovSt.fresh } }
    else s

/-- Each access of DVT_TBL_DATA advances WORD. -/
def State.tblAdvance (s : State) : State := s.incr F.DVT_TBL_SEL_WORD

/-- The word a read of DVT_TBL_DATA returns. -/
def State.tblRead (s : State) : Nat :=
  at0 (s.tbl (s.get F.DVT_TBL_SEL_TABLE) (s.get F.DVT_TBL_SEL_INDEX)) (s.get F.DVT_TBL_SEL_WORD)

/-- A write of DVT_TBL_DATA stages a word. -/
def State.tblStage (s : State) (v : Nat) : State :=
  let k := s.get F.DVT_TBL_SEL_WORD
  { s with dvt := { s.dvt with stage := setAt s.dvt.stage k v } }

end Sys2Proof.Machine
end

