-- ==== Sys2Proof/Machine/PortOps.lean ====
section
/-! DEFINITION. Ethernet ports and MACs (ch. 13), with the egress side of the switch (R263, R279), one-step correction (R301,
R302) and MACsec frames (R285, R287). -/

namespace Sys2Proof.Machine

/-- What the MAC of port p holds. -/
def State.pt (s : State) (p : Nat) : PortSt := storeGet PortSt.rst s.port p
def State.putPt (s : State) (p : Nat) (x : PortSt) : State := { s with port := storePut PortSt.rst s.port p x }

/-- Link states (R275) and verify states (R278). -/
abbrev Link.disabled : Nat := 0
abbrev Link.training : Nat := 1
abbrev Link.up : Nat := 2
abbrev Link.retired : Nat := 3
abbrev Ver.disabled : Nat := 0
abbrev Ver.initial : Nat := 1
abbrev Ver.verifying : Nat := 2
abbrev Ver.succeeded : Nat := 3
abbrev Ver.failed : Nat := 4

def State.linkState (s : State) (p : Nat) : Nat := s.get F.EPT_LINK_STATE p

/-- The island of an external port (R30). -/
def portIsland (p : Nat) : Nat :=
  if p < 2 then 21 else if p < 6 then 22 else if p < 14 then 23 else if p < 22 then 24 else 25

/-! One-step correction (R301, R302) -/

/-- Where the PTP header of a frame begins, if the device may correct it. -/
def ptpAt (l : List Nat) : Option Nat :=
  let h := if slice l 12 2 = [0x88, 0xF7] then some 14
    else if isTagged l ∧ slice l 16 2 = [0x88, 0xF7] then some 18 else none
  h.filter fun o =>
    decide (at0 l o % 16 ≤ 3) && at0 l (o + 1) % 16 == 2 && !bitOf (at0 l (o + 6)) 1 && decide (o + 16 ≤ l.length)

/-- A 32-bit difference read as a signed value, scaled by 2¹⁶, modulo 2⁶⁴. -/
def corrScaled (x : Nat) : Nat :=
  let y : Nat := x % 2 ^ 32
  let i : Int := if y < 2 ^ 31 then Int.ofNat y else Int.ofNat y - 4294967296
  (i * 65536 % 18446744073709551616).toNat

/-- Add a value to the correctionField of the PTP header at `o`. -/
def addCorr (l : List Nat) (o x : Nat) : List Nat :=
  let v := (beNat (slice l (o + 8) 8) + corrScaled x) % 2 ^ 64
  l.take (o + 8) ++ beBytes 8 v ++ l.drop (o + 16)

/-- The value added to a frame leaving now: launch error, residence less the steps of zone time, or nothing. -/
def State.corrOf (s : State) (x : QCopy) : Option Nat :=
  match x.ring, x.launch with
  | some _, some l => some (s.now.ns + 2 ^ 32 - l.ns % 2 ^ 32)
  | some _, none => none
  | none, _ => some (s.now.ns + 2 ^ 33 + x.base % 2 ^ 32 - s.ztm.steps % 2 ^ 32 - x.at_.ns % 2 ^ 32)

/-- The bytes of a copy leaving external port p, corrected; a frame that MACsec shuts out is counted. -/
def State.corrected (s : State) (p : Nat) (x : QCopy) : List Nat × State :=
  match ptpAt x.data, s.corrOf x with
  | some o, some v =>
    if !s.is F.ZTM_PORT_EN p then (x.data, s)
    else if s.mscOn p then (x.data, s.bump F.ZTM_PORT_NOCORR 1 p)
    else (addCorr x.data o v, s)
  | _, _ => (x.data, s)

/-! MACsec frames (R285, R287) -/

/-- The 64-bit packet number of association a of port p. -/
def State.saPn (s : State) (p a : Nat) : Nat := s.get F.MSC_SA_PN_LO_VALUE p a + s.get F.MSC_SA_PN_HI_VALUE p a * 2 ^ 32
def State.putSaPn (s : State) (p a n : Nat) : State :=
  (s.put F.MSC_SA_PN_LO_VALUE n p a).put F.MSC_SA_PN_HI_VALUE (n / 2 ^ 32) p a

def State.mscXpn (s : State) (p : Nat) : Bool := decide (2 ≤ s.get F.MSC_CFG_CIPHER p)

/-- The key of an association. -/
def State.saKeyOf (s : State) (p a : Nat) : List Nat := storeGet [] s.saKey (20 * p + a)

/-- The IV of a frame (802.1AE): SCI and PN, or under XPN SSCI and the 64-bit PN, XORed with the salt. -/
def State.mscIv (s : State) (p a pn sci : Nat) : List Nat :=
  let salt := s.get F.MSC_SA_SALT0_VALUE p a + s.get F.MSC_SA_SALT1_VALUE p a * 2 ^ 32 + s.get F.MSC_SA_SALT2_VALUE p a * 2 ^ 64
  if s.mscXpn p then beBytes 12 ((s.get F.MSC_SA_SSCI_VALUE p a * 2 ^ 64 + pn) ^^^ salt) else beBytes 8 sci ++ beBytes 4 pn

/-- Events of an association: THRESHOLD and EXHAUSTED (R287). -/
def State.saEvents (s : State) (p a pn : Nat) : State :=
  let top := if s.mscXpn p then 2 ^ 64 else 2 ^ 32
  let thr := if s.mscXpn p then 0xC000000000000000 else 0xC0000000
  let s := if pn < thr ∧ thr ≤ pn + 1 then s.put F.MSC_CFG_PN_THRESH 1 p else s
  if pn + 1 = top then (s.put F.MSC_SA_CTRL_EXHAUSTED 1 p a).put F.MSC_CFG_EXHAUST 1 p
  else s.putSaPn p a (pn + 1)

/-- Protect a frame leaving port p; none when it is dropped for want of a usable association or of MSC. -/
def State.mscProtect (s : State) (p : Nat) (l : List Nat) : Option (List Nat) × State :=
  if !s.mscOn p || isEapol l then (some l, s)
  else
    let a := s.get F.MSC_CFG_TX_AN p
    if s.islState 27 ≠ 0 ∨ !s.is F.MSC_SA_CTRL_VALID p a ∨ s.is F.MSC_SA_CTRL_EXHAUSTED p a then (none, s.cnt p 43 1)
    else
      let pn := s.saPn p a
      let sci := s.get F.MSC_TXSCI_LO_SCI p + s.get F.MSC_TXSCI_HI_SCI p * 2 ^ 32
      let body := l.drop 12
      let sl := if body.length < 48 then body.length else 0
      let tag := l.take 12 ++ [0x88, 0xE5, 0x2C + a, sl] ++ beBytes 4 pn ++ beBytes 8 sci
      let out := tag ++ gcmSeal (s.saKeyOf p a) (s.mscIv p a pn sci) tag body
      (some out, (s.saEvents p a pn).cnt p 42 1)

/-- The packet number a receiver recovers from the 32 bits on the wire. -/
def recoverPn (xpn : Bool) (lowest low : Nat) : Nat :=
  if !xpn then low
  else
    let hi := lowest / 2 ^ 32
    if low < lowest % 2 ^ 32 ∧ 2 ^ 31 ≤ lowest % 2 ^ 32 ∧ low < 2 ^ 31 then (hi + 1) * 2 ^ 32 + low else hi * 2 ^ 32 + low

/-- The user data of a received frame, or none when its ICV does not match: after the 28 bytes of addresses and SecTAG, as many bytes as SL
says when it is not 0, encrypted when the tag says so, else under the ICV alone. -/
def State.mscText (s : State) (p a pn sci : Nat) (l : List Nat) : Option (List Nat) :=
  let key := s.saKeyOf p a
  let iv := s.mscIv p a pn sci
  let n := if at0 l 15 = 0 ∨ l.length < 44 + at0 l 15 then l.length - 44 else at0 l 15
  let body := slice l 28 n
  let icv := slice l (28 + n) 16
  if bitOf (at0 l 14) 2 then gcmOpen key iv (l.take 28) body icv
  else (gcmOpen key iv (l.take (28 + n)) [] icv).map fun _ => body

/-- A frame of association `a` of port p is verified (R287, R288): replay, then the integrity check; none when it is dropped and counted. -/
def State.mscOpen (s : State) (p a sci : Nat) (l : List Nat) : Option (List Nat) × State :=
  let pn := recoverPn (s.mscXpn p) (s.saPn p a) (beNat (slice l 16 4))
  if s.is F.MSC_CFG_REPLAY_EN p && decide (pn < s.saPn p a) then (none, s.cnt p 47 1)
  else match s.mscText p a pn sci l with
    | none => (none, s.cnt p 45 1)
    | some body =>
      let t := s.putSaPn p a (max (pn + 1 - s.get F.MSC_WINDOW_WINDOW p) (s.saPn p a))
      (some (l.take 12 ++ body), t.cnt p 44 1)

/-- The receive channel of port p whose SCI a frame carries, when it carries a SecTAG with SC. -/
def State.mscChannel (s : State) (p : Nat) (l : List Nat) : Option Nat :=
  let sci := beNat (slice l 20 8)
  if slice l 12 2 == [0x88, 0xE5] && bitOf (at0 l 14) 5 && decide (44 ≤ l.length) then
    (List.range 4).find? fun c =>
      s.is F.MSC_RXSC_CTRL_VALID p c && s.get F.MSC_RXSCI_LO_SCI p c + s.get F.MSC_RXSCI_HI_SCI p c * 2 ^ 32 == sci
  else none

/-- Verify a frame received on port p; none when it is dropped and counted. -/
def State.mscVerify (s : State) (p : Nat) (l : List Nat) : Option (List Nat) × State :=
  if !s.mscOn p || isEapol l then (some l, s)
  else
    match s.mscChannel p l with
    | some c =>
      let a := 4 + 4 * c + at0 l 14 % 4
      if s.islState 27 ≠ 0 ∨ !s.is F.MSC_SA_CTRL_VALID p a then (none, s.cnt p 46 1) else s.mscOpen p a (beNat (slice l 20 8)) l
    | none => (none, s.cnt p 46 1)

/-- Associations of a port lose VALID (R290). -/
def State.saClear (s : State) (p : Nat) : State :=
  if 14 ≤ p then s
  else
    s.each (List.range 20) fun s a =>
      { s with saKey := storeErase s.saKey (20 * p + a) }.put F.MSC_SA_CTRL_VALID 0 p a

/-! Egress (R246, R263, R279) -/

/-- A copy starts on external port p: corrected, protected, captured; a frame MACsec cannot protect is dropped. -/
def State.startSend (s : State) (p : Nat) (x : QCopy) : State :=
  let c := s.corrected p x
  let r := c.2.mscProtect p c.1
  match r.1 with
  | none => r.2.release_ (8 * p + x.cls) x
  | some l => (r.2.capEgress p x c.1).putSending p (some { x with data := l })

/-- Whether external port p may send at all: enabled, up, not retired, no pause in force. -/
def State.mayBegin (s : State) (p : Nat) : Bool := s.portEnabled p && s.portUp p && !s.is F.EPT_LINK_PAUSED p

/-- Heads whose launch cannot be met leave every queue of a port. -/
def State.headChecks (s : State) (p : Nat) : State :=
  s.each (List.range 8) fun s c => s.headCheck (8 * p + c) (s.queueOf (8 * p + c)).length

/-- Take the head of queue q and start it on port p. -/
def State.sendHead (s : State) (p c : Nat) : State :=
  match s.queueOf (8 * p + c) with
  | x :: rest => (s.putQueue (8 * p + c) rest).startSend p x
  | [] => s

/-- An external port that sends nothing picks its next frame; a suspended remainder goes on when no express class may send
and its gate is open. -/
def State.pickNext (s : State) (p : Nat) : State :=
  match s.suspendedAt p with
  | none =>
    match s.pickClass p fun _ => true with
    | some c => s.sendHead p c
    | none => s
  | some y =>
    match s.pickClass p (s.express p) with
    | some c => s.sendHead p c
    | none =>
      if s.gateOpen p y.cls then ((s.putSuspended p none).putSending p (some y)).cnt p 35 1 else s

/-- Egress selection on external port p (R263, R279): `sent` bytes of the frame on the medium have left, for its
preemption at a permissible point. -/
def State.egressExt (s : State) (p sent : Nat) (deferred : Bool) : State :=
  if !s.mayBegin p then s
  else
    let s := (s.creditRun p 0 none).headChecks p
    match s.sendingAt p with
    | none =>
      let s' := s.pickNext p
      if deferred && 22 ≤ p && (s'.sendingAt p).isSome then s'.cnt p 41 1 else s'
    | some y =>
      let want := (s.pickClass p (s.express p)).isSome || !s.gateOpen p y.cls
      if s.preActive p && !s.express p y.cls && want && (s.suspendedAt p).isNone && !y.cut &&
          decide (y.sent + s.minFrag p ≤ sent) && decide (sent + s.minFrag p ≤ y.data.length) then
        let s := (s.putSending p none).creditRun p ((sent - y.sent + 20) * 8 * 1000 / portRate p) (some y.cls)
        let s := ((s.putSuspended p (some { y with sent := sent })).cnt p 36 1).cnt p 35 1
        match s.pickClass p (s.express p) with
        | some c => s.sendHead p c
        | none => s
      else s

/-- Whether the tunnel of controller k runs (R326, R331). -/
def State.tunnelRuns (s : State) (k : Nat) : Bool :=
  s.is F.CAN_ACF_CFG_EN k && s.get F.CAN_STAT_STATE k != 6 &&
    (s.canOwner k).any fun d => s.feat d 8 && s.ownsHostQ d (s.get F.CAN_ACF_CFG_HOSTQ k)

/-- The bytes of a frame after its EtherType 0x22F0, a tag skipped. -/
def avtpOf (l : List Nat) : Option (List Nat) :=
  let l := untag l
  if slice l 12 2 = [0x22, 0xF0] then some (l.drop 14) else none

/-- The controller whose tunnel takes a frame of host queue q (R328): NTSCF with the tunnel's stream_id. -/
def State.tunnelOf (s : State) (q : Nat) (l : List Nat) : Option Nat :=
  match avtpOf l with
  | none => none
  | some a =>
    (List.range 16).find? fun k =>
      s.tunnelRuns k && s.is F.CAN_ACF_CFG_DIR_RX k && s.get F.CAN_ACF_CFG_HOSTQ k == q && at0 a 0 == 0x82 &&
        beNat (slice a 4 8) == s.get F.CAN_ACF_SID_LO_VALUE k + s.get F.CAN_ACF_SID_HI_VALUE k * 2 ^ 32

/-- Whether host queue q can start a delivery (R250): its head is no tunnel's, nothing is in delivery there, and its ring has a descriptor
ready for a frame. -/
def State.hostReady (s : State) (q : Nat) : Bool :=
  ((s.queueOf (240 + q)).head?.any fun x => (s.tunnelOf q x.data).isNone) && (s.sendingAt (64 + q)).isNone &&
    (s.ringOn Kind.ethRx q).any fun r => s.ringReady r && (s.rg r).src.isEmpty

/-- The host queue that arbitration point 7 grants next, the one of highest class first (R40, R263). -/
def State.hostPick (s : State) : Option Claim :=
  claimPick (s.get F.FAB_ARB_PTR_PTR 7) (s.claimRank 7)
    ((below 56 s.hostReady).map fun q => ⟨q, drawerFin ((s.hostQOwner q).getD 0), .device, q⟩)

/-- A host port starts the delivery that arbitration point 7 grants it (R250, R263). -/
def State.egressHost (s : State) (p : Nat) : State :=
  match s.hostPick with
  | none => s
  | some c =>
    if 30 + c.unit / 8 ≠ p then s
    else
      match s.queueOf (240 + c.unit), s.ringOn Kind.ethRx c.unit with
      | x :: rest, some r =>
        let s := ((s.arbMove 7 c.drawer).putQueue (240 + c.unit) rest).putSending (64 + c.unit) (some x)
        let s := s.capEgress p x x.data
        s.putRg r { s.rg r with src := x.data, stamp := x.at_, off := 0 }
      | _, _ => s

/-- The last bit of the frame on external port p leaves (R246, R268): counted, released, credited. A frame that waits out a back-off
(R282) is not on the medium. -/
def State.egressDoneExt (s : State) (p : Nat) : State :=
  match if (s.pt p).backoff then none else s.sendingAt p with
  | none => s
  | some x =>
    let s := ((s.putSending p none).cntTx p x.data).when (!x.bad) fun s => s.sample 6 (p + 64) (x.data.length + 4)
    let s := s.when (x.cut && x.bad) fun s => (s.bump F.DVT_CT_STOMP_COUNT 1).cnt p 34 1
    let s := s.when (x.cols == 1) fun s => s.cnt p 37 1
    let s := s.when (decide (2 ≤ x.cols)) fun s => s.cnt p 38 1
    let s := s.emit 3 p (b2n (x.cut && x.bad)) x.data
    let s := s.release_ (8 * p + x.cls) x
    if p < 22 then s.creditRun p ((x.data.length - x.sent + 24) * 8 * 1000 / portRate p) (some x.cls) else s

/-- A frame has gone whole into its ring's buffers: its cells are released, and a drain drops what the queue still holds (R92). -/
def State.egressDoneHost (s : State) (p c : Nat) : State :=
  let k := 64 + 8 * (p - 30) + c
  match s.sendingAt k with
  | none => s
  | some x =>
    if (s.ringOn Kind.ethRx (8 * (p - 30) + c)).any fun r => (s.rg r).src.isEmpty then
      let s := (s.putSending k none).release_ (8 * p + c) x
      if x.drawer.any fun d => s.drwState d == 2 then (s.dropQueue (8 * p + c) 13).1 else s
    else s

/-! Link (R275, R276), verification (R278), pause (R281) -/

/-- Verification starts or rests as EPT_PMAC says (R278). -/
def State.verifyStart (s : State) (p : Nat) : State :=
  let s := s.putPt p { s.pt p with verifySent := 0 }
  if s.is F.EPT_PMAC_PRE_EN p && s.is F.EPT_PMAC_VERIFY_DIS p then s.put F.EPT_PSTAT_VERIFY Ver.disabled p
  else if s.is F.EPT_PMAC_PRE_EN p && s.linkState p == Link.up then
    ((s.put F.EPT_PSTAT_VERIFY Ver.verifying p).putPt p { s.pt p with verifySent := 1 }).emit 7 p 0 []
  else s.put F.EPT_PSTAT_VERIFY Ver.initial p

/-- A port leaves UP for `st`: LINK_DOWN, its copies dropped, its pause ended, verification back to INITIAL. -/
def State.leaveUp (s : State) (p st : Nat) : State :=
  let s := ((s.put F.EPT_LINK_STATE st p).put F.EPT_LINK_PAUSED 0 p).dropPort p
  let s := s.when (st == Link.training) fun s => s.bump F.EPT_LDROPS_DROPS 1 p
  (s.portEvt p 1).verifyStart p

/-- A training begins, or begins again: the PHY takes the role ROLE holds now (R276). -/
def State.takeRole (s : State) (p : Nat) : State := s.putPt p { s.pt p with slave := s.is F.EPT_PCFG_ROLE p }

/-- A port enters TRAINING (R275): DROPS counts an entry from UP. -/
def State.toTraining (s : State) (p : Nat) : State :=
  if s.linkState p = Link.up then (s.leaveUp p Link.training).takeRole p
  else if s.linkState p = Link.retired then s
  else (s.put F.EPT_LINK_STATE Link.training p).takeRole p

/-- The time limit of a training passes, and training begins again (R275). -/
def State.retrain (s : State) (p : Nat) : State := if s.linkState p = Link.training then s.takeRole p else s

/-- Whether training with a partner whose PHY takes the slave role completes: the two ends of P0 to P21 have opposite roles (R276). -/
def State.rolesMeet (s : State) (p : Nat) (slave : Bool) : Bool := decide (22 ≤ p) || (s.pt p).slave != slave

/-- LINK_EN = 1 on an enabled, unretired port whose island is ON. -/
def State.linkEnable (s : State) (p : Nat) : State :=
  if s.portEnabled p && s.linkState p == Link.disabled && !s.unitOut 3 p then (s.put F.EPT_LINK_STATE Link.training p).takeRole p
  else s

/-- LINK_EN = 0. -/
def State.linkDisable (s : State) (p : Nat) : State :=
  if s.linkState p = Link.up then s.leaveUp p Link.disabled
  else if s.linkState p = Link.training then s.put F.EPT_LINK_STATE Link.disabled p
  else s

/-- Training completes. -/
def State.linkUp (s : State) (p : Nat) : State :=
  if s.linkState p = Link.training then (((s.put F.EPT_LINK_STATE Link.up p).creditReset p).portEvt p 0).verifyStart p
  else s

/-- VERIFY_MS has passed without a response (R278). -/
def State.verifyTick (s : State) (p : Nat) : State :=
  if s.get F.EPT_PSTAT_VERIFY p ≠ Ver.verifying then s
  else if (s.pt p).verifySent < 3 then
    (s.putPt p { s.pt p with verifySent := (s.pt p).verifySent + 1 }).emit 7 p 0 []
  else (s.put F.EPT_PSTAT_VERIFY Ver.failed p).portEvt p 3

/-- A valid respond mPacket (R278). -/
def State.verifyRespond (s : State) (p : Nat) : State :=
  if s.get F.EPT_PSTAT_VERIFY p = Ver.verifying then (s.put F.EPT_PSTAT_VERIFY Ver.succeeded p).portEvt p 3 else s

/-- A PAUSE frame (R280): counted; honoured on P0 to P21 with PAUSE_EN. -/
def State.pauseRx (s : State) (p quanta : Nat) : State :=
  let s := s.cnt p 16 1
  if p < 22 ∧ s.is F.EPT_PCFG_PAUSE_EN p then s.put F.EPT_LINK_PAUSED (if quanta = 0 then 0 else 1) p else s

/-- The pause in force expires. -/
def State.pauseEnd (s : State) (p : Nat) : State := s.put F.EPT_LINK_PAUSED 0 p

/-- The watchdog breaks a continuous pause (R281). -/
def State.pauseBreak (s : State) (p : Nat) : State :=
  if s.is F.EPT_LINK_PAUSED p then ((s.put F.EPT_LINK_PAUSED 0 p).bump F.EPT_LDROPS_BREAKS 1 p).portEvt p 2 else s

/-! 10BASE-T1S collisions (R282) -/

/-- The frame on a T1S port is dropped and counted. -/
def State.colDrop (s : State) (p i : Nat) (x : QCopy) : State :=
  ((s.putSending p none).release_ (8 * p + x.cls) x).cnt p i 1

/-- A collision: late, the sixteenth, or followed by a back-off whose draw is a free value below 2^k (log entry 4). -/
def State.collide (s : State) (p : Nat) (late : Bool) : State :=
  match s.sendingAt p with
  | none => s
  | some x =>
    if p < 22 then s
    else if late then s.colDrop p 39 x
    else if 15 ≤ x.cols then s.colDrop p 40 x
    else
      let n := x.cols + 1
      let (v, s) := s.free
      let s := s.putSending p (some { x with cols := n })
      s.putPt p { s.pt p with backoff := true, lfsr := v % 2 ^ 32, slots := v % 2 ^ min n 10 }

/-- The back-off ends, and the MAC tries the frame again. -/
def State.backoffEnd (s : State) (p : Nat) : State := s.putPt p { s.pt p with backoff := false, slots := 0 }

/-! Wake patterns (R283, R284) -/

/-- The bytes of a frame that pattern k of port p selects; none when the frame lacks one, or nothing is selected. -/
def State.wakeBytes (s : State) (p k : Nat) (l : List Nat) : Option (List Nat) :=
  let mask := s.get F.EPT_WMASK0_MASK p k + s.get F.EPT_WMASK1_MASK p k * 2 ^ 32 +
    s.get F.EPT_WMASK2_MASK p k * 2 ^ 64 + s.get F.EPT_WMASK3_MASK p k * 2 ^ 96
  let sel := below 128 (bitOf mask)
  if sel.isEmpty ∨ sel.any (fun i => decide (l.length ≤ i)) then none else some (sel.map fun i => at0 l i)

/-- Whether enabled pattern k of port p matches a frame. -/
def State.wakeMatch (s : State) (p k : Nat) (l : List Nat) : Bool :=
  bitOf (s.get F.EPT_WAKE_PAT_EN p) k && !s.unitOut 3 p &&
    (s.wakeBytes p k l).any fun b => crc32 b == s.get F.EPT_WCHECK_CHECK p k

/-- Record a match. -/
def State.wakeHit (s : State) (p k : Nat) (sleep : Bool) : State :=
  let s := (s.put F.EPT_WAKE_HIT_PORT p).put F.EPT_WAKE_HIT_PATTERN k
  (s.put F.EPT_WAKE_HIT_IN_SLEEP (b2n sleep)).put F.EPT_WAKE_HIT_VALID 1

/-- Every matching pattern of an awake port. -/
def State.wakeScan (s : State) (p : Nat) (l : List Nat) : State :=
  s.each ((List.range 8).filter fun k => s.wakeMatch p k l) fun s k => (s.wakeHit p k false).portEvt p 4

/-! Reception (R274) -/

/-- A qualifying Sync (R306): ACTIVE goes back to WATCHING. -/
def State.fbSync (s : State) : State :=
  if s.get F.ZTM_FB_STAT_STATE = 2 then
    (s.put F.ZTM_FB_STAT_STATE 1).raise ⟨.ZTM_EVT, 4, 0⟩ 8 0 0 0 (some 0) 8 0
  else s

/-- Whether a port takes frames of the station EtherType for the Lathe (R188). -/
def State.stationPort (s : State) (p : Nat) : Bool :=
  (List.range 64).any fun n => s.stnEn n && s.stnEth n && s.stnEndpoint n == p

/-- A frame waits at ingress port p. -/
def State.ingressAdd (s : State) (p : Nat) (l : List Nat) (bad : Bool) : State :=
  { s with dvt := { s.dvt with ingress := s.dvt.ingress ++ [⟨p, l, s.now, none, none, 0, bad, s.ztm.steps, none⟩] } }

/-- A frame with an error reaches the switch on a cut-through port only (R267). -/
def State.ingressBad (s : State) (p : Nat) (l : List Nat) : State := if s.portCut p then s.ingressAdd p l true else s

/-- The EtherTypes of PTP and of MAC control. -/
def etherPtp : Nat := 0x88F7
def etherMacControl : Nat := 0x8808

/-- A good frame of port p (R274, R284, R288): its counters, a wake pattern, what the MAC itself takes, then MACsec and the switch. -/
def State.macGood (s : State) (p : Nat) (l : List Nat) (frags : Nat) : State :=
  let s := if frags ≠ 0 then (s.cnt p 18 1).cnt p 21 frags else s
  let s := (s.cntRx p l).wakeScan p l
  let ety := beNat (slice l 12 2)
  let s := if ety = etherPtp ∧ at0 l 14 % 16 = 0 ∧ p = s.get F.ZTM_FB_CFG_GPTP_PORT then s.fbSync else s
  if ety = etherMacControl then if at0 l 14 = 0 ∧ at0 l 15 = 1 then s.pauseRx p (beNat (slice l 16 2)) else s
  else if s.stationPort p ∧ ety = s.stnEtherType then
    let s := s.cnt p 17 1
    if s.latheRuns then s.stnMessage true p (beNat (slice l 6 6)) (l.drop 14) else s
  else
    let r := s.mscVerify p l
    match r.1 with
    | none => r.2
    | some l => r.2.ingressAdd p l false

/-- The frame that a received PAUSE of so many quanta is (IEEE 802.3 Annex 31B), its FCS left out; the source is any address. -/
def pauseFrame (quanta : Nat) : List Nat :=
  [0x01, 0x80, 0xC2, 0x00, 0x00, 0x01, 0, 0, 0, 0, 0, 0, 0x88, 0x08, 0x00, 0x01] ++ beBytes 2 quanta ++ List.replicate 42 0

/-- A MAC receives a frame whole (R274, R288): `frags` fragments when it was preempted, else 0. A verify mPacket is answered by a
respond mPacket wherever PRE_EN = 1 (R278). -/
def State.macRx (s : State) (p : Nat) (l : List Nat) (kind : RxKind) (frags : Nat) : State :=
  if !(s.portEnabled p && s.linkState p == Link.up) then s
  else
    let n := l.length + 4
    let lim := if s.mscOn p then 2080 else 2048
    match kind with
    | .assyErr => (s.cnt p 19 1).cnt p 21 frags
    | .smdErr => s.cnt p 20 1
    | .symErr => s.cnt p 15 1
    | .verify => s.when (decide (p < 22) && s.is F.EPT_PMAC_PRE_EN p) fun s => s.emit 9 p 0 []
    | .badFcs => if n < 64 then s.cnt p 13 1 else (s.cnt p (if lim < n then 14 else 12) 1).ingressBad p l
    | .good => if n < 64 then s.cnt p 13 1 else if lim < n then (s.cnt p 14 1).ingressBad p l else s.macGood p l frags

/-! Faults and retirement (R289, R290) -/

/-- A permanent fault retires a port. -/
def State.portRetire (s : State) (p : Nat) : State :=
  let s := if s.linkState p = Link.up then s.leaveUp p Link.retired else s.put F.EPT_LINK_STATE Link.retired p
  ((s.saClear p).retireUnit 3 p 0x05 0 0).portEvt p 5

/-- A run-time PHY fault (R289): the first since POR resets the PHY, a second is permanent. -/
def State.phyFault (s : State) (p : Nat) : State :=
  if s.linkState p = Link.retired then s
  else if s.is F.EPT_LINK_PHY_FAULT p then s.portRetire p
  else
    let s := s.put F.EPT_LINK_PHY_FAULT 1 p
    if s.linkState p = Link.disabled then s else s.toTraining p

/-- The loopback test of a port at start (R289). -/
def State.portTest (s : State) (p : Nat) (pass : Bool) : State :=
  if !s.portEnabled p || s.unitOut 3 p then s
  else
    let s := (s.put F.EPT_LINK_TEST_FAIL (b2n !pass) p).startTest 3 p 0x05 0 pass
    if s.unitOut 3 p then ((s.put F.EPT_LINK_STATE Link.retired p).saClear p).portEvt p 5 else s

end Sys2Proof.Machine
end

