-- ==== Sys2Proof/Machine/TimeOps.lean ====
section
/-! DEFINITION. Zone time (ch. 14): the counters and the increment (R291 to R295), epochs and steps (R296, R297), raw and zone
pairs (R303), and the watch of the CAN fallback (R306). -/

namespace Sys2Proof.Machine

/-- INCR in force, in units of 2⁻³² ns per tick (R291). -/
def State.incrVal (s : State) : Nat := s.get F.ZTM_INCR_INT_INT * 2 ^ 32 + s.get F.ZTM_INCR_FRAC_FRAC

/-- The bounds of INCR (R292). -/
def incrMin : Nat := 2 ^ 32 + 4286377361
def incrMax : Nat := 2 * 2 ^ 32 + 8589935

/-- A write of ZTM_INCR_INT applies INT and the staged FRAC, clamped (R292). -/
def State.incrApply (s : State) (int : Nat) : State :=
  let v := max incrMin (min incrMax (int % 256 * 2 ^ 32 + s.ztm.fracStaged))
  (s.put F.ZTM_INCR_INT_INT (v / 2 ^ 32)).put F.ZTM_INCR_FRAC_FRAC (v % 2 ^ 32)

/-- The raw counter as registers show it (R293). -/
def State.raw32 (s : State) : Nat := s.ztm.raw % 2 ^ 32

/-- An event of the time block in every drawer's view and the global window: logged once for each drawer, the global copy
counting for D0 (R12, R400). -/
def State.timeEvent (s : State) (mask : Nat) : State :=
  let x : Fld := ⟨.ZTM_EVT, 4, 0⟩
  let s := s.raise x mask 0 0 0 (some 0) 8 0
  s.each (List.range s.drw.count) fun s d =>
    s.raise x mask 0 0 (d + 1) (if d = 0 then none else some d) 8 0

/-- Capture a pair into the registers of copy `cp` (R303). -/
def State.pairCapture (s : State) (cp : Nat) (auto : Bool) : State :=
  let s := (s.put F.ZTM_PAIR_RAW_VALUE s.raw32 0 0 cp).put F.ZTM_PAIR_NS_VALUE s.now.ns 0 0 cp
  (s.put F.ZTM_PAIR_EP_EPOCH s.now.ep 0 0 cp).put F.ZTM_PAIR_EP_AUTO (b2n auto) 0 0 cp

/-- Bit 31 of ZONE_NS has changed (R295, R303). -/
def State.halfEdge (s : State) : State := ((s.timeEvent 1).mitreLine 10).pairCapture 0 true

/-- The counters after `n` ticks of the ZTM clock, without the events of a HALF edge (R291, R293, R169). -/
def State.advance (s : State) (n : Nat) : State :=
  let v := s.incrVal
  { s with ztm := { s.ztm with
    zone := (s.ztm.zone + n * v) % 2 ^ 64, raw := s.ztm.raw + 2 * n, tb := s.ztm.tb + n * v } }

/-- One tick of the ZTM clock. -/
def State.tick (s : State) : State :=
  let s' := s.advance 1
  if bitOf s'.ztm.zone 63 = bitOf s.ztm.zone 63 then s' else s'.halfEdge

/-- The ticks until bit 31 of ZONE_NS changes. -/
def State.ticksToHalf (s : State) : Nat :=
  (2 ^ 63 - s.ztm.zone % 2 ^ 63 + s.incrVal - 1) / s.incrVal

/-- Time runs on to the next change of bit 31. -/
def State.runToHalf (s : State) : State := (s.advance s.ticksToHalf).halfEdge

/-- The step of an epoch change is added to zone time (R296). -/
def State.zoneStep (s : State) (v : Nat) : State :=
  { s with ztm := { s.ztm with zone := (s.ztm.zone + v * 2 ^ 32) % 2 ^ 64, steps := (s.ztm.steps + v) % 2 ^ 32 } }

/-- The epoch rises and what hangs on it follows; `half` was bit 31 of ZONE_NS before (R295 to R297). -/
def State.epochNext (s : State) (step half : Bool) : State :=
  let s := (((s.incr F.ZTM_EPOCH_EPOCH).put F.ZTM_EPOCH_STEPPED (b2n step)).timeEvent 2).epochStop
  if bitOf s.ztm.zone 63 = half then s else s.halfEdge

/-- A new epoch opens, with a step or without (R296, R297). -/
def State.epochOpen (s : State) (step : Bool) : State :=
  (s.zoneStep (if step then s.get F.ZTM_STEP_VALUE else 0)).epochNext step (bitOf s.ztm.zone 63)

/-- A write of ZTM_CTRL (R296): the KEY, a STEP without OPEN, an OPEN. -/
def State.epochCtrl (s : State) (w : Nat) : State :=
  if bitsOf w 31 16 ≠ 0x2E5A then s
  else if bitOf w 0 then s.epochOpen (bitOf w 1)
  else if bitOf w 1 then s.put F.ZTM_EPOCH_STEP_REJ 1
  else s

/-- What a read of ZTM_NOW through copy `cp` leaves: the epoch of the same tick (R297). -/
def State.nowRead (s : State) (cp : Nat) : State := s.put F.ZTM_NOW_EP_EPOCH s.now.ep 0 0 cp

/-- A write of ZTM_FB_CFG (R306): ignored in ACTIVE unless it clears EN; the state follows EN. -/
def State.fbConfig (s : State) (w : Nat) : State :=
  let st := s.get F.ZTM_FB_STAT_STATE
  if st = 2 ∧ bitOf w 5 then s
  else
    let s := (s.put F.ZTM_FB_CFG_CAN (bitsOf w 3 0)).put F.ZTM_FB_CFG_ROLE (bitsOf w 4 4)
    let s := (s.put F.ZTM_FB_CFG_EN (bitsOf w 5 5)).put F.ZTM_FB_CFG_GPTP_PORT (bitsOf w 12 8)
    let s := s.put F.ZTM_FB_CFG_LOSS_MS (bitsOf w 27 16)
    if bitOf w 5 then (if st = 0 then s.put F.ZTM_FB_STAT_STATE 1 else s)
    else
      let s := s.put F.ZTM_FB_STAT_STATE 0
      if st = 2 then s.raise ⟨.ZTM_EVT, 4, 0⟩ 8 0 0 0 (some 0) 8 0 else s

/-- No qualifying Sync for LOSS_MS (R306): WATCHING goes to ACTIVE; the next reference message has VALID = 0 (R305). -/
def State.fbLoss (s : State) : State :=
  if s.get F.ZTM_FB_STAT_STATE = 1 then
    let s := { s with ztm := { s.ztm with fbPrev := none, fbLastSeq := none, fbLastOwn := none } }
    (s.put F.ZTM_FB_STAT_STATE 2).raise ⟨.ZTM_EVT, 4, 0⟩ 4 0 0 0 (some 0) 8 0
  else s

end Sys2Proof.Machine
end

