-- ==== Sys2Proof/Machine/CanOps.lean ====
section
/-! DEFINITION. The CAN controllers (ch. 15): bit timing and modes, mailboxes, reception and its FIFO, tunnelling, tests and
resets, and the reference messages of the fallback (R305, R307). -/

namespace Sys2Proof.Machine

/-! States (R312) -/

abbrev Can.config : Nat := 0
abbrev Can.syncing : Nat := 1
abbrev Can.active : Nat := 2
abbrev Can.passive : Nat := 3
abbrev Can.busOff : Nat := 4
abbrev Can.recovering : Nat := 5
abbrev Can.retired : Nat := 6

/-- The state of controller k. -/
def State.canState (s : State) (k : Nat) : Nat := s.get F.CAN_STAT_STATE k

/-- The island of controller k (R30). -/
def canIsland (k : Nat) : Nat := 28 + k / 4

/-- Set event bits of a controller, logged for its owner (R400). -/
def State.canEvt (s : State) (k b : Nat) : State := s.raise ⟨.CAN_EVT, 6, 0⟩ (2 ^ b) k 0 0 (s.canOwner k) 5 k

/-- Reservations (R321): mailbox 0 by the Lathe, 63 by the fallback. -/
def State.rsvLathe (s : State) (k : Nat) : Bool :=
  (List.range 64).any fun n => s.stnEn n && !s.stnEth n && s.stnEndpoint n == k
def State.rsvTime (s : State) (k : Nat) : Bool := s.is F.ZTM_FB_CFG_EN && s.get F.ZTM_FB_CFG_CAN == k
def State.mbReserved (s : State) (k m : Nat) : Bool := (m == 0 && s.rsvLathe k) || (m == 63 && s.rsvTime k)

/-- Whether XL_EN acts (R309). -/
def State.xlOn (s : State) (k : Nat) : Bool := s.is F.CAN_CTRL_XL_EN k && (s.canOwner k).any fun d => s.feat d 7

/-! Bit timing (R310) -/

/-- One timing register's fields, with their values: BRP, TSEG1, TSEG2, SJW. -/
def timingOf (w : Nat) : Nat × Nat × Nat × Nat :=
  (bitsOf w 4 0 + 1, bitsOf w 15 8 + 1, bitsOf w 22 16 + 1, bitsOf w 30 24 + 1)

/-- The bit time in quanta, and quanta of 6.25 ns per bit. -/
def bitQuanta (t : Nat × Nat × Nat × Nat) : Nat := 1 + t.2.1 + t.2.2.1
def bitCycles (t : Nat × Nat × Nat × Nat) : Nat := t.1 * bitQuanta t

/-- Whether a timing is valid: field ranges, SJW, at least 8 quanta, and the bit time from `lo` to `hi` cycles of 160 MHz. -/
def timingOk (t : Nat × Nat × Nat × Nat) (brp seg1 seg2 lo hi : Nat) : Bool :=
  decide (t.1 ≤ brp) && decide (t.2.1 ≤ seg1) && decide (t.2.2.1 ≤ seg2) && decide (t.2.2.2 ≤ t.2.2.1) &&
    decide (8 ≤ bitQuanta t) && decide (lo ≤ bitCycles t) && decide (bitCycles t ≤ hi)

/-- The word of a timing register. -/
def State.timing (s : State) (r : RegId) (k : Nat) : Nat × Nat × Nat × Nat := timingOf (regGet s.regs r k 0 0).toNat

/-- Whether every timing that R310 checks is valid: 125 kbit/s to 1 Mbit/s is 1280 to 160 cycles. -/
def State.timingsOk (s : State) (k : Nat) : Bool :=
  let n := s.timing .CAN_NBT k
  timingOk n 32 256 128 160 1280 &&
    (!s.is F.CAN_CTRL_FD_EN k || timingOk (s.timing .CAN_DBT k) 4 128 64 20 (bitCycles n)) &&
    (!s.xlOn k || timingOk (s.timing .CAN_XBT k) 4 128 64 8 (bitCycles n))

/-! Mailboxes (R316 to R320) -/

abbrev Mb.empty : Nat := 0
abbrev Mb.pending : Nat := 1
abbrev Mb.active : Nat := 2
abbrev Mb.committed : Nat := 3

def State.mbState (s : State) (k m : Nat) : Nat := s.get F.CAN_MB_CMD_STATE k m

/-- The reference message that mailbox 63 of controller k holds; it stays there when the fallback's configuration changes. -/
def State.refHeld (s : State) (k : Nat) : Option CanFrame := (s.ztm.fbMsg.filter fun x => x.1 == k).map (·.2)

/-- Whether mailbox m of controller k holds a message of the device itself, which knows no abort and no ONE_SHOT. -/
def State.mbDevice (s : State) (k m : Nat) : Bool := (m == 0 && s.rsvLathe k) || (m == 63 && (s.refHeld k).isSome)

/-- Set the TXDONE bit of mailbox m. -/
def State.txDone (s : State) (k m : Nat) : State :=
  s.put F.CAN_TXDONE_DONE (setBitTo (s.get F.CAN_TXDONE_DONE k (m / 32)) (m % 32) true) k (m / 32)

/-- Mailbox m ends with a RESULT (R319, R320). A reserved mailbox gives up its message: mailbox 0 goes on with the next of its
queue, and the next reference message does not follow a sent one. -/
def State.mbEnd (s : State) (k m res : Nat) : State :=
  if 64 ≤ m then s
  else
    let s := ((s.put F.CAN_MB_CMD_STATE 0 k m).put F.CAN_MB_CMD_ABORT_REQ 0 k m).put F.CAN_MB_CMD_RESULT res k m
    let s := s.txDone k m
    let s := if m = 63 ∧ (s.refHeld k).isSome then
        { s with ztm := { s.ztm with fbMsg := none, fbPrev := if res = 1 then s.ztm.fbPrev else none } }
      else s
    if m = 0 ∧ s.rsvLathe k then
      let q := (storeGet [] s.canLthQ k).drop 1
      let s := { s with canLthQ := storePut [] s.canLthQ k q }
      if q.isEmpty then s else s.put F.CAN_MB_CMD_STATE Mb.pending k 0
    else s

/-- The bytes of message RAM from a byte offset (R316). -/
def State.mramBytes (s : State) (k o n : Nat) : List Nat :=
  (List.range n).map fun i =>
    let a := (o + i) % 8192
    (storeGet 0#32 (s.cn k).mram (a / 4)).toNat / 2 ^ (8 * (a % 4)) % 256

/-- The DLC code of a length (ISO 11898-1). -/
def dlcOf (n : Nat) : Nat :=
  if n ≤ 8 then n else if n ≤ 24 then 8 + (n - 8 + 3) / 4 else if n ≤ 32 then 13 else if n ≤ 48 then 14 else 15

/-- The frame a mailbox sends: the Lathe's message (R188), the reference message (R305), the tunnel's frame (R328), or what the
owner set up (R316). -/
def State.mbFrame (s : State) (k m : Nat) : CanFrame :=
  let blank : CanFrame := ⟨0, false, false, false, false, false, false, 0, 0, false, 0, 0, []⟩
  let own : CanFrame :=
    let n := s.get F.CAN_MB_CTL_LEN k m
    let o := 16 * s.get F.CAN_MB_CTL_OFFSET k m
    let x := s.is F.CAN_MB_CTL_XLF k m
    let rtr := s.is F.CAN_MB_CTL_RTR k m
    let h := s.mramBytes k o 8
    { id := s.get F.CAN_MB_ID_ID k m, ide := s.is F.CAN_MB_ID_IDE k m, rtr := rtr, fdf := s.is F.CAN_MB_CTL_FDF k m
      xlf := x, brs := s.is F.CAN_MB_CTL_BRS k m, esi := false
      sdt := if x then at0 h 0 else 0, vcid := if x then at0 h 2 else 0, sec := x && bitOf (at0 h 1) 0
      af := if x then leNat (slice h 4 4) else 0, dlc := if x then 0 else dlcOf n
      data := if rtr then [] else s.mramBytes k (if x then o + 8 else o) n }
  if m = 64 then (s.cn k).tunRx.headD blank
  else if m = 0 ∧ s.rsvLathe k then
    match storeGet [] s.canLthQ k with
    | x :: _ =>
      { blank with id := x.id, ide := x.ide, fdf := true, brs := true, dlc := dlcOf x.data.length, data := x.data }
    | [] => own
  else if m = 63 then (s.refHeld k).getD own
  else own

/-- The arbitration field of a frame as a number, dominant bits 0 (ISO 11898-1): smaller wins. -/
def arbKey (f : CanFrame) : Nat :=
  if f.ide then f.id / 2 ^ 18 % 2048 * 2 ^ 21 + 3 * 2 ^ 19 + f.id % 2 ^ 18 * 2 + b2n f.rtr
  else f.id % 2048 * 2 ^ 21 + b2n f.rtr * 2 ^ 20

/-- The mailbox selected among the pending ones (R318): least arbitration field, then lower number; the tunnel's last. -/
def State.selectMb (s : State) (k : Nat) : Option Nat :=
  let p := below 64 fun m => s.mbState k m == Mb.pending
  match p with
  | [] => if (s.cn k).tunRx.isEmpty then none else some 64
  | m :: rest =>
    some (rest.foldl (fun a b => if arbKey (s.mbFrame k b) < arbKey (s.mbFrame k a) then b else a) m)

/-- At bus idle the selected mailbox starts its frame (R314, R318). -/
def State.canStart (s : State) (k : Nat) : State :=
  if !(s.canState k == Can.active || s.canState k == Can.passive) || (s.cn k).mode != 1 || (s.cn k).att.isSome then s
  else
    match s.selectMb k with
    | none => s
    | some m =>
      let s := if m < 64 then s.put F.CAN_MB_CMD_STATE Mb.active k m else s
      s.putCn k { s.cn k with att := some ⟨m, s.mbFrame k m, s.raw32, s.now⟩ }

/-- The attempt reaches a withdrawal point (R320): `res` is the result of a ONE_SHOT without abort. -/
def State.mbWithdraw (s : State) (k res : Nat) : State :=
  match (s.cn k).att with
  | none => s
  | some t =>
    let s := s.putCn k { s.cn k with att := none }
    if 64 ≤ t.mb then s
    else if s.mbDevice k t.mb then s.put F.CAN_MB_CMD_STATE Mb.pending k t.mb
    else if s.is F.CAN_MB_CMD_ABORT_REQ k t.mb then s.mbEnd k t.mb 2
    else if s.is F.CAN_MB_CTL_ONE_SHOT k t.mb then s.mbEnd k t.mb res
    else s.put F.CAN_MB_CMD_STATE Mb.pending k t.mb

/-- Every PENDING mailbox ends ABORTED (R313). -/
def State.mbAbortPending (s : State) (k : Nat) : State :=
  s.each (below 64 fun m => s.mbState k m == Mb.pending) fun s m => s.mbEnd k m 2

/-- The MODE that waits takes effect at bus idle (R312, R313). -/
def State.modeIdle (s : State) (k : Nat) : State :=
  match (s.cn k).att, (s.cn k).modeNext with
  | none, some m =>
    let s := s.putCn k { s.cn k with mode := m, modeNext := none }
    if m = 0 then (s.put F.CAN_STAT_STATE Can.config k).mbAbortPending k else s
  | _, _ => s

/-- A MODE value is judged (R313): in CONFIG by the timings, while on the bus it waits for bus idle, otherwise it is refused. -/
def State.modeWrite (s : State) (k m : Nat) : State :=
  let st := s.canState k
  if st = Can.config then
    if m = 0 then s
    else if s.timingsOk k then
      ((s.put F.CAN_CTRL_MODE m k).put F.CAN_STAT_STATE Can.syncing k).putCn k
        { s.cn k with mode := m, modeNext := none }
    else s.put F.CAN_STAT_CFG_REJ 1 k
  else if st = Can.syncing ∨ st = Can.active ∨ st = Can.passive then
    ((s.put F.CAN_CTRL_MODE m k).putCn k { s.cn k with modeNext := some m }).modeIdle k
  else s.put F.CAN_STAT_CFG_REJ 1 k

/-- A write of CAN_CTRL: the format fields only in CONFIG, then MODE. In the bare state every controller is disabled, and no MODE takes it out
of CONFIG (R16; log entry 127). -/
def State.canCtrl (s : State) (k w : Nat) : State :=
  let s := if s.canState k = Can.config then
      (((s.put F.CAN_CTRL_FD_EN (bitsOf w 4 4) k).put F.CAN_CTRL_XL_EN (bitsOf w 5 5) k).put F.CAN_CTRL_XL_FAST
        (bitsOf w 6 6) k).put F.CAN_CTRL_XL_ES (bitsOf w 7 7) k |>.put F.CAN_CTRL_TDC_EN (bitsOf w 8 8) k
    else s
  if s.bare then (if bitsOf w 1 0 = 0 then s else s.put F.CAN_STAT_CFG_REJ 1 k) else s.modeWrite k (bitsOf w 1 0)

/-- A write of CAN_RECOVER (R313). -/
def State.canRecover (s : State) (k w : Nat) : State :=
  if bitsOf w 31 16 ≠ 0x0C4B ∨ !bitOf w 0 then s
  else if s.canState k = Can.busOff then s.put F.CAN_STAT_STATE Can.recovering k
  else s.put F.CAN_STAT_REC_REJ 1 k

/-- Valid data lengths (R317). -/
def lenOk (fdf xlf : Bool) (n : Nat) : Bool :=
  if xlf then decide (1 ≤ n ∧ n ≤ 2048)
  else if fdf then decide (n ≤ 8) || [12, 16, 20, 24, 32, 48, 64].contains n
  else decide (n ≤ 8)

/-- Whether a REQ is refused (R317). -/
def State.badRequest (s : State) (k m : Nat) : Bool :=
  let g := fun x => s.is x k m
  let fdf := g F.CAN_MB_CTL_FDF
  let xlf := g F.CAN_MB_CTL_XLF
  let ide := g F.CAN_MB_ID_IDE
  let id := s.get F.CAN_MB_ID_ID k m
  let n := s.get F.CAN_MB_CTL_LEN k m
  let rtr := g F.CAN_MB_CTL_RTR
  let region := if rtr then 0 else n + (if xlf then 8 else 0)
  s.canState k == Can.config || s.canState k == Can.retired || (fdf && xlf) || (fdf && !s.is F.CAN_CTRL_FD_EN k) ||
    (xlf && !s.xlOn k) || (g F.CAN_MB_CTL_BRS && !fdf) || (rtr && (fdf || xlf)) || (xlf && (ide || decide (2047 < id))) ||
    (!ide && decide (2047 < id)) || !lenOk fdf xlf n || decide (8192 < 16 * s.get F.CAN_MB_CTL_OFFSET k m + region)

/-- REQ of mailbox m (R317). -/
def State.mbReq (s : State) (k m : Nat) : State :=
  if s.mbState k m ≠ Mb.empty then s
  else if s.badRequest k m then s.mbEnd k m 6
  else (s.put F.CAN_MB_CMD_STATE Mb.pending k m).put F.CAN_MB_CMD_RESULT 0 k m

/-- ABORT of mailbox m (R320). -/
def State.mbAbort (s : State) (k m : Nat) : State :=
  let st := s.mbState k m
  if st = Mb.empty then s
  else if st = Mb.pending then s.mbEnd k m 2
  else s.put F.CAN_MB_CMD_ABORT_REQ 1 k m

/-- A write of CAN_MB_CMD: nothing on a reserved mailbox, or with REQ and ABORT together. -/
def State.mbCmd (s : State) (k m w : Nat) : State :=
  if s.mbReserved k m || (bitOf w 0 && bitOf w 1) then s
  else if bitOf w 0 then s.mbReq k m
  else if bitOf w 1 then s.mbAbort k m
  else s

/-! The bus (R312, R315, R319, R320) -/

/-- The counters take new values; WARN, PASSIVE, BUS_OFF and the state follow (R312, R315). -/
def State.canCount (s : State) (k tec rec_ : Nat) : State :=
  let t0 := s.get F.CAN_ERRC_TEC k
  let r0 := s.get F.CAN_ERRC_REC k
  let s := (s.put F.CAN_ERRC_TEC tec k).put F.CAN_ERRC_REC rec_ k
  let s := s.when (tec != t0) fun s => s.sample 11 k tec
  let s := s.when (rec_ != r0) fun s => s.sample 11 (k + 16) rec_
  let s := s.when ((decide (t0 < 96) && decide (96 ≤ tec)) || (decide (r0 < 96) && decide (96 ≤ rec_))) fun s =>
    s.canEvt k 0
  let st := s.canState k
  if 255 < tec then (s.put F.CAN_STAT_STATE Can.busOff k).canEvt k 2
  else if st = Can.active ∧ (127 < tec ∨ 127 < rec_) then (s.put F.CAN_STAT_STATE Can.passive k).canEvt k 1
  else if st = Can.passive ∧ tec ≤ 127 ∧ rec_ ≤ 127 then s.put F.CAN_STAT_STATE Can.active k
  else s

/-- Whether a controller takes part in bus traffic. -/
def State.canOn (s : State) (k : Nat) : Bool := s.canState k == Can.active || s.canState k == Can.passive

/-- A detected error (R312, R314, R315): LEC and ERRS, the attempt, and in NORMAL mode the counters that ISO 11898-1 leaves. -/
def State.canError (s : State) (k lec tec rec_ : Nat) : State :=
  if !s.canOn k then s
  else
    let s := ((s.put F.CAN_LEC_LEC lec k).bump F.CAN_LEC_ERRS 1 k).mbWithdraw k 5
    let s := if (s.cn k).mode = 1 then s.canCount k tec rec_
      else if (s.cn k).mode = 2 then s.put F.CAN_STAT_STATE Can.syncing k
      else s
    s.modeIdle k

/-- 11 recessive bits end SYNCING (R312). -/
def State.canIntegrated (s : State) (k : Nat) : State :=
  if s.canState k ≠ Can.syncing ∨ (s.cn k).hot then s
  else if s.get F.CAN_ERRC_TEC k > 127 ∨ s.get F.CAN_ERRC_REC k > 127 then
    (s.put F.CAN_STAT_STATE Can.passive k).canEvt k 1
  else s.put F.CAN_STAT_STATE Can.active k

/-- 128 occurrences of 11 recessive bits end RECOVERING (R312, R315). -/
def State.canRecovered (s : State) (k : Nat) : State :=
  if s.canState k ≠ Can.recovering then s
  else ((s.canCount k 0 0).put F.CAN_STAT_STATE Can.active k).canEvt k 3

/-- A protocol exception (R309, R312): an attempt that is under way has lost arbitration to the frame of the disabled format. -/
def State.canPex (s : State) (k : Nat) : State :=
  if s.canOn k then (((s.mbWithdraw k 4).put F.CAN_STAT_STATE Can.syncing k).canEvt k 4).modeIdle k else s

/-- Overtemperature shutdown of a transceiver begins or ends (R312, R331). -/
def State.canHot (s : State) (k : Nat) (hot : Bool) : State :=
  let s := s.putCn k { s.cn k with hot := hot }
  if hot ∧ s.canOn k then ((s.mbWithdraw k 5).put F.CAN_STAT_STATE Can.syncing k).modeIdle k else s

/-- Arbitration is lost (R320). -/
def State.canLost (s : State) (k : Nat) : State :=
  match (s.cn k).att with
  | some t => if 64 ≤ t.mb ∨ s.mbState k t.mb = Mb.active then (s.mbWithdraw k 4).modeIdle k else s
  | none => s

/-- The data phase of a frame sent by controller k begins (R311): faster than 1 Mbit/s (fewer than 160 cycles a bit) under TDC_EN it measures
the loop delay, whose value no row carries (a free value). -/
def State.canDataPhase (s : State) (k : Nat) (f : CanFrame) : State :=
  let cycles := if f.xlf then bitCycles (s.timing .CAN_XBT k) else if f.fdf && f.brs then bitCycles (s.timing .CAN_DBT k) else 160
  if s.is F.CAN_CTRL_TDC_EN k && decide (cycles < 160) then s.free.2.put F.CAN_TDC_TDCV (s.free.1 % 256) k else s

/-- The arbitration field ends with the controller as transmitter (R319), and the data phase begins (R311). -/
def State.canWon (s : State) (k : Nat) : State :=
  match (s.cn k).att with
  | some t => (if t.mb < 64 then s.put F.CAN_MB_CMD_STATE Mb.committed k t.mb else s).canDataPhase k t.frame
  | none => s

/-! Reception (R322 to R325) and the fallback's messages (R305, R307) -/

/-- A reference message's data (R305). -/
def refData (prev : Option Stamp) (seq : Nat) : List Nat :=
  match prev with
  | some p => leBytes 4 p.ns ++ leBytes 2 p.ep ++ [seq % 256, 1]
  | none => [0, 0, 0, 0, 0, 0, seq % 256, 0]

/-- A period of the master passes (R307): a reference message is queued, or the period is skipped. -/
def State.refPeriod (s : State) : State :=
  let k := s.get F.ZTM_FB_CFG_CAN
  if s.get F.ZTM_FB_STAT_STATE ≠ 2 ∨ s.is F.ZTM_FB_CFG_ROLE then s
  else if s.mbState k 63 ≠ Mb.empty then s.bump F.ZTM_FB_STAT_SKIPS 1
  else
    let seq := (s.get F.ZTM_FB_STAT_SEQ + 1) % 256
    let f : CanFrame :=
      ⟨s.get F.ZTM_FB_REF_ID, s.is F.ZTM_FB_REF_IDE, false, false, false, false, false, 0, 0, false, 0, 8,
        refData s.ztm.fbPrev seq⟩
    ({ s with ztm := { s.ztm with fbMsg := some (k, f) } }.put F.ZTM_FB_STAT_SEQ seq).put F.CAN_MB_CMD_STATE Mb.pending k 63

/-- A reference message received at a start of frame `at_` (R305, R307). -/
def State.refReceived (s : State) (data : List Nat) (at_ : Stamp) : State :=
  if s.get F.ZTM_FB_STAT_STATE ≠ 2 ∨ !s.is F.ZTM_FB_CFG_ROLE ∨ data.length ≠ 8 then s
  else
    let seq := at0 data 6
    let follows := s.ztm.fbLastSeq == some ((seq + 255) % 256)
    let own := s.ztm.fbLastOwn
    let s := { s with ztm := { s.ztm with fbLastSeq := some seq, fbLastOwn := some at_ } }.put F.ZTM_FB_STAT_SEQ seq
    match own with
    | some o =>
      if follows && bitOf (at0 data 7) 0 then
        let s := s.put F.ZTM_FB_OFFS_OFFS ((leNat (slice data 0 4) + 2 ^ 32 - o.ns) % 2 ^ 32)
        let s := s.put F.ZTM_FB_STAT_EP_DIFF (b2n (leNat (slice data 4 2) != o.ep))
        s.raise ⟨.ZTM_EVT, 4, 0⟩ 16 0 0 0 (some 0) 8 0
      else s
    | none => s

/-- The bytes of a CAN_RX record (R325). -/
def canRecord (x : CanRx) : List Nat :=
  let f := x.frame
  let xl := fun n => if f.xlf then n else 0
  leBytes 4 (f.id + b2n f.ide * 2 ^ 29 + b2n f.rtr * 2 ^ 30) ++
    leBytes 4 (f.data.length + b2n f.fdf * 2 ^ 12 + b2n f.xlf * 2 ^ 13 + b2n f.brs * 2 ^ 14 + b2n f.esi * 2 ^ 15 +
      xl (f.sdt % 256) * 2 ^ 16 + xl (f.vcid % 256) * 2 ^ 24) ++
    leBytes 4 (xl f.af) ++
    leBytes 4 (x.filter + b2n x.echo * 256 + xl (b2n f.sec) * 512 + (if f.xlf then 0 else f.dlc) * 4096) ++ f.data

/-- A frame for the ring (R324): into the FIFO of 32 frames or 16 KiB of records, or dropped and counted. -/
def State.canToRing (s : State) (k : Nat) (x : CanRx) : State :=
  if (s.ringOn Kind.canRx k).isNone then s.bump F.CAN_RXDROP_NO_RING 1 k
  else
    let q := (s.cn k).rx
    if 32 ≤ q.length ∨ 16384 < sumList ((q ++ [x]).map fun y => (canRecord y).length) then
      (s.bump F.CAN_RXDROP_OVERRUN 1 k).canEvt k 5
    else s.putCn k { s.cn k with rx := q ++ [x] }

/-- The cells and the frame of a tunnel enter the switch at the host port (R326, R327). -/
def State.tunnelQueue (s : State) (k d : Nat) (l : List Nat) : State :=
  let q := s.get F.CAN_ACF_CFG_HOSTQ k
  let f : InFrame := ⟨30 + q / 8, l, s.now, none, none, 0, false, s.ztm.steps, some (d, q)⟩
  { s with dvt := { s.dvt with ingress := s.dvt.ingress ++ [f] } }.charge d (cellsOf l.length)

/-- The Ethernet frame of a CAN frame (R327; the header layouts are those of IEEE 1722-2016). -/
def State.tunnelFrame (s : State) (k : Nat) (f : CanFrame) : List Nat :=
  let lo := s.get F.CAN_ACF_SID_LO_VALUE k
  let hi := s.get F.CAN_ACF_SID_HI_VALUE k
  let brief := s.is F.CAN_ACF_CFG_BRIEF k
  let pad := (4 - f.data.length % 4) % 4
  let pay := f.data ++ List.replicate pad 0
  let quads := (if brief then 8 else 16) / 4 + pay.length / 4
  let flags := pad * 64 + b2n f.rtr * 16 + b2n f.ide * 8 + b2n f.brs * 4 + b2n f.fdf * 2 + b2n f.esi
  let head := beBytes 2 ((if brief then 2 else 1) * 512 + quads) ++ [flags, s.get F.CAN_ACF_CFG_BUS_ID k]
  let msg := head ++ (if brief then [] else List.replicate 8 0) ++ beBytes 4 f.id ++ pay
  let ntscf := [0x82, 0x80 + msg.length / 256 % 8, msg.length % 256, (s.cn k).seq] ++ beBytes 4 hi ++ beBytes 4 lo
  let mac := fun h l => beBytes 2 h ++ beBytes 4 l
  padTo (mac (s.get F.CAN_ACF_DA_HI_VALUE k) (s.get F.CAN_ACF_DA_LO_VALUE k) ++
    mac (s.get F.CAN_ACF_SA_HI_VALUE k) (s.get F.CAN_ACF_SA_LO_VALUE k) ++ [0x22, 0xF0] ++ ntscf ++ msg) 60

/-- A frame routed to the tunnel (R327). -/
def State.canToTunnel (s : State) (k : Nat) (f : CanFrame) : State :=
  if !s.tunnelRuns k || !s.is F.CAN_ACF_CFG_DIR_TX k then s
  else if f.xlf then s.bump F.CAN_ACF_STAT_XL_SKIP 1 k
  else
    match s.canOwner k with
    | none => s
    | some d =>
      let l := s.tunnelFrame k f
      let waiting := (s.cn k).tunTx
      let free := waiting.isEmpty && decide (s.get F.DVT_CHARGE_CELLS d < s.get F.DRW_G_HOLD_AMOUNT d 2)
      if !free && decide (16 ≤ waiting.length) then s.bump F.CAN_ACF_STAT_TX_OVF 1 k
      else
        let s := s.putCn k { s.cn k with seq := ((s.cn k).seq + 1) % 256 }
        if free then s.tunnelQueue k d l else s.putCn k { s.cn k with tunTx := waiting ++ [l] }

/-- The first waiting tunnel frame is queued once the owner's charge is below its holding (R327). -/
def State.tunnelRelease (s : State) (k : Nat) : State :=
  match (s.cn k).tunTx, s.canOwner k with
  | l :: rest, some d =>
    if s.get F.DVT_CHARGE_CELLS d < s.get F.DRW_G_HOLD_AMOUNT d 2 then
      (s.putCn k { s.cn k with tunTx := rest }).tunnelQueue k d l
    else s
  | _, _ => s

/-- Whether filter i of controller k takes a frame (R323). -/
def State.filterHits (s : State) (k : Nat) (f : CanFrame) (i : Nat) : Bool :=
  s.is F.CAN_FLT_CTL_EN k i && (s.is F.CAN_FLT_ID_IDE k i == f.ide) &&
    decide ((f.id ^^^ s.get F.CAN_FLT_ID_ID k i) &&& s.get F.CAN_FLT_MASK_MASK k i = 0) &&
    bitOf (s.get F.CAN_FLT_CTL_FMT k i) (if f.xlf then 2 else if f.fdf then 1 else 0)

/-- The station an identifier of controller k belongs to: its OUT, its IN, or a SYNC (R188). -/
def State.canStation (s : State) (k : Nat) (f : CanFrame) : Option Nat :=
  (List.range 64).find? fun n =>
    s.stnEn n && !s.stnEth n && s.stnEndpoint n == k &&
      ((f.ide == s.stnCanIde n && (f.id == s.stnCanId n || f.id == s.stnCanId n + 1)) ||
        (f.ide == s.stnSyncIde && f.id == s.stnSyncId))

/-- Rules 2 to 5 of R323. -/
def State.canRoute (s : State) (k : Nat) (f : CanFrame) (raw : Nat) (at_ : Stamp) (echo : Bool) : State :=
  match s.canStation k f with
  | some _ =>
    if s.latheRuns then s.stnMessage false k (f.id + 2 ^ 29 * b2n f.ide) f.data else s
  | none =>
    if s.rsvTime k ∧ f.id = s.get F.ZTM_FB_REF_ID ∧ f.ide = s.is F.ZTM_FB_REF_IDE then
      s.refReceived (if f.fdf || f.xlf || f.rtr then [] else f.data) at_
    else
      match (List.range 32).find? (s.filterHits k f) with
      | some i =>
        let s := s.bump F.CAN_FLT_HITS_HITS 1 k i
        let a := s.get F.CAN_FLT_CTL_ACTION k i
        let s := if a = 0 ∨ a = 3 then s.canToRing k ⟨f, raw, i, echo⟩ else s
        if a = 2 ∨ a = 3 then s.canToTunnel k f else s
      | none => if s.is F.CAN_RXCFG_DEFAULT k then s.canToRing k ⟨f, raw, 63, echo⟩ else s

/-- A trace of a frame sent or received (R400). -/
def State.canTrace (s : State) (k : Nat) (f : CanFrame) : State :=
  match s.canOwner k with
  | some d => s.trace d 2 k f.id f.data.length
  | none => s

/-- A frame received without error (R322, R323), `ago` ns of raw time after its start of frame, with the counters that ISO
11898-1 leaves; a frame of a disabled format is a protocol exception (R309). -/
def State.canReceive (s : State) (k : Nat) (f : CanFrame) (ago tec rec_ : Nat) : State :=
  if !s.canOn k then s
  else if (f.fdf && !s.is F.CAN_CTRL_FD_EN k) || (f.xlf && !s.xlOn k) then s.canPex k
  else
    let raw := (s.ztm.raw - ago) % 2 ^ 32
    let at_ : Stamp := ⟨(s.ztm.zone + 2 ^ 64 - ago * s.incrVal / 2 % 2 ^ 64) % 2 ^ 64 / 2 ^ 32, s.now.ep⟩
    let s := s.when ((s.cn k).mode == 1) fun s => s.canCount k tec rec_
    ((s.canTrace k f).canRoute k f raw at_ false).modeIdle k

/-- The frame ends successfully (R320, R322, R307). -/
def State.canSent (s : State) (k tec rec_ : Nat) : State :=
  match (s.cn k).att with
  | none => s
  | some t =>
    if t.mb < 64 ∧ s.mbState k t.mb ≠ Mb.committed then s
    else
      let s := (s.putCn k { s.cn k with att := none }).emit 2 k t.frame.id t.frame.data
      let s := if t.mb = 64 then s.putCn k { s.cn k with tunRx := (s.cn k).tunRx.drop 1 }
        else if 64 < t.mb then s
        else
          let ref_ := t.mb == 63 && (s.refHeld k).isSome
          let s := s.when ref_ fun s => { s with ztm := { s.ztm with fbPrev := some t.at_ } }
          (s.put F.CAN_MB_STAMP_RAW t.raw k t.mb).mbEnd k t.mb (if s.is F.CAN_MB_CMD_ABORT_REQ k t.mb then 3 else 1)
      let s := (s.canCount k tec rec_).canTrace k t.frame
      let s := s.when (s.is F.CAN_RXCFG_SELF_RX k) fun s => s.canRoute k t.frame t.raw t.at_ true
      s.modeIdle k

/-- The oldest frame of the FIFO goes into a ready CAN_RX descriptor (R324). -/
def State.canDeliver (s : State) (k : Nat) : State :=
  match (s.cn k).rx, s.ringOn Kind.canRx k with
  | x :: rest, some r =>
    if s.ringReady r && (s.rg r).src.isEmpty then
      let s := s.putCn k { s.cn k with rx := rest }
      s.putRg r { s.rg r with src := canRecord x, stamp := ⟨x.raw, 0⟩, off := 0 }
    else s
  | _, _ => s

/-! Message RAM, tunnel setup and the tunnel's receive side -/

/-- The word of message RAM at CAN_MRAM_IDX, and the step that AUTO makes (R316). -/
def State.mramWord (s : State) (k : Nat) : Word := storeGet 0#32 (s.cn k).mram (s.get F.CAN_MRAM_IDX_OFFSET k)
def State.mramStep (s : State) (k : Nat) : State :=
  if s.is F.CAN_MRAM_IDX_AUTO k then s.incr F.CAN_MRAM_IDX_OFFSET k else s
def State.mramWrite (s : State) (k : Nat) (w : Word) : State :=
  (s.putCn k { s.cn k with mram := storePut 0#32 (s.cn k).mram (s.get F.CAN_MRAM_IDX_OFFSET k) w }).mramStep k

/-- Whether a write of a tunnel register is ignored (R326): by the owner before it has accepted F8. -/
def State.acfDenied (s : State) (k : Nat) (t : Tag) : Bool :=
  !t.secure && t.drawer != 0 && !s.feat t.drawer 8 && s.canOwner k == some t.drawer.val

/-- A write of CAN_ACF_CFG (R326, R327). -/
def State.acfConfig (s : State) (k : Nat) (t : Tag) (w : Nat) : State :=
  if s.acfDenied k t || !(s.canOwner k).any fun d => s.ownsHostQ d (bitsOf w 21 16) then s.put F.CAN_ACF_CFG_ACF_REJ 1 k
  else
    let s := s.store .CAN_ACF_CFG w k
    if bitOf w 0 then s.putCn k { s.cn k with seq := 0 } else s

/-- One ACF message of a tunnel frame (R328): into the FIFO, skipped, or dropped. -/
def State.acfMessage (s : State) (k : Nat) (m : List Nat) : State :=
  let ty := at0 m 0 / 2
  let flags := at0 m 2
  let head := if ty = 1 then 16 else 8
  let n := m.length - head - flags / 64
  let fdf := bitOf flags 1
  if (ty ≠ 1 ∧ ty ≠ 2) ∨ at0 m 3 % 32 ≠ s.get F.CAN_ACF_CFG_BUS_ID k ∨ (fdf ∧ !s.is F.CAN_CTRL_FD_EN k) ∨
      (!fdf ∧ 8 < n) then s.bump F.CAN_ACF_STAT_SKIP 1 k
  else if 16 ≤ (s.cn k).tunRx.length then s.bump F.CAN_ACF_STAT_RX_OVF 1 k
  else
    let ide := bitOf flags 3
    let id := beNat (slice m (head - 4) 4) % (if ide then 2 ^ 29 else 2 ^ 11)
    let data := (padTo (slice m head n) (canFdLen n)).take 64
    let f : CanFrame :=
      ⟨id, ide, bitOf flags 4, fdf, false, bitOf flags 2, bitOf flags 0, 0, 0, false, 0, dlcOf data.length,
        if bitOf flags 4 then [] else data⟩
    s.putCn k { s.cn k with tunRx := (s.cn k).tunRx ++ [f] }

/-- The ACF messages of an NTSCF payload, in order. -/
def acfSplit (l : List Nat) : Nat → List (List Nat)
  | 0 => []
  | fuel + 1 =>
    let n := 4 * (at0 l 0 % 2 * 256 + at0 l 1)
    if l.length < 8 ∨ n < 8 ∨ l.length < n then [] else l.take n :: acfSplit (l.drop n) fuel

/-- A frame at the head of the tunnel's host queue is taken (R328). -/
def State.acfReceive (s : State) (k : Nat) : State :=
  let q := s.get F.CAN_ACF_CFG_HOSTQ k
  match s.queueOf (240 + q) with
  | x :: rest =>
    if s.tunnelOf q x.data = some k then
      let s := (s.putQueue (240 + q) rest).release_ (240 + q) x
      let a := (avtpOf x.data).getD []
      let n := at0 a 1 % 8 * 256 + at0 a 2
      s.each (acfSplit (slice a 12 n) 512) fun s m => s.acfMessage k m
    else s
  | [] => s

/-! Resets, tests and retirement (R330 to R332) -/

/-- An ISL of a controller's island beside its registers (R332): mailboxes end, and the FIFOs are emptied, the Lathe's queue of mailbox 0
with them. -/
def State.canIslReset (s : State) (k : Nat) : State :=
  let s := { s.putCn k { s.cn k with att := none } with canLthQ := storeErase s.canLthQ k }
  let s := s.each (below 64 fun m => s.mbState k m != Mb.empty) fun s m => s.mbEnd k m 2
  s.putCn k { CanSt.rst with mram := (s.cn k).mram, hot := (s.cn k).hot }

/-- A SQUASH of a controller's owner (R330): mailboxes withdraw, and the tunnel's frames are discarded and counted; the attempt of one that is on
the bus goes on as that of a frame no longer in the FIFO (65), which nothing sends again. -/
def State.canSquash (s : State) (k : Nat) : State :=
  let ms := below 64 fun m => s.mbState k m != Mb.empty && !s.mbReserved k m
  let s := s.each ms fun s m => s.mbAbort k m
  let x := s.cn k
  let s := (s.bump F.CAN_ACF_STAT_RX_OVF x.tunRx.length k).bump F.CAN_ACF_STAT_TX_OVF x.tunTx.length k
  s.putCn k { s.cn k with
    tunTx := [], tunRx := [], att := x.att.map fun t => if t.mb = 64 then { t with mb := 65 } else t }

/-- Whether a controller has nothing pending of its owner's (R92, R330). -/
def State.canDrained (s : State) (k : Nat) : Bool :=
  (s.cn k).tunRx.isEmpty && (List.range 64).all fun m => s.mbReserved k m || s.mbState k m == Mb.empty

/-- A permanent fault retires a controller (R331). -/
def State.canEnterRetired (s : State) (k : Nat) : State := (s.put F.CAN_STAT_STATE Can.retired k).canEvt k 6

/-- The loopback test at a start (R331). -/
def State.canTest (s : State) (k : Nat) (pass : Bool) : State :=
  let named := (s.canOwner k).isSome || s.rsvLathe k || s.rsvTime k
  if !named || s.unitOut 4 k then s
  else
    let s := (s.put F.CAN_STAT_TEST_FAIL (b2n !pass) k).startTest 4 k 0x06 ((s.canOwner k).getD 0) pass
    if s.unitOut 4 k then s.canEnterRetired k else s

end Sys2Proof.Machine
end

