-- ==== Sys2Proof/Machine/DowelOps.lean ====
section
/-! DEFINITION. The Dowel bridge (ch. 16): functions and the link, semaphores and reservations, prefetched lines, posted errors,
fences, and the delivery of interrupts (R351, R352, R228). -/

namespace Sys2Proof.Machine

/-! Functions and the link (R333 to R337) -/

/-- Whether function f exists and is enabled (R334). -/
def State.fnExists (s : State) (f : Nat) : Bool := f == 0 || (s.dwl.vfEn && decide (f < s.drw.count))

/-- Replace the configuration of function f. -/
def State.putFn (s : State) (f : Nat) (x : FnSt) : State :=
  { s with dwl := { s.dwl with fn := storePut FnSt.rst s.dwl.fn f x } }

/-- The entry of an MSI-X table: address, data and the mask bit, set after a reset. -/
def State.msixEntry (s : State) (f v : Nat) : Nat × Nat × Bool := storeGet (0, 0, true) s.dwl.msix (64 * f + v)

/-- A configuration write to function f; clearing VF Enable is an event of its own. -/
def State.cfgWrite (s : State) (f : Nat) : CfgWrite → State
  | .bme b => s.putFn f { s.fn f with bme := b }
  | .mse b => s.putFn f { s.fn f with mse := b }
  | .msixEnable b => s.putFn f { s.fn f with msix := b }
  | .functionMask b => s.putFn f { s.fn f with fmask := b }
  | .dState b => s.putFn f { s.fn f with d3 := b }
  | .completionTimeout v => s.putFn f { s.fn f with cto := v.val }
  | .vfEnable => if f = 0 then { s with dwl := { s.dwl with vfEn := true } } else s
  | .msixEntry v a d m =>
    { s with dwl := { s.dwl with msix := storePut (0, 0, true) s.dwl.msix (64 * f + v.val) (a, d, m) } }

/-- The configuration of every function returns to its reset values (R337). -/
def State.cfgReset (s : State) : State :=
  { s with dwl := { s.dwl with fn := [], vfEn := false, msix := [], pba := [] } }

/-- The data link comes up at a speed and width, or goes down. -/
def State.linkIsUp (s : State) (speed width : Nat) : State :=
  ((s.cfgReset.put F.DWL_LINK_DL_UP 1).put F.DWL_LINK_SPEED speed).put F.DWL_LINK_WIDTH width
def State.linkIsDown (s : State) : State :=
  if s.is F.DWL_LINK_DL_UP then (s.put F.DWL_LINK_DL_UP 0).bump F.DWL_LINK_DOWNS 1 else s

/-! Semaphores (R339 to R341) -/

/-- Whether DWL emulates atomics at an address: every one it reaches but system SRAM and DRAM. -/
def emulated (a : Nat) : Bool := !isDevMem a

/-- The semaphore of a word address. -/
def semOf (a : Nat) : Nat := a / 4 % 64

/-- The hart whose LR.W reservation holds semaphore k. -/
def State.semHolder (s : State) (k : Nat) : Option Nat :=
  (List.range 6).find? fun h =>
    storeGet 0 s.dwl.resv h != 0 && semOf (storeGet 0 s.dwl.resv h - 1) == k

/-- Whether an access waits for a semaphore: another hart's reservation holds it, or it is no LR.W or SC.W of the holder. -/
def State.semBlocks (s : State) (a : Access) : Bool :=
  emulated a.addr &&
    match s.semHolder (semOf a.addr) with
    | none => false
    | some h => !((a.op == .sc || a.op == .lr) && a.tag.src == .core && a.num == h)

/-- A hart's reservation ends, and its semaphore is released. -/
def State.resvEnd (s : State) (h : Nat) : State :=
  match storeGet 0 s.dwl.resv h with
  | 0 => s
  | a + 1 =>
    let k := semOf a
    let s := { s with dwl := { s.dwl with resv := storePut 0 s.dwl.resv h 0 } }
    ((s.put F.DWL_SEM_HELD 0 k).put F.DWL_SEM_LR 0 k).put F.DWL_SEM_DRAWER 0 k

/-- A hart takes a reservation on a word. -/
def State.resvTake (s : State) (h d a : Nat) : State :=
  let s := s.resvEnd h
  let k := semOf a
  let s := { s with dwl := { s.dwl with resv := storePut 0 s.dwl.resv h (a + 1) } }
  ((s.put F.DWL_SEM_HELD 1 k).put F.DWL_SEM_LR 1 k).put F.DWL_SEM_DRAWER d k

/-! Prefetched lines (R342 to R344) -/

/-- A line is discarded; one that served nothing counts. -/
def State.lineDrop (s : State) (p : PLine → Bool) : State :=
  let gone := s.dwl.lines.filter p
  let s := { s with dwl := { s.dwl with lines := s.dwl.lines.filter fun x => !p x } }
  s.each gone fun s x => if x.served then s else s.bump F.DWL_REGION_DISC_COUNT 1 x.region

/-- A write reaches DWL: the requester's lines, and every line of its block, are discarded (R343). -/
def State.lineWrite (s : State) (t : Tag) (num a : Nat) : State :=
  s.lineDrop fun x => (x.tag == t && x.num == num) || x.block == a / 64

/-- The word a line may serve (R343), with its place in the list. -/
def State.lineServe (s : State) (t : Tag) (num a : Nat) : Option (PLine × Nat) :=
  s.dwl.lines.findSome? fun x =>
    if x.tag = t ∧ x.num = num ∧ x.block = a / 64 ∧ s.ztm.raw ≤ x.at_ + 200 then
      (x.words.find? (·.1 == a % 64)).map fun w => (x, w.2)
    else none

/-- A read has been served from a line. -/
def State.lineServed (s : State) (x : PLine) : State :=
  let mark := fun (y : PLine) => if y = x then { y with served := true } else y
  { s with dwl := { s.dwl with lines := s.dwl.lines.map mark } }.bump F.DWL_REGION_HITS_COUNT 1 x.region

/-- A new line takes its place; beyond 32 the oldest goes. -/
def State.lineAdd (s : State) (x : PLine) : State :=
  if x.words.isEmpty then s
  else
    let s := match s.dwl.lines with
      | y :: _ => if 32 ≤ s.dwl.lines.length then s.lineDrop (· == y) else s
      | [] => s
    { s with dwl := { s.dwl with lines := s.dwl.lines ++ [x] } }

/-- The region an address lies in, when it allows a prefetch, with its end (R342). -/
def State.regionOf (s : State) (a : Nat) : Option (Nat × Nat) :=
  (List.range 32).findSome? fun r =>
    let base := s.imgF 8 4 r 0 27 0 * 4096
    let top := base + s.imgF 8 4 r 1 27 0 * 4096
    if s.imgF 8 4 r 2 1 0 == 3 && decide (base ≤ a ∧ a < top) then
      some (r, top)
    else none

/-! Posted errors and fences (R347 to R350) -/

/-- Waiting posted-error records go to the drawer's ring while it has a descriptor ready (R347, R348). -/
def State.perrDeliver (s : State) (d : Nat) : State :=
  match storeGet [] s.dwl.perr d, s.ringOf d Kind.postedErr with
  | x :: rest, some r =>
    if s.ringReady r && (s.rg r).src.isEmpty then
      if (s.rg r).desc.elim 0 (·.len) < 32 then s.putRg r { s.rg r with ready := true }
      else
        let lost := storeGet 0 s.dwl.perrLost d
        let s := { s with dwl := { s.dwl with
          perr := storePut [] s.dwl.perr d rest, perrLost := storePut 0 s.dwl.perrLost d 0 } }
        s.addRecord r (x.head ++ leBytes 4 lost ++ x.tail)
    else s
  | _, _ => s

/-- A fence of a drawer and source kind (R349): the oldest failure, INFO latched. -/
def State.fenceRead (s : State) (d src : Nat) : Nat × State :=
  let k := 8 * d + src
  let l := storeGet [] s.dwl.unacked k
  let tooMany := b2n (storeGet false s.dwl.tooMany k)
  match l with
  | [] => (0, { s with dwl := { s.dwl with info := storePut 0 s.dwl.info k (tooMany * 65536) } })
  | (t, c) :: _ => (t, { s with dwl := { s.dwl with info := storePut 0 s.dwl.info k (c + l.length * 256 + tooMany * 65536) } })

/-- The entries after the one with a tag; all of them when none has it. -/
def ackTail (t : Nat) (l : List (Nat × Nat)) : List (Nat × Nat) :=
  if l.any (·.1 == t) then (l.dropWhile (·.1 != t)).drop 1 else l

/-- A failure and the older ones are acknowledged (R349). -/
def State.fenceAck (s : State) (d src t : Nat) : State :=
  let k := 8 * d + src
  let l := ackTail t (storeGet [] s.dwl.unacked k)
  let s := { s with dwl := { s.dwl with unacked := storePut [] s.dwl.unacked k l } }
  if l.isEmpty then { s with dwl := { s.dwl with tooMany := storePut false s.dwl.tooMany k false } } else s

/-- An outbound read of ring r fails (R350). -/
def State.hostReadFail (s : State) (r cause va : Nat) : State :=
  match s.ringOwner r with
  | none => s
  | some d =>
    if s.ringState r ≠ Rst.running ∧ s.ringState r ≠ Rst.stopping then s
    else
      let g := s.rg r
      let side := if g.desc.isNone then 0 else 1
      let s := (s.putRg r { g with side := side, expired := false }).put F.RING_STATE_STATE Rst.faulted r
      let s := (s.put F.RING_FAULT_DESC (s.ringHead r) r).put F.RING_FAULT_OFF_OFFSET (if side = 0 then 0 else g.off) r
      let s := s.farFailure d 2 r va 0 cause 0
      (s.ringSignal r).rxFault r

/-! Interrupt lines (R89, R351) -/

/-- Whether any position below `n` has a set and enabled event. -/
def anyUnit (n : Nat) (own : Nat → Bool) (ev : Nat → Nat) (en : Nat → Nat) : Bool :=
  (List.range n).any fun i => own i && ((ev i) &&& (en i)) != 0

/-- The vectors whose lines the events of drawer d drive, with the blocks' vector fields. -/
def State.lineSources (s : State) (d : Nat) : List (Nat × Bool) :=
  let k := d == 0
  let c := d + 1
  let owns := fun (o : Option Nat) => o == some d
  let g := fun (x : Fld) => vecOf (s.get x d)
  let f := fun (r : RegId) (hi lo i cp : Nat) => s.get ⟨r, hi, lo⟩ i 0 cp
  [ (0, s.is F.DRW_IRQ_STATUS_FAULT 0 0 c || s.is F.DWL_VEVT_PERR 0 0 c ||
      (k && (s.get F.IOM_KEVT_S2FAULT &&& s.get F.IOM_KEVT_EN_S2FAULT) != 0) ||
      (k && (f .WLD_EVT 1 0 0 0 &&& f .WLD_EVT_EN 1 0 0 0) != 0)),
    (1, s.is F.DRW_IRQ_STATUS_MOVED 0 0 c || s.is F.DRW_IRQ_STATUS_RESET_DONE 0 0 c),
    (g F.LCH_G_VEC_VEC,
      anyUnit 96 (fun i => owns (s.chanOwner i)) (fun i => f .LCH_EVENTS 31 0 i 0) (fun i => f .LCH_IRQ_EN 31 0 i 0) ||
      anyUnit 64 (fun i => decide (i < s.ruleCount) && s.rule i 0 7 4 == d) (fun i => f .CLP_STAT 17 16 i 0)
        (fun i => s.get F.CLP_STAT_EN i) ||
      (k && anyUnit 2 (fun _ => true) (fun i => f .FEED_EVENTS 31 0 i 0) (fun i => f .FEED_IRQ_EN 31 0 i 0))),
    (g F.INP_G_VEC_VEC,
      anyUnit 128 (fun i => s.miMode i != 0 && s.miOwner i == d) (fun i => f .INP_MI_STAT 10 8 i 0)
        (fun i => s.get F.INP_MI_STAT_EN i)),
    (g F.LTH_G_VEC_VEC,
      anyUnit 9 (fun i => owns (s.taskOwner i)) (fun i => f .LTH_TASK_STAT 10 8 i 0) (fun i => s.get F.LTH_TASK_STAT_EN i) ||
      anyUnit 64 (fun i => owns (s.stnOwner i)) (fun i => f .LTH_STN_STAT 9 8 i 0) (fun i => s.get F.LTH_STN_STAT_EN i)),
    (g F.MTR_G_VEC_VEC,
      (k && (f .MTR_IRQ 31 0 0 0 &&& f .MTR_IRQ_EN 31 0 0 0) != 0) ||
      (s.mtrServed d && s.is F.MTR_VIEW_STAT_SAFE 0 0 c && s.is F.MTR_VIEW_STAT_EN 0 0 c)),
    (g F.EPT_G_VEC_VEC,
      (k && anyUnit 30 (fun _ => true) (fun i => f .EPT_EVT 6 0 i 0) (fun i => f .EPT_EVT_EN 6 0 i 0)) ||
      anyUnit 14 (fun i => s.get F.MSC_CFG_OWNER i == d)
        (fun i => s.get F.MSC_CFG_PN_THRESH i + 2 * s.get F.MSC_CFG_EXHAUST i) (fun i => s.get F.MSC_CFG_EV_EN i)),
    (g F.ZTM_G_VEC_VEC,
      (f .ZTM_EVT 4 0 0 c &&& f .ZTM_EVT_EN 4 0 0 c) != 0 || (k && (f .ZTM_EVT 4 0 0 0 &&& f .ZTM_EVT_EN 4 0 0 0) != 0)),
    (g F.CAN_G_VEC_VEC,
      anyUnit 16 (fun i => owns (s.canOwner i)) (fun i => f .CAN_EVT 6 0 i 0) (fun i => f .CAN_EVT_EN 6 0 i 0) ||
      anyUnit 32 (fun i => owns (s.canOwner (i / 2))) (fun i => s.get F.CAN_TXDONE_DONE (i / 2) (i % 2))
        (fun i => s.get F.CAN_TXDONE_EN_EN (i / 2) (i % 2))),
    (g F.TIL_G_VEC_VEC,
      (s.is F.TIL_STAT_DONE_EV 0 0 c && s.is F.TIL_STAT_EN 0 0 c) ||
      (k && s.is F.TIL_STAT_DONE_EV && s.is F.TIL_STAT_EN)),
    (g F.REC_G_VEC_VEC,
      (f .REC_LOG_STAT 9 8 0 c &&& f .REC_LOG_STAT 17 16 0 c) != 0 ||
      (k && (f .REC_LOG_STAT 9 8 0 0 &&& f .REC_LOG_STAT 17 16 0 0) != 0) ||
      (k && (f .REC_EVT 1 0 0 0 &&& f .REC_EVT_EN 1 0 0 0) != 0)) ]

/-- The lines of drawer d that are high: by events, and by rings' signals not yet delivered. -/
def State.highLines (s : State) (d : Nat) : List Nat :=
  let l := (s.lineSources d).filterMap fun x => if x.2 then some x.1 else none
  let sig := storeGet 0 s.ringSig d
  below 64 fun v => l.contains v || bitOf sig v

/-- Whether vector v of drawer d is masked (R89). -/
def State.vecMasked (s : State) (d v : Nat) : Bool := bitOf (s.get F.DRW_IRQ_MASK_MASK (v / 32) 0 (d + 1)) (v % 32)

/-- Whether the message of vector v of function f may leave now (R352). -/
def State.msixOpen (s : State) (f v : Nat) : Bool :=
  (s.fn f).msix && !(s.fn f).fmask && (s.fn f).bme && s.is F.DWL_LINK_DL_UP && s.fnExists f && !(s.msixEntry f v).2.2

/-- The message of vector v of function f leaves. -/
def State.msixSend (s : State) (f v : Nat) : State :=
  let e := s.msixEntry f v
  s.emit 4 f e.1 (leBytes 4 e.2.1)

/-- What a hart holds. -/
def State.ht (s : State) (h : Nat) : HartSt := storeGet HartSt.rst s.hart h

/-- Replace what a hart holds. -/
def State.putHt (s : State) (h : Nat) (x : HartSt) : State := { s with hart := storePut HartSt.rst s.hart h x }

/-- A guest interrupt is delivered, or discarded and counted (R228). -/
def State.guestIrq (s : State) (d v : Nat) : State :=
  let id := s.get F.DRW_BIND_EIID_BASE d + v
  let hart := s.get F.IOM_GIRQ_HART d
  let file := s.get F.IOM_GIRQ_GFILE d
  if id = 0 ∨ 255 < id ∨ file = 0 ∨ geilen < file ∨ 6 ≤ hart ∨ s.unitOut 5 hart then s.bump F.IOM_GIRQ_DROPS 1 d
  else
    let x := s.ht hart
    let g := x.imsic.getD (1 + file) ImsicFile.rst
    s.putHt hart { x with imsic := x.imsic.set (1 + file) { g with pending := g.pending ||| BitVec.twoPow 256 id } }

/-- Deliver vector v of drawer d (R351, R352). -/
def State.vecDeliver (s : State) (d v : Nat) : State :=
  let key := 64 * d + v
  let s := { s with
    ringSig := storePut 0 s.ringSig d (setBitTo (storeGet 0 s.ringSig d) v false)
    dwl := { s.dwl with inSvc := storePut false s.dwl.inSvc key true, held := storePut false s.dwl.held key false } }
  if !s.hostBound d then s.guestIrq d v
  else if s.msixOpen d v then s.msixSend d v
  else { s with dwl := { s.dwl with pba := storePut false s.dwl.pba key true } }

/-- One vector at a scan (R351). -/
def State.vecScan (s : State) (d v : Nat) (high : Bool) : State :=
  let key := 64 * d + v
  let busy := storeGet false s.dwl.inSvc key
  if busy then
    if high then s else { s with dwl := { s.dwl with inSvc := storePut false s.dwl.inSvc key false } }
  else if s.vecMasked d v then
    if high then { s with dwl := { s.dwl with held := storePut false s.dwl.held key true } } else s
  else if high || storeGet false s.dwl.held key then s.vecDeliver d v
  else s

/-- The bridge scans the lines of every drawer (R351). -/
def State.irqScan (s : State) : State :=
  s.each (List.range s.drw.count) fun s d =>
    let high := s.highLines d
    s.each (List.range 64) fun s v => s.vecScan d v (high.contains v)

/-- EOI of a vector (R351). -/
def State.eoi (s : State) (d v : Nat) : State :=
  { s with dwl := { s.dwl with inSvc := storePut false s.dwl.inSvc (64 * d + v) false } }

/-- A pending message is sent once everything allows it (R352). -/
def State.msixPending (s : State) (f v : Nat) : State :=
  if storeGet false s.dwl.pba (64 * f + v) && s.msixOpen f v then
    { s with dwl := { s.dwl with pba := storePut false s.dwl.pba (64 * f + v) false } }.msixSend f v
  else s

/-- What a DRW reset of drawer d leaves of the bridge's state (R10, R344, R345, R349): its lines, sequence tags, failures and interrupts go. -/
def State.dwlDrawerReset (s : State) (d : Nat) : State :=
  let s := s.lineDrop fun x => x.tag.drawer.val == d
  let ks := (List.range 8).map (8 * d + ·)
  let s := s.each ks fun s k => { s with
    seqs := storeErase s.seqs k
    dwl := { s.dwl with
      unacked := storeErase s.dwl.unacked k, tooMany := storeErase s.dwl.tooMany k, info := storeErase s.dwl.info k } }
  { s with
    ringSig := storeErase s.ringSig d
    dwl := { s.dwl with
      perr := storeErase s.dwl.perr d, perrLost := storeErase s.dwl.perrLost d
      inSvc := s.dwl.inSvc.filter fun p => p.1 / 64 != d
      held := s.dwl.held.filter fun p => p.1 / 64 != d } }

end Sys2Proof.Machine
end

