-- ==== Sys2Proof/Machine/FaultOps.lean ====
section
/-! DEFINITION. Retirable units: their records, start tests of cores and SRAM, correctable errors, clearance, and SAFEN's
controls (ch. 21). -/

namespace Sys2Proof.Machine

/-- The units of a kind (R412). -/
def unitCount : Nat → Nat
  | 1 => 96 | 2 => 128 | 3 => 30 | 4 => 16 | 5 => 6 | 6 => 48
  | _ => 0

/-- Whether a unit counts as RETIRED: recorded, or classified and not yet recorded (R417). -/
def State.countsRetired (s : State) (kind unit : Nat) : Bool :=
  s.unitRetired kind unit || s.flt.pend.contains (kind, unit)

/-- The compute die writes a classified retirement into eMRAM (R416). -/
def State.recordRetirement (s : State) (kind unit : Nat) : State :=
  if s.flt.pend.contains (kind, unit) then
    let s := { s with flt := { s.flt with pend := s.flt.pend.filter (· != (kind, unit)) } }
    (s.putSuspect kind unit false).putRetired kind unit true
  else s

/-- Every classified retirement that is not yet written is written (R416). -/
def State.recordAll (s : State) : State := s.each s.flt.pend fun s u => s.recordRetirement u.1 u.2

/-- A start restores every RETIRED unit from eMRAM, and returns cleared units to service (R416, R417). -/
def State.restoreUnits (s : State) : State :=
  let s := s.recordAll
  let l := [1, 2, 3, 4, 5, 6].flatMap fun k => ((below (unitCount k) fun u => s.unitRetired k u).map fun u => unitKey k u)
  { s with flt := { s.flt with out := l.map fun k => (k, true), byTest := false } }

/-- Clear a bit of a Nat field. -/
def State.clearBit (s : State) (x : Fld) (b : Nat) : State := s.put x (setBitTo (s.get x) b false)

/-- Set a bit of a Nat field. -/
def State.setBit (s : State) (x : Fld) (b : Nat) : State := s.put x (setBitTo (s.get x) b true)

/-- The self-test of core `c` at start (R413). -/
def State.coreTest (s : State) (c : Nat) (pass : Bool) : State :=
  let s := if pass then s else s.setBit F.FAB_CORE_STAT_TEST_FAIL c
  s.startTest 5 c 0x08 0 pass

/-- The memory self-test of SRAM unit `u` at start (R414). -/
def State.sramTest (s : State) (u : Nat) (pass : Bool) : State := s.startTest 6 u 0x09 0 pass

/-- An SRAM unit is classified permanent (R414). -/
def State.sramRetire (s : State) (u : Nat) : State := if s.unitOut 6 u then s else s.retireUnit 6 u 0x09 0 0

/-- A correctable error of SRAM unit `u` (R414): counted; permanent at the 64th of the window, or when the scrubber finds
the written-back word in error again. -/
def State.sramCe (s : State) (u : Nat) (again : Bool) : State :=
  let w := min (s.get F.FAB_SRAM_CE_WINDOW u + 1) 64
  let s := (s.put F.FAB_SRAM_CE_WINDOW w u).bump F.FAB_SRAM_CE_TOTAL 1 u
  if again || w == 64 then s.sramRetire u else s

/-- A write of FAB_RET_CLR (R417). -/
def State.retClear (s : State) (w : Nat) : State :=
  let k := bitsOf w 2 0
  let u := bitsOf w 14 8
  if bitsOf w 31 16 ≠ 0x3D9E then s
  else if s.get F.TIL_LC_STATE ≠ 3 then s.put F.FAB_RET_CLR_STAT_RESULT 2
  else if unitCount k ≤ u then s.put F.FAB_RET_CLR_STAT_RESULT 3
  else if !s.countsRetired k u then s.put F.FAB_RET_CLR_STAT_RESULT 4
  else
    let s := { s with flt := { s.flt with pend := s.flt.pend.filter (· != (k, u)) } }
    let s := (s.putRetired k u false).putSuspect k u false
    (s.incr F.FAB_RET_CLRS_COUNT).put F.FAB_RET_CLR_STAT_RESULT 1

/-! SAFEN (R421 to R423) -/

/-- Whether a task is STOPPED under R176. -/
def State.faultStopped (s : State) : Bool := (List.range 9).any fun k => (s.tk k).faultStop

/-- Whether the release condition of a reason holds (R422). The condition of START is that the first Lathe cycle has run, or
the start has ended with the engine IDLE. -/
def State.safenMayRelease (s : State) (startDone : Bool) : Nat → Bool
  | 0 => startDone
  | 2 => !(s.get F.MTR_STATE_STATE == 4 || s.get F.MTR_STATE_STATE == 5)
  | 4 => true
  | 6 => !s.faultStopped
  | _ => false

/-- The reasons a list of bits names, cleared when their release condition holds. -/
def State.safenRelease (s : State) (startDone : Bool) : State :=
  s.each (List.range 7) fun s b => if s.safenMayRelease startDone b then s.clearBit F.FAB_SAFEN_REASON b else s

/-- A keeper's write of FAB_SAFEN_CTRL with the correct KEY (R423). -/
def State.safenCtrl (s : State) (startDone : Bool) (w : Nat) : State :=
  if bitsOf w 31 16 ≠ 0x5A4F then s
  else
    let s := s.put F.FAB_SAFEN_CTRL_FORCE (bitsOf w 1 1)
    if bitOf w 0 then s.safenRelease startDone else s

/-- A keeper's write of FAB_SAFEN_MASK: a bit armed while its condition holds sets the reason (R422). -/
def State.safenMask (s : State) (w : Nat) : State :=
  let new := bitsOf w 6 4
  let holds : Nat → Bool := fun b => if b = 0 then s.flt.byTest else if b = 1 then s.get F.WLD_SVC_STATE == 3 else s.faultStopped
  let s := s.put F.FAB_SAFEN_MASK_ARM new
  s.each (List.range 3) fun s b => if bitOf new b && holds b then s.safenSet (4 + b) else s

/-- Whether SAFEN is asserted while the compute die runs (R421). -/
def State.safenAsserted (s : State) : Bool := s.get F.FAB_SAFEN_REASON != 0 || s.is F.FAB_SAFEN_CTRL_FORCE

end Sys2Proof.Machine
end

