-- ==== Sys2Proof/Machine/FabricOps.lean ====
section
/-! DEFINITION. Islands and arbitration (ch. 2): the clock table, power requests and their states (R44 to R47), secure claims,
and a grant among the claims presented at a point (R40 to R42). -/

namespace Sys2Proof.Machine

/-- Clock of an island in 100 kHz units (R30). -/
def islandFreq (n : Nat) : Nat :=
  if n = 0 then 250
  else if n = 2 ∨ n = 3 then 16000
  else if n ∈ [4, 5, 6, 7, 8, 20, 26, 37, 38] then 10000
  else if n = 9 ∨ n = 12 then 8000
  else if n ∈ [10, 14, 15, 16, 17, 18, 19] then 2000
  else if n ∈ [13, 27, 34, 35, 36] then 5000
  else if n = 21 ∨ n = 22 then 3125
  else if n = 23 ∨ n = 24 then 1250
  else if n = 25 then 500
  else if 28 ≤ n ∧ n ≤ 31 then 1600
  else 4000

/-- The Gate column of R30. -/
def gateOk (n : Nat) : Bool := !decide (n ∈ [0, 11, 14, 15, 16, 17, 18, 19, 33, 34, 35, 40])

/-- The Off column of R30. -/
def offOk (n : Nat) : Bool := gateOk n && !decide (n ∈ [4, 9, 26, 36, 37, 38])

/-- The word FAB_ISL_CLK_n shows. -/
def islandClk (n : Nat) : Nat := islandFreq n + 65536 * b2n (gateOk n) + 131072 * b2n (offOk n)

/-- The state in which an island's own chapter lets a gate or off request in (R183, R223, R332). -/
def State.islandIdle (s : State) (n : Nat) : Bool :=
  if n = 13 then s.get F.LTH_STATE_STATE == 0 || s.get F.LTH_STATE_STATE == 3
  else if n = 12 then s.mtrState == Mtr.halted || s.mtrState == Mtr.safeFault || s.mtrState == Mtr.failed
  else if 28 ≤ n ∧ n ≤ 31 then
    (List.range 4).all fun j =>
      let k := 4 * (n - 28) + j
      (s.canState k == Can.config || s.canState k == Can.retired) && !s.is F.CAN_WAKE_ARM k
  else true

/-- Whether a request for CLOCK_GATED (1) or POWER_OFF (2) is rejected (R47). -/
def State.islandRejects (s : State) (n t : Nat) : Bool :=
  !(if t = 1 then gateOk n else offOk n) || !s.islandIdle n

/-- What an island drains to. -/
def State.putTarget (s : State) (n t : Nat) : State :=
  { s with fab := { s.fab with target := storePut 0 s.fab.target n t } }

/-- An island drains for target `t` (R44). -/
def State.islandDrain (s : State) (n t : Nat) : State :=
  ((s.putIsl n Isl.draining).put F.FAB_ISL_STATE_PENDING 0 n).putTarget n t

/-- An accepted gate or off request handled in ON (R44): a secure request, or no claim, drains; else the secure hold. -/
def State.islandTake (s : State) (n t : Nat) (secure : Bool) : State :=
  if secure || s.get F.FAB_ISL_STATE_CLAIM n == 0 then s.islandDrain n t
  else (s.putIsl n Isl.hold).put F.FAB_ISL_STATE_PENDING t n

/-- A gate (1) or off (2) request (R44, R47). An accepted one leaves REJ as it is (log entry 106), and one for the other down state while
the island drains only changes what it drains to, whatever the claim count (log entry 107). -/
def State.islandDown (s : State) (n t : Nat) (secure : Bool) : State :=
  let st := s.islState n
  if s.islandRejects n t then s.put F.FAB_ISL_STATE_REJ 1 n
  else if (st == Isl.gated && t == 1) || (st == Isl.off && t == 2)
      || (st == Isl.draining && storeGet 0 s.fab.target n == t) then s
  else
    let s := s.put F.FAB_ISL_REQ_BY_SECURE (b2n secure) n
    if st = Isl.on then s.islandTake n t secure
    else if st = Isl.draining then s.putTarget n t
    else if st = Isl.hold then
      if secure then s.islandDrain n t else s.put F.FAB_ISL_STATE_PENDING t n
    else if st = Isl.gated then (s.islandWake n false).put F.FAB_ISL_STATE_PENDING t n
    else if st = Isl.off then (s.islandWake n true).put F.FAB_ISL_STATE_PENDING t n
    else s.put F.FAB_ISL_STATE_PENDING t n

/-- A request for ON (R44, R47). -/
def State.islandUp (s : State) (n : Nat) (secure : Bool) : State :=
  let st := s.islState n
  if st = Isl.on then s
  else
    let s := (s.put F.FAB_ISL_REQ_BY_SECURE (b2n secure) n).put F.FAB_ISL_STATE_PENDING 0 n
    if st = Isl.draining ∨ st = Isl.hold then s.putIsl n Isl.on
    else if st = Isl.gated then s.islandWake n false
    else if st = Isl.off then s.islandWake n true
    else s

/-- A write of FAB_ISL_REQ_n (R44): 3 is ignored. -/
def State.islandReq (s : State) (n w : Nat) (secure : Bool) : State :=
  let q := w % 4
  if q = 3 then s
  else
    let s := s.put F.FAB_ISL_REQ_REQ q n
    if q = 0 then s.islandUp n secure else s.islandDown n q secure

/-- The secure-claim count reached 0: a held island drains (R44). -/
def State.claimZero (s : State) (n : Nat) : State :=
  if s.islState n = Isl.hold ∧ s.get F.FAB_ISL_STATE_CLAIM n = 0 then s.islandDrain n (s.get F.FAB_ISL_STATE_PENDING n) else s

/-- A secure write of FAB_CLAIM_n. -/
def State.claimWrite (s : State) (n w : Nat) : State :=
  let c := s.get F.FAB_ISL_STATE_CLAIM n
  let s := s.store .FAB_CLAIM w n
  if bitOf w 0 && !bitOf w 1 then
    if c = 255 then s.put F.FAB_CLAIM_SAT 1 n else s.put F.FAB_ISL_STATE_CLAIM (c + 1) n
  else if bitOf w 1 && !bitOf w 0 then
    if c = 0 then s else (s.put F.FAB_ISL_STATE_CLAIM (c - 1) n).claimZero n
  else s

/-- The claim bound in ms (R45). -/
def State.claimBound (s : State) : Nat := if s.imgF 9 8 0 4 9 0 = 0 then 50 else s.imgF 9 8 0 4 9 0

/-- The claim bound expires in the secure hold (R45, R46): with the count at 0 the count has won; else the island is wiped, and the wipe
clears the count and sets WIPED as it begins (log entry 108). -/
def State.claimExpire (s : State) (n : Nat) : State :=
  if s.islState n = Isl.hold ∧ s.get F.FAB_ISL_STATE_CLAIM n ≠ 0 then
    ((s.putIsl n Isl.wiping).put F.FAB_ISL_STATE_CLAIM 0 n).put F.FAB_CLAIM_WIPED 1 n
  else s

/-- Memory whose bytes satisfy `p` reads as never written: its contents are gone. -/
def State.forget (s : State) (p : Nat → Bool) : State := { s with mem := s.mem.filter fun c => !p c.1 }

/-- System SRAM of an island that lies below the SRAM split is overwritten with zeros (R46, R353; log entry 118). -/
def State.sramZero (s : State) (n : Nat) : State :=
  s.forget fun a => memIsland a == some n && s.secureAddr a

/-- Ports of a port-group island. -/
def portsOf (n : Nat) : List Nat := (List.range 30).filter fun p => portIsland p == n

/-- The links of a port group drop when its island is gated or powered off (R276): each enters TRAINING, for when it returns. -/
def State.groupDown (s : State) (n : Nat) : State :=
  s.each (portsOf n) fun s p =>
    if s.linkState p = Link.up then (s.leaveUp p Link.training).put F.EPT_LINK_STATE Link.disabled p
    else if s.linkState p = Link.training then s.put F.EPT_LINK_STATE Link.disabled p
    else s

/-- Ports with LINK_EN = 1 train again when their island returns to ON (R276). -/
def State.groupUp (s : State) (n : Nat) : State :=
  s.each (portsOf n) fun s p => if s.is F.EPT_PCFG_LINK_EN p then s.linkEnable p else s

/-- A claim that its point takes: at DMA issue only a ring that works claims, and only for its owner (R239). -/
def State.mayClaim (s : State) (k : Nat) (c : Claim) : Bool :=
  k != 2 || ((s.ringState c.unit == Rst.running || s.ringState c.unit == Rst.stopping) && s.ringOwner c.unit == some c.drawer.val)

/-- One grant among the claims presented at point `k`. -/
def State.arbGrant (s : State) (k : Nat) (l : List Claim) : State :=
  match claimPick (s.get F.FAB_ARB_PTR_PTR k) (s.claimRank k) (l.filter (s.mayClaim k)) with
  | some c => s.arbMove k c.drawer
  | none => s

end Sys2Proof.Machine
end

