-- ==== Sys2Proof/Machine/DrawerOps.lean ====
section
/-! DEFINITION. Drawers (ch. 4): who owns a register position, the allocation at start (R76), moves (R77, R78), feature offers
and commits (R80, R81), and drawer resets (R91 to R93). -/

namespace Sys2Proof.Machine

/-- The owner drawer of unit `i` of an ownership kind (R36 item 4), for the kinds with one owner. -/
def State.ownerOf (s : State) (o : Own) (i : Nat) : Option Nat :=
  match o with
  | .ring => s.ringOwner i
  | .chan => s.chanOwner i
  | .miPin => some (s.miOwner i)
  | .drvPin => (s.drvChan i).bind s.chanOwner
  | .clampRule => if i < s.ruleCount then some (s.rule i 0 7 4) else none
  | .lthTask => s.taskOwner i
  | .hostWord => s.hostWordOwner i
  | .station => s.stnOwner i
  | .canCtl => s.canOwner i
  | .hostQueue => s.hostQOwner i
  | .swQueue => s.queueDrawer i
  | .tillSlot => s.tillHolder i
  | .saPort => some (s.get F.MSC_CFG_OWNER i)
  | _ => none

/-- Whether a register position belongs to drawer d: its view's copies, the global copies for D0 (R12), its vector registers,
and the positions of its units. -/
def State.posOf (s : State) (d : Nat) (r : RegId) (cp i : Nat) : Bool :=
  let x := regDef r
  match x.kind with
  | .copy => cp == d + 1 || (cp == 0 && d == 0)
  | .view => cp == d + 1
  | .glob => x.own == .none && x.n1 == 16 && i == d
  | .both => s.ownerOf x.own i == some d

/-! Holdings (R75, R76) -/

/-- Move classes. -/
abbrev Cls.rings : Nat := 1
abbrev Cls.dma : Nat := 2
abbrev Cls.bufq : Nat := 3
abbrev Cls.till : Nat := 4
abbrev Cls.rec_ : Nat := 5
abbrev Cls.mem : Nat := 6

/-- Whether a class has numbered units. -/
def numbered (c : Nat) : Bool := c == 1 || c == 4 || c == 5

/-- All that exists of a class (R25). -/
def classTotal : Nat → Nat
  | 1 => 256 | 2 => 100 | 3 => 32768 | 4 => 256 | 5 => 4096 | 6 => 8192
  | _ => 0

/-- The MIN of a drawer in a class, from its DRAWERS record. -/
def State.classMin (s : State) (d : Nat) : Nat → Nat
  | 1 => s.drawerRec d 0 8 0 | 2 => s.drawerRec d 4 7 0 | 3 => s.drawerRec d 2 15 0 | 4 => s.drawerRec d 3 8 0
  | 5 => s.drawerRec d 5 12 0 | 6 => s.drawerRec d 1 15 0
  | _ => 0

/-- The MAX of a drawer in a class. -/
def State.classMax (s : State) (d : Nat) : Nat → Nat
  | 1 => s.drawerRec d 0 24 16 | 2 => s.drawerRec d 4 15 8 | 3 => s.drawerRec d 2 31 16 | 4 => s.drawerRec d 3 24 16
  | 5 => s.drawerRec d 5 28 16 | 6 => s.drawerRec d 1 31 16
  | _ => 0

/-- The holding of a drawer in a class. -/
def State.holding (s : State) (d c : Nat) : Nat := s.get F.DRW_G_HOLD_AMOUNT d (c - 1)

/-- Set a holding. -/
def State.putHolding (s : State) (d c n : Nat) : State := s.put F.DRW_G_HOLD_AMOUNT n d (c - 1)

/-- The holding of a party: a drawer's, or what no drawer holds for the POOL. -/
def State.partyHolds (s : State) (p c : Nat) : Nat :=
  if p = 16 then classTotal c - sumList ((List.range s.drw.count).map fun d => s.holding d c) else s.holding p c

/-- The owner map of a numbered class. -/
def State.unitMap (s : State) (c : Nat) : Store Nat :=
  if c = 1 then s.drw.ringOwner else if c = 4 then s.drw.tillOwner else s.drw.recOwner

/-- Replace the owner map of a numbered class. -/
def State.putUnitMap (s : State) (c : Nat) (l : Store Nat) : State :=
  { s with drw :=
      if c = 1 then { s.drw with ringOwner := l } else if c = 4 then { s.drw with tillOwner := l }
      else { s.drw with recOwner := l } }

/-- Give `n` units from `first` to owner code `o` (drawer + 1; 0 is the POOL). -/
def State.giveUnits (s : State) (c first n o : Nat) : State :=
  s.putUnitMap c ((List.range n).foldl (fun l k => storePut 0 l (first + k) o) (s.unitMap c))

/-- The first free unit of a class after the first pass. -/
def State.minSum (s : State) (c : Nat) : Nat → Nat
  | 0 => 0
  | d + 1 => s.minSum c d + s.classMin d c

/-- Allocate one class in two passes (R76). -/
def State.allocate (s : State) (c : Nat) : State :=
  let s := if numbered c then s.putUnitMap c [] else s
  let s := s.each (List.range s.drw.count) fun s d =>
    let s := s.putHolding d c (s.classMin d c)
    if numbered c then s.giveUnits c (s.minSum c d) (s.classMin d c) (d + 1) else s
  let used := s.minSum c s.drw.count
  let more := min (classTotal c - used) (s.classMax 0 c - s.classMin 0 c)
  let s := s.putHolding 0 c (s.classMin 0 c + more)
  if numbered c then s.giveUnits c used more 1 else s

/-- Every movable class is allocated. -/
def State.allocateAll (s : State) : State := s.each [1, 2, 3, 4, 5, 6] State.allocate

/-! Moves (R77, R78) -/

/-- The rejection code of the move that DRW_MOVE_CTRL and DRW_MOVE_ARG name (R77); 0 when it is accepted. For class MEM what FROM holds
is its holding less what its DRAM granules take (R231). -/
def State.moveCode (s : State) : Nat :=
  let c := s.get F.DRW_MOVE_CTRL_CLASS
  let f := s.get F.DRW_MOVE_CTRL_FROM
  let t := s.get F.DRW_MOVE_CTRL_TO
  let u := s.get F.DRW_MOVE_ARG_FIRST
  let n := s.get F.DRW_MOVE_ARG_COUNT
  let n' := s.drw.count
  let party : Nat → Bool := fun p => p == 16 || decide (p < n')
  let resetting : Nat → Bool := fun p => decide (p < n') && decide (s.drwState p ≥ 2)
  let units := (List.range n).map (u + ·)
  let free := s.partyHolds f c - if c = 6 ∧ f < 16 then 2 * s.dramGranules f none else 0
  let busy := c == 1 && units.any (fun r => s.ringState r != Rst.disabled) ||
    c == 4 && units.any fun k => storeGet SlotSt.empty s.til.slots k != SlotSt.empty
  if c < 1 ∨ 6 < c then 1
  else if f = t ∨ !party f ∨ !party t then 2
  else if n = 0 ∨ (numbered c = true ∧ u + n > classTotal c) ∨ (numbered c = false ∧ u ≠ 0) then 3
  else if resetting f || resetting t then 4
  else if (if numbered c then units.any (fun k => storeGet 0 (s.unitMap c) k != (if f = 16 then 0 else f + 1))
      else decide (n > free)) then 5
  else if f < 16 ∧ s.holding f c < s.classMin f c + n then 6
  else if t < 16 ∧ s.holding t c + n > s.classMax t c then 7
  else if busy then 8
  else 0

/-- A write of GO = 1 (R77, R78), by the keeper or through the secure world (log entry 113). -/
def State.moveGo (s : State) : State :=
  if s.get F.DRW_MOVE_STATUS_STATE = 1 then s.put F.DRW_MOVE_STATUS_OVERLAP 1
  else
    let e := s.moveCode
    let m : MoveSt := ⟨s.get F.DRW_MOVE_CTRL_CLASS, s.get F.DRW_MOVE_CTRL_FROM, s.get F.DRW_MOVE_CTRL_TO,
      s.get F.DRW_MOVE_ARG_FIRST, s.get F.DRW_MOVE_ARG_COUNT, false, []⟩
    let s := { s with drw := { s.drw with move := if e = 0 then some m else none } }
    (s.put F.DRW_MOVE_STATUS_CODE e).put F.DRW_MOVE_STATUS_STATE (if e = 0 then 1 else 3)

/-- A party of a move gains or loses `n` of a class, and sets MOVED; the POOL keeps no register. -/
def State.moveParty (s : State) (p c n : Nat) : State :=
  if p = 16 then s else (s.putHolding p c n).put F.DRW_IRQ_STATUS_MOVED 1 0 0 (p + 1)

/-- The accesses of a drawer that have passed their check and wait (R39). -/
def State.outstanding (s : State) (d : Nat) : List Access :=
  (s.fab.waiting.map (·.2)).filter fun a => a.tag.drawer.val == d && !a.tag.secure

/-- The accepted move commits (R78): the holdings change at one instant, whatever has changed since GO (log entry 114), and each party
drawer sets MOVED. -/
def State.moveCommit (s : State) : State :=
  match s.drw.move with
  | none => s
  | some m =>
    if m.committed then s
    else
      let s := if numbered m.cls then s.giveUnits m.cls m.first m.count (if m.to_ = 16 then 0 else m.to_ + 1) else s
      let s := s.moveParty m.from_ m.cls (s.holding m.from_ m.cls - m.count)
      let s := s.moveParty m.to_ m.cls (s.holding m.to_ m.cls + m.count)
      { s with drw := { s.drw with move := some { m with committed := true, left := s.outstanding m.from_ } } }

/-- DONE, once no access checked under the old owner remains (R39, R78). -/
def State.moveDone (s : State) : State :=
  match s.drw.move with
  | none => s
  | some m =>
    if m.committed && m.left.all fun a => !s.fab.waiting.any fun w => w.2 == a then
      { s with drw := { s.drw with move := none } }.put F.DRW_MOVE_STATUS_STATE 2
    else s

/-! Features (R80, R81) -/

/-- The features offered to drawer d. -/
def State.offerOf (s : State) (d : Nat) : Nat :=
  let q := s.drawerRec d 8 31 0 + s.drawerRec d 9 31 0 != 0
  let can := s.drawerRec d 6 15 0 != 0
  let tk := s.drawerRec d 7 7 0 != 0
  0x1817 + b2n q * 0x68 + b2n can * 0x180 + b2n tk * 0x600 + b2n (s.classMax d 5 != 0) * 0x2000 +
    b2n (s.classMax d 4 != 0) * 0x4000

/-- The offers stand at the end of the start. -/
def State.offerAll (s : State) : State :=
  s.each (List.range s.drw.count) fun s d => s.put F.DRW_FEAT_OFFER_OFFER (s.offerOf d) 0 0 (d + 1)

/-- The lowest accepted bit that is not offered. -/
def State.badBit (s : State) (d : Nat) : Option Nat :=
  (List.range 128).find? fun b =>
    bitOf (s.get F.DRW_FEAT_ACCEPT_ACCEPT (b / 32) 0 (d + 1)) (b % 32) &&
      !bitOf (s.get F.DRW_FEAT_OFFER_OFFER (b / 32) 0 (d + 1)) (b % 32)

/-- A feature commit of drawer d (R81). -/
def State.featCommit (s : State) (d : Nat) : State :=
  let done := fun (r b : Nat) => (s.put F.DRW_FEAT_STATUS_RESULT r 0 0 (d + 1)).put F.DRW_FEAT_STATUS_BAD_BIT b 0 0 (d + 1)
  if s.drwState d ≠ 0 then done 4 0
  else
    match s.badBit d with
    | some b => done 2 b
    | none =>
      if !bitOf (s.get F.DRW_FEAT_ACCEPT_ACCEPT 0 0 (d + 1)) 0 then done 3 0
      else (done 1 0).put F.DRW_G_STATE_STATE 1 d

/-! Drawer reset (R91 to R93) -/

/-- The command sets of the Till that act for a drawer's tag. -/
def tillSets (d : Nat) : List Nat := cpsOf d

/-- A claim of drawer d at arbitration point 6: an atomic that waits for a semaphore (R340). -/
def semClaim (d : Nat) (w : Nat × Access) : Bool :=
  decide (64 ≤ w.1) && w.2.op.atomic && w.2.tag.drawer.val == d && w.2.tag.src != .mitre

/-- Claims that were never granted are withdrawn (R43): the drawer's queued Till commands, and its atomics that wait for a semaphore, which
are answered with zero (log entry 115). -/
def State.withdraw (s : State) (d : Nat) : State :=
  let gone := s.til.queue.filter (tillSets d).contains
  let s := { s with til := { s.til with queue := s.til.queue.filter fun c => !(tillSets d).contains c } }.each gone fun s c =>
    s.put F.TIL_STAT_STATE 0 0 0 c
  let had := s.fab.waiting.any (semClaim d)
  let s := { s with fab := { s.fab with waiting := s.fab.waiting.filter fun w => !semClaim d w } }
  if had then s.answer true 0 else s

/-- Count a frame of an ETH_TX ring that a drawer reset drops. -/
def State.txResetDrop (s : State) (x : QCopy) (q : Nat) : State :=
  let s := (s.bump F.DVT_DROP_COUNT 1 12).bump F.DVT_QDROP_DROPS 1 q
  match x.ring with
  | some r => s.bump F.RING_DROPS_COUNT 1 r
  | none => s

/-- Count a frame of an ETH_TX ring, not yet in the switch, that a drawer reset drops. -/
def State.frameResetDrop (s : State) (f : InFrame) : State :=
  let s := s.bump F.DVT_DROP_COUNT 1 12
  match f.ring with
  | some r => s.bump F.RING_DROPS_COUNT 1 r
  | none => s

/-- Frames of the drawer's ETH_TX rings that are not on the medium are dropped and counted (R92). -/
def State.dropTx (s : State) (d : Nat) : State :=
  let mine : Option Nat → Bool := fun r => r.any fun k => s.ringOwner k == some d
  let inn := s.dvt.ingress.filter fun f => mine f.ring
  let s := { s with dvt := { s.dvt with ingress := s.dvt.ingress.filter fun f => !mine f.ring } }.each inn State.frameResetDrop
  s.each (List.range 296) fun s q =>
    let bad := (s.queueOf q).filter fun x => mine x.ring
    (s.putQueue q ((s.queueOf q).filter fun x => !mine x.ring)).each bad fun s x => (s.release_ q x).txResetDrop x q

/-- Frames for the drawer's ETH_RX queues are dropped and counted (R92). -/
def State.dropRx (s : State) (d : Nat) : State :=
  s.each (below 56 (s.ownsHostQ d)) fun s q => (s.dropQueue (240 + q) 13).1

/-- Register reads not yet answered are answered with zero; writes not yet granted are withdrawn (R92). -/
def State.dropWaiting (s : State) (d : Nat) : State :=
  let mine : Nat × Access → Bool := fun w => w.2.tag.drawer.val == d && w.2.tag.src != .mitre
  let l := s.fab.waiting.filter mine
  let s := { s with fab := { s.fab with waiting := s.fab.waiting.filter fun w => !mine w } }
  if l.any fun w => !w.2.op.writes then s.answer true 0 else s

/-- The drawer enters SQUASHING: started work is cut (R92, R330). -/
def State.squash (s : State) (d : Nat) : State :=
  let s := s.put F.DRW_G_STATE_STATE 3 d
  let s := ((s.dropWaiting d).dropTx d).dropRx d
  s.each (below 16 fun k => s.canOwner k == some d) State.canSquash

/-- The drawer enters DRAINING (R92): ETH_RX rings with no frame in delivery have stopped, so their queues are dropped, and a FAULTED
ring's descriptor ends with its writeback, whose RESULT the spec does not state (R238; log entry 116). -/
def State.drain (s : State) (d : Nat) : State :=
  let s := s.put F.DRW_G_STATE_STATE 2 d
  s.each (below 256 fun r => s.ringOwner r == some d) fun s r =>
    let g := s.rg r
    if s.ringKind r = Kind.ethRx ∧ s.ringState r ≠ Rst.disabled ∧ (g.desc.isNone ∨ s.ringIdle r = true) then s.rxDrain r
    else if s.ringState r = Rst.faulted ∧ g.desc.isSome ∧ g.ready = false then
      s.free.2.putRg r { g with ready := true, result := s.free.1 % 256 }
    else s

/-- A reset request for drawer d (R91): a new one, a squash of a drain, or absorbed. -/
def State.drawerReset (s : State) (d : Nat) (sq : Bool) : State :=
  if s.drw.count ≤ d then s
  else if s.drwState d ≤ 1 then
    let s := (s.put F.DRW_G_STATE_ESCALATED 0 d).withdraw d
    if sq then s.squash d else s.drain d
  else if s.drwState d = 2 ∧ sq then s.squash d
  else s

/-- A drain still in progress after 1 ms escalates (R91); SOURCE of its fault record is log entry 110. -/
def State.drainEscalate (s : State) (d : Nat) : State :=
  if s.drwState d = 2 then
    ((s.put F.DRW_G_STATE_ESCALATED 1 d).faultRecord d 0x31 5 false 0 0 0).squash d
  else s

/-- Whether a frame of the drawer's ETH_TX rings is on a medium. -/
def State.txOnMedium (s : State) (d : Nat) : Bool :=
  let mine : Option QCopy → Bool := fun x => x.any fun c => c.ring.any fun k => s.ringOwner k == some d
  s.dvt.sending.any (fun p => mine p.2) || s.dvt.suspended.any fun p => mine p.2

/-- Whether nothing of a resetting drawer is outstanding (R93). -/
def State.nothingLeft (s : State) (d : Nat) : Bool :=
  let rings := below 256 fun r => s.ringOwner r == some d
  let cans := below 16 fun k => s.canOwner k == some d
  let common := !s.txOnMedium d && !(s.til.busy.any (tillSets d).contains) && cans.all s.canDrained &&
    s.fab.waiting.all fun w => w.2.tag.drawer.val != d || w.2.tag.src == .mitre
  if s.drwState d = 3 then common
  else
    common && rings.all (fun r => (s.rg r).desc.isNone || s.ringIdle r || (s.ringState r == Rst.faulted && !(s.rg r).ready)) &&
      (below 56 (s.ownsHostQ d)).all (fun q => (s.sendingAt (64 + q)).isNone) &&
      s.dvt.ingress.all (fun f => !(f.ring.any rings.contains)) &&
      s.dvt.queue.all (fun p => p.2.all fun x => !(x.ring.any rings.contains)) &&
      cans.all fun k => (s.cn k).tunTx.isEmpty

/-- A drawer's staged or waiting change transaction is discarded with ABORTED (R198). -/
def State.changeAbort (s : State) (cp : Nat) : State :=
  if s.lth.waiting.contains cp || !(s.items cp).isEmpty then
    let s := { s with lth := { s.lth with
      waiting := s.lth.waiting.filter (· != cp), staged := storePut [] s.lth.staged cp [] } }
    s.put F.LTH_CHG_STATUS_RESULT 8 0 0 cp
  else s

/-- What a drawer reset leaves of the recorder's records of a drawer (R401): staged, backlog and drop counts go. -/
def State.recDrawerReset (s : State) (d : Nat) : State :=
  { s with recd := { s.recd with
      staging := storeErase s.recd.staging d
      backlog := s.recd.backlog.filter fun p => p.1 != d
      lostLogs := storeErase s.recd.lostLogs d
      lostTraces := storeErase s.recd.lostTraces d
      lostFirst := storeErase s.recd.lostFirst d } }

/-- A WRLD reset abandons the drawer resets in progress (R57): each drawer goes back to RUNNING, or to IDLE where no feature commit has been
accepted, and reports no completion (log entry 128). -/
def State.drawerAbandon (s : State) : State :=
  s.each (below 16 fun d => decide (2 ≤ s.drwState d)) fun s d =>
    s.put F.DRW_G_STATE_STATE (if s.get F.DRW_FEAT_STATUS_RESULT 0 0 (d + 1) = 1 then 1 else 0) d

/-- A drawer reset completes (R93). -/
def State.drawerResetDone (s : State) (d : Nat) : State :=
  if s.drwState d < 2 ∨ !s.nothingLeft d then s
  else
    let s := s.dropRx d
    let s := s.each (below 256 fun r => s.ringOwner r == some d) State.ringOff
    let s := { s with
      regs := regResetBy (fun r cp i f => f.clr == Clr.drw && s.posOf d r cp i) s.regs
      drw := { s.drw with faults := storeErase s.drw.faults d } }
    let s := (s.dwlDrawerReset d).recDrawerReset d
    let s := (s.each (cpsOf d) State.changeAbort).each (cpsOf d) fun s cp =>
      { s with lth := { s.lth with results := storeErase s.lth.results cp } }
    ((s.put F.DRW_G_STATE_STATE 0 d).put F.DRW_G_STATE_DONE 1 d).put F.DRW_IRQ_STATUS_RESET_DONE 1 0 0 (d + 1)

end Sys2Proof.Machine
end

