-- ==== Sys2Proof/Machine/WorldOps.lean ====
section
/-! DEFINITION. Worlds (ch. 17): WCALL, GATE and WRET, traps of harts, call time-outs and the secure services, the WRLD reset,
and debug (R357 to R369), with the run-time errors of cores (R413, R420). -/

namespace Sys2Proof.Machine

/-- Whether a hart executes instructions now. -/
def HartSt.runs (x : HartSt) : Bool := !x.inReset && !x.halted

/-- Exception codes of the RISC-V privileged architecture. -/
abbrev Exc.fetch : Nat := 1
abbrev Exc.illegal : Nat := 2
abbrev Exc.load : Nat := 5
abbrev Exc.store : Nat := 7
abbrev Exc.virt : Nat := 22

/-- Registers of a 40-bit vector. -/
def State.monVec (s : State) : Nat := s.get F.WLD_MONVEC_LO_ADDR * 4 + s.get F.WLD_MONVEC_HI_ADDR * 2 ^ 32
def State.secVec (s : State) : Nat := s.get F.WLD_SECVEC_LO_ADDR * 4 + s.get F.WLD_SECVEC_HI_ADDR * 2 ^ 32

/-- An exception in a hart: in the secure world it is taken in M-mode at WLD_SECVEC and W stays 1 (R363); in the normal world
the hart's own trap registers, which the spec does not list, decide (log entry 18). -/
def State.hartTrap (s : State) (h code : Nat) : State :=
  let x := s.ht h
  if x.w then s.putHt h { x with trap := some code, pc := s.secVec, priv := 3, virt := false }
  else s.putHt h { x with trap := some code }

/-- Whether the secure services take calls (R365). -/
def State.svcOk (s : State) : Bool := s.get F.WLD_SVC_STATE == 1

/-- −2 as a0 shows it (R359). -/
def minusTwo : BitVec 64 := 0xFFFFFFFFFFFFFFFE#64

/-- A hart's registers with a0 replaced. -/
def HartSt.a0 (x : HartSt) (v : BitVec 64) : HartSt := { x with x := x.x.set 10 v }

/-- STYLE of a hart: gateway when its GATEWAY bit is 1 (R357). -/
def State.gateway (s : State) (h : Nat) : Bool := bitOf (s.imgF 9 8 0 3 5 0) h

/-- The entry snapshot of a hart. -/
def HartSt.snapshot (x : HartSt) : HartSt := { x with snap := some (x.x, x.f, x.fcsr) }

/-- WCALL (R358, R359). -/
def State.wcall (s : State) (h : Nat) : State :=
  let x := s.ht h
  if !x.runs then s
  else if x.virt then s.hartTrap h Exc.virt
  else if x.w || s.gateway h then s.hartTrap h Exc.illegal
  else
    let next := (x.pc + 4) % 2 ^ 64
    if s.svcOk && s.secureAddr s.monVec && s.secureAddr s.secVec then
      s.putHt h { x.snapshot with
        mwepc := next, ppriv := x.priv, forced := false, w := true, priv := 3, pc := s.monVec, timing := true
        counting := false }
    else s.putHt h { x.a0 minusTwo with pc := next }

/-- Whether a physical address is a valid gate entry (R360). -/
def State.gateEntry (s : State) (pa : Nat) : Bool :=
  (List.range 256).any fun k =>
    s.imgF 10 2 k 1 31 31 == 1 && s.imgF 10 2 k 0 31 0 + s.imgF 10 2 k 1 7 0 * 2 ^ 32 == pa

/-- GATE at physical address `pa` (R358, R361). -/
def State.gateCall (s : State) (h pa : Nat) : State :=
  let x := s.ht h
  let ra := (x.x.getD 1 0#64).toNat
  if !x.runs then s
  else if x.virt then s.hartTrap h Exc.virt
  else if x.w || !s.gateway h || !s.gateEntry pa then s.hartTrap h Exc.illegal
  else if s.svcOk then
    s.putHt h { x.snapshot with
      mwepc := ra, ppriv := x.priv, forced := false, w := true, pc := (x.pc + 4) % 2 ^ 64, timing := true
      counting := false }
  else s.putHt h { x.a0 minusTwo with pc := ra }

/-! Debug enables (R368) -/

/-- The enables from the lifecycle state. -/
def State.lcEnables (s : State) : Nat :=
  match s.get F.TIL_LC_STATE with
  | 0 => 0xF
  | 3 => 0x3
  | _ => 0

/-- The effective enables. -/
def State.dbgEnables (s : State) : Nat :=
  let un := if s.get F.TIL_LC_STATE = 4 then 0 else s.get F.WLD_DBG_UNLOCK
  let e := s.lcEnables ||| un
  e ||| (e / 2 &&& 5)

/-- The acting and observing enables of a world. -/
def State.dbgAct (s : State) (secure : Bool) : Bool := bitOf s.dbgEnables (if secure then 3 else 1)
def State.dbgSee (s : State) (secure : Bool) : Bool := bitOf s.dbgEnables (if secure then 2 else 0)

/-- The world of a Mitre core (R355). -/
def State.mtrSecure (s : State) (c : Nat) : Bool := bitOf (s.get F.WLD_MTR_WORLD_SECURE) (if s.mtrSplit then c else 0)

/-- A halted hart whose enable is not in force resumes (R369). -/
def State.hartSettle (s : State) (h : Nat) : State :=
  let x := s.ht h
  if x.halted && !s.dbgAct x.w then s.putHt h { x with halted := false } else s

/-- A Mitre core resumes from a debug halt. -/
def State.mtrResume (s : State) (c : Nat) : State :=
  let was := bitOf s.mtr.dbg c
  let s := { s with mtr := { s.mtr with dbg := setBitTo s.mtr.dbg c false, dbgReq := setBitTo s.mtr.dbgReq c false } }
  if was && !s.mtrSplit && s.mtrState == Mtr.running then s.checkpoint else s

/-- An enable that falls resumes what was halted under it (R369). -/
def State.dbgSettle (s : State) : State :=
  let s := s.each (List.range 6) State.hartSettle
  s.each (List.range 2) fun s c => if bitOf s.mtr.dbg c && !s.dbgAct (s.mtrSecure c) then s.mtrResume c else s

/-- A hart is back in the normal world: a pending halt request halts it with NRM_INV (R369). -/
def State.backToNormal (s : State) (h : Nat) : State :=
  let x := s.ht h
  (if x.haltReq then s.putHt h { x with haltReq := false, halted := s.dbgAct false } else s).hartSettle h

/-- WRET (R358, R362). -/
def State.wret (s : State) (h : Nat) : State :=
  let x := s.ht h
  if !x.runs then s
  else if !x.w || !(x.priv == 3 || (s.gateway h && x.priv == x.ppriv)) then s.hartTrap h Exc.illegal
  else
    (s.putHt h { x with w := false, priv := x.ppriv, pc := x.mwepc, timing := false, counting := true, snap := none }).backToNormal h

/-- A write or a read of hdrawer, which gives its value (R227). -/
def State.hdrawerAccess (s : State) (h : Nat) (v : Option Nat) : State :=
  let x := s.ht h
  if !x.runs then s
  else if x.virt then s.hartTrap h Exc.virt
  else if x.priv = 0 then s.hartTrap h Exc.illegal
  else (s.putHt h { x with hdrawer := v.elim x.hdrawer (· % 16), pc := (x.pc + 4) % 2 ^ 64 }).answer true x.hdrawer

/-! The secure services (R365 to R367) -/

/-- A hart is forced out of the secure world: its snapshot comes back with a0 = −2. -/
def State.forceOut (s : State) (h : Nat) : State :=
  let x := s.ht h
  if !x.w || x.inReset then s
  else
    let x := match x.snap with
      | some (a, b, c) => { x with x := a, f := b, fcsr := c }
      | none => x
    (s.putHt h { x.a0 minusTwo with
      w := false, priv := x.ppriv, pc := x.mwepc, forced := true, timing := false, counting := true, snap := none }).backToNormal h

/-- The registers of a command set take their reset values. -/
def State.clearSet (s : State) (cp : Nat) : State :=
  { s with regs := regResetBy (fun r c _ f => f.clr == Clr.drw && c == cp && (regDef r).win == .til) s.regs }

/-- A WRLD reset cancels what the secure command set of the Till holds (R375, R376): a queued command is withdrawn, a running one
completes first. -/
def State.tillWrld (s : State) : State :=
  let s := { s with til := { s.til with queue := s.til.queue.filter (· != 17) } }
  if s.til.busy = some 17 then { s with til := { s.til with wrldPend := true } } else s.clearSet 17

/-- The WRLD reset (R366 step 4). -/
def State.wrldReset (s : State) : State :=
  let s := s.drawerAbandon
  let s := { s with regs := regResetBy (fun _ _ _ f => f.clr == Clr.wrld) s.regs }
  let s := s.each (List.range 41) fun s n => (s.put F.FAB_ISL_STATE_CLAIM 0 n).claimZero n
  let s := s.forget fun a => (isSram a || isDram a) && s.secureAddr a
  { s.tillWrld with wld := ⟨true⟩ }

/-- Steps 2 to 4 of R366. -/
def State.forceAll (s : State) : State :=
  let s := s.each (List.range 6) State.forceOut
  let s := s.each (below 256 s.ringSecure) State.ringOff
  s.wrldReset

/-- The services enter RESTARTING, and steps 2 to 4 run. -/
def State.restartBegin (s : State) : State :=
  ((s.put F.WLD_SVC_STATE 2).put F.WLD_EVT_RESTARTING 1).forceAll

/-- The services are DEAD. -/
def State.svcDead (s : State) : State := ((s.put F.WLD_SVC_STATE 3).put F.WLD_EVT_DEAD 1).safenSet 5

/-- A failure of a call or a restart (R366): `call` says a call timed out, whose harts are forced out in any case. -/
def State.svcFail (s : State) (call : Bool) : State :=
  let n := s.get F.WLD_SVC_RESTARTS
  if n < 3 then (s.put F.WLD_SVC_RESTARTS (n + 1)).restartBegin
  else if call then s.svcDead.forceAll
  else s.svcDead

/-- The call of a hart times out (R366). -/
def State.callTimeout (s : State) (h : Nat) : State :=
  let s := ((s.put F.WLD_TIMEOUT_HART h).put F.WLD_TIMEOUT_VALID 1).put F.WLD_TIMEOUT_NS_NS s.now.ns
  s.svcFail true

/-- CALL_TIMEOUT: the call timer of a hart reaches 10 ms. -/
def State.callTimer (s : State) (h : Nat) : State :=
  if (s.ht h).w && (s.ht h).timing then s.callTimeout h else s

/-- The hart that takes the restart entry: WLD_SVC.HART, or the lowest that is not retired. -/
def State.restartHart (s : State) : Nat :=
  let h := s.get F.WLD_SVC_HART
  if h < 6 ∧ !s.unitOut 5 h then h else ((List.range 6).find? fun k => !s.unitOut 5 k).getD h

/-- The wipe ends, and the restart hart takes the restart entry (R366 step 5). -/
def State.wipeDone (s : State) : State :=
  if !s.wld.wiping then s
  else
    let s := { s with wld := ⟨false⟩ }
    if s.get F.WLD_SVC_STATE = 2 then
      let h := s.restartHart
      let x := s.ht h
      s.putHt h { x.snapshot with
        mwepc := x.pc, ppriv := x.priv, w := true, priv := 3, virt := false, pc := 0x100, timing := false, counting := false }
    else s

/-- READY is written (R365). -/
def State.svcReady (s : State) : State :=
  if s.get F.WLD_SVC_STATE = 0 ∨ s.get F.WLD_SVC_STATE = 2 then s.put F.WLD_SVC_STATE 1 else s

/-- RESTART is written in AVAILABLE (R366). -/
def State.svcRestart (s : State) : State := if s.svcOk then s.restartBegin else s

/-- READY is not written within 1 s of the restart entry. -/
def State.restartTimeout (s : State) : State :=
  if s.get F.WLD_SVC_STATE = 2 ∧ !s.wld.wiping then s.svcFail false else s

/-- A secure write of WLD_SVC. -/
def State.svcWrite (s : State) (w : Nat) : State :=
  let s := s.put F.WLD_SVC_HART (bitsOf w 10 8)
  let s := if bitOf w 16 then s.svcReady else s
  if bitOf w 17 then s.svcRestart else s

/-- A secure write of WLD_RING_SEC_k: only bits of DISABLED rings change (R356). -/
def State.ringSecWrite (s : State) (k w : Nat) : State :=
  let old := s.get F.WLD_RING_SEC_SECURE k
  let new := (List.range 32).foldl (fun v b =>
    if s.ringState (32 * k + b) = Rst.disabled then setBitTo v b (bitOf w b) else v) old
  s.put F.WLD_RING_SEC_SECURE new k

/-- A secure write of WLD_MTR_WORLD: ignored unless the unit is HALTED (R356). -/
def State.mtrWorldWrite (s : State) (w : Nat) : State :=
  if s.mtrState == Mtr.halted then s.put F.WLD_MTR_WORLD_SECURE (w % 4) else s

/-! Core errors at run time (R413, R420) -/

/-- A core is reset alone and starts again at the boot firmware entry. -/
def State.coreReset (s : State) (c : Nat) : State := s.putHt c { HartSt.rst with inReset := false }

/-- A core stops for good: its call, if one runs, counts as timed out (R420). -/
def State.coreStop (s : State) (c : Nat) : State :=
  let w := (s.ht c).w && !(s.ht c).inReset
  let s := s.putHt c HartSt.rst
  if w then s.callTimeout c else s

/-- An uncorrectable error of a core at run time (R413): the first since POR resets it, the second retires it. -/
def State.coreError (s : State) (c : Nat) : State :=
  if s.unitOut 5 c then s
  else if bitOf (s.get F.FAB_CORE_STAT_RUN_ERR) c then (s.retireUnit 5 c 0x08 0 0).coreStop c
  else (s.setBit F.FAB_CORE_STAT_RUN_ERR c).coreReset c

/-! Debug (R369) -/

/-- A debug request that no enable permits: no effect, and an access error with SOURCE 4 and cause SECURE. -/
def State.dbgDenied (s : State) (secure write : Bool) (addr : Nat) : State :=
  (s.aerr ⟨0, secure, .debug⟩ addr write Aerr.secure).answer false 0

/-- A halt request. -/
def State.dbgHalt (s : State) : DbgTarget → State
  | .hart h =>
    let x := s.ht h
    if x.inReset then s
    else if s.dbgAct x.w then s.putHt h { x with halted := true }
    else if x.w then s.putHt h { x with haltReq := true }
    else s.dbgDenied false true 0
  | .mitre c =>
    let sec := s.mtrSecure c
    if s.dbgAct sec then
      if s.mtrSplit then { s with mtr := { s.mtr with dbg := setBitTo s.mtr.dbg c true } }
      else if s.mtrState == Mtr.running || s.mtrState == Mtr.resolving then { s with mtr := { s.mtr with dbgReq := 1 } }
      else { s with mtr := { s.mtr with dbg := 1 } }
    else if sec then { s with mtr := { s.mtr with dbgReq := setBitTo s.mtr.dbgReq c true } }
    else s.dbgDenied false true 0

/-- A resume request. -/
def State.dbgResume (s : State) : DbgTarget → State
  | .hart h =>
    let x := s.ht h
    if s.dbgAct x.w then s.putHt h { x with halted := false, haltReq := false } else s.dbgDenied x.w true 0
  | .mitre c => if s.dbgAct (s.mtrSecure c) then s.mtrResume c else s.dbgDenied (s.mtrSecure c) true 0

/-- A single step of a halted hart: the instruction it retires, then the halt. A call without SEC_INV runs whole. -/
def State.dbgStep (s : State) (h : Nat) (k : StepKind) : State :=
  let x := s.ht h
  if !s.dbgAct x.w then s.dbgDenied x.w true 0
  else if !x.halted then s
  else
    let s := s.putHt h { x with halted := false }
    let s := match k with
      | .plain pc => s.putHt h { s.ht h with pc := pc % 2 ^ 64 }
      | .wcall => s.wcall h
      | .gate pa => s.gateCall h pa
      | .wret => s.wret h
    let y := s.ht h
    if y.w && !s.dbgAct true then s.putHt h { y with haltReq := true }
    else s.putHt h { y with halted := s.dbgAct y.w }

end Sys2Proof.Machine
end

