-- ==== Sys2Proof/Machine/TillOps.lean ====
section
/-! DEFINITION. The Till (ch. 18): slots, command sets and their queue, the checks of R377 in order, the operations, tokens and the
lifecycle, with the installation of MACsec associations (R286, R287). -/

namespace Sys2Proof.Machine

/-! Slots (R370 to R375) -/

def State.til_ (s : State) (k : Nat) : SlotSt := storeGet SlotSt.empty s.til.slots k

def State.putTil (s : State) (k : Nat) (x : SlotSt) : State :=
  { s with til := { s.til with slots := storePut SlotSt.empty s.til.slots k x } }

def SlotSt.type (x : SlotSt) : Nat := bitsOf x.w0 3 0
def SlotSt.full (x : SlotSt) : Bool := bitOf x.w0 4
def SlotSt.imported (x : SlotSt) : Bool := bitOf x.w0 5
def SlotSt.export_ (x : SlotSt) : Bool := bitOf x.w0 6
def SlotSt.volatile_ (x : SlotSt) : Bool := bitOf x.w0 7
def SlotSt.binds (x : SlotSt) (lc : Nat) : Bool := bitOf x.w0 (8 + lc)
def SlotSt.usage (x : SlotSt) : Nat := bitsOf x.w0 23 16
def SlotSt.len (x : SlotSt) : Nat := bitsOf x.w0 31 24
def SlotSt.owns (x : SlotSt) (d : Nat) : Bool := bitOf x.w1 d
def SlotSt.limited (x : SlotSt) : Bool := bitOf x.w1 16
def SlotSt.noUses (x : SlotSt) : Bool := x.limited && x.w2 == 0

/-- Take one use of a key (R374). -/
def State.takeUse (s : State) (k : Nat) : State :=
  let x := s.til_ k
  if x.limited then s.putTil k { x with w2 := x.w2 - 1 } else s

/-- Every association bound to a slot loses VALID, and the engine's copy of the key is zeroed (R287). -/
def State.saUnbind (s : State) (k : Nat) : State :=
  s.each (List.range 280) fun s n =>
    let p := n / 20
    let a := n % 20
    if s.is F.MSC_SA_CTRL_VALID p a && s.get F.MSC_SA_CTRL_SLOT p a == k then
      { s with saKey := storeErase s.saKey n }.put F.MSC_SA_CTRL_VALID 0 p a
    else s

/-- Destroy a slot (R375). -/
def State.slotDestroy (s : State) (k : Nat) : State := (s.putTil k SlotSt.empty).saUnbind k

/-- Destroy every volatile slot (R375). -/
def State.volatileLost (s : State) : State :=
  s.each (below 256 fun k => (s.til_ k).full && (s.til_ k).volatile_) State.slotDestroy

/-! Command sets (R376) -/

/-- The drawer a command set speaks for: none for the secure world's. -/
def setDrawer (cp : Nat) : Option Nat := if cp = 17 then none else if cp = 0 then some 0 else some (cp - 1)

/-- Whether a set is the keeper's or the secure world's. -/
def setPrivileged (cp : Nat) : Bool := cp == 17 || cp ≤ 1

/-- The operand registers of a set. -/
def State.tOp (s : State) (cp : Nat) : Nat := s.get F.TIL_CMD_OP 0 0 cp
def State.tSlot (s : State) (cp : Nat) : Nat := s.get F.TIL_CMD_SLOT 0 0 cp
def State.tSlot2 (s : State) (cp : Nat) : Nat := s.get F.TIL_CMD_SLOT2 0 0 cp
def State.tDslot (s : State) (cp : Nat) : Nat := s.get F.TIL_CMD_DSLOT 0 0 cp
def State.tParam (s : State) (cp : Nat) : Nat := s.get F.TIL_PARAM_VALUE 0 0 cp
def State.tNew (s : State) (cp i : Nat) : Nat := s.get F.TIL_NEW_VALUE i 0 cp
def State.tSrc (s : State) (cp : Nat) : Nat := s.get F.TIL_SRC_LO_VALUE 0 0 cp + s.get F.TIL_SRC_HI_VALUE 0 0 cp * 2 ^ 32
def State.tDst (s : State) (cp : Nat) : Nat := s.get F.TIL_DST_LO_VALUE 0 0 cp + s.get F.TIL_DST_HI_VALUE 0 0 cp * 2 ^ 32
def State.tSrcLen (s : State) (cp : Nat) : Nat := s.get F.TIL_SRC_LEN_VALUE 0 0 cp
def State.tDstLen (s : State) (cp : Nat) : Nat := s.get F.TIL_DST_LEN_VALUE 0 0 cp

/-- The operations of R378. -/
def opKnown (op : Nat) : Bool := (decide (1 ≤ op) && decide (op ≤ 6)) || (decide (8 ≤ op) && decide (op ≤ 0x16))

/-- A write of TIL_CMD (R376): queued from IDLE or DONE, else REJ. -/
def State.tillGo (s : State) (cp w : Nat) : State :=
  let st := s.get F.TIL_STAT_STATE 0 0 cp
  if st = 0 ∨ st = 3 then
    let s := (s.store .TIL_CMD w 0 0 cp).put F.TIL_STAT_STATE 1 0 0 cp
    { s with til := { s.til with queue := s.til.queue ++ [cp] } }
  else s.put F.TIL_STAT_REJ 1 0 0 cp

/-- Arbitration point 4 grants a queued command, when none runs. One that names no operation ends at once with BAD_OP. -/
def State.tillGrant (s : State) : State :=
  let cs := (List.range s.til.queue.length).map fun i =>
    let d := (setDrawer (at0 s.til.queue i)).getD 0
    (⟨0, drawerFin d, .core, i⟩ : Claim)
  if s.til.busy.isSome then s
  else
    match claimPick (s.get F.FAB_ARB_PTR_PTR 4) (s.claimRank 4) cs with
    | none => s
    | some c =>
      let cp := at0 s.til.queue c.num
      let s := s.arbMove 4 c.drawer
      let res := if opKnown (s.tOp cp) then none else some (2, 0)
      { s with til := { s.til with queue := s.til.queue.filter (· != cp), busy := some cp, result := res } }.put
        F.TIL_STAT_STATE 2 0 0 cp

/-! Buffers (R376) -/

/-- Split `n` bytes from `a` at multiples of `unit`. -/
def splitAt_ (unit : Nat) : Nat → Nat → Nat → List Piece
  | 0, _, _ => []
  | k + 1, a, n =>
    if n = 0 then []
    else
      let m := min n (unit - a % unit)
      (a, m) :: splitAt_ unit k (a + m) (n - m)

/-- Where one piece of a buffer lies; none on a fault, which is recorded as a DMA fault is (R229). The command ends once the islands it
needs are awake. -/
def State.bufPlace (s : State) (cp : Nat) (h : HostMem) (wr : Bool) (p : Piece) : Option Place × State :=
  match setDrawer cp with
  | none => if s.memCause 0 true wr p.1 = 0 then (some ⟨false, p.1⟩, (s.memHeld p.1).elim s s.ungate) else (none, s)
  | some d =>
    let s := if s.paged d && (s.tlbFind d false p.1 wr).isNone then s.walkDone d false h p.1 wr else s
    match s.faultOf d false h wr p.1 with
    | some f => (none, f.err.elim s fun e => s.aerr e.1 e.2.1 e.2.2.1 e.2.2.2)
    | none =>
      match s.located d false p.1 wr with
      | none => (none, s)
      | some out =>
        if out.host then if s.outboundCause d != 0 then (none, s) else (some out, s)
        else (some out, (s.memHeld out.addr).elim s s.ungate)

/-- The whole source is read; none on a fault. -/
def State.bufRead (s : State) (cp : Nat) (h : HostMem) : List Piece → Option (List Nat) × State
  | [] => (some [], s)
  | p :: rest =>
    match s.bufPlace cp h false p with
    | (none, s) => (none, s)
    | (some out, s) =>
      let l := if out.host then hostBytes h out.addr p.2 else memBytes s.mem out.addr p.2
      match s.bufRead cp h rest with
      | (some m, s) => (some (l ++ m), s)
      | (none, s) => (none, s)

/-- The destination is written unit by unit; the bytes written before a fault, and whether all are. -/
def State.bufWrite (s : State) (cp : Nat) (h : HostMem) (done : Nat) : List Piece → List Nat → Nat × Bool × State
  | [], _ => (done, true, s)
  | p :: rest, l =>
    match s.bufPlace cp h true p with
    | (none, s) => (done, false, s)
    | (some out, s) =>
      let d := (setDrawer cp).getD 0
      let s := if out.host then s.hostWrite d 2 0 p.1 out.addr (l.take p.2) else s.memStore out.addr (l.take p.2)
      let s := if cp = 17 then s else s.dirtyLog d p.1
      s.bufWrite cp h (done + p.2) rest (l.drop p.2)

/-! The checks (R377) -/

/-- The usage bit a command needs of SLOT. -/
def opUsage (op : Nat) : Option Nat :=
  match op with
  | 3 => some 6 | 4 => some 6 | 8 => some 0 | 9 => some 1 | 0xA => some 4 | 0xB => some 4 | 0xD => some 2 | 0xE => some 3
  | 0xF => some 7 | 0x10 => some 5
  | _ => none

/-- Whether a command names SLOT. -/
def opSlot (op : Nat) : Bool := (opUsage op).isSome || op == 5 || op == 6 || op == 0x12

/-- Whether a command makes a key in DSLOT. -/
def opNew (op : Nat) : Bool := op == 1 || op == 2 || op == 3 || op == 0xF || op == 0x10

/-- Whether PARAM is in range for an operation. -/
def paramOk (op p : Nat) : Bool :=
  if op = 0xC then decide (p ≤ 2)
  else if op = 8 ∨ op = 9 ∨ op = 0xA ∨ op = 0xB ∨ op = 0xD ∨ op = 0xE ∨ op = 0x10 then decide (p ≤ 1)
  else p == 0

/-- The usages a key type allows (R372). -/
def typeUsage (t : Nat) : Nat :=
  if t = 1 ∨ t = 2 then 0x43 else if t = 3 then 0x30 else if t = 4 then 0x20 else if t = 5 ∨ t = 6 then 0x84
  else if t = 7 then 4 else if 8 ≤ t ∧ t ≤ 10 then 8 else 0

/-- Whether an operation makes keys of a type (R372). -/
def opMakes (op t : Nat) : Bool :=
  if op = 2 then decide (1 ≤ t ∧ t ≤ 10)
  else if op = 0xF then t == 4
  else if op = 0x10 then decide (1 ≤ t ∧ t ≤ 4)
  else decide (1 ≤ t ∧ t ≤ 7)

/-- Whether a length suits a type (R372). -/
def lenSuits (t n : Nat) : Bool :=
  match t with
  | 1 => n == 16 | 2 => n == 32 | 3 => decide (16 ≤ n ∧ n ≤ 128) | 4 => decide (16 ≤ n ∧ n ≤ 128)
  | 5 => n == 32 | 6 => n == 48 | 7 => n == 32 | 8 => n == 64 | 9 => n == 96 | 10 => n == 32
  | _ => false

/-- The public key bytes of a type. -/
def pubLen (t : Nat) : Nat := if t = 5 ∨ t = 8 then 64 else if t = 6 ∨ t = 9 then 96 else 32

/-- Signature and digest bytes of a type. -/
def sigLen (t : Nat) : Nat := if t = 6 ∨ t = 9 then 96 else 64
def digLen (t : Nat) : Nat := if t = 6 ∨ t = 9 then 48 else 32

/-- Digest bytes of a PARAM. -/
def hashLen (p : Nat) : Nat := if p = 0 then 32 else if p = 1 then 48 else 64

/-- The attributes of the new key as they would be stored (R371). -/
def State.newSlot (s : State) (cp : Nat) (key : List Nat) : SlotSt :=
  let op := s.tOp cp
  let imp := if op = 1 then false else if op = 0x10 then (s.til_ (s.tSlot cp)).imported else true
  let w0 := setBitTo (setBitTo (s.tNew cp 0 &&& 0xFFFF1FFF) 4 true) 5 imp
  let w1 := s.tNew cp 1 % 2 ^ 17
  ⟨w0, w1, if bitOf w1 16 then s.tNew cp 2 % 2 ^ 25 else 0, key⟩

/-- Whether the new key is refused with BAD_ATTR (R372). -/
def State.badAttr (s : State) (cp : Nat) : Bool :=
  let op := s.tOp cp
  let x := s.newSlot cp []
  !opMakes op x.type || !lenSuits x.type x.len || (x.usage &&& typeUsage x.type) != x.usage ||
    (!x.imported && x.export_) || !x.binds (s.get F.TIL_LC_STATE) ||
    (x.limited && (x.w2 == 0 || decide (x.w2 > 2 ^ 24))) ||
    (op == 0xF && x.len != (if (s.til_ (s.tSlot cp)).type = 6 then 48 else 32))

/-- Whether the lengths suit the command, as far as the registers show. -/
def State.lenOk (s : State) (cp : Nat) : Bool :=
  let op := s.tOp cp
  let p := s.tParam cp
  let n := s.tSrcLen cp
  let m := s.tDstLen cp
  let x := s.til_ (s.tSlot cp)
  let len := bitsOf (s.tNew cp 0) 31 24
  decide (n ≤ 65536) && decide (m ≤ 65536) &&
    (match op with
    | 2 => n == len
    | 3 => n == 40 + len
    | 4 => decide (40 + (s.til_ (s.tSlot2 cp)).len ≤ m)
    | 6 => decide (pubLen x.type ≤ m)
    | 8 => decide (16 ≤ n) && (p == 1 || decide (n - 16 ≤ m))
    | 9 => decide (16 ≤ n) && (p == 1 || decide (n - 16 ≤ m))
    | 0xA => decide (hashLen p ≤ m)
    | 0xB => decide (hashLen p ≤ n)
    | 0xC => decide (hashLen p ≤ m)
    | 0xD => decide (sigLen x.type ≤ m) && (p == 0 || n == digLen x.type)
    | 0xE => decide (sigLen x.type ≤ n) && (p == 0 || n == sigLen x.type + digLen x.type)
    | 0xF => n == (if x.type = 6 then 96 else 64)
    | 0x10 => decide (4 ≤ n)
    | 0x12 => n == 32 && decide (360 ≤ m)
    | 0x13 => decide (32 ≤ m)
    | 0x14 => n == 248
    | 0x15 => n == 248
    | 0x16 => n == 96
    | _ => true)

/-- Whether a requester may create in DSLOT (R373). -/
def State.mayCreate (s : State) (cp : Nat) : Bool :=
  match setDrawer cp with
  | none => true
  | some d => s.tillHolder (s.tDslot cp) == some d && bitOf (s.tNew cp 1) d

/-- Whether a requester may use, or destroy, a slot (R373). -/
def State.mayUse (s : State) (cp k : Nat) : Bool := (setDrawer cp).all (s.til_ k).owns
def State.mayDestroy (s : State) (cp k : Nat) : Bool :=
  setPrivileged cp || (setDrawer cp).any fun d => s.tillHolder k == some d

/-- Whether SLOT's key is of a type the command cannot take. -/
def badType (op p t : Nat) : Bool :=
  (op == 6 && (decide (t < 5) || decide (10 < t))) || ((op == 0xD || op == 0xE) && p == 1 && (t == 7 || t == 10))

/-- The checks before the source is read; 0 when they pass. -/
def State.tillCheck (s : State) (cp : Nat) : Nat :=
  let op := s.tOp cp
  let x := s.til_ (s.tSlot cp)
  let y := s.til_ (s.tSlot2 cp)
  let u := opUsage op
  if !opKnown op || !paramOk op (s.tParam cp) then 2
  else if op = 0x12 ∧ 1 ≤ cp ∧ cp ≤ 16 ∧ !s.feat (cp - 1) 14 then 3
  else if 0x13 ≤ op ∧ !setPrivileged cp then 4
  else if (opSlot op && !x.full) || (op == 4 && !y.full) || (opNew op && (s.til_ (s.tDslot cp)).full) then 5
  else if opNew op && !s.mayCreate cp then 6
  else if (op == 5 && !s.mayDestroy cp (s.tSlot cp)) || (opSlot op && op != 5 && !s.mayUse cp (s.tSlot cp)) ||
      (op == 4 && !s.mayUse cp (s.tSlot2 cp)) then 7
  else if u.any (fun b => !bitOf x.usage b) || badType op (s.tParam cp) x.type then 8
  else if u.isSome && x.noUses then 9
  else if opNew op && s.badAttr cp then 10
  else if !s.lenOk cp then 11
  else 0

/-- Whether a command draws from the DRBG, and so fails with ENTROPY while the source is not healthy (R380). -/
def opEntropy (op : Nat) : Bool := op == 1 || op == 4 || op == 0xD || op == 0x11 || op == 0x13

/-! Tokens and the lifecycle (R383 to R387) -/

/-- VENDOR and OWNER as bytes (R384). -/
def vendorDigest : List Nat := (List.range 48).map fun n => Config.vendorByte n % 256

/-- The authority digest of the current state (R383). -/
def State.authority (s : State) : List Nat :=
  let lc := s.get F.TIL_LC_STATE
  if lc = 0 ∨ lc = 4 then vendorDigest else s.til.owner

/-- The unit's identifier as bytes. -/
def State.uidBytes (s : State) : List Nat := (List.range 4).flatMap fun i => leBytes 4 (s.get F.CARC_UID_UID i)

/-- Whether a token passes (R385). -/
def State.tokenOk (s : State) (kind : Nat) (l : List Nat) : Bool :=
  slice l 0 4 == leBytes 4 0x434C5A4C && slice l 4 2 == leBytes 2 kind && at0 l 7 == 0 && slice l 8 16 == s.uidBytes &&
    (s.til.nonce.any fun x => slice l 0x18 32 == x.1 && decide (s.ztm.raw < x.2 + 60000000000)) &&
    sha384 (slice l 0x38 96) == s.authority &&
    ecdsaVerifies (slice l 0x38 96) (slice l 0 0x98) (slice l 0x98 96)

/-- Whether LC_CHANGE may go to a state (R383). -/
def State.lcAllowed (s : State) (t : Nat) : Bool :=
  match s.get F.TIL_LC_STATE with
  | 0 => (t == 1 && s.is F.TIL_LC_OWNER_SET) || t == 4
  | 1 => t == 2 || t == 4
  | 2 => t == 3 || t == 4
  | 3 => t == 2 || t == 4
  | _ => false

/-- The loop of a lifecycle change (R386): slots that the new state does not bind go, and the debug unlock value with them. -/
def State.lcLoop (s : State) (t : Nat) : State :=
  (s.each (below 256 fun k => (s.til_ k).full && !(s.til_ k).binds t) State.slotDestroy).put F.WLD_DBG_UNLOCK 0

/-- A lifecycle change is under way (R386): its intent is journaled, and the loop has run. -/
def State.lcBegin (s : State) (t : Nat) : State :=
  ({ s.lcLoop t with til := { (s.lcLoop t).til with intent := some t } }).dbgSettle

/-- The loop and the commit of a lifecycle change (R386). -/
def State.lcCommit (s : State) (t : Nat) : State :=
  ({ (s.lcLoop t).put F.TIL_LC_STATE t with til := { (s.lcLoop t).til with intent := none } }).dbgSettle

/-- The lifecycle change that is under way is committed. -/
def State.lcEnd (s : State) : State :=
  match s.til.intent with
  | some v => s.lcCommit v
  | none => s

/-! The operations (R378, R379) -/

/-- `n` bytes of DRBG output, and the state that has used them. -/
def State.draw (s : State) (n : Nat) : List Nat × State :=
  ((List.range n).map fun k => Config.drbg (s.til.draws + k) % 256, { s with til := { s.til with draws := s.til.draws + n } })

/-- The digest of a message (PARAM 0 SHA-256, 1 SHA-384, 2 SHA-512). -/
def digest (p : Nat) (m : List Nat) : List Nat := if p = 0 then sha256 m else if p = 1 then sha384 m else sha512 m

/-- The curve and the digest of an ECDSA key type (R379). -/
def curveOf (type : Nat) : Curve := if type = 6 ∨ type = 9 then p384 else p256
def ecDigest (type : Nat) (m : List Nat) : List Nat := if type = 6 ∨ type = 9 then sha384 m else sha256 m

/-- The public key of a slot. -/
def SlotSt.pub (x : SlotSt) : List Nat :=
  if 8 ≤ x.type then x.key else if x.type = 7 then edPub x.key else (curveOf x.type).pub x.key

/-- The private identity key (R381), and its public key X‖Y. -/
def identitySecret : List Nat := beBytes 48 (p384.scalar ((List.range 56).map fun n => Config.idSecretByte n))
def identityPub : List Nat := p384.pub identitySecret

/-- A new key of a type from the DRBG: a private key of a curve lies below its order. -/
def State.newKey (s : State) (type n : Nat) : List Nat × State :=
  if type = 5 ∨ type = 6 then (beBytes n ((curveOf type).scalar (s.draw (n + 8)).1), (s.draw (n + 8)).2) else s.draw n

/-- A signature by slot key `x` (R379): Ed25519 of the message, else ECDSA of its digest with a value from the DRBG; PARAM 1 says that the
source is the digest. -/
def State.signBy (s : State) (x : SlotSt) (p : Nat) (m : List Nat) : List Nat × State :=
  if x.type = 7 then (edSign x.key m, s)
  else
    let c := curveOf x.type
    (c.sign x.key (if p = 1 then m else ecDigest x.type m) (s.draw (c.len + 8)).1, (s.draw (c.len + 8)).2)

/-- Whether a signature verifies under slot key `x`. -/
def SlotSt.verifies (x : SlotSt) (p : Nat) (sig m : List Nat) : Bool :=
  if x.type = 10 then edVerify x.key m sig else (curveOf x.type).verify x.key (if p = 1 then m else ecDigest x.type m) sig

/-- The tag of MAC (PARAM 0 SHA-256, 1 SHA-384). -/
def macTag (p : Nat) (key m : List Nat) : List Nat := if p = 0 then hmac256 key m else hmac384 key m

/-- The key that DERIVE makes: HKDF or the counter KDF over the two parts of the source (R379). -/
def deriveKey (p : Nat) (key src : List Nat) (n : Nat) : List Nat :=
  let k := leNat (slice src 0 4)
  if p = 0 then hkdf key (slice src 4 k) (src.drop (4 + k)) n else counterKdf key (slice src 4 k) (src.drop (4 + k)) n

/-- ENCRYPT of a source by PARAM: CTR, or GCM with its tag. -/
def encryptSrc (p : Nat) (key src : List Nat) : List Nat :=
  let a := leNat (slice src 12 4)
  if p = 0 then ctrCrypt key (src.take 16) (src.drop 16)
  else gcmSeal key (src.take 12) (slice src 16 a) (src.drop (16 + a))

/-- DECRYPT of a source by PARAM: none when a GCM tag does not match. -/
def decryptSrc (p : Nat) (key src : List Nat) : Option (List Nat) :=
  let a := leNat (slice src 12 4)
  let body := src.drop (16 + a)
  if p = 0 then some (ctrCrypt key (src.take 16) (src.drop 16))
  else gcmOpen key (src.take 12) (slice src 16 a) (body.take (body.length - 16)) (body.drop (body.length - 16))

/-- UNWRAP of a blob (R379). -/
def unwrapBlob (key src : List Nat) : Option (List Nat) :=
  gcmOpen key (src.take 12) (slice src 12 12) (slice src 24 (src.length - 40)) (src.drop (src.length - 16))

/-- The attribute words as bytes. -/
def SlotSt.attr (x : SlotSt) : List Nat := leBytes 4 x.w0 ++ leBytes 4 x.w1 ++ leBytes 4 x.w2

/-- The attestation statement of slot k (R382). -/
def State.statement (s : State) (k : Nat) (nonce : List Nat) : List Nat × State :=
  let x := s.til_ k
  let pub := if 5 ≤ x.type then x.pub else []
  let body := leBytes 4 0x54415A4C ++ leBytes 2 1 ++ [k, s.get F.TIL_LC_STATE] ++ s.uidBytes ++
    leBytes 4 (regGet s.regs .CARC_ID 0 0 0).toNat ++ x.attr ++ nonce ++ padTo pub 96 ++ identityPub
  (body ++ p384.sign identitySecret (sha384 body) (s.draw 56).1, (s.draw 56).2)

/-- The data bytes of an ENCRYPT or DECRYPT source, by PARAM. -/
def cryptLen (op p : Nat) (src : List Nat) : Option Nat :=
  if p = 0 then some (src.length - 16)
  else
    let extra := 16 + leNat (slice src 12 4) + (if op = 9 then 16 else 0)
    if extra ≤ src.length then some (src.length - extra) else none

/-- A command comes to result `r` with output `l` and leaves `t`: nothing happens when it fails, and in DEAD, or without health of the
entropy source, it fails (R371, R376). -/
def State.tillEnd (s : State) (cp r : Nat) (l : List Nat) (t : State) : Nat × List Nat × State :=
  let op := s.tOp cp
  let dead := s.get F.TIL_LC_STATE == 4 && op != 0xC && op != 6 && op != 5
  let noEnt := opEntropy op && !s.is F.TIL_ENT_HEALTH_OK
  if r ≠ 1 then (r, [], s) else if dead then (17, [], s) else if noEnt then (18, [], s) else (1, l, t)

/-- CHALLENGE: a nonce is in force from `at_` on (R384). -/
def State.nonceNew (s : State) (l : List Nat) (at_ : Nat) : State := { s with til := { s.til with nonce := some (l, at_) } }

/-- A new slot takes a key (R376). -/
def State.tillMake (s : State) (cp : Nat) (key : List Nat) (t : State) : State := t.putTil (s.tDslot cp) (s.newSlot cp key)

/-- What a command comes to once its source is read: RESULT, the destination's bytes, and the state with the slots changed. -/
def State.tillEffect (s : State) (cp : Nat) (src : List Nat) : Nat × List Nat × State :=
  let op := s.tOp cp
  let p := s.tParam cp
  let k := s.tSlot cp
  let x := s.til_ k
  let lc := s.get F.TIL_LC_STATE
  let n := bitsOf (s.tNew cp 0) 31 24
  match op with
  | 1 => let d := s.newKey (bitsOf (s.tNew cp 0) 3 0) n; s.tillEnd cp 1 [] (s.tillMake cp d.1 d.2)
  | 2 => s.tillEnd cp 1 [] (s.tillMake cp src s)
  | 3 =>
    let w0 := leNat (slice src 12 4)
    if bitsOf w0 3 0 ≠ bitsOf (s.tNew cp 0) 3 0 ∨ bitsOf w0 31 24 ≠ n then s.tillEnd cp 10 [] s
    else match unwrapBlob x.key src with
      | some key => s.tillEnd cp 1 [] (s.tillMake cp key s)
      | none => s.tillEnd cp 13 [] s
  | 4 =>
    let y := s.til_ (s.tSlot2 cp)
    let iv := (s.draw 12).1
    if !y.export_ then s.tillEnd cp 14 [] s
    else s.tillEnd cp 1 (iv ++ y.attr ++ gcmSeal x.key iv y.attr y.key) (s.draw 12).2
  | 5 => s.tillEnd cp 1 [] (s.slotDestroy k)
  | 6 => s.tillEnd cp 1 x.pub s
  | 8 =>
    match cryptLen op p src with
    | none => s.tillEnd cp 11 [] s
    | some m =>
      let m := if p = 1 then m + 16 else m
      if s.tDstLen cp < m then s.tillEnd cp 11 [] s else s.tillEnd cp 1 (encryptSrc p x.key src) s
  | 9 =>
    match cryptLen op p src with
    | none => s.tillEnd cp 11 [] s
    | some m =>
      if s.tDstLen cp < m then s.tillEnd cp 11 [] s
      else match decryptSrc p x.key src with
        | some l => s.tillEnd cp 1 l s
        | none => s.tillEnd cp 13 [] s
  | 0xA => s.tillEnd cp 1 (macTag p x.key src) s
  | 0xB => s.tillEnd cp (if macTag p x.key (src.drop (hashLen p)) = src.take (hashLen p) then 1 else 13) [] s
  | 0xC => s.tillEnd cp 1 (digest p src) s
  | 0xD => s.tillEnd cp 1 (s.signBy x p src).1 (s.signBy x p src).2
  | 0xE => s.tillEnd cp (if x.verifies p (src.take (sigLen x.type)) (src.drop (sigLen x.type)) then 1 else 13) [] s
  | 0xF =>
    match (curveOf x.type).agree x.key src with
    | some key => s.tillEnd cp 1 [] (s.tillMake cp key s)
    | none => s.tillEnd cp 13 [] s
  | 0x10 =>
    if 4 + leNat (slice src 0 4) > src.length then s.tillEnd cp 11 [] s
    else s.tillEnd cp 1 [] (s.tillMake cp (deriveKey p x.key src n) s)
  | 0x11 => s.tillEnd cp 1 (s.draw (s.tDstLen cp)).1 (s.draw (s.tDstLen cp)).2
  | 0x12 => if x.imported || x.export_ then s.tillEnd cp 15 [] s else s.tillEnd cp 1 (s.statement k src).1 (s.statement k src).2
  | 0x13 => s.tillEnd cp 1 (s.draw 32).1 ((s.draw 32).2.nonceNew (s.draw 32).1 s.ztm.raw)
  | 0x14 =>
    let r := if !s.tokenOk 1 src then 16 else if !s.lcAllowed (at0 src 6) then 17 else 1
    s.tillEnd cp r [] (s.lcBegin (at0 src 6))
  | 0x15 =>
    let r := if !s.tokenOk 2 src then 16 else if lc = 0 ∨ lc = 4 then 17 else 1
    s.tillEnd cp r [] (s.put F.WLD_DBG_UNLOCK (at0 src 6 % 16)).dbgSettle
  | 0x16 =>
    let r := if lc ≠ 0 ∨ s.is F.TIL_LC_OWNER_SET then 17 else 1
    s.tillEnd cp r [] ({ s with til := { s.til with owner := sha384 src } }.put F.TIL_LC_OWNER_SET 1)
  | _ => s.tillEnd cp 2 [] s

/-- The source bytes a command reads. -/
def State.tillSrcLen (s : State) (cp : Nat) : Nat :=
  let op := s.tOp cp
  if op = 1 ∨ op = 4 ∨ op = 5 ∨ op = 6 ∨ op = 0x11 ∨ op = 0x13 then 0 else s.tSrcLen cp

/-- The command that runs has a result. -/
def State.tillResult (s : State) (r n : Nat) : State := { s with til := { s.til with result := some (r, n) } }

/-- A command whose source bytes are read comes to its result, and its destination is written (R376). A use is taken when only the
data can still fail it (log entry 19). -/
def State.tillFinish (s : State) (cp : Nat) (h : HostMem) (src : List Nat) : State :=
  let e := s.tillEffect cp src
  let t := if (opUsage (s.tOp cp)).isSome && (e.1 == 1 || e.1 == 13) then e.2.2.takeUse (s.tSlot cp) else e.2.2
  if e.1 ≠ 1 then t.tillResult e.1 0
  else
    let w := t.bufWrite cp h 0 (splitAt_ 64 1026 (t.tDst cp) e.2.1.length) e.2.1
    w.2.2.tillResult (if w.2.1 then 1 else 12) w.1

/-- The nonce is used up by every LC_CHANGE and UNLOCK carried out (R385). -/
def State.nonceDone (s : State) (op : Nat) : State :=
  if op = 0x14 ∨ op = 0x15 then { s with til := { s.til with nonce := none } } else s

/-- Run the command of set `cp` to its end (R376, R377). -/
def State.tillRun (s : State) (cp : Nat) (h : HostMem) : State :=
  let op := s.tOp cp
  let c := s.tillCheck cp
  if c ≠ 0 then (s.tillResult c 0).nonceDone op
  else
    let rd := s.bufRead cp h (splitAt_ 4096 18 (s.tSrc cp) (s.tillSrcLen cp))
    match rd.1 with
    | none => ((if (opUsage op).isSome then rd.2.takeUse (s.tSlot cp) else rd.2).tillResult 12 0).nonceDone op
    | some src => (rd.2.tillFinish cp h src).nonceDone op

/-- The operation row `op`: the running command is that operation and has not run yet. -/
def State.tillOp (s : State) (op : Nat) (h : HostMem) : State :=
  match s.til.busy with
  | some cp => if s.tOp cp = op ∧ s.til.result = none then s.tillRun cp h else s
  | none => s

/-- The running command completes: a lifecycle change commits (R386), and its set reads DONE with RESULT (R376). -/
def State.tillDone (s : State) : State :=
  match s.til.busy, s.til.result with
  | some cp, some (r, n) =>
    let s := ((s.lcEnd.put F.TIL_STAT_STATE 3 0 0 cp).put F.TIL_STAT_RESULT r 0 0 cp).put F.TIL_STAT_DONE_EV 1 0 0 cp
    let s := s.put F.TIL_OUTLEN_OUTLEN n 0 0 cp
    let s := { s with til := { s.til with busy := none, result := none } }
    if cp = 17 ∧ s.til.wrldPend then { s with til := { s.til with wrldPend := false } }.clearSet 17 else s
  | _, _ => s

/-- The noise source fails its health test (R380): the command in progress ends with ENTROPY. -/
def State.entropyFail (s : State) : State :=
  let s := (s.put F.TIL_ENT_HEALTH_OK 0).bump F.TIL_ENT_FAILS 1
  if s.til.busy.isSome && s.til.result.isNone then s.tillResult 18 0 else s

/-- A restart of the source passes its health test. -/
def State.entropyPass (s : State) : State := s.put F.TIL_ENT_HEALTH_OK 1

/-! MACsec associations (R286) -/

/-- RESULT of an INSTALL by a tag on association `a` of port `p` with slot `k`. -/
def State.saJudge (s : State) (t : Tag) (p a k : Nat) : Nat :=
  let d := t.drawer.val
  let x := s.til_ k
  let pn := s.saPn p a
  if !(t.secure || d == 0 || d == s.get F.MSC_CFG_OWNER p) then 2
  else if !t.secure && d != 0 && !s.feat d 6 then 3
  else if !x.full || !(t.secure || x.owns d) || !bitOf x.usage (if a < 4 then 0 else 1) ||
      x.type != 1 + s.get F.MSC_CFG_CIPHER p % 2 || x.noUses then 4
  else if s.get F.MSC_SA_PN_LO_VALUE p a = 0 ∧ (!s.mscXpn p ∨ pn = 0) ∨ (!s.mscXpn p ∧ pn > 0xFFFFFFFF) then 5
  else if s.is F.MSC_SA_CTRL_VALID p a then 6
  else 1

/-- A write of MSC_SA_CTRL: SLOT while not VALID, INSTALL or REMOVE. -/
def State.saCtrl (s : State) (t : Tag) (p a w : Nat) : State :=
  let k := w % 256
  let put := fun (s : State) => if s.is F.MSC_SA_CTRL_VALID p a then s else s.put F.MSC_SA_CTRL_SLOT k p a
  if bitOf w 8 && bitOf w 9 then put s
  else if bitOf w 8 then
    let r := s.saJudge t p a k
    if r = 1 then
      let s := ((put s).takeUse k).put F.MSC_SA_CTRL_VALID 1 p a
      { s with saKey := storePut [] s.saKey (20 * p + a) (s.til_ k).key }.put F.MSC_SA_CTRL_RESULT 1 p a
    else s.put F.MSC_SA_CTRL_RESULT r p a
  else if bitOf w 9 then
    let s := (s.put F.MSC_SA_CTRL_VALID 0 p a).put F.MSC_SA_CTRL_EXHAUSTED 0 p a
    { s with saKey := storeErase s.saKey (20 * p + a) }
  else put s

end Sys2Proof.Machine
end

