-- ==== Sys2Proof/Machine/RecOps.lean ====
section
/-! DEFINITION. The event recorder (ch. 19): items and their samples, configuration, clears, flush and restore, the read window,
the alarm store, and the delivery of logs and traces. -/

namespace Sys2Proof.Machine

/-- Item i of the recorder buffer. -/
def State.item (s : State) (i : Nat) : RecItem := storeGet RecItem.blank s.recd.items i

/-- Replace item i. -/
def State.putItem (s : State) (i : Nat) (x : RecItem) : State :=
  { s with recd := { s.recd with items := storePut RecItem.blank s.recd.items i x } }

/-! Samples (R389, R392) -/

/-- The largest value of a 32-bit counter. -/
def satMax : Nat := 0xFFFFFFFF

/-- The bin of a sample (R389). -/
def RecItem.bin (x : RecItem) (v : Int) : Nat :=
  let u := v - x.lo
  if x.mode = 0 then if u < 0 then 0 else min (u.toNat / x.width) 31
  else if u < 2 ^ x.shift then 0
  else ((below 31 fun k => decide (1 ≤ k) && decide (u < 2 ^ (x.shift + k))).head?).getD 31

/-- A 64-bit signed sum, wrapped (R388). -/
def wrap64 (v : Int) : Int := (BitVec.ofInt 64 v).toInt

/-- An item with one sample counted (R389). -/
def RecItem.take (x : RecItem) (p : Sample) : RecItem :=
  let v := p.val.toInt
  let b := x.bin v
  let n := min (at0 x.bins b + 1) satMax
  let c := min (x.count + 1) satMax
  { x with
    count := c
    bins := x.bins.set b n
    sat := x.sat || n == satMax || c == satMax
    sum := wrap64 (x.sum + v)
    mn := if v < x.mn then v else x.mn
    mnAt := if v < x.mn then p.at_ else x.mnAt
    mx := if x.mx < v then v else x.mx
    mxAt := if x.mx < v then p.at_ else x.mxAt }

/-- Every enabled item of a sample's source takes it (R390). -/
def State.sampleTake (s : State) (p : Sample) : State :=
  let f := fun (_ : Nat) (x : RecItem) => if x.enable && x.kind == p.kind && x.index == p.index then x.take p else x
  { s with recd := { s.recd with items := storeMap (fun _ => RecItem.blank) f s.recd.items } }

/-- The sources hand over what they have accumulated, with the samples of the analog sources (R392). -/
def State.sampleMerge (s : State) (l : List Sample) : State :=
  let a := s.recd.accum
  State.each { s with recd := { s.recd with accum := [] } } (a ++ l) State.sampleTake

/-! Configuration and clears (R391, R396) -/

/-- An item cleared (R396). -/
def RecItem.clear (x : RecItem) (at_ : Stamp) : RecItem :=
  { x with
    count := 0, sum := 0, sat := false, bins := List.replicate 32 0
    mn := 2147483647, mnAt := ⟨0, 0⟩, mx := -2147483648, mxAt := ⟨0, 0⟩
    clears := (x.clears + 1) % 2 ^ 32, clrAt := at_ }

/-- Whether INDEX is in the range of a source kind (R390). -/
def sourceOk (kind i : Nat) : Bool :=
  match kind with
  | 1 => decide (i < 96) | 2 => decide (i < 96) | 3 => decide (i < 96) | 4 => decide (i < 2) | 5 => decide (i < 128)
  | 6 => decide (i % 64 < 30) && decide (i < 128)
  | 7 => decide (i < 296) | 8 => decide (i < 256) | 9 => decide (i < 9) | 10 => decide (i < 2) | 11 => decide (i < 32)
  | _ => false

/-- The channel a segment belongs to (R21). -/
def State.segChan (s : State) (g : Nat) : Option Nat :=
  s.chans.find? fun c => decide (c ≤ g) && decide (g ≤ c + s.ch c 0 9 8)

/-- The owner of a source (R390); none when it has no owner. -/
def State.sourceOwner (s : State) (kind i : Nat) : Option Nat :=
  match kind with
  | 1 => s.chanOwner i
  | 2 => s.chanOwner i
  | 3 => match s.segChan i with
    | some c => s.chanOwner c
    | none => some 0
  | 5 => some (s.miOwner i)
  | 7 => if i < 240 then some 0 else s.hostQOwner (i - 240)
  | 8 => s.ringOwner i
  | 9 => s.taskOwner i
  | 11 => s.canOwner (i % 16)
  | _ => some 0

/-- Apply the staged item configuration, or refuse it (R391). -/
def State.itemConfig (s : State) : State :=
  let i := s.get F.REC_CFG_ITEM_ITEM
  let src := s.get F.REC_CFG_SRC_SRC
  let kind := bitsOf src 7 0
  let ix := bitsOf src 23 8
  let w3 := s.get F.REC_CFG_MODE_MODE
  let mode := bitsOf w3 1 1
  let shift := bitsOf w3 20 16
  let width := s.get F.REC_CFG_WIDTH_VALUE
  let foreign := match s.recHolder i with
    | some d => d != 0 && s.sourceOwner kind ix != some d
    | none => false
  if !sourceOk kind ix || (mode == 0 && width == 0) || decide (16 < shift) || foreign then s.put F.REC_CFG_STAT_REJ 1
  else
    let lo := (BitVec.ofNat 32 (s.get F.REC_CFG_LO_VALUE)).toInt
    let x := { (s.item i).clear s.now with
      kind := kind, index := ix, lo := lo, width := width, enable := bitOf w3 0, mode := mode, shift := shift }
    (s.putItem i x).put F.REC_CFG_STAT_REJ 0

/-- A write of REC_CFG_CMD. -/
def State.recCfgCmd (s : State) (w : Nat) : State := if bitOf w 0 then s.itemConfig else s

/-- Clear one item, or every item (R396): REC_CLEARS counts the command. -/
def State.itemClear (s : State) (all : Bool) (i : Nat) : State :=
  let l := if all then List.range 4096 else [i]
  let t := s.now
  let s := s.each l fun s i => s.putItem i ((s.item i).clear t)
  s.incr F.REC_CLEARS_COUNT

/-- A write of REC_CLEAR: GO acts. -/
def State.recClear (s : State) (w : Nat) : State :=
  if bitOf w 31 then s.itemClear (bitOf w 30) (bitsOf w 11 0) else s

/-! Flush and restore (R393, R394) -/

/-- The current half of the eMRAM recorder area. -/
def State.recHalf (s : State) : RecHalf := if s.recd.current then s.recd.halfB else s.recd.halfA

/-- The items and the alarm store are written into the idle half, and the journal marker commits it (R53, R393). -/
def State.recCommit (s : State) : State :=
  let h : RecHalf := ⟨s.recd.items, s.recd.alarms⟩
  { s with recd := if s.recd.current then { s.recd with halfA := h, current := false }
                   else { s.recd with halfB := h, current := true } }

/-- The running flush commits (R393): a pending one follows it. -/
def State.flushDone (s : State) : State :=
  if !s.is F.REC_FLUSH_BUSY then s
  else
    let s := (s.recCommit.put F.REC_FLUSH_DONE 1).put F.REC_EVT_FLUSH_DONE 1
    if s.is F.REC_FLUSH_PENDING then s.put F.REC_FLUSH_PENDING 0 else s.put F.REC_FLUSH_BUSY 0

/-- A keeper write of REC_FLUSH (R393). -/
def State.recFlush (s : State) (w : Nat) : State := (s.store .REC_FLUSH w).when (bitOf w 0) State.flushStart

/-- The alarm store is written into the current half before island REC enters reset (R394). -/
def State.alarmSave (s : State) : State :=
  { s with recd := if s.recd.current then { s.recd with halfB := { s.recd.halfB with alarms := s.recd.alarms } }
                   else { s.recd with halfA := { s.recd.halfA with alarms := s.recd.alarms } } }

/-- An alarm joins a store under the coalescing rule (R399), for the alarms raised during a start. -/
def alarmJoin (l : List AlarmRec) (r : AlarmRec) : List AlarmRec :=
  if l.any fun x => x.code == r.code && x.unit == r.unit && !x.frozen then
    l.map fun x => if x.code == r.code && x.unit == r.unit && !x.frozen then { x with rep := min (x.rep + r.rep + 1) 255 } else x
  else l ++ [r]

/-- The recorder loads the items and the alarm store from the current half at the end of a start (R394); alarms of the start itself
follow them (log entry 20). -/
def State.recRestore (s : State) : State :=
  { s with recd := { s.recd with items := s.recHalf.items, alarms := s.recd.alarms.foldl alarmJoin s.recHalf.alarms } }

/-- Island REC enters reset: its buffer and what its sources hold are lost. -/
def State.recLost (s : State) : State :=
  { s with recd := { s.recd with
      items := [], accum := [], alarms := [], staging := [], backlog := [], seq := [], lostLogs := [], lostTraces := []
      lostFirst := [] } }

/-! The read window (R395) -/

/-- Word k of an item record (R388). -/
def RecItem.word (x : RecItem) (k : Nat) : Nat :=
  let i32 := fun (v : Int) => (BitVec.ofInt 32 v).toNat
  match k with
  | 0 => x.kind + x.index * 256
  | 1 => i32 x.lo
  | 2 => x.width
  | 3 => b2n x.enable + x.mode * 2 + b2n x.sat * 256 + x.shift * 65536
  | 4 => x.count
  | 5 => i32 x.mn
  | 6 => x.mnAt.ns
  | 7 => x.mnAt.ep
  | 8 => i32 x.mx
  | 9 => x.mxAt.ns
  | 10 => x.mxAt.ep
  | 11 => x.clears
  | 12 => x.clrAt.ns
  | 13 => x.clrAt.ep
  | 14 => (BitVec.ofInt 64 x.sum).toNat % 2 ^ 32
  | 15 => (BitVec.ofInt 64 x.sum).toNat / 2 ^ 32
  | k => if k < 48 then at0 x.bins (k - 16) else 0

/-- Whether the reader of copy `cp` may read item i: through a view, its drawer holds it. -/
def State.mayItem (s : State) (cp i : Nat) : Bool := cp == 0 || s.recHolder i == some (cp - 1)

/-- Whether the item at the cursor may be read through copy `cp`; a view needs F13 (R395). -/
def State.winOk (s : State) (cp : Nat) : Bool :=
  (cp == 0 || s.feat (cp - 1) 13) && s.mayItem cp (s.get F.REC_CURSOR_ITEM 0 0 cp)

/-- A read of REC_WIN_0 takes a snapshot of the item at the cursor (R395). -/
def State.winSnap (s : State) (cp : Nat) : State :=
  let x := s.item (s.get F.REC_CURSOR_ITEM 0 0 cp)
  s.each (List.range 64) fun s k => s.put F.REC_WIN_WORD (x.word k) k 0 cp

/-- A read of REC_WIN_63 with AUTO moves the cursor to the next item the reader may read, wrapping (R395). -/
def State.winAdvance (s : State) (cp : Nat) : State :=
  if s.is F.REC_CURSOR_AUTO 0 0 cp then
    let i := s.get F.REC_CURSOR_ITEM 0 0 cp
    match ((List.range 4096).map fun k => (i + 1 + k) % 4096).find? (s.mayItem cp) with
    | some j => s.put F.REC_CURSOR_ITEM j 0 0 cp
    | none => s
  else s

/-- What a read of REC_WIN_w does before its value is returned: word 0 takes the snapshot, by a grant of arbitration point 5. -/
def State.winBefore (s : State) (w cp : Nat) : State :=
  if w = 0 then (s.winSnap cp).arbMove 5 (drawerFin (cp - 1)) else s

/-- What a read of REC_WIN_w does after its value is returned. -/
def State.winAfter (s : State) (w cp : Nat) : State := if w = 63 then s.winAdvance cp else s

/-! The alarm store (R399) -/

/-- A read of REC_ALM_HEAD0 freezes the oldest record. -/
def State.alarmFreeze (s : State) : State :=
  match s.recd.alarms with
  | [] => s
  | r :: rest => { s with recd := { s.recd with alarms := { r with frozen := true } :: rest } }

/-- A write of REC_ALM_STAT: POP removes the oldest record. -/
def State.alarmPop (s : State) (w : Nat) : State :=
  if bitOf w 16 then { s with recd := { s.recd with alarms := s.recd.alarms.drop 1 } } else s

/-- Word k of the oldest pending alarm; zero when none. -/
def State.alarmHead (s : State) (k : Nat) : Nat :=
  match s.recd.alarms with
  | [] => 0
  | r :: _ => r.word k

/-! Logs and traces (R400 to R402) -/

/-- The 32 bytes of a log, trace or LOST record (R400). -/
def LogRec.bytes (r : LogRec) : List Nat :=
  [r.cls, r.src, r.level, 0] ++ leBytes 2 r.unit ++ leBytes 2 r.at_.ep ++ leBytes 4 r.at_.ns ++ leBytes 4 r.seq ++
    leBytes 4 r.arg0 ++ leBytes 4 r.arg1 ++ leBytes 8 0

/-- The next record of drawer d: staged logs go before traces (R401); the state without it. -/
def State.nextRec (s : State) (d : Nat) : Option (LogRec × State) :=
  match storeGet [] s.recd.staging d with
  | r :: rest => some (r, { s with recd := { s.recd with staging := storePut [] s.recd.staging d rest } }.stageLost d)
  | [] =>
    match s.recd.backlog.find? (·.1 == d) with
    | some p => some (p.2, { s with recd := { s.recd with backlog := s.recd.backlog.erase p } })
    | none => none

/-- Records of drawer d are written into the buffer in progress of its LOG ring, while it takes them (R401). -/
def State.logFill (s : State) (d r : Nat) : Nat → State
  | 0 => s
  | n + 1 =>
    let g := s.rg r
    if g.close ∨ !s.ringReady r then s
    else if g.desc.elim 0 (·.len) - g.src.length < 32 then s.closeBuf r
    else
      match s.nextRec d with
      | none => s
      | some (x, s) => State.logFill (s.addRecord r x.bytes) d r n

/-- LOG delivery for drawer d (R401). A buffer too short for a record completes with nothing in it. -/
def State.logDeliver (s : State) (d : Nat) : State :=
  match s.ringOf d 5 with
  | none => s
  | some r =>
    let n := (storeGet [] s.recd.staging d).length + (s.recd.backlog.filter (·.1 == d)).length
    if n = 0 then s else s.logFill d r (n + 2)

/-- 1 ms after the first record of a buffer, it closes (R401). -/
def State.logTimeout (s : State) (r : Nat) : State :=
  if s.ringKind r == 5 && !(s.rg r).src.isEmpty then s.closeBuf r else s

/-- The THRESH in force for drawer d (R402): values outside 16 to 97,792 act as the nearer bound. -/
def State.traceThresh (s : State) (d : Nat) : Nat :=
  let l := (cpsOf d).map fun cp => max 16 (min backlogCap (s.get F.REC_TRC_THRESH_THRESH 0 0 cp))
  l.foldl min backlogCap

/-- The 1 ms step of drawer d's sampling level (R402). -/
def State.traceLevel (s : State) (d : Nat) : State :=
  let n := (s.recd.backlog.filter (·.1 == d)).length
  let t := s.traceThresh d
  let lv := s.get F.REC_LOG_STAT_LEVEL 0 0 (d + 1)
  if t < n ∧ lv < 10 then (s.putFor d F.REC_LOG_STAT_LEVEL (lv + 1)).putFor d F.REC_LOG_STAT_LEVEL_UP 1
  else if 2 * n < t ∧ 0 < lv then s.putFor d F.REC_LOG_STAT_LEVEL (lv - 1)
  else s

end Sys2Proof.Machine
end

