-- ==== Sys2Proof/Machine/ImageOps.lean ====
section
/-! DEFINITION. The checks of an image (ch. 1): the header and signature checks every image kind shares (R18, R19, R408), then the
directory, own, cross-section and structure-hash checks of a Carcass image in the order of R29. -/

namespace Sys2Proof.Machine

/-- A failed check: the code of R29, the section and record it names, and the Lathe detail and item of R184. -/
structure ImgFail where
  code : Nat
  sect : Nat
  index : Nat
  detail : Nat
  item : Nat
  deriving DecidableEq, Repr

/-- A condition that must hold, with the code of its failure. -/
def must (ok : Bool) (code : Nat) : Option Nat := if ok then none else some code

/-- The first failing check of a list. -/
def firstOf (l : List (Option Nat)) : Option Nat := l.findSome? id

/-- The first failing record among `n`, as code and index. -/
def firstRec (n : Nat) (f : Nat → Option Nat) : Option (Nat × Nat) :=
  (List.range n).findSome? fun i => (f i).map fun c => (c, i)

/-- A little-endian field of a byte string. -/
def fieldLe (l : List Nat) (o n : Nat) : Nat := leNat (slice l o n)

/-! Header, key and signature: codes 0x01 to 0x09 -/

/-- MAGIC of an image kind (R403). -/
def kindMagic : Nat → Nat
  | 1 => 0x46425A4C | 2 => 0x49435A4C
  | _ => 0x45535A4C

/-- The largest IMAGE_SIZE of a kind (R403). -/
def kindLimit : Nat → Nat
  | 1 => 1048576 | 2 => 1572864
  | _ => 134217728

/-- The anti-rollback counter of a kind (R410). -/
def State.arbCounter (s : State) (kind : Nat) : Nat := s.get F.UPD_ARB_COUNTER (kind - 1)

/-- The checks of codes 0x01 to 0x09 over an image's bytes (R19, R29); none when they pass. -/
def State.kindCheck (s : State) (kind : Nat) (l : List Nat) : Option Nat :=
  let size := fieldLe l 12 4
  let sig := size - 200
  let pub := slice l (sig + 8) 96
  (must (fieldLe l 0 4 == kindMagic kind) 0x01).orElse fun _ =>
  (must (fieldLe l 4 2 == 1 && fieldLe l 6 2 == 96) 0x02).orElse fun _ =>
  (must (decide (size ≤ kindLimit kind) && decide (96 + 16 * fieldLe l 20 2 + 200 ≤ size) && size % 8 == 0) 0x03).orElse fun _ =>
  (must (fieldLe l sig 4 == 1 && sha384 pub == s.authority) 0x04).orElse fun _ =>
  (must (ecdsaVerifies pub (l.take (size - 96)) (slice l (size - 96) 96)) 0x05).orElse fun _ =>
  (must (fieldLe l 8 2 == s.get F.CARC_ID_TYPE) 0x06).orElse fun _ =>
  (must (bitOf (fieldLe l 10 2) (s.get F.CARC_ID_MAJOR)) 0x07).orElse fun _ =>
  (must (!bitOf (fieldLe l 22 2) 0 || slice l 24 16 == s.uidBytes) 0x08).orElse fun _ =>
  must (decide (s.arbCounter kind ≤ fieldLe l 16 4)) 0x09

/-! The directory: codes 0x10 to 0x15 -/

/-- A directory entry: TYPE, OFFSET, LENGTH and CRC. -/
structure DirE where
  type_ : Nat
  res : Nat
  off : Nat
  len : Nat
  crc : Nat
  deriving DecidableEq, Repr

/-- The directory of an image. -/
def dirOf (l : List Nat) : List DirE :=
  (List.range (fieldLe l 20 2)).map fun i =>
    let o := 96 + 16 * i
    ⟨fieldLe l o 2, fieldLe l (o + 2) 2, fieldLe l (o + 4) 4, fieldLe l (o + 8) 4, fieldLe l (o + 12) 4⟩

/-- Types ascend from above `prev` and are known. -/
def dirOrder : Nat → List DirE → Bool
  | _, [] => true
  | prev, e :: rest => decide (prev < e.type_) && decide (e.type_ ≤ 14) && dirOrder e.type_ rest

/-- Sections follow from byte `at_` without overlap, aligned, before byte `stop`, with zero gaps up to it. -/
def dirBounds (l : List Nat) (stop : Nat) : Nat → List DirE → Bool
  | at_, [] => decide (at_ ≤ stop) && (slice l at_ (stop - at_)).all (· == 0)
  | at_, e :: rest =>
    e.off % 8 == 0 && decide (at_ ≤ e.off) && decide (e.off + e.len ≤ stop) && (slice l at_ (e.off - at_)).all (· == 0) &&
      dirBounds l stop (e.off + e.len) rest

/-- The bytes of a section. -/
def DirE.bytes (l : List Nat) (e : DirE) : List Nat := slice l e.off e.len

/-- Whether LENGTH is as R20 states. -/
def DirE.lenOk (l : List Nat) (e : DirE) : Bool :=
  let n := e.len
  match e.type_ with
  | 1 => n % 32 == 0 && inRange 1 (n / 32) 96
  | 2 => n == 16
  | 3 => n == 128
  | 4 => n == 1024
  | 5 => n == 64
  | 6 => n % 16 == 0 && inRange 1 (n / 16) 64
  | 7 => n % 48 == 0 && inRange 1 (n / 48) 16
  | 8 => n == 512
  | 9 => n == 32
  | 10 => n == 2048
  | 11 =>
    let v := bitsOf (fieldLe l e.off 4) 12 0
    decide (4 ≤ n) && decide (v ≤ 4096) && n == 1488 + 16 * v
  | 12 => n == 8
  | 13 => n == 128
  | _ => inRange 376 n 1048576

/-- Stage 1 after the signature (R29). -/
def dirCheck (l : List Nat) : Option Nat :=
  let d := dirOf l
  let sig := fieldLe l 12 4 - 200
  let bound := bitOf (fieldLe l 22 2) 0
  (must (!d.isEmpty && dirOrder 0 d) 0x10).orElse fun _ =>
  (must (dirBounds l sig (96 + 16 * d.length) d) 0x11).orElse fun _ =>
  (must (d.all fun e => crc32 (e.bytes l) == e.crc) 0x12).orElse fun _ =>
  (must ([1, 2, 4, 7, 9, 11, 12].all fun t => d.any (·.type_ == t)) 0x13).orElse fun _ =>
  (must (d.all (DirE.lenOk l)) 0x14).orElse fun _ =>
  must (bitsOf (fieldLe l 22 2) 15 1 == 0 && (bound || (slice l 24 16).all (· == 0)) && (slice l 0x4C 20).all (· == 0) &&
    d.all (·.res == 0) && fieldLe l (sig + 4) 4 == 0) 0x15

/-! Own checks (stage 2). `t` is the state with the image under check in place of the one in force. -/

/-- The bits of word `w` of a record of section `ty` that are not reserved (R21). -/
def fieldMask (ty w : Nat) : Nat :=
  match ty with
  | 1 => [0x0FEF737F, 0x1FFFFF, 0x7FFFF, 0xFF01FF, 0xFFFFFFFF, 0x7FFFFFF, 0xFFFFF, 0xFFFF].getD (w % 8) 0
  | 2 => if w % 2 = 0 then 0x1FFFF else 0
  | 3 => 0xFFFF
  | 4 => if w % 2 = 0 then 0xFFFF00FF else 0xFFFFFF
  | 5 => 3
  | 6 => if w % 4 = 0 then 0x3FF else 0xFFFFFFFF
  | 7 => [0x1FF01FF, 0xFFFFFFFF, 0xFFFFFFFF, 0x1FF01FF, 0xFFFF, 0x1FFF1FFF, 0xFFFF, 0xFF, 0xFFFFFFFF, 0xFFFFFF, 3, 0].getD (w % 12) 0
  | 8 => [0xFFFFFFF, 0xFFFFFFF, 3, 0].getD (w % 4) 0
  | 9 => [0x3FF, 0x1FF, 0x1FFF, 0x3F, 0x3FF].getD w 0
  | 10 => if w % 2 = 0 then 0xFFFFFFFF else 0x800000FF
  | 11 =>
    if w = 0 then 0x1FFF else if w = 1 then 0
    else if w < 76 then (if w % 2 = 0 then 0x3FFF else 0)
    else if w < 372 then 0xFFFFFFFF
    else [0xFFFF0FFF, 0x1FFFFF, 0xFFFFFFFF, 0x1F].getD (w % 4) 0
  | 12 => if w = 0 then 1 else 0xFFFF
  | _ => [1, 0xFFFFFFFF, 0xFFFFFFFF, 0].getD (w % 4) 0

/-- The words of a record of a section; 0 for SWITCH, whose parts differ. -/
def recWords : Nat → Nat
  | 1 => 8 | 2 => 2 | 3 => 1 | 4 => 2 | 5 => 1 | 6 => 4 | 7 => 12 | 8 => 4 | 9 => 8 | 10 => 2 | 12 => 2 | 13 => 4
  | _ => 0

/-- The record a word of a section belongs to, as REJ.INDEX names it; each part of the SWITCH section numbers from 0 (log entry 122). -/
def recIndex (ty w : Nat) : Nat :=
  if ty = 11 then if w < 2 then 0 else if w < 76 then (w - 2) / 2 else if w < 372 then w - 76 else (w - 372) / 4
  else if recWords ty = 0 then 0 else w / recWords ty

/-- The reserved-field check of a section: the record of the first word with a reserved bit set. -/
def reservedCheck (ty : Nat) (l : List Nat) : Option (Nat × Nat) :=
  ((List.range l.length).find? fun w => at0 l w &&& fieldMask ty w != at0 l w).map fun w => (0x15, recIndex ty w)

/-- The segments of channel record i. -/
def State.recSegs (t : State) (i : Nat) : List Nat :=
  (List.range (t.imgF 1 8 i 0 9 8 + 1)).map (t.imgF 1 8 i 0 6 0 + ·)

/-- Own check of a CHANNELS record; of two that share a segment the later one fails (log entry 122). -/
def State.ownChannel (t : State) (i : Nat) : Option Nat :=
  let g := t.imgF 1 8 i
  let f := g 0 6 0
  let w := g 0 9 8 + 1
  let off := if f < 72 then f % 24 else f - 72
  let hold := g 0 27 26
  let src := g 1 1 0
  let rating := if f < 72 then 800 else 1000
  let free := (List.range i).all fun k => (t.recSegs k).all fun x => !(t.recSegs i).contains x
  firstOf [must (decide (f ≤ 95) && off % w == 0 && decide (off + w ≤ 24) && free) 0x20,
    must (decide (g 0 14 12 ≤ 4) && (g 0 14 12 != 1 || decide (72 ≤ f))) 0x21,
    must (hold != 3) 0x23,
    must ((src != 2 || decide (g 1 6 2 ≤ 15)) && (src != 3 || g 1 6 2 == 0) && (src == 0 || g 1 20 7 == 0)) 0x24,
    must (inRange 1 (g 2 15 0) (w * rating)) 0x22,
    must (inRange 1 (g 3 8 0) 500 && inRange 1 (g 3 23 16) 200) 0x22,
    must (inRange 1 (g 4 15 4) 4095 && inRange 10 (g 4 31 16) 60000) 0x23,
    must (if hold = 2 then inRange 1 (g 5 15 0) 60000 else g 5 15 0 == 0) 0x23,
    must (g 5 19 19 == 1 || (g 5 18 16 == 0 && g 5 26 20 == 0)) 0x26,
    must (inRange 1 (g 6 15 0) 12000 && inRange 1 (g 6 19 16) 6) 0x26]

/-- Own check of an INPUTS record. -/
def State.ownInput (t : State) (i : Nat) : Option Nat :=
  let g := t.imgF 4 2 i
  let m := g 0 2 0
  let th := g 0 31 16
  let pa := g 1 15 0
  must (decide (m ≤ 5) && (if m = 1 then inRange 100 th 4000 else th == 0) &&
    (if m = 1 then decide (pa ≤ 500) else if m = 4 then inRange 1 pa 20 else pa == 0) &&
    (g 0 3 3 == 0 || m == 1 || m == 4) && (m != 0 || (g 0 7 3 == 0 && g 1 23 16 == 0))) 0x2A

/-- Target byte j of a CLAMP record. -/
def State.clampByte (t : State) (i j : Nat) : Nat := t.imgF 6 4 i (2 + j / 4) (8 * (j % 4) + 7) (8 * (j % 4))

/-- Own check of a CLAMP record. -/
def State.ownClamp (t : State) (i : Nat) : Option Nat :=
  let n := t.imgF 6 4 i 0 9 8 + 1
  firstOf [must ((below 4 fun k => decide (n ≤ k)).all fun k => t.imgF 6 4 i 1 (8 * k + 7) (8 * k) == 0) 0x30,
    must ((List.range 8).all fun j => t.clampByte i j == 0 || decide (128 ≤ t.clampByte i j)) 0x31]

/-- HOSTQ_MASK of a DRAWERS record, 56 bits. -/
def State.hostMask (t : State) (d : Nat) : Nat := t.drawerRec d 8 31 0 + t.drawerRec d 9 23 0 * 2 ^ 32

/-- Own check of a DRAWERS record: bounds, the R25 sums up to it, and resources not owned by an earlier drawer. -/
def State.ownDrawer (t : State) (i : Nat) : Option Nat :=
  let cls := [1, 6, 3, 4, 2, 5]
  let ok := fun c => decide (t.classMin i c ≤ t.classMax i c) && decide (t.classMax i c ≤ classTotal c) &&
    decide (sumList ((List.range (i + 1)).map fun d => t.classMin d c) ≤ classTotal c)
  let apart := fun (m : Nat → Nat) => (List.range i).all fun d => m d &&& m i == 0
  firstOf [must (cls.all ok) 0x38,
    must (apart (fun d => t.drawerRec d 6 15 0) && apart (fun d => t.drawerRec d 7 7 0) && apart t.hostMask) 0x39,
    must (t.drawerRec i 10 1 0 != 0) 0x39]

/-- Own check of a REGIONS record. -/
def State.ownRegion (t : State) (i : Nat) : Option Nat :=
  let b := fun k => t.imgF 8 4 k 0 27 0
  let n := fun k => t.imgF 8 4 k 1 27 0
  let v := fun k => t.imgF 8 4 k 2 0 0 == 1
  must (!v i || (decide (1 ≤ n i) && decide (b i + n i ≤ 2 ^ 28) &&
    (List.range i).all fun k => !v k || decide (b i + n i ≤ b k) || decide (b k + n k ≤ b i))) 0x40

/-- A word field of the SWITCH section. -/
def State.sw (t : State) (w hi lo : Nat) : Nat := bitsOf (at0 (t.sec 11) w) hi lo

/-- Whether port p is enabled in the image. -/
def State.swPortOn (t : State) (p : Nat) : Bool := t.sw (2 + 2 * p) 12 12 == 1

/-- Own checks of the SWITCH section: ports, limits, VLANs (R27); the limit record at which the sum of RESERVE passes its bound fails (log
entry 122). -/
def State.ownSwitch (t : State) : Option (Nat × Nat) :=
  let port := fun p => must ((if t.swPortOn p then inRange 1 (t.sw (2 + 2 * p) 11 0) 4094 else t.sw (2 + 2 * p) 11 0 == 0) &&
    (t.sw (2 + 2 * p) 13 13 == 0 || decide (1000 ≤ portRate p))) 0x48
  let lim := fun q =>
    let l := t.sw (76 + q) 15 0
    let r := t.sw (76 + q) 31 16
    must (decide (r ≤ l) && decide (l ≤ 32768) && (t.swPortOn (q / 8) || (l == 0 && r == 0)) &&
      decide (sumList ((List.range (q + 1)).map fun k => t.sw (76 + k) 31 16) ≤ 32768)) 0x49
  let vid := fun v => t.sw (372 + 4 * v) 11 0
  let member := fun v => t.sw (372 + 4 * v) 31 16 + t.sw (373 + 4 * v) 20 0 * 2 ^ 16
  let vlan := fun v => must (inRange 1 (vid v) 4094 && (v == 0 || decide (vid (v - 1) < vid v)) &&
    (List.range 37).all fun p => t.swPortOn p || !bitOf (member v) p) 0x4A
  (firstRec 37 port).orElse fun _ => (firstRec 296 lim).orElse fun _ => firstRec (t.sw 0 12 0) vlan

/-- Stage 2 for one section: its reserved fields, then its records. -/
def State.ownCheck (t : State) (ty : Nat) : Option (Nat × Nat) :=
  let l := t.sec ty
  let n := l.length / max 1 (recWords ty)
  (reservedCheck ty l).orElse fun _ =>
  match ty with
  | 1 => firstRec n t.ownChannel
  | 2 => firstRec n fun i => must (inRange 10 (t.imgF 2 2 i 0 15 0) 1500) 0x28
  | 3 => firstRec n fun i =>
    must (if t.imgF 3 1 i 0 15 15 = 1 then inRange 10 (t.imgF 3 1 i 0 14 0) 25000 else t.imgF 3 1 i 0 14 0 == 0) 0x29
  | 4 => firstRec n t.ownInput
  | 5 => firstRec n fun i => must (t.imgF 5 1 i 0 0 0 == 1 || t.imgF 5 1 i 0 1 1 == 0) 0x2B
  | 6 => firstRec n t.ownClamp
  | 7 => firstRec n t.ownDrawer
  | 8 => firstRec n t.ownRegion
  | 9 => firstRec 1 fun _ => must (decide (at0 l 0 ≤ 768) && inRange 96 (at0 l 1) 256 && decide (at0 l 2 ≤ 4096) &&
      decide (at0 l 4 ≤ 1000)) 0x41
  | 11 => t.ownSwitch
  | 12 => firstRec 1 fun _ => must (at0 l 0 == 0 || at0 l 1 == 0) 0x50
  | 13 => firstRec n fun i =>
    let w := fun k => at0 l (4 * i + k)
    must (if w 0 = 1 then decide (bitsOf (w 2) 15 0 ≤ bitsOf (w 2) 31 16) else w 1 == 0 && w 2 == 0) 0x51
  | _ => none

/-! Cross-section checks (stage 3) -/

/-- Cross check of a CHANNELS record. -/
def State.crossChannel (t : State) (i : Nat) : Option Nat :=
  let g := t.imgF 1 8 i
  let sel := g 1 6 2
  let f := fun k => t.imgF 1 8 k 0 6 0
  let n := (t.sec 1).length / 8
  let twice := (List.range n).any fun k => decide (f k < f i) && t.imgF 1 8 k 1 1 0 == 2 && t.imgF 1 8 k 1 6 2 == sel
  firstOf [must (decide (g 0 19 16 < t.drw.count)) 0x25,
    must (match g 1 1 0 with
      | 0 => t.hasSec 14
      | 1 => t.hasSec 14 && t.imgF 3 1 sel 0 15 15 == 1
      | 2 => t.imgF 5 1 sel 0 0 0 == 1 && !twice
      | _ => true) 0x24,
    must (g 5 19 19 == 0 || t.imgF 13 4 (g 5 18 16) 0 0 0 == 1) 0x26]

/-- Cross check of a CLAMP record (R23). -/
def State.crossClamp (t : State) (i : Nat) : Option Nat :=
  let own := t.imgF 6 4 i 0 7 4
  let conds := List.range (t.imgF 6 4 i 0 9 8 + 1)
  let target := fun j =>
    let b := t.clampByte i j
    b < 128 || (t.isChan (b - 128) && (own == 0 || t.chanOwner (b - 128) == some own))
  firstOf [must (conds.all fun k => t.imgF 4 2 (t.imgF 6 4 i 1 (8 * k + 6) (8 * k)) 0 2 0 == 1) 0x30,
    must (decide (own < t.drw.count) && (List.range 8).all target) 0x31]

/-- Whether an address is secure by the WORLDS section of the image under check (R353). -/
def State.imgSecure (t : State) (a : Nat) : Bool :=
  let w := at0 (t.sec 9)
  decide (a < 0x40000) || (decide (0x10000000 ≤ a) && decide (a < 0x10000000 + w 0 * 0x10000)) ||
    (decide (0x8000000 ≤ a) && decide (a < 0x8000000 + w 1 * 0x10000)) ||
    (decide (0x100000000 ≤ a) && decide (a < 0x100000000 + w 2 * 0x200000))

/-- Stage 3 for one section type; GATES missing when needed is judged at its place (log entry 21). -/
def State.crossCheck (t : State) (ty : Nat) : Option (Nat × Nat) :=
  let l := t.sec ty
  let n := l.length / max 1 (recWords ty)
  match ty with
  | 1 => firstRec n t.crossChannel
  | 4 => firstRec n fun i => must (decide (t.imgF 4 2 i 0 7 4 < t.drw.count)) 0x2A
  | 6 => firstRec n t.crossClamp
  | 7 => firstRec n fun i => must (t.hasSec 14 || t.drawerRec i 7 7 0 == 0) 0x39
  | 10 =>
    if t.hasSec 10 then firstRec n fun i =>
      must (t.imgF 10 2 i 1 31 31 == 0 || t.imgSecure (at0 l (2 * i) + bitsOf (at0 l (2 * i + 1)) 7 0 * 2 ^ 32)) 0x42
    else firstRec 1 fun _ => must (at0 (t.sec 9) 3 == 0) 0x42
  | 12 => firstRec 1 fun _ => must (decide (at0 l 1 < 2 ^ t.drw.count)) 0x50
  | _ => none

/-! The program check (R184), in the order of its table -/

/-- The first failing item among `n`, as detail and item. -/
def firstItem (n : Nat) (detail : Nat) (ok : Nat → Bool) : Option (Nat × Nat) :=
  ((List.range n).find? fun i => !ok i).map fun i => (detail, i)

/-- The low and high words of operation i. -/
def State.opWord (t : State) (i : Nat) : Nat := t.lw (t.opBase + 2 * i) + t.lw (t.opBase + 2 * i + 1) * 2 ^ 32

/-- A field of operation i (R164). -/
def State.opF (t : State) (i hi lo : Nat) : Nat := bitsOf (t.opWord i) hi lo

/-- The code range of task k: its first operation and the one after its last. -/
def State.codeLo (t : State) (k : Nat) : Nat := t.taskRec k 3 15 0
def State.codeHi (t : State) (k : Nat) : Nat := t.codeLo k + t.taskRec k 4 16 0

/-- The enabled task whose code range holds operation i. -/
def State.opTask (t : State) (i : Nat) : Option Nat :=
  (List.range 9).find? fun k => t.taskEn k && decide (t.codeLo k ≤ i) && decide (i < t.codeHi k)

/-- Whether an operation takes D, A, B, BIT, or T (R166); none for an unknown opcode. -/
def opShape (c : Nat) : Option (Bool × Bool × Bool × Bool × Bool) :=
  let x := fun (d a b i j : Bool) => some (d, a, b, i, j)
  if c = 0 ∨ c = 0x0D ∨ c = 0x64 ∨ c = 0x66 then x false false false false false
  else if c = 1 then x true false true false false
  else if 2 ≤ c ∧ c ≤ 8 then x false true false true false
  else if 9 ≤ c ∧ c ≤ 0xC then x true false false true false
  else if c = 0xE then x false true false false false
  else if c = 0xF ∨ c = 0x50 ∨ c = 0x51 ∨ c = 0x70 ∨ c = 0x71 then x true false false false false
  else if (0x10 ≤ c ∧ c ≤ 0x17) ∨ (0x19 ≤ c ∧ c ≤ 0x1F) ∨ (0x30 ≤ c ∧ c ≤ 0x33) ∨ c = 0x35 ∨ c = 0x36 ∨
      (0x40 ≤ c ∧ c ≤ 0x42) then x true true true false false
  else if c = 0x18 ∨ c = 0x34 ∨ c = 0x37 ∨ c = 0x38 ∨ c = 0x3C ∨ c = 0x3D ∨ (0x52 ≤ c ∧ c ≤ 0x54) ∨
      (0x58 ≤ c ∧ c ≤ 0x5A) then x true true false false false
  else if (0x20 ≤ c ∧ c ≤ 0x27) ∨ (0x39 ≤ c ∧ c ≤ 0x3B) then x false true true false false
  else if 0x60 ≤ c ∧ c ≤ 0x63 then x false false false false true
  else if c = 0x72 then x false false true false false
  else none

/-- The slots of an opcode's state block (R168); 0 when it has none. -/
def blockSize (c : Nat) : Nat :=
  if c = 0x50 ∨ c = 0x51 then 1 else if 0x52 ≤ c ∧ c ≤ 0x54 then 3 else if 0x58 ≤ c ∧ c ≤ 0x5A then 2 else 0

/-- Whether task k reads slot n (R158). -/
def State.mayRead (t : State) (k n : Nat) : Bool :=
  let j := t.slotTask n
  decide (n < t.slotCount) && (j == k || (j == 15 && t.slotArea n == Area.const) ||
    (t.slotArea n == Area.output && decide (j ≤ 8) && (k == 8 || t.taskOwner j == t.taskOwner k)))

/-- Whether operations of task k write slot n (R158). -/
def State.mayWrite (t : State) (k n : Nat) : Bool :=
  decide (n < t.slotCount) && t.slotTask n == k && (t.slotArea n == Area.memory || t.slotArea n == Area.output)

/-- OP_CODE of operation i: known, with P and PN as R165 allows. -/
def State.opCodeOk (t : State) (i : Nat) : Bool :=
  let c := t.opF i 7 0
  let p := t.opF i 56 56
  let pn := t.opF i 57 57
  (opShape c).isSome && (p == 0 || pn == 0) && ((p == 0 && pn == 0) || inRange 1 c 0x42 || inRange 0x70 c 0x72)

/-- OP_OPERAND of operation i of task k: unused fields zero, slots (each slot of a block too) existing and accessed as R158 allows. -/
def State.operandOk (t : State) (k i : Nat) : Bool :=
  let c := t.opF i 7 0
  let d := t.opF i 21 8
  let a := t.opF i 35 22
  let b := t.opF i 49 36
  let imm := t.opF i 55 55
  match opShape c with
  | none => true
  | some (ud, ua, ub, ui, uj) =>
    if uj then d == 0 && t.opF i 49 38 == 0 && t.opF i 54 50 == 0 && imm == 0
    else
      (ud || d == 0) && (ua || a == 0) && (ub || (b == 0 && imm == 0)) && (ui || t.opF i 54 50 == 0) &&
      (!ud || (if c = 0x42 then t.mayRead k d
        else (List.range (if c = 0x71 then 2 else max 1 (blockSize c))).all fun x => t.mayWrite k (d + x))) &&
      (!ua || (if c = 0x42 then t.mayWrite k a else t.mayRead k a)) && (!ub || imm == 1 || t.mayRead k b)

/-- The operations of task k reached from those of a list without following calls. -/
def State.flow (t : State) (k : Nat) (seen : List Nat) : List Nat :=
  let next := fun i =>
    let c := t.opF i 7 0
    let j := t.opF i 37 22
    if c = 0x64 ∨ c = 0x66 then [] else if c = 0x60 then [j] else if c = 0x61 ∨ c = 0x62 then [j, i + 1] else [i + 1]
  let new := (seen.flatMap next).filter fun i => decide (t.codeLo k ≤ i) && decide (i < t.codeHi k) && !seen.contains i
  seen ++ new.eraseDups

/-- The operations reached from a list of entries, following `n` rounds. -/
def State.reach (t : State) (k : Nat) : Nat → List Nat → List Nat
  | 0, l => l
  | n + 1, l =>
    let l' := t.flow k l
    if l'.length = l.length then l else State.reach t k n l'

/-- The targets of the calls that code at call depth `n` makes. -/
def State.calls (t : State) (k : Nat) (n : Nat) : List Nat → List Nat
  | entries =>
    let body := t.reach k (t.codeHi k - t.codeLo k) entries
    let cs := body.filter fun i => t.opF i 7 0 == 0x63
    match n with
    | 0 => cs
    | m + 1 => if cs.isEmpty then [] else State.calls t k m ((cs.map fun i => t.opF i 37 22).eraseDups)

/-- Whether the block of operation i of task k lies in its MEMORY and overlaps no earlier block but a shared counter (R168). -/
def State.blockOk (t : State) (k i : Nat) : Bool :=
  let c := t.opF i 7 0
  let n := blockSize c
  let d := t.opF i 21 8
  let clash := fun j =>
    let cj := t.opF j 7 0
    let nj := blockSize cj
    let dj := t.opF j 21 8
    (t.opTask j).isSome && nj != 0 && decide (d < dj + nj) && decide (dj < d + n) &&
      !(n == 2 && nj == 2 && d == dj && (c == 0x5A || cj == 0x5A || c != cj))
  n == 0 || ((List.range n).all (fun x =>
      decide (d + x < t.slotCount) && t.slotTask (d + x) == k && t.slotArea (d + x) == Area.memory) &&
    !(List.range i).any clash)

/-- Whether operation i passes a check that only code of enabled tasks meets. -/
def State.inTask (t : State) (ok : Nat → Nat → Bool) (i : Nat) : Bool :=
  match t.opTask i with
  | none => true
  | some k => ok k i

/-- The owner of the source of map record m, when the source is valid (R162, R186): `some none` where nobody is named. -/
def State.mapSource (t : State) (m : Nat) : Option (Option Nat) :=
  let ix := t.mapF m 1 15 0
  let slotOwner := t.taskOwner (t.slotTask (t.mapF m 0 13 0))
  match t.mapF m 0 19 16 with
  | 1 => if ix < 128 ∧ t.miMode ix ≠ 0 then some (some (t.miOwner ix)) else none
  | 2 => if ix < 128 ∧ t.miMode ix = 1 then some (some (t.miOwner ix)) else none
  | 3 => if ix < 16 then some (some (((t.drvChan ix).bind t.chanOwner).getD 0)) else none
  | 4 => if t.isChan ix then some (t.chanOwner ix) else none
  | 5 =>
    let first := (List.range m).find? fun k => t.mapF k 0 19 16 == 5 && t.mapF k 1 15 0 == ix &&
      decide (t.mapF k 0 13 0 < t.slotCount) && decide (t.slotTask (t.mapF k 0 13 0) ≤ 8)
    if ix < 256 then some ((first.map fun k => t.taskOwner (t.slotTask (t.mapF k 0 13 0))).getD slotOwner) else none
  | 6 => some (t.stnOwner (ix / 64))
  | 7 => some none
  | _ => none

/-- MAP_SOURCE of record m: valid, and owned by the owner of the target's task. -/
def State.mapSourceOk (t : State) (m : Nat) : Bool :=
  let n := t.mapF m 0 13 0
  let task := if n < t.slotCount then t.slotTask n else 15
  match t.mapSource m with
  | none => false
  | some none => true
  | some o => decide (8 < task) || t.mapF m 0 19 16 == 7 || o == t.taskOwner task

/-- MAP_SLOT of record m. -/
def State.mapSlotOk (t : State) (m : Nat) : Bool :=
  let n := t.mapF m 0 13 0
  let kind := t.mapF m 0 19 16
  let bit := t.mapF m 1 20 16
  let isBit := fun k => k == 2 || k == 3
  kind == 7 || (decide (n < t.slotCount) && t.slotArea n == Area.input && decide (t.slotTask n ≤ 8) && (isBit kind || bit == 0) &&
    (List.range m).all fun k => t.mapF k 0 19 16 == 7 || t.mapF k 0 13 0 != n ||
      (isBit kind && isBit (t.mapF k 0 19 16) && t.mapF k 1 20 16 != bit))

/-- MAP_PWM of record m. -/
def State.mapPwmOk (t : State) (m : Nat) : Bool :=
  let n := t.mapF m 0 13 0
  let u := t.mapF m 1 15 0
  t.mapF m 0 19 16 != 7 || (t.mapF m 1 20 16 == 0 && decide (u < 32) && t.imgF 3 1 u 0 15 15 == 1 && decide (n < t.slotCount) &&
    t.slotArea n == Area.output && decide (t.slotTask n ≤ 8) &&
    (List.range m).all fun k => t.mapF k 0 19 16 != 7 || t.mapF k 1 15 0 != u)

/-- CH_SLOT and CH_PWM of channel c. -/
def State.chSlotOk (t : State) (c : Nat) : Bool :=
  let n := t.ch c 1 20 7
  t.chSrc c != 0 || (decide (n < t.slotCount) && t.slotArea n == Area.output && decide (t.slotTask n ≤ 8) &&
    t.taskOwner (t.slotTask n) == t.chanOwner c)
def State.chPwmOk (t : State) (c : Nat) : Bool :=
  let m := (List.range t.mapCount).find? fun m => t.mapF m 0 19 16 == 7 && t.mapF m 1 15 0 == t.chSel c
  t.chSrc c != 1 || m.any fun m => t.taskOwner (t.slotTask (t.mapF m 0 13 0)) == t.chanOwner c

/-! The station map (R185, R186) -/

/-- The first item of the station layout that fails: the map as a whole is item 0. -/
def State.stnLayout (t : State) : Option (Nat × Nat) :=
  let n := bitsOf (t.lw t.stnBase) 6 0
  let zero := fun s => (List.range 6).all fun w => t.stnRec s w 31 0 == 0
  let ok := fun s =>
    if t.stnRec s 0 0 0 = 1 then
      let lim := if t.stnEth s then 64 else 12
      decide (t.stnIn s ≤ lim) && decide (t.stnOut s ≤ lim)
    else zero s
  let total := 16 + 24 * n + 8 * sumList ((List.range n).map fun s => t.stnIn s + t.stnOut s)
  if t.stnLen = 0 then none
  else if n < 1 ∨ 64 < n ∨ t.stnLen < 16 + 24 * n then some (0x60, 0)
  else (firstItem n 0x60 ok).orElse fun _ => if t.stnLen = total then none else some (0x60, 0)

/-- STN_MEDIUM of station s. -/
def State.stnMediumOk (t : State) (s : Nat) : Bool :=
  let e := t.stnEndpoint s
  let id := t.stnCanId s
  !t.stnEn s || (if t.stnEth s then inRange 14 e 29 && decide (0x600 ≤ t.stnEtherType)
    else decide (e < 16) && t.stnRec s 3 31 30 == 0 && t.stnRec s 4 31 0 == 0 &&
      decide (id + 1 < if t.stnCanIde s then 2 ^ 29 else 2 ^ 11) && (t.stnSyncIde || decide (t.stnSyncId < 2 ^ 11)) &&
      (t.stnOwner s).all fun d => bitOf (t.drawerRec d 6 15 0) e)

/-- STN_POINT of point i of station s. -/
def State.stnPointOk (t : State) (s i : Nat) : Bool :=
  let slot := bitsOf (t.pointWord s i 0) 13 0
  let sub := bitsOf (t.pointWord s i 0) 17 16
  let fixed := t.pointWord s i 1
  if i < t.stnIn s then slot == 0 && sub != 3 && (sub == 1 || fixed == 0)
  else decide (slot < t.slotCount) && t.slotArea slot == Area.output && t.slotTask slot == t.stnTask s && sub == 0 && fixed == 0

/-- The points of all stations in order, as station and point number. -/
def State.stnPoints (t : State) : List (Nat × Nat) :=
  (List.range t.stnCount).flatMap fun s => (List.range (t.stnIn s + t.stnOut s)).map fun i => (s, i)

/-- STN_TIMING of station s. -/
def State.stnTimingOk (t : State) (s : Nat) : Bool :=
  let k := t.stnTask s
  let per := t.taskRec k 1 19 0
  let off := t.stnRec s 2 15 0
  let out := t.stnRec s 2 31 16
  !t.stnEn s || (t.taskEn k && inRange 100 (t.stnRec s 1 19 0) 1000000 && decide (10 ≤ off) && decide (off < per) &&
    decide (10 ≤ out) && decide (2 * out ≤ per))

/-- The identifiers station s puts on its endpoint, as value and IDE; an Ethernet station's address. -/
def State.stnIds (t : State) (s : Nat) : List (Nat × Bool) :=
  if t.stnEth s then [(t.stnMac s, true)] else [(t.stnCanId s, t.stnCanIde s), (t.stnCanId s + 1, t.stnCanIde s)]

/-- STN_ADDR of station s against the earlier ones, and against SYNC_CAN_ID on its controller. -/
def State.stnAddrOk (t : State) (s : Nat) : Bool :=
  let clash := fun r => t.stnEn r && t.stnEth r == t.stnEth s && t.stnEndpoint r == t.stnEndpoint s &&
    (t.stnIds r).any fun x => (t.stnIds s).contains x
  !t.stnEn s || (!(List.range s).any clash &&
    (t.stnEth s || !(t.stnIds s).contains (t.stnSyncId, t.stnSyncIde)))

/-- STN_MAP: every STATION record names a point that exists, and every input point of an enabled station is mapped once. -/
def State.stnMapCheck (t : State) : Option (Nat × Nat) :=
  let isStn := fun m => t.mapF m 0 19 16 == 6
  let named := fun m => !isStn m ||
    (t.stnEn (t.mapF m 1 15 0 / 64) && decide (t.mapF m 1 15 0 % 64 < t.stnIn (t.mapF m 1 15 0 / 64)))
  let once := fun s => !t.stnEn s || (List.range (t.stnIn s)).all fun i =>
    ((List.range t.mapCount).filter fun m => isStn m && t.mapF m 1 15 0 == 64 * s + i).length == 1
  (firstItem t.mapCount 0x65 named).orElse fun _ => firstItem t.stnCount 0x65 once

/-! Reserved fields of the program -/

/-- LP_RESERVED, up to the operations. -/
def State.lpReserved (t : State) : Option (Nat × Nat) :=
  let zero := fun k => (List.range 8).all fun w => t.taskRec k w 31 0 == 0
  let masks := [3, 0xFFFFF, 0xFFFFF, 0xFFFF, 0x1FFFF, 0xFFFF, 0, 0]
  let task := fun k => if t.taskEn k then (List.range 8).all fun w => t.taskRec k w 31 0 &&& masks.getD w 0 == t.taskRec k w 31 0
    else zero k
  let pad := (List.range (t.sidBase * 4 - 352 - t.slotCount)).all fun x => t.slotAttr (t.slotCount + x) == 0
  let map := fun m => t.mapF m 0 31 0 &&& 0xF3FFF == t.mapF m 0 31 0 && t.mapF m 1 31 0 &&& 0x1FFFFF == t.mapF m 1 31 0
  let rest := fun r => t.lw (t.restBase + 2 * r) < 2 ^ 14
  let op := fun i => t.opF i 63 58 == 0 && ((t.opTask i).isSome || t.opWord i == 0)
  (if bitsOf (t.lw 1) 31 16 = 0 ∧ t.lw 14 = 0 ∧ t.lw 15 = 0 then none else some (4, 0)).orElse fun _ =>
  (firstItem 9 4 task).orElse fun _ =>
  (firstItem t.slotCount 4 fun n => decide (t.slotAttr n < 128)).orElse fun _ =>
  (if pad then none else some (4, 0)).orElse fun _ =>
  (firstItem t.mapCount 4 map).orElse fun _ =>
  (firstItem t.restCount 4 fun r => decide (rest r)).orElse fun _ => firstItem t.opCount 4 op

/-- LP_RESERVED of the station map, as far as its parts are there (a disabled record is STN_LAYOUT's). -/
def State.lpReservedStn (t : State) : Option (Nat × Nat) :=
  let n := bitsOf (t.lw t.stnBase) 6 0
  let head := bitsOf (t.lw t.stnBase) 31 16 == 0 && bitsOf (t.lw t.stnBase) 7 7 == 0 && bitsOf (t.lw (t.stnBase + 1)) 31 16 == 0 &&
    bitsOf (t.lw (t.stnBase + 2)) 31 30 == 0 && t.lw (t.stnBase + 3) == 0
  let station := fun s => t.stnRec s 0 0 0 == 0 || (t.stnRec s 0 7 7 == 0 && t.stnRec s 0 15 15 == 0 && t.stnRec s 0 23 23 == 0 &&
    t.stnRec s 0 31 27 == 0 && t.stnRec s 1 31 20 == 0 && (!t.stnEth s || t.stnRec s 4 31 16 == 0) && t.stnRec s 5 31 0 == 0)
  let pts := t.stnPoints
  let point := fun j =>
    let (s, i) := pts.getD j (0, 0)
    bitsOf (t.pointWord s i 0) 15 14 == 0 && bitsOf (t.pointWord s i 0) 31 18 == 0
  if t.stnLen < 16 then none
  else (if head then none else some (4, 0)).orElse fun _ =>
    if 64 < n ∨ t.stnLen < 16 + 24 * n then none
    else (firstItem n 4 station).orElse fun _ => if t.stnLayout.isSome then none else firstItem pts.length 4 point

/-! The whole program check -/

/-- Tasks: TASK_PERIOD, TASK_OWNER, TASK_CODE, ERR_INPUTS. -/
def State.taskCheck (t : State) : Option (Nat × Nat) :=
  let per := fun k => t.taskRec k 1 19 0
  let off := fun k => t.taskRec k 2 19 0
  let periodOk := fun k => !t.taskEn k ||
    (if k = 8 then per k == 0 && off k == 0 else inRange 2 (per k) 1000000 && decide (off k < per k))
  let apart := fun k j => !t.taskEn j || decide (t.codeHi j ≤ t.codeLo k) || decide (t.codeHi k ≤ t.codeLo j)
  let codeOk := fun k => !t.taskEn k || (inRange 1 (t.taskRec k 4 16 0) 65536 && decide (t.codeHi k ≤ t.opCount) &&
    decide (t.codeLo k ≤ t.taskRec k 5 15 0) && decide (t.taskRec k 5 15 0 < t.codeHi k) && (List.range k).all (apart k))
  (firstItem 9 0x10 periodOk).orElse fun _ =>
  (firstItem 8 0x11 fun k => t.taskEn k == (t.taskOwner k).isSome).orElse fun _ =>
  (firstItem 9 0x12 codeOk).orElse fun _ =>
  if t.taskEn 8 && decide ((t.taskSlots 8 fun n => t.slotArea n == Area.input).length < 4) then some (0x13, 8) else none

/-- Slots: SLOT_ATTR and SLOT_SID. -/
def State.slotCheck (t : State) : Option (Nat × Nat) :=
  let attrOk := fun n =>
    let k := t.slotTask n
    let a := t.slotArea n
    (decide (k ≤ 8) || k == 15) && (k != 15 || a == Area.const) && (!t.slotRetain n || a == Area.memory || a == Area.output) &&
      (k == 15 || t.taskEn k)
  (firstItem t.slotCount 0x20 attrOk).orElse fun _ =>
  firstItem t.slotCount 0x21 fun n => t.slotSid n == 0 || !(List.range n).any fun m => t.slotSid m == t.slotSid n

/-- Operations: OP_CODE, OP_OPERAND, OP_TARGET, OP_BLOCK. -/
def State.opCheck (t : State) : Option (Nat × Nat) :=
  let targetOk := fun k i => t.opF i 7 0 < 0x60 || decide (0x63 < t.opF i 7 0) ||
    (decide (t.codeLo k ≤ t.opF i 37 22) && decide (t.opF i 37 22 < t.codeHi k))
  let deep := (List.range 9).flatMap fun k => if t.taskEn k then t.calls k 8 [t.taskRec k 5 15 0] else []
  (firstItem t.opCount 0x30 (t.inTask fun _ i => t.opCodeOk i)).orElse fun _ =>
  (firstItem t.opCount 0x31 (t.inTask t.operandOk)).orElse fun _ =>
  (firstItem t.opCount 0x32 (t.inTask targetOk)).orElse fun _ =>
  (deep.head?.map fun i => (0x32, i)).orElse fun _ =>
  firstItem t.opCount 0x33 (t.inTask t.blockOk)

/-- Maps, rest records and channels. -/
def State.mapCheck (t : State) : Option (Nat × Nat) :=
  let restOk := fun r =>
    let n := t.lw (t.restBase + 2 * r)
    decide (n < t.slotCount) && t.slotArea n == Area.output
  (firstItem t.mapCount 0x40 t.mapSourceOk).orElse fun _ =>
  (firstItem t.mapCount 0x41 t.mapSlotOk).orElse fun _ =>
  (firstItem t.mapCount 0x42 t.mapPwmOk).orElse fun _ =>
  (firstItem t.restCount 0x48 restOk).orElse fun _ =>
  ((t.chans.find? fun c => !t.chSlotOk c).map fun c => (0x50, c)).orElse fun _ =>
  (t.chans.find? fun c => !t.chPwmOk c).map fun c => (0x51, c)

/-- The station map's checks. -/
def State.stnCheck (t : State) : Option (Nat × Nat) :=
  let pts := t.stnPoints
  t.stnLayout.orElse fun _ =>
  (firstItem t.stnCount 0x61 t.stnMediumOk).orElse fun _ =>
  (firstItem pts.length 0x62 fun j => t.stnPointOk (pts.getD j (0, 0)).1 (pts.getD j (0, 0)).2).orElse fun _ =>
  (firstItem t.stnCount 0x63 t.stnTimingOk).orElse fun _ =>
  (firstItem t.stnCount 0x64 t.stnAddrOk).orElse fun _ => t.stnMapCheck

/-- The bytes PROG_HASH covers (R161): task table, attributes without padding, SID table. -/
def State.hashed (t : State) : List Nat :=
  (List.range 72).flatMap (fun i => leBytes 4 (t.lw (16 + i))) ++ (List.range t.slotCount).map t.slotAttr ++
    (List.range t.slotCount).flatMap fun n => leBytes 4 (t.slotSid n)

/-- The program check of a LATHE section of `len` bytes (R184): the first failure as detail and item. -/
def State.programCheck (t : State) (len : Nat) : Option (Nat × Nat) :=
  let countsOk := inRange 1 t.opCount 65536 && inRange 1 t.slotCount 16384 && decide (t.mapCount ≤ 4096) &&
    decide (t.restCount ≤ 4096) && t.stnLen % 8 == 0 && 4 * t.stnBase + t.stnLen == len
  (if t.lw 0 = 0x504C5A4C then none else some (1, 0)).orElse fun _ =>
  (if bitsOf (t.lw 1) 15 0 = 1 then none else some (2, 0)).orElse fun _ =>
  (if countsOk then none else some (3, 0)).orElse fun _ =>
  t.lpReserved.orElse fun _ => t.lpReservedStn.orElse fun _ =>
  (if sha256 t.hashed = t.progHash then none else some (5, 0)).orElse fun _ =>
  t.taskCheck.orElse fun _ => t.slotCheck.orElse fun _ => t.opCheck.orElse fun _ => t.mapCheck.orElse fun _ => t.stnCheck

/-! The check of a Carcass bank (R15, R29) -/

/-- The image the bytes of a bank hold. -/
def imageOf (l : List Nat) : Image :=
  ⟨(dirOf l).map fun e => (e.type_, leWords (e.bytes l)), fieldLe l 16 4, fieldLe l 0x48 4, slice l 0x28 32⟩

/-- The state with an image under check in place of the one in force. -/
def State.withImage (s : State) (im : Image) : State :=
  let t := { s with img := some im }
  { t with drw := { t.drw with count := (t.sec 7).length / 12 } }

/-- The check of a Carcass image in a bank's bytes; none when it passes. -/
def State.carcassCheck (s : State) (l : List Nat) : Option ImgFail :=
  let plain := fun (o : Option Nat) => o.map fun c => (⟨c, 0, 0, 0, 0⟩ : ImgFail)
  (plain (s.kindCheck 2 l)).orElse fun _ =>
  (plain (dirCheck l)).orElse fun _ =>
    let d := dirOf l
    let t := s.withImage (imageOf l)
    let types := (d.map (·.type_)).filter (· != 14)
    let named := fun (f : Nat → Option (Nat × Nat)) (ts : List Nat) =>
      ts.findSome? fun ty => (f ty).map fun (c, i) => (⟨c, ty, i, 0, 0⟩ : ImgFail)
    (named t.ownCheck types).orElse fun _ =>
    (named t.crossCheck [1, 4, 6, 7, 10, 12]).orElse fun _ =>
    (((d.find? (·.type_ == 14)).bind fun e => t.programCheck e.len).map fun (x, i) => (⟨0x58, 14, 0, x, i⟩ : ImgFail)).orElse fun _ =>
    plain (must (sha256 (d.flatMap (DirE.bytes l)) == slice l 0x28 32) 0x60)

end Sys2Proof.Machine
end

