-- ==== Sys2Proof/Machine/UpdOps.lean ====
section
/-! DEFINITION. Image update (ch. 20): commands and sessions, the checks and journaled copies at a start, and the anti-rollback
counters. -/

namespace Sys2Proof.Machine

/-! Sessions (R405, R407) -/

/-- The session of a kind. -/
def State.sess (s : State) (kind : Nat) : SessSt := storeGet SessSt.none_ s.upd.sess kind

/-- Replace the session of a kind. -/
def State.putSess (s : State) (kind : Nat) (x : SessSt) : State :=
  { s with upd := { s.upd with sess := storePut SessSt.none_ s.upd.sess kind x } }

/-- The distinct bytes written of a session. -/
def SessSt.filled (x : SessSt) : Nat := sumList (x.pages.map fun p => p.2.length)

/-- The pages of an image. -/
def SessSt.pageCount (x : SessSt) : Nat := (x.size + 4095) / 4096

/-- The staged bytes of a session. -/
def SessSt.bytes (x : SessSt) : List Nat := (List.range x.pageCount).flatMap fun p => storeGet [] x.pages p

/-- A payload written at an offset that is a multiple of 4,096. -/
def SessSt.write (x : SessSt) (off : Nat) (pay : List Nat) : SessSt :=
  let ps := (List.range ((pay.length + 4095) / 4096)).foldl
    (fun m p => storePut [] m (off / 4096 + p) (slice pay (4096 * p) 4096)) x.pages
  { x with pages := ps }

/-! Commands (R404 to R406) -/

/-- Header fields of a command. -/
def UpdCmd.kind (c : UpdCmd) : Nat := at0 c.head 4
def UpdCmd.offset (c : UpdCmd) : Nat := fieldLe c.head 8 4

/-- The status of a command: the first failure (R405). A header cut short fails as a header (log entry 21). -/
def State.updJudge (s : State) (c : UpdCmd) (nandErr : Bool) : Nat :=
  let x := s.sess c.kind
  let n := c.pay.length
  let badRange :=
    if c.op = 1 then c.offset == 0 || decide (kindLimit c.kind < c.offset)
    else c.op == 2 && (c.offset % 4096 != 0 || n == 0 || decide (65536 < n) || decide (x.size < c.offset + n) ||
      (n % 4096 != 0 && c.offset + n != x.size))
  if c.op < 1 ∨ 4 < c.op then 1
  else if c.head.length < 16 ∨ fieldLe c.head 0 4 ≠ 0x4B425A4C ∨ c.kind < 1 ∨ 3 < c.kind ∨ fieldLe c.head 5 3 ≠ 0 then 2
  else if (c.op = 2 ∨ c.op = 3) ∧ x.state ≠ 1 then 3
  else if badRange then 4
  else if c.op = 2 ∧ crc32 c.pay ≠ fieldLe c.head 12 4 then 5
  else if nandErr then 6
  else if c.op = 3 ∧ x.filled ≠ x.size then 7
  else 0

/-- What an accepted command does (R405). -/
def State.updEffect (s : State) (c : UpdCmd) : State :=
  let x := s.sess c.kind
  match c.op with
  | 1 => s.putSess c.kind ⟨1, c.offset, []⟩
  | 2 => s.putSess c.kind (x.write c.offset c.pay)
  | 3 => s.putSess c.kind { x with state := 2 }
  | _ => s.putSess c.kind SessSt.none_

/-- The engine runs the command at the front when it is operation `op` (R406). -/
def State.updRun (s : State) (op : Nat) (nandErr : Bool) : State :=
  match s.upd.cmds, s.upd.ran with
  | c :: _, none =>
    if c.op ≠ op then s
    else
      let st := s.updJudge c nandErr
      let s := { s with upd := { s.upd with ran := some st } }
      if st = 0 then s.updEffect c else s
  | _, _ => s

/-- The engine reports a status: to the mailbox, or as DETAIL of the ring's descriptor (R404, R406). -/
def State.updReport (s : State) (ring st : Nat) : State :=
  if ring = 256 then ((s.put F.UPD_MBX_STAT_BUSY 0).put F.UPD_MBX_STAT_DONE 1).put F.UPD_MBX_STAT_STATUS st
  else if ring < 256 then s.putRg ring { s.rg ring with result := 0, detail := st, ready := true }
  else s

/-- The command at the front finishes (R406); a mailbox operation outside 1 to 4 finishes with BAD_OP. -/
def State.updDone (s : State) : State :=
  match s.upd.cmds with
  | [] => s
  | c :: rest =>
    match s.upd.ran with
    | some st => State.updReport { s with upd := { s.upd with cmds := rest, ran := none } } c.ring st
    | none =>
      if c.op < 1 ∨ 4 < c.op then State.updReport { s with upd := { s.upd with cmds := rest } } c.ring 1 else s

/-- A write of UPD_MBX_CMD (R404, R406). -/
def State.mbxCmd (s : State) (w : Nat) : State :=
  if s.is F.UPD_MBX_STAT_BUSY then s.put F.UPD_MBX_STAT_REJ 1
  else
    let head := (List.range 4).flatMap fun k => leBytes 4 (s.get F.UPD_MBX_HDR_WORD k)
    let n := s.get F.UPD_MBX_LEN_LEN
    let byte := fun b => s.get F.UPD_MBX_DATA_DATA (b / 16) (b / 4 % 4) / 2 ^ (8 * (b % 4)) % 256
    let c : UpdCmd := ⟨256, bitsOf w 2 0, head, (List.range n).map byte⟩
    { s with upd := { s.upd with cmds := s.upd.cmds ++ [c] } }.put F.UPD_MBX_STAT_BUSY 1

/-! Banks and copies (R409) -/

/-- The first byte of an eMRAM bank: boot firmware (kind 1) or Carcass (R14, R33). -/
def bankAddr (kind bank : Nat) : Nat := if kind = 1 then 0x8000000 + bank * 0x100000 else 0x8200000 + bank * 0x180000

/-- The bytes of a bank. -/
def State.bankBytes (s : State) (kind bank : Nat) : List Nat :=
  if kind = 3 then (List.range 32768).flatMap fun p => storeGet [] s.upd.nand (bank * 32768 + p)
  else memBytes s.mem (bankAddr kind bank) (kindLimit kind)

/-- One page of a copy is written to its target. -/
def State.copyPage (s : State) (kind bank p : Nat) (l : List Nat) : State :=
  if kind = 3 then { s with upd := { s.upd with nand := storePut [] s.upd.nand (bank * 32768 + p) l } }
  else { s with mem := memWrite s.mem (bankAddr kind bank + 4096 * p) l }

/-- The target's MAGIC is written as zero. -/
def State.zeroMagic (s : State) (kind bank : Nat) : State :=
  if kind = 3 then
    s.copyPage 3 bank 0 ([0, 0, 0, 0] ++ (storeGet [] s.upd.nand (bank * 32768)).drop 4)
  else { s with mem := memWrite s.mem (bankAddr kind bank) [0, 0, 0, 0] }

/-- The preferred bank of a kind. -/
def State.prefBank (s : State) (kind : Nat) : Nat := storeGet 0 s.upd.pref kind

/-- The bank of a kind the start took: bank + 1 (0 none) and SEC_VERSION. -/
def State.tookBank (s : State) (kind : Nat) : Nat × Nat := storeGet (0, 0) s.upd.took kind

/-- The target of a copy: the bank the last start did not take, else the one that is not preferred (R409). -/
def State.copyTarget (s : State) (kind : Nat) : Nat :=
  match (s.tookBank kind).1 with
  | 0 => 1 - s.prefBank kind
  | b + 1 => 1 - b

/-- UPD_LASTBOOT of a kind (R411). -/
def State.lastBoot (s : State) (kind code bank : Nat) (resumed : Bool) : State :=
  ((s.put F.UPD_LASTBOOT_CODE code (kind - 1)).put F.UPD_LASTBOOT_RESUMED (b2n resumed) (kind - 1)).put F.UPD_LASTBOOT_BANK bank
    (kind - 1)

/-- The staged image of a kind is discarded and no copy is journaled. -/
def State.copyOver (s : State) (kind : Nat) : State :=
  { s.putSess kind SessSt.none_ with upd := { (s.putSess kind SessSt.none_).upd with journal := none } }

/-- The journaled copy of a kind runs from page `first` and ends as `e` says (R409). -/
def State.copyRun (s : State) (kind bank first : Nat) (e : CopyEnd) (resumed : Bool) : State :=
  let x := s.sess kind
  let upTo := fun (s : State) (stop : Nat) =>
    s.each ((List.range (min stop x.pageCount)).drop first) fun s p => s.copyPage kind bank p (storeGet [] x.pages p)
  match e with
  | .whole =>
    let s := (upTo s x.pageCount).copyOver kind
    State.lastBoot { s with upd := { s.upd with pref := storePut 0 s.upd.pref kind bank } } kind 0 bank resumed
  | .mismatch p => (((upTo s (p + 1)).zeroMagic kind bank).copyOver kind).lastBoot kind 0x72 bank resumed
  | .unreadable p => ((upTo s p).copyOver kind).lastBoot kind 0x73 bank resumed
  | .cut p =>
    let s := upTo s p
    { s with upd := { s.upd with journal := some (kind, bank, max first (min p x.pageCount)) } }

/-- A sealed image is checked with codes 0x01 to 0x09 and copied into its target bank, or discarded (R408, R409). -/
def State.stagedImage (s : State) (kind : Nat) (e : CopyEnd) : State :=
  if (s.sess kind).state ≠ 2 then s
  else
    match s.kindCheck kind (s.sess kind).bytes with
    | some c => (s.copyOver kind).lastBoot kind c 0 false
    | none => s.copyRun kind (s.copyTarget kind) 0 e false

/-- An open session is discarded at a start (R407). -/
def State.openDiscard (s : State) (kind : Nat) : State :=
  if (s.sess kind).state = 1 then (s.putSess kind SessSt.none_).lastBoot kind 0x70 0 false else s

/-- The bank of a kind a start takes: the preferred one when its image passes codes 0x01 to 0x09, else the other (log entry 21). -/
def State.takeBank (s : State) (kind : Nat) : State :=
  let good := fun b => (s.kindCheck kind (s.bankBytes kind b)).isNone
  let p := s.prefBank kind
  let took := if good p then some p else if good (1 - p) then some (1 - p) else none
  let v := match took with
    | some b => (b + 1, fieldLe (s.bankBytes kind b) 16 4)
    | none => (0, 0)
  { s with upd := { s.upd with took := storePut (0, 0) s.upd.took kind v } }

/-- An interrupted copy goes on (R409). -/
def State.copyResume (s : State) (ends : Nat → CopyEnd) : State :=
  match s.upd.journal with
  | some (k, b, p) => s.copyRun k b p (ends k) true
  | none => s

/-- A sealed image of a kind is processed, unless a copy was cut off (R408). -/
def State.stagedNext (s : State) (kind : Nat) (e : CopyEnd) : State := if s.upd.journal.isSome then s else s.stagedImage kind e

/-- What the Boot ROM does with images before it selects a bank (R408, R409): an interrupted copy resumes, open sessions go, sealed BOOT
and CARCASS images are processed. `ends` says how the copy of each kind ends; a copy cut off leaves the rest undone. -/
def State.bootImages (s : State) (ends : Nat → CopyEnd) : State :=
  (((s.copyResume ends).each [1, 2, 3] State.openDiscard).stagedNext 1 (ends 1)).stagedNext 2 (ends 2)

/-! Confirmation (R410) -/

/-- A write of UPD_CONFIRM. -/
def State.updConfirm (s : State) (w : Nat) : State :=
  if bitsOf w 31 16 ≠ 0x9A51 then s
  else
    let k := bitsOf w 1 0
    match s.tookBank k with
    | (0, _) => s.put F.UPD_CONF_STAT_REJ 1
    | (b + 1, v) =>
      if b ≠ s.prefBank k ∨ v ≤ s.arbCounter k then s.put F.UPD_CONF_STAT_REJ 1
      else s.put F.UPD_ARB_COUNTER v (k - 1)

end Sys2Proof.Machine
end

