-- ==== Sys2Proof/Machine/StartOps.lean ====
section
/-! DEFINITION. Supplies, resets, the start sequence, the harness check, sleep and wake (ch. 3), with the image taken (R15, R16), the
end of holds (R132 to R134), latches and Clamp rules at a start (R140, R154, R155), and the ISL reset of an island (R11). -/

namespace Sys2Proof.Machine

/-- Enter a phase. -/
def State.putPhase (s : State) (p : Nat) : State := { s with start := { s.start with phase := p } }

/-- Whether the start has ended (R60). -/
def State.startDone (s : State) : Bool := s.phase == Ph.run || s.phase == Ph.toSleep

/-- Whether a power-stage die has lost its state and has not been reloaded (R51, R55). -/
def State.dieLost (s : State) (b : Nat) : Bool := storeGet false s.load.lost b

def State.anyLost (s : State) : Bool := (List.range 4).any s.dieLost

/-- Set a die's lost flag. -/
def State.putLost (s : State) (b : Nat) (v : Bool) : State :=
  { s with load := { s.load with lost := storePut false s.load.lost b v } }

/-- Whether feed f (0 FEEDA, 1 FEEDB) is above 4.5 V. -/
def State.feedOk (s : State) (f : Nat) : Bool := if f = 0 then s.is F.FAB_PWR_STATUS_FEEDA_OK else s.is F.FAB_PWR_STATUS_FEEDB_OK

/-- The SAFEN pin (R421): 0 released, 1 asserted, 2 high-impedance. -/
def State.safenPin (s : State) : Nat :=
  if s.phase = Ph.off ∨ s.phase = Ph.sleep then (if s.feedOk 0 || s.feedOk 1 then 1 else 2)
  else if s.phase ≤ Ph.taken ∨ s.phase = Ph.fail then 1
  else b2n s.safenAsserted

/-! Resets (R10, R55 to R58) -/

/-- The units of the compute and PHY dies after SYS or POR; what stands in eMRAM, NAND and the power-stage dies is left, and
so are the forces (R12, R201). -/
def State.sysUnits (s : State) : State :=
  { s with
    fab := ⟨[], [], [], [], []⟩
    drw := { s.drw with ringOwner := [], tillOwner := [], recOwner := [], faults := [], move := none }
    ztm := ⟨0, 0, 0, 0, 0, none, none, none, none⟩
    load := { s.load with pwm := [] }
    flt := { s.flt with byTest := false }
    pins := []
    lth := ⟨[], [], [], [], [], 0, false, none, s.lth.ret, false, false, [], s.lth.forces, [], [], false, [], [], []⟩
    canLthQ := []
    can := []
    mtr := MtrSt.rst
    ring := []
    ringSig := []
    seqs := []
    iom := ⟨[], none⟩
    dvt := DvtSt.rst
    port := []
    saKey := []
    hart := []
    wld := ⟨false⟩
    dwl := DwlSt.rst
    til := { s.til with queue := [], busy := none, nonce := none, result := none, wrldPend := false }
    upd := { s.upd with cmds := [], ran := none } }.recLost.forget fun a => isSram a || isDram a

/-- What a POR resets besides: the power-stage dies start in their POR state, and no image is in force (R10, R56, R128, R201). -/
def State.porUnits (s : State) : State :=
  let lost := [(0, !s.feedOk 0), (1, !s.feedOk 0), (2, !s.feedOk 1), (3, !s.feedOk 1)].filter (·.2)
  { s with
    img := none
    drw := { s.drw with count := 1 }
    front := ⟨0, 0⟩
    load := { s.load with ch := [], feed := [], lost := lost }
    flt := { s.flt with pend := s.flt.pend.filter (·.1 != 1) }
    latchedRules := 0
    lth := { s.lth with forces := [], ret := { s.lth.ret with forces := [] } } }

/-- What is saved before a reset of cause RSTN, SW_SYS or SW_POR (R181, R394). -/
def State.resetSaves (s : State) (cause : Nat) : State :=
  if cause = 3 ∨ cause = 4 ∨ cause = 5 then
    (if s.start.recUp then s.retSave else s.retSave.recRestore).alarmSave
  else s

/-- Every Clamp rule's RESULT as the network drives it: true exactly in ACTIVE (R150, R154). -/
def State.ruleResults (s : State) : State :=
  s.each (List.range 64) fun s r => s.put F.CLP_STAT_RESULT (b2n (s.get F.CLP_STAT_STATE r == Rule.active)) r

/-- Every Clamp rule's COND as the comparators drive it, while the network has power (R149, R154). -/
def State.ruleConditions (s : State) : State :=
  if s.start.wasOff then s else s.each (below 64 s.ruleOn) State.ruleShow

/-- A POR or SYS begins (R55 to R58, R130). `flush` is what FAB_RST_CAUSE.FLUSH will show. What the last harness check and R72 have blocked
stands for a die reloaded before this start's check (R454). -/
def State.doReset (s : State) (por : Bool) (cause flush : Nat) : State :=
  let s := s.resetSaves cause
  let waits := s.lth.waiting
  let s := if por then s else s.each (s.chans.filter fun c => !s.dieLost (bankOf c)) fun s c => s.holdBegin 2 c
  let s := s.sysUnits
  let s := { s with regs := regResetBy (fun _ _ _ f => if por then f.clr.onPor else f.clr.onSys) s.regs }
  let s := if por then s.porUnits else (s.each s.chans fun s c => s.put F.LCH_STATE_SRC_VAL 0 c).each s.chans State.sleepLift
  let s := (s.volatileLost.ruleResults).ruleConditions.put F.FAB_PWR_STATUS_VLOG_OK 1
  let s := s.each waits fun s cp => s.put F.LTH_CHG_STATUS_RESULT 8 0 0 cp
  let x : StartSt := { s.start with
    phase := Ph.began, por := por, cause := cause, held := !por && !s.anyLost, flush := flush, flushNext := 0, vlogBack := false,
    recUp := false, marks := [], checked := false, rstLow := true, wakeHeld := none, wakeNow := false, charging := false, renewed := false }
  { s with start := x }

/-- Whether a trigger coincides with the one that began this start: no tick has passed since (R57; log entry 124). -/
def State.sameCycle (s : State) : Bool := s.phase == Ph.began && s.ztm.zone == 0

/-- A reset trigger while the compute die is powered (R57): absorbed by a start of the same or a wider kind, whose CAUSE is the lowest code
among simultaneous triggers of the kind, and by the power-fail sequence, which runs to its end (R52). -/
def State.trigger (s : State) (por : Bool) (cause : Nat) : State :=
  if s.phase = Ph.off ∨ s.phase = Ph.fail ∨ s.phase = Ph.sleep then s
  else if s.phase ≤ Ph.taken ∧ (s.start.por || !por) then
    if s.sameCycle && s.start.por == por then { s with start := { s.start with cause := min cause s.start.cause } } else s
  else s.doReset por cause 0

/-! VLOG (R49 to R55) -/

/-- VLOG is valid with the compute die off: a POR when a die has lost its state, else a SYS. -/
def State.vlogStart (s : State) (flush : Nat) : State :=
  if s.anyLost then s.doReset true 1 flush else s.doReset false 2 flush

/-- The compute die loses power: the Clamp network with it, whose last commands stay frozen in the dies (R155). -/
def State.powerOff (s : State) (ph : Nat) : State :=
  let s := s.each (below 96 fun c => (s.lc c).clamp != 0 && !s.dieLost (bankOf c)) fun s c =>
    ((s.putLc c { s.lc c with frozen := true }).put F.CLP_CHAN_FROZEN 1 c).put F.CLP_CHAN_RULE 0 c
  { s with front := ⟨0, 0⟩, start := { s.start with phase := ph, wasOff := true, charging := false } }

/-- The rules in LATCHED are written to eMRAM (R155). -/
def State.saveLatched (s : State) : State :=
  { s with latchedRules := (List.range 64).foldl (fun a r => setBitTo a r (s.get F.CLP_STAT_STATE r == Rule.latched)) 0 }

/-- VLOG becomes valid. During the power-fail sequence it is acted on after the end (R52); `cut` says that the hold-up ran out before
the journal marker was committed (R53). -/
def State.vlogValid (s : State) (cut : Bool) : State :=
  if s.phase = Ph.off then s.vlogStart s.start.flushNext
  else if s.phase = Ph.fail then
    if cut then ((s.put F.LTH_STATE_RET_VALID 0).powerOff Ph.off).vlogStart 2
    else { s.put F.FAB_PWR_STATUS_VLOG_OK 1 with start := { s.start with vlogBack := true } }
  else s

/-- VLOG stays below the fail threshold (R52, R54): the Lathe commits nothing further (log entry 125), the Mitre unit stops at the end of
the slice, and every channel holds. In sleep nothing is left to flush. -/
def State.vlogFail (s : State) : State :=
  let s' := s.put F.FAB_PWR_STATUS_VLOG_OK 0
  if s.phase = Ph.off then s
  else if s.phase = Ph.sleep then s'.putPhase Ph.off
  else if s.phase = Ph.fail then { s' with start := { s'.start with vlogBack := false } }
  else
    let s := s'.each (List.range 9) State.abandon
    let s := { s with lth := { s.lth with lane := [], commitQ := [] } }.mtrStopReq
    let s := { s with start := { s.start with charging := false } }
    (s.each (s.chans.filter fun c => !s.dieLost (bankOf c)) fun s c => s.holdBegin 2 c).putPhase Ph.fail

/-- The items and the alarm store go to eMRAM; alarms of a start not yet ended join the store first (log entry 20). -/
def State.recSave (s : State) : State := if s.start.recUp then s.recCommit else s.recRestore.recCommit

/-- Whether the Mitre unit stands: no slice is under way (R52, R61, R222). -/
def State.mtrStill (s : State) : Bool := s.mtrState != Mtr.running && s.mtrState != Mtr.resolving

/-- The power-fail sequence ends (R52, R181): its writes, the journal marker, power off; then a VLOG that came back starts. -/
def State.powerFailDone (s : State) : State :=
  if s.phase ≠ Ph.fail ∨ !s.mtrStill then s
  else
    let back := s.start.vlogBack
    let s := ((s.retSave.recordAll).saveLatched.recSave).powerOff Ph.off
    let s := { s with start := { s.start with flushNext := 1, vlogBack := false } }
    if back then s.vlogStart 1 else s

/-! Power-stage dies (R51, R454) -/

/-- The dies of a feed. -/
def diesOf (f : Nat) : List Nat := [2 * f, 2 * f + 1]

/-- A die's registers and channels take their POR state (R51, R454); unrecorded retirements of its segments are gone (R128). -/
def State.dieClear (s : State) (b : Nat) : State :=
  let mine : RegId → Nat → FieldDef → Bool := fun r i f =>
    f.clr == Clr.por && (r == .LCH_FLAGS || r == .LCH_STATE || r == .LCH_PROT) && i / 24 == b
  let s := { s with
    regs := regResetBy (fun r _ i f => mine r i f) s.regs
    load := { s.load with ch := s.load.ch.filter fun p => p.1 / 24 != b }
    flt := { s.flt with pend := s.flt.pend.filter fun u => !(u.1 == 1 && u.2 / 24 == b) } }
  s.each (s.chans.filter fun c => bankOf c == b) fun s c =>
    (s.freshProt c).putLc c { LoadCh.por with temp := s.ambient, csa := s.ch c 6 15 0, insul := s.ch c 6 19 16 }

/-- A feed falls below 4.5 V (R51). -/
def State.feedLoss (s : State) (f : Nat) : State :=
  let s := s.put (if f = 0 then F.FAB_PWR_STATUS_FEEDA_OK else F.FAB_PWR_STATUS_FEEDB_OK) 0
  let s := s.each (diesOf f) fun s b => (s.dieClear b).putLost b true
  (s.putFd f { FeedSt.por with limit := (s.fd f).limit }).put F.FEED_STATUS_OVER 0 f

/-- A feed rises above 4.5 V (R51, R454): its dies start in their POR state, and stay off until they are reloaded; the FEED_LIMIT in
force stands (R136). -/
def State.feedReturn (s : State) (f : Nat) : State :=
  if s.feedOk f then s
  else
    let s := s.put (if f = 0 then F.FAB_PWR_STATUS_FEEDA_OK else F.FAB_PWR_STATUS_FEEDB_OK) 1
    s.putFd f { FeedSt.por with limit := (s.fd f).limit }

/-- The drive value the source of channel c gives now (R98). -/
def State.driveNow (s : State) (c : Nat) : Bool :=
  match s.chSrc c with
  | 0 => (s.published (s.ch c 1 20 7)).getLsbD (s.chSel c)
  | 1 => (s.pw (s.chSel c)).out
  | 2 => s.is F.INP_DRV_LEVEL (s.chSel c)
  | _ => s.is F.LCH_CMD_ON c

/-- The segments of a channel. -/
def State.segsOf (s : State) (c : Nat) : List Nat := (List.range (s.ch c 0 9 8 + 1)).map (c + ·)

/-- Whether a retirement of one of a channel's segments is held in eMRAM. -/
def State.segRetired (s : State) (c : Nat) : Bool := (s.segsOf c).any (s.unitRetired 1)

/-- A channel is RETIRED by a record (R129, R138, R454). -/
def State.retiredBy (s : State) (c cause : Nat) : State :=
  (((s.put F.LCH_PROT_STATE Prot.retired c).put F.LCH_PROT_RETIRE_CAUSE cause c).setFlag c Flag.retired).clearFlag c Flag.budgetShed

/-- HARNESS_BLOCK is set on channel c, which no longer counts as shed (R71, R72, R138). -/
def State.blockChan (s : State) (c : Nat) : State := (s.setFlag c Flag.harnessBlock).clearFlag c Flag.budgetShed

/-- The conductor of channel c (R112): the mark memory's entry, else the CHANNELS record. -/
def State.wireOf (s : State) (c : Nat) : State :=
  let x := s.lc c
  s.putLc c (if s.is F.LCH_WIRE_FROM_MARK c then { x with csa := s.get F.LCH_WIRE_CSA c, insul := s.get F.LCH_WIRE_INSUL c }
    else { x with csa := s.ch c 6 15 0, insul := s.ch c 6 19 16 })

/-- A die's reload ends (R454): structure, retirements, HARNESS_BLOCK and Clamp commands; its channels resolve. Without an image in force
there is nothing to reload. -/
def State.dieReload (s : State) (b : Nat) : State :=
  if !(s.dieLost b && s.feedOk (b / 2) && s.awake && s.img.isSome) then s
  else
    let cs := s.chans.filter fun c => bankOf c == b
    let s := (s.dieClear b).putLost b false
    cs.foldl (init := s) fun s c =>
      let s := (s.wireOf c).setDrive c (s.driveNow c)
      let s := if s.segRetired c then s.retiredBy c 3 else s.put F.LCH_PROT_RETIRE_CAUSE 0 c
      (if s.start.blocked.contains c then s.setFlag c Flag.harnessBlock else s).clampChan c

/-! The Boot ROM and the image (R13 to R17, R59) -/

/-- The Boot ROM writes FAB_RST_CAUSE, and the charging of CHOLD starts (R50, R59). -/
def State.bootCause (s : State) : State :=
  { ((s.put F.FAB_RST_CAUSE_CAUSE s.start.cause).put F.FAB_RST_CAUSE_HELD (b2n s.start.held)).put F.FAB_RST_CAUSE_FLUSH s.start.flush with
    start := { s.start with charging := true } }

/-- CHOLD reaches CHOLD_OK (R50). -/
def State.cholOk (s : State) : State := if s.start.charging then s.put F.FAB_PWR_STATUS_CHOLD_OK 1 else s

/-- A lifecycle change that was interrupted is completed, and TIL_LC.INTENT says so (R386). -/
def State.lcComplete (s : State) : State := if s.til.intent.isSome then s.lcEnd.put F.TIL_LC_INTENT 1 else s

/-- The images are processed: the bank of the BOOT image is taken, and the banks of the CARCASS image are to be checked (R15, R59). -/
def State.bootBanks (s : State) : State := ((s.takeBank 1).put F.CARC_STATUS_PREFERRED (s.prefBank 2)).putPhase Ph.banks

/-- The Boot ROM runs (R15, R59, R408, R409): FAB_RST_CAUSE is written, retirements come into force, an interrupted lifecycle change
is completed (R386), and images are processed. A copy cut off by the loss of VLOG ends the row there. -/
def State.bootRom (s : State) (ends : Nat → CopyEnd) : State :=
  if s.phase ≠ Ph.began then s
  else
    let t := s.bootCause.restoreUnits.lcComplete.bootImages ends
    if t.upd.journal.isSome then t else t.bootBanks

/-- Core 0 starts at the boot firmware entry; a retired core stays in reset (R225, R413, R419). -/
def State.coreZero (s : State) : State := if s.unitOut 5 0 then s else s.putHt 0 { HartSt.rst with inReset := false }

/-- Every retired pin, port and controller shows it (R147, R290, R331); one returned to service no longer does (R417). -/
def State.showRetired (s : State) : State :=
  let s := s.each (List.range 128) fun s p => s.put F.INP_MI_STAT_RETIRED (b2n (s.unitOut 2 p)) p
  let s := s.each (below 30 (s.unitOut 3)) fun s p => s.put F.EPT_LINK_STATE Link.retired p
  s.each (below 16 (s.unitOut 4)) fun s k => s.put F.CAN_STAT_STATE Can.retired k

/-- The bare state (R16, R133). -/
def State.enterBare (s : State) : State :=
  let s := s.each s.chans.reverse fun s c =>
    let s := (s.put F.LCH_STATE_OUT 0 c).put F.LCH_STATE_PHASE 0 c
    let s := ((s.put F.LCH_STATE_WINNER 0 c).clearFlag c Flag.onState).clearFlag c Flag.holding
    s.putLc c { s.lc c with edge := 0, hsWin := false, holdBy := 0, holdPol := 0, holdVal := false, clamp := 0, frozen := false, asleep := false, renew := false }
  let s := s.each (List.range 64) fun s r => (s.put F.CLP_STAT_STATE Rule.disabled r).put F.CLP_STAT_RESULT 0 r
  let s := s.each (List.range 96) fun s c => ((s.put F.CLP_CHAN_HELD 0 c).put F.CLP_CHAN_CMD 0 c).put F.CLP_CHAN_FROZEN 0 c
  let s := { s with img := none, drw := { s.drw with count := 1 }, latchedRules := 0, front := ⟨0, 0⟩ }
  ((((s.put F.CARC_STATUS_STATE 2).put F.CARC_STATUS_BANK 0).setBit F.FAB_SAFEN_REASON 1).showRetired.coreZero).putPhase Ph.bare

/-- Held segments are turned off and holds dropped when STRUCT_HASH changes (R134): higher numbers first. -/
def State.holdsDropped (s : State) : State :=
  s.each (s.chans.reverse.filter fun c => s.flag c Flag.holding) fun s c =>
    let s := s.clearFlag c Flag.holding
    (s.putLc c { s.lc c with holdBy := 0, holdPol := 0, holdVal := false }).applyCmd c 0 true

/-- What the new structure changes in the channels (R134). -/
def State.channelsRenewed (s : State) : State :=
  s.each s.chans fun s c =>
    let s := (s.put F.LCH_PROT_IMAGE_CHANGED 1 c).put F.LCH_PROT_RETRY_LEFT (s.ch c 4 3 0) c
    s.putLc c { s.lc c with episodeMs := 0, quietMs := 0 } |>.put F.LCH_PROT_EPISODE 0 c

/-- What a reload of the pins' configuration restarts (R140, R145): values, status and counts start at 0 and filters are empty (log entry
126). -/
def State.pinsReload (s : State) : State :=
  { s with pins := [] }.each (List.range 128) fun s p =>
    let s := (s.put F.INP_MI_VAL_VALUE 0 p).put F.INP_MI_EDGES_EDGES 0 p
    ((s.put F.INP_MI_STAT_OPEN 0 p).put F.INP_MI_STAT_STALLED 0 p).put F.INP_MI_STAT_OVERRANGE 0 p

/-- The front end and the Clamp network when an image is taken (R140, R141, R150, R155): nothing changes when STRUCT_HASH is unchanged and
the compute die kept its power. Otherwise the comparators start from the pins' voltages `l`; when power was lost, rules keep their states,
those recorded as LATCHED are LATCHED, and all evaluate; with a changed structure the pins' configuration is reloaded and rules start from
their results. The live commands then replace the frozen ones, each channel's at once. -/
def State.clampStart (s : State) (changed : Bool) (l : PinMv) : State :=
  if !changed && !s.start.wasOff then s
  else
    let was := s.latchedRules
    let s := (if changed then s.pinsReload else s).frontStart l
    let s := s.each (List.range 64) fun s r =>
      let s := if changed then s.ruleLoad r else if bitOf was r then s.put F.CLP_STAT_STATE Rule.latched r else s
      if s.ruleOn r then (s.ruleShow r).ruleStep r (s.ruleNow r) else s
    { s.each s.chans fun s c => s.clampChan c with latchedRules := 0, start := { s.start with wasOff := false } }

/-- Channels retired over the same segments by the image in force before: number and width. -/
def State.retiredNow (s : State) : List (Nat × Nat) :=
  (s.chans.filter fun c => s.flag c Flag.retired).map fun c => (c, s.ch c 0 9 8)

/-- Retired channels at a start (R129): `old` were retired before; a channel whose segments were cleared returns, and RETIRE_CAUSE is set
from the records. -/
def State.retireStart (s : State) (old : List (Nat × Nat)) (power : Bool) : State :=
  s.each (s.chans.filter fun c => !s.dieLost (bankOf c)) fun s c =>
    if s.segRetired c then
      let kept := !power && old.contains (c, s.ch c 0 9 8)
      (s.retiredBy c (if kept then s.get F.LCH_PROT_RETIRE_CAUSE c else 3)).resolve c
    else if s.flag c Flag.retired then
      let s := ((s.clearFlag c Flag.ocTrip).clearFlag c Flag.wireTrip).clearFlag c Flag.retryExh
      (((s.clearFlag c Flag.retired).freshProt c).put F.LCH_PROT_RETIRE_CAUSE 0 c).resolve c
    else s.put F.LCH_PROT_RETIRE_CAUSE 0 c

/-- The lines the HARNESS section expects (R70). -/
def State.expected (s : State) : List Nat := below 8 fun n => s.imgF 13 4 n 0 0 0 == 1

/-- What mark line n holds. -/
def State.markOf (s : State) (n : Nat) : MarkSt := storeGet MarkSt.off s.start.marks n

/-- Replace what mark line n holds. -/
def State.putMk (s : State) (n : Nat) (x : MarkSt) : State :=
  { s with start := { s.start with marks := storePut MarkSt.off s.start.marks n x } }

/-- The channels whose wire data come from connector n. -/
def State.connChans (s : State) (n : Nat) : List Nat := s.chans.filter fun c => s.ch c 5 19 19 == 1 && s.ch c 5 18 16 == n

/-- The entry of a mark body that lists a cavity: CSA and INSUL (R68). -/
def MarkSt.entry (x : MarkSt) (cav : Nat) : Option (Nat × Nat) :=
  ((List.range (at0 x.hdr 3)).find? fun i => at0 x.body (4 * i) % 128 == cav).map fun i =>
    (fieldLe x.body (4 * i + 2) 2, at0 x.body (4 * i + 1) % 16)

/-- Whether the harness check blocks channel c (R71). -/
def State.harnessBlocks (s : State) (c : Nat) : Bool :=
  let n := s.ch c 5 18 16
  if s.ch c 5 19 19 = 0 then false
  else if s.get F.INP_MK_STATUS_VERDICT n ≠ 1 then true
  else match (s.markOf n).entry (s.ch c 5 26 20) with
    | none => true
    | some (a, i) => decide (a < s.ch c 6 15 0) || decide (i < s.ch c 6 19 16)

/-- LCH_WIRE of channel c after the check (R112). -/
def State.wireStart (s : State) (c : Nat) : State :=
  let n := s.ch c 5 18 16
  let e := if s.ch c 5 19 19 = 1 ∧ s.get F.INP_MK_STATUS_VERDICT n = 1 then (s.markOf n).entry (s.ch c 5 26 20) else none
  let s := match e with
    | some (a, i) => ((s.put F.LCH_WIRE_CSA a c).put F.LCH_WIRE_INSUL i c).put F.LCH_WIRE_FROM_MARK 1 c
    | none => ((s.put F.LCH_WIRE_CSA (s.ch c 6 15 0) c).put F.LCH_WIRE_INSUL (s.ch c 6 19 16) c).put F.LCH_WIRE_FROM_MARK 0 c
  s.wireOf c

/-- The harness check ends once every expected line is judged (R58, R70, R71). -/
def State.harnessEnd (s : State) : State :=
  if s.start.checked || !(s.expected.all fun n => (s.markOf n).stage == 7) then s
  else
    let bl := s.chans.filter s.harnessBlocks
    let s := { s with start := { s.start with checked := true, blocked := bl, rstLow := false } }
    s.each s.chans fun s c =>
      let s := s.wireStart c
      if s.dieLost (bankOf c) then s
      else (if bl.contains c then s.blockChan c else s.clearFlag c Flag.harnessBlock).resolve c

/-- The registers that report the image taken (R15, R28, R161). -/
def State.imageRegs (s : State) (b : Nat) (im : Image) : State :=
  let s := ((s.put F.CARC_STATUS_STATE 1).put F.CARC_STATUS_BANK b).put F.CARC_STATUS_FALLBACK (b2n (b != s.prefBank 2))
  let s := (s.put F.CARC_SECVER_VALUE im.secVersion).put F.CARC_BUILD_VALUE im.buildId
  let s := s.each (List.range 8) fun s i => s.put F.CARC_HASH_HASH (fieldLe im.hash (4 * i) 4) i
  s.each (List.range 8) fun s i => s.put F.LTH_PHASH_HASH (s.lw (6 + i)) i

/-- The image of bank b comes into force (R15, R134); with a changed structure, holds are dropped first. -/
def State.imageInForce (s : State) (b : Nat) (im : Image) (changed : Bool) : State :=
  let s := ((if changed then s.holdsDropped else s).withImage im).imageRegs b im
  { s with upd := { s.upd with took := storePut (0, 0) s.upd.took 2 (b + 1, im.secVersion) } }

/-- The engines as an image sets them (R179, R203). -/
def State.imageEngines (s : State) : State :=
  let s := if s.mtrSplit then { s with mtr := { s.mtr with archB := List.replicate 72 0#32 } } else s
  (s.put F.LTH_STATE_STATE (if s.hasSec 14 then Eng.starting else Eng.idle)).put F.MTR_STATE_STATE
    (if s.mtrSplit then Mtr.halted else Mtr.testing)

/-- The channels as an image sets them: all of them after a POR, with the feeds' budgets (R136), and what a new structure changes after a SYS (R56, R134). -/
def State.imageChannels (s : State) (changed : Bool) : State :=
  if s.start.por then
    let s := s.each s.chans fun s c =>
      (s.freshProt c).putLc c { s.lc c with temp := s.ambient, csa := s.ch c 6 15 0, insul := s.ch c 6 19 16 }
    s.each [0, 1] fun s f => s.putFd f { s.fd f with limit := s.feedBudget f }
  else if changed then s.channelsRenewed else s

/-- The expected mark lines come to idle (R70). -/
def State.marksBegin (s : State) : State := s.each s.expected fun s n => s.putMk n { MarkSt.off with stage := 1 }

/-- Whether an image differs in STRUCT_HASH from the one in force (R134). -/
def State.structChanges (s : State) (im : Image) : Bool := match s.img with | some o => o.hash != im.hash | none => true

/-- The image of bank b is taken (R15). `l` holds the voltages of the MI pins. -/
def State.imageTaken (s : State) (b : Nat) (l : PinMv) (im : Image) : State :=
  let changed := s.structChanges im
  let power := s.start.cause == 1 || s.start.cause == 5
  let t := ((s.imageInForce b im changed).imageEngines).imageChannels changed
  let t := { t with start := { t.start with renewed := changed } }
  ((((t.retireStart s.retiredNow power).showRetired.clampStart changed l).coreZero.marksBegin).putPhase Ph.taken).harnessEnd

/-- A bank's image is rejected with what its check found (R15). -/
def State.bankRejected (s : State) (b : Nat) (e : ImgFail) : State :=
  let s := ((s.put F.CARC_REJ_CODE e.code b).put F.CARC_REJ_SECTION e.sect b).put F.CARC_REJ_INDEX e.index b
  (s.put F.CARC_DET_DETAIL e.detail b).put F.LTH_CHK_ITEM_ITEM e.item b

/-- The bank whose check completes next: the preferred one, then the other (R15). -/
def State.bankNext (s : State) : Nat := if s.get F.CARC_REJ_CODE (s.prefBank 2) = 0xFF then s.prefBank 2 else 1 - s.prefBank 2

/-- The bytes a bank holds for a Carcass image. -/
def State.bankImage (s : State) (b : Nat) : List Nat := s.bankBytes 2 b

/-- The check of bank `b` has come to `res`: its image is taken, or the bank is rejected, the second one for the bare state (R15, R16). -/
def State.bankJudged (s : State) (b : Nat) (l : PinMv) (res : Option ImgFail) : State :=
  match res with
  | none => (s.put F.CARC_REJ_CODE 0 b).imageTaken b l (imageOf (s.bankImage b))
  | some e => if b = s.prefBank 2 then s.bankRejected b e else (s.bankRejected b e).enterBare

/-- The check of one bank completes (R15): the preferred one first, then the other. -/
def State.bankChecked (s : State) (l : PinMv) : State :=
  if s.phase ≠ Ph.banks then s else s.bankJudged s.bankNext l (s.carcassCheck (s.bankImage s.bankNext))

/-! Mark lines (R66 to R72) -/

/-- A line takes its verdict; ENTRIES and VARIANT show the record under MATCH and the mismatches. -/
def State.verdict (s : State) (n v : Nat) : State :=
  let x := s.markOf n
  let known := v == 1 || v == 6 || v == 7
  let s := (s.putMk n { x with stage := 7 }).put F.INP_MK_STATUS_VERDICT v n
  let s := s.put F.INP_MK_STATUS_ENTRIES (if known then at0 x.hdr 3 else 0) n
  (s.put F.INP_MK_STATUS_VARIANT (if known then fieldLe x.hdr 8 2 else 0) n).harnessEnd

/-- A READ is sent on mark line n (R65): OPCODE 0x5A, OFFSET and LENGTH, 40 bits from the least significant. -/
def State.markRead (s : State) (n off len : Nat) : State := s.emit 8 n 0 (leBytes 5 (0x5A + 256 * off + 2 ^ 24 * len))

/-- The header is read, or the body (R67). -/
def State.markSend (s : State) (n : Nat) (x : MarkSt) : State :=
  if x.stage = 2 then (s.putMk n x).markRead n 0 16 else (s.putMk n x).markRead n 16 (4 * at0 x.hdr 3 + 4)

/-- A memory should be ready (R70): ABSENT, SHORT, or the header READ. -/
def State.markReady (s : State) (n : Nat) (c : MarkCond) : State :=
  if s.phase ≠ Ph.taken ∨ (s.markOf n).stage ≠ 1 then s
  else match c with
    | .absent => s.verdict n 2
    | .short => s.verdict n 3
    | .ok => s.markSend n { s.markOf n with stage := 2 }

/-- A transaction fails (R67): it is read once more, then READ_FAIL. -/
def State.markFail (s : State) (n : Nat) : State :=
  let x := s.markOf n
  if x.again then s.verdict n 4
  else (s.putMk n { x with stage := if x.stage = 2 then 3 else 6, again := true }).put F.INP_MK_STATUS_REREAD 1 n

/-- Entries in strictly ascending cavity order, with INSUL and CSA in range (R68, R70). -/
def entriesOk (body : List Nat) (e : Nat) : Bool :=
  (List.range e).all fun i =>
    (i == 0 || decide (at0 body (4 * (i - 1)) % 128 < at0 body (4 * i) % 128)) &&
      inRange 1 (at0 body (4 * i + 1) % 16) 6 && inRange 1 (fieldLe body (4 * i + 2) 2) 12000

/-- The verdict of a record read whole (R70). -/
def State.markJudge (s : State) (n : Nat) (x : MarkSt) : Nat :=
  let e := at0 x.hdr 3
  if !entriesOk x.body e || crc32 (x.hdr ++ x.body.take (4 * e)) != fieldLe x.body (4 * e) 4 then 5
  else if fieldLe x.hdr 4 4 ≠ s.imgF 13 4 n 1 31 0 then 6
  else if !inRange (s.imgF 13 4 n 2 15 0) (fieldLe x.hdr 8 2) (s.imgF 13 4 n 2 31 16) then 7
  else 1

/-- The header has been read (R67): its identity shows, and a header that fails its test ends the reading. -/
def State.markHeader (s : State) (n : Nat) (l : List Nat) : State :=
  let s := (s.put F.INP_MK_TYPE_VALUE (fieldLe l 4 4) n).put F.INP_MK_SERIAL_VALUE (fieldLe l 12 4) n
  let s := s.putMk n ⟨4, false, l, []⟩
  if fieldLe l 0 2 ≠ 0x4B4D ∨ at0 l 2 ≠ 1 ∨ 64 < at0 l 3 then s.verdict n 5 else s

/-- The answer to a READ completes (R66, R67). -/
def State.markAnswer (s : State) (n : Nat) (l : List Nat) (crc : Nat) : State :=
  let x := s.markOf n
  if s.phase ≠ Ph.taken ∨ (x.stage ≠ 2 ∧ x.stage ≠ 5) then s
  else
    let want := if x.stage = 2 then 16 else 4 * at0 x.hdr 3 + 4
    if l.length ≠ want ∨ crc16 l ≠ crc then s.markFail n
    else if x.stage = 2 then s.markHeader n l
    else (s.putMk n { x with body := l }).verdict n (s.markJudge n { x with body := l })

/-- No preamble begins (R67). -/
def State.markSilent (s : State) (n : Nat) : State :=
  if s.phase ≠ Ph.taken ∨ ((s.markOf n).stage ≠ 2 ∧ (s.markOf n).stage ≠ 5) then s else s.markFail n

/-- The idle gap ends, and the next READ is sent. -/
def State.markGap (s : State) (n : Nat) : State :=
  let x := s.markOf n
  if s.phase ≠ Ph.taken then s
  else if x.stage = 3 then s.markSend n { x with stage := 2 }
  else if x.stage = 4 ∨ x.stage = 6 then s.markSend n { x with stage := 5 }
  else s

/-- A line shows SHORT at idle during the reads (R70). -/
def State.markShort (s : State) (n : Nat) : State :=
  let v := s.get F.INP_MK_STATUS_VERDICT n
  if s.phase ≠ Ph.taken ∨ s.start.checked ∨ (s.markOf n).stage ≤ 1 ∨ v = 2 ∨ v = 3 then s else s.verdict n 3

/-- A monitored line is lost (R72). -/
def State.markLost (s : State) (n : Nat) : State :=
  let v := s.get F.INP_MK_STATUS_VERDICT n
  if !s.startDone ∨ !s.expected.contains n ∨ v = 2 ∨ v = 3 ∨ s.is F.INP_MK_STATUS_LOST n then s
  else
    let l := s.connChans n
    let s := (s.put F.INP_MK_STATUS_LOST 1 n).alarm 0x01 n 0 0
    let s := { s with start := { s.start with blocked := s.start.blocked ++ l.filter (fun c => !s.start.blocked.contains c) } }
    s.each (l.filter fun c => !s.dieLost (bankOf c)) fun s c => (s.blockChan c).resolve c

/-! The end of the start (R60, R76, R80, R132, R294, R394) -/

/-- Feed limits and RW fields that the image loads (R12). -/
def State.imageFields (s : State) : State :=
  let s := s.each [0, 1] fun s f =>
    (s.put F.FEED_LIMIT_LIMIT (s.feedBudget f) f).putFd f { s.fd f with limit := s.feedBudget f }
  s.each (List.range s.drw.count) fun s d => s.put F.DRW_BIND_MODE (1 - s.drawerRec d 10 0 0) d

/-- Holds of REG and DRV channels end (R132). -/
def State.holdsEnd (s : State) : State :=
  s.each (s.chans.filter fun c => s.flag c Flag.holding && (s.chSrc c == 2 || s.chSrc c == 3)) fun s c => s.holdEnd c

/-- The start ends (R60): the first Lathe cycle, or for an image without a LATHE section the end of the checks. -/
def State.startEnd (s : State) : State :=
  if s.phase ≠ Ph.taken ∨ !s.start.checked then s
  else
    let s := { s with ztm := { s.ztm with zone := 0, raw := 0, tb := 0, steps := 0 } }
    let s := ((s.imageFields.allocateAll).offerAll).recRestore
    let s := if s.engine = Eng.starting then (s.latheInit true).enterRunning else s
    { s.holdsEnd with start := { s.holdsEnd.start with phase := Ph.run, recUp := true } }

/-! Sleep and wake (R61 to R63, R135) -/

/-- Wake references are taken when FAB_SLEEP_CTRL is written (R146). -/
def State.wakeRefs (s : State) : State :=
  s.each (below 128 fun p => s.mi p 0 3 3 == 1) fun s p =>
    let r := if s.miMode p = 1 then bitOf (s.get F.INP_MI_VAL_VALUE p) 0
      else !s.is F.INP_MI_STAT_OPEN p && decide (s.get F.INP_MI_VAL_VALUE p * s.mi p 1 15 0 < 20000)
    s.putPin p { s.pin p with wakeRef := r, wakeSeen := false }

/-- A write of FAB_SLEEP_CTRL by the keeper (R61). -/
def State.sleepEnter (s : State) (w : Nat) : State :=
  if s.phase ≠ Ph.run ∨ bitsOf w 31 16 ≠ 0x6B19 ∨ !bitOf w 0 then s
  else if s.start.wakeNow then s.put F.FAB_SLEEP_STATUS_RESULT 2
  else
    let s := s.wakeRefs
    let keep := fun c => s.ch c 0 24 24 == 1
    let live := s.chans.filter fun c => !s.dieLost (bankOf c)
    let s := s.each (live.filter fun c => !keep c).reverse State.sleepDrop
    let s := s.each (live.filter keep) fun s c => s.holdBegin 3 c
    let s := { s.mtrStopReq with start := { s.mtrStopReq.start with wakeHeld := none } }
    (s.put F.REC_FLUSH_BUSY 1).putPhase Ph.toSleep

/-- A wake starts a SYS, or a POR when a die has lost its state (R63). FLUSH of its start is 0 (log entry 123). -/
def State.wakeUp (s : State) (kind ix : Nat) : State :=
  let s := (s.put F.FAB_SLEEP_STATUS_KIND kind).put F.FAB_SLEEP_STATUS_INDEX ix
  if s.anyLost then s.doReset true 1 0 else s.doReset false 7 0

/-- The order of wake sources that fire in one AON cycle: the lowest kind, then the lowest index. -/
def wakeBefore (k x k' x' : Nat) : Bool := decide (k < k' ∨ (k = k' ∧ x < x'))

/-- A wake source fires (R62, R63): held by AON during sleep entry. The first one counts; of several in one AON cycle, which the model takes
to be one tick (log entry 124), the lowest kind and then the lowest index. -/
def State.wake (s : State) (kind ix : Nat) : State :=
  if s.phase = Ph.sleep then s.wakeUp kind ix
  else if s.phase = Ph.toSleep then
    match s.start.wakeHeld with
    | none => { s with start := { s.start with wakeHeld := some (kind, ix, s.ztm.zone) } }
    | some (k, x, z) =>
      if z = s.ztm.zone ∧ wakeBefore kind ix k x = true then { s with start := { s.start with wakeHeld := some (kind, ix, z) } } else s
  else if s.sameCycle && s.get F.FAB_SLEEP_STATUS_KIND != 0 && (s.start.cause == 7 || s.start.cause == 1) &&
      wakeBefore kind ix (s.get F.FAB_SLEEP_STATUS_KIND) (s.get F.FAB_SLEEP_STATUS_INDEX) then
    (s.put F.FAB_SLEEP_STATUS_KIND kind).put F.FAB_SLEEP_STATUS_INDEX ix
  else s

/-- Whether the Lathe stands at a cycle boundary: no task is between its release and its commit. -/
def State.latheStill (s : State) : Bool := (List.range 9).all fun k => (s.tk k).phase == 0

/-- Sleep entry ends (R61, R62, R155, R181), once the Lathe and the Mitre unit have stopped: the saves are committed and the compute die
is powered off. -/
def State.sleepOff (s : State) : State :=
  if s.phase ≠ Ph.toSleep ∨ !s.latheStill ∨ !s.mtrStill then s
  else
    let held := s.start.wakeHeld
    let s := ((s.retSave.recordAll).saveLatched.recSave)
    let s := ((s.put F.FAB_SLEEP_STATUS_RESULT 1).put F.FAB_SLEEP_STATUS_KIND 0).put F.FAB_SLEEP_STATUS_INDEX 0
    let s := s.powerOff Ph.sleep
    let s := { s with start := { s.start with flushNext := 1, wakeHeld := none } }
    match held with
    | some (k, x, _) => s.wakeUp k x
    | none => s

/-- The 2 ms sample of a wake pin at `mv`: it hits when the pin's state differs from the reference (R63, R146). -/
def State.miWake (s : State) (p mv : Nat) : State :=
  if s.phase ≠ Ph.sleep ∨ s.mi p 0 3 3 ≠ 1 ∨ !s.miLive p then s
  else
    let x := s.pin p
    let v := if s.miMode p = 1 then decide (s.miHigh p < mv) else decide (mv < 2000)
    let hit := v != x.wakeRef
    let s := s.putPin p { x with wakeSeen := hit }
    if hit && x.wakeSeen then s.wake 1 p else s

/-- Kind 5 (R63): a protection trip of a SLEEP_KEEP channel while the compute die sleeps or goes to sleep. -/
def State.tripWakes (old s : State) (c : Nat) : State :=
  if s.ch c 0 24 24 = 1 ∧ old.prot c = Prot.armed ∧ s.prot c ≠ Prot.armed then s.wake 5 c else s

/-! The ISL reset of an island (R10, R11, R55) -/

/-- The island of a register position (R30). -/
def islOf (r : RegId) (i : Nat) : Nat :=
  match (regDef r).isl with
  | .fix n => n
  | .arb => at0 [9, 35, 38, 37, 32, 33, 35, 26, 5, 6, 7, 8] i
  | .bank => 15 + i / 24
  | .feed => 15 + 2 * i
  | .canCtl => 28 + i / 4
  | .port => portIsland i

/-- The registers' ISL fields of an island. -/
def State.islRegs (s : State) (n : Nat) : State :=
  { s with regs := regResetBy (fun r _ i f => f.clr == Clr.isl && islOf r i == n) s.regs }

/-- Writes that wait for the island after their check fail with TARGET_RESET (R346); reads that wait are answered with zero. -/
def State.islWaiting (s : State) (n : Nat) : State :=
  let l := s.fab.waiting.filter fun w => w.1 == n
  { s with fab := { s.fab with waiting := s.fab.waiting.filter fun w => w.1 != n } }.each l fun s w =>
    let a := w.2
    if a.op = AccOp.write then s.farFailure a.tag.drawer a.tag.src.code a.num a.addr a.seq 9 a.data
    else s.answer true 0

/-- ISL of a CAN group (R332). -/
def State.islCan (s : State) (g : Nat) : State := s.each ((List.range 4).map (4 * g + ·)) State.canIslReset

/-- ISL of INP (R154): levels restart from the comparators and from the DRV pins, whose voltages are `dv`, without events. -/
def State.islInp (s : State) (dv : List (Fin 16 × Nat)) : State :=
  let s := { s with pins := [] }
  let s := s.each (below 128 fun p => s.miMode p == 1 && !s.unitOut 2 p) fun s p => s.put F.INP_MI_VAL_VALUE (b2n (s.cmpOut p)) p
  s.each (List.range 16) fun s p =>
    s.drvLevel p (match dv.find? fun x => x.1.val == p with
      | some x => s.drvReads p x.2
      | none => bitOf s.front.drv p)

/-- ISL of LTH (R183, R201): the engine reloads its program; forces and the retentive image stand. -/
def State.islLth (s : State) : State :=
  if s.engine = Eng.idle then s
  else
    let s := s.abortChanges
    { s with lth := { s.lth with
      task := [], lane := [], commitQ := [], saving := none, reloading := true, stn := [], errs := [], firstCommit := false } }

/-- ISL of a bank controller: a hold of the bank's channels begins and ends with the reset (R130, R132). -/
def State.islBank (s : State) (b : Nat) : State :=
  let l := s.chans.filter fun c => bankOf c == b && !s.dieLost b
  let s := s.each l fun s c => s.holdBegin 1 c
  s.each (l.filter fun c => (s.lc c).holdBy == 1) fun s c => (s.setDrive c (s.driveNow c)).holdEnd c

/-- ISL of TIL (R375): volatile slots go, and commands in progress with them. -/
def State.islTil (s : State) : State :=
  let sets := s.til.queue ++ s.til.busy.toList
  let s := { s.volatileLost with
    til := { s.volatileLost.til with queue := [], busy := none, nonce := none, result := none, wrldPend := false } }
  s.each sets fun s cp => s.put F.TIL_STAT_STATE 0 0 0 cp

/-- What an ISL of island `n` does to every island alike (R10, R11): its waiting accesses, its grants and its ISL fields. The mailbox
requests of CAN controllers end ABORTED. -/
def State.islFields (s : State) (n : Nat) : State :=
  let s := s.islWaiting n
  let s := { s with fab := { s.fab with
    granted := s.fab.granted.filter fun p => islOf .FAB_ARB_PTR p.1 != n
    used := s.fab.used.filter fun p => islOf .FAB_ARB_PTR (p.1 / 16) != n } }
  if 28 ≤ n ∧ n ≤ 31 then
    let ks := (List.range 4).map (4 * (n - 28) + ·)
    let l := ks.flatMap fun k => (below 64 fun m => s.mbState k m != Mb.empty).map fun m => (k, m)
    let s := ((s.islCan (n - 28)).islRegs n).each l fun s p => s.put F.CAN_MB_CMD_RESULT 2 p.1 p.2
    s.each (ks.filter (s.unitOut 4)) fun s k => s.put F.CAN_STAT_STATE Can.retired k
  else s.islRegs n

/-- An ISL of a CPU cluster: its cores are in reset. -/
def State.islClu (s : State) (c : Nat) : State :=
  s.each (((List.range 3).map (3 * c + ·)).filter fun h => !(s.ht h).inReset) fun s h => s.coreReset h

/-- An ISL of the Mitre unit. -/
def State.islMtr (s : State) : State :=
  let s := s.mtrZero
  if s.mtrState = Mtr.running ∨ s.mtrState = Mtr.resolving then s.checkpoint else s

/-- An ISL of the Clamp network: the rules' conditions are read again. -/
def State.islClp (s : State) : State := s.ruleResults.ruleConditions

/-- An ISL of the switch: the frames it holds are dropped, and its credits, recovery histories and capture counts start afresh. -/
def State.islDvt (s : State) : State :=
  let s := s.each (List.range 30) State.dropPort
  let s := s.each (List.range 56) fun s q => (s.dropQueue (240 + q) 13).1
  { s with dvt := { s.dvt with ingress := [], credit := [], recov := [], capSeen := [] } }

/-- An ISL of the ring engine: what it holds of every ring's descriptor goes, and a ring that runs fetches it again. -/
def State.islRge (s : State) : State :=
  s.each (below 256 fun r => s.rg r != RingSt.idle) fun s r =>
    (((s.rxRequeue r).txFree r).updOrphan r).putRg r RingSt.idle

/-- An ISL of the bridge: prefetched lines, reservations and the accesses that wait for a semaphore go. -/
def State.islDwl (s : State) : State :=
  { s with
    fab := { s.fab with waiting := s.fab.waiting.filter fun w => decide (w.1 < 64) }
    dwl := { s.dwl with resv := [], lines := [] } }

/-- An ISL resets island `n` (R10, R11): its ISL fields, what its chapter gives the unit, and the work it holds (log entry 49). `dv` holds voltages of DRV
pins. -/
def State.islReset (s : State) (n : Nat) (dv : List (Fin 16 × Nat)) : State :=
  let s := s.islFields n
  if n = 2 ∨ n = 3 then s.islClu (n - 2)
  else if 5 ≤ n ∧ n ≤ 8 then s.forget fun a => memIsland a == some n
  else if n = 12 then s.islMtr
  else if n = 13 then s.islLth
  else if n = 14 then s.islClp
  else if 15 ≤ n ∧ n ≤ 18 then s.islBank (n - 15)
  else if n = 19 then s.islInp dv
  else if n = 20 then s.islDvt
  else if 21 ≤ n ∧ n ≤ 25 then (s.groupDown n).groupUp n
  else if n = 32 then s.islTil
  else if n = 27 then { s with saKey := [] }
  else if n = 33 then { s with recd := { s.recd with accum := [] } }
  else if n = 35 then s.islDwl
  else if n = 36 then s.linkIsDown.cfgReset
  else if n = 37 then { s with iom := { s.iom with tlb := [] } }
  else if n = 38 then s.islRge
  else s

end Sys2Proof.Machine
end

