-- ==== Sys2Proof/Machine/RegRead.lean ====
section
/-! DEFINITION. What a register read returns and leaves behind, register by register: fields computed from the units or from the
image (R12), and the side effects of reads (R8). -/

namespace Sys2Proof.Machine

/-- Fields loaded from the image show it from the end of the start, and zero before (R12). -/
def State.shown (s : State) (v : Nat) : Nat := if s.start.recUp then v else 0

/-- A word from bits, bit `b` set where `p b`. -/
def maskWord (p : Nat → Bool) : Nat := (List.range 32).foldl (fun w b => setBitTo w b (p b)) 0

/-- The copy of a register an access reaches (R12): the secure world has a Till command set of its own in the global window (R376). -/
def Hit.copyFor (h : Hit) (t : Tag) : Nat :=
  if (regDef h.reg).win = .til ∧ (regDef h.reg).kind = .copy ∧ h.viewer = none ∧ t.secure then 17 else h.cp

/-- The drawer a view register acts for. -/
def Hit.drawer (h : Hit) : Nat := h.viewer.getD 0

/-- The stored word of a register as the access codes let a read see it. -/
def State.stored (s : State) (h : Hit) (t : Tag) : Nat :=
  (readable h.reg (regGet s.regs h.reg h.i h.j (h.copyFor t))).toNat

/-- LCH_CFG of channel c (ch. 5). -/
def State.chCfg (s : State) (c : Nat) : Nat :=
  if s.isChan c then
    s.chKind c + 16 * s.ch c 0 9 8 + 256 * s.chSrc c + 1024 * s.chSel c + 65536 * s.ch c 0 19 16 + 2 ^ 20
  else 0

/-- Bytes 4i to 4i + 3 of a byte string, as a register shows them. -/
def wordAt (l : List Nat) (i : Nat) : Nat := leNat ((List.range 4).map fun k => at0 l (4 * i + k))

/-- The slot that LTH_SLOT_IDX of a copy names, and whether the copy may read it (R158). -/
def State.slotIx (s : State) (cp : Nat) : Nat := s.get F.LTH_SLOT_IDX_IDX 0 0 cp
def State.slotReadOk (s : State) (h : Hit) (t : Tag) : Bool :=
  let n := s.slotIx h.cp
  h.viewer.isNone || t.secure || decide (s.slotCount ≤ n) || s.slotTask n == 15 || s.taskOwner (s.slotTask n) == h.viewer

/-- The value a slot read returns, under the forces (R199); a slot that does not exist reads 0. -/
def State.slotRead (s : State) (n : Nat) : Nat := if n < s.slotCount then (s.published n).toNat else 0

/-- The shed channels of a feed (R137). -/
def State.shedCount (s : State) (f : Nat) : Nat := ((s.feedChans f).filter fun c => s.flag c Flag.budgetShed).length

/-- Granules of a kind that drawer d owns. -/
def State.granulesOf (s : State) (x y : Fld) (n d : Nat) : Nat := (below n fun g => s.is y g && s.get x g == d).length

/-- DWL_FN_f (R337). -/
def State.fnWord (s : State) (f w : Nat) : Nat :=
  let x := s.fn f
  if s.fnExists f then w + 1 + 2 * b2n x.bme + 4 * b2n (x.msix && !x.fmask) + 48 * b2n x.d3 else w

/-- Attribute word j of a Till slot (R371). -/
def SlotSt.word (x : SlotSt) : Nat → Nat
  | 0 => x.w0
  | 1 => x.w1
  | _ => x.w2

/-- What a read of a register returns. -/
def State.regValue (s : State) (h : Hit) (t : Tag) : Nat :=
  let w := s.stored h t
  let d := h.drawer
  match h.shown with
  | .FAB_ISL_STATE => if t.secure then w else w - bitsOf w 15 8 * 256
  | .FAB_ISL_CLK => islandClk h.i
  | .FAB_SAFEN => w + 256 * b2n s.safenAsserted
  | .DRW_G_STATE => w + 4 * s.shown (b2n (decide (h.i < s.drw.count)))
  | .DRW_STATE => w % 4
  | .DRW_FAULT_HEAD => ((storeGet [] s.drw.faults d).head?.map (·.word h.i)).getD 0
  | .DRW_FAULT_STAT => w + (storeGet [] s.drw.faults d).length
  | .DRW_RING_OWN => maskWord fun b => s.ringOwner (32 * h.i + b) == some d
  | .LCH_CFG => s.shown (s.chCfg h.i)
  | .LCH_PWM => w + s.shown (s.pwmFreq h.i + 32768 * b2n (s.pwmEnabled h.i))
  | .FEED_STATUS => w + 256 * s.shedCount h.i + 65536 * s.shown (b2n (s.feedNominal48 h.i))
  | .FEED_BUDGET => s.shown (s.feedBudget h.i)
  | .INP_MI_CFG => s.shown (s.mi h.i 0 7 0 + 256 * s.mi h.i 1 23 16 + 65536 * s.mi h.i 0 31 16)
  | .INP_MI_VAL => if s.img.isNone || s.unitOut 2 h.i then 0 else w
  | .INP_MI_STAT => w + b2n (s.cmpOut h.i)
  | .LCH_PROT => w + 1024 * b2n (s.wireGate h.i)
  | .INP_DRV => w + s.shown (2 * s.imgF 5 1 h.i 0 0 0 + 4 * s.imgF 5 1 h.i 0 1 1)
  | .CLP_CFG => s.shown (s.rule h.i 0 31 0)
  | .CLP_PINS => s.shown (s.rule h.i 1 31 0)
  | .LTH_TASK_CFG => s.shown (s.taskRec h.i 0 1 0 + 4096 * s.taskRec h.i 1 19 0)
  | .LTH_ERR_STAT => w + s.lth.errs.length
  | .LTH_ERR_HEAD => (s.lth.errs.head?.map (·.word h.i)).getD 0
  | .LTH_SLOT_DATA => s.slotRead (s.slotIx h.cp)
  | .LTH_CHG_RES => at0 (storeGet [] s.lth.results h.cp) (s.get F.LTH_CHG_RES_IDX_IDX 0 0 h.cp)
  | .LTH_FRC_STATUS => w + 65536 * s.lth.forces.length
  | .LTH_FRC_DROP => at0 s.lth.dropped (s.get F.LTH_FRC_DROP_IDX_IDX)
  | .MTR_CFG => s.shown (s.imgF 12 2 0 0 0 0 + 65536 * s.imgF 12 2 0 1 15 0)
  | .MTR_LMEM_DATA => if t.drawer = 0 ∧ s.lmemUsable then s.lmemRead.toNat else 0
  | .IOM_DHELD =>
    s.granulesOf F.IOM_DGRAN_OWNER F.IOM_DGRAN_VALID 4096 h.i + 65536 * s.granulesOf F.IOM_SGRAN_OWNER F.IOM_SGRAN_VALID 768 h.i
  | .DVT_PORT => w + s.shown (s.portPvid h.i + 4096 * b2n (s.portEnabled h.i) + 8192 * b2n (s.portCut h.i))
  | .DVT_QLIM => s.shown (s.qLimit h.i + 65536 * s.qReserve h.i)
  | .DVT_BUF_USED => s.bufTotal + 65536 * s.sharedUse
  | .DVT_BUF_CAP => s.shown s.sharedCap
  | .DVT_FDB_COUNT => s.fdbCount true + 65536 * s.fdbCount false
  | .DVT_TBL_DATA => s.tblRead
  | .DVT_TBL_STAT => w + 2 * b2n (s.dvt.pendingLists.any fun p => p.1 == listKey (s.get F.DVT_TBL_SEL_TABLE) (s.get F.DVT_TBL_SEL_INDEX))
  | .EPT_PSTAT => w + 8 * b2n (s.preActive h.i)
  | .ZTM_NOW => s.now.ns
  | .ZTM_RAW => s.raw32
  | .CAN_STAT => w + 32 * s.shown (b2n (s.rsvLathe h.i)) + 64 * b2n (s.rsvTime h.i)
  | .CAN_RXSTAT => (s.cn h.i).rx.length
  | .CAN_MRAM_DATA => (s.mramWord h.i).toNat
  | .DWL_REGION_BASE => s.shown (s.imgF 8 4 h.i 0 27 0)
  | .DWL_REGION_SIZE => s.shown (s.imgF 8 4 h.i 1 27 0)
  | .DWL_REGION_CFG => s.shown (s.imgF 8 4 h.i 2 1 0)
  | .DWL_FN => s.fnWord h.i w
  | .DWL_SEQ => t.src.code * 2 ^ 29 + storeGet 1 s.seqs (8 * d + t.src.code)
  | .DWL_FENCE => (s.fenceRead d t.src.code).1
  | .DWL_FENCE_INFO => storeGet 0 s.dwl.info (8 * d + t.src.code)
  | .WLD_WM => s.shown (s.imgF 9 8 0 h.i 12 0)
  | .WLD_STYLE => s.shown (s.imgF 9 8 0 3 5 0)
  | .WLD_DBG => w + s.lcEnables + 256 * s.dbgEnables
  | .WLD_GATE_LO => s.shown (s.imgF 10 2 h.i 0 31 0)
  | .WLD_GATE_HI => s.shown (s.imgF 10 2 h.i 1 7 0 + 2 ^ 31 * s.imgF 10 2 h.i 1 31 31)
  | .TIL_VDIG => wordAt vendorDigest h.i
  | .TIL_ODIG => wordAt s.til.owner h.i
  | .TIL_IDPUB => if s.get F.TIL_LC_STATE = 4 then 0 else wordAt identityPub h.i
  | .TIL_SLOT_ATTR => (storeGet SlotSt.empty s.til.slots h.i).word h.j
  | .TIL_SLOT_HOLD => (s.tillHolder h.i).getD 16
  | .REC_ALM_HEAD => s.alarmHead h.i
  | .REC_ALM_STAT => s.recd.alarms.length
  | .UPD_SESS => (s.sess (h.i + 1)).state
  | .UPD_SIZE => (s.sess (h.i + 1)).size
  | .UPD_FILLED => (s.sess (h.i + 1)).filled
  | _ => w

/-- What happens before a read takes its value: a read of REC_WIN_0 takes a snapshot (R395). -/
def State.beforeRead (s : State) (h : Hit) : State :=
  match h.shown with
  | .REC_WIN => s.winBefore h.i h.cp
  | _ => s

/-- What a read leaves behind: RC fields cleared, and the side effects the registers' tables state. -/
def State.afterRead_ (s : State) (h : Hit) (t : Tag) : State :=
  let cp := h.copyFor t
  let s := { s with regs := regPut s.regs h.reg (afterRead h.reg (regGet s.regs h.reg h.i h.j cp)) h.i h.j cp }
  match h.shown with
  | .DRW_FAULT_HEAD =>
    if h.i = 0 then
      match storeGet [] s.drw.faults h.drawer with
      | r :: l => { s with drw := { s.drw with faults := storePut [] s.drw.faults h.drawer ({ r with frozen := true } :: l) } }
      | [] => s
    else s
  | .LTH_SLOT_DATA => if s.is F.LTH_SLOT_IDX_AUTO 0 0 cp then s.incr F.LTH_SLOT_IDX_IDX 0 0 cp else s
  | .MTR_LMEM_DATA => if t.drawer = 0 ∧ s.lmemUsable then s.lmemAdvance else s
  | .DVT_TBL_DATA => s.tblAdvance
  | .ZTM_NOW => s.nowRead (if h.viewer.isNone then 0 else h.drawer + 1)
  | .CAN_MRAM_DATA => s.mramStep h.i
  | .DWL_FENCE => (s.fenceRead h.drawer t.src.code).2
  | .REC_WIN => s.winAfter h.i h.cp
  | .REC_ALM_HEAD => if h.i = 0 then s.alarmFreeze else s
  | _ => s

/-- A register read that has passed its checks: its value, and the state it leaves. -/
def State.regRead (s : State) (h : Hit) (t : Tag) : Nat × State :=
  let s := s.beforeRead h
  (s.regValue h t % 2 ^ 32, s.afterRead_ h t)

end Sys2Proof.Machine
end

