-- ==== Sys2Proof/Machine/RegWrite.lean ====
section
/-! DEFINITION. What a register write does, register by register: writability beyond the access codes (R8) and the commands that
registers carry. -/

namespace Sys2Proof.Machine

/-- A write of DRW_BIND_n: ignored unless the drawer is IDLE and the image permits the binding (R73). -/
def State.bindWrite (s : State) (d w : Nat) : State :=
  let permitted := if bitOf w 0 then s.drawerRec d 10 1 1 == 1 else s.drawerRec d 10 0 0 == 1
  if s.drwState d == 0 && permitted then s.store .DRW_BIND w d else s

/-- A write of DRW_RST_REQ (R91). -/
def State.resetReqWrite (s : State) (w : Nat) : State :=
  if bitsOf w 31 16 = 0x5C3D then s.drawerReset (bitsOf w 3 0) (bitOf w 4) else s

/-- A write of DRW_RST through the view of drawer d (R91). -/
def State.resetWrite (s : State) (d w : Nat) : State :=
  if bitsOf w 31 16 = 0x5C3D then s.drawerReset d (bitOf w 0) else s

/-- POP of the fault FIFO (R90). -/
def State.faultPop (s : State) (d w : Nat) : State :=
  if bitOf w 8 then { s with drw := { s.drw with faults := storePut [] s.drw.faults d (storeGet [] s.drw.faults d).tail } } else s

/-- A write that only a DISABLED ring takes (R84). -/
def State.ringIdleWrite (s : State) (reg : RegId) (r w : Nat) : State :=
  if s.ringState r = Rst.disabled then s.store reg w r else s

/-- A write of RING_CTRL (R84, R85, R238). -/
def State.ringCtrl (s : State) (r w : Nat) : State :=
  if bitOf w 0 then
    let s := s.ringEnable r
    if bitOf w 1 then s.ringResume r else s
  else s.ringDisable r

/-- A write of LCH_CMD of channel c (R98, R126, R216): ON drives a REG channel. -/
def State.chCmd (s : State) (c w : Nat) : State :=
  if !s.isChan c then s
  else
    let on := bitOf w 0
    let s := if s.chSrc c = 3 then
        if on && s.onBlocked c then s else (s.put F.LCH_CMD_ON (b2n on) c).drive c on
      else s.put F.LCH_CMD_ON (b2n on) c
    if bitOf w 1 then s.rearm c else s

/-- A write of FEED_LIMIT_f (R136): held within 10 and BUDGET by the budget logic. -/
def State.limitWrite (s : State) (f w : Nat) : State :=
  let v := w % 65536
  (s.put F.FEED_LIMIT_LIMIT v f).putFd f { s.fd f with limit := max 10 (min v (s.feedBudget f)) }

/-- A write of CLP_ACK (R151). -/
def State.ackWrite (s : State) (w : Nat) : State := if bitOf w 31 then s.ruleAck (bitsOf w 5 0) else s

/-- A command of the Lathe engine is rejected (R182). -/
def State.lthReject (s : State) : State := s.put F.LTH_STATE_CMD_REJ 1

/-- STOP (R182). -/
def State.lthStop (s : State) : State :=
  if s.engine = Eng.running ∧ !s.lth.reloading then s.engineStop else s.lthReject

/-- RUN_WARM or RUN_COLD (R180, R182): the engine enters STARTING. -/
def State.lthRun (s : State) (cold : Bool) : State :=
  if s.engine = Eng.stopped ∧ !s.lth.reloading then
    { s with lth := { s.lth with coldAsked := cold } }.put F.LTH_STATE_STATE Eng.starting
  else s.lthReject

/-- A keeper's write of LTH_CTRL. -/
def State.lthCtrl (s : State) (w : Nat) : State :=
  if bitsOf w 31 16 ≠ 0x3E71 then s
  else
    match w % 4 with
    | 1 => s.lthStop
    | 2 => s.lthRun false
    | 3 => s.lthRun true
    | _ => s.lthReject

/-- Whether the safe core keeps the tasks of task k's owner in their safe state: CLEAR has not come yet (R217). -/
def State.taskHeld (s : State) (k : Nat) : Bool :=
  (s.mtrState == Mtr.safeFault || s.mtrState == Mtr.failed) && (s.taskOwner k).any s.mtrServed

/-- START of a task (R177): a STOPPED task of a RUNNING engine enters IDLE, but for a served drawer before CLEAR (R217). -/
def State.taskStart (s : State) (k w : Nat) : State :=
  if bitOf w 0 && !s.taskHeld k && s.engine == Eng.running && s.taskState k == Task.stopped then
    ((s.put F.LTH_TASK_STAT_FAULT_RUN 0 k).put F.LTH_TASK_STAT_STATE Task.idle k).putTk k { s.tk k with faultStop := false }
  else s

/-- POP of the Lathe's error FIFO (R178). -/
def State.lthErrPop (s : State) (w : Nat) : State :=
  if bitOf w 8 then { s with lth := { s.lth with errs := s.lth.errs.tail } } else s

/-- Whether a copy's transaction waits for its instant. -/
def State.chgWaits (s : State) (cp : Nat) : Bool := s.lth.waiting.contains cp

/-- A write of LTH_CHG_ITEM stages an item (R195). -/
def State.chgItem (s : State) (cp w : Nat) : State :=
  if s.chgWaits cp || decide (256 ≤ (s.items cp).length) then s
  else s.putItems cp (s.items cp ++ [(w, BitVec.ofNat 32 (s.get F.LTH_CHG_VALUE_VALUE 0 0 cp))])

/-- A write of LTH_CHG_CTRL (R195, R196). -/
def State.chgCtrl (s : State) (cp w : Nat) : State :=
  let s := if bitOf w 0 then s.changeCommit cp else s
  if bitOf w 1 && !s.chgWaits cp then s.putItems cp [] else s

/-- A keeper's write of MTR_CTRL (R221). CLEAR begins with an ISL of island MTR (R11). -/
def State.mtrCtrl (s : State) (w : Nat) : State :=
  if bitsOf w 31 16 ≠ 0x4D17 then s
  else
    let clear := !s.bare && w % 8 == 4 && (s.mtrState == Mtr.safeFault || s.mtrState == Mtr.failed)
    (if clear then s.islRegs 12 else s).mtrCommand (w % 8) (bitsOf w 5 4)

/-- A write of a MODE field that has three values: 3 is ignored (R232). -/
def State.modeField (s : State) (x : Fld) (v i cp : Nat) : State := if v = 3 then s else s.put x v i 0 cp

/-- A write of IOM_S2CFG_n: ROOT_PPN is 16 KiB aligned (R232). -/
def State.s2Write (s : State) (d w : Nat) : State :=
  (s.put F.IOM_S2CFG_ROOT_PPN (bitsOf w 31 6) d).modeField F.IOM_S2CFG_MODE (w % 4) d 0

/-- A write of IOM_INVAL (R234). -/
def State.invalWrite (s : State) (w : Nat) : State := if bitOf w 31 then s.invalGo (w % 4) (bitsOf w 7 4) else s

/-- A write of IOM_S1INVAL through the view of drawer d; ignored while BUSY. -/
def State.s1InvalWrite (s : State) (d w : Nat) : State :=
  if bitOf w 0 then s.put F.IOM_S1INVAL_BUSY 1 0 0 (d + 1) else s

/-- A write of DVT_PORT_p: LEARN is the keeper's. -/
def State.swPortWrite (s : State) (p : Nat) (t : Tag) (w : Nat) : State :=
  let s := s.put F.DVT_PORT_DEF_PCP (bitsOf w 18 16) p
  if t.drawer = 0 then s.put F.DVT_PORT_LEARN (bitsOf w 19 19) p else s

/-- A write of DVT_TBL_CTRL (R272). -/
def State.tblCtrl (s : State) (w : Nat) : State :=
  let s := if bitOf w 0 then s.tblLoad else s
  if bitOf w 1 then s.tblCommit else s

/-- Whether the registers of external port p ignore writes: not ENABLED, or RETIRED. -/
def State.portShut (s : State) (p : Nat) : Bool := !s.portEnabled p || s.linkState p == Link.retired || s.unitOut 3 p

/-- A write of EPT_PCFG_p (R275, R276): ROLE and PAUSE_EN are ignored on P22 to P29. -/
def State.pcfgWrite (s : State) (p w : Nat) : State :=
  let s := if p < 22 then (s.put F.EPT_PCFG_ROLE (bitsOf w 1 1) p).put F.EPT_PCFG_PAUSE_EN (bitsOf w 2 2) p else s
  let s := (s.put F.EPT_PCFG_PAUSE_WD_MS (bitsOf w 14 4) p).put F.EPT_PCFG_LINK_EN (bitsOf w 0 0) p
  let s := if bitOf w 0 then s.linkEnable p else s.linkDisable p
  if bitOf w 16 && s.linkState p == Link.up then s.toTraining p else s

/-- A write of EPT_PMAC_p (R277, R278): ignored on P22 to P29; a write of PRE_EN or VERIFY_DIS restarts verification. -/
def State.pmacWrite (s : State) (p w : Nat) : State := if p < 22 then (s.store .EPT_PMAC w p).verifyStart p else s

/-- A write of EPT_WAKE_p (R284): ARM = 1 is ignored on P0 to P21. -/
def State.wakeWrite (s : State) (p w : Nat) : State :=
  let s := s.put F.EPT_WAKE_PAT_EN (bitsOf w 15 8) p
  if p < 22 && bitOf w 0 then s else s.put F.EPT_WAKE_ARM (bitsOf w 0 0) p

/-- A write of a port's register: ignored while the port is shut. -/
def State.portWrite (s : State) (reg : RegId) (p j w : Nat) : State :=
  if s.portShut p then s
  else
    match reg with
    | .EPT_PCFG => s.pcfgWrite p w
    | .EPT_PMAC => s.pmacWrite p w
    | .EPT_WAKE => s.wakeWrite p w
    | r => s.store r w p j

/-- Whether any association of port p is VALID. -/
def State.anySa (s : State) (p : Nat) : Bool := (List.range 20).any fun a => s.is F.MSC_SA_CTRL_VALID p a

/-- A write of MSC_CFG_p (R285, R287): the owner writes TX_AN only; other fields are ignored while an association is VALID. -/
def State.mscWrite (s : State) (p : Nat) (t : Tag) (w : Nat) : State :=
  if (t.drawer = 0 ∨ t.secure) ∧ !s.anySa p then s.store .MSC_CFG w p
  else s.put F.MSC_CFG_TX_AN (bitsOf w 9 8) p

/-- A write of a MACsec register of port p, indexed by channel or association `j`. -/
def State.macsecWrite (s : State) (reg : RegId) (p j w : Nat) (t : Tag) : State :=
  match reg with
  | .MSC_CFG => s.mscWrite p t w
  | .MSC_TXSCI_LO | .MSC_TXSCI_HI => if s.anySa p then s else s.store reg w p
  | .MSC_RXSCI_LO | .MSC_RXSCI_HI => if s.is F.MSC_RXSC_CTRL_VALID p j then s else s.store reg w p j
  | .MSC_SA_CTRL => s.saCtrl t p j w
  | .MSC_SA_PN_LO | .MSC_SA_PN_HI | .MSC_SA_SSCI | .MSC_SA_SALT0 | .MSC_SA_SALT1 | .MSC_SA_SALT2 =>
    if s.is F.MSC_SA_CTRL_VALID p j then s else s.store reg w p j
  | _ => s.store reg w p j

/-- A write of ZTM_INCR_FRAC stages the fraction (R292). -/
def State.fracStage (s : State) (w : Nat) : State := { s with ztm := { s.ztm with fracStaged := w % 2 ^ 32 } }

/-- A write that a controller takes in CONFIG only (R313). -/
def State.canConfigWrite (s : State) (reg : RegId) (k w : Nat) : State := if s.canState k = Can.config then s.store reg w k else s

/-- A write of a mailbox's frame registers: only while it is EMPTY and not reserved (R317, R321). -/
def State.mbWrite (s : State) (reg : RegId) (k m w : Nat) : State :=
  if s.mbState k m = Mb.empty ∧ !s.mbReserved k m then s.store reg w k m else s

/-- A write of a tunnel address register (R326). -/
def State.acfWrite (s : State) (reg : RegId) (k : Nat) (t : Tag) (w : Nat) : State :=
  if s.acfDenied k t then s.put F.CAN_ACF_CFG_ACF_REJ 1 k else s.store reg w k

/-- A write of a register of CAN controller k. -/
def State.canWrite (s : State) (reg : RegId) (k j : Nat) (t : Tag) (w : Nat) : State :=
  match reg with
  | .CAN_CTRL => s.canCtrl k w
  | .CAN_RECOVER => s.canRecover k w
  | .CAN_NBT | .CAN_DBT | .CAN_XBT | .CAN_TDC => s.canConfigWrite reg k w
  | .CAN_MRAM_DATA => s.mramWrite k (BitVec.ofNat 32 w)
  | .CAN_ACF_CFG => s.acfConfig k t w
  | .CAN_ACF_SID_LO | .CAN_ACF_SID_HI | .CAN_ACF_DA_LO | .CAN_ACF_DA_HI | .CAN_ACF_SA_LO | .CAN_ACF_SA_HI =>
    s.acfWrite reg k t w
  | .CAN_MB_ID | .CAN_MB_CTL => s.mbWrite reg k j w
  | .CAN_MB_CMD => s.mbCmd k j w
  | _ => s.store reg w k j

/-- A keeper's write of FAB_RST_REQ (R55). -/
def State.rstReq (s : State) (w : Nat) : State :=
  if bitsOf w 31 16 ≠ 0x7A3C then s
  else if w % 4 = 1 then s.trigger false 4
  else if w % 4 = 2 then s.trigger true 5
  else s

/-- A write of ZTM_EVT_EN: bits 2 to 4 exist in the global window only. -/
def State.evtEnWrite (s : State) (cp w : Nat) : State := s.store .ZTM_EVT_EN (if cp = 0 then w else w % 4) 0 0 cp

/-- The registers of a port's block that R275's shut port ignores. -/
def isPortReg : RegId → Bool
  | .EPT_PCFG | .EPT_EVT | .EPT_EVT_EN | .EPT_PMAC | .EPT_HALF_LO | .EPT_HALF_HI | .EPT_WAKE | .EPT_WMASK0 | .EPT_WMASK1
  | .EPT_WMASK2 | .EPT_WMASK3 | .EPT_WCHECK => true
  | _ => false

/-- What a register write does, for blocks FAB, DRW and RING. -/
def State.fabricWrite (s : State) (h : Hit) (t : Tag) (w : Nat) : State :=
  let keeper := t.drawer == 0
  let d := h.drawer
  match h.reg with
  | .FAB_ISL_REQ => s.islandReq h.i w t.secure
  | .FAB_CLAIM => s.claimWrite h.i w
  | .FAB_RST_REQ => if keeper then s.rstReq w else s
  | .FAB_SLEEP_CTRL => if keeper then s.sleepEnter w else s
  | .FAB_RET_CLR => if keeper then s.retClear w else s
  | .FAB_SAFEN_MASK => if keeper then s.safenMask w else s
  | .FAB_SAFEN_CTRL => if keeper then s.safenCtrl s.startDone w else s
  | .DRW_MOVE_CTRL =>
    if bitOf w 31 && s.get F.DRW_MOVE_STATUS_STATE == 1 then s.moveGo
    else (s.store .DRW_MOVE_CTRL w).when (bitOf w 31) State.moveGo
  | .DRW_RST_REQ => s.resetReqWrite w
  | .DRW_BIND => s.bindWrite h.i w
  | .DRW_FEAT_ACCEPT => if s.drwState d = 0 then s.store .DRW_FEAT_ACCEPT w h.i 0 h.cp else s
  | .DRW_FEAT_CTRL => if bitOf w 0 then s.featCommit d else s
  | .DRW_RST => s.resetWrite d w
  | .DRW_FAULT_STAT => s.faultPop d w
  | .RING_BASE_LO | .RING_BASE_HI | .RING_CFG | .RING_HEAD => s.ringIdleWrite h.reg h.i w
  | .RING_CTRL => s.ringCtrl h.i w
  | .RING_TAIL => s.tailWrite h.i (w % 65536)
  | r => s.store r w h.i h.j h.cp

/-- What a register write does, for blocks LCH, FEED, CLP, LTH and MTR. -/
def State.controlWrite (s : State) (h : Hit) (t : Tag) (w : Nat) : State :=
  let keeper := t.drawer == 0
  match h.reg with
  | .LCH_CMD => s.chCmd h.i w
  | .FEED_LIMIT => s.limitWrite h.i w
  | .CLP_ACK => s.ackWrite w
  | .LTH_CTRL => if keeper then s.lthCtrl w else s
  | .LTH_TASK_CTRL => s.taskStart h.i w
  | .LTH_ERR_STAT => s.lthErrPop w
  | .LTH_CHG_ITEM => s.chgItem h.cp w
  | .LTH_CHG_CTRL => s.chgCtrl h.cp w
  | .LTH_FRC_CTRL => if w % 4 = 0 then s else s.forceRequest h.cp (w % 4)
  | .MTR_CTRL => if keeper then s.mtrCtrl w else s
  | .MTR_LMEM_DATA => if keeper && s.lmemUsable then (s.lmemWrite (BitVec.ofNat 32 w)).lmemAdvance else s
  | .MTR_DOORBELL => if keeper && bitOf w 0 then s.mitreLine 11 else s
  | r => s.store r w h.i h.j h.cp

/-- What a register write does, for blocks IOM, DVT, EPT, ZTM and CAN. -/
def State.networkWrite (s : State) (h : Hit) (t : Tag) (w : Nat) : State :=
  match h.reg with
  | .IOM_S2CFG => s.s2Write h.i w
  | .IOM_S1CFG => s.modeField F.IOM_S1CFG_MODE (w % 4) 0 h.cp
  | .IOM_DIRTY_CTRL => if bitOf w 0 then s.dirtySwap h.i else s
  | .IOM_INVAL => s.invalWrite w
  | .IOM_S1INVAL => s.s1InvalWrite h.drawer w
  | .IOM_DGRAN => s.granuleWrite true h.i w
  | .IOM_SGRAN => s.granuleWrite false h.i w
  | .DVT_PORT => s.swPortWrite h.i t w
  | .DVT_QCBS => s.idleSlope h.i (w % 2 ^ 24)
  | .DVT_FDB_CTRL => s.fdbStart (w % 8)
  | .DVT_TBL_DATA => s.tblStage w |>.tblAdvance
  | .DVT_TBL_CTRL => s.tblCtrl w
  | .ZTM_INCR_INT => s.incrApply (w % 256)
  | .ZTM_INCR_FRAC => s.fracStage w
  | .ZTM_CTRL => s.epochCtrl w
  | .ZTM_PAIR_CTRL => if bitOf w 0 then s.pairCapture h.cp false else s
  | .ZTM_EVT_EN => s.evtEnWrite h.cp w
  | .ZTM_FB_CFG => s.fbConfig w
  | r =>
    if isPortReg r then s.portWrite r h.i h.j w
    else if (regDef r).own = .canCtl then s.canWrite r h.i h.j t w
    else if (regDef r).own = .saPort then s.macsecWrite r h.i h.j w t
    else s.store r w h.i h.j h.cp

/-- What a register write does, for the other blocks. -/
def State.serviceWrite (s : State) (h : Hit) (t : Tag) (w : Nat) : State :=
  let keeper := t.drawer == 0
  match h.reg with
  | .DWL_FENCE_ACK => s.fenceAck h.drawer t.src.code w
  | .DWL_EOI => s.eoi h.drawer (w % 64)
  | .WLD_SVC => s.svcWrite w
  | .WLD_MTR_WORLD => s.mtrWorldWrite w
  | .WLD_RING_SEC => s.ringSecWrite h.i w
  | .TIL_CMD => s.tillGo (h.copyFor t) w
  | .REC_CFG_CMD => if keeper || t.secure then s.recCfgCmd w else s
  | .REC_CLEAR => s.recClear w
  | .REC_FLUSH => s.recFlush w
  | .REC_ALM_STAT => s.alarmPop w
  | .UPD_MBX_CMD => s.mbxCmd w
  | .UPD_CONFIRM => s.updConfirm w
  | r => s.store r w h.i h.j (h.copyFor t)

/-- A register write that has passed its checks. -/
def State.regWrite (s : State) (h : Hit) (t : Tag) (w : Nat) : State :=
  match (regDef h.reg).win with
  | .carc | .fab | .drw | .ring => s.fabricWrite h t w
  | .lch | .feed | .inp | .clp | .lth | .mtr => s.controlWrite h t w
  | .iom | .dvt | .ept | .ztm | .can => s.networkWrite h t w
  | .dwl | .wld | .til | .recw | .upd => s.serviceWrite h t w

end Sys2Proof.Machine
end

