-- ==== Sys2Proof/Machine/RegAccess.lean ====
section
/-! DEFINITION. One access from its point of entry to its answer: the tag (R35), the checks in order (R36, R37, R354), waiting for an
island, a semaphore or the requester's own accesses (R38, R338 to R341), prefetched lines (R342 to R344), and the ends of an
island's drain, wipe and wake (R44, R46, R47). -/

namespace Sys2Proof.Machine

/-! The check (R36) -/

/-- The drawer that may reach a position through its view, for reads and writes or for reads alone (R36 item 4, R99, R110, R215,
the Till's slot registers). -/
def State.viewRight (s : State) (o : Own) (d i : Nat) : Bool :=
  match o with
  | .none => true
  | .viewer => true
  | .pwm => s.chans.any fun c => s.chanOwner c == some d && s.chSrc c == 1 && s.chSel c == i
  | .feed => (s.feedChans i).any fun c => s.chanOwner c == some d
  | .mtrServed => s.mtrServed d
  | .tillSlot => s.tillHolder i == some d || (s.til_ i).owns d
  | .semaphore => false
  | o => s.ownerOf o i == some d

/-- The registers whose read through a view depends on what an index names (R158, R395). -/
def State.indexRight (s : State) (h : Hit) (t : Tag) : Bool :=
  match h.shown with
  | .LTH_SLOT_DATA => s.slotReadOk h t
  | .REC_WIN => h.viewer.isNone || t.secure || s.winOk h.cp
  | _ => true

/-- The sub-windows in which every position that is no register fails (ch. 10, 12, 13). -/
def closedView (w : Win) : Bool := w == .mtr || w == .dvt || w == .ept

/-- Items 2 to 5 of R36 at a position of the block windows and views: 0, or the first cause. -/
def State.posCause (s : State) (t : Tag) (write : Bool) (a : Nat) (hit : Option Hit) : Nat :=
  match viewOf a with
  | some n =>
    if t.secure then 0
    else if t.drawer.val ≠ n then Aerr.windowDenied
    else
      match hit with
      | none => if closedView (subWin ((a - 0x30000000) % 0x100000 / 0x10000)) then Aerr.notOwner else 0
      | some h =>
        if !s.viewRight (regDef h.shown).own n h.i || (write && (regDef h.shown).vro) || (!write && !s.indexRight h t) then
          Aerr.notOwner
        else 0
  | none =>
    if winOf a = some .carc ∨ t.secure then 0
    else if t.drawer ≠ 0 then Aerr.windowDenied
    else
      match hit with
      | none => 0
      | some h =>
        if h.reg = .FAB_CLAIM ∨ (write ∧ (regDef h.reg).win = .wld) then Aerr.secure else 0

/-- A view register that its chapter opens for reading only takes no write, from the secure world either. -/
def viewReadOnly (t : Tag) (write : Bool) (hit : Option Hit) : Bool :=
  t.secure && write && hit.any fun h => h.viewer.isSome && (regDef h.shown).vro

/-- The island that holds the target of an access, when it has one. -/
def targetIsland (a : Nat) (hit : Option Hit) : Option Nat :=
  match memIsland a with
  | some n => some n
  | none => hit.map fun h => islOf h.reg h.i

/-- The check of one kind of access, read or write, at a register address. -/
def State.winCause (s : State) (t : Tag) (write : Bool) (a : Nat) (hit : Option Hit) : Nat :=
  match s.posCause t write a hit with
  | 0 =>
    if viewReadOnly t write hit then Aerr.notOwner
    else (targetIsland a hit).elim 0 fun n => s.islandCause n t.secure
  | c => c

/-- Whether an address lies in a block window or a view. -/
def isWindow (a : Nat) : Bool := (winOf a).isSome || (viewOf a).isSome

/-- The check of a read or a write of `size` bytes (R36): 0 when granted, else the first cause. -/
def State.rwCause (s : State) (t : Tag) (write : Bool) (a size : Nat) : Nat :=
  if isWindow a then
    if size ≠ 4 ∨ a % 4 ≠ 0 then Aerr.misaligned else s.winCause t write a (hitAt a)
  else
    match s.memCause t.drawer t.secure write a with
    | 0 => s.memCause t.drawer t.secure write (a + (size - 1))
    | c => c

/-- The check of an access: an atomic passes only when a read and a write would both pass, and only on a whole word where DWL
emulates it (R339). -/
def State.cause (s : State) (a : Access) : Nat :=
  if a.op.atomic then
    if emulated a.addr && (a.size != 4 || a.addr % 4 != 0) then Aerr.misaligned
    else
      match s.rwCause a.tag false a.addr a.size with
      | 0 => s.rwCause a.tag true a.addr a.size
      | c => c
  else s.rwCause a.tag a.op.writes a.addr a.size

/-! Failures (R37, R229, R335, R339, R345 to R349) -/

/-- The hart of a core access takes an access-fault exception for memory behind COH, for an AMO, LR or SC that DWL does not
emulate, and for an instruction fetch (R229, R339, R360); a field-side load reads zero (R37). -/
def State.accessTrap (s : State) (a : Access) (cause : Nat) : State :=
  if a.tag.src ≠ .core then s
  else if a.op = .fetch then s.hartTrap a.num Exc.fetch
  else if isDevMem a.addr || (a.op.atomic && cause == Aerr.misaligned) then
    s.hartTrap a.num (if a.op.writes then Exc.store else Exc.load)
  else s

/-- An access fails its check: it changes nothing, reads zero and is recorded. -/
def State.denied (s : State) (a : Access) (cause : Nat) : State :=
  let s := s.aerr a.tag a.addr a.op.writes cause
  let s := if a.seq = 0 then s else s.addFailure a.tag.drawer a.tag.src.code a.seq cause
  ((s.accessTrap a cause).answer false 0).mtrLogged a

/-! Performing an access at its target -/

/-- Whether the unit a register position belongs to exists; a channel position that is no channel holds nothing. -/
def State.posLive (s : State) (h : Hit) : Bool := (regDef h.reg).own != .chan || s.isChan h.i

/-- A word read at a block window or view. -/
def State.winRead (s : State) (a : Access) : Nat × State :=
  match hitAt a.addr with
  | some h => if s.posLive h then s.regRead h a.tag else (0, s)
  | none => (0, s)

/-- A word written at a block window or view. -/
def State.winWrite (s : State) (a : Access) (v : Nat) : State :=
  match hitAt a.addr with
  | some h => if s.posLive h then s.regWrite h a.tag v else s
  | none => s

/-- The value at the target of an access, and the state its read leaves. -/
def State.targetRead (s : State) (a : Access) : Nat × State :=
  if isWindow a.addr then s.winRead a else (s.memRead a.addr a.size, s)

/-- The write of a value at the target of an access; the boot ROM is read-only (R33). -/
def State.targetWrite (s : State) (a : Access) (v : Nat) : State :=
  if isWindow a.addr then s.winWrite a v
  else if a.addr < 0x40000 then s
  else s.memStore a.addr (leBytes a.size v)

/-- Whether an SC by this access succeeds: its hart holds a reservation on the word (R341). Outside the bridge's addresses COH decides,
and a free value stands for its decision (log entry 26). -/
def State.scWins (s : State) (a : Access) : Bool × State :=
  if emulated a.addr then (storeGet 0 s.dwl.resv a.num == a.addr + 1, s.resvEnd a.num)
  else (s.free.1 % 2 == 0, s.free.2)

/-- A locked sequence takes its semaphore: the grant of arbitration point 6 (R340). -/
def State.semTaken (s : State) (a : Access) : State := if emulated a.addr then s.arbMove 6 a.tag.drawer else s

/-- Perform an access that has passed its check and waits for nothing (R338 to R341). -/
def State.perform (s : State) (a : Access) : State :=
  match a.op with
  | .read =>
    let r := s.targetRead a
    (r.2.answer true r.1).mtrLogged a
  | .fetch =>
    let r := s.targetRead a
    r.2.answer true r.1
  | .write => (s.targetWrite a a.data).answer true 0
  | .amo o =>
    let r := (s.semTaken a).targetRead a
    (r.2.targetWrite a (atomicResult o a.size r.1 a.data)).answer true r.1
  | .cas c =>
    let r := (s.semTaken a).targetRead a
    (if r.1 = c then r.2.targetWrite a a.data else r.2).answer true r.1
  | .lr =>
    let s := if emulated a.addr then (s.semTaken a).resvTake a.num a.tag.drawer a.addr else s
    let r := s.targetRead a
    r.2.answer true r.1
  | .sc =>
    let r := s.scWins a
    if r.1 then (r.2.targetWrite a a.data).answer true 0 else r.2.answer true 1

/-! Waiting (R38, R338, R340) -/

/-- Whether two accesses come from one requester. -/
def Access.sameReq (a b : Access) : Bool := a.tag.src == b.tag.src && a.num == b.num

/-- Whether an access waits behind an earlier one of its requester: a read behind all, a write behind those that write (R338). -/
def State.waitsBehind (s : State) (a : Access) : Bool :=
  s.fab.waiting.any fun w => w.2.sameReq a && (w.2.op.writes || a.op != .write)

/-- What holds an access: an island, or a semaphore (64 + its number). -/
def State.waitKey (s : State) (a : Access) : Option Nat :=
  match (targetIsland a.addr (hitAt a.addr)).filter s.islandHolds with
  | some n => some n
  | none =>
    if s.semBlocks a then some (64 + semOf a.addr)
    else if s.waitsBehind a then some ((targetIsland a.addr (hitAt a.addr)).getD 35)
    else none

/-- An access joins the waiting ones; a clock-gated island is woken by it (R38). -/
def State.wait (s : State) (a : Access) (k : Nat) : State :=
  let s := { s with fab := { s.fab with waiting := s.fab.waiting ++ [(k, a)] } }
  if k < 64 then s.ungate k else s

/-- Route an access that has passed its check. -/
def State.route (s : State) (a : Access) : State :=
  match s.waitKey a with
  | some k => s.wait a k
  | none => s.perform a

/-- A waiting access meets its target: an island that is off, wiped or retired meanwhile refuses it (R38, R346). -/
def State.reroute (s : State) (a : Access) : State :=
  let off := (targetIsland a.addr (hitAt a.addr)).elim 0 fun n => s.islandCause n a.tag.secure
  if off = 0 then s.route a
  else if off = Aerr.secureWiped ∧ a.seq ≠ 0 then
    s.farFailure a.tag.drawer a.tag.src.code a.num a.addr a.seq off a.data
  else s.denied a off

/-- The first waiting access of each requester: the others wait behind it (R338). -/
def waitHeads : List (Nat × Access) → List (Nat × Access)
  | [] => []
  | w :: l => w :: (waitHeads l).filter fun x => !x.2.sameReq w.2

/-- The claim of an access that waited for a semaphore, at arbitration point 6 (R340; log entry 117 for one that is no atomic). -/
def semClaimOf (w : Nat × Access) : Claim := ⟨semOf w.2.addr, w.2.tag.drawer, w.2.tag.src, w.2.num⟩

/-- Which waiting access goes on first: one that waited for an island, in order of arrival; else what point 6 grants among those that
waited for a semaphore. -/
def State.nextWaiting (s : State) (l : List (Nat × Access)) : Option (Nat × Access) :=
  match l.find? fun w => decide (w.1 < 64) with
  | some w => some w
  | none =>
    match claimPick (s.get F.FAB_ARB_PTR_PTR 6) (s.claimRank 6) (l.map semClaimOf) with
    | some c => l.find? fun w => semClaimOf w == c
    | none => none

/-- Take up waiting accesses one after the other, at most `n`. -/
def State.retryList : Nat → List (Nat × Access) → State → State
  | 0, _, s => s
  | n + 1, l, s =>
    match s.nextWaiting (waitHeads l) with
    | some w => State.retryList n (l.erase w) (s.reroute w.2)
    | none => s

/-- Every waiting access is taken up again. -/
def State.retry (s : State) : State :=
  State.retryList s.fab.waiting.length s.fab.waiting { s with fab := { s.fab with waiting := [] } }

/-- A reservation ends, and what waited for its semaphore goes on (R341). -/
def State.reservationEnd (s : State) (h : Nat) : State := (s.resvEnd h).retry

/-! Prefetched lines (R342 to R344) -/

/-- Registers whose reads have side effects: those with an RC field, and those whose description states one (R342). -/
def readSensitive (r : RegId) : Bool :=
  (regDef r).fields.any (fun f => f.acc == .rc) ||
    decide (r ∈ [RegId.DRW_FAULT_HEAD, .ZTM_NOW, .LTH_SLOT_DATA, .CAN_MRAM_DATA, .DVT_TBL_DATA, .MTR_LMEM_DATA, .DWL_FENCE,
      .REC_WIN, .REC_ALM_HEAD])

/-- Whether a 64-byte block holds a read-sensitive register. -/
def sensitiveBlock (b : Nat) : Bool :=
  (List.range 16).any fun k => (hitAt (64 * b + 4 * k)).any fun h => readSensitive h.shown

/-- A word a prefetch may hold: in the region and page, granted to the reader, in an island that is ON. -/
def State.fetchable (s : State) (t : Tag) (page top a : Nat) : Bool :=
  decide (a < top) && a / 4096 == page && s.rwCause t false a 4 == 0 &&
    (targetIsland a (hitAt a)).all fun n => s.islState n == Isl.on

/-- A word as a prefetch reads it. -/
def State.peek (s : State) (t : Tag) (a : Nat) : Nat :=
  if isWindow a then
    match hitAt a with
    | some h => if s.posLive h then s.regValue h t % 2 ^ 32 else 0
    | none => 0
  else s.memRead a 4

/-- The line of one block, without the word `skip`. -/
def State.fetchLine (s : State) (a : Access) (region top block skip : Nat) : State :=
  if isWindow a.addr && sensitiveBlock block then s
  else
    let l := (List.range 16).map (64 * block + 4 * ·)
    let ok := l.filter fun x => x != skip && s.fetchable a.tag (a.addr / 4096) top x
    s.lineAdd ⟨a.tag, a.num, region, block, ok.map fun x => (x % 64, s.peek a.tag x), s.ztm.raw, false⟩

/-- A read in a region with PREFETCH widens (R342). -/
def State.prefetch (s : State) (a : Access) : State :=
  match s.regionOf a.addr with
  | some (r, top) =>
    let b := a.addr / 64
    (s.fetchLine a r top b (a.addr / 4 * 4)).fetchLine a r top (b + 1) 0
  | none => s

/-- The grant of the arbitration point on an access's way (R40): the field-side register path, DRAM or an SRAM port. -/
def State.pointed (s : State) (a : Access) : State := s.arbMove (pointOf a.addr) a.tag.drawer

/-- A read that passed its check at DWL: a line serves it, or it is issued and may widen. -/
def State.dwlRead (s : State) (a : Access) : State :=
  match s.lineServe a.tag a.num a.addr with
  | some (x, v) => ((s.lineServed x).answer true v).mtrLogged a
  | none =>
    match s.waitKey a with
    | some k => (s.pointed a).wait a k
    | none => ((s.pointed a).perform a).prefetch a

/-! The point of entry -/

/-- An access with the sequence tag that its point of entry gives it, and the state that has used the tag (R345). -/
def State.tagGiven (s : State) (a : Access) : Access :=
  if a.op = .write ∧ emulated a.addr then { a with seq := (s.nextTag a.tag.drawer a.tag.src.code).1 } else a
def State.tagTaken (s : State) (a : Access) : State :=
  if a.op = .write ∧ emulated a.addr then (s.nextTag a.tag.drawer a.tag.src.code).2 else s

/-- What an access that passes its check does before it goes on: a write discards prefetched lines (R344), and an access that a
semaphore holds is counted (R341). -/
def State.entered (s : State) (a : Access) : State :=
  let s := if a.op.writes then s.lineWrite a.tag a.num a.addr else s
  if s.semBlocks a then s.bump F.DWL_SEM_WAITS 1 (semOf a.addr) else s

/-- Whether an access may free others that wait: an SC ends a reservation, and a write of FAB_ISL_REQ_n may end a drain (R44, R341). -/
def frees (a : Access) : Bool :=
  a.op == .sc || (a.op.writes && (hitAt a.addr).any fun h => h.reg == .FAB_ISL_REQ)

/-- An access that has passed its check goes on: a read of a word at the bridge may be served by a line, and what an access frees goes on
after it. -/
def State.admitted (s : State) (a : Access) : State :=
  if a.op = .read ∧ a.size = 4 ∧ emulated a.addr then (s.entered a).dwlRead a
  else if frees a then (((s.entered a).pointed a).route a).retry
  else ((s.entered a).pointed a).route a

/-- An access at its point of entry (R36). -/
def State.access (s : State) (a : Access) : State :=
  if !s.awake then s.answer false 0
  else if (s.tagTaken a).cause (s.tagGiven a) = 0 then (s.tagTaken a).admitted (s.tagGiven a)
  else (s.tagTaken a).denied (s.tagGiven a) ((s.tagTaken a).cause (s.tagGiven a))

/-- The tag of a hart's accesses (R35, R227, R355). -/
def State.hartTag (s : State) (h : Nat) (virt : Bool) : Tag :=
  let x := s.ht h
  ⟨if virt then Fin.ofNat 16 x.hdrawer else 0, x.w, .core⟩

/-- The bytes of the address space a function's BARs reach (R334). -/
def inBar (f a : Nat) : Bool :=
  if f = 0 then decide (a < 0x40000000) || isDram a
  else decide (0x30000000 + f * 0x100000 ≤ a) && decide (a < 0x30100000 + f * 0x100000)

/-- A request of PCIe function f (R334 to R336): UR without a BAR or Memory Space Enable or in D3hot, WINDOW_DENIED without HOST
binding. -/
def State.pcieAccess (s : State) (f : Fin 16) (a : Access) : State :=
  let x := s.fn f
  if !s.awake || !s.is F.DWL_LINK_DL_UP || !s.fnExists f || !x.mse || x.d3 || !inBar f a.addr then s.answer false 0
  else if !s.hostBound f then
    let n := s.nextTag f 1
    if a.op = .write ∧ emulated a.addr then n.2.denied { a with seq := n.1 } Aerr.windowDenied
    else s.denied a Aerr.windowDenied
  else s.access a

/-- The word of GATE (R358). -/
def gateWord : Nat := 0x0000100B

/-- An instruction fetch by hart h: the secure world does not fetch from a normal address (R354); the normal world fetches from a
secure address GATE at a gate entry only (R360). -/
def State.fetchAccess (s : State) (h : Nat) (a : Access) : State :=
  if a.tag.secure && !s.secureAddr a.addr then (s.hartTrap h Exc.fetch).answer false 0
  else if !a.tag.secure && s.secureAddr a.addr && s.gateEntry a.addr then
    if s.memRead a.addr 4 = gateWord then s.answer true gateWord else (s.hartTrap h Exc.fetch).answer false 0
  else s.access a

/-- An access of a Mitre core outside local memory. -/
def State.mitreOut (s : State) (c addr size : Nat) (op : AccOp) (data : Nat) : State :=
  s.access ⟨⟨0, s.mtrSecure c, .mitre⟩, Fin.ofNat 16 c, addr, size, op, data, 0⟩

/-- A Mitre core executes an access (R202, R206, R207): in split mode its local memory or the physical address, anything else an access
fault. In braced mode only copy A's loads leave the unit; its stores and its local memory stand in its record, and an atomic outside
local memory is a fault in every copy. -/
def State.mitreIssue (s : State) (c addr size : Nat) (op : AccOp) (data : Nat) : State :=
  let fault := fun (s : State) => (s.coreTrap c (accFault op) (BitVec.ofNat 32 addr)).answer false 0
  if !s.mtrRuns c then s.answer false 0
  else if s.mtrSplit then
    let s := s.coreIrq c (s.mtrLines c)
    if s.inLmem addr size then s.lmemAccess c addr size op data
    else if lmemBase < addr + size || op == .lr || op == .sc then fault s
    else s.mitreOut c addr size op data
  else if s.inLmem addr size then s
  else if lmemBase < addr + size then fault s
  else if op.atomic then (s.coreTrap c 7#32 (BitVec.ofNat 32 addr)).answer false 0
  else if op == .write then s
  else s.mitreOut c addr size op data

/-- An access a master issues: a hart that does not run issues none; debug issues what its enables permit (R35, R355, R369). -/
def State.issue (s : State) (m : Master) (addr size : Nat) (op : AccOp) (data : Nat) : State :=
  match m with
  | .hart h v =>
    if (s.ht h).halted || (s.ht h).inReset || s.unitOut 5 h then s.answer false 0
    else if op = .fetch then s.fetchAccess h ⟨s.hartTag h v, h, addr, size, op, data, 0⟩
    else s.access ⟨s.hartTag h v, h, addr, size, op, data, 0⟩
  | .pcie f => s.pcieAccess f ⟨⟨f, false, .pcie⟩, f, addr, size, op, data, 0⟩
  | .mitre c => s.mitreIssue c addr size op data
  | .debug =>
    let can := fun w => if op.writes then s.dbgAct w else s.dbgSee w
    if can true then s.access ⟨⟨0, true, .debug⟩, 0, addr, size, op, data, 0⟩
    else if can false then s.access ⟨⟨0, false, .debug⟩, 0, addr, size, op, data, 0⟩
    else
      let n := s.nextTag 0 4
      let tagged := op = .write ∧ emulated addr
      (if tagged then n.2 else s).denied ⟨⟨0, false, .debug⟩, 0, addr, size, op, data, if tagged then n.1 else 0⟩ Aerr.secure

/-- The address of a register position: in the global window, or in the view of drawer `n`. -/
def regAddr (r : RegId) (view : Option (Fin 16)) (i j : Nat) : Nat :=
  let d := regDef r
  match view with
  | none => winBase d.win + d.off + i * d.st1 + j * d.st2
  | some n =>
    0x30000000 + n.val * 0x100000 + ((List.range 16).find? (fun k => subWin k == d.win)).getD 0 * 0x10000 + d.voff + i * d.st1 + j * d.st2

/-- A master writes a register position. -/
def State.regCmd (s : State) (m : Master) (r : RegId) (view : Option (Fin 16)) (i w : Nat) (j : Nat := 0) : State :=
  s.issue m (regAddr r view i j) 4 .write w

/-- A master reads a register position. -/
def State.regAsk (s : State) (m : Master) (r : RegId) (view : Option (Fin 16)) (i : Nat) (j : Nat := 0) : State :=
  s.issue m (regAddr r view i j) 4 .read 0

/-! Ends of an island's drain, wipe and wake -/

/-- Whether a waiting access is for island n. -/
def State.waitsFor (s : State) (n : Nat) : Bool := s.fab.waiting.any fun w => w.1 == n

/-- Draining ends (R44): gated or off. Accesses that waited wake a gated island, or fail at an island that is off (R38). -/
def State.islandDrained (s : State) (n : Nat) : State :=
  if s.islState n ≠ Isl.draining then s
  else
    let s := s.groupDown n
    if storeGet 0 s.fab.target n = 2 then
      let s := s.putIsl n Isl.off
      let s := if 5 ≤ n ∧ n ≤ 8 then s.forget fun a => memIsland a == some n else s
      let s := if n = 32 then s.volatileLost else s
      s.retry
    else
      let s := s.putIsl n Isl.gated
      if s.waitsFor n then s.islandWake n false else s

/-- The wipe overwrites an island's secret state (R44; log entry 118): volatile Till slots, MACsec keys, secure SRAM, and the registers of
a cluster's secure harts. -/
def State.islandZero (s : State) (n : Nat) : State :=
  if n = 32 then s.volatileLost
  else if n = 27 then { s with saKey := [] }
  else if 5 ≤ n ∧ n ≤ 8 then s.sramZero n
  else if n = 2 ∨ n = 3 then
    s.each (((List.range 3).map (3 * (n - 2) + ·)).filter fun h => (s.ht h).w) fun s h =>
      s.putHt h { s.ht h with x := List.replicate 32 0#64, f := List.replicate 32 0#64, fcsr := 0, snap := none }
  else s

/-- The wipe ends (R44, R46, R47): the island drains, or is ON when that was asked for meanwhile. -/
def State.islandWiped (s : State) (n : Nat) : State :=
  if s.islState n ≠ Isl.wiping then s
  else
    let t := s.get F.FAB_ISL_STATE_PENDING n
    let s := s.islandZero n
    if t = 0 then s.putIsl n Isl.on else s.islandDrain n t

/-- The ISL reset of a wake from POWER_OFF; the accesses that wait for the wake keep waiting (log entry 27). -/
def State.wakeReset (s : State) (n : Nat) (dv : List (Fin 16 × Nat)) : State :=
  let s' := { s with fab := { s.fab with waiting := [] } }.islReset n dv
  { s' with fab := { s'.fab with waiting := s.fab.waiting } }

/-- The wake time passes (R44, R47): from POWER_OFF an ISL reset runs first; accesses that waited are performed, and a request held
is then handled as one that arrives in ON. -/
def State.islandWoken (s : State) (n : Nat) (dv : List (Fin 16 × Nat)) : State :=
  if s.islState n ≠ Isl.waking then s
  else
    let s := if storeGet false s.fab.fromOff n then s.wakeReset n dv else s
    let t := s.get F.FAB_ISL_STATE_PENDING n
    let s := ((s.put F.FAB_ISL_STATE_PENDING 0 n).putIsl n Isl.on).groupUp n
    let s := s.retry
    if t = 0 then s else s.islandDown n t (s.is F.FAB_ISL_REQ_BY_SECURE n)

end Sys2Proof.Machine
end

