-- ==== Sys2Proof/Machine/Events.lean ====
section
/-! DEFINITION. What the commands of several families share. -/

namespace Sys2Proof.Machine

/-- Bytes as numbers. -/
def natsOf (l : List (BitVec 8)) : List Nat := l.map BitVec.toNat

/-- A keyed command word: KEY in bits 31 to 16. -/
def keyed (k w : Nat) : Nat := k * 65536 + w

/-- What happens while no command waits (log entry 30): one tick of the 500 MHz zone clock, while the time block has its clock. -/
def State.idle (s : State) : State := if s.live 34 then s.tick else s

end Sys2Proof.Machine
end

