-- ==== Sys2Proof/Machine/Access.lean ====
section
/-! DEFINITION. Register reads and memory accesses (ch. 2, 11). -/

namespace Sys2Proof.Machine

/-- REGISTER_READ: A read at an address (R8, R36). -/
def execRegisterRead (m : Master) (addr : BitVec 40) (size : Fin 9) (s : State) : Out := .next (s.issue m addr.toNat size .read 0)

/-- MEMORY_ACCESS: A load, store, atomic or fetch at an address (R229). -/
def execMemoryAccess (m : Master) (addr : BitVec 40) (size : Fin 9) (op : AccOp) (data : BitVec 64) (s : State) : Out :=
  .next (s.issue m addr.toNat size op data.toNat)

end Sys2Proof.Machine
end

