-- ==== Sys2Proof/Machine/Can.lean ====
section
/-! DEFINITION. CAN controllers (ch. 15). -/

namespace Sys2Proof.Machine

/-- A step of controller k while its island is clocked. -/
def State.onCan (s : State) (k : Nat) (f : State → State) : State := if s.live (canIsland k) then f s else s

/-- A write of CAN_CTRL_k whose MODE is `mode`. -/
def canMode (w : BitVec 32) (mode : Nat) : Nat := w.toNat / 4 * 4 + mode

/-- The wake-up pattern at an armed transceiver (R329). -/
def State.canWake (s : State) (k : Nat) : State :=
  if s.is F.CAN_WAKE_ARM k && s.canState k != Can.retired then s.wake 3 k else s

/-- CAN_MODE_CONFIG: A write of CAN_CTRL_k with MODE 0, its other fields from `w` (R313). -/
def execCanModeConfig (m : Master) (v : Option (Fin 16)) (k : Fin 16) (w : BitVec 32) (s : State) : Out :=
  .next (s.regCmd m .CAN_CTRL v k (canMode w 0))

/-- CAN_MODE_NORMAL: A write of CAN_CTRL_k with MODE NORMAL (R313). -/
def execCanModeNormal (m : Master) (v : Option (Fin 16)) (k : Fin 16) (w : BitVec 32) (s : State) : Out :=
  .next (s.regCmd m .CAN_CTRL v k (canMode w 1))

/-- CAN_MODE_RESTRICTED: A write of CAN_CTRL_k with MODE RESTRICTED (R313). -/
def execCanModeRestricted (m : Master) (v : Option (Fin 16)) (k : Fin 16) (w : BitVec 32) (s : State) : Out :=
  .next (s.regCmd m .CAN_CTRL v k (canMode w 2))

/-- CAN_MODE_MONITOR: A write of CAN_CTRL_k with MODE MONITOR (R313). -/
def execCanModeMonitor (m : Master) (v : Option (Fin 16)) (k : Fin 16) (w : BitVec 32) (s : State) : Out :=
  .next (s.regCmd m .CAN_CTRL v k (canMode w 3))

/-- CAN_RECOVER: A write of CAN_RECOVER_k with RECOVER and KEY (R313). -/
def execCanRecover (m : Master) (v : Option (Fin 16)) (k : Fin 16) (s : State) : Out :=
  .next (s.regCmd m .CAN_RECOVER v k (keyed 0x0C4B 1))

/-- CAN_BUS_INTEGRATED: 11 consecutive recessive bits on bus k (R312). -/
def execCanBusIntegrated (k : Fin 16) (s : State) : Out := .next (s.onCan k fun s => s.canIntegrated k)

/-- CAN_RECOVERY_DONE: 128 occurrences of 11 recessive bits on bus k (R312). -/
def execCanRecoveryDone (k : Fin 16) (s : State) : Out := .next (s.onCan k fun s => s.canRecovered k)

/-- CAN_ERROR: A bus error, with the counters that ISO 11898-1 leaves (R312, R315). -/
def execCanError (k : Fin 16) (lec : Fin 8) (tec : Fin 512) (rec_ : Fin 256) (s : State) : Out :=
  .next (s.onCan k fun s => State.canError s k lec tec rec_)

/-- CAN_PROTOCOL_EXCEPTION: A frame of a disabled format (R309). -/
def execCanProtocolException (k : Fin 16) (s : State) : Out := .next (s.onCan k fun s => s.canPex k)

/-- CAN_OVERTEMP: A transceiver's overtemperature shutdown starts or ends (R312). -/
def execCanOvertemp (k : Fin 16) (hot : Bool) (s : State) : Out := .next (s.onCan k fun s => s.canHot k hot)

/-- MB_REQ: A write of CAN_MB_CMD with REQ (R317). -/
def execMbReq (m : Master) (v : Option (Fin 16)) (k : Fin 16) (mb : Fin 64) (s : State) : Out :=
  .next (s.regCmd m .CAN_MB_CMD v k 1 mb)

/-- MB_ABORT: A write of CAN_MB_CMD with ABORT (R320). -/
def execMbAbort (m : Master) (v : Option (Fin 16)) (k : Fin 16) (mb : Fin 64) (s : State) : Out :=
  .next (s.regCmd m .CAN_MB_CMD v k 2 mb)

/-- CAN_FRAME_START: Bus k is idle, or its intermission has passed (R318). -/
def execCanFrameStart (k : Fin 16) (s : State) : Out := .next (s.onCan k fun s => s.canStart k)

/-- CAN_ARB_LOST: The frame of controller k loses arbitration (R320). -/
def execCanArbLost (k : Fin 16) (s : State) : Out := .next (s.onCan k fun s => s.canLost k)

/-- CAN_ARB_WON: The arbitration field ends with controller k as transmitter (R319). -/
def execCanArbWon (k : Fin 16) (s : State) : Out := .next (s.onCan k fun s => s.canWon k)

/-- CAN_TX_COMPLETE: The frame of controller k ends successfully (R320). -/
def execCanTxComplete (k : Fin 16) (tec : Fin 512) (rec_ : Fin 256) (s : State) : Out :=
  .next (s.onCan k fun s => s.canSent k tec rec_)

/-- CAN_RX_FRAME: A frame received without error, `ago` ns of raw time after its start of frame (R323). -/
def execCanRxFrame (k : Fin 16) (f : CanFrame) (ago : BitVec 32) (tec : Fin 512) (rec_ : Fin 256) (s : State) : Out :=
  .next (s.onCan k fun s => s.canReceive k f ago.toNat tec rec_)

/-- CAN_RX_DELIVER: The oldest frame of the FIFO goes into a ready CAN_RX descriptor (R324). -/
def execCanRxDeliver (k : Fin 16) (s : State) : Out := .next (s.onCan k fun s => s.canDeliver k)

/-- MRAM_DATA_ACCESS: A write, or a read, of CAN_MRAM_DATA_k (R316). -/
def execMramDataAccess (m : Master) (v : Option (Fin 16)) (k : Fin 16) (data : Option (BitVec 32)) (s : State) : Out :=
  .next <|
    match data with
    | some w => s.regCmd m .CAN_MRAM_DATA v k w.toNat
    | none => s.regAsk m .CAN_MRAM_DATA v k

/-- ACF_CFG_WRITE: A write of CAN_ACF_CFG_k (R326). -/
def execAcfCfgWrite (m : Master) (v : Option (Fin 16)) (k : Fin 16) (w : BitVec 32) (s : State) : Out :=
  .next (s.regCmd m .CAN_ACF_CFG v k w.toNat)

/-- TUNNEL_TX_RELEASE: A waiting tunnel frame may be queued (R327). -/
def execTunnelTxRelease (k : Fin 16) (s : State) : Out := .next (s.onCan k fun s => s.tunnelRelease k)

/-- ACF_RX: A tunnel frame at the host queue is taken (R328). -/
def execAcfRx (k : Fin 16) (s : State) : Out := .next (s.onCan k fun s => s.acfReceive k)

/-- CAN_WAKE_PATTERN: The wake-up pattern on bus k (R329). -/
def execCanWakePattern (k : Fin 16) (s : State) : Out := .next (s.canWake k)

end Sys2Proof.Machine
end

