-- ==== Sys2Proof/Machine/Dovetail.lean ====
section
/-! DEFINITION. The Dovetail switch (ch. 12). -/

namespace Sys2Proof.Machine

/-- Whether the switch works. -/
def State.dvtLive (s : State) : Bool := s.live 20

/-- Whether the switch can send at port p: a host port, or an external port whose island is clocked. -/
def State.portWorks (s : State) (p : Nat) : Bool := s.dvtLive && s.live (if p < 30 then portIsland p else 26)

/-- Egress selection at port p (R263): `sent` bytes of the frame on the medium have left; `deferred` says that the medium was busy. -/
def State.egressPick (s : State) (p sent : Nat) (deferred : Bool) : State :=
  if !s.portWorks p then s else if p < 30 then s.egressExt p sent deferred else s.egressHost p

/-- The last bit of a copy leaves port p; for a host port `c` is its class (R246). -/
def State.egressEnd (s : State) (p c : Nat) : State :=
  if !s.portWorks p then s else if p < 30 then s.egressDoneExt p else s.egressDoneHost p c

/-- A command on the time-gated list that is named (R264). -/
def State.onList (s : State) (l : ListRef) (f : State → Nat → Nat → State) : State :=
  if !s.dvtLive then s
  else match l with
    | .gate n => f s Tbl.gate n
    | .qbv p => f s Tbl.qbv p

/-- SWITCH_FRAME_ARRIVAL: The first frame waiting at ingress port p enters the switch (R252). -/
def execSwitchFrameArrival (p : Fin 37) (s : State) : Out := .next (if s.dvtLive then s.frameArrival p else s)

/-- EGRESS_SELECT: Port p picks its next frame; `sent` bytes of the frame it sends have left, and `deferred` says the medium was busy (R263, R279). -/
def execEgressSelect (p : Fin 37) (sent : Nat) (deferred : Bool) (s : State) : Out := .next (s.egressPick p sent deferred)

/-- EGRESS_DONE: The last bit of a copy leaves port p; `c` is its class at a host port (R246). -/
def execEgressDone (p : Fin 37) (c : Fin 8) (s : State) : Out := .next (s.egressEnd p c)

/-- LAUNCH_TIME: The launch time of the frame at the head of queue q is reached (R300). -/
def execLaunchTime (q : Fin 296) (s : State) : Out := .next (if s.dvtLive then s.launchDue q else s)

/-- FDB_AGING_SCAN: An aging scan (R256). -/
def execFdbAgingScan (s : State) : Out := .next (if s.dvtLive && s.get F.DVT_AGE_AGE_S != 0 then s.ageScan else s)

/-- FDB_LOOKUP: A write of DVT_FDB_CTRL with LOOKUP (R257). -/
def execFdbLookup (m : Master) (s : State) : Out := .next (s.regCmd m .DVT_FDB_CTRL none 0 1)

/-- FDB_ADD_STATIC: A write of DVT_FDB_CTRL with ADD_STATIC (R257). -/
def execFdbAddStatic (m : Master) (s : State) : Out := .next (s.regCmd m .DVT_FDB_CTRL none 0 2)

/-- FDB_DELETE: A write of DVT_FDB_CTRL with DELETE (R257). -/
def execFdbDelete (m : Master) (s : State) : Out := .next (s.regCmd m .DVT_FDB_CTRL none 0 3)

/-- FDB_FLUSH_PORT: A write of DVT_FDB_CTRL with FLUSH_PORT (R257). -/
def execFdbFlushPort (m : Master) (s : State) : Out := .next (s.regCmd m .DVT_FDB_CTRL none 0 4)

/-- FDB_FLUSH_ALL: A write of DVT_FDB_CTRL with FLUSH_ALL (R257). -/
def execFdbFlushAll (m : Master) (s : State) : Out := .next (s.regCmd m .DVT_FDB_CTRL none 0 5)

/-- TBL_LOAD: A write of DVT_TBL_CTRL with LOAD (R272). -/
def execTblLoad (m : Master) (s : State) : Out := .next (s.regCmd m .DVT_TBL_CTRL none 0 1)

/-- TBL_COMMIT: A write of DVT_TBL_CTRL with COMMIT (R272). -/
def execTblCommit (m : Master) (s : State) : Out := .next (s.regCmd m .DVT_TBL_CTRL none 0 2)

/-- TBL_DATA_ACCESS: A write, or a read, of DVT_TBL_DATA (R272). -/
def execTblDataAccess (m : Master) (data : Option (BitVec 32)) (s : State) : Out :=
  .next <|
    match data with
    | some v => s.regCmd m .DVT_TBL_DATA none 0 v.toNat
    | none => s.regAsk m .DVT_TBL_DATA none 0

/-- CBS_IDLE_SLOPE_WRITE: A write of DVT_QCBS_q (R266). -/
def execCbsIdleSlopeWrite (m : Master) (q : Fin 296) (v : BitVec 32) (s : State) : Out :=
  .next (s.regCmd m .DVT_QCBS none q v.toNat)

/-- GATE_CYCLE_START: A list reaches a cycle start; `newList` says that it is that of a pending list (R264). -/
def execGateCycleStart (l : ListRef) (newList : Bool) (s : State) : Out :=
  .next (s.onList l fun s t i => s.cycleStart t i newList)

/-- GATE_ENTRY_END: The interval of a list entry ends (R264). -/
def execGateEntryEnd (l : ListRef) (s : State) : Out := .next (s.onList l fun s t i => s.entryEnd t i)

/-- FRER_RESET_TIMEOUT: The reset timeout of FRER_REC entry n expires (R262). -/
def execFrerResetTimeout (n : Fin 64) (s : State) : Out := .next (if s.dvtLive then s.recovReset n else s)

/-- CAPTURE_BUFFER_TIMEOUT: 1 ms after the first record of ring r's capture buffer (R270). -/
def execCaptureBufferTimeout (r : Fin 256) (s : State) : Out :=
  .next (if s.live 38 && s.ringKind r == Kind.capture && !(s.rg r).src.isEmpty then s.closeBuf r else s)

/-- FDB_OPERATION_DONE: The forwarding-database operation in progress finishes (R257). -/
def execFdbOperationDone (s : State) : Out := .next (if s.dvtLive then s.fdbDone else s)

end Sys2Proof.Machine
end

