-- ==== Sys2Proof/Machine/Dowel.lean ====
section
/-! DEFINITION. The Dowel bridge and PCIe (ch. 16). -/

namespace Sys2Proof.Machine

/-- Whether the bridge works. -/
def State.dwlLive (s : State) : Bool := s.live 35

/-- A posted write of drawer d fails after its check: it has taken its tag when the bridge accepted it (R345, R346). -/
def State.failWrite (s : State) (d : Nat) (src unit addr cause data : Nat) : State :=
  if s.drw.count ≤ d then s
  else
    let n := s.nextTag d src
    (n.2.farFailure d src unit addr n.1 cause data).perrDeliver d

/-- A SQUASH of every drawer but D0 in HOST binding (R337). -/
def State.squashHosts (s : State) : State :=
  s.each (below s.drw.count fun d => decide (1 ≤ d) && s.hostBound d) fun s d => s.drawerReset d true

/-- VF Enable is cleared (R337). -/
def State.vfClear (s : State) : State :=
  if s.dwl.vfEn then { s with dwl := { s.dwl with vfEn := false } }.squashHosts else s

/-- A function-level reset (R337): the function's configuration is reset, and its drawer squashed; that of the PF clears VF Enable. -/
def State.flr (s : State) (f : Nat) : State :=
  if !s.fnExists f then s
  else
    let s := s.putFn f FnSt.rst
    let s := { s with dwl := { s.dwl with
      msix := s.dwl.msix.filter fun p => p.1 / 64 != f
      pba := s.dwl.pba.filter fun p => p.1 / 64 != f } }
    let s := s.drawerReset f true
    if f = 0 then s.vfClear else s

/-- An LR.W or SC.W of a core: PCIe functions and debug have none (R341). -/
def State.reserving (s : State) (c : DbgTarget) (virt : Bool) (addr : Nat) (op : AccOp) (x : Nat) : State :=
  match c with
  | .hart h => s.issue (.hart h virt) addr 4 op x
  | .mitre k => s.issue (.mitre k) addr 4 op x

/-- A prefetched line is discarded 200 ns after its data arrived (R344): the line at place `i`, oldest first. -/
def State.lineExpire (s : State) (i : Nat) : State :=
  match s.dwl.lines[i]? with
  | some x => s.lineDrop fun y => y == x
  | none => s

/-- An outbound read of ring r fails (R350), and waiting posted-error records go to their ring. -/
def State.readFailure (s : State) (r cause va : Nat) : State :=
  match s.ringOwner r with
  | some d => if s.live 38 && s.hostBound d then (s.hostReadFail r cause va).perrDeliver d else s
  | none => s

/-- PCIE_POISONED_WRITE: A poisoned inbound write of function f (R336). -/
def execPciePoisonedWrite (f : Fin 16) (addr : BitVec 40) (s : State) : Out :=
  .next (if s.dwlLive && s.is F.DWL_LINK_DL_UP && s.fnExists f then s.failWrite f 1 f addr.toNat 0x0B 0 else s)

/-- FUNCTION_LEVEL_RESET: An FLR of function f (R337). -/
def execFunctionLevelReset (f : Fin 16) (s : State) : Out := .next (if s.dwlLive then s.flr f else s)

/-- VF_ENABLE_CLEAR: VF Enable is cleared (R337). -/
def execVfEnableClear (s : State) : Out := .next (if s.dwlLive then s.vfClear else s)

/-- PCIE_LINK_DOWN: DL_Down (R337). -/
def execPcieLinkDown (s : State) : Out := .next (if s.dwlLive then s.linkIsDown else s)

/-- AMO_W: An AMO*.W (R340). -/
def execAmoW (m : Master) (o : AtomOp) (addr : BitVec 40) (x : BitVec 32) (s : State) : Out :=
  .next (s.issue m addr.toNat 4 (.amo o) x.toNat)

/-- LR_W: An LR.W of a hart, V of which is `virt`, or of a Mitre core (R207, R341). -/
def execLrW (c : DbgTarget) (virt : Bool) (addr : BitVec 40) (s : State) : Out := .next (s.reserving c virt addr.toNat .lr 0)

/-- SC_W: An SC.W of a hart, V of which is `virt`, or of a Mitre core (R207, R341). -/
def execScW (c : DbgTarget) (virt : Bool) (addr : BitVec 40) (x : BitVec 32) (s : State) : Out :=
  .next (s.reserving c virt addr.toNat .sc x.toNat)

/-- RESERVATION_EXPIRY: 2 µs after the LR.W of hart h (R341). -/
def execReservationExpiry (h : Fin 6) (s : State) : Out := .next (if s.dwlLive then s.reservationEnd h else s)

/-- PCIE_FETCH_ADD: A PCIe FetchAdd (R339). -/
def execPcieFetchAdd (f : Fin 16) (addr : BitVec 40) (x : BitVec 32) (s : State) : Out :=
  .next (s.issue (.pcie f) addr.toNat 4 (.amo .add) x.toNat)

/-- PCIE_SWAP: A PCIe Swap (R339). -/
def execPcieSwap (f : Fin 16) (addr : BitVec 40) (x : BitVec 32) (s : State) : Out :=
  .next (s.issue (.pcie f) addr.toNat 4 (.amo .swap) x.toNat)

/-- PCIE_CAS: A PCIe CAS (R339). -/
def execPcieCas (f : Fin 16) (addr : BitVec 40) (cmp x : BitVec 32) (s : State) : Out :=
  .next (s.issue (.pcie f) addr.toNat 4 (.cas cmp.toNat) x.toNat)

/-- PREFETCH_LINE_EXPIRY: The line at place n is 200 ns old (R344). -/
def execPrefetchLineExpiry (n : Fin 32) (s : State) : Out := .next (s.lineExpire n)

/-- POSTED_WRITE_FAILURE: A posted write fails after its check (R346, R347). -/
def execPostedWriteFailure (d : Fin 16) (src : Fin 5) (unit : BitVec 16) (addr : BitVec 40) (cause : BitVec 8) (data : BitVec 32) (s : State) : Out :=
  .next (if s.dwlLive then s.failWrite d src unit.toNat addr.toNat cause.toNat data.toNat else s)

/-- HOST_READ_FAILURE: An outbound read of ring r fails (R350). -/
def execHostReadFailure (r : Fin 256) (cause : BitVec 8) (va : BitVec 64) (s : State) : Out :=
  .next (s.readFailure r cause.toNat va.toNat)

/-- FENCE: A read of DWL_FENCE through a view (R349). -/
def execFence (m : Master) (v : Fin 16) (s : State) : Out := .next (s.regAsk m .DWL_FENCE (some v) 0)

/-- FENCE_ACK: A write of DWL_FENCE_ACK through a view (R349). -/
def execFenceAck (m : Master) (v : Fin 16) (tag : BitVec 32) (s : State) : Out :=
  .next (s.regCmd m .DWL_FENCE_ACK (some v) 0 tag.toNat)

/-- INTERRUPT_SCAN: The bridge scans the vector lines (R351). -/
def execInterruptScan (s : State) : Out := .next (if s.dwlLive then s.irqScan else s)

/-- EOI: A write of DWL_EOI through a view (R351). -/
def execEoi (m : Master) (v : Fin 16) (vec : Fin 64) (s : State) : Out := .next (s.regCmd m .DWL_EOI (some v) 0 vec)

/-- MSIX_PENDING_SEND: A pending MSI-X message may leave (R352). -/
def execMsixPendingSend (f : Fin 16) (v : Fin 64) (s : State) : Out := .next (if s.dwlLive then s.msixPending f v else s)

/-- PCIE_LINK_UP: The data link comes up at generation gen + 1 with 2^lanes lanes (R337). -/
def execPcieLinkUp (gen : Fin 4) (lanes : Fin 3) (s : State) : Out :=
  .next (if s.dwlLive then s.linkIsUp (gen + 1) (2 ^ lanes.val) else s)

/-- PCIE_CONFIG_WRITE: The host writes the configuration space of function f (R333, R337). -/
def execPcieConfigWrite (f : Fin 16) (w : CfgWrite) (s : State) : Out :=
  .next (if s.dwlLive && s.is F.DWL_LINK_DL_UP && s.fnExists f then State.cfgWrite s f w else s)

end Sys2Proof.Machine
end

