-- ==== Sys2Proof/Machine/Drawers.lean ====
section
/-! DEFINITION. Drawers, rings, descriptors and translation (ch. 4 and 11). -/

namespace Sys2Proof.Machine

/-- What follows a step of ring r: its drawer's waiting posted-error records (R347). -/
def State.perrOf (s : State) (r : Nat) : State :=
  match s.ringOwner r with
  | some d => s.perrDeliver d
  | none => s

/-- Whether a ring may work: its engine is clocked and the ring RUNNING or stopping. -/
def State.ringWorks (s : State) (r : Nat) : Bool :=
  s.live 38 && (s.ringState r == Rst.running || s.ringState r == Rst.stopping)

/-- The first fault of ring r's accesses takes effect (R237, R240); a STOPPING ring, whose disable waits, is disabled by it (R85; log
entry 119). -/
def State.ringFaults (s : State) (r : Nat) (h : HostMem) : State :=
  match s.ringOwner r with
  | none => s
  | some d =>
    if !s.ringWorks r then s
    else
      match s.firstFault r d h with
      | some (n, f) =>
        let t := (s.faultTaken r d n f).rxFault r
        if s.ringState r = Rst.stopping then t.ringStop r else t
      | none => s

/-- A page walk for drawer d ends (R233). -/
def State.walkEnds (s : State) (d : Nat) (sec : Bool) (h : HostMem) (va : Nat) (wr : Bool) : State :=
  if s.live 37 && decide (d < s.drw.count) && s.paged d then s.walkDone d sec h va wr else s

/-- The last bit of the old half of drawer d's dirty bitmap has been written (R243). -/
def State.dirtyDone (s : State) (d : Nat) : State := if s.live 37 then s.put F.IOM_DIRTY_STAT_BUSY 0 d else s

/-- MOVE: A write of DRW_MOVE_CTRL with GO; DRW_MOVE_ARG holds FIRST and COUNT (R77). -/
def execMove (m : Master) (cls : Fin 8) (src dst : Fin 32) (s : State) : Out :=
  .next (s.regCmd m .DRW_MOVE_CTRL none 0 (2 ^ 31 + dst * 4096 + src * 16 + cls))

/-- MOVE_COMMIT: The accepted move commits (R78). -/
def execMoveCommit (s : State) : Out := .next (s.moveCommit)

/-- MOVE_DONE: No access checked under the old owner remains (R78). -/
def execMoveDone (s : State) : Out := .next (s.moveDone)

/-- FEATURE_COMMIT: A write of DRW_FEAT_CTRL with COMMIT through the view of drawer d (R81). -/
def execFeatureCommit (m : Master) (d : Fin 16) (s : State) : Out := .next (s.regCmd m .DRW_FEAT_CTRL (some d) 0 1)

/-- DRW_RST_REQ_DRAIN: A write of DRW_RST_REQ with MODE drain (R91). -/
def execDrwRstReqDrain (m : Master) (d : Fin 16) (s : State) : Out := .next (s.regCmd m .DRW_RST_REQ none 0 (keyed 0x5C3D d))

/-- DRW_RST_REQ_SQUASH: A write of DRW_RST_REQ with MODE squash (R91). -/
def execDrwRstReqSquash (m : Master) (d : Fin 16) (s : State) : Out :=
  .next (s.regCmd m .DRW_RST_REQ none 0 (keyed 0x5C3D (16 + d)))

/-- DRW_RST_DRAIN: A write of DRW_RST with MODE drain through the view of drawer d (R91). -/
def execDrwRstDrain (m : Master) (d : Fin 16) (s : State) : Out := .next (s.regCmd m .DRW_RST (some d) 0 (keyed 0x5C3D 0))

/-- DRW_RST_SQUASH: A write of DRW_RST with MODE squash through the view of drawer d (R91). -/
def execDrwRstSquash (m : Master) (d : Fin 16) (s : State) : Out := .next (s.regCmd m .DRW_RST (some d) 0 (keyed 0x5C3D 1))

/-- DRAIN_ESCALATION: The drain of drawer d still runs after 1 ms (R91). -/
def execDrainEscalation (d : Fin 16) (s : State) : Out := .next (s.drainEscalate d)

/-- DRAWER_RESET_COMPLETE: Nothing of drawer d is outstanding (R93). -/
def execDrawerResetComplete (d : Fin 16) (s : State) : Out := .next (s.drawerResetDone d)

/-- RING_TAIL_WRITE: A write of RING_TAIL_r (R83). -/
def execRingTailWrite (m : Master) (v : Option (Fin 16)) (r : Fin 256) (tail : BitVec 16) (s : State) : Out :=
  .next (s.regCmd m .RING_TAIL v r tail.toNat)

/-- RING_ENABLE: A write of RING_CTRL_r with ENABLE = 1 (R84). -/
def execRingEnable (m : Master) (v : Option (Fin 16)) (r : Fin 256) (s : State) : Out := .next (s.regCmd m .RING_CTRL v r 1)

/-- RING_DISABLE: A write of RING_CTRL_r with ENABLE = 0 (R85). -/
def execRingDisable (m : Master) (v : Option (Fin 16)) (r : Fin 256) (s : State) : Out := .next (s.regCmd m .RING_CTRL v r 0)

/-- RING_RESUME: A write of RING_CTRL_r with ENABLE = 1 and RESUME (R238). -/
def execRingResume (m : Master) (v : Option (Fin 16)) (r : Fin 256) (s : State) : Out := .next (s.regCmd m .RING_CTRL v r 3)

/-- DESCRIPTOR_FETCH: The data of the descriptor at HEAD arrives; `h` holds the words host memory answers (R86). -/
def execDescriptorFetch (r : Fin 256) (h : HostMem) (s : State) : Out :=
  .next (if s.live 38 then (s.descFetch r h).perrOf r else s)

/-- UNIT_COMMIT: The next unit of ring r commits (R236). -/
def execUnitCommit (r : Fin 256) (h : HostMem) (s : State) : Out :=
  .next (if s.live 38 then (State.unitCommit s r h).perrOf r else s)

/-- DESCRIPTOR_COMPLETE: The writeback of ring r is written (R86). -/
def execDescriptorComplete (r : Fin 256) (s : State) : Out := .next (if s.live 38 then (s.descComplete r).perrOf r else s)

/-- TRANSLATION_WALK_DONE: A walk for an input page of drawer d ends (R233). -/
def execTranslationWalkDone (d : Fin 16) (sec : Bool) (h : HostMem) (va : BitVec 64) (wr : Bool) (s : State) : Out :=
  .next (s.walkEnds d sec h va.toNat wr)

/-- RING_FAULT: The first fault of ring r's accesses takes effect (R237). -/
def execRingFault (r : Fin 256) (h : HostMem) (s : State) : Out := .next (s.ringFaults r h)

/-- FAULT_POP: A write of DRW_FAULT_STAT with POP through the view of drawer d (R90). -/
def execFaultPop (m : Master) (d : Fin 16) (s : State) : Out := .next (s.regCmd m .DRW_FAULT_STAT (some d) 0 256)

/-- FAULT_HEAD_READ: A read of DRW_FAULT_HEAD0 through the view of drawer d (R90). -/
def execFaultHeadRead (m : Master) (d : Fin 16) (s : State) : Out := .next (s.regAsk m .DRW_FAULT_HEAD (some d) 0)

/-- RX_HOLD_EXPIRY: HOLD_MS passes for a FAULTED ETH_RX ring (R240). -/
def execRxHoldExpiry (r : Fin 256) (s : State) : Out := .next (if s.live 38 then s.holdExpired r else s)

/-- ETH_TX_CELL_READ: An ETH_TX ring reads its next cell (R250). -/
def execEthTxCellRead (r : Fin 256) (s : State) : Out := .next (if s.live 38 then s.cellRead r else s)

/-- GRANULE_WRITE: A write of a granule entry (R231). -/
def execGranuleWrite (m : Master) (g : Granule) (w : BitVec 32) (s : State) : Out :=
  .next <|
    match g with
    | .dram n => s.regCmd m .IOM_DGRAN none n w.toNat
    | .sram n => s.regCmd m .IOM_SGRAN none n w.toNat

/-- INVAL_ALL: A write of IOM_INVAL with GO and scope 0 (R234). -/
def execInvalAll (m : Master) (s : State) : Out := .next (s.regCmd m .IOM_INVAL none 0 (2 ^ 31))

/-- INVAL_DRAWER: A write of IOM_INVAL with GO and scope 1 (R234). -/
def execInvalDrawer (m : Master) (d : Fin 16) (s : State) : Out := .next (s.regCmd m .IOM_INVAL none 0 (2 ^ 31 + d * 16 + 1))

/-- INVAL_PAGE: A write of IOM_INVAL with GO and scope 2; IOM_INVAL_ADDR holds the page (R234). -/
def execInvalPage (m : Master) (d : Fin 16) (s : State) : Out := .next (s.regCmd m .IOM_INVAL none 0 (2 ^ 31 + d * 16 + 2))

/-- INVAL_STAGE1: A write of IOM_INVAL with GO and scope 3 (R234). -/
def execInvalStage1 (m : Master) (d : Fin 16) (s : State) : Out := .next (s.regCmd m .IOM_INVAL none 0 (2 ^ 31 + d * 16 + 3))

/-- S1INVAL: A write of IOM_S1INVAL with GO through the view of drawer d (R234). -/
def execS1inval (m : Master) (d : Fin 16) (s : State) : Out := .next (s.regCmd m .IOM_S1INVAL (some d) 0 1)

/-- INVAL_DONE: The keeper's invalidation ends, or that of drawer `who` (R234). -/
def execInvalDone (who : Option (Fin 16)) (s : State) : Out :=
  .next <|
    match who with
    | none => if s.live 37 then State.invalDone s else s
    | some d => if s.live 37 then s.s1InvalDone d else s

/-- DIRTY_SWAP: A write of IOM_DIRTY_CTRL with SWAP (R243). -/
def execDirtySwap (m : Master) (d : Fin 16) (s : State) : Out := .next (s.regCmd m .IOM_DIRTY_CTRL none d 1)

/-- DIRTY_SWAP_DONE: The old half has been written (R243). -/
def execDirtySwapDone (d : Fin 16) (s : State) : Out := .next (s.dirtyDone d)

end Sys2Proof.Machine
end

