-- ==== Sys2Proof/Machine/Fabric.lean ====
section
/-! DEFINITION. Islands and arbitration (ch. 2). -/

namespace Sys2Proof.Machine

/-- ARBITRATION_GRANT: Arbitration point k grants one claim; point 4 grants among the Till's queued commands (R40, R376). -/
def execArbitrationGrant (k : Fin 12) (claims : List Claim) (s : State) : Out :=
  .next (if k = 4 then s.tillGrant else s.arbGrant k claims)

/-- ISL_REQ_ON: A write of FAB_ISL_REQ_n with ON (R44). -/
def execIslReqOn (m : Master) (n : Fin 41) (s : State) : Out := .next (s.regCmd m .FAB_ISL_REQ none n 0)

/-- ISL_REQ_CLOCK_GATE: A write of FAB_ISL_REQ_n with CLOCK_GATE (R44). -/
def execIslReqClockGate (m : Master) (n : Fin 41) (s : State) : Out := .next (s.regCmd m .FAB_ISL_REQ none n 1)

/-- ISL_REQ_POWER_OFF: A write of FAB_ISL_REQ_n with POWER_OFF (R44). -/
def execIslReqPowerOff (m : Master) (n : Fin 41) (s : State) : Out := .next (s.regCmd m .FAB_ISL_REQ none n 2)

/-- ISLAND_DRAIN_END: No transfer of island n is outstanding (R44). -/
def execIslandDrainEnd (n : Fin 41) (s : State) : Out := .next (s.islandDrained n)

/-- CLAIM_BOUND_EXPIRY: The claim bound of island n expires (R45). -/
def execClaimBoundExpiry (n : Fin 41) (s : State) : Out := .next (s.claimExpire n)

/-- ISLAND_WIPE_END: The wipe of island n ends (R46, R47). -/
def execIslandWipeEnd (n : Fin 41) (s : State) : Out := .next (s.islandWiped n)

/-- ISLAND_WAKE_END: The wake time of island n passes, the MI pins at `mv` and the DRV pins at `dv`, which an ISL reset of INP reads (R44). -/
def execIslandWakeEnd (n : Fin 41) (mv : PinMv) (dv : List (Fin 16 × Nat)) (s : State) : Out :=
  .next ((if s.awake then s.sensePins mv else s).islandWoken n dv)

/-- CLAIM_INC: A write of FAB_CLAIM_n with INC (R44). -/
def execClaimInc (m : Master) (n : Fin 41) (s : State) : Out := .next (s.regCmd m .FAB_CLAIM none n 1)

/-- CLAIM_DEC: A write of FAB_CLAIM_n with DEC (R44). -/
def execClaimDec (m : Master) (n : Fin 41) (s : State) : Out := .next (s.regCmd m .FAB_CLAIM none n 2)

end Sys2Proof.Machine
end

