-- ==== Sys2Proof/Machine/Faults.lean ====
section
/-! DEFINITION. Fault classes, retirement and SAFEN at run time (ch. 21, R127). -/

namespace Sys2Proof.Machine

/-- An activation of channel c passes its first 10 µs without a fast short (R127). -/
def State.hardShortPassed (s : State) (c : Nat) : State :=
  if s.isChan c && !s.dieLost (bankOf c) && (s.lc c).hsWin then
    (s.putLc c { s.lc c with hsWin := false }).put F.LCH_PROT_HARD_SHORT 0 c
  else s

/-- What the scrubber does with what it finds in unit u (R414). -/
def State.scrub (s : State) (u : Nat) (x : ScrubFind) : State :=
  if !s.awake || s.unitOut 6 u then s
  else match x with
    | .clean => s
    | .corrected => State.sramCe s u false
    | .again => State.sramCe s u true
    | .bad => s.sramRetire u

/-- An access of a split core to its local memory meets a double-bit error: an access fault of that core. In braced mode the copy's record
shows what it read (R202). -/
def State.lmemBad (s : State) (m : Master) (addr : Nat) (op : AccOp) : State :=
  match m with
  | .mitre c => if s.mtrRuns c && s.mtrSplit && s.inLmem addr 1 then (s.coreTrap c (accFault op) (BitVec.ofNat 32 addr)).answer false 0 else s
  | _ => s

/-- An access meets an uncorrectable error: the SRAM unit it lies in retires, and the access fails with RETIRED (R414); for local memory of
the Mitre unit, R202. -/
def State.sramBad (s : State) (m : Master) (addr size : Nat) (op : AccOp) (data : Nat) : State :=
  if isSram addr && s.awake then (s.sramRetire ((addr - 0x10000000) / 0x100000)).issue m addr size op data else s.lmemBad m addr op

/-- CORE_RUNTIME_ERROR: An uncorrectable error of core c (R413). -/
def execCoreRuntimeError (c : Fin 6) (s : State) : Out := .next (if s.awake then s.coreError c else s)

/-- SCRUB_READ: The scrubber reads a word of SRAM unit u (R414). -/
def execScrubRead (u : Fin 48) (x : ScrubFind) (s : State) : Out := .next (s.scrub u x)

/-- SRAM_CORRECTABLE_ERROR: An access to SRAM unit u finds a correctable error (R414). -/
def execSramCorrectableError (u : Fin 48) (s : State) : Out :=
  .next (if s.awake && !s.unitOut 6 u then State.sramCe s u false else s)

/-- SRAM_UNCORRECTABLE_ERROR: An access finds an uncorrectable error (R414). -/
def execSramUncorrectableError (m : Master) (addr : BitVec 40) (size : Fin 9) (op : AccOp) (data : BitVec 64) (s : State) : Out :=
  .next (s.sramBad m addr.toNat size op data.toNat)

/-- RETIREMENT_CLEAR: A write of FAB_RET_CLR with KEY (R417). -/
def execRetirementClear (m : Master) (kind : Fin 8) (unit : Fin 128) (s : State) : Out :=
  .next (s.regCmd m .FAB_RET_CLR none 0 (keyed 0x3D9E (unit * 256 + kind)))

/-- SAFEN_RELEASE: A write of FAB_SAFEN_CTRL with RELEASE and KEY, FORCE as given (R423). -/
def execSafenRelease (m : Master) (force : Bool) (s : State) : Out :=
  .next (s.regCmd m .FAB_SAFEN_CTRL none 0 (keyed 0x5A4F (1 + 2 * b2n force)))

/-- SAFEN_FORCE: A write of FAB_SAFEN_CTRL with KEY that sets or clears FORCE (R421). -/
def execSafenForce (m : Master) (on : Bool) (s : State) : Out :=
  .next (s.regCmd m .FAB_SAFEN_CTRL none 0 (keyed 0x5A4F (2 * b2n on)))

/-- SAFEN_MASK_WRITE: A write of FAB_SAFEN_MASK (R422). -/
def execSafenMaskWrite (m : Master) (w : BitVec 32) (s : State) : Out := .next (s.regCmd m .FAB_SAFEN_MASK none 0 w.toNat)

/-- HARD_SHORT_WINDOW_END: An activation of channel c passes 10 µs without a fast short (R127). -/
def execHardShortWindowEnd (c : Fin 96) (s : State) : Out := .next (s.hardShortPassed c)

/-- CE_WINDOW_END: The 24 h window of SRAM unit u ends (R414). -/
def execCeWindowEnd (u : Fin 48) (s : State) : Out := .next (if s.awake then s.put F.FAB_SRAM_CE_WINDOW 0 u else s)

end Sys2Proof.Machine
end

