-- ==== Sys2Proof/Machine/Inputs.lean ====
section
/-! DEFINITION. Multifunction inputs and Clamp rules (ch. 7). -/

namespace Sys2Proof.Machine

/-- Whether the Clamp network evaluates rule r: it has power, an image was taken since, and the image enables the rule (R150, R155). -/
def State.ruleLive (s : State) (r : Nat) : Bool :=
  s.awake && !s.start.wasOff && s.ruleOn r && s.get F.CLP_STAT_STATE r != Rule.disabled

/-- The comparators see the voltages `mv`; if rule r then has the result `v`, it moves (R149, R150). -/
def State.ruleInput (s : State) (r : Nat) (mv : PinMv) (v : Bool) : State :=
  let s := if s.awake then s.sensePins mv else s
  if s.ruleLive r && s.ruleNow r == v then (s.ruleShow r).ruleMove r v else s

/-- The synchronised comparator value of pin p has held for FILTER µs at `mv`: LEVEL takes it (R142). -/
def State.miHeld (s : State) (p mv : Nat) : State := let s := s.sense p mv; s.miLevel p (s.cmpOut p)

/-- A step of pin p in one of the modes `l`, when it is in service (R141, R147). -/
def State.onPin (s : State) (p : Nat) (l : List Nat) (f : State → State) : State :=
  if s.live 19 && l.contains (s.miMode p) && s.miLive p then f s else s

/-- CLAMP_RESULT_TRUE: The result of rule r goes true, with the MI pins at `mv` (R150). -/
def execClampResultTrue (r : Fin 64) (mv : PinMv) (s : State) : Out := .next (s.ruleInput r mv true)

/-- CLAMP_RESULT_FALSE: The result of rule r goes false, with the MI pins at `mv` (R150). -/
def execClampResultFalse (r : Fin 64) (mv : PinMv) (s : State) : Out := .next (s.ruleInput r mv false)

/-- CLAMP_ACK: A write of CLP_ACK with ACK for a rule, with the MI pins as they are in that cycle (R151). -/
def execClampAck (m : Master) (x : RulePins) (s : State) : Out :=
  .next ((if s.awake then s.sensePins x.pins else s).regCmd m .CLP_ACK none 0 (2 ^ 31 + x.rule))

/-- MI_LEVEL_CHANGE: The comparator of a DIGITAL pin has held for FILTER µs, the pin standing at `mv` (R141, R142). -/
def execMiLevelChange (p : Fin 128) (mv : Nat) (s : State) : Out := .next (s.onPin p [1] fun s => s.miHeld p mv)

/-- ANALOG_CONVERSION: A conversion of an analog or resistive pin ends; `comp` says the pin stood at the compliance voltage (R143, R144). -/
def execAnalogConversion (p : Fin 128) (code : BitVec 12) (comp : Bool) (s : State) : Out :=
  .next (s.onPin p [2, 3, 4] fun s => s.miConvert p code.toNat comp)

/-- FREQ_RISING_EDGE: An accepted rising edge, `ticks` of 10 ns after the previous one (R145). -/
def execFreqRisingEdge (p : Fin 128) (ticks : BitVec 32) (s : State) : Out :=
  .next (s.onPin p [5] fun s => s.miEdge p ticks.toNat)

/-- FREQ_STALL: No accepted rising edge for 2 s (R145). -/
def execFreqStall (p : Fin 128) (s : State) : Out := .next (s.onPin p [5] fun s => s.miStall p)

end Sys2Proof.Machine
end

