-- ==== Sys2Proof/Machine/LatheEngine.lean ====
section
/-! DEFINITION. The Lathe engine's tasks, errors, restarts and retentive image (ch. 8). -/

namespace Sys2Proof.Machine

/-- A release instant of cyclic task k (R171, R176): an instance starts, or an overrun is counted. At any other timebase nothing happens. -/
def State.taskRelease (s : State) (k : Nat) : State :=
  if !s.latheRuns || s.phase == Ph.toSleep || !s.releaseDue k then s
  else
  let s := s.putTk k { s.tk k with made := some s.tbUs }
  if s.taskState k = Task.idle then s.release k (s.tbUs * 1000 * 2 ^ 32)
  else if s.taskState k = Task.busy then
    let s := (s.bump F.LTH_TASK_OVR_OVERRUNS 1 k).raise F.LTH_TASK_STAT_OVR_EV 1 k 0 0 (s.taskOwner k) 3 k
    s.faultRun k 0x01 0
  else s

/-- The instance on lane l is abandoned once its own cycles have reached 32,768 (R174). -/
def State.instanceLimit (s : State) (l : Nat) : State :=
  match s.laneTask l with
  | some k => if s.latheRuns && decide (32768 ≤ (s.tk k).cycles) then s.limitRun k else s
  | none => s

/-- The commit unit ends the oldest commit (R175). -/
def State.commitNext (s : State) (resp : Nat) : State :=
  match s.lth.commitQ with
  | k :: _ => if s.latheRuns then State.commit s k resp else s
  | [] => s

/-- The error task's release (R178). -/
def State.errorRelease (s : State) : State :=
  if s.latheRuns && s.phase != Ph.toSleep && !s.lth.errs.isEmpty && s.taskState 8 == Task.idle then s.release 8 s.ztm.tb else s

/-- The initialisation of a restart by command ends (R180). -/
def State.initEnd (s : State) : State :=
  if s.latheLive && s.phase == Ph.run && s.engine == Eng.starting then (s.latheInit false).enterRunning else s

/-- The save that a STOP began ends (R181). -/
def State.saveDone (s : State) : State :=
  match s.lth.saving with
  | some im => s.retCommit im
  | none => s

/-- TASK_RELEASE: Cyclic task k reaches its release instant (R171). -/
def execTaskRelease (k : Fin 8) (s : State) : Out := .next (State.taskRelease s k)

/-- LATCH_COMPLETE: The latch of task k completes (R173). -/
def execLatchComplete (k : Fin 9) (s : State) : Out := .next (if s.latheRuns && s.latchReady k then s.latchDone k else s)

/-- INSTANCE_LIMIT: The instance on lane l reaches 32,768 cycles of its own (R174). -/
def execInstanceLimit (l : Fin 2) (s : State) : Out := .next (State.instanceLimit s l)

/-- COMMIT: The oldest commit ends; `resp` is its task's response time in 10 ns (R175). -/
def execCommit (resp : BitVec 24) (s : State) : Out := .next (s.commitNext resp.toNat)

/-- ERROR_TASK_RELEASE: The error task is released (R178). -/
def execErrorTaskRelease (s : State) : Out := .next (s.errorRelease)

/-- LTH_ERR_POP: A write of LTH_ERR_STAT with POP (R178). -/
def execLthErrPop (m : Master) (s : State) : Out := .next (s.regCmd m .LTH_ERR_STAT none 0 256)

/-- TASK_START: A write of LTH_TASK_CTRL_k with START (R177). -/
def execTaskStart (m : Master) (v : Option (Fin 16)) (k : Fin 9) (s : State) : Out := .next (s.regCmd m .LTH_TASK_CTRL v k 1)

/-- LATHE_STOP: A write of LTH_CTRL with STOP (R182). -/
def execLatheStop (m : Master) (s : State) : Out := .next (s.regCmd m .LTH_CTRL none 0 (keyed 0x3E71 1))

/-- LATHE_RUN_WARM: A write of LTH_CTRL with RUN_WARM (R182). -/
def execLatheRunWarm (m : Master) (s : State) : Out := .next (s.regCmd m .LTH_CTRL none 0 (keyed 0x3E71 2))

/-- LATHE_RUN_COLD: A write of LTH_CTRL with RUN_COLD (R182). -/
def execLatheRunCold (m : Master) (s : State) : Out := .next (s.regCmd m .LTH_CTRL none 0 (keyed 0x3E71 3))

/-- LATHE_INIT_END: The initialisation of a restart ends (R180). -/
def execLatheInitEnd (s : State) : Out := .next (s.initEnd)

/-- RETENTIVE_SAVE_DONE: A save commits its journal marker (R181). -/
def execRetentiveSaveDone (s : State) : Out := .next (s.saveDone)

/-- LATHE_RELOAD_DONE: The program is reloaded after an ISL of LTH (R183). -/
def execLatheReloadDone (s : State) : Out := .next (if s.live 13 && s.lth.reloading then s.reloaded else s)

/-- SLOT_DATA_READ: A read of LTH_SLOT_DATA (R158). -/
def execSlotDataRead (m : Master) (v : Option (Fin 16)) (s : State) : Out := .next (s.regAsk m .LTH_SLOT_DATA v 0)

end Sys2Proof.Machine
end

