-- ==== Sys2Proof/Machine/LatheLane.lean ====
section
/-! DEFINITION. The Lathe's operations: what a lane does for one operation word (R164 to R170). -/

namespace Sys2Proof.Machine

/-- The 64-bit word of the operation at which task k stands (R164). -/
def State.opAt (s : State) (k : Nat) : Nat := s.lw (s.opBase + 2 * (s.tk k).pc) + 2 ^ 32 * s.lw (s.opBase + 2 * (s.tk k).pc + 1)

/-- No operand B. -/
def OpSrc.none : OpSrc := .slot 0

/-- The fields B and IMM of an operand (R164). -/
def OpSrc.bits : OpSrc → Nat
  | .slot n => n.toNat * 2 ^ 36
  | .imm v => v.toNat * 2 ^ 36 + 2 ^ 55

/-- The fields P and PN of a condition (R164). -/
def OpCond.bits : OpCond → Nat
  | .always => 0
  | .p => 2 ^ 56
  | .pn => 2 ^ 57

/-- The word of an operation with its fields (R164). -/
def opWord (opc : Nat) (c : OpCond) (d a : Nat) (b : OpSrc) (bit : Nat) : Nat :=
  opc + d * 2 ^ 8 + a * 2 ^ 22 + b.bits + bit * 2 ^ 50 + c.bits

/-- The word of a jump or call with its target (R164). -/
def jumpWord (opc t : Nat) : Nat := opc + t * 2 ^ 22

/-- The 64-bit word that an operation has in the program (R164, R166); 0 for a command that is none. -/
def laneWord (c : Instr) : Nat :=
  match c with
  | .opNop _ => opWord 0x00 .always 0 0 OpSrc.none 0
  | .opMov _ c d b => opWord 0x01 c d.toNat 0 b 0
  | .opLdb _ c a bit => opWord 0x02 c 0 a.toNat OpSrc.none bit.toNat
  | .opLdbn _ c a bit => opWord 0x03 c 0 a.toNat OpSrc.none bit.toNat
  | .opAndb _ c a bit => opWord 0x04 c 0 a.toNat OpSrc.none bit.toNat
  | .opAndbn _ c a bit => opWord 0x05 c 0 a.toNat OpSrc.none bit.toNat
  | .opOrb _ c a bit => opWord 0x06 c 0 a.toNat OpSrc.none bit.toNat
  | .opOrbn _ c a bit => opWord 0x07 c 0 a.toNat OpSrc.none bit.toNat
  | .opXorb _ c a bit => opWord 0x08 c 0 a.toNat OpSrc.none bit.toNat
  | .opStb _ c d bit => opWord 0x09 c d.toNat 0 OpSrc.none bit.toNat
  | .opStbn _ c d bit => opWord 0x0A c d.toNat 0 OpSrc.none bit.toNat
  | .opSetb _ c d bit => opWord 0x0B c d.toNat 0 OpSrc.none bit.toNat
  | .opRstb _ c d bit => opWord 0x0C c d.toNat 0 OpSrc.none bit.toNat
  | .opNotf _ c => opWord 0x0D c 0 0 OpSrc.none 0
  | .opLdf _ c a => opWord 0x0E c 0 a.toNat OpSrc.none 0
  | .opStf _ c d => opWord 0x0F c d.toNat 0 OpSrc.none 0
  | .opAdd _ c d a b => opWord 0x10 c d.toNat a.toNat b 0
  | .opSub _ c d a b => opWord 0x11 c d.toNat a.toNat b 0
  | .opMul _ c d a b => opWord 0x12 c d.toNat a.toNat b 0
  | .opDiv _ c d a b => opWord 0x13 c d.toNat a.toNat b 0
  | .opMod _ c d a b => opWord 0x14 c d.toNat a.toNat b 0
  | .opAnd _ c d a b => opWord 0x15 c d.toNat a.toNat b 0
  | .opOr _ c d a b => opWord 0x16 c d.toNat a.toNat b 0
  | .opXor _ c d a b => opWord 0x17 c d.toNat a.toNat b 0
  | .opNot _ c d a => opWord 0x18 c d.toNat a.toNat OpSrc.none 0
  | .opShl _ c d a b => opWord 0x19 c d.toNat a.toNat b 0
  | .opShr _ c d a b => opWord 0x1A c d.toNat a.toNat b 0
  | .opSar _ c d a b => opWord 0x1B c d.toNat a.toNat b 0
  | .opRol _ c d a b => opWord 0x1C c d.toNat a.toNat b 0
  | .opMin _ c d a b => opWord 0x1D c d.toNat a.toNat b 0
  | .opMax _ c d a b => opWord 0x1E c d.toNat a.toNat b 0
  | .opLimit _ c d a b => opWord 0x1F c d.toNat a.toNat b 0
  | .opEq _ c a b => opWord 0x20 c 0 a.toNat b 0
  | .opNe _ c a b => opWord 0x21 c 0 a.toNat b 0
  | .opLt _ c a b => opWord 0x22 c 0 a.toNat b 0
  | .opLe _ c a b => opWord 0x23 c 0 a.toNat b 0
  | .opGt _ c a b => opWord 0x24 c 0 a.toNat b 0
  | .opGe _ c a b => opWord 0x25 c 0 a.toNat b 0
  | .opLtu _ c a b => opWord 0x26 c 0 a.toNat b 0
  | .opGeu _ c a b => opWord 0x27 c 0 a.toNat b 0
  | .opFadd _ c d a b => opWord 0x30 c d.toNat a.toNat b 0
  | .opFsub _ c d a b => opWord 0x31 c d.toNat a.toNat b 0
  | .opFmul _ c d a b => opWord 0x32 c d.toNat a.toNat b 0
  | .opFdiv _ c d a b => opWord 0x33 c d.toNat a.toNat b 0
  | .opFsqrt _ c d a => opWord 0x34 c d.toNat a.toNat OpSrc.none 0
  | .opFmin _ c d a b => opWord 0x35 c d.toNat a.toNat b 0
  | .opFmax _ c d a b => opWord 0x36 c d.toNat a.toNat b 0
  | .opFabs _ c d a => opWord 0x37 c d.toNat a.toNat OpSrc.none 0
  | .opFneg _ c d a => opWord 0x38 c d.toNat a.toNat OpSrc.none 0
  | .opFlt _ c a b => opWord 0x39 c 0 a.toNat b 0
  | .opFle _ c a b => opWord 0x3A c 0 a.toNat b 0
  | .opFeq _ c a b => opWord 0x3B c 0 a.toNat b 0
  | .opItof _ c d a => opWord 0x3C c d.toNat a.toNat OpSrc.none 0
  | .opFtoi _ c d a => opWord 0x3D c d.toNat a.toNat OpSrc.none 0
  | .opSel _ c d a b => opWord 0x40 c d.toNat a.toNat b 0
  | .opLdx _ c d a b => opWord 0x41 c d.toNat a.toNat b 0
  | .opStx _ c d a b => opWord 0x42 c d.toNat a.toNat b 0
  | .opRedge _ d => opWord 0x50 .always d.toNat 0 OpSrc.none 0
  | .opFedge _ d => opWord 0x51 .always d.toNat 0 OpSrc.none 0
  | .opTon _ d a => opWord 0x52 .always d.toNat a.toNat OpSrc.none 0
  | .opTof _ d a => opWord 0x53 .always d.toNat a.toNat OpSrc.none 0
  | .opTp _ d a => opWord 0x54 .always d.toNat a.toNat OpSrc.none 0
  | .opCtu _ d a => opWord 0x58 .always d.toNat a.toNat OpSrc.none 0
  | .opCtd _ d a => opWord 0x59 .always d.toNat a.toNat OpSrc.none 0
  | .opCload _ d a => opWord 0x5A .always d.toNat a.toNat OpSrc.none 0
  | .opJmp _ t => jumpWord 0x60 t.toNat
  | .opJf _ t => jumpWord 0x61 t.toNat
  | .opJnf _ t => jumpWord 0x62 t.toNat
  | .opCall _ t => jumpWord 0x63 t.toNat
  | .opRet _ => opWord 0x64 .always 0 0 OpSrc.none 0
  | .opEnd _ => opWord 0x66 .always 0 0 OpSrc.none 0
  | .opRdtb _ c d => opWord 0x70 c d.toNat 0 OpSrc.none 0
  | .opRdzt _ c d => opWord 0x71 c d.toNat 0 OpSrc.none 0
  | .opTrap _ c b => opWord 0x72 c 0 0 b 0
  | _ => 0

/-- The operation with word `w` on lane l (R172, R174): it runs only as the operation at which the lane's task stands, and a task whose own
cycles have reached 32,768 is abandoned at this boundary instead. -/
def State.onLane (s : State) (l w : Nat) (f : State → Nat → State) : State :=
  match s.laneTask l with
  | some k =>
    if s.latheRuns && (s.tk k).phase == 3 then
      if 32768 ≤ (s.tk k).cycles then s.limitRun k
      else if s.opAt k = w then f s k
      else s
    else s
  | none => s

/-- The lane goes on at operation `pc` after `cost` cycles of its own. -/
def State.goto_ (s : State) (k pc cost : Nat) : State :=
  s.putTk k { s.tk k with pc := pc, cycles := (s.tk k).cycles + cost }

/-- The condition flag of task k. -/
def State.flagF (s : State) (k : Nat) : Bool := (s.tk k).flag

/-- Set the condition flag of task k. -/
def State.setF (s : State) (k : Nat) (b : Bool) : State := s.putTk k { s.tk k with flag := b }

/-- Whether an operation's condition holds (R165). -/
def OpCond.holds (c : OpCond) (f : Bool) : Bool :=
  match c with
  | .always => true
  | .p => f
  | .pn => !f

/-- One operation of lane l that ends at the next operation: its effect when its condition holds, else one cycle (R165). -/
def State.laneOp (s : State) (l w : Nat) (c : OpCond) (cost : Nat) (f : State → Nat → State) : State :=
  s.onLane l w fun s k =>
    let pc := (s.tk k).pc
    if c.holds (s.flagF k) then (f s k).goto_ k (pc + 1) cost else s.goto_ k (pc + 1) 1

/-- The value of operand B (R164, R165): a slot's value, or an immediate sign-extended to 32 bits. -/
def State.opB (s : State) (k : Nat) (b : OpSrc) : Word :=
  match b with
  | .slot n => s.readSlot k n.toNat
  | .imm v => v.signExtend 32

/-- D ← g A B. -/
def State.alu (s : State) (l w : Nat) (c : OpCond) (cost : Nat) (d a : BitVec 14) (b : OpSrc) (g : Word → Word → Word) : State :=
  s.laneOp l w c cost fun s k => s.writeSlot k d.toNat (g (s.readSlot k a.toNat) (s.opB k b))

/-- D ← g A. -/
def State.alu1 (s : State) (l w : Nat) (c : OpCond) (cost : Nat) (d a : BitVec 14) (g : Word → Word) : State :=
  s.laneOp l w c cost fun s k => s.writeSlot k d.toNat (g (s.readSlot k a.toNat))

/-- F ← g A B. -/
def State.cmp (s : State) (l w : Nat) (c : OpCond) (a : BitVec 14) (b : OpSrc) (g : Word → Word → Bool) : State :=
  s.laneOp l w c 1 fun s k => s.setF k (g (s.readSlot k a.toNat) (s.opB k b))

/-- F ← g F A[BIT]. -/
def State.bitF (s : State) (l w : Nat) (c : OpCond) (a : BitVec 14) (bit : BitVec 5) (g : Bool → Bool → Bool) : State :=
  s.laneOp l w c 1 fun s k => s.setF k (g (s.flagF k) ((s.readSlot k a.toNat).getLsbD bit.toNat))

/-- D[BIT] ← what g makes of F and D[BIT]; the bit is written beneath a force and no other bit changes (R158, R199). -/
def State.bitD (s : State) (l w : Nat) (c : OpCond) (d : BitVec 14) (bit : BitVec 5) (g : Bool → Bool → Bool) : State :=
  s.laneOp l w c 1 fun s k =>
    let v := s.beneath k d.toNat
    s.writeSlot k d.toNat (BitVec.ofNat 32 (setBitTo v.toNat bit.toNat (g (s.flagF k) (v.getLsbD bit.toNat))))

/-- DIV and MOD (R167): division by zero gives 0 and queues ARITH. -/
def State.divide (s : State) (l w : Nat) (c : OpCond) (d a : BitVec 14) (b : OpSrc) (g : Word → Word → Word) : State :=
  s.laneOp l w c 16 fun s k =>
    let y := s.opB k b
    if y = 0#32 then (s.writeSlot k d.toNat 0#32).lthErr k 0x04 (s.tk k).pc 0
    else s.writeSlot k d.toNat (g (s.readSlot k a.toNat) y)

/-- The slot A + B of LDX and STX, when it lies in the task and area of slot A (R167). -/
def State.indexed (s : State) (k : Nat) (a : BitVec 14) (b : OpSrc) : Option Nat :=
  let n := (a.toNat : Int) + (s.opB k b).toInt
  if n < 0 ∨ n ≥ s.slotCount then none
  else if s.slotTask n.toNat == s.slotTask a.toNat && s.slotArea n.toNat == s.slotArea a.toNat then some n.toNat else none

/-- An edge operation (R168): F becomes g F D[0], D[0] becomes F, and the other bits of D zero. -/
def State.edgeOp (s : State) (l w : Nat) (d : BitVec 14) (g : Bool → Bool → Bool) : State :=
  s.laneOp l w .always 1 fun s k =>
    let x := s.flagF k
    let old := (s.readSlot k d.toNat).getLsbD 0
    (s.writeSlot k d.toNat (if x then 1#32 else 0#32)).setF k (g x old)

/-- A timer's block as its operation reads it (R169): Q, RUN, the previous IN, ET and START. -/
structure TimerBlk where
  q : Bool
  run : Bool
  prev : Bool
  et : Word
  start : Word
  deriving DecidableEq, Repr

/-- What a timer operation writes (R169): Q and the previous IN always, the rest only where the table assigns it. -/
structure TimerNew where
  q : Bool
  prev : Bool
  run : Option Bool
  et : Option Word
  start : Option Word
  deriving DecidableEq, Repr

/-- The smaller of two unsigned values. -/
def minU (a b : Word) : Word := if a.toNat ≤ b.toNat then a else b

/-- TON (R169). -/
def timerTon (x : TimerBlk) (inp : Bool) (now pt : Word) : TimerNew :=
  if !inp then ⟨false, false, none, some 0#32, none⟩
  else if x.prev && x.q then ⟨true, true, none, some pt, none⟩
  else
    let et := minU (now - if x.prev then x.start else now) pt
    ⟨decide (et.toNat ≥ pt.toNat), true, none, some et, if x.prev then none else some now⟩

/-- TOF (R169). -/
def timerTof (x : TimerBlk) (inp : Bool) (now pt : Word) : TimerNew :=
  if inp then ⟨true, true, some false, some 0#32, none⟩
  else if x.prev || x.run then
    let et := minU (now - if x.prev then now else x.start) pt
    ⟨decide (et.toNat < pt.toNat), false, some (decide (et ≠ pt)), some et, if x.prev then some now else none⟩
  else ⟨false, false, none, none, none⟩

/-- TP (R169). -/
def timerTp (x : TimerBlk) (inp : Bool) (now pt : Word) : TimerNew :=
  let rise := inp && !x.prev && !x.run
  if rise || x.run then
    let et := minU (now - if rise then now else x.start) pt
    let run := decide (et ≠ pt)
    ⟨run, inp, some run, some (if !run && !inp then 0#32 else et), if rise then some now else none⟩
  else ⟨false, inp, none, if inp then none else some 0#32, none⟩

/-- A slot written only where a value is given. -/
def State.writeIf (s : State) (k n : Nat) (v : Option Word) : State :=
  match v with
  | some v => s.writeSlot k n v
  | none => s

/-- The flags word of a timer after its operation: the bits the table assigns, the others as they were. -/
def TimerNew.flags (y : TimerNew) (v : Nat) : Nat :=
  let v := setBitTo (setBitTo v 0 y.q) 2 y.prev
  match y.run with
  | some r => setBitTo v 1 r
  | none => v

/-- A timer operation (R169): now is the timebase at the release, IN is F, and F becomes Q. Its writes go beneath a force. -/
def State.timerOp (s : State) (l w : Nat) (d a : BitVec 14) (g : TimerBlk → Bool → Word → Word → TimerNew) : State :=
  s.laneOp l w .always 2 fun s k =>
    let n := d.toNat
    let w := s.readSlot k n
    let x : TimerBlk := ⟨w.getLsbD 0, w.getLsbD 1, w.getLsbD 2, s.readSlot k (n + 1), s.readSlot k (n + 2)⟩
    let y := g x (s.flagF k) (BitVec.ofNat 32 (s.tk k).relUs) (s.readSlot k a.toNat)
    let s := s.writeSlot k n (BitVec.ofNat 32 (y.flags (s.beneath k n).toNat))
    ((s.writeIf k (n + 1) y.et).writeIf k (n + 2) y.start).setF k y.q

/-- A counter operation (R170): bit `b` of D is the previous input, `step` what a rising input makes of CV, `done` what F
becomes. Its writes go beneath a force. -/
def State.counterOp (s : State) (l w : Nat) (d a : BitVec 14) (b : Nat) (step : Int → Int) (done : Int → Int → Bool) : State :=
  s.laneOp l w .always 1 fun s k =>
    let n := d.toNat
    let f := s.flagF k
    let rise := f && !(s.readSlot k n).getLsbD b
    let cv := (s.readSlot k (n + 1)).toInt
    let pv := (s.readSlot k a.toNat).toInt
    let s := s.writeIf k (n + 1) (if rise then some (BitVec.ofInt 32 (step cv)) else none)
    let s := s.writeSlot k n (BitVec.ofNat 32 (setBitTo (s.beneath k n).toNat b f))
    s.setF k (done (if rise then step cv else cv) pv)

/-- A jump (R166): to T when `taken` holds of F, for `cost` cycles; else on, for one. -/
def State.jump (s : State) (l w : Nat) (t : BitVec 16) (taken : Bool → Bool) : State :=
  s.onLane l w fun s k =>
    if taken (s.flagF k) then s.goto_ k t.toNat 2 else s.goto_ k ((s.tk k).pc + 1) 1

/-- RET (R166, R167): an empty stack ends the execute phase. -/
def State.retOp (s : State) (l w : Nat) : State :=
  s.onLane l w fun s k =>
    match (s.tk k).stack with
    | r :: rest => (s.putTk k { s.tk k with stack := rest }).goto_ k r 2
    | [] => (s.goto_ k (s.tk k).pc 2).execEnd l

/-- NOP: Nothing; one cycle (R166). -/
def execOpNop (l : Fin 2) (s : State) : Out := .next (s.laneOp l (laneWord (.opNop l)) .always 1 fun s _ => s)

/-- MOV: D ← B (R166). -/
def execOpMov (l : Fin 2) (c : OpCond) (d : BitVec 14) (b : OpSrc) (s : State) : Out :=
  .next (s.laneOp l (laneWord (.opMov l c d b)) c 1 fun s k => s.writeSlot k d.toNat (s.opB k b))

/-- LDB: F ← A[BIT] (R166). -/
def execOpLdb (l : Fin 2) (c : OpCond) (a : BitVec 14) (bit : BitVec 5) (s : State) : Out :=
  .next (s.bitF l (laneWord (.opLdb l c a bit)) c a bit (fun _ x => x))

/-- LDBN: F ← ¬A[BIT] (R166). -/
def execOpLdbn (l : Fin 2) (c : OpCond) (a : BitVec 14) (bit : BitVec 5) (s : State) : Out :=
  .next (s.bitF l (laneWord (.opLdbn l c a bit)) c a bit (fun _ x => !x))

/-- ANDB: F ← F ∧ A[BIT] (R166). -/
def execOpAndb (l : Fin 2) (c : OpCond) (a : BitVec 14) (bit : BitVec 5) (s : State) : Out :=
  .next (s.bitF l (laneWord (.opAndb l c a bit)) c a bit (fun f x => f && x))

/-- ANDBN: F ← F ∧ ¬A[BIT] (R166). -/
def execOpAndbn (l : Fin 2) (c : OpCond) (a : BitVec 14) (bit : BitVec 5) (s : State) : Out :=
  .next (s.bitF l (laneWord (.opAndbn l c a bit)) c a bit (fun f x => f && !x))

/-- ORB: F ← F ∨ A[BIT] (R166). -/
def execOpOrb (l : Fin 2) (c : OpCond) (a : BitVec 14) (bit : BitVec 5) (s : State) : Out :=
  .next (s.bitF l (laneWord (.opOrb l c a bit)) c a bit (fun f x => f || x))

/-- ORBN: F ← F ∨ ¬A[BIT] (R166). -/
def execOpOrbn (l : Fin 2) (c : OpCond) (a : BitVec 14) (bit : BitVec 5) (s : State) : Out :=
  .next (s.bitF l (laneWord (.opOrbn l c a bit)) c a bit (fun f x => f || !x))

/-- XORB: F ← F ⊕ A[BIT] (R166). -/
def execOpXorb (l : Fin 2) (c : OpCond) (a : BitVec 14) (bit : BitVec 5) (s : State) : Out :=
  .next (s.bitF l (laneWord (.opXorb l c a bit)) c a bit (fun f x => f != x))

/-- STB: D[BIT] ← F (R166). -/
def execOpStb (l : Fin 2) (c : OpCond) (d : BitVec 14) (bit : BitVec 5) (s : State) : Out :=
  .next (s.bitD l (laneWord (.opStb l c d bit)) c d bit (fun f _ => f))

/-- STBN: D[BIT] ← ¬F (R166). -/
def execOpStbn (l : Fin 2) (c : OpCond) (d : BitVec 14) (bit : BitVec 5) (s : State) : Out :=
  .next (s.bitD l (laneWord (.opStbn l c d bit)) c d bit (fun f _ => !f))

/-- SETB: If F, D[BIT] ← 1 (R166). -/
def execOpSetb (l : Fin 2) (c : OpCond) (d : BitVec 14) (bit : BitVec 5) (s : State) : Out :=
  .next (s.bitD l (laneWord (.opSetb l c d bit)) c d bit (fun f x => x || f))

/-- RSTB: If F, D[BIT] ← 0 (R166). -/
def execOpRstb (l : Fin 2) (c : OpCond) (d : BitVec 14) (bit : BitVec 5) (s : State) : Out :=
  .next (s.bitD l (laneWord (.opRstb l c d bit)) c d bit (fun f x => x && !f))

/-- NOTF: F ← ¬F (R166). -/
def execOpNotf (l : Fin 2) (c : OpCond) (s : State) : Out :=
  .next (s.laneOp l (laneWord (.opNotf l c)) c 1 fun s k => s.setF k (!s.flagF k))

/-- LDF: F ← (A ≠ 0) (R166). -/
def execOpLdf (l : Fin 2) (c : OpCond) (a : BitVec 14) (s : State) : Out :=
  .next (s.laneOp l (laneWord (.opLdf l c a)) c 1 fun s k => s.setF k (s.readSlot k a.toNat != 0#32))

/-- STF: D ← F (R166). -/
def execOpStf (l : Fin 2) (c : OpCond) (d : BitVec 14) (s : State) : Out :=
  .next (s.laneOp l (laneWord (.opStf l c d)) c 1 fun s k => s.writeSlot k d.toNat (if s.flagF k then 1#32 else 0#32))

/-- ADD: D ← A + B modulo 2³² (R166). -/
def execOpAdd (l : Fin 2) (c : OpCond) (d a : BitVec 14) (b : OpSrc) (s : State) : Out :=
  .next (s.alu l (laneWord (.opAdd l c d a b)) c 1 d a b (fun x y => x + y))

/-- SUB: D ← A − B modulo 2³² (R166). -/
def execOpSub (l : Fin 2) (c : OpCond) (d a : BitVec 14) (b : OpSrc) (s : State) : Out :=
  .next (s.alu l (laneWord (.opSub l c d a b)) c 1 d a b (fun x y => x - y))

/-- MUL: D ← low 32 bits of A × B (R166). -/
def execOpMul (l : Fin 2) (c : OpCond) (d a : BitVec 14) (b : OpSrc) (s : State) : Out :=
  .next (s.alu l (laneWord (.opMul l c d a b)) c 2 d a b (fun x y => x * y))

/-- DIV: D ← A / B, signed, truncated toward zero (R166, R167). -/
def execOpDiv (l : Fin 2) (c : OpCond) (d a : BitVec 14) (b : OpSrc) (s : State) : Out :=
  .next (s.divide l (laneWord (.opDiv l c d a b)) c d a b BitVec.sdiv)

/-- MOD: D ← A − (A / B) × B (R166, R167). -/
def execOpMod (l : Fin 2) (c : OpCond) (d a : BitVec 14) (b : OpSrc) (s : State) : Out :=
  .next (s.divide l (laneWord (.opMod l c d a b)) c d a b BitVec.srem)

/-- AND: D ← bitwise and of A and B (R166). -/
def execOpAnd (l : Fin 2) (c : OpCond) (d a : BitVec 14) (b : OpSrc) (s : State) : Out :=
  .next (s.alu l (laneWord (.opAnd l c d a b)) c 1 d a b (fun x y => x &&& y))

/-- OR: D ← bitwise or of A and B (R166). -/
def execOpOr (l : Fin 2) (c : OpCond) (d a : BitVec 14) (b : OpSrc) (s : State) : Out :=
  .next (s.alu l (laneWord (.opOr l c d a b)) c 1 d a b (fun x y => x ||| y))

/-- XOR: D ← bitwise exclusive or of A and B (R166). -/
def execOpXor (l : Fin 2) (c : OpCond) (d a : BitVec 14) (b : OpSrc) (s : State) : Out :=
  .next (s.alu l (laneWord (.opXor l c d a b)) c 1 d a b (fun x y => x ^^^ y))

/-- NOT: D ← bitwise ¬A (R166). -/
def execOpNot (l : Fin 2) (c : OpCond) (d a : BitVec 14) (s : State) : Out :=
  .next (s.alu1 l (laneWord (.opNot l c d a)) c 1 d a fun x => ~~~x)

/-- SHL: D ← A shifted left by B mod 32 (R166). -/
def execOpShl (l : Fin 2) (c : OpCond) (d a : BitVec 14) (b : OpSrc) (s : State) : Out :=
  .next (s.alu l (laneWord (.opShl l c d a b)) c 1 d a b (fun x y => x <<< (y.toNat % 32)))

/-- SHR: D ← A shifted right logically by B mod 32 (R166). -/
def execOpShr (l : Fin 2) (c : OpCond) (d a : BitVec 14) (b : OpSrc) (s : State) : Out :=
  .next (s.alu l (laneWord (.opShr l c d a b)) c 1 d a b (fun x y => x >>> (y.toNat % 32)))

/-- SAR: D ← A shifted right arithmetically by B mod 32 (R166). -/
def execOpSar (l : Fin 2) (c : OpCond) (d a : BitVec 14) (b : OpSrc) (s : State) : Out :=
  .next (s.alu l (laneWord (.opSar l c d a b)) c 1 d a b (fun x y => x.sshiftRight (y.toNat % 32)))

/-- ROL: D ← A rotated left by B mod 32 (R166). -/
def execOpRol (l : Fin 2) (c : OpCond) (d a : BitVec 14) (b : OpSrc) (s : State) : Out :=
  .next (s.alu l (laneWord (.opRol l c d a b)) c 1 d a b (fun x y => x.rotateLeft (y.toNat % 32)))

/-- MIN: D ← the signed minimum of A and B (R166). -/
def execOpMin (l : Fin 2) (c : OpCond) (d a : BitVec 14) (b : OpSrc) (s : State) : Out :=
  .next (s.alu l (laneWord (.opMin l c d a b)) c 1 d a b (fun x y => if x.toInt ≤ y.toInt then x else y))

/-- MAX: D ← the signed maximum of A and B (R166). -/
def execOpMax (l : Fin 2) (c : OpCond) (d a : BitVec 14) (b : OpSrc) (s : State) : Out :=
  .next (s.alu l (laneWord (.opMax l c d a b)) c 1 d a b (fun x y => if x.toInt ≤ y.toInt then y else x))

/-- LIMIT: D ← min(max(D, A), B), signed (R166). -/
def execOpLimit (l : Fin 2) (c : OpCond) (d a : BitVec 14) (b : OpSrc) (s : State) : Out :=
  .next <|
    s.laneOp l (laneWord (.opLimit l c d a b)) c 1 fun s k =>
      let lo := s.readSlot k a.toNat
      let hi := s.opB k b
      let x := s.readSlot k d.toNat
      let x := if x.toInt ≤ lo.toInt then lo else x
      s.writeSlot k d.toNat (if x.toInt ≤ hi.toInt then x else hi)

/-- EQ: F ← (A = B) (R166). -/
def execOpEq (l : Fin 2) (c : OpCond) (a : BitVec 14) (b : OpSrc) (s : State) : Out :=
  .next (s.cmp l (laneWord (.opEq l c a b)) c a b (fun x y => x == y))

/-- NE: F ← (A ≠ B) (R166). -/
def execOpNe (l : Fin 2) (c : OpCond) (a : BitVec 14) (b : OpSrc) (s : State) : Out :=
  .next (s.cmp l (laneWord (.opNe l c a b)) c a b (fun x y => x != y))

/-- LT: F ← (A < B, signed) (R166). -/
def execOpLt (l : Fin 2) (c : OpCond) (a : BitVec 14) (b : OpSrc) (s : State) : Out :=
  .next (s.cmp l (laneWord (.opLt l c a b)) c a b (fun x y => x.slt y))

/-- LE: F ← (A ≤ B, signed) (R166). -/
def execOpLe (l : Fin 2) (c : OpCond) (a : BitVec 14) (b : OpSrc) (s : State) : Out :=
  .next (s.cmp l (laneWord (.opLe l c a b)) c a b (fun x y => x.sle y))

/-- GT: F ← (A > B, signed) (R166). -/
def execOpGt (l : Fin 2) (c : OpCond) (a : BitVec 14) (b : OpSrc) (s : State) : Out :=
  .next (s.cmp l (laneWord (.opGt l c a b)) c a b (fun x y => y.slt x))

/-- GE: F ← (A ≥ B, signed) (R166). -/
def execOpGe (l : Fin 2) (c : OpCond) (a : BitVec 14) (b : OpSrc) (s : State) : Out :=
  .next (s.cmp l (laneWord (.opGe l c a b)) c a b (fun x y => y.sle x))

/-- LTU: F ← (A < B, unsigned) (R166). -/
def execOpLtu (l : Fin 2) (c : OpCond) (a : BitVec 14) (b : OpSrc) (s : State) : Out :=
  .next (s.cmp l (laneWord (.opLtu l c a b)) c a b (fun x y => x.ult y))

/-- GEU: F ← (A ≥ B, unsigned) (R166). -/
def execOpGeu (l : Fin 2) (c : OpCond) (a : BitVec 14) (b : OpSrc) (s : State) : Out :=
  .next (s.cmp l (laneWord (.opGeu l c a b)) c a b (fun x y => y.ule x))

/-- FADD: D ← the binary32 sum (R166, R167). -/
def execOpFadd (l : Fin 2) (c : OpCond) (d a : BitVec 14) (b : OpSrc) (s : State) : Out :=
  .next (s.alu l (laneWord (.opFadd l c d a b)) c 2 d a b fpAdd)

/-- FSUB: D ← the binary32 difference (R166, R167). -/
def execOpFsub (l : Fin 2) (c : OpCond) (d a : BitVec 14) (b : OpSrc) (s : State) : Out :=
  .next (s.alu l (laneWord (.opFsub l c d a b)) c 2 d a b fpSub)

/-- FMUL: D ← the binary32 product (R166, R167). -/
def execOpFmul (l : Fin 2) (c : OpCond) (d a : BitVec 14) (b : OpSrc) (s : State) : Out :=
  .next (s.alu l (laneWord (.opFmul l c d a b)) c 2 d a b fpMul)

/-- FDIV: D ← the binary32 quotient (R166, R167). -/
def execOpFdiv (l : Fin 2) (c : OpCond) (d a : BitVec 14) (b : OpSrc) (s : State) : Out :=
  .next (s.alu l (laneWord (.opFdiv l c d a b)) c 8 d a b fpDiv)

/-- FSQRT: D ← the binary32 square root of A (R166, R167). -/
def execOpFsqrt (l : Fin 2) (c : OpCond) (d a : BitVec 14) (s : State) : Out :=
  .next (s.alu1 l (laneWord (.opFsqrt l c d a)) c 8 d a fpSqrt)

/-- FMIN: D ← the binary32 minimum (R166). -/
def execOpFmin (l : Fin 2) (c : OpCond) (d a : BitVec 14) (b : OpSrc) (s : State) : Out :=
  .next (s.alu l (laneWord (.opFmin l c d a b)) c 1 d a b fpMin)

/-- FMAX: D ← the binary32 maximum (R166). -/
def execOpFmax (l : Fin 2) (c : OpCond) (d a : BitVec 14) (b : OpSrc) (s : State) : Out :=
  .next (s.alu l (laneWord (.opFmax l c d a b)) c 1 d a b fpMax)

/-- FABS: D ← A with its sign bit clear (R166). -/
def execOpFabs (l : Fin 2) (c : OpCond) (d a : BitVec 14) (s : State) : Out :=
  .next (s.alu1 l (laneWord (.opFabs l c d a)) c 1 d a fpAbs)

/-- FNEG: D ← A with its sign bit inverted (R166). -/
def execOpFneg (l : Fin 2) (c : OpCond) (d a : BitVec 14) (s : State) : Out :=
  .next (s.alu1 l (laneWord (.opFneg l c d a)) c 1 d a fpNeg)

/-- FLT: F ← (A < B) in binary32 (R166). -/
def execOpFlt (l : Fin 2) (c : OpCond) (a : BitVec 14) (b : OpSrc) (s : State) : Out :=
  .next (s.cmp l (laneWord (.opFlt l c a b)) c a b fpLt)

/-- FLE: F ← (A ≤ B) in binary32 (R166). -/
def execOpFle (l : Fin 2) (c : OpCond) (a : BitVec 14) (b : OpSrc) (s : State) : Out :=
  .next (s.cmp l (laneWord (.opFle l c a b)) c a b fpLe)

/-- FEQ: F ← (A = B) in binary32 (R166). -/
def execOpFeq (l : Fin 2) (c : OpCond) (a : BitVec 14) (b : OpSrc) (s : State) : Out :=
  .next (s.cmp l (laneWord (.opFeq l c a b)) c a b fpEq)

/-- ITOF: D ← A, a signed integer, as binary32 (R166). -/
def execOpItof (l : Fin 2) (c : OpCond) (d a : BitVec 14) (s : State) : Out :=
  .next (s.alu1 l (laneWord (.opItof l c d a)) c 2 d a fun x => fpOfInt x.toInt)

/-- FTOI: D ← A, binary32, as a signed integer (R166, R167). -/
def execOpFtoi (l : Fin 2) (c : OpCond) (d a : BitVec 14) (s : State) : Out :=
  .next (s.alu1 l (laneWord (.opFtoi l c d a)) c 2 d a fpToInt)

/-- SEL: D ← F ? B : A (R166). -/
def execOpSel (l : Fin 2) (c : OpCond) (d a : BitVec 14) (b : OpSrc) (s : State) : Out :=
  .next (s.laneOp l (laneWord (.opSel l c d a b)) c 1 fun s k => s.writeSlot k d.toNat (if s.flagF k then s.opB k b else s.readSlot k a.toNat))

/-- LDX: D ← slot (A + B) (R166, R167). -/
def execOpLdx (l : Fin 2) (c : OpCond) (d a : BitVec 14) (b : OpSrc) (s : State) : Out :=
  .next <|
    s.laneOp l (laneWord (.opLdx l c d a b)) c 2 fun s k =>
      match s.indexed k a b with
      | some n => s.writeSlot k d.toNat (s.readSlot k n)
      | none => (s.writeSlot k d.toNat 0#32).lthErr k 0x05 (s.tk k).pc 0

/-- STX: Slot (A + B) ← D (R166, R167). -/
def execOpStx (l : Fin 2) (c : OpCond) (d a : BitVec 14) (b : OpSrc) (s : State) : Out :=
  .next <|
    s.laneOp l (laneWord (.opStx l c d a b)) c 2 fun s k =>
      match s.indexed k a b with
      | some n => s.writeSlot k n (s.readSlot k d.toNat)
      | none => s.lthErr k 0x05 (s.tk k).pc 0

/-- REDGE: F ← F ∧ ¬D[0], D[0] ← F (R168). -/
def execOpRedge (l : Fin 2) (d : BitVec 14) (s : State) : Out :=
  .next (s.edgeOp l (laneWord (.opRedge l d)) d (fun x old => x && !old))

/-- FEDGE: F ← ¬F ∧ D[0], D[0] ← F (R168). -/
def execOpFedge (l : Fin 2) (d : BitVec 14) (s : State) : Out :=
  .next (s.edgeOp l (laneWord (.opFedge l d)) d (fun x old => !x && old))

/-- TON: An on-delay timer (R169). -/
def execOpTon (l : Fin 2) (d a : BitVec 14) (s : State) : Out := .next (s.timerOp l (laneWord (.opTon l d a)) d a timerTon)

/-- TOF: An off-delay timer (R169). -/
def execOpTof (l : Fin 2) (d a : BitVec 14) (s : State) : Out := .next (s.timerOp l (laneWord (.opTof l d a)) d a timerTof)

/-- TP: A pulse timer (R169). -/
def execOpTp (l : Fin 2) (d a : BitVec 14) (s : State) : Out := .next (s.timerOp l (laneWord (.opTp l d a)) d a timerTp)

/-- CTU: An up-counter (R170). -/
def execOpCtu (l : Fin 2) (d a : BitVec 14) (s : State) : Out :=
  .next (s.counterOp l (laneWord (.opCtu l d a)) d a 1 (fun cv => min (cv + 1) 2147483647) (fun cv pv => decide (cv ≥ pv)))

/-- CTD: A down-counter (R170). -/
def execOpCtd (l : Fin 2) (d a : BitVec 14) (s : State) : Out :=
  .next (s.counterOp l (laneWord (.opCtd l d a)) d a 2 (fun cv => max (cv - 1) (-2147483648)) (fun cv _ => decide (cv ≤ 0)))

/-- CLOAD: If F, D+1 ← A (R166). -/
def execOpCload (l : Fin 2) (d a : BitVec 14) (s : State) : Out :=
  .next (s.laneOp l (laneWord (.opCload l d a)) .always 1 fun s k => if s.flagF k then s.writeSlot k (d.toNat + 1) (s.readSlot k a.toNat) else s)

/-- JMP: Continue at T (R166). -/
def execOpJmp (l : Fin 2) (t : BitVec 16) (s : State) : Out := .next (s.jump l (laneWord (.opJmp l t)) t fun _ => true)

/-- JF: Continue at T when F = 1 (R166). -/
def execOpJf (l : Fin 2) (t : BitVec 16) (s : State) : Out := .next (s.jump l (laneWord (.opJf l t)) t fun f => f)

/-- JNF: Continue at T when F = 0 (R166). -/
def execOpJnf (l : Fin 2) (t : BitVec 16) (s : State) : Out := .next (s.jump l (laneWord (.opJnf l t)) t fun f => !f)

/-- CALL: Push the next operation and continue at T (R166, R167; log entry 22). -/
def execOpCall (l : Fin 2) (t : BitVec 16) (s : State) : Out :=
  .next <|
    s.onLane l (laneWord (.opCall l t)) fun s k =>
      let x := s.tk k
      (s.putTk k { x with stack := ((x.pc + 1) :: x.stack).take 8 }).goto_ k t.toNat 2

/-- RET: Continue at the popped operation, or end the execute phase (R166, R167). -/
def execOpRet (l : Fin 2) (s : State) : Out := .next (s.retOp l (laneWord (.opRet l)))

/-- END: End of the execute phase (R174). -/
def execOpEnd (l : Fin 2) (s : State) : Out :=
  .next (s.onLane l (laneWord (.opEnd l)) fun s k => (s.goto_ k (s.tk k).pc 1).execEnd l)

/-- RDTB: D ← low 32 bits of the timebase at the release (R166). -/
def execOpRdtb (l : Fin 2) (c : OpCond) (d : BitVec 14) (s : State) : Out :=
  .next (s.laneOp l (laneWord (.opRdtb l c d)) c 1 fun s k => s.writeSlot k d.toNat (BitVec.ofNat 32 (s.tk k).relUs))

/-- RDZT: D ← zone time in ns at the release, D+1 ← its epoch (R166). -/
def execOpRdzt (l : Fin 2) (c : OpCond) (d : BitVec 14) (s : State) : Out :=
  .next <|
    s.laneOp l (laneWord (.opRdzt l c d)) c 1 fun s k =>
      let t := (s.tk k).relAt
      (s.writeSlot k d.toNat (BitVec.ofNat 32 t.ns)).writeSlot k (d.toNat + 1) (BitVec.ofNat 32 t.ep)

/-- TRAP: Queues an error record with cause TRAP (R166, R178). -/
def execOpTrap (l : Fin 2) (c : OpCond) (b : OpSrc) (s : State) : Out :=
  .next (s.laneOp l (laneWord (.opTrap l c b)) c 1 fun s k => s.lthErr k 0x06 (s.tk k).pc (s.opB k b).toNat)

end Sys2Proof.Machine
end

