-- ==== Sys2Proof/Machine/Load.lean ====
section
/-! DEFINITION. Load segments, faults, holds and the feed budget (ch. 5 and 6). -/

namespace Sys2Proof.Machine

/-- A step of channel c in its power-stage die: nothing happens at a number that is no channel, or in a die without state. -/
def State.onChan (s : State) (c : Nat) (f : State → State) : State := if s.isChan c && !s.dieLost (bankOf c) then f s else s

/-- A protection trip of channel c, with the wake it may cause (R63, R121). -/
def State.tripOf (s : State) (c cause : Nat) : State := s.onChan c fun s => State.tripWakes s (s.trip c cause) c

/-- The cause of an overcurrent found now: LOW_SIDE while the low side conducts (R110). -/
def State.sideCause (s : State) (c cause : Nat) : Nat := if s.get F.LCH_STATE_OUT c = 2 then Trip.lowSide else cause

/-- Whether a switch of channel c conducts. -/
def State.conducts (s : State) (c : Nat) : Bool := s.get F.LCH_STATE_OUT c != 0

/-- Whether the driver of channel c regulates its current: a CAPFEED channel in its inrush window (R97). -/
def State.regulates (s : State) (c : Nat) : Bool := s.chKind c == 4 && s.get F.LCH_STATE_PHASE c == 2

/-- I_OPEN of a channel (R115). -/
def State.iOpen (s : State) (c : Nat) : Nat := s.ch c 7 15 0

/-- The phase of an activation goes on (R103): 1 SLEW, 2 INRUSH, 3 STEADY. -/
def State.phaseTo (s : State) (c old new : Nat) : State :=
  s.onChan c fun s => if s.get F.LCH_STATE_PHASE c = old then s.put F.LCH_STATE_PHASE new c else s

/-- An edge reaches its full level (R103, R104). -/
def State.edgeDone (s : State) (c : Nat) : State :=
  s.onChan c fun s =>
    if (s.lc c).edge = 1 then s.putLc c { s.lc c with edge := 0 }
    else if (s.lc c).edge = 2 then s.offDone c
    else s

/-- The high side has been open for longer than the activation gap (R103). -/
def State.gapEnd (s : State) (c : Nat) : State :=
  s.onChan c fun s =>
    if s.get F.LCH_STATE_OUT c = 1 then s else (s.clearFlag c Flag.onState).put F.LCH_STATE_PHASE 0 c

/-- The holds of the channels of PWM unit k end (R132). -/
def State.pwmHoldsEnd (s : State) (k : Nat) : State :=
  s.each ((s.pwmChans k).filter fun c => s.flag c Flag.holding && (s.lc c).holdBy == 2) State.holdEnd

/-- A period of PWM unit k starts (R99, R132): the new DUTY, then the output, then the holds that end with it. -/
def State.pwmStart (s : State) (k : Nat) : State :=
  if !s.startDone || !s.pwmEnabled k then s
  else
    let x := s.pw k
    let s := (s.put F.LCH_PWM_DUTY x.next k).putPw k { x with fresh := false }
    let s := s.pwmOut k (decide (s.pwmOnTicks k ≠ 0))
    if x.fresh then s.pwmHoldsEnd k else s

/-- The on-time of a period of PWM unit k ends (R99); at full DUTY it does not. -/
def State.pwmEnd (s : State) (k : Nat) : State :=
  if (s.pw k).out && decide (s.pwmOnTicks k < s.pwmPeriod k) then s.pwmOut k false else s

/-- TEMP_LATCH is released (R111, R120): a LATCHED channel enters WAITING. -/
def State.tempRelease (s : State) (c : Nat) : State :=
  s.onChan c fun s =>
    if !s.flag c Flag.tempLatch then s
    else
      let s := s.clearFlag c Flag.tempLatch
      if s.prot c = Prot.latched then s.put F.LCH_PROT_STATE Prot.waiting c else s.resolve c

/-- The 100 ms tick of die b starts the off-state check on the channels of `l`, whose switches have been open for 10 ms (R116). -/
def State.offTick (s : State) (b : Nat) (l : List (Fin 96)) : State :=
  s.each l fun s c =>
    if bankOf c = b then
      s.onChan c fun s => if s.iOpen c ≠ 0 ∧ !s.conducts c then s.putLc c { s.lc c with chk := 1 } else s
    else s

/-- Step 1 of the off-state check (R116). -/
def State.offShort (s : State) (c : Nat) (high : Bool) : State :=
  s.onChan c fun s =>
    if (s.lc c).chk = 1 then
      (s.flagTo c Flag.shortBat high).putLc c { (s.flagTo c Flag.shortBat high).lc c with chk := if high then 0 else 2 }
    else s

/-- Step 2 of the off-state check (R116). -/
def State.offOpen (s : State) (c : Nat) (high : Bool) : State :=
  s.onChan c fun s =>
    if (s.lc c).chk = 2 then
      (s.flagTo c Flag.openLoad high).putLc c { (s.flagTo c Flag.openLoad high).lc c with chk := 0 }
    else s

/-- The episode of channel c closes (R122): QUIET_TIME runs in ARMED with TEMP_LATCH clear only. -/
def State.quietEnd (s : State) (c : Nat) : State :=
  s.onChan c fun s =>
    if s.is F.LCH_PROT_EPISODE c && s.prot c == Prot.armed && !s.flag c Flag.tempLatch then s.episodeClose c else s

/-- Whether the budget logic of feed f has its dies (R136). -/
def State.feedLive (s : State) (f : Nat) : Bool := !s.dieLost (2 * f)

/-- A feed mean in mA (R136, R138): its sample, OVER, and the counts toward a shed step and a restore. -/
def State.feedMean (s : State) (f mean : Nat) : State :=
  if !s.feedLive f then s
  else
    let s := s.sample 4 f mean
    let x := s.fd f
    let isOver := x.limit != 0 && decide (mean > 100 * x.limit)
    let under := decide (10 * mean < 9 * 100 * x.limit)
    let shed := (s.feedChans f).any fun c => s.flag c Flag.budgetShed
    let x := { x with
      mean := mean
      overs := if isOver then min (x.overs + 1) 20 else 0
      restore := if shed && under then min (x.restore + 1) 5000 else 0 }
    (s.put F.FEED_STATUS_OVER (b2n isOver) f).putFd f x

/-- The mean current of a channel in mA, from a list. -/
def meanOf (l : List (Fin 96 × Nat)) (c : Nat) : Nat := (l.find? fun p => p.1.val == c).elim 0 (·.2)

/-- A shed step of feed f, with the 1 ms mean currents of its channels in mA (R137). -/
def State.shedStep (s : State) (f : Nat) (means : List (Fin 96 × Nat)) : State :=
  let x := s.fd f
  if !s.feedLive f || x.overs != 20 then s
  else
    let (l, ok) := shedTake (meanOf means) (x.mean - 100 * x.limit) (s.shedOrder f)
    let s := ((s.each l State.shedChan).putFd f { x with overs := 0, restore := 0 }).put F.FEED_EVENTS_SHED 1 f
    if ok then s else (s.put F.FEED_EVENTS_SHORTFALL 1 f).put F.FEED_STATUS_SHORTFALL 1 f

/-- A restore of feed f (R138). -/
def State.restoreStep (s : State) (f : Nat) : State :=
  let x := s.fd f
  if !s.feedLive f || x.restore != 5000 then s
  else
    let s := s.putFd f { x with restore := 0 }
    match s.restoreNext f with
    | some c => ((s.clearFlag c Flag.budgetShed).resolve c).put F.FEED_EVENTS_RESTORE 1 f
    | none => s

/-- LCH_CMD_ON: A write of LCH_CMD_c with ON (R98). -/
def execLchCmdOn (m : Master) (v : Option (Fin 16)) (c : Fin 96) (on : Bool) (s : State) : Out :=
  .next (s.regCmd m .LCH_CMD v c (b2n on))

/-- REARM: A write of LCH_CMD_c with REARM, and ON as given (R126). -/
def execRearm (m : Master) (v : Option (Fin 16)) (c : Fin 96) (on : Bool) (s : State) : Out :=
  .next (s.regCmd m .LCH_CMD v c (2 + b2n on))

/-- SLEW_END: The slew phase of channel c ends (R103). -/
def execSlewEnd (c : Fin 96) (s : State) : Out := .next (s.phaseTo c 1 2)

/-- INRUSH_WINDOW_END: The inrush window of channel c ends (R103). -/
def execInrushWindowEnd (c : Fin 96) (s : State) : Out := .next (s.phaseTo c 2 3)

/-- EDGE_COMPLETE: An edge of channel c reaches its full level (R104). -/
def execEdgeComplete (c : Fin 96) (s : State) : Out := .next (s.edgeDone c)

/-- ACTIVATION_GAP_END: The high side of channel c has been open for longer than the gap (R103). -/
def execActivationGapEnd (c : Fin 96) (s : State) : Out := .next (s.gapEnd c)

/-- PWM_PERIOD_START: A period of PWM unit k starts (R99). -/
def execPwmPeriodStart (k : Fin 32) (s : State) : Out := .next (s.pwmStart k)

/-- PWM_DUTY_END: The on-time of a period of PWM unit k ends (R99). -/
def execPwmDutyEnd (k : Fin 32) (s : State) : Out := .next (s.pwmEnd k)

/-- DRV_LEVEL_CHANGE: A DRV pin has held a level for 200 ns, at `mv` (R148). -/
def execDrvLevelChange (p : Fin 16) (mv : Nat) (s : State) : Out :=
  .next (if s.live 19 && s.drvUsed p then s.drvLevel p (s.drvReads p mv) else s)

/-- OC_WARN_CHANGE: The 1 ms mean crosses 0.9 or 0.85 × I_LIM (R106). -/
def execOcWarnChange (c : Fin 96) (above : Bool) (s : State) : Out := .next (s.onChan c fun s => s.flagTo c Flag.ocWarn above)

/-- OC_TRIP: 20 of the last 25 counted samples exceed I_LIM (R107, R110). -/
def execOcTrip (c : Fin 96) (s : State) : Out :=
  .next (if s.conducts c && !s.regulates c then s.tripOf c (s.sideCause c Trip.oc) else s)

/-- SHORT_FAST: The current is above the short threshold (R108, R110). -/
def execShortFast (c : Fin 96) (s : State) : Out := .next (if s.conducts c then s.tripOf c (s.sideCause c Trip.shortFast) else s)

/-- SEG_SHARE_TRIP: A segment of a gang exceeds 1.5 × its rating (R109). -/
def execSegShareTrip (c : Fin 96) (s : State) : Out :=
  .next (if s.conducts c && decide (s.ch c 0 9 8 ≠ 0) then s.tripOf c Trip.segShare else s)

/-- TEMP_WARN_CHANGE: A segment reaches 150 °C, or all are below 145 °C (R111). -/
def execTempWarnChange (c : Fin 96) (hot : Bool) (s : State) : Out := .next (s.onChan c fun s => s.flagTo c Flag.tempWarn hot)

/-- TEMP_LATCH: A segment reaches 170 °C (R111). -/
def execTempLatch (c : Fin 96) (s : State) : Out := .next (s.onChan c fun s => State.tripWakes s (State.tempLatch s c) c)

/-- TEMP_LATCH_RELEASE: All segments are below 140 °C (R111). -/
def execTempLatchRelease (c : Fin 96) (s : State) : Out := .next (s.tempRelease c)

/-- WIRE_MODEL_STEP: The 1 ms step of the wire model, with the mean of I² in mA² (R112). -/
def execWireModelStep (c : Fin 96) (meanI2 : Nat) (s : State) : Out :=
  .next (s.onChan c fun s => State.tripWakes s (s.wireModel c meanI2) c)

/-- OPEN_LOAD_ONSTATE: 10 ms of on-time below, or at or above, I_OPEN (R115). -/
def execOpenLoadOnstate (c : Fin 96) (below : Bool) (s : State) : Out :=
  .next <|
    s.onChan c fun s =>
      if s.iOpen c ≠ 0 ∧ s.get F.LCH_STATE_PHASE c = 3 then s.flagTo c Flag.openLoad below else s

/-- OFF_STATE_CHECK_TICK: The 100 ms tick of die b; `l` are the channels open for at least 10 ms (R116). -/
def execOffStateCheckTick (b : Fin 4) (l : List (Fin 96)) (s : State) : Out := .next (s.offTick b l)

/-- OFF_STATE_SHORT_SAMPLE: Step 1 samples the output (R116). -/
def execOffStateShortSample (c : Fin 96) (high : Bool) (s : State) : Out := .next (s.offShort c high)

/-- OFF_STATE_OPEN_SAMPLE: Step 2 samples the output (R116). -/
def execOffStateOpenSample (c : Fin 96) (high : Bool) (s : State) : Out := .next (s.offOpen c high)

/-- RESTART: The restart delay of a WAITING channel has elapsed (R123). -/
def execRestart (c : Fin 96) (s : State) : Out := .next (s.onChan c fun s => State.restart s c)

/-- EPISODE_CLOSE: QUIET_TIME reaches RETRY_WINDOW (R122). -/
def execEpisodeClose (c : Fin 96) (s : State) : Out := .next (s.quietEnd c)

/-- RETIREMENT_RECORD: A classified retirement is written into eMRAM (R416). -/
def execRetirementRecord (kind : Fin 7) (unit : Fin 128) (s : State) : Out :=
  .next (if s.awake then s.recordRetirement kind unit else s)

/-- HOLD_MS_EXPIRY: A KEEP_FOR time runs out (R130). -/
def execHoldMsExpiry (c : Fin 96) (s : State) : Out := .next (s.onChan c fun s => s.holdExpire c)

/-- FEED_MEAN: The 100 µs mean of feed f in mA (R136). -/
def execFeedMean (f : Fin 2) (mean : Nat) (s : State) : Out := .next (State.feedMean s f mean)

/-- SHED_STEP: A shed step after 20 OVER means, with the channels' 1 ms means in mA (R137). -/
def execShedStep (f : Fin 2) (means : List (Fin 96 × Nat)) (s : State) : Out := .next (State.shedStep s f means)

/-- RESTORE: A restore after 5000 low means (R138). -/
def execRestore (f : Fin 2) (s : State) : Out := .next (s.restoreStep f)

end Sys2Proof.Machine
end

