-- ==== Sys2Proof/Machine/Mitre.lean ====
section
/-! DEFINITION. The Mitre unit (ch. 10). -/

namespace Sys2Proof.Machine

/-- Whether a braced unit is at work on copy `n` in a state (R220). -/
def State.copyAt (s : State) (st n : Nat) : Bool :=
  s.live 12 && !s.mtrSplit && s.mtrState == st && s.get F.MTR_STATE_COPY == n

/-- The first lane of an entry's byte enables, and how many there are (R206). -/
def beFirst (be : Nat) : Nat := (List.range 4).find? (fun i => bitOf be i) |>.getD 0

/-- The number of byte enables. -/
def beCount (be : Nat) : Nat := (below 4 fun i => bitOf be i).length

/-- A commit queue leaves the unit in program order (R211): each write reaches its target as any D0 access does. -/
def State.queueRelease (s : State) (l : List QEntry) : State :=
  s.each l fun s e =>
    if beCount e.be = 0 then s
    else s.mitreOut 0 (e.addr / 4 * 4 + beFirst e.be) (beCount e.be) .write
      (e.data.toNat / 2 ^ (8 * beFirst e.be) % 2 ^ (8 * beCount e.be))

/-- Copy A ends its slice at one of the events of R204, having made the loads its record holds (R206). -/
def State.copyADone (s : State) (r : CopyRec) : State :=
  if s.copyAt Mtr.running 1 && s.sliceFits r && s.endOk r && r.loads == s.mtr.loads then s.copyAEnd r else s

/-- The slice's queue is released and counted, and copy `odd` is resynchronised, or the next slice starts when none is odd. -/
def State.sliceDone (s : State) (l : List QEntry) (odd : Nat) : State :=
  let s := (s.queueRelease l).sliceReleased
  if odd = 0 then s.nextSlice else s.resyncBegin odd

/-- Copy B ends, and the compare decides (R211, R214); what it read came from copy A's log (R206). -/
def State.copyBDone (s : State) (r : CopyRec) : State :=
  match s.mtr.recA with
  | none => s
  | some a =>
    let b := r.logged a
    if !s.copyAt Mtr.running 2 || !s.sliceFits b || b.instrs != a.instrs then s
    else
      let s := s.copyBState b
      if !queuesAgree a b then (s.put F.MTR_STATE_STATE Mtr.resolving).put F.MTR_STATE_COPY 3
      else if a.signature = b.signature then s.sliceDone a.queue 0
      else
        let r := s.latentEvent a b
        if r.1 then r.2.safeFault 2 else r.2.sliceDone a.queue 2

/-- Copy C ends, and the majority decides (R212, R214); the compare event recorded for NO_MAJORITY is that of copies A and B
(log entry 28). -/
def State.copyCDone (s : State) (r : CopyRec) : State :=
  match s.mtr.recA, s.mtr.recB with
  | some a, some b =>
    let c := r.logged a
    if !s.copyAt Mtr.resolving 3 || !s.sliceFits c || c.instrs != a.instrs then s
    else
      let s := s.copyCState c
      let odd := if copiesAgree a c then 2 else if copiesAgree b c then 1 else 0
      if odd = 0 then (s.mtrLast 3 0 (diffOf a b)).safeFault 1
      else
        let r := s.mismatchEvent odd a b
        if r.1 then r.2.safeFault 3 else r.2.sliceDone (if odd = 2 then a.queue else b.queue) odd
  | _, _ => s

/-- Resynchronisation ends (R213). -/
def State.resyncDone (s : State) : State :=
  if s.copyAt Mtr.running 0 && s.mtr.odd != 0 then s.resyncEnd else s

/-- The self-test ends (R219). -/
def State.selfTestDone (s : State) (lanes : Nat) (sigFail : Bool) : State :=
  if s.live 12 && s.mtrState == Mtr.testing then State.mtrSelfTest s lanes sigFail else s

/-- MITRE_RUN: A write of MTR_CTRL with RUN; CORES as given (R221). -/
def execMitreRun (m : Master) (cores : Fin 4) (s : State) : Out :=
  .next (s.regCmd m .MTR_CTRL none 0 (keyed 0x4D17 (1 + 16 * cores)))

/-- MITRE_HALT: A write of MTR_CTRL with HALT (R221). -/
def execMitreHalt (m : Master) (cores : Fin 4) (s : State) : Out :=
  .next (s.regCmd m .MTR_CTRL none 0 (keyed 0x4D17 (2 + 16 * cores)))

/-- MITRE_TEST: A write of MTR_CTRL with TEST (R221). -/
def execMitreTest (m : Master) (s : State) : Out := .next (s.regCmd m .MTR_CTRL none 0 (keyed 0x4D17 3))

/-- MITRE_CLEAR: A write of MTR_CTRL with CLEAR (R221). -/
def execMitreClear (m : Master) (s : State) : Out := .next (s.regCmd m .MTR_CTRL none 0 (keyed 0x4D17 4))

/-- MITRE_SELF_TEST: The self-test ends: the lanes that failed, and whether the signature register did (R219). -/
def execMitreSelfTest (lanes : BitVec 32) (sigFail : Bool) (s : State) : Out := .next (s.selfTestDone lanes.toNat sigFail)

/-- COPY_A_END: Copy A reaches a slice end with record `r` (R204). -/
def execCopyAEnd (r : CopyRec) (s : State) : Out := .next (s.copyADone r)

/-- COPY_B_END: Copy B ends with record `r`, and the compare decides (R211). -/
def execCopyBEnd (r : CopyRec) (s : State) : Out := .next (s.copyBDone r)

/-- COPY_C_END: Copy C ends with record `r`, and the majority decides (R212). -/
def execCopyCEnd (r : CopyRec) (s : State) : Out := .next (s.copyCDone r)

/-- RESYNC_END: Resynchronisation of the odd copy ends (R213). -/
def execResyncEnd (s : State) : Out := .next (s.resyncDone)

/-- DOORBELL: A write of MTR_DOORBELL with RING (R224). -/
def execDoorbell (m : Master) (s : State) : Out := .next (s.regCmd m .MTR_DOORBELL none 0 1)

/-- LMEM_DATA_ACCESS: A write, or a read, of MTR_LMEM_DATA (R208). -/
def execLmemDataAccess (m : Master) (data : Option (BitVec 32)) (s : State) : Out :=
  .next <|
    match data with
    | some v => s.regCmd m .MTR_LMEM_DATA none 0 v.toNat
    | none => s.regAsk m .MTR_LMEM_DATA none 0

end Sys2Proof.Machine
end

