-- ==== Sys2Proof/Machine/Ports.lean ====
section
/-! DEFINITION. Ethernet ports, MACs and MACsec (ch. 13). -/

namespace Sys2Proof.Machine

/-- A step of port p while its island is clocked. -/
def State.onPort (s : State) (p : Nat) (f : State → State) : State := if s.live (portIsland p) then f s else s

/-- A frame whose pattern matches at an armed port while the device sleeps, or on its way there (R62, R284): the first match wakes. -/
def State.ethWake (s : State) (p : Nat) (l : List Nat) : State :=
  if p < 22 ∨ !s.is F.EPT_WAKE_ARM p ∨ s.unitOut 3 p then s
  else
    match (List.range 8).find? fun k => s.wakeMatch p k l with
    | some k => (s.wakeHit p k true).wake 4 p
    | none => s

/-- A frame arrives whole at port p (R274, R284). -/
def State.frameIn (s : State) (p : Nat) (l : List Nat) (kind : RxKind) (frags : Nat) : State :=
  if s.phase = Ph.sleep then if kind = .good then s.ethWake p l else s
  else
    let s := s.onPort p fun s => s.macRx p l kind frags
    if s.phase = Ph.toSleep ∧ kind = .good then s.ethWake p l else s

/-- PORT_LINK_ENABLE: A write of EPT_PCFG_p with LINK_EN = 1, its other fields from `w` (R275). -/
def execPortLinkEnable (m : Master) (p : Fin 30) (w : BitVec 32) (s : State) : Out :=
  .next (s.regCmd m .EPT_PCFG none p (setBitTo (setBitTo w.toNat 16 false) 0 true))

/-- PORT_LINK_DISABLE: A write of EPT_PCFG_p with LINK_EN = 0 (R275). -/
def execPortLinkDisable (m : Master) (p : Fin 30) (w : BitVec 32) (s : State) : Out :=
  .next (s.regCmd m .EPT_PCFG none p (setBitTo w.toNat 0 false))

/-- RETRAIN: A write of EPT_PCFG_p with RETRAIN (R275). -/
def execRetrain (m : Master) (p : Fin 30) (w : BitVec 32) (s : State) : Out :=
  .next (s.regCmd m .EPT_PCFG none p (setBitTo w.toNat 16 true))

/-- TRAINING_COMPLETE: Training of a port with a ready partner reaches its end (R275); only opposite roles complete (R276). -/
def execTrainingComplete (x : Trained) (s : State) : Out :=
  .next (s.onPort x.port fun s => if s.rolesMeet x.port x.slave then s.linkUp x.port else s)

/-- TRAINING_TIME_LIMIT: Training of port p passes its time limit and restarts: the port stays in TRAINING (R275). -/
def execTrainingTimeLimit (p : Fin 30) (s : State) : Out := .next (s.onPort p fun s => s.retrain p)

/-- LINK_LOSS: The link of port p fails (R275). -/
def execLinkLoss (p : Fin 30) (s : State) : Out :=
  .next (s.onPort p fun s => if s.linkState p = Link.up then s.toTraining p else s)

/-- MAC_RX_FRAME: A frame, without its FCS, is received whole; `frags` counts its fragments when it was preempted (R274). -/
def execMacRxFrame (p : Fin 30) (bytes : List (BitVec 8)) (kind : RxKind) (frags : Nat) (s : State) : Out :=
  .next (s.frameIn p (natsOf bytes) kind frags)

/-- PAUSE_RECEIVED: A PAUSE frame is received (R280). -/
def execPauseReceived (p : Fin 30) (quanta : BitVec 16) (s : State) : Out := .next (s.frameIn p (pauseFrame quanta.toNat) .good 0)

/-- PAUSE_EXPIRY: The pause in force expires (R281). -/
def execPauseExpiry (p : Fin 30) (s : State) : Out := .next (s.onPort p fun s => s.pauseEnd p)

/-- PAUSE_WATCHDOG: A continuous pause lasts PAUSE_WD_MS (R281). -/
def execPauseWatchdog (p : Fin 30) (s : State) : Out := .next (s.onPort p fun s => s.pauseBreak p)

/-- PMAC_WRITE: A write of EPT_PMAC_p (R278). -/
def execPmacWrite (m : Master) (p : Fin 30) (w : BitVec 32) (s : State) : Out := .next (s.regCmd m .EPT_PMAC none p w.toNat)

/-- VERIFY_TIMER: VERIFY_MS passes without a response (R278). -/
def execVerifyTimer (p : Fin 30) (s : State) : Out := .next (s.onPort p fun s => s.verifyTick p)

/-- RESPOND_MPACKET: A valid respond mPacket arrives (R278). -/
def execRespondMpacket (p : Fin 30) (s : State) : Out := .next (s.onPort p fun s => s.verifyRespond p)

/-- COLLISION: A collision on a 10BASE-T1S port (R282). -/
def execCollision (p : Fin 30) (late : Bool) (s : State) : Out := .next (s.onPort p fun s => s.collide p late)

/-- BACKOFF_EXPIRY: The back-off ends (R282). -/
def execBackoffExpiry (p : Fin 30) (s : State) : Out := .next (s.onPort p fun s => s.backoffEnd p)

/-- SA_INSTALL: A write of MSC_SA_CTRL with INSTALL (R286). -/
def execSaInstall (m : Master) (v : Option (Fin 16)) (p : Fin 14) (a : Fin 20) (slot : BitVec 8) (s : State) : Out :=
  .next (s.regCmd m .MSC_SA_CTRL v p (256 + slot.toNat) a)

/-- SA_REMOVE: A write of MSC_SA_CTRL with REMOVE (R286). -/
def execSaRemove (m : Master) (v : Option (Fin 16)) (p : Fin 14) (a : Fin 20) (s : State) : Out :=
  .next (s.regCmd m .MSC_SA_CTRL v p 512 a)

/-- PHY_FAULT: A run-time PHY fault of port p (R289). -/
def execPhyFault (p : Fin 30) (s : State) : Out := .next (s.onPort p fun s => if s.portEnabled p then State.phyFault s p else s)

end Sys2Proof.Machine
end

