-- ==== Sys2Proof/Machine/Recorder.lean ====
section
/-! DEFINITION. The event recorder (ch. 19). -/

namespace Sys2Proof.Machine

/-- Whether the recorder works. -/
def State.recLive (s : State) : Bool := s.live 33

/-- Whether a drawer exists and the recorder works. -/
def State.recFor (s : State) (d : Nat) : Bool := s.recLive && decide (d < s.drw.count)

/-- SAMPLE_MERGE: The sources hand over their samples; `l` holds those of the analog sources (R390, R392). -/
def execSampleMerge (l : List Sample) (s : State) : Out := .next (if s.recLive then s.sampleMerge l else s)

/-- FLUSH_PERIODIC: 600 s after the previous flush (R393). -/
def execFlushPeriodic (s : State) : Out := .next (if s.recLive then s.flushStart else s)

/-- FLUSH_GO: A write of REC_FLUSH with GO (R393). -/
def execFlushGo (m : Master) (s : State) : Out := .next (s.regCmd m .REC_FLUSH none 0 1)

/-- FLUSH_DONE: The running flush commits its journal marker (R393). -/
def execFlushDone (s : State) : Out := .next (if s.recLive then State.flushDone s else s)

/-- ITEM_CONFIG: A write of REC_CFG_CMD with WRITE (R391). -/
def execItemConfig (m : Master) (s : State) : Out := .next (s.regCmd m .REC_CFG_CMD none 0 1)

/-- ITEM_CLEAR: A write of REC_CLEAR with GO for one item (R396). -/
def execItemClear (m : Master) (n : Fin 4096) (s : State) : Out := .next (s.regCmd m .REC_CLEAR none 0 (2 ^ 31 + n))

/-- ITEM_CLEAR_ALL: A write of REC_CLEAR with GO and ALL (R396). -/
def execItemClearAll (m : Master) (s : State) : Out := .next (s.regCmd m .REC_CLEAR none 0 (2 ^ 31 + 2 ^ 30))

/-- WINDOW_SNAPSHOT: A read of REC_WIN_0 (R395). -/
def execWindowSnapshot (m : Master) (v : Option (Fin 16)) (s : State) : Out := .next (s.regAsk m .REC_WIN v 0)

/-- WINDOW_ADVANCE: A read of REC_WIN_63 (R395). -/
def execWindowAdvance (m : Master) (v : Option (Fin 16)) (s : State) : Out := .next (s.regAsk m .REC_WIN v 63)

/-- ALARM_HEAD_READ: A read of REC_ALM_HEAD0 (R399). -/
def execAlarmHeadRead (m : Master) (s : State) : Out := .next (s.regAsk m .REC_ALM_HEAD none 0)

/-- ALARM_POP: A write of REC_ALM_STAT with POP (R399). -/
def execAlarmPop (m : Master) (s : State) : Out := .next (s.regCmd m .REC_ALM_STAT none 0 (2 ^ 16))

/-- LOG_DELIVER: Records of drawer d are written into its LOG ring's buffers (R401). -/
def execLogDeliver (d : Fin 16) (s : State) : Out := .next (if s.recFor d && s.live 38 then State.logDeliver s d else s)

/-- LOG_BUFFER_TIMEOUT: 1 ms after the first record of ring r's LOG buffer (R401). -/
def execLogBufferTimeout (r : Fin 256) (s : State) : Out := .next (if s.live 38 then s.logTimeout r else s)

/-- TRACE_LEVEL_UPDATE: The 1 ms step of drawer d's sampling level (R402). -/
def execTraceLevelUpdate (d : Fin 16) (s : State) : Out := .next (if s.recFor d then s.traceLevel d else s)

end Sys2Proof.Machine
end

