-- ==== Sys2Proof/Machine/Start.lean ====
section
/-! DEFINITION. Supplies, resets, starts and sleep (ch. 1 and 3). -/

namespace Sys2Proof.Machine

/-- RSTN held low (R55): in sleep it starts the SYS, or the POR of a die without state, that a wake would. -/
def State.rstn (s : State) : State :=
  if s.phase = Ph.sleep then (if s.anyLost then s.doReset true 1 0 else s.doReset false 3 0) else s.trigger false 3

/-- Whether a start is under way after the image was taken (R147, R289, R331). -/
def State.testing (s : State) : Bool := s.phase == Ph.taken

/-- Whether a start is under way (R413, R414). -/
def State.starting (s : State) : Bool := s.phase == Ph.began || s.phase == Ph.banks || s.phase == Ph.taken

/-- The start test of MI pin p (R147). -/
def State.miTest (s : State) (p : Nat) (pass : Bool) : State :=
  if !s.testing || s.miMode p == 0 || s.unitOut 2 p then s
  else
    let s := (s.put F.INP_MI_STAT_TEST_FAIL (b2n !pass) p).startTest 2 p 0x07 (s.miOwner p) pass
    s.put F.INP_MI_STAT_RETIRED (b2n (s.unitOut 2 p)) p

/-- The self-test of core c (R413): a core that it retires is back in reset. -/
def State.coreSelfTest (s : State) (c : Nat) (pass : Bool) : State :=
  if !s.starting || s.unitOut 5 c then s
  else
    let s := s.coreTest c pass
    if s.unitOut 5 c then s.putHt c HartSt.rst else s

/-- The SECURE image after the start (R408, R409): an interrupted copy goes on, a sealed image is copied, and the bank is taken, before
the boot firmware writes READY. -/
def State.secureUpdate (s : State) (e : CopyEnd) : State :=
  if !s.startDone || s.get F.WLD_SVC_STATE != 0 then s
  else
    let s := match s.upd.journal with
      | some (3, b, p) => s.copyRun 3 b p e true
      | _ => s.stagedImage 3 e
    if s.upd.journal.isSome then s else s.takeBank 3

/-- Posted-error records that wait go to their rings (R347). -/
def State.perrAll (s : State) : State := s.each (List.range 16) State.perrDeliver

/-- VLOG_VALID: VLOG is valid; `cut` says VLOG was lost again before the power-fail sequence had ended (R52, R54, R55). -/
def execVlogValid (cut : Bool) (s : State) : Out := .next (s.vlogValid cut)

/-- RSTN_ASSERT: RSTN is held low for 1 µs (R55). -/
def execRstnAssert (s : State) : Out := .next (s.rstn)

/-- RST_REQ_SYS: A write of FAB_RST_REQ with KIND SYS and the KEY (R55). -/
def execRstReqSys (m : Master) (s : State) : Out := .next (s.regCmd m .FAB_RST_REQ none 0 (keyed 0x7A3C 1))

/-- RST_REQ_POR: A write of FAB_RST_REQ with KIND POR and the KEY (R55). -/
def execRstReqPor (m : Master) (s : State) : Out := .next (s.regCmd m .FAB_RST_REQ none 0 (keyed 0x7A3C 2))

/-- PLL_LOSS: A PLL is out of lock for more than 10 µs (R31, R55). -/
def execPllLoss (s : State) : Out := .next (s.trigger false 6)

/-- BOOT_ROM_RUN: The Boot ROM runs; the operands say how a copy it makes of each kind ends (R59, R386, R408, R409). -/
def execBootRomRun (boot carcass secure : CopyEnd) (s : State) : Out :=
  .next (s.bootRom fun k => if k = 1 then boot else if k = 2 then carcass else secure)

/-- CARCASS_BANK_CHECKED: The check of one Carcass bank ends; `mv` holds the voltages of the MI pins then (R15, R141). -/
def execCarcassBankChecked (mv : PinMv) (s : State) : Out := .next (s.bankChecked mv)

/-- MI_START_TEST: The start test of MI pin p ends (R147). -/
def execMiStartTest (p : Fin 128) (pass : Bool) (s : State) : Out := .next (s.miTest p pass)

/-- PORT_START_TEST: The loopback test of port p ends (R289). -/
def execPortStartTest (p : Fin 30) (pass : Bool) (s : State) : Out := .next (if s.testing then s.portTest p pass else s)

/-- CAN_START_TEST: The loopback test of CAN controller k ends (R331). -/
def execCanStartTest (k : Fin 16) (pass : Bool) (s : State) : Out := .next (if s.testing then s.canTest k pass else s)

/-- CORE_SELF_TEST: The self-test of core c ends (R413). -/
def execCoreSelfTest (c : Fin 6) (pass : Bool) (s : State) : Out := .next (s.coreSelfTest c pass)

/-- SRAM_SELF_TEST: The self-test of SRAM unit u ends (R414). -/
def execSramSelfTest (u : Fin 48) (pass : Bool) (s : State) : Out := .next (if s.starting then s.sramTest u pass else s)

/-- MARK_MEMORY_READY: Mark line n is judged 5 ms after idle, or the header READ starts (R70). -/
def execMarkMemoryReady (n : Fin 8) (c : MarkCond) (s : State) : Out := .next (s.markReady n c)

/-- MARK_ANSWER: The answer to a READ on mark line n completes (R66, R67). -/
def execMarkAnswer (n : Fin 8) (bytes : List (BitVec 8)) (crc : BitVec 16) (s : State) : Out :=
  .next (s.markAnswer n (natsOf bytes) crc.toNat)

/-- MARK_PREAMBLE_TIMEOUT: No preamble begins within 200 µs (R67). -/
def execMarkPreambleTimeout (n : Fin 8) (s : State) : Out := .next (s.markSilent n)

/-- MARK_IDLE_GAP_END: The 40 µs gap ends (R67). -/
def execMarkIdleGapEnd (n : Fin 8) (s : State) : Out := .next (s.markGap n)

/-- MARK_LINE_SHORT: A line shows SHORT during the reads (R70). -/
def execMarkLineShort (n : Fin 8) (s : State) : Out := .next (s.markShort n)

/-- MARK_LINE_LOST: The current of a monitored line is out of range for 10 ms (R72). -/
def execMarkLineLost (n : Fin 8) (s : State) : Out := .next (s.markLost n)

/-- START_END: The start ends (R60, R76, R132, R201). -/
def execStartEnd (s : State) : Out := .next (s.startEnd)

/-- SECURE_IMAGE_UPDATE: The boot firmware updates the SECURE image; `e` says how the copy ends (R408). -/
def execSecureImageUpdate (e : CopyEnd) (s : State) : Out := .next (s.secureUpdate e)

/-- VLOG_FAIL: VLOG stays below the fail threshold (R52). -/
def execVlogFail (s : State) : Out := .next (s.vlogFail)

/-- POWER_FAIL_DONE: The power-fail flush commits, and the dies power off (R52). -/
def execPowerFailDone (s : State) : Out := .next (s.powerFailDone)

/-- CHOLD_OK_REACHED: CHOLD reaches CHOLD_OK (R50). -/
def execCholdOkReached (s : State) : Out := .next (if s.awake then s.cholOk else s)

/-- FEED_LOSS: Feed f falls below 4.5 V (R51). -/
def execFeedLoss (f : Fin 2) (s : State) : Out := .next (s.feedLoss f)

/-- FEED_RETURN: Feed f rises above 4.5 V (R454). -/
def execFeedReturn (f : Fin 2) (s : State) : Out := .next (s.feedReturn f)

/-- DIE_RELOAD_DONE: Power-stage die b has been reloaded (R454). -/
def execDieReloadDone (b : Fin 4) (s : State) : Out := .next (s.dieReload b)

/-- SLEEP_ENTER: A write of FAB_SLEEP_CTRL with ENTER and KEY; `wakeActive` says an armed wake source is active (R61). -/
def execSleepEnter (m : Master) (wakeActive : Bool) (s : State) : Out :=
  .next <|
    let t := { s with start := { s.start with wakeNow := wakeActive } }.regCmd m .FAB_SLEEP_CTRL none 0 (keyed 0x6B19 1)
    { t with start := { t.start with wakeNow := false } }

/-- SLEEP_POWER_OFF: Sleep entry ends, and the compute die powers off (R62). -/
def execSleepPowerOff (s : State) : Out := .next (s.sleepOff)

/-- MI_WAKE_SAMPLE: The 2 ms sample of wake pin p, in mV (R63, R146). -/
def execMiWakeSample (p : Fin 128) (mv : Nat) (s : State) : Out := .next (s.miWake p mv)

/-- WAKE_PIN: WAKE pin n is above 3.5 V for 32 µs (R63). -/
def execWakePin (n : Fin 4) (s : State) : Out := .next (s.wake 2 n)

/-- ISLAND_RESET: An ISL of island n, absorbed by a POR or SYS start (R57); `mv` and `dv` hold voltages of MI and DRV pins then (R10, R55, R154). -/
def execIslandReset (n : Fin 41) (mv : PinMv) (dv : List (Fin 16 × Nat)) (s : State) : Out :=
  .next <|
    let s := if s.awake then s.sensePins mv else s
    if s.live n && !s.starting then (s.islReset n dv).perrAll else s

/-- REGISTER_WRITE: A write at an address (R8, R36). -/
def execRegisterWrite (m : Master) (addr : BitVec 40) (size : Fin 9) (data : BitVec 64) (s : State) : Out :=
  .next (s.issue m addr.toNat size .write data.toNat)

end Sys2Proof.Machine
end

