-- ==== Sys2Proof/Machine/Stations.lean ====
section
/-! DEFINITION. Lathe stations, online change and forces (ch. 9). -/

namespace Sys2Proof.Machine

/-- ALLOW_US passes without a valid IN of station n (R192). -/
def State.stnAllowance (s : State) (n : Nat) : State :=
  if !s.latheRuns || !s.stnEn n then s
  else if s.stnState n = Stn.dropped then s.putStn n { s.stn n with run := 0 }
  else s.stnDrop n 0x10

/-- TIMEOUT_US after the SYNC of task k (R194): the stations without an answer drop, and the latch may complete. -/
def State.stnTimeout (s : State) (k : Nat) : State :=
  if s.latheRuns && (s.tk k).phase == 1 && (s.tk k).sync then
    s.each ((s.taskStations k).filter fun n => s.stnState n != Stn.dropped && !(s.stn n).answered) fun s n => s.stnDrop n 0x12
  else s

/-- The transaction of copy `cp` finds no instant within 100 ms (R197). -/
def State.changeTimeout (s : State) (cp : Nat) : State :=
  if s.latheRuns && s.lth.waiting.contains cp then
    let s := { s with lth := { s.lth with waiting := s.lth.waiting.filter (· != cp) } }
    (s.put F.LTH_CHG_STATUS_RESULT 3 0 0 cp).putItems cp []
  else s

/-- The register copy a command acts through. -/
def copyNo (v : Option (Fin 16)) : Nat := v.elim 0 (·.val + 1)

/-- STATION_IN: A station message arrives from an address on a CAN controller or at a port (R189). -/
def execStationIn (x : StnFrom) (pdu : List (BitVec 8)) (s : State) : Out :=
  .next (if s.latheRuns then s.stnMessage x.eth x.unit x.addr.toNat (natsOf pdu) else s)

/-- STATION_ALLOWANCE_EXPIRY: ALLOW_US passes without a valid IN of station n (R192). -/
def execStationAllowanceExpiry (n : Fin 64) (s : State) : Out := .next (s.stnAllowance n)

/-- STATION_SYNC_TIMEOUT: TIMEOUT_US passes after the SYNC of task k (R194). -/
def execStationSyncTimeout (k : Fin 8) (s : State) : Out := .next (s.stnTimeout k)

/-- CHG_ITEM: A write of LTH_CHG_ITEM (R195). -/
def execChgItem (m : Master) (v : Option (Fin 16)) (sid : BitVec 32) (s : State) : Out :=
  .next (s.regCmd m .LTH_CHG_ITEM v 0 sid.toNat)

/-- CHG_COMMIT: A write of LTH_CHG_CTRL with COMMIT (R196). -/
def execChgCommit (m : Master) (v : Option (Fin 16)) (s : State) : Out := .next (s.regCmd m .LTH_CHG_CTRL v 0 1)

/-- CHG_CLEAR: A write of LTH_CHG_CTRL with CLEAR (R195). -/
def execChgClear (m : Master) (v : Option (Fin 16)) (s : State) : Out := .next (s.regCmd m .LTH_CHG_CTRL v 0 2)

/-- CHANGE_APPLY: The instant of a waiting transaction comes, forces first (R197, R200). -/
def execChangeApply (s : State) : Out := .next (if s.latheLive then s.applyInstant else s)

/-- CHANGE_TIMEOUT: A waiting transaction has found no instant within 100 ms (R197). -/
def execChangeTimeout (v : Option (Fin 16)) (s : State) : Out := .next (State.changeTimeout s (copyNo v))

/-- FORCE_SET: A write of LTH_FRC_CTRL with SET (R200). -/
def execForceSet (m : Master) (v : Option (Fin 16)) (s : State) : Out := .next (s.regCmd m .LTH_FRC_CTRL v 0 1)

/-- FORCE_RELEASE: A write of LTH_FRC_CTRL with RELEASE (R200). -/
def execForceRelease (m : Master) (v : Option (Fin 16)) (s : State) : Out := .next (s.regCmd m .LTH_FRC_CTRL v 0 2)

/-- FORCE_RELEASE_ALL: A write of LTH_FRC_CTRL with RELEASE_ALL (R200). -/
def execForceReleaseAll (m : Master) (v : Option (Fin 16)) (s : State) : Out := .next (s.regCmd m .LTH_FRC_CTRL v 0 3)

/-- FORCE_APPLY: The instant of a force request comes (R200). -/
def execForceApply (s : State) : Out := .next (if s.latheLive then s.applyForces else s)

end Sys2Proof.Machine
end

