-- ==== Sys2Proof/Machine/Till.lean ====
section
/-! DEFINITION. The Till: keys, cryptography and lifecycle (ch. 18). -/

namespace Sys2Proof.Machine

/-- Operation `op` of the running command is carried out (R376); `h` holds the words host memory answers. -/
def State.tillStep (s : State) (op : Nat) (h : HostMem) : State := if s.live 32 then State.tillOp s op h else s

/-- GENERATE: GENERATE of the running command: a new key in DSLOT (R378). -/
def execTillGenerate (h : HostMem) (s : State) : Out := .next (s.tillStep 1 h)

/-- IMPORT: IMPORT of the running command: a key imported into DSLOT (R378). -/
def execTillImport (h : HostMem) (s : State) : Out := .next (s.tillStep 2 h)

/-- UNWRAP: UNWRAP of the running command: a blob unwrapped into DSLOT (R379). -/
def execTillUnwrap (h : HostMem) (s : State) : Out := .next (s.tillStep 3 h)

/-- WRAP: WRAP of the running command: an exportable key wrapped into a blob (R379). -/
def execTillWrap (h : HostMem) (s : State) : Out := .next (s.tillStep 4 h)

/-- DESTROY: DESTROY of the running command: a slot destroyed (R375, R378). -/
def execTillDestroy (h : HostMem) (s : State) : Out := .next (s.tillStep 5 h)

/-- PUBKEY: PUBKEY of the running command: a slot's public key written (R378). -/
def execTillPubkey (h : HostMem) (s : State) : Out := .next (s.tillStep 6 h)

/-- ENCRYPT: ENCRYPT of the running command: AES in CTR or GCM mode (R379). -/
def execTillEncrypt (h : HostMem) (s : State) : Out := .next (s.tillStep 8 h)

/-- DECRYPT: DECRYPT of the running command: AES in CTR or GCM mode (R379). -/
def execTillDecrypt (h : HostMem) (s : State) : Out := .next (s.tillStep 9 h)

/-- MAC: MAC of the running command: an HMAC tag (R378). -/
def execTillMac (h : HostMem) (s : State) : Out := .next (s.tillStep 10 h)

/-- MAC_VERIFY: MAC_VERIFY of the running command: an HMAC tag verified (R379). -/
def execTillMacVerify (h : HostMem) (s : State) : Out := .next (s.tillStep 11 h)

/-- HASH: HASH of the running command: a SHA digest (R378). -/
def execTillHash (h : HostMem) (s : State) : Out := .next (s.tillStep 12 h)

/-- SIGN: SIGN of the running command: ECDSA or Ed25519 (R379). -/
def execTillSign (h : HostMem) (s : State) : Out := .next (s.tillStep 13 h)

/-- VERIFY: VERIFY of the running command: a signature verified (R379). -/
def execTillVerify (h : HostMem) (s : State) : Out := .next (s.tillStep 14 h)

/-- AGREE: AGREE of the running command: ECDH, storing a SECRET (R379). -/
def execTillAgree (h : HostMem) (s : State) : Out := .next (s.tillStep 15 h)

/-- DERIVE: DERIVE of the running command: a key derived by HKDF or the counter KDF (R379). -/
def execTillDerive (h : HostMem) (s : State) : Out := .next (s.tillStep 16 h)

/-- RANDOM: RANDOM of the running command: DRBG output (R380). -/
def execTillRandom (h : HostMem) (s : State) : Out := .next (s.tillStep 17 h)

/-- ATTEST: ATTEST of the running command: a signed statement (R382). -/
def execTillAttest (h : HostMem) (s : State) : Out := .next (s.tillStep 18 h)

/-- CHALLENGE: CHALLENGE of the running command: a new nonce (R385). -/
def execTillChallenge (h : HostMem) (s : State) : Out := .next (s.tillStep 19 h)

/-- LC_CHANGE: LC_CHANGE of the running command: a lifecycle change by token (R386). -/
def execTillLcChange (h : HostMem) (s : State) : Out := .next (s.tillStep 20 h)

/-- UNLOCK: UNLOCK of the running command: the debug unlock by token (R387). -/
def execTillUnlock (h : HostMem) (s : State) : Out := .next (s.tillStep 21 h)

/-- SET_OWNER: SET_OWNER of the running command: the OWNER digest, once in FACTORY (R384). -/
def execTillSetOwner (h : HostMem) (s : State) : Out := .next (s.tillStep 22 h)

/-- TILL_COMMAND_DONE: The running command completes (R376). -/
def execTillCommandDone (s : State) : Out := .next (if s.live 32 then s.tillDone else s)

/-- ENTROPY_HEALTH_FAIL: The noise source fails its health test (R380). -/
def execEntropyHealthFail (s : State) : Out := .next (if s.live 32 then s.entropyFail else s)

/-- ENTROPY_RESTART_PASS: A restart of the entropy source passes its health test (R380). -/
def execEntropyRestartPass (s : State) : Out := .next (if s.live 32 then s.entropyPass else s)

end Sys2Proof.Machine
end

