-- ==== Sys2Proof/Machine/Time.lean ====
section
/-! DEFINITION. Zone time (ch. 14). -/

namespace Sys2Proof.Machine

/-- Whether the time block works. -/
def State.ztmLive (s : State) : Bool := s.live 34

/-- A reference message arrives `ago` ns of raw time after its start of frame (R305, R307). -/
def State.refMessage (s : State) (data : List Nat) (ago : Nat) : State :=
  s.refReceived data ⟨(s.ztm.zone + 2 ^ 64 - ago * s.incrVal / 2 % 2 ^ 64) % 2 ^ 64 / 2 ^ 32, s.now.ep⟩

/-- ZONE_HALF: Time runs on to the next change of bit 31 of ZONE_NS (R295). -/
def execZoneHalf (s : State) : Out := .next (if s.ztmLive then s.runToHalf else s)

/-- INCR_INT_WRITE: A write of ZTM_INCR_INT (R292). -/
def execIncrIntWrite (m : Master) (v : BitVec 32) (s : State) : Out := .next (s.regCmd m .ZTM_INCR_INT none 0 v.toNat)

/-- INCR_FRAC_STAGE: A write of ZTM_INCR_FRAC (R292). -/
def execIncrFracStage (m : Master) (v : BitVec 32) (s : State) : Out := .next (s.regCmd m .ZTM_INCR_FRAC none 0 v.toNat)

/-- EPOCH_OPEN: A write of ZTM_CTRL with OPEN (R296). -/
def execEpochOpen (m : Master) (s : State) : Out := .next (s.regCmd m .ZTM_CTRL none 0 (keyed 0x2E5A 1))

/-- EPOCH_STEP: A write of ZTM_CTRL with STEP, and OPEN as given (R296). -/
def execEpochStep (m : Master) (open_ : Bool) (s : State) : Out :=
  .next (s.regCmd m .ZTM_CTRL none 0 (keyed 0x2E5A (2 + b2n open_)))

/-- ZTM_NOW_READ: A read of ZTM_NOW (R297). -/
def execZtmNowRead (m : Master) (v : Option (Fin 16)) (s : State) : Out := .next (s.regAsk m .ZTM_NOW v 0)

/-- PAIR_SAMPLE: A write of ZTM_PAIR_CTRL with SAMPLE (R303). -/
def execPairSample (m : Master) (v : Option (Fin 16)) (s : State) : Out := .next (s.regCmd m .ZTM_PAIR_CTRL v 0 1)

/-- FALLBACK_ENABLE: A write of ZTM_FB_CFG with EN = 1, its other fields from `w` (R306). -/
def execFallbackEnable (m : Master) (w : BitVec 32) (s : State) : Out :=
  .next (s.regCmd m .ZTM_FB_CFG none 0 (setBitTo w.toNat 5 true))

/-- FALLBACK_DISABLE: A write of ZTM_FB_CFG with EN = 0 (R306). -/
def execFallbackDisable (m : Master) (w : BitVec 32) (s : State) : Out :=
  .next (s.regCmd m .ZTM_FB_CFG none 0 (setBitTo w.toNat 5 false))

/-- FALLBACK_LOSS_TIMEOUT: No qualifying Sync for LOSS_MS (R306). -/
def execFallbackLossTimeout (s : State) : Out := .next (if s.ztmLive then s.fbLoss else s)

/-- REFERENCE_PERIOD: PERIOD_MS passes at the master (R307). -/
def execReferencePeriod (s : State) : Out := .next (if s.ztmLive then s.refPeriod else s)

/-- REFERENCE_MESSAGE_RX: A slave receives a reference message, `ago` ns after its start of frame (R307). -/
def execReferenceMessageRx (data : List (BitVec 8)) (ago : BitVec 32) (s : State) : Out :=
  .next (if s.ztmLive then s.refMessage (natsOf data) ago.toNat else s)

end Sys2Proof.Machine
end

