-- ==== Sys2Proof/Machine/Update.lean ====
section
/-! DEFINITION. Image update (ch. 20). -/

namespace Sys2Proof.Machine

/-- The engine carries out the command at the front when it is operation `op` (R405, R406); `nandErr` says the NAND store failed. -/
def State.updStep (s : State) (op : Nat) (nandErr : Bool) : State := if s.live 39 then s.updRun op nandErr else s

/-- UPDATE_BEGIN: A BEGIN is carried out (R405). -/
def execUpdateBegin (nandErr : Bool) (s : State) : Out := .next (s.updStep 1 nandErr)

/-- UPDATE_BLOCK: A BLOCK is carried out (R405). -/
def execUpdateBlock (nandErr : Bool) (s : State) : Out := .next (s.updStep 2 nandErr)

/-- UPDATE_END: An END is carried out (R405). -/
def execUpdateEnd (nandErr : Bool) (s : State) : Out := .next (s.updStep 3 nandErr)

/-- UPDATE_ABORT: An ABORT is carried out (R405). -/
def execUpdateAbort (nandErr : Bool) (s : State) : Out := .next (s.updStep 4 nandErr)

/-- UPDATE_COMMAND_DONE: The command at the front finishes and reports its status (R406). -/
def execUpdateCommandDone (s : State) : Out := .next (if s.live 39 then s.updDone else s)

/-- UPD_CONFIRM: A write of UPD_CONFIRM with KEY (R410). -/
def execUpdConfirm (m : Master) (kind : Fin 4) (s : State) : Out := .next (s.regCmd m .UPD_CONFIRM none 0 (keyed 0x9A51 kind))

end Sys2Proof.Machine
end

