-- ==== Sys2Proof/Machine/Worlds.lean ====
section
/-! DEFINITION. Secure and normal worlds, and debug (ch. 17). -/

namespace Sys2Proof.Machine

/-- What an address-translation CSR holds after a write (R225): a mode the hart does not implement leaves it as it was. -/
def atpWrite (modes : List Nat) (old new : BitVec 64) : BitVec 64 := if modes.contains (new.toNat / 2 ^ 60) then new else old

/-- What hart h's own instructions have made of it (log entry 29): one that runs, or that the boot firmware has released. -/
def State.hartAt (s : State) (h : Nat) (c : HartCtx) : State :=
  let x := s.ht h
  if !s.awake || s.unitOut 5 h || x.halted then s
  else
    s.putHt h { x with
      pc := c.pc.toNat, priv := c.priv, virt := c.virt, x := c.x, f := c.f, fcsr := c.fcsr.toNat, inReset := false
      satp := atpWrite [0, 8, 9] x.satp c.satp, vsatp := atpWrite [0, 8, 9] x.vsatp c.vsatp, hgatp := atpWrite [0, 8, 9] x.hgatp c.hgatp
      imsic := if c.imsic.length = 2 + geilen then c.imsic else x.imsic
      ppriv := if x.w then c.ppriv else x.ppriv, mwepc := if x.w then c.mwepc.toNat else x.mwepc }

/-- What the restart hart has come to when it takes the restart entry (R366). -/
def State.restartAt (s : State) (c : HartCtx) : State :=
  let x := s.ht s.restartHart
  if x.inReset then s else s.putHt s.restartHart { x with pc := c.pc.toNat, priv := c.priv, x := c.x, f := c.f, fcsr := c.fcsr.toNat }

/-- WCALL: Hart h retires WCALL (R359). -/
def execWcall (h : Fin 6) (c : HartCtx) (s : State) : Out := .next (State.wcall (s.hartAt h c) h)

/-- GATE: Hart h retires GATE at a physical address (R361). -/
def execGate (h : Fin 6) (c : HartCtx) (pa : BitVec 40) (s : State) : Out := .next ((s.hartAt h c).gateCall h pa.toNat)

/-- WRET: Hart h retires WRET (R362). -/
def execWret (h : Fin 6) (c : HartCtx) (s : State) : Out := .next (State.wret (s.hartAt h c) h)

/-- CALL_TIMEOUT: The call timer of hart h reaches 10 ms (R366). -/
def execCallTimeout (h : Fin 6) (s : State) : Out := .next (if s.awake then s.callTimer h else s)

/-- WRLD_WIPE_END: The wipe ends; `c` is the state in which the restart hart takes the restart entry (R366). -/
def execWrldWipeEnd (c : HartCtx) (s : State) : Out := .next (if s.awake && s.wld.wiping then (s.restartAt c).wipeDone else s)

/-- SERVICES_READY: A write of WLD_SVC with READY, HART as given (R365). -/
def execServicesReady (m : Master) (hart : Fin 6) (s : State) : Out := .next (s.regCmd m .WLD_SVC none 0 (hart * 256 + 2 ^ 16))

/-- SERVICES_RESTART: A write of WLD_SVC with RESTART (R366). -/
def execServicesRestart (m : Master) (hart : Fin 6) (s : State) : Out := .next (s.regCmd m .WLD_SVC none 0 (hart * 256 + 2 ^ 17))

/-- RESTART_TIMEOUT: READY is not written within 1 s of the restart entry (R366). -/
def execRestartTimeout (s : State) : Out := .next (if s.awake then State.restartTimeout s else s)

/-- RING_SEC_WRITE: A write of WLD_RING_SEC_k (R356). -/
def execRingSecWrite (m : Master) (k : Fin 8) (w : BitVec 32) (s : State) : Out := .next (s.regCmd m .WLD_RING_SEC none k w.toNat)

/-- MTR_WORLD_WRITE: A write of WLD_MTR_WORLD (R356). -/
def execMtrWorldWrite (m : Master) (w : Fin 4) (s : State) : Out := .next (s.regCmd m .WLD_MTR_WORLD none 0 w)

/-- DEBUG_HALT: A debug halt request (R369). -/
def execDebugHalt (t : DbgTarget) (s : State) : Out := .next (if s.awake then s.dbgHalt t else s)

/-- DEBUG_STEP: A debug single step of hart h (R369). -/
def execDebugStep (h : Fin 6) (k : StepKind) (s : State) : Out := .next (if s.awake then s.dbgStep h k else s)

/-- DEBUG_SYSBUS_READ: A debug system-bus read (R369). -/
def execDebugSysbusRead (addr : BitVec 40) (s : State) : Out := .next (s.issue .debug addr.toNat 4 .read 0)

/-- DEBUG_SYSBUS_WRITE: A debug system-bus write (R369). -/
def execDebugSysbusWrite (addr : BitVec 40) (x : BitVec 32) (s : State) : Out :=
  .next (s.issue .debug addr.toNat 4 .write x.toNat)

/-- DEBUG_RESUME: A debug resume request (R369). -/
def execDebugResume (t : DbgTarget) (s : State) : Out := .next (if s.awake then s.dbgResume t else s)

/-- HDRAWER_WRITE: Hart h writes hdrawer, or reads it (R227). -/
def execHdrawerWrite (h : Fin 6) (c : HartCtx) (v : Option (BitVec 64)) (s : State) : Out :=
  .next ((s.hartAt h c).hdrawerAccess h (v.map BitVec.toNat))

end Sys2Proof.Machine
end

