-- ==== Sys2Proof/Machine/Dispatch.lean ====
section
/-! DEFINITION. One arm per command. -/

namespace Sys2Proof.Machine

def exec (i : Instr) (s : State) : Host.Outcome State Fault Refusal :=
  match i with
  | .vlogValid cut => Sys2Proof.Machine.execVlogValid cut s
  | .rstnAssert => Sys2Proof.Machine.execRstnAssert s
  | .rstReqSys m => Sys2Proof.Machine.execRstReqSys m s
  | .rstReqPor m => Sys2Proof.Machine.execRstReqPor m s
  | .pllLoss => Sys2Proof.Machine.execPllLoss s
  | .bootRomRun boot carcass secure => Sys2Proof.Machine.execBootRomRun boot carcass secure s
  | .carcassBankChecked mv => Sys2Proof.Machine.execCarcassBankChecked mv s
  | .miStartTest p pass => Sys2Proof.Machine.execMiStartTest p pass s
  | .portStartTest p pass => Sys2Proof.Machine.execPortStartTest p pass s
  | .canStartTest k pass => Sys2Proof.Machine.execCanStartTest k pass s
  | .coreSelfTest c pass => Sys2Proof.Machine.execCoreSelfTest c pass s
  | .sramSelfTest u pass => Sys2Proof.Machine.execSramSelfTest u pass s
  | .markMemoryReady n c => Sys2Proof.Machine.execMarkMemoryReady n c s
  | .markAnswer n bytes crc => Sys2Proof.Machine.execMarkAnswer n bytes crc s
  | .markPreambleTimeout n => Sys2Proof.Machine.execMarkPreambleTimeout n s
  | .markIdleGapEnd n => Sys2Proof.Machine.execMarkIdleGapEnd n s
  | .markLineShort n => Sys2Proof.Machine.execMarkLineShort n s
  | .markLineLost n => Sys2Proof.Machine.execMarkLineLost n s
  | .startEnd => Sys2Proof.Machine.execStartEnd s
  | .secureImageUpdate e => Sys2Proof.Machine.execSecureImageUpdate e s
  | .vlogFail => Sys2Proof.Machine.execVlogFail s
  | .powerFailDone => Sys2Proof.Machine.execPowerFailDone s
  | .choldOkReached => Sys2Proof.Machine.execCholdOkReached s
  | .feedLoss f => Sys2Proof.Machine.execFeedLoss f s
  | .feedReturn f => Sys2Proof.Machine.execFeedReturn f s
  | .dieReloadDone b => Sys2Proof.Machine.execDieReloadDone b s
  | .sleepEnter m wakeActive => Sys2Proof.Machine.execSleepEnter m wakeActive s
  | .sleepPowerOff => Sys2Proof.Machine.execSleepPowerOff s
  | .miWakeSample p mv => Sys2Proof.Machine.execMiWakeSample p mv s
  | .wakePin n => Sys2Proof.Machine.execWakePin n s
  | .islandReset n mv dv => Sys2Proof.Machine.execIslandReset n mv dv s
  | .registerWrite m addr size data => Sys2Proof.Machine.execRegisterWrite m addr size data s
  | .arbitrationGrant k claims => Sys2Proof.Machine.execArbitrationGrant k claims s
  | .islReqOn m n => Sys2Proof.Machine.execIslReqOn m n s
  | .islReqClockGate m n => Sys2Proof.Machine.execIslReqClockGate m n s
  | .islReqPowerOff m n => Sys2Proof.Machine.execIslReqPowerOff m n s
  | .islandDrainEnd n => Sys2Proof.Machine.execIslandDrainEnd n s
  | .claimBoundExpiry n => Sys2Proof.Machine.execClaimBoundExpiry n s
  | .islandWipeEnd n => Sys2Proof.Machine.execIslandWipeEnd n s
  | .islandWakeEnd n mv dv => Sys2Proof.Machine.execIslandWakeEnd n mv dv s
  | .claimInc m n => Sys2Proof.Machine.execClaimInc m n s
  | .claimDec m n => Sys2Proof.Machine.execClaimDec m n s
  | .move m cls src dst => Sys2Proof.Machine.execMove m cls src dst s
  | .moveCommit => Sys2Proof.Machine.execMoveCommit s
  | .moveDone => Sys2Proof.Machine.execMoveDone s
  | .featureCommit m d => Sys2Proof.Machine.execFeatureCommit m d s
  | .drwRstReqDrain m d => Sys2Proof.Machine.execDrwRstReqDrain m d s
  | .drwRstReqSquash m d => Sys2Proof.Machine.execDrwRstReqSquash m d s
  | .drwRstDrain m d => Sys2Proof.Machine.execDrwRstDrain m d s
  | .drwRstSquash m d => Sys2Proof.Machine.execDrwRstSquash m d s
  | .drainEscalation d => Sys2Proof.Machine.execDrainEscalation d s
  | .drawerResetComplete d => Sys2Proof.Machine.execDrawerResetComplete d s
  | .ringTailWrite m v r tail => Sys2Proof.Machine.execRingTailWrite m v r tail s
  | .ringEnable m v r => Sys2Proof.Machine.execRingEnable m v r s
  | .ringDisable m v r => Sys2Proof.Machine.execRingDisable m v r s
  | .ringResume m v r => Sys2Proof.Machine.execRingResume m v r s
  | .descriptorFetch r h => Sys2Proof.Machine.execDescriptorFetch r h s
  | .unitCommit r h => Sys2Proof.Machine.execUnitCommit r h s
  | .descriptorComplete r => Sys2Proof.Machine.execDescriptorComplete r s
  | .translationWalkDone d sec h va wr => Sys2Proof.Machine.execTranslationWalkDone d sec h va wr s
  | .ringFault r h => Sys2Proof.Machine.execRingFault r h s
  | .faultPop m d => Sys2Proof.Machine.execFaultPop m d s
  | .faultHeadRead m d => Sys2Proof.Machine.execFaultHeadRead m d s
  | .rxHoldExpiry r => Sys2Proof.Machine.execRxHoldExpiry r s
  | .ethTxCellRead r => Sys2Proof.Machine.execEthTxCellRead r s
  | .granuleWrite m g w => Sys2Proof.Machine.execGranuleWrite m g w s
  | .invalAll m => Sys2Proof.Machine.execInvalAll m s
  | .invalDrawer m d => Sys2Proof.Machine.execInvalDrawer m d s
  | .invalPage m d => Sys2Proof.Machine.execInvalPage m d s
  | .invalStage1 m d => Sys2Proof.Machine.execInvalStage1 m d s
  | .s1inval m d => Sys2Proof.Machine.execS1inval m d s
  | .invalDone who => Sys2Proof.Machine.execInvalDone who s
  | .dirtySwap m d => Sys2Proof.Machine.execDirtySwap m d s
  | .dirtySwapDone d => Sys2Proof.Machine.execDirtySwapDone d s
  | .lchCmdOn m v c on => Sys2Proof.Machine.execLchCmdOn m v c on s
  | .rearm m v c on => Sys2Proof.Machine.execRearm m v c on s
  | .slewEnd c => Sys2Proof.Machine.execSlewEnd c s
  | .inrushWindowEnd c => Sys2Proof.Machine.execInrushWindowEnd c s
  | .edgeComplete c => Sys2Proof.Machine.execEdgeComplete c s
  | .activationGapEnd c => Sys2Proof.Machine.execActivationGapEnd c s
  | .pwmPeriodStart k => Sys2Proof.Machine.execPwmPeriodStart k s
  | .pwmDutyEnd k => Sys2Proof.Machine.execPwmDutyEnd k s
  | .drvLevelChange p mv => Sys2Proof.Machine.execDrvLevelChange p mv s
  | .ocWarnChange c above => Sys2Proof.Machine.execOcWarnChange c above s
  | .ocTrip c => Sys2Proof.Machine.execOcTrip c s
  | .shortFast c => Sys2Proof.Machine.execShortFast c s
  | .segShareTrip c => Sys2Proof.Machine.execSegShareTrip c s
  | .tempWarnChange c hot => Sys2Proof.Machine.execTempWarnChange c hot s
  | .tempLatch c => Sys2Proof.Machine.execTempLatch c s
  | .tempLatchRelease c => Sys2Proof.Machine.execTempLatchRelease c s
  | .wireModelStep c meanI2 => Sys2Proof.Machine.execWireModelStep c meanI2 s
  | .openLoadOnstate c below => Sys2Proof.Machine.execOpenLoadOnstate c below s
  | .offStateCheckTick b l => Sys2Proof.Machine.execOffStateCheckTick b l s
  | .offStateShortSample c high => Sys2Proof.Machine.execOffStateShortSample c high s
  | .offStateOpenSample c high => Sys2Proof.Machine.execOffStateOpenSample c high s
  | .restart c => Sys2Proof.Machine.execRestart c s
  | .episodeClose c => Sys2Proof.Machine.execEpisodeClose c s
  | .retirementRecord kind unit => Sys2Proof.Machine.execRetirementRecord kind unit s
  | .holdMsExpiry c => Sys2Proof.Machine.execHoldMsExpiry c s
  | .feedMean f mean => Sys2Proof.Machine.execFeedMean f mean s
  | .shedStep f means => Sys2Proof.Machine.execShedStep f means s
  | .restore f => Sys2Proof.Machine.execRestore f s
  | .clampResultTrue r mv => Sys2Proof.Machine.execClampResultTrue r mv s
  | .clampResultFalse r mv => Sys2Proof.Machine.execClampResultFalse r mv s
  | .clampAck m x => Sys2Proof.Machine.execClampAck m x s
  | .miLevelChange p mv => Sys2Proof.Machine.execMiLevelChange p mv s
  | .analogConversion p code comp => Sys2Proof.Machine.execAnalogConversion p code comp s
  | .freqRisingEdge p ticks => Sys2Proof.Machine.execFreqRisingEdge p ticks s
  | .freqStall p => Sys2Proof.Machine.execFreqStall p s
  | .taskRelease k => Sys2Proof.Machine.execTaskRelease k s
  | .latchComplete k => Sys2Proof.Machine.execLatchComplete k s
  | .instanceLimit l => Sys2Proof.Machine.execInstanceLimit l s
  | .commit resp => Sys2Proof.Machine.execCommit resp s
  | .errorTaskRelease => Sys2Proof.Machine.execErrorTaskRelease s
  | .lthErrPop m => Sys2Proof.Machine.execLthErrPop m s
  | .taskStart m v k => Sys2Proof.Machine.execTaskStart m v k s
  | .latheStop m => Sys2Proof.Machine.execLatheStop m s
  | .latheRunWarm m => Sys2Proof.Machine.execLatheRunWarm m s
  | .latheRunCold m => Sys2Proof.Machine.execLatheRunCold m s
  | .latheInitEnd => Sys2Proof.Machine.execLatheInitEnd s
  | .retentiveSaveDone => Sys2Proof.Machine.execRetentiveSaveDone s
  | .latheReloadDone => Sys2Proof.Machine.execLatheReloadDone s
  | .slotDataRead m v => Sys2Proof.Machine.execSlotDataRead m v s
  | .opNop l => Sys2Proof.Machine.execOpNop l s
  | .opMov l c d b => Sys2Proof.Machine.execOpMov l c d b s
  | .opLdb l c a bit => Sys2Proof.Machine.execOpLdb l c a bit s
  | .opLdbn l c a bit => Sys2Proof.Machine.execOpLdbn l c a bit s
  | .opAndb l c a bit => Sys2Proof.Machine.execOpAndb l c a bit s
  | .opAndbn l c a bit => Sys2Proof.Machine.execOpAndbn l c a bit s
  | .opOrb l c a bit => Sys2Proof.Machine.execOpOrb l c a bit s
  | .opOrbn l c a bit => Sys2Proof.Machine.execOpOrbn l c a bit s
  | .opXorb l c a bit => Sys2Proof.Machine.execOpXorb l c a bit s
  | .opStb l c d bit => Sys2Proof.Machine.execOpStb l c d bit s
  | .opStbn l c d bit => Sys2Proof.Machine.execOpStbn l c d bit s
  | .opSetb l c d bit => Sys2Proof.Machine.execOpSetb l c d bit s
  | .opRstb l c d bit => Sys2Proof.Machine.execOpRstb l c d bit s
  | .opNotf l c => Sys2Proof.Machine.execOpNotf l c s
  | .opLdf l c a => Sys2Proof.Machine.execOpLdf l c a s
  | .opStf l c d => Sys2Proof.Machine.execOpStf l c d s
  | .opAdd l c d a b => Sys2Proof.Machine.execOpAdd l c d a b s
  | .opSub l c d a b => Sys2Proof.Machine.execOpSub l c d a b s
  | .opMul l c d a b => Sys2Proof.Machine.execOpMul l c d a b s
  | .opDiv l c d a b => Sys2Proof.Machine.execOpDiv l c d a b s
  | .opMod l c d a b => Sys2Proof.Machine.execOpMod l c d a b s
  | .opAnd l c d a b => Sys2Proof.Machine.execOpAnd l c d a b s
  | .opOr l c d a b => Sys2Proof.Machine.execOpOr l c d a b s
  | .opXor l c d a b => Sys2Proof.Machine.execOpXor l c d a b s
  | .opNot l c d a => Sys2Proof.Machine.execOpNot l c d a s
  | .opShl l c d a b => Sys2Proof.Machine.execOpShl l c d a b s
  | .opShr l c d a b => Sys2Proof.Machine.execOpShr l c d a b s
  | .opSar l c d a b => Sys2Proof.Machine.execOpSar l c d a b s
  | .opRol l c d a b => Sys2Proof.Machine.execOpRol l c d a b s
  | .opMin l c d a b => Sys2Proof.Machine.execOpMin l c d a b s
  | .opMax l c d a b => Sys2Proof.Machine.execOpMax l c d a b s
  | .opLimit l c d a b => Sys2Proof.Machine.execOpLimit l c d a b s
  | .opEq l c a b => Sys2Proof.Machine.execOpEq l c a b s
  | .opNe l c a b => Sys2Proof.Machine.execOpNe l c a b s
  | .opLt l c a b => Sys2Proof.Machine.execOpLt l c a b s
  | .opLe l c a b => Sys2Proof.Machine.execOpLe l c a b s
  | .opGt l c a b => Sys2Proof.Machine.execOpGt l c a b s
  | .opGe l c a b => Sys2Proof.Machine.execOpGe l c a b s
  | .opLtu l c a b => Sys2Proof.Machine.execOpLtu l c a b s
  | .opGeu l c a b => Sys2Proof.Machine.execOpGeu l c a b s
  | .opFadd l c d a b => Sys2Proof.Machine.execOpFadd l c d a b s
  | .opFsub l c d a b => Sys2Proof.Machine.execOpFsub l c d a b s
  | .opFmul l c d a b => Sys2Proof.Machine.execOpFmul l c d a b s
  | .opFdiv l c d a b => Sys2Proof.Machine.execOpFdiv l c d a b s
  | .opFsqrt l c d a => Sys2Proof.Machine.execOpFsqrt l c d a s
  | .opFmin l c d a b => Sys2Proof.Machine.execOpFmin l c d a b s
  | .opFmax l c d a b => Sys2Proof.Machine.execOpFmax l c d a b s
  | .opFabs l c d a => Sys2Proof.Machine.execOpFabs l c d a s
  | .opFneg l c d a => Sys2Proof.Machine.execOpFneg l c d a s
  | .opFlt l c a b => Sys2Proof.Machine.execOpFlt l c a b s
  | .opFle l c a b => Sys2Proof.Machine.execOpFle l c a b s
  | .opFeq l c a b => Sys2Proof.Machine.execOpFeq l c a b s
  | .opItof l c d a => Sys2Proof.Machine.execOpItof l c d a s
  | .opFtoi l c d a => Sys2Proof.Machine.execOpFtoi l c d a s
  | .opSel l c d a b => Sys2Proof.Machine.execOpSel l c d a b s
  | .opLdx l c d a b => Sys2Proof.Machine.execOpLdx l c d a b s
  | .opStx l c d a b => Sys2Proof.Machine.execOpStx l c d a b s
  | .opRedge l d => Sys2Proof.Machine.execOpRedge l d s
  | .opFedge l d => Sys2Proof.Machine.execOpFedge l d s
  | .opTon l d a => Sys2Proof.Machine.execOpTon l d a s
  | .opTof l d a => Sys2Proof.Machine.execOpTof l d a s
  | .opTp l d a => Sys2Proof.Machine.execOpTp l d a s
  | .opCtu l d a => Sys2Proof.Machine.execOpCtu l d a s
  | .opCtd l d a => Sys2Proof.Machine.execOpCtd l d a s
  | .opCload l d a => Sys2Proof.Machine.execOpCload l d a s
  | .opJmp l t => Sys2Proof.Machine.execOpJmp l t s
  | .opJf l t => Sys2Proof.Machine.execOpJf l t s
  | .opJnf l t => Sys2Proof.Machine.execOpJnf l t s
  | .opCall l t => Sys2Proof.Machine.execOpCall l t s
  | .opRet l => Sys2Proof.Machine.execOpRet l s
  | .opEnd l => Sys2Proof.Machine.execOpEnd l s
  | .opRdtb l c d => Sys2Proof.Machine.execOpRdtb l c d s
  | .opRdzt l c d => Sys2Proof.Machine.execOpRdzt l c d s
  | .opTrap l c b => Sys2Proof.Machine.execOpTrap l c b s
  | .stationIn x pdu => Sys2Proof.Machine.execStationIn x pdu s
  | .stationAllowanceExpiry n => Sys2Proof.Machine.execStationAllowanceExpiry n s
  | .stationSyncTimeout k => Sys2Proof.Machine.execStationSyncTimeout k s
  | .chgItem m v sid => Sys2Proof.Machine.execChgItem m v sid s
  | .chgCommit m v => Sys2Proof.Machine.execChgCommit m v s
  | .chgClear m v => Sys2Proof.Machine.execChgClear m v s
  | .changeApply => Sys2Proof.Machine.execChangeApply s
  | .changeTimeout v => Sys2Proof.Machine.execChangeTimeout v s
  | .forceSet m v => Sys2Proof.Machine.execForceSet m v s
  | .forceRelease m v => Sys2Proof.Machine.execForceRelease m v s
  | .forceReleaseAll m v => Sys2Proof.Machine.execForceReleaseAll m v s
  | .forceApply => Sys2Proof.Machine.execForceApply s
  | .mitreRun m cores => Sys2Proof.Machine.execMitreRun m cores s
  | .mitreHalt m cores => Sys2Proof.Machine.execMitreHalt m cores s
  | .mitreTest m => Sys2Proof.Machine.execMitreTest m s
  | .mitreClear m => Sys2Proof.Machine.execMitreClear m s
  | .mitreSelfTest lanes sigFail => Sys2Proof.Machine.execMitreSelfTest lanes sigFail s
  | .copyAEnd r => Sys2Proof.Machine.execCopyAEnd r s
  | .copyBEnd r => Sys2Proof.Machine.execCopyBEnd r s
  | .copyCEnd r => Sys2Proof.Machine.execCopyCEnd r s
  | .resyncEnd => Sys2Proof.Machine.execResyncEnd s
  | .doorbell m => Sys2Proof.Machine.execDoorbell m s
  | .lmemDataAccess m data => Sys2Proof.Machine.execLmemDataAccess m data s
  | .switchFrameArrival p => Sys2Proof.Machine.execSwitchFrameArrival p s
  | .egressSelect p sent deferred => Sys2Proof.Machine.execEgressSelect p sent deferred s
  | .egressDone p c => Sys2Proof.Machine.execEgressDone p c s
  | .launchTime q => Sys2Proof.Machine.execLaunchTime q s
  | .fdbAgingScan => Sys2Proof.Machine.execFdbAgingScan s
  | .fdbLookup m => Sys2Proof.Machine.execFdbLookup m s
  | .fdbAddStatic m => Sys2Proof.Machine.execFdbAddStatic m s
  | .fdbDelete m => Sys2Proof.Machine.execFdbDelete m s
  | .fdbFlushPort m => Sys2Proof.Machine.execFdbFlushPort m s
  | .fdbFlushAll m => Sys2Proof.Machine.execFdbFlushAll m s
  | .tblLoad m => Sys2Proof.Machine.execTblLoad m s
  | .tblCommit m => Sys2Proof.Machine.execTblCommit m s
  | .tblDataAccess m data => Sys2Proof.Machine.execTblDataAccess m data s
  | .cbsIdleSlopeWrite m q v => Sys2Proof.Machine.execCbsIdleSlopeWrite m q v s
  | .gateCycleStart l newList => Sys2Proof.Machine.execGateCycleStart l newList s
  | .gateEntryEnd l => Sys2Proof.Machine.execGateEntryEnd l s
  | .frerResetTimeout n => Sys2Proof.Machine.execFrerResetTimeout n s
  | .captureBufferTimeout r => Sys2Proof.Machine.execCaptureBufferTimeout r s
  | .portLinkEnable m p w => Sys2Proof.Machine.execPortLinkEnable m p w s
  | .portLinkDisable m p w => Sys2Proof.Machine.execPortLinkDisable m p w s
  | .retrain m p w => Sys2Proof.Machine.execRetrain m p w s
  | .trainingComplete x => Sys2Proof.Machine.execTrainingComplete x s
  | .trainingTimeLimit p => Sys2Proof.Machine.execTrainingTimeLimit p s
  | .linkLoss p => Sys2Proof.Machine.execLinkLoss p s
  | .macRxFrame p bytes kind frags => Sys2Proof.Machine.execMacRxFrame p bytes kind frags s
  | .pauseReceived p quanta => Sys2Proof.Machine.execPauseReceived p quanta s
  | .pauseExpiry p => Sys2Proof.Machine.execPauseExpiry p s
  | .pauseWatchdog p => Sys2Proof.Machine.execPauseWatchdog p s
  | .pmacWrite m p w => Sys2Proof.Machine.execPmacWrite m p w s
  | .verifyTimer p => Sys2Proof.Machine.execVerifyTimer p s
  | .respondMpacket p => Sys2Proof.Machine.execRespondMpacket p s
  | .collision p late => Sys2Proof.Machine.execCollision p late s
  | .backoffExpiry p => Sys2Proof.Machine.execBackoffExpiry p s
  | .saInstall m v p a slot => Sys2Proof.Machine.execSaInstall m v p a slot s
  | .saRemove m v p a => Sys2Proof.Machine.execSaRemove m v p a s
  | .phyFault p => Sys2Proof.Machine.execPhyFault p s
  | .zoneHalf => Sys2Proof.Machine.execZoneHalf s
  | .incrIntWrite m v => Sys2Proof.Machine.execIncrIntWrite m v s
  | .incrFracStage m v => Sys2Proof.Machine.execIncrFracStage m v s
  | .epochOpen m => Sys2Proof.Machine.execEpochOpen m s
  | .epochStep m open_ => Sys2Proof.Machine.execEpochStep m open_ s
  | .ztmNowRead m v => Sys2Proof.Machine.execZtmNowRead m v s
  | .pairSample m v => Sys2Proof.Machine.execPairSample m v s
  | .fallbackEnable m w => Sys2Proof.Machine.execFallbackEnable m w s
  | .fallbackDisable m w => Sys2Proof.Machine.execFallbackDisable m w s
  | .fallbackLossTimeout => Sys2Proof.Machine.execFallbackLossTimeout s
  | .referencePeriod => Sys2Proof.Machine.execReferencePeriod s
  | .referenceMessageRx data ago => Sys2Proof.Machine.execReferenceMessageRx data ago s
  | .canModeConfig m v k w => Sys2Proof.Machine.execCanModeConfig m v k w s
  | .canModeNormal m v k w => Sys2Proof.Machine.execCanModeNormal m v k w s
  | .canModeRestricted m v k w => Sys2Proof.Machine.execCanModeRestricted m v k w s
  | .canModeMonitor m v k w => Sys2Proof.Machine.execCanModeMonitor m v k w s
  | .canRecover m v k => Sys2Proof.Machine.execCanRecover m v k s
  | .canBusIntegrated k => Sys2Proof.Machine.execCanBusIntegrated k s
  | .canRecoveryDone k => Sys2Proof.Machine.execCanRecoveryDone k s
  | .canError k lec tec rec_ => Sys2Proof.Machine.execCanError k lec tec rec_ s
  | .canProtocolException k => Sys2Proof.Machine.execCanProtocolException k s
  | .canOvertemp k hot => Sys2Proof.Machine.execCanOvertemp k hot s
  | .mbReq m v k mb => Sys2Proof.Machine.execMbReq m v k mb s
  | .mbAbort m v k mb => Sys2Proof.Machine.execMbAbort m v k mb s
  | .canFrameStart k => Sys2Proof.Machine.execCanFrameStart k s
  | .canArbLost k => Sys2Proof.Machine.execCanArbLost k s
  | .canArbWon k => Sys2Proof.Machine.execCanArbWon k s
  | .canTxComplete k tec rec_ => Sys2Proof.Machine.execCanTxComplete k tec rec_ s
  | .canRxFrame k f ago tec rec_ => Sys2Proof.Machine.execCanRxFrame k f ago tec rec_ s
  | .canRxDeliver k => Sys2Proof.Machine.execCanRxDeliver k s
  | .mramDataAccess m v k data => Sys2Proof.Machine.execMramDataAccess m v k data s
  | .acfCfgWrite m v k w => Sys2Proof.Machine.execAcfCfgWrite m v k w s
  | .tunnelTxRelease k => Sys2Proof.Machine.execTunnelTxRelease k s
  | .acfRx k => Sys2Proof.Machine.execAcfRx k s
  | .canWakePattern k => Sys2Proof.Machine.execCanWakePattern k s
  | .pciePoisonedWrite f addr => Sys2Proof.Machine.execPciePoisonedWrite f addr s
  | .functionLevelReset f => Sys2Proof.Machine.execFunctionLevelReset f s
  | .vfEnableClear => Sys2Proof.Machine.execVfEnableClear s
  | .pcieLinkDown => Sys2Proof.Machine.execPcieLinkDown s
  | .amoW m o addr x => Sys2Proof.Machine.execAmoW m o addr x s
  | .lrW c virt addr => Sys2Proof.Machine.execLrW c virt addr s
  | .scW c virt addr x => Sys2Proof.Machine.execScW c virt addr x s
  | .reservationExpiry h => Sys2Proof.Machine.execReservationExpiry h s
  | .pcieFetchAdd f addr x => Sys2Proof.Machine.execPcieFetchAdd f addr x s
  | .pcieSwap f addr x => Sys2Proof.Machine.execPcieSwap f addr x s
  | .pcieCas f addr cmp x => Sys2Proof.Machine.execPcieCas f addr cmp x s
  | .prefetchLineExpiry n => Sys2Proof.Machine.execPrefetchLineExpiry n s
  | .postedWriteFailure d src unit addr cause data => Sys2Proof.Machine.execPostedWriteFailure d src unit addr cause data s
  | .hostReadFailure r cause va => Sys2Proof.Machine.execHostReadFailure r cause va s
  | .fence m v => Sys2Proof.Machine.execFence m v s
  | .fenceAck m v tag => Sys2Proof.Machine.execFenceAck m v tag s
  | .interruptScan => Sys2Proof.Machine.execInterruptScan s
  | .eoi m v vec => Sys2Proof.Machine.execEoi m v vec s
  | .msixPendingSend f v => Sys2Proof.Machine.execMsixPendingSend f v s
  | .wcall h c => Sys2Proof.Machine.execWcall h c s
  | .gate h c pa => Sys2Proof.Machine.execGate h c pa s
  | .wret h c => Sys2Proof.Machine.execWret h c s
  | .callTimeout h => Sys2Proof.Machine.execCallTimeout h s
  | .wrldWipeEnd c => Sys2Proof.Machine.execWrldWipeEnd c s
  | .servicesReady m hart => Sys2Proof.Machine.execServicesReady m hart s
  | .servicesRestart m hart => Sys2Proof.Machine.execServicesRestart m hart s
  | .restartTimeout => Sys2Proof.Machine.execRestartTimeout s
  | .ringSecWrite m k w => Sys2Proof.Machine.execRingSecWrite m k w s
  | .mtrWorldWrite m w => Sys2Proof.Machine.execMtrWorldWrite m w s
  | .debugHalt t => Sys2Proof.Machine.execDebugHalt t s
  | .debugStep h k => Sys2Proof.Machine.execDebugStep h k s
  | .debugSysbusRead addr => Sys2Proof.Machine.execDebugSysbusRead addr s
  | .debugSysbusWrite addr x => Sys2Proof.Machine.execDebugSysbusWrite addr x s
  | .tillGenerate h => Sys2Proof.Machine.execTillGenerate h s
  | .tillImport h => Sys2Proof.Machine.execTillImport h s
  | .tillUnwrap h => Sys2Proof.Machine.execTillUnwrap h s
  | .tillWrap h => Sys2Proof.Machine.execTillWrap h s
  | .tillDestroy h => Sys2Proof.Machine.execTillDestroy h s
  | .tillPubkey h => Sys2Proof.Machine.execTillPubkey h s
  | .tillEncrypt h => Sys2Proof.Machine.execTillEncrypt h s
  | .tillDecrypt h => Sys2Proof.Machine.execTillDecrypt h s
  | .tillMac h => Sys2Proof.Machine.execTillMac h s
  | .tillMacVerify h => Sys2Proof.Machine.execTillMacVerify h s
  | .tillHash h => Sys2Proof.Machine.execTillHash h s
  | .tillSign h => Sys2Proof.Machine.execTillSign h s
  | .tillVerify h => Sys2Proof.Machine.execTillVerify h s
  | .tillAgree h => Sys2Proof.Machine.execTillAgree h s
  | .tillDerive h => Sys2Proof.Machine.execTillDerive h s
  | .tillRandom h => Sys2Proof.Machine.execTillRandom h s
  | .tillAttest h => Sys2Proof.Machine.execTillAttest h s
  | .tillChallenge h => Sys2Proof.Machine.execTillChallenge h s
  | .tillLcChange h => Sys2Proof.Machine.execTillLcChange h s
  | .tillUnlock h => Sys2Proof.Machine.execTillUnlock h s
  | .tillSetOwner h => Sys2Proof.Machine.execTillSetOwner h s
  | .tillCommandDone => Sys2Proof.Machine.execTillCommandDone s
  | .entropyHealthFail => Sys2Proof.Machine.execEntropyHealthFail s
  | .sampleMerge l => Sys2Proof.Machine.execSampleMerge l s
  | .flushPeriodic => Sys2Proof.Machine.execFlushPeriodic s
  | .flushGo m => Sys2Proof.Machine.execFlushGo m s
  | .flushDone => Sys2Proof.Machine.execFlushDone s
  | .itemConfig m => Sys2Proof.Machine.execItemConfig m s
  | .itemClear m n => Sys2Proof.Machine.execItemClear m n s
  | .itemClearAll m => Sys2Proof.Machine.execItemClearAll m s
  | .windowSnapshot m v => Sys2Proof.Machine.execWindowSnapshot m v s
  | .windowAdvance m v => Sys2Proof.Machine.execWindowAdvance m v s
  | .alarmHeadRead m => Sys2Proof.Machine.execAlarmHeadRead m s
  | .alarmPop m => Sys2Proof.Machine.execAlarmPop m s
  | .logDeliver d => Sys2Proof.Machine.execLogDeliver d s
  | .logBufferTimeout r => Sys2Proof.Machine.execLogBufferTimeout r s
  | .traceLevelUpdate d => Sys2Proof.Machine.execTraceLevelUpdate d s
  | .updateBegin nandErr => Sys2Proof.Machine.execUpdateBegin nandErr s
  | .updateBlock nandErr => Sys2Proof.Machine.execUpdateBlock nandErr s
  | .updateEnd nandErr => Sys2Proof.Machine.execUpdateEnd nandErr s
  | .updateAbort nandErr => Sys2Proof.Machine.execUpdateAbort nandErr s
  | .updateCommandDone => Sys2Proof.Machine.execUpdateCommandDone s
  | .updConfirm m kind => Sys2Proof.Machine.execUpdConfirm m kind s
  | .coreRuntimeError c => Sys2Proof.Machine.execCoreRuntimeError c s
  | .scrubRead u x => Sys2Proof.Machine.execScrubRead u x s
  | .sramCorrectableError u => Sys2Proof.Machine.execSramCorrectableError u s
  | .sramUncorrectableError m addr size op data => Sys2Proof.Machine.execSramUncorrectableError m addr size op data s
  | .retirementClear m kind unit => Sys2Proof.Machine.execRetirementClear m kind unit s
  | .safenRelease m force => Sys2Proof.Machine.execSafenRelease m force s
  | .safenForce m on => Sys2Proof.Machine.execSafenForce m on s
  | .safenMaskWrite m w => Sys2Proof.Machine.execSafenMaskWrite m w s
  | .registerRead m addr size => Sys2Proof.Machine.execRegisterRead m addr size s
  | .memoryAccess m addr size op data => Sys2Proof.Machine.execMemoryAccess m addr size op data s
  | .hardShortWindowEnd c => Sys2Proof.Machine.execHardShortWindowEnd c s
  | .pcieLinkUp gen lanes => Sys2Proof.Machine.execPcieLinkUp gen lanes s
  | .pcieConfigWrite f w => Sys2Proof.Machine.execPcieConfigWrite f w s
  | .debugResume t => Sys2Proof.Machine.execDebugResume t s
  | .hdrawerWrite h c v => Sys2Proof.Machine.execHdrawerWrite h c v s
  | .entropyRestartPass => Sys2Proof.Machine.execEntropyRestartPass s
  | .ceWindowEnd u => Sys2Proof.Machine.execCeWindowEnd u s
  | .fdbOperationDone => Sys2Proof.Machine.execFdbOperationDone s

end Sys2Proof.Machine
end

