-- ==== Sys2Proof/WellFormed.lean ====
section
/-! DEFINITION. Which commands are well formed: operands within what the spec's fields can hold, where their types do not say so. -/

namespace Sys2Proof
open Machine

/-- A number that 32 bits hold. -/
def wordFits (n : Nat) : Bool := decide (n < 2 ^ 32)

/-- No element stands twice in a list. -/
def noRepeat {α : Type} [DecidableEq α] : List α → Bool
  | [] => true
  | a :: l => !l.contains a && noRepeat l

/-- Numbers rise strictly. -/
def rising : List Nat → Bool
  | a :: b :: l => decide (a < b) && rising (b :: l)
  | _ => true

/-- Host words: each address / 8 once, in rising order, with 64-bit words. -/
def hostMemOk (h : HostMem) : Bool := rising (h.map (·.1)) && h.all fun p => decide (p.1 < 2 ^ 61) && decide (p.2 < 2 ^ 64)

/-- A CAN frame (R309, R323): an identifier of its format, one format, and data that fit it. -/
def canFrameOk (f : CanFrame) : Bool :=
  decide (f.id < if f.ide then 2 ^ 29 else 2 ^ 11) && !(f.fdf && f.xlf) && !(f.rtr && (f.fdf || f.xlf)) &&
    decide (f.data.length ≤ if f.xlf then 2048 else if f.fdf then 64 else 8) && f.data.all (fun b => decide (b < 256)) &&
    decide (f.sdt < 256) && decide (f.vcid < 256) && wordFits f.af && decide (f.dlc < 2048)

/-- A slice's record (R206, R209): byte enables of four lanes, and the words of the end of the slice. -/
def copyRecOk (r : CopyRec) : Bool :=
  r.queue.all (fun e => decide (e.addr < 2 ^ 32) && decide (e.be < 16)) && decide (r.regs.length = 72)

/-- A hart's state (R225): 32 registers of each kind, x0 zero, and a privilege mode that exists. -/
def hartCtxOk (c : HartCtx) : Bool :=
  decide (c.x.length = 32) && decide (c.f.length = 32) && c.x.head? == some 0#64 && c.priv != 2 && c.ppriv != 2 &&
    decide (c.imsic.length = 2 + geilen)

/-- How a copy ends (R409): at a page an image can have. -/
def copyEndOk : CopyEnd → Bool
  | .whole => true
  | .mismatch p => decide (p < 4096)
  | .unreadable p => decide (p < 4096)
  | .cut p => decide (p < 4096)

/-- A single step (R369): a pc of 64 bits, a physical address of 40. -/
def stepOk : StepKind → Bool
  | .plain pc => decide (pc < 2 ^ 64)
  | .gate pa => decide (pa < 2 ^ 40)
  | .wcall => true
  | .wret => true

/-- A configuration write (R333): an MSI-X entry's address and data. -/
def cfgWriteOk : CfgWrite → Bool
  | .msixEntry _ a d _ => decide (a < 2 ^ 64) && wordFits d
  | .bme _ => true
  | .mse _ => true
  | .msixEnable _ => true
  | .functionMask _ => true
  | .dState _ => true
  | .completionTimeout _ => true
  | .vfEnable => true

/-- What an access does: a compare value of 64 bits at most. -/
def accOpOk : AccOp → Bool
  | .cas c => decide (c < 2 ^ 64)
  | .read => true
  | .write => true
  | .amo _ => true
  | .lr => true
  | .sc => true
  | .fetch => true

/-- A sample (R390): a source kind of the recorder, and a stamp of 32 and 16 bits. -/
def sampleOk (x : Sample) : Bool := decide (x.kind < 16) && decide (x.index < 2 ^ 16) && wordFits x.at_.ns && decide (x.at_.ep < 2 ^ 16)

/-- A claim (R41): a source that makes claims. -/
def claimOk (c : Claim) : Bool := decide (c.num < 256) && (c.src == .core || c.src == .pcie || c.src == .dma || c.src == .mitre)

/-- Who issues an AMO (R339): harts and Mitre cores. -/
def amoMaster : Master → Bool
  | .hart _ _ => true
  | .mitre _ => true
  | .pcie _ => false
  | .debug => false

/-- Whether a command is well formed. -/
def Instr.wf (i : Instr) : Bool :=
  match i with
  | .vlogValid _ => true
  | .rstnAssert => true
  | .rstReqSys _ => true
  | .rstReqPor _ => true
  | .pllLoss => true
  | .bootRomRun boot carcass secure => copyEndOk boot && copyEndOk carcass && copyEndOk secure
  | .carcassBankChecked _ => true
  | .miStartTest _ _ => true
  | .portStartTest _ _ => true
  | .canStartTest _ _ => true
  | .coreSelfTest _ _ => true
  | .sramSelfTest _ _ => true
  | .markMemoryReady _ _ => true
  | .markAnswer _ bytes _ => decide (bytes.length ≤ 4096)
  | .markPreambleTimeout _ => true
  | .markIdleGapEnd _ => true
  | .markLineShort _ => true
  | .markLineLost _ => true
  | .startEnd => true
  | .secureImageUpdate e => copyEndOk e
  | .vlogFail => true
  | .powerFailDone => true
  | .choldOkReached => true
  | .feedLoss _ => true
  | .feedReturn _ => true
  | .dieReloadDone _ => true
  | .sleepEnter _ _ => true
  | .sleepPowerOff => true
  | .miWakeSample _ mv => wordFits mv
  | .wakePin _ => true
  | .islandReset _ _ _ => true
  | .registerWrite _ _ size _ => size != 0
  | .arbitrationGrant _ claims => claims.all claimOk
  | .islReqOn _ _ => true
  | .islReqClockGate _ _ => true
  | .islReqPowerOff _ _ => true
  | .islandDrainEnd _ => true
  | .claimBoundExpiry _ => true
  | .islandWipeEnd _ => true
  | .islandWakeEnd _ _ _ => true
  | .claimInc _ _ => true
  | .claimDec _ _ => true
  | .move _ _ _ _ => true
  | .moveCommit => true
  | .moveDone => true
  | .featureCommit _ _ => true
  | .drwRstReqDrain _ _ => true
  | .drwRstReqSquash _ _ => true
  | .drwRstDrain _ _ => true
  | .drwRstSquash _ _ => true
  | .drainEscalation _ => true
  | .drawerResetComplete _ => true
  | .ringTailWrite _ _ _ _ => true
  | .ringEnable _ _ _ => true
  | .ringDisable _ _ _ => true
  | .ringResume _ _ _ => true
  | .descriptorFetch _ h => hostMemOk h
  | .unitCommit _ h => hostMemOk h
  | .descriptorComplete _ => true
  | .translationWalkDone _ _ h _ _ => hostMemOk h
  | .ringFault _ h => hostMemOk h
  | .faultPop _ _ => true
  | .faultHeadRead _ _ => true
  | .rxHoldExpiry _ => true
  | .ethTxCellRead _ => true
  | .granuleWrite _ _ _ => true
  | .invalAll _ => true
  | .invalDrawer _ _ => true
  | .invalPage _ _ => true
  | .invalStage1 _ _ => true
  | .s1inval _ _ => true
  | .invalDone _ => true
  | .dirtySwap _ _ => true
  | .dirtySwapDone _ => true
  | .lchCmdOn _ _ _ _ => true
  | .rearm _ _ _ _ => true
  | .slewEnd _ => true
  | .inrushWindowEnd _ => true
  | .edgeComplete _ => true
  | .activationGapEnd _ => true
  | .pwmPeriodStart _ => true
  | .pwmDutyEnd _ => true
  | .drvLevelChange _ mv => wordFits mv
  | .ocWarnChange _ _ => true
  | .ocTrip _ => true
  | .shortFast _ => true
  | .segShareTrip _ => true
  | .tempWarnChange _ _ => true
  | .tempLatch _ => true
  | .tempLatchRelease _ => true
  | .wireModelStep _ meanI2 => decide (meanI2 < 2 ^ 64)
  | .openLoadOnstate _ _ => true
  | .offStateCheckTick _ l => noRepeat l
  | .offStateShortSample _ _ => true
  | .offStateOpenSample _ _ => true
  | .restart _ => true
  | .episodeClose _ => true
  | .retirementRecord _ _ => true
  | .holdMsExpiry _ => true
  | .feedMean _ mean => wordFits mean
  | .shedStep _ means => (noRepeat (means.map (·.1)) && means.all fun p => wordFits p.2)
  | .restore _ => true
  | .clampResultTrue _ _ => true
  | .clampResultFalse _ _ => true
  | .clampAck _ _ => true
  | .miLevelChange _ mv => wordFits mv
  | .analogConversion _ _ _ => true
  | .freqRisingEdge _ _ => true
  | .freqStall _ => true
  | .taskRelease _ => true
  | .latchComplete _ => true
  | .instanceLimit _ => true
  | .commit _ => true
  | .errorTaskRelease => true
  | .lthErrPop _ => true
  | .taskStart _ _ _ => true
  | .latheStop _ => true
  | .latheRunWarm _ => true
  | .latheRunCold _ => true
  | .latheInitEnd => true
  | .retentiveSaveDone => true
  | .latheReloadDone => true
  | .slotDataRead _ _ => true
  | .opNop _ => true
  | .opMov _ _ _ _ => true
  | .opLdb _ _ _ _ => true
  | .opLdbn _ _ _ _ => true
  | .opAndb _ _ _ _ => true
  | .opAndbn _ _ _ _ => true
  | .opOrb _ _ _ _ => true
  | .opOrbn _ _ _ _ => true
  | .opXorb _ _ _ _ => true
  | .opStb _ _ _ _ => true
  | .opStbn _ _ _ _ => true
  | .opSetb _ _ _ _ => true
  | .opRstb _ _ _ _ => true
  | .opNotf _ _ => true
  | .opLdf _ _ _ => true
  | .opStf _ _ _ => true
  | .opAdd _ _ _ _ _ => true
  | .opSub _ _ _ _ _ => true
  | .opMul _ _ _ _ _ => true
  | .opDiv _ _ _ _ _ => true
  | .opMod _ _ _ _ _ => true
  | .opAnd _ _ _ _ _ => true
  | .opOr _ _ _ _ _ => true
  | .opXor _ _ _ _ _ => true
  | .opNot _ _ _ _ => true
  | .opShl _ _ _ _ _ => true
  | .opShr _ _ _ _ _ => true
  | .opSar _ _ _ _ _ => true
  | .opRol _ _ _ _ _ => true
  | .opMin _ _ _ _ _ => true
  | .opMax _ _ _ _ _ => true
  | .opLimit _ _ _ _ _ => true
  | .opEq _ _ _ _ => true
  | .opNe _ _ _ _ => true
  | .opLt _ _ _ _ => true
  | .opLe _ _ _ _ => true
  | .opGt _ _ _ _ => true
  | .opGe _ _ _ _ => true
  | .opLtu _ _ _ _ => true
  | .opGeu _ _ _ _ => true
  | .opFadd _ _ _ _ _ => true
  | .opFsub _ _ _ _ _ => true
  | .opFmul _ _ _ _ _ => true
  | .opFdiv _ _ _ _ _ => true
  | .opFsqrt _ _ _ _ => true
  | .opFmin _ _ _ _ _ => true
  | .opFmax _ _ _ _ _ => true
  | .opFabs _ _ _ _ => true
  | .opFneg _ _ _ _ => true
  | .opFlt _ _ _ _ => true
  | .opFle _ _ _ _ => true
  | .opFeq _ _ _ _ => true
  | .opItof _ _ _ _ => true
  | .opFtoi _ _ _ _ => true
  | .opSel _ _ _ _ _ => true
  | .opLdx _ _ _ _ _ => true
  | .opStx _ _ _ _ _ => true
  | .opRedge _ _ => true
  | .opFedge _ _ => true
  | .opTon _ _ _ => true
  | .opTof _ _ _ => true
  | .opTp _ _ _ => true
  | .opCtu _ _ _ => true
  | .opCtd _ _ _ => true
  | .opCload _ _ _ => true
  | .opJmp _ _ => true
  | .opJf _ _ => true
  | .opJnf _ _ => true
  | .opCall _ _ => true
  | .opRet _ => true
  | .opEnd _ => true
  | .opRdtb _ _ _ => true
  | .opRdzt _ _ _ => true
  | .opTrap _ _ _ => true
  | .stationIn _ pdu => decide (pdu.length ≤ 2100)
  | .stationAllowanceExpiry _ => true
  | .stationSyncTimeout _ => true
  | .chgItem _ _ _ => true
  | .chgCommit _ _ => true
  | .chgClear _ _ => true
  | .changeApply => true
  | .changeTimeout _ => true
  | .forceSet _ _ => true
  | .forceRelease _ _ => true
  | .forceReleaseAll _ _ => true
  | .forceApply => true
  | .mitreRun _ _ => true
  | .mitreHalt _ _ => true
  | .mitreTest _ => true
  | .mitreClear _ => true
  | .mitreSelfTest _ _ => true
  | .copyAEnd r => copyRecOk r
  | .copyBEnd r => copyRecOk r
  | .copyCEnd r => copyRecOk r
  | .resyncEnd => true
  | .doorbell _ => true
  | .lmemDataAccess _ _ => true
  | .switchFrameArrival _ => true
  | .egressSelect _ sent _ => wordFits sent
  | .egressDone _ _ => true
  | .launchTime _ => true
  | .fdbAgingScan => true
  | .fdbLookup _ => true
  | .fdbAddStatic _ => true
  | .fdbDelete _ => true
  | .fdbFlushPort _ => true
  | .fdbFlushAll _ => true
  | .tblLoad _ => true
  | .tblCommit _ => true
  | .tblDataAccess _ _ => true
  | .cbsIdleSlopeWrite _ _ _ => true
  | .gateCycleStart _ _ => true
  | .gateEntryEnd _ => true
  | .frerResetTimeout _ => true
  | .captureBufferTimeout _ => true
  | .portLinkEnable _ _ _ => true
  | .portLinkDisable _ _ _ => true
  | .retrain _ _ _ => true
  | .trainingComplete _ => true
  | .trainingTimeLimit _ => true
  | .linkLoss _ => true
  | .macRxFrame _ bytes _ frags => decide (bytes.length ≤ 2100) && wordFits frags
  | .pauseReceived _ _ => true
  | .pauseExpiry _ => true
  | .pauseWatchdog _ => true
  | .pmacWrite _ _ _ => true
  | .verifyTimer _ => true
  | .respondMpacket _ => true
  | .collision _ _ => true
  | .backoffExpiry _ => true
  | .saInstall _ _ _ _ _ => true
  | .saRemove _ _ _ _ => true
  | .phyFault _ => true
  | .zoneHalf => true
  | .incrIntWrite _ _ => true
  | .incrFracStage _ _ => true
  | .epochOpen _ => true
  | .epochStep _ _ => true
  | .ztmNowRead _ _ => true
  | .pairSample _ _ => true
  | .fallbackEnable _ _ => true
  | .fallbackDisable _ _ => true
  | .fallbackLossTimeout => true
  | .referencePeriod => true
  | .referenceMessageRx data _ => decide (data.length = 8)
  | .canModeConfig _ _ _ _ => true
  | .canModeNormal _ _ _ _ => true
  | .canModeRestricted _ _ _ _ => true
  | .canModeMonitor _ _ _ _ => true
  | .canRecover _ _ _ => true
  | .canBusIntegrated _ => true
  | .canRecoveryDone _ => true
  | .canError _ _ _ _ => true
  | .canProtocolException _ => true
  | .canOvertemp _ _ => true
  | .mbReq _ _ _ _ => true
  | .mbAbort _ _ _ _ => true
  | .canFrameStart _ => true
  | .canArbLost _ => true
  | .canArbWon _ => true
  | .canTxComplete _ _ _ => true
  | .canRxFrame _ f _ _ _ => canFrameOk f
  | .canRxDeliver _ => true
  | .mramDataAccess _ _ _ _ => true
  | .acfCfgWrite _ _ _ _ => true
  | .tunnelTxRelease _ => true
  | .acfRx _ => true
  | .canWakePattern _ => true
  | .pciePoisonedWrite _ _ => true
  | .functionLevelReset _ => true
  | .vfEnableClear => true
  | .pcieLinkDown => true
  | .amoW m _ _ _ => amoMaster m
  | .lrW _ _ _ => true
  | .scW _ _ _ _ => true
  | .reservationExpiry _ => true
  | .pcieFetchAdd _ _ _ => true
  | .pcieSwap _ _ _ => true
  | .pcieCas _ _ _ _ => true
  | .prefetchLineExpiry _ => true
  | .postedWriteFailure _ _ _ _ _ _ => true
  | .hostReadFailure _ _ _ => true
  | .fence _ _ => true
  | .fenceAck _ _ _ => true
  | .interruptScan => true
  | .eoi _ _ _ => true
  | .msixPendingSend _ _ => true
  | .wcall _ c => hartCtxOk c
  | .gate _ c _ => hartCtxOk c
  | .wret _ c => hartCtxOk c
  | .callTimeout _ => true
  | .wrldWipeEnd c => hartCtxOk c
  | .servicesReady _ _ => true
  | .servicesRestart _ _ => true
  | .restartTimeout => true
  | .ringSecWrite _ _ _ => true
  | .mtrWorldWrite _ _ => true
  | .debugHalt _ => true
  | .debugStep _ k => stepOk k
  | .debugSysbusRead _ => true
  | .debugSysbusWrite _ _ => true
  | .tillGenerate h => hostMemOk h
  | .tillImport h => hostMemOk h
  | .tillUnwrap h => hostMemOk h
  | .tillWrap h => hostMemOk h
  | .tillDestroy h => hostMemOk h
  | .tillPubkey h => hostMemOk h
  | .tillEncrypt h => hostMemOk h
  | .tillDecrypt h => hostMemOk h
  | .tillMac h => hostMemOk h
  | .tillMacVerify h => hostMemOk h
  | .tillHash h => hostMemOk h
  | .tillSign h => hostMemOk h
  | .tillVerify h => hostMemOk h
  | .tillAgree h => hostMemOk h
  | .tillDerive h => hostMemOk h
  | .tillRandom h => hostMemOk h
  | .tillAttest h => hostMemOk h
  | .tillChallenge h => hostMemOk h
  | .tillLcChange h => hostMemOk h
  | .tillUnlock h => hostMemOk h
  | .tillSetOwner h => hostMemOk h
  | .tillCommandDone => true
  | .entropyHealthFail => true
  | .sampleMerge l => l.all sampleOk
  | .flushPeriodic => true
  | .flushGo _ => true
  | .flushDone => true
  | .itemConfig _ => true
  | .itemClear _ _ => true
  | .itemClearAll _ => true
  | .windowSnapshot _ _ => true
  | .windowAdvance _ _ => true
  | .alarmHeadRead _ => true
  | .alarmPop _ => true
  | .logDeliver _ => true
  | .logBufferTimeout _ => true
  | .traceLevelUpdate _ => true
  | .updateBegin _ => true
  | .updateBlock _ => true
  | .updateEnd _ => true
  | .updateAbort _ => true
  | .updateCommandDone => true
  | .updConfirm _ _ => true
  | .coreRuntimeError _ => true
  | .scrubRead _ _ => true
  | .sramCorrectableError _ => true
  | .sramUncorrectableError _ _ size op _ => size != 0 && accOpOk op
  | .retirementClear _ _ _ => true
  | .safenRelease _ _ => true
  | .safenForce _ _ => true
  | .safenMaskWrite _ _ => true
  | .registerRead _ _ size => size != 0
  | .memoryAccess _ _ size op _ => size != 0 && accOpOk op
  | .hardShortWindowEnd _ => true
  | .pcieLinkUp _ _ => true
  | .pcieConfigWrite _ w => cfgWriteOk w
  | .debugResume _ => true
  | .hdrawerWrite _ c _ => hartCtxOk c
  | .entropyRestartPass => true
  | .ceWindowEnd _ => true
  | .fdbOperationDone => true

/-- A well-formed command. -/
abbrev Instr.WellFormed (i : Instr) : Prop := i.wf = true

end Sys2Proof
end

