-- ==== Sys2Proof/Safety.lean ====
section
/-! DEFINITION. What a safe step is, the invariant every step keeps, and when an access a master makes reaches its target at once. -/

namespace Sys2Proof.Machine

/-- A safe step: the machine goes on. -/
def State.Safe (s : State) : Prop := ∃ t, step s = .next t

/-- Command `c` completes in state `s`, and the state it leaves has property `P`. -/
def Gives (c : Instr) (s : State) (P : State → Prop) : Prop := ∃ t, exec c s = .next t ∧ P t

/-- The invariant: memory has its canonical form, and every waiting command is well formed. -/
def State.Inv (s : State) : Prop := Memory.wf s.mem = true ∧ ∀ c ∈ s.pending, c.WellFormed

/-- Commands whose effect may reach a byte of memory: accesses, engines that store records, starts and restarts, and commands that
a register write carries. No other command changes memory. -/
def mayStore (c : Instr) : Bool :=
  match c with
  | .acfCfgWrite .. | .alarmHeadRead .. | .alarmPop .. | .amoW .. | .bootRomRun .. | .callTimeout ..
    | .canModeConfig .. | .canModeMonitor .. | .canModeNormal .. | .canModeRestricted .. | .canRecover ..
    | .canWakePattern .. | .cbsIdleSlopeWrite .. | .chgClear .. | .chgCommit .. | .chgItem .. | .claimDec ..
    | .claimInc .. | .clampAck .. | .copyBEnd .. | .copyCEnd .. | .coreRuntimeError .. | .debugSysbusRead ..
    | .debugSysbusWrite .. | .descriptorComplete .. | .dirtySwap .. | .doorbell .. | .drwRstDrain ..
    | .drwRstReqDrain .. | .drwRstReqSquash .. | .drwRstSquash .. | .eoi .. | .epochOpen .. | .epochStep ..
    | .fallbackDisable .. | .fallbackEnable .. | .faultHeadRead .. | .faultPop .. | .fdbAddStatic .. | .fdbDelete ..
    | .fdbFlushAll .. | .fdbFlushPort .. | .fdbLookup .. | .featureCommit .. | .fence .. | .fenceAck .. | .flushGo ..
    | .forceRelease .. | .forceReleaseAll .. | .forceSet .. | .granuleWrite .. | .incrFracStage .. | .incrIntWrite ..
    | .invalAll .. | .invalDrawer .. | .invalPage .. | .invalStage1 .. | .islReqClockGate .. | .islReqOn ..
    | .islReqPowerOff .. | .islandDrainEnd .. | .islandReset .. | .islandWakeEnd ..
    | .islandWipeEnd .. | .itemClear .. | .itemClearAll ..
    | .itemConfig .. | .latheRunCold .. | .latheRunWarm .. | .latheStop .. | .lchCmdOn .. | .lmemDataAccess ..
    | .lrW .. | .lthErrPop .. | .macRxFrame .. | .mbAbort .. | .mbReq .. | .memoryAccess .. | .miWakeSample ..
    | .mitreClear .. | .mitreHalt .. | .mitreRun .. | .mitreTest .. | .move .. | .mramDataAccess ..
    | .mtrWorldWrite .. | .ocTrip .. | .pairSample .. | .pauseReceived .. | .pcieCas .. | .pcieFetchAdd .. | .pcieSwap .. | .pllLoss ..
    | .pmacWrite .. | .portLinkDisable .. | .portLinkEnable .. | .powerFailDone .. | .rearm .. | .registerRead ..
    | .registerWrite .. | .reservationExpiry .. | .restartTimeout .. | .retirementClear .. | .retrain ..
    | .ringDisable .. | .ringEnable .. | .ringResume .. | .ringSecWrite .. | .ringTailWrite .. | .rstReqPor ..
    | .rstReqSys .. | .rstnAssert .. | .s1inval .. | .saInstall .. | .saRemove .. | .safenForce ..
    | .safenMaskWrite .. | .safenRelease .. | .scW .. | .secureImageUpdate .. | .segShareTrip .. | .servicesReady ..
    | .servicesRestart .. | .shortFast .. | .sleepEnter .. | .sleepPowerOff .. | .slotDataRead ..
    | .sramUncorrectableError .. | .taskStart .. | .tblCommit .. | .tblDataAccess .. | .tblLoad .. | .tempLatch ..
    | .tillAgree .. | .tillAttest .. | .tillChallenge .. | .tillDecrypt .. | .tillDerive .. | .tillDestroy ..
    | .tillEncrypt .. | .tillGenerate .. | .tillHash .. | .tillImport .. | .tillLcChange .. | .tillMac ..
    | .tillMacVerify .. | .tillPubkey .. | .tillRandom .. | .tillSetOwner .. | .tillSign .. | .tillUnlock ..
    | .tillUnwrap .. | .tillVerify .. | .tillWrap .. | .translationWalkDone .. | .unitCommit .. | .updConfirm ..
    | .vlogValid .. | .wakePin .. | .windowAdvance .. | .windowSnapshot .. | .wireModelStep .. | .ztmNowRead .. => true
  | _ => false

/-- The access that master `m` presents at its point of entry, when it is in a state to present one (R35, R334, R369): a hart that runs, a
PCIe function whose BAR takes the address and whose drawer has HOST binding, a Mitre core that runs and has no interrupt to take (in braced
mode copy A, for a load), outside its local memory and below what no Mitre access reaches (R202), or a debugger that the enables let act. -/
def State.presents (s : State) (m : Master) (addr size : Nat) (op : AccOp) (data : Nat) : Option Access :=
  match m with
  | .hart h v =>
    if (s.ht h).halted || (s.ht h).inReset || s.unitOut 5 h || op == .fetch then none else some ⟨s.hartTag h v, h, addr, size, op, data, 0⟩
  | .pcie f =>
    if s.awake && s.is F.DWL_LINK_DL_UP && s.fnExists f && (s.fn f).mse && !(s.fn f).d3 && inBar f addr && s.hostBound f then
      some ⟨⟨f, false, .pcie⟩, f, addr, size, op, data, 0⟩
    else none
  | .mitre c =>
    if s.mtrRuns c && !s.inLmem addr size && decide (addr + size ≤ lmemBase) &&
        (if s.mtrSplit then op != .lr && op != .sc && decide (s.coreIrq c (s.mtrLines c) = s) else op == .read) then
      some ⟨⟨0, s.mtrSecure c, .mitre⟩, Fin.ofNat 16 c, addr, size, op, data, 0⟩
    else none
  | .debug =>
    if (if op.writes then s.dbgAct true else s.dbgSee true) then some ⟨⟨0, true, .debug⟩, 0, addr, size, op, data, 0⟩
    else if (if op.writes then s.dbgAct false else s.dbgSee false) then
      some ⟨⟨0, false, .debug⟩, 0, addr, size, op, data, 0⟩
    else none

/-- An access passes every check of R36 and waits for nothing: not for an island, a semaphore or its requester's earlier accesses. -/
def State.opens (s : State) (a : Access) : Prop :=
  s.awake = true ∧ (s.tagTaken a).cause (s.tagGiven a) = 0 ∧ (s.tagTaken a).semBlocks (s.tagGiven a) = false ∧
    (s.tagTaken a).waitKey (s.tagGiven a) = none

/-- The state in which an access that opens is performed: it has used its sequence tag, a write has discarded its requester's prefetched
lines, and counted those that had served nothing, and the arbitration point on its way has granted it. Nothing else has changed. -/
def State.taken (s : State) (a : Access) : State :=
  (if a.op.writes then (s.tagTaken a).lineWrite a.tag a.num a.addr else s.tagTaken a).pointed a

/-- The position that an address of register `r` names: in the global window, or in the view of a drawer. -/
def hitOf (r : RegId) (view : Option (Fin 16)) (i j : Nat) : Hit :=
  match view with
  | none => ⟨r, r, 0, i, j, none⟩
  | some n =>
    match (regDef r).shows with
    | some t => ⟨r, t, 0, n.val, i, some n.val⟩
    | none => ⟨r, r, if (regDef r).kind = .both then 0 else n.val + 1, i, j, some n.val⟩

/-- The copy of a kept-apart register that the global window, or the view of a drawer, holds (R12). -/
def viewCopy : Option (Fin 16) → Nat
  | none => 0
  | some d => d.val + 1

/-- Master `m` writes `w` at a position of register `r`, and the write, access `a`, reaches the register at once. -/
def State.writes (s : State) (m : Master) (r : RegId) (view : Option (Fin 16)) (i j w : Nat) (a : Access) : Prop :=
  s.presents m (regAddr r view i j) 4 .write w = some a ∧ s.opens a

/-- Master `m` reads a position of register `r`, and the read, access `a`, reaches the register at once: no prefetched line serves it. -/
def State.reads (s : State) (m : Master) (r : RegId) (view : Option (Fin 16)) (i j : Nat) (a : Access) : Prop :=
  s.presents m (regAddr r view i j) 4 .read 0 = some a ∧ s.opens a ∧ s.lineServe a.tag a.num a.addr = none

/-- Lane `l` executes an operation of task `k`: the engine runs, and the task is in its execute phase, below its limit (R172, R174). -/
def State.executes (s : State) (l k : Nat) : Prop :=
  s.laneTask l = some k ∧ s.latheRuns = true ∧ (s.tk k).phase = 3 ∧ (s.tk k).cycles < 32768

/-- The operation `c` comes to `o` where task `k` stands at its word in the program (R164, R172). -/
def State.op (s : State) (k : Nat) (c : Instr) (o : Out) : Prop := s.opAt k = laneWord c → exec c s = o

/-- Slot `n` is one that operations of task `k` write (R158): its own OUTPUT or MEMORY. -/
def State.ownSlot (s : State) (k n : Nat) : Prop :=
  n < s.slotCount ∧ s.slotTask n = k ∧ (s.slotArea n = Area.output ∨ s.slotArea n = Area.memory)

end Sys2Proof.Machine
end

