-- ==== Sys2Proof/Certificates/Slice0/Obligations.lean ====
section
/-! DEFINITION. The statements for the provers: what commands do, family by family, and what every step keeps. -/

open Sys2Proof Sys2Proof.Machine

/-- The queue is first in, first out, and a step runs its front command. -/
def Obligations.StepRunsTheFrontCommand : Prop :=
  ∀ (c : Instr) (s : State), step { s with pending := c :: s.pending } = exec c s

/-- What every step keeps. -/
def Obligations.EveryStepKeepsTheInvariant : Prop :=
  ∀ s : State, s.Inv → ∃ t, step s = .next t ∧ t.Inv ∧ t.pending = s.pending.tail

/-- What reset leaves. -/
def Obligations.ResetHoldsTheInvariant : Prop :=
  State.reset.Inv ∧ State.reset.mem = [] ∧ State.reset.pending = [] ∧ State.reset.img = none ∧ State.reset.phase = Ph.began ∧
    State.reset.is F.FAB_PWR_STATUS_VLOG_OK = true ∧
    ∀ (r : RegId) (f : FieldDef) (i j cp : Nat), f ∈ (regDef r).fields → r ≠ .FAB_PWR_STATUS → i < 4096 → j < 64 → cp < 32 →
      State.reset.get ⟨r, f.hi, f.lo⟩ i j cp = f.rst

/-- R8: the access codes; R7: reserved bits read as zero. -/
def Obligations.RegisterFieldsFollowTheirAccessCodes : Prop :=
  ∀ (s : State) (r : RegId) (w i j cp : Nat) (f : FieldDef), f ∈ (regDef r).fields →
    let x : Fld := ⟨r, f.hi, f.lo⟩
    let d := bitsOf (BitVec.ofNat 32 w).toNat f.hi f.lo
    ((s.store r w i j cp).get x i j cp =
      match f.acc with
      | .rw => d
      | .w1c => s.get x i j cp - (s.get x i j cp &&& d)
      | .w1s => s.get x i j cp ||| d
      | .ro => s.get x i j cp
      | .wo => s.get x i j cp
      | .rc => s.get x i j cp) ∧
    (∀ v : Word, fieldGet (readable r v) f.hi f.lo = if f.acc = .wo then 0 else fieldGet v f.hi f.lo) ∧
    (∀ v : Word, fieldGet (afterRead r v) f.hi f.lo = if f.acc = .rc then 0 else fieldGet v f.hi f.lo) ∧
    (∀ (v : Word) (b : Nat), (∀ g ∈ (regDef r).fields, b < g.lo ∨ g.hi < b) → (readable r v).getLsbD b = false) ∧
    ∀ (y : Fld) (i2 j2 cp2 : Nat), keyOf y.reg cp2 i2 j2 ≠ keyOf r cp i j → (s.store r w i j cp).get y i2 j2 cp2 = s.get y i2 j2 cp2

/-- R33, R34: the register map. -/
def Obligations.RegisterAddressesNameOnePosition : Prop :=
  ∀ (r r2 : RegId) (v v2 : Option (Fin 16)) (i j i2 j2 : Nat),
    (v = none → (regDef r).kind ≠ .view) → (v ≠ none → (regDef r).kind ≠ .glob) → i < (regDef r).n1 → j < (regDef r).n2 →
    (v2 = none → (regDef r2).kind ≠ .view) → (v2 ≠ none → (regDef r2).kind ≠ .glob) → i2 < (regDef r2).n1 → j2 < (regDef r2).n2 →
    hitAt (regAddr r v i j) = some (hitOf r v i j) ∧
      (regAddr r v i j = regAddr r2 v2 i2 j2 → hitOf r v i j = hitOf r2 v2 i2 j2)

/-- R8, R33, R36, R229: accesses. -/
def Obligations.GrantedAccessesArePerformed : Prop :=
  (∀ (s : State) (m : Master) (r : RegId) (v : Option (Fin 16)) (i j : Nat) (w : BitVec 32) (a : Access),
    hitAt (regAddr r v i j) = some (hitOf r v i j) → s.posLive (hitOf r v i j) = true → isWindow (regAddr r v i j) = true →
    (s.writes m r v i j w.toNat a →
      exec (.registerWrite m (BitVec.ofNat 40 (regAddr r v i j)) 4 (w.setWidth 64)) s =
        let t := ((s.taken a).regWrite (hitOf r v i j) a.tag w.toNat).answer true 0
        .next (if (hitOf r v i j).reg = .FAB_ISL_REQ then t.retry else t)) ∧
    (s.reads m r v i j a →
      let q := (s.taken a).regRead (hitOf r v i j) a.tag
      exec (.registerRead m (BitVec.ofNat 40 (regAddr r v i j)) 4) s = .next (((q.2.answer true q.1).mtrLogged a).prefetch a))) ∧
  ∀ (s : State) (m : Master) (addr : BitVec 40) (size : Fin 9) (op : AccOp) (data : BitVec 64) (a : Access),
    s.presents m addr.toNat size op data.toNat = some a → s.opens a → isWindow addr.toNat = false →
    let u := s.taken a
    let old := leNat (memBytes s.mem addr.toNat size)
    (op = .read → ¬(size = 4 ∧ emulated addr.toNat) → exec (.memoryAccess m addr size op data) s =
        .next ((u.answer true old).mtrLogged a)) ∧
    (op = .write → 0x40000 ≤ addr.toNat →
      exec (.memoryAccess m addr size op data) s =
        .next ({ u with mem := memWrite u.mem addr.toNat (leBytes size data.toNat) }.answer true 0)) ∧
    (∀ o, op = .amo o → 0x40000 ≤ addr.toNat →
      exec (.memoryAccess m addr size op data) s =
        .next ({ u.semTaken a with mem := memWrite u.mem addr.toNat (leBytes size (atomicResult o size old data.toNat)) }.answer true old)) ∧
    (∀ x, op = .cas x → old ≠ x → exec (.memoryAccess m addr size op data) s =
        .next ((u.semTaken a).answer true old)) ∧
    (op = .lr → emulated addr.toNat = false → exec (.memoryAccess m addr size op data) s = .next (u.answer true old)) ∧
    (∀ l x, x < addr.toNat ∨ addr.toNat + List.length l ≤ x → memByte (memWrite s.mem addr.toNat l) x = memByte s.mem x) ∧
    (∀ l k, k < List.length l → memByte (memWrite s.mem addr.toNat l) (addr.toNat + k) = BitVec.ofNat 8 (l.getD k 0))

/-- R37, R48: what a refused access leaves. -/
def Obligations.RefusedAccessesChangeNothing : Prop :=
  ∀ (s : State) (m : Master) (addr : BitVec 40) (size : Fin 9) (op : AccOp) (data : BitVec 64) (a : Access),
    s.presents m addr.toNat size op data.toNat = some a → s.awake = true → (s.tagTaken a).cause (s.tagGiven a) ≠ 0 →
    Gives (.memoryAccess m addr size op data) s fun t =>
      t.mem = s.mem ∧ t.resp = ⟨false, 0⟩ ∧ t.lth = s.lth ∧ t.dvt = s.dvt ∧ t.til = s.til ∧ t.ring = s.ring ∧
        t.is F.FAB_AERR_INFO_VALID = true ∧
        (s.is F.FAB_AERR_INFO_VALID = false → t.get F.FAB_AERR_INFO_CAUSE = (s.tagTaken a).cause (s.tagGiven a) % 16) ∧
        t.get F.FAB_AERR_COUNT_COUNT = min (s.get F.FAB_AERR_COUNT_COUNT + 1) (2 ^ 32 - 1)

/-- R229, R353, R354: isolation of memory. -/
def Obligations.DrawerStoresStayInTheirGranules : Prop :=
  ∀ (s t : State) (m : Master) (addr : BitVec 40) (size : Fin 9) (data : BitVec 64) (a : Access),
    s.presents m addr.toNat size .write data.toNat = some a → s.opens a → isWindow addr.toNat = false →
    a.tag.drawer ≠ 0 → a.tag.secure = false → size ≠ 0 →
    exec (.memoryAccess m addr size .write data) s = .next t →
    ∀ x, memByte t.mem x ≠ memByte s.mem x →
      s.granuleOwner x = some a.tag.drawer.val ∧ s.secureAddr x = false

/-- The frame of every command over memory. -/
def Obligations.OtherCommandsLeaveMemory : Prop :=
  ∀ (c : Instr) (s t : State), mayStore c = false → exec c s = .next t → ∀ x, memByte t.mem x = memByte s.mem x

/-- R44 to R47: the power states of an island. -/
def Obligations.IslandPowerFollowsItsTable : Prop :=
  (∀ (s : State) (m : Master) (n : Fin 41) (a : Access),
    (s.writes m .FAB_ISL_REQ none n 0 1 a → s.fab.waiting = [] → s.islState n = Isl.on →
      (gateOk n = true → s.islandIdle n = true → (a.tag.secure = true ∨ s.get F.FAB_ISL_STATE_CLAIM n = 0) →
        Gives (.islReqClockGate m n) s fun t =>
          t.islState n = Isl.draining ∧ storeGet 0 t.fab.target n = 1 ∧ t.get F.FAB_ISL_REQ_REQ n = 1) ∧
      (gateOk n = true → s.islandIdle n = true → a.tag.secure = false → s.get F.FAB_ISL_STATE_CLAIM n ≠ 0 →
        Gives (.islReqClockGate m n) s fun t => t.islState n = Isl.hold ∧ t.get F.FAB_ISL_STATE_PENDING n = 1) ∧
      (gateOk n = false ∨ s.islandIdle n = false →
        Gives (.islReqClockGate m n) s fun t => t.islState n = Isl.on ∧ t.is F.FAB_ISL_STATE_REJ n = true)) ∧
    (s.writes m .FAB_ISL_REQ none n 0 2 a → s.fab.waiting = [] → s.islState n = Isl.on →
      (offOk n = true → s.islandIdle n = true → (a.tag.secure = true ∨ s.get F.FAB_ISL_STATE_CLAIM n = 0) →
        Gives (.islReqPowerOff m n) s fun t => t.islState n = Isl.draining ∧ storeGet 0 t.fab.target n = 2) ∧
      (offOk n = false → Gives (.islReqPowerOff m n) s fun t => t.islState n = Isl.on ∧ t.is F.FAB_ISL_STATE_REJ n = true)) ∧
    (s.writes m .FAB_ISL_REQ none n 0 0 a → s.fab.waiting = [] →
      (s.islState n = Isl.gated ∨ s.islState n = Isl.off →
        Gives (.islReqOn m n) s fun t =>
          t.islState n = Isl.waking ∧ storeGet false t.fab.fromOff n = decide (s.islState n = Isl.off)) ∧
      (s.islState n = Isl.draining ∨ s.islState n = Isl.hold ∨ s.islState n = Isl.on →
        Gives (.islReqOn m n) s fun t => t.islState n = Isl.on)) ∧
    (s.writes m .FAB_CLAIM none n 0 1 a →
      (s.get F.FAB_ISL_STATE_CLAIM n ≠ 255 →
        Gives (.claimInc m n) s fun t => t.get F.FAB_ISL_STATE_CLAIM n = s.get F.FAB_ISL_STATE_CLAIM n + 1) ∧
      (s.get F.FAB_ISL_STATE_CLAIM n = 255 →
        Gives (.claimInc m n) s fun t => t.get F.FAB_ISL_STATE_CLAIM n = 255 ∧ t.is F.FAB_CLAIM_SAT n = true)) ∧
    (s.writes m .FAB_CLAIM none n 0 2 a → s.get F.FAB_ISL_STATE_CLAIM n ≠ 0 →
      Gives (.claimDec m n) s fun t =>
        t.get F.FAB_ISL_STATE_CLAIM n = s.get F.FAB_ISL_STATE_CLAIM n - 1 ∧
          (s.islState n = Isl.hold → s.get F.FAB_ISL_STATE_CLAIM n = 1 → t.islState n = Isl.draining) ∧
          (s.islState n ≠ Isl.hold → t.islState n = s.islState n))) ∧
  ∀ (s : State) (n : Fin 41),
    (s.islState n = Isl.hold → s.get F.FAB_ISL_STATE_CLAIM n ≠ 0 →
      exec (.claimBoundExpiry n) s =
        .next (((s.put F.FAB_ISL_STATE_STATE Isl.wiping n).put F.FAB_ISL_STATE_CLAIM 0 n).put F.FAB_CLAIM_WIPED 1 n)) ∧
    (s.islState n = Isl.wiping →
      Gives (.islandWipeEnd n) s fun t =>
        t.get F.FAB_ISL_STATE_CLAIM n = s.get F.FAB_ISL_STATE_CLAIM n ∧ t.is F.FAB_CLAIM_WIPED n = s.is F.FAB_CLAIM_WIPED n ∧
          (n.val = 27 → t.saKey = []) ∧
          (5 ≤ n.val → n.val ≤ 8 → ∀ x, memIsland x = some n.val → s.secureAddr x = true → memByte t.mem x = 0) ∧
          t.islState n = if s.get F.FAB_ISL_STATE_PENDING n = 0 then Isl.on else Isl.draining) ∧
    (s.islState n = Isl.draining → s.fab.waiting = [] →
      Gives (.islandDrainEnd n) s fun t => t.islState n = if storeGet 0 s.fab.target n = 2 then Isl.off else Isl.gated) ∧
    (s.islState n = Isl.waking → s.fab.waiting = [] → storeGet false s.fab.fromOff n = false →
      ∀ (mv : PinMv) (dv : List (Fin 16 × Nat)),
      let q := if s.awake then s.sensePins mv else s
      let u := ((q.put F.FAB_ISL_STATE_PENDING 0 n).put F.FAB_ISL_STATE_STATE Isl.on n).groupUp n
      let p := s.get F.FAB_ISL_STATE_PENDING n
      exec (.islandWakeEnd n mv dv) s = .next (if p = 0 then u else u.islandDown n p (u.is F.FAB_ISL_REQ_BY_SECURE n)))

/-- R40 to R42: rotating priority. -/
def Obligations.GrantsRotateThePointer : Prop :=
  ∀ (s : State) (k : Fin 12) (l : List Claim), k ≠ 4 →
    let cs := l.filter (s.mayClaim k)
    (cs = [] → exec (.arbitrationGrant k l) s = .next s) ∧
    (cs ≠ [] →
      let p := s.get F.FAB_ARB_PTR_PTR k
      ∃ c ∈ cs,
        (∀ b ∈ cs, s.claimRank k c < s.claimRank k b ∨ (s.claimRank k c = s.claimRank k b ∧ ptrDist p c.drawer ≤ ptrDist p b.drawer)) ∧
        exec (.arbitrationGrant k l) s = .next (s.arbMove k c.drawer) ∧
        (s.arbMove k c.drawer).get F.FAB_ARB_PTR_PTR k = (c.drawer.val + 1) % 16)

/-- R10, R11, R55 to R58: what begins a reset, and what a reset leaves. -/
def Obligations.ResetTriggersBeginAStart : Prop :=
  (∀ s : State, s.phase = Ph.run →
    exec .rstnAssert s = .next (s.doReset false 3 0) ∧ exec .pllLoss s = .next (s.doReset false 6 0)) ∧
  (∀ (s : State) (m : Master) (a : Access), s.phase = Ph.run → a.tag.drawer = 0 →
    (s.writes m .FAB_RST_REQ none 0 0 (keyed 0x7A3C 1) a →
      exec (.rstReqSys m) s = .next (((s.taken a).doReset false 4 0).answer true 0)) ∧
    (s.writes m .FAB_RST_REQ none 0 0 (keyed 0x7A3C 2) a →
      exec (.rstReqPor m) s = .next (((s.taken a).doReset true 5 0).answer true 0))) ∧
  (∀ (s : State) (cut : Bool), s.phase = Ph.off →
    exec (.vlogValid cut) s =
      .next (if s.anyLost then s.doReset true 1 s.start.flushNext else s.doReset false 2 s.start.flushNext)) ∧
  ∀ (s : State) (por : Bool) (cause flush : Nat),
    let t := s.doReset por cause flush
    (t.phase = Ph.began ∧ t.start.cause = cause ∧ t.start.por = por ∧ t.start.flush = flush) ∧
    t.img = (if por then none else s.img) ∧
    (t.pins = [] ∧ t.ring = [] ∧ t.can = [] ∧ t.port = [] ∧ t.hart = [] ∧ t.dvt = DvtSt.rst ∧ t.dwl = DwlSt.rst ∧
      t.til.queue = [] ∧ t.til.busy = none ∧ t.ztm.zone = 0 ∧ t.ztm.raw = 0 ∧ t.fab.waiting = []) ∧
    (t.pending = s.pending ∧ t.emitted = s.emitted) ∧
    (∀ x, isSram x = false → isDram x = false → memByte t.mem x = memByte s.mem x) ∧
    ∀ (r : RegId) (f : FieldDef) (i j cp : Nat), f ∈ (regDef r).fields → i < 4096 → j < 64 → cp < 32 → r ≠ .FAB_PWR_STATUS →
      ((if por then f.clr.onPor else f.clr.onSys) = true → r ≠ .LTH_CHG_STATUS → (regDef r).win ∉ [Win.lch, .clp, .til, .ept, .recw] →
        t.get ⟨r, f.hi, f.lo⟩ i j cp = f.rst) ∧
      ((if por then f.clr.onPor else f.clr.onSys) = false →
        (regDef r).win ∉ [Win.lch, .clp, .til, .ept, .recw, .lth, .mtr] →
        t.get ⟨r, f.hi, f.lo⟩ i j cp = s.get ⟨r, f.hi, f.lo⟩ i j cp)

/-- R15, R16, R59, R60, R67, R70, R147, R289, R331, R413 to R415: the parts of a start. -/
def Obligations.StartRunsToItsEnd : Prop :=
  (∀ (s : State) (boot carcass secure : CopyEnd), s.phase = Ph.began →
    let t := s.bootCause.restoreUnits.lcComplete.bootImages fun k => if k = 1 then boot else if k = 2 then carcass else secure
    (t.upd.journal = none →
      exec (.bootRomRun boot carcass secure) s =
        .next (((t.takeBank 1).put F.CARC_STATUS_PREFERRED (t.prefBank 2)).putPhase Ph.banks)) ∧
    (t.upd.journal ≠ none → exec (.bootRomRun boot carcass secure) s = .next t)) ∧
  (∀ (s : State) (mv : PinMv), s.phase = Ph.banks →
    let l := s.bankImage s.bankNext
    (s.carcassCheck l = none →
      Gives (.carcassBankChecked mv) s fun t =>
        t.phase = Ph.taken ∧ t.img = some (imageOf l) ∧ t.get F.CARC_STATUS_STATE = 1 ∧ t.get F.CARC_REJ_CODE s.bankNext = 0) ∧
    (∀ e, s.carcassCheck l = some e →
      (s.bankNext = s.prefBank 2 → exec (.carcassBankChecked mv) s = .next (s.bankRejected s.bankNext e)) ∧
      (s.bankNext ≠ s.prefBank 2 →
        Gives (.carcassBankChecked mv) s fun t =>
          t.phase = Ph.bare ∧ t.img = none ∧ t.get F.CARC_STATUS_STATE = 2 ∧ t.get F.CARC_REJ_CODE s.bankNext = e.code % 256))) ∧
  (∀ (s : State) (pass : Bool), s.phase = Ph.taken →
    (∀ p : Fin 128, s.miMode p ≠ 0 → s.unitOut 2 p = false →
      let u := (s.put F.INP_MI_STAT_TEST_FAIL (b2n !pass) p).startTest 2 p 0x07 (s.miOwner p) pass
      exec (.miStartTest p pass) s = .next (u.put F.INP_MI_STAT_RETIRED (b2n (u.unitOut 2 p)) p)) ∧
    (∀ p : Fin 30, s.portEnabled p = true → s.unitOut 3 p = false → (pass = true ∨ s.unitSuspect 3 p = false) →
      exec (.portStartTest p pass) s = .next ((s.put F.EPT_LINK_TEST_FAIL (b2n !pass) p).putSuspect 3 p (!pass))) ∧
    (∀ k : Fin 16, (s.canOwner k).isSome = true → s.unitOut 4 k = false → (pass = true ∨ s.unitSuspect 4 k = false) →
      exec (.canStartTest k pass) s = .next ((s.put F.CAN_STAT_TEST_FAIL (b2n !pass) k).putSuspect 4 k (!pass))) ∧
    (∀ c : Fin 6, s.unitOut 5 c = false → (pass = true ∨ s.unitSuspect 5 c = false) →
      exec (.coreSelfTest c pass) s =
        .next ((if pass then s else s.setBit F.FAB_CORE_STAT_TEST_FAIL c).putSuspect 5 c (!pass))) ∧
    (∀ u : Fin 48, s.unitOut 6 u = false → (pass = true ∨ s.unitSuspect 6 u = false) →
      exec (.sramSelfTest u pass) s = .next (s.putSuspect 6 u (!pass)))) ∧
  (∀ (s : State) (n : Fin 8), s.phase = Ph.taken →
    ((s.markOf n).stage = 1 →
      exec (.markMemoryReady n .ok) s = .next ((s.putMk n { s.markOf n with stage := 2 }).markRead n 0 16) ∧
      Gives (.markMemoryReady n .absent) s (fun t => t.get F.INP_MK_STATUS_VERDICT n = 2) ∧
      Gives (.markMemoryReady n .short) s (fun t => t.get F.INP_MK_STATUS_VERDICT n = 3)) ∧
    ((s.markOf n).stage = 2 →
      (∀ (l : List (BitVec 8)) (crc : BitVec 16), l.length = 16 → crc16 (natsOf l) = crc.toNat →
        exec (.markAnswer n l crc) s = .next (s.markHeader n (natsOf l))) ∧
      (∀ (l : List (BitVec 8)) (crc : BitVec 16), l.length ≠ 16 ∨ crc16 (natsOf l) ≠ crc.toNat →
        exec (.markAnswer n l crc) s = .next (s.markFail n)) ∧
      exec (.markPreambleTimeout n) s = .next (s.markFail n) ∧
      ((s.markOf n).again = false → s.markFail n =
        (s.putMk n { s.markOf n with stage := 3, again := true }).put F.INP_MK_STATUS_REREAD 1 n) ∧
      ((s.markOf n).again = true → (s.markFail n).get F.INP_MK_STATUS_VERDICT n = 4)) ∧
    ((s.markOf n).stage = 3 → exec (.markIdleGapEnd n) s = .next ((s.putMk n { s.markOf n with stage := 2 }).markRead n 0 16)) ∧
    ((s.markOf n).stage = 4 ∨ (s.markOf n).stage = 6 →
      exec (.markIdleGapEnd n) s =
        .next ((s.putMk n { s.markOf n with stage := 5 }).markRead n 16 (4 * at0 (s.markOf n).hdr 3 + 4))) ∧
    (s.start.checked = false → 2 ≤ (s.markOf n).stage → s.get F.INP_MK_STATUS_VERDICT n ≠ 2 →
      s.get F.INP_MK_STATUS_VERDICT n ≠ 3 →
      Gives (.markLineShort n) s fun t => t.get F.INP_MK_STATUS_VERDICT n = 3)) ∧
  (∀ s : State, s.phase = Ph.taken → s.start.checked = true →
    Gives .startEnd s fun t => t.phase = Ph.run ∧ t.start.recUp = true ∧ t.ztm.zone = 0 ∧ t.ztm.raw = 0 ∧ t.ztm.tb = 0) ∧
  ∀ (s : State) (e : CopyEnd), s.phase = Ph.run → s.get F.WLD_SVC_STATE = 0 →
    let u := match s.upd.journal with | some (3, b, p) => s.copyRun 3 b p e true | _ => s.stagedImage 3 e
    exec (.secureImageUpdate e) s = .next (if u.upd.journal.isSome then u else u.takeBank 3)

/-- R50 to R52, R61 to R63, R72, R135, R146, R454: supplies, sleep and wake, and R10: island resets. -/
def Obligations.PowerSleepAndIslandResets : Prop :=
  (∀ s : State, s.phase = Ph.run →
    Gives .vlogFail s fun t =>
      t.phase = Ph.fail ∧ t.is F.FAB_PWR_STATUS_VLOG_OK = false ∧ t.lth.lane = [] ∧ t.lth.commitQ = [] ∧
        t.start.charging = false) ∧
  (∀ s : State, s.phase = Ph.fail → s.mtrStill = true → s.start.vlogBack = false →
    Gives .powerFailDone s fun t =>
      t.phase = Ph.off ∧ t.start.flushNext = 1 ∧ t.start.wasOff = true ∧ (∀ k u, (k, u) ∉ t.flt.pend)) ∧
  (∀ s : State, s.awake = true →
    exec .choldOkReached s = .next (if s.start.charging then s.put F.FAB_PWR_STATUS_CHOLD_OK 1 else s)) ∧
  (∀ (s : State) (f : Fin 2),
    (Gives (.feedLoss f) s fun t =>
      t.feedOk f = false ∧ t.dieLost (2 * f) = true ∧ t.dieLost (2 * f + 1) = true ∧ t.is F.FEED_STATUS_OVER f = false) ∧
    (s.feedOk f = false → Gives (.feedReturn f) s fun t =>
      t.feedOk f = true ∧ t.load.lost = s.load.lost ∧ (t.fd f).limit = (s.fd f).limit)) ∧
  (∀ (s : State) (b : Fin 4), s.dieLost b = true → s.feedOk (b / 2) = true → s.awake = true → s.img.isSome = true →
    Gives (.dieReloadDone b) s fun t => t.dieLost b = false ∧ ∀ d, d ≠ b.val → t.dieLost d = s.dieLost d) ∧
  (∀ (s : State) (m : Master) (w : Bool) (a : Access), s.phase = Ph.run → a.tag.drawer = 0 →
    let u := { s with start := { s.start with wakeNow := w } }
    u.writes m .FAB_SLEEP_CTRL none 0 0 (keyed 0x6B19 1) a →
    (w = true → Gives (.sleepEnter m w) s fun t => t.phase = Ph.run ∧ t.get F.FAB_SLEEP_STATUS_RESULT = 2) ∧
    (w = false → Gives (.sleepEnter m w) s fun t =>
      t.phase = Ph.toSleep ∧ t.is F.REC_FLUSH_BUSY = true ∧ t.start.wakeHeld = none)) ∧
  (∀ s : State, s.phase = Ph.toSleep → s.latheStill = true → s.mtrStill = true → s.start.wakeHeld = none →
    Gives .sleepPowerOff s fun t => t.phase = Ph.sleep ∧ t.get F.FAB_SLEEP_STATUS_RESULT = 1 ∧ t.get F.FAB_SLEEP_STATUS_KIND = 0) ∧
  (∀ (s : State) (n : Fin 4),
    (s.phase = Ph.sleep → s.anyLost = false →
      Gives (.wakePin n) s fun t => t.phase = Ph.began ∧ t.start.cause = 7 ∧ t.start.por = false) ∧
    (s.phase = Ph.toSleep → s.start.wakeHeld = none →
      exec (.wakePin n) s = .next { s with start := { s.start with wakeHeld := some (2, n.val, s.ztm.zone) } }) ∧
    (∀ k x z, s.phase = Ph.toSleep → s.start.wakeHeld = some (k, x, z) →
      exec (.wakePin n) s = .next (if z = s.ztm.zone ∧ (2 < k ∨ (2 = k ∧ n.val < x)) then
        { s with start := { s.start with wakeHeld := some (2, n.val, z) } } else s))) ∧
  (∀ (s : State) (p : Fin 128) (mv : Nat), s.phase = Ph.sleep → s.mi p 0 3 3 = 1 → s.miLive p = true →
    let v := if s.miMode p = 1 then decide (s.miHigh p < mv) else decide (mv < 2000)
    (v = (s.pin p).wakeRef → exec (.miWakeSample p mv) s = .next (s.putPin p { s.pin p with wakeSeen := false })) ∧
    (v ≠ (s.pin p).wakeRef → (s.pin p).wakeSeen = false →
      exec (.miWakeSample p mv) s = .next (s.putPin p { s.pin p with wakeSeen := true })) ∧
    (v ≠ (s.pin p).wakeRef → (s.pin p).wakeSeen = true → s.anyLost = false →
      Gives (.miWakeSample p mv) s fun t => t.phase = Ph.began ∧ t.start.cause = 7)) ∧
  (∀ (s : State) (n : Fin 8), s.phase = Ph.run → s.expected.contains n.val = true → s.get F.INP_MK_STATUS_VERDICT n ≠ 2 →
    s.get F.INP_MK_STATUS_VERDICT n ≠ 3 → s.is F.INP_MK_STATUS_LOST n = false →
    Gives (.markLineLost n) s fun t =>
      t.is F.INP_MK_STATUS_LOST n = true ∧ (∀ c ∈ s.connChans n, c ∈ t.start.blocked) ∧
        ∀ c ∈ s.connChans n, s.dieLost (bankOf c) = false → t.flag c Flag.harnessBlock = true) ∧
  ∀ (s : State) (n : Fin 41) (mv : PinMv) (dv : List (Fin 16 × Nat)), s.live n = true → Ph.taken < s.phase →
    let u := (s.sensePins mv).islReset n dv
    exec (.islandReset n mv dv) s = .next (u.each (List.range 16) State.perrDeliver) ∧
    (n.val ≠ 35 → u.fab.waiting = s.fab.waiting.filter (fun w => w.1 != n.val)) ∧
    (n.val = 35 → u.dwl.resv = [] ∧ u.dwl.lines = [] ∧ ∀ w ∈ u.fab.waiting, w.1 < 64 ∧ w.1 ≠ 35) ∧
    (n.val = 37 → u.iom.tlb = []) ∧ (n.val = 27 → u.saKey = [])

/-- R77, R78, R80, R81: moves and features. -/
def Obligations.MovesAndFeatureCommits : Prop :=
  (∀ (s : State) (m : Master) (cls : Fin 8) (src dst : Fin 32) (a : Access),
    s.writes m .DRW_MOVE_CTRL none 0 0 (2 ^ 31 + dst * 4096 + src * 16 + cls) a →
    (s.get F.DRW_MOVE_STATUS_STATE = 1 →
      exec (.move m cls src dst) s = .next (((s.taken a).put F.DRW_MOVE_STATUS_OVERLAP 1).answer true 0)) ∧
    (s.get F.DRW_MOVE_STATUS_STATE ≠ 1 →
      let u := (s.taken a).store .DRW_MOVE_CTRL (2 ^ 31 + dst * 4096 + src * 16 + cls)
      Gives (.move m cls src dst) s fun t =>
        t.get F.DRW_MOVE_STATUS_CODE = u.moveCode % 16 ∧
          (u.moveCode = 0 → t.get F.DRW_MOVE_STATUS_STATE = 1 ∧ t.drw.move =
            some ⟨cls, src, dst, s.get F.DRW_MOVE_ARG_FIRST, s.get F.DRW_MOVE_ARG_COUNT, false, []⟩) ∧
          (u.moveCode ≠ 0 → t.get F.DRW_MOVE_STATUS_STATE = 3 ∧ t.drw.move = none))) ∧
  (∀ (s : State) (x : MoveSt), s.drw.move = some x → x.committed = false → x.from_ < 16 → x.to_ < 16 → x.from_ ≠ x.to_ →
    1 ≤ x.cls → x.cls ≤ 6 → x.count ≤ s.holding x.from_ x.cls → s.holding x.to_ x.cls + x.count < 2 ^ 16 →
    Gives .moveCommit s fun t =>
      t.holding x.from_ x.cls = s.holding x.from_ x.cls - x.count ∧ t.holding x.to_ x.cls = s.holding x.to_ x.cls + x.count ∧
        t.is F.DRW_IRQ_STATUS_MOVED 0 0 (x.from_ + 1) = true ∧ t.is F.DRW_IRQ_STATUS_MOVED 0 0 (x.to_ + 1) = true ∧
        (x.cls = 1 → ∀ k, x.first ≤ k → k < x.first + x.count → t.ringOwner k = some x.to_) ∧
        t.drw.move = some { x with committed := true, left := s.outstanding x.from_ }) ∧
  (∀ (s : State) (x : MoveSt), s.drw.move = some x → x.committed = true →
    ((∀ a ∈ x.left, ∀ w ∈ s.fab.waiting, w.2 ≠ a) →
      exec .moveDone s = .next ({ s with drw := { s.drw with move := none } }.put F.DRW_MOVE_STATUS_STATE 2)) ∧
    ((∃ a ∈ x.left, ∃ w ∈ s.fab.waiting, w.2 = a) → exec .moveDone s = .next s)) ∧
  ∀ (s : State) (m : Master) (d : Fin 16) (a : Access), s.writes m .DRW_FEAT_CTRL (some d) 0 0 1 a →
    (s.drwState d ≠ 0 → Gives (.featureCommit m d) s fun t =>
      t.get F.DRW_FEAT_STATUS_RESULT 0 0 (d + 1) = 4 ∧ t.drwState d = s.drwState d) ∧
    (s.drwState d = 0 → ∀ b, s.badBit d = some b → Gives (.featureCommit m d) s fun t =>
      t.get F.DRW_FEAT_STATUS_RESULT 0 0 (d + 1) = 2 ∧ t.get F.DRW_FEAT_STATUS_BAD_BIT 0 0 (d + 1) = b ∧ t.drwState d = 0) ∧
    (s.drwState d = 0 → s.badBit d = none → bitOf (s.get F.DRW_FEAT_ACCEPT_ACCEPT 0 0 (d + 1)) 0 = false →
      Gives (.featureCommit m d) s fun t => t.get F.DRW_FEAT_STATUS_RESULT 0 0 (d + 1) = 3 ∧ t.drwState d = 0) ∧
    (s.drwState d = 0 → s.badBit d = none → bitOf (s.get F.DRW_FEAT_ACCEPT_ACCEPT 0 0 (d + 1)) 0 = true →
      Gives (.featureCommit m d) s fun t => t.get F.DRW_FEAT_STATUS_RESULT 0 0 (d + 1) = 1 ∧ t.drwState d = 1)

/-- R90 to R93: drawer resets and the fault FIFO. -/
def Obligations.DrawerResetRunsToIdle : Prop :=
  (∀ (s : State) (m : Master) (d : Fin 16) (a : Access), d.val < s.drw.count →
    (s.writes m .DRW_RST_REQ none 0 0 (keyed 0x5C3D d) a →
      (s.drwState d ≤ 1 → Gives (.drwRstReqDrain m d) s fun t => t.drwState d = 2 ∧ t.is F.DRW_G_STATE_ESCALATED d = false) ∧
      (2 ≤ s.drwState d → exec (.drwRstReqDrain m d) s = .next ((s.taken a).answer true 0))) ∧
    (s.writes m .DRW_RST_REQ none 0 0 (keyed 0x5C3D (16 + d)) a →
      (s.drwState d ≤ 2 → Gives (.drwRstReqSquash m d) s fun t => t.drwState d = 3) ∧
      (s.drwState d = 3 → exec (.drwRstReqSquash m d) s = .next ((s.taken a).answer true 0))) ∧
    (s.writes m .DRW_RST (some d) 0 0 (keyed 0x5C3D 0) a → s.drwState d ≤ 1 →
      Gives (.drwRstDrain m d) s fun t => t.drwState d = 2) ∧
    (s.writes m .DRW_RST (some d) 0 0 (keyed 0x5C3D 1) a → s.drwState d ≤ 2 →
      Gives (.drwRstSquash m d) s fun t => t.drwState d = 3)) ∧
  (∀ (s : State) (d : Fin 16), s.drwState d = 2 →
    Gives (.drainEscalation d) s fun t => t.drwState d = 3 ∧ t.is F.DRW_G_STATE_ESCALATED d = true) ∧
  (∀ (s : State) (d : Fin 16), 2 ≤ s.drwState d → s.nothingLeft d = true →
    Gives (.drawerResetComplete d) s fun t =>
      t.drwState d = 0 ∧ t.is F.DRW_G_STATE_DONE d = true ∧ t.is F.DRW_IRQ_STATUS_RESET_DONE 0 0 (d + 1) = true ∧
        storeGet [] t.drw.faults d = [] ∧ (∀ r, r < 256 → s.ringOwner r = some d.val → t.ringState r = Rst.disabled)) ∧
  ∀ (s : State) (m : Master) (d : Fin 16) (a : Access),
    (s.writes m .DRW_FAULT_STAT (some d) 0 0 256 a →
      Gives (.faultPop m d) s fun t => storeGet [] t.drw.faults d = (storeGet [] s.drw.faults d).tail) ∧
    (s.reads m .DRW_FAULT_HEAD (some d) 0 0 a → ∀ x l, storeGet [] s.drw.faults d = x :: l →
      Gives (.faultHeadRead m d) s fun t =>
        t.resp = ⟨true, x.word 0 % 2 ^ 32⟩ ∧ storeGet [] t.drw.faults d = { x with frozen := true } :: l)

/-- R83 to R88, R236 to R238, R240, R250: rings. -/
def Obligations.RingsRunTheirDescriptors : Prop :=
  (∀ (s : State) (m : Master) (v : Option (Fin 16)) (r : Fin 256) (a : Access),
    (s.writes m .RING_CTRL v r 0 1 a → s.ringState r = Rst.disabled → ∀ d, s.ringOwner r = some d →
      (s.enableErr r d = 0 → Gives (.ringEnable m v r) s fun t =>
        t.ringState r = Rst.running ∧ t.rg r = RingSt.idle ∧ t.get F.RING_STATE_ERR r = 0) ∧
      (s.enableErr r d ≠ 0 →
        exec (.ringEnable m v r) s = .next (((s.taken a).put F.RING_STATE_ERR (s.enableErr r d) r).answer true 0))) ∧
    (s.writes m .RING_CTRL v r 0 0 a → s.ringState r = Rst.running →
      ((s.rg r).desc ≠ none → s.ringIdle r = false → Gives (.ringDisable m v r) s fun t => t.ringState r = Rst.stopping ∧ t.rg r = s.rg r) ∧
      ((s.rg r).desc = none ∨ s.ringIdle r = true → Gives (.ringDisable m v r) s fun t => t.ringState r = Rst.disabled)) ∧
    (s.writes m .RING_CTRL v r 0 3 a → s.ringState r = Rst.faulted → ∀ d, s.ringOwner r = some d → s.feat d 2 = true →
      s.drwState d = 1 →
      Gives (.ringResume m v r) s fun t =>
        t.ringState r = Rst.running ∧ ((s.rg r).side = 0 → (t.rg r).desc = none) ∧
          ((s.rg r).side ≠ 0 → (t.rg r).desc = (s.rg r).desc)) ∧
    ∀ w : BitVec 16, s.writes m .RING_TAIL v r 0 w.toNat a →
      ((w.toNat + 65536 - s.ringHead r) % 65536 ≤ s.ringSize r →
        exec (.ringTailWrite m v r w) s = .next (((s.taken a).put F.RING_TAIL_INDEX w.toNat r).answer true 0)) ∧
      (s.ringSize r < (w.toNat + 65536 - s.ringHead r) % 65536 → ∀ d, s.ringOwner r = some d →
        exec (.ringTailWrite m v r w) s = .next (((s.taken a).faultRecord d 0x12 5 true 0 r 0).answer true 0))) ∧
  ∀ (s : State) (r : Fin 256) (h : HostMem) (d : Nat), s.live 38 = true → s.ringOwner r = some d →
    (s.ringState r = Rst.running → (s.rg r).desc = none → s.ringHeld r ≠ 0 → s.drwState d = 1 →
      ∀ l, s.readPieces d (s.ringSecure r) h (pieces (s.descAddr r) 32) = some l →
      let u := s.dmaGrants d (s.ringSecure r) ((pieces (s.descAddr r) 32).map (false, ·))
      exec (.descriptorFetch r h) s = .next ((u.descFetched r l).perrOf r) ∧
        ((u.descFetched r l).rg r).desc = some (Desc.of l) ∧
        (u.descBad r (Desc.of l) = true → ((u.descFetched r l).rg r).result = 3 ∧ ((u.descFetched r l).rg r).ready = true)) ∧
    (∀ x, (s.rg r).desc = some x → s.ringState r = Rst.running ∨ s.ringState r = Rst.stopping → (s.rg r).ready = false →
      0 < s.unitLen r → s.txRoom r = true → s.slotWins r = true → ∀ rd u,
      let data := if writesBuffer (s.ringKind r) then slice (s.rg r).src (s.rg r).off (s.unitLen r)
        else if s.ringKind r = Kind.copy ∧ x.op = 1 then fillBytes x.arg1 (s.rg r).off (s.unitLen r) else rd
      s.readPieces d (s.ringSecure r) h (s.unitReads r) = some rd →
      (s.unitGrants r d).writePieces d r (s.ringSecure r) (s.unitWrites r) data = some u →
      exec (.unitCommit r h) s = .next ((u.unitTaken r (s.unitLen r) x data).perrOf r)) ∧
    (∀ x, (s.rg r).desc = some x → s.ringState r = Rst.running ∨ s.ringState r = Rst.stopping → (s.rg r).ready = true →
      s.drwState d ≠ 3 →
      let e := s.descResult r
      let status := e.1 + e.2.1 * 256 + b2n e.2.2.1 * 65536 + 2 ^ 31
      ∀ u, (s.dmaGrants d (s.ringSecure r) ((pieces (s.descAddr r + 16) 16).map (true, ·))).writePieces d r (s.ringSecure r) (pieces (s.descAddr r + 16) 16)
          (writeback (s.descStamp r x.more) (s.rg r).off status) = some u →
      exec (.descriptorComplete r) s =
        .next ((u.descEnd r d (decide (s.ringState r = Rst.stopping)) x.irq status e.2.2.2).perrOf r)) ∧
    (∀ n f, s.ringState r = Rst.running → s.firstFault r d h = some (n, f) →
      exec (.ringFault r h) s = .next ((s.faultTaken r d n f).rxFault r)) ∧
    (∀ n f, s.ringState r = Rst.stopping → s.firstFault r d h = some (n, f) →
      exec (.ringFault r h) s = .next (((s.faultTaken r d n f).rxFault r).ringStop r)) ∧
    (∀ n f, (s.faultTaken r d n f).ringState r = Rst.faulted) ∧
    (s.ringState r = Rst.faulted → s.ringKind r = Kind.ethRx → s.feat d 3 = true → (s.rg r).expired = false →
      Gives (.rxHoldExpiry r) s fun t => t.ringState r = Rst.faulted ∧ (t.rg r).expired = true ∧ (t.rg r).off = 0) ∧
    (s.ringKind r = Kind.ethTx → (s.rg r).desc ≠ none → (s.rg r).ready = false →
      256 * (s.rg r).txCells < (s.rg r).tx.length + s.unitLen r →
      s.get F.DVT_CHARGE_CELLS d < s.get F.DRW_G_HOLD_AMOUNT d 2 →
      exec (.ethTxCellRead r) s = .next ((s.putRg r { s.rg r with txCells := (s.rg r).txCells + 1 }).charge d 1))

/-- R231 to R234, R243: IOM. -/
def Obligations.TranslationTablesAndCaches : Prop :=
  (∀ (s : State) (m : Master) (w : BitVec 32) (a : Access),
    (∀ n : Fin 4096, s.writes m .IOM_DGRAN none n 0 w.toNat a →
      (bitOf w.toNat 4 = true → n.val < s.imgF 9 8 0 2 12 0 →
        exec (.granuleWrite m (.dram n) w) s = .next (((s.taken a).put F.IOM_GSTAT_REJ 1).answer true 0)) ∧
      (bitOf w.toNat 4 = false → Gives (.granuleWrite m (.dram n) w) s fun t =>
        t.is F.IOM_DGRAN_VALID n = false ∧ t.get F.IOM_DGRAN_OWNER n = w.toNat % 16)) ∧
    ∀ n : Fin 768, s.writes m .IOM_SGRAN none n 0 w.toNat a →
      (bitOf w.toNat 4 = true → s.imgF 9 8 0 0 9 0 ≤ n.val → s.unitOut 6 (n / 16) = false →
        Gives (.granuleWrite m (.sram n) w) s fun t =>
          t.is F.IOM_SGRAN_VALID n = true ∧ t.get F.IOM_SGRAN_OWNER n = w.toNat % 16) ∧
      (bitOf w.toNat 4 = true → s.unitOut 6 (n / 16) = true →
        exec (.granuleWrite m (.sram n) w) s = .next (((s.taken a).put F.IOM_GSTAT_REJ 1).answer true 0))) ∧
  (∀ (s : State) (m : Master) (d : Fin 16) (a : Access), s.is F.IOM_INVAL_STAT_BUSY = false →
    let page := s.get F.IOM_INVAL_ADDR_LO_PAGE + s.get F.IOM_INVAL_ADDR_HI_PAGE * 2 ^ 32
    let asked := fun scope dr : Nat => Host.Outcome.next (({ s.taken a with iom := { s.iom with
      inval := some (scope, dr, page) } }.put F.IOM_INVAL_STAT_BUSY 1).answer true 0)
    (s.writes m .IOM_INVAL none 0 0 (2 ^ 31) a → exec (.invalAll m) s = asked 0 0) ∧
    (s.writes m .IOM_INVAL none 0 0 (2 ^ 31 + d * 16 + 1) a → exec (.invalDrawer m d) s = asked 1 d) ∧
    (s.writes m .IOM_INVAL none 0 0 (2 ^ 31 + d * 16 + 2) a → exec (.invalPage m d) s = asked 2 d) ∧
    (s.writes m .IOM_INVAL none 0 0 (2 ^ 31 + d * 16 + 3) a → exec (.invalStage1 m d) s = asked 3 d)) ∧
  (∀ (s : State) (m : Master) (d : Fin 16) (a : Access), s.writes m .IOM_S1INVAL (some d) 0 0 1 a →
    exec (.s1inval m d) s = .next (((s.taken a).put F.IOM_S1INVAL_BUSY 1 0 0 (d + 1)).answer true 0)) ∧
  (∀ (s : State) (scope d page : Nat), s.live 37 = true → s.iom.inval = some (scope, d, page) →
    Gives (.invalDone none) s fun t =>
      t.iom.inval = none ∧ t.is F.IOM_INVAL_STAT_BUSY = false ∧ t.is F.IOM_INVAL_STAT_DONE = true ∧
        ∀ e, e ∈ t.iom.tlb ↔ e ∈ s.iom.tlb ∧ ¬(scope = 0 ∨ (scope = 1 ∧ e.drawer = d) ∨
          (scope = 2 ∧ e.drawer = d ∧ e.page = page) ∨ (3 ≤ scope ∧ e.drawer = d ∧ e.s1 = true))) ∧
  (∀ (s : State) (d : Fin 16), s.live 37 = true → s.is F.IOM_S1INVAL_BUSY 0 0 (d + 1) = true →
    Gives (.invalDone (some d)) s fun t =>
      t.is F.IOM_S1INVAL_BUSY 0 0 (d + 1) = false ∧ ∀ e, e ∈ t.iom.tlb ↔ e ∈ s.iom.tlb ∧ ¬(e.drawer = d ∧ e.s1 = true)) ∧
  (∀ (s : State) (m : Master) (d : Fin 16) (a : Access), s.writes m .IOM_DIRTY_CTRL none d 0 1 a →
    s.is F.IOM_DIRTY_STAT_BUSY d = false →
    Gives (.dirtySwap m d) s fun t =>
      t.get F.IOM_DIRTY_STAT_CUR d = 1 - s.get F.IOM_DIRTY_STAT_CUR d ∧ t.is F.IOM_DIRTY_STAT_BUSY d = true) ∧
  (∀ (s : State) (d : Fin 16), s.live 37 = true →
    exec (.dirtySwapDone d) s = .next (s.put F.IOM_DIRTY_STAT_BUSY 0 d)) ∧
  ∀ (s : State) (d : Fin 16) (sec : Bool) (h : HostMem) (va : BitVec 64) (wr : Bool),
    s.live 37 = true → d.val < s.drw.count → s.paged d = true →
    let p := s.arbMove 3 d
    (s.tlbFind d sec va.toNat wr ≠ none → exec (.translationWalkDone d sec h va wr) s = .next s) ∧
    (s.tlbFind d sec va.toNat wr = none →
      (∀ f, p.translate d sec h va.toNat wr = .fault f → exec (.translationWalkDone d sec h va wr) s = .next p) ∧
      (∀ n, p.translate d sec h va.toNat wr = .hold n →
        exec (.translationWalkDone d sec h va wr) s = .next (if p.islState n = Isl.gated then p.islandWake n false else p)) ∧
      (∀ o u, p.translate d sec h va.toNat wr = .ok o u →
        Gives (.translationWalkDone d sec h va wr) s fun t =>
          let e : TlbE := ⟨d, sec, va.toNat / 4096, wr, s.get F.IOM_S1CFG_MODE 0 0 (d + 1) != 0, o.host, o.addr / 4096⟩
          t.iom.tlb = s.iom.tlb ++ [e] ∧ t.tlbFind d sec va.toNat wr = some e))

/-- R106 to R111, R120, R121, R123, R126, R128: trips, retries and retirement. -/
def Obligations.TripsMoveTheProtectionState : Prop :=
  (∀ (s : State) (c : Fin 96), s.phase = Ph.run → s.isChan c = true → s.dieLost (bankOf c) = false → s.prot c = Prot.armed →
    (s.get F.LCH_STATE_OUT c ≠ 0 →
      (¬(s.chKind c = 4 ∧ s.get F.LCH_STATE_PHASE c = 2) →
        exec (.ocTrip c) s = .next (s.trip c (if s.get F.LCH_STATE_OUT c = 2 then Trip.lowSide else Trip.oc))) ∧
      (s.chKind c = 4 → s.get F.LCH_STATE_PHASE c = 2 → exec (.ocTrip c) s = .next s) ∧
      exec (.shortFast c) s = .next (s.trip c (if s.get F.LCH_STATE_OUT c = 2 then Trip.lowSide else Trip.shortFast)) ∧
      (s.ch c 0 9 8 ≠ 0 → exec (.segShareTrip c) s = .next (s.trip c Trip.segShare))) ∧
    exec (.tempLatch c) s = .next (s.trip c Trip.temp)) ∧
  (∀ (s : State) (c cause : Nat), s.prot c = Prot.armed →
    let hard := cause = Trip.shortFast ∧ (s.lc c).hsWin = true ∧ s.is F.LCH_PROT_HARD_SHORT c = true
    (¬hard → s.get F.LCH_PROT_RETRY_LEFT c ≠ 0 →
      (s.trip c cause).prot c = (if cause = Trip.temp then Prot.latched else Prot.waiting) ∧
        (s.trip c cause).get F.LCH_PROT_RETRY_LEFT c = s.get F.LCH_PROT_RETRY_LEFT c) ∧
    (¬hard → s.get F.LCH_PROT_RETRY_LEFT c = 0 → s.ch c 4 3 0 = 0 → (s.trip c cause).prot c = Prot.exhausted) ∧
    (hard → (s.trip c cause).prot c = Prot.retired ∧ (s.trip c cause).get F.LCH_PROT_RETIRE_CAUSE c = 2)) ∧
  (∀ (s : State) (c : Fin 96), s.isChan c = true → s.dieLost (bankOf c) = false → s.prot c = Prot.waiting →
    s.flag c Flag.tempLatch = false → s.wireGate c = false →
    Gives (.restart c) s fun t =>
      t.prot c = Prot.armed ∧ t.get F.LCH_PROT_RETRY_LEFT c = s.get F.LCH_PROT_RETRY_LEFT c - 1) ∧
  ∀ (s : State) (m : Master) (v : Option (Fin 16)) (c : Fin 96) (a : Access), s.writes m .LCH_CMD v c 0 2 a →
    s.isChan c = true → s.chSrc c ≠ 3 →
    (s.prot c = Prot.exhausted ∧ s.flag c Flag.tempLatch = false ∧ s.wireGate c = false →
      Gives (.rearm m v c false) s fun t =>
        t.prot c = Prot.armed ∧ t.get F.LCH_PROT_RETRY_LEFT c = s.ch c 4 3 0 % 16 ∧ t.get F.LCH_PROT_EPISODE c = 0) ∧
    (s.prot c ≠ Prot.exhausted →
      Gives (.rearm m v c false) s fun t => t.prot c = s.prot c ∧ t.get F.LCH_PROT_REARM_REJ c = 1)

/-- R98, R99, R103, R104, R148: drive sources and activations. -/
def Obligations.DriveValuesAndActivationPhases : Prop :=
  (∀ (s : State) (m : Master) (v : Option (Fin 16)) (c : Fin 96) (on : Bool) (a : Access),
    s.writes m .LCH_CMD v c 0 (b2n on) a → s.isChan c = true →
    (s.chSrc c = 3 → on = false →
      exec (.lchCmdOn m v c on) s = .next ((((s.taken a).put F.LCH_CMD_ON 0 c).drive c false).answer true 0)) ∧
    (s.chSrc c = 3 → on = true → (s.taken a).onBlocked c = false →
      exec (.lchCmdOn m v c on) s = .next ((((s.taken a).put F.LCH_CMD_ON 1 c).drive c true).answer true 0)) ∧
    (s.chSrc c ≠ 3 → exec (.lchCmdOn m v c on) s = .next (((s.taken a).put F.LCH_CMD_ON (b2n on) c).answer true 0))) ∧
  (∀ (s : State) (c : Fin 96), s.isChan c = true → s.dieLost (bankOf c) = false →
    (s.get F.LCH_STATE_PHASE c = 1 → exec (.slewEnd c) s = .next (s.put F.LCH_STATE_PHASE 2 c)) ∧
    (s.get F.LCH_STATE_PHASE c = 2 → exec (.inrushWindowEnd c) s = .next (s.put F.LCH_STATE_PHASE 3 c)) ∧
    ((s.lc c).edge = 1 → exec (.edgeComplete c) s = .next (s.putLc c { s.lc c with edge := 0 })) ∧
    ((s.lc c).edge = 2 → exec (.edgeComplete c) s = .next (s.offDone c)) ∧
    (s.get F.LCH_STATE_OUT c ≠ 1 →
      exec (.activationGapEnd c) s = .next ((s.clearFlag c Flag.onState).put F.LCH_STATE_PHASE 0 c))) ∧
  (∀ (s : State) (k : Fin 32), s.startDone = true → s.pwmEnabled k = true → (s.pw k).fresh = false →
    let u := (s.put F.LCH_PWM_DUTY (s.pw k).next k).putPw k { s.pw k with fresh := false }
    exec (.pwmPeriodStart k) s = .next (u.pwmOut k (decide (u.pwmOnTicks k ≠ 0)))) ∧
  (∀ (s : State) (k : Fin 32), (s.pw k).out = true → s.pwmOnTicks k < s.pwmPeriod k →
    exec (.pwmDutyEnd k) s = .next (s.pwmOut k false)) ∧
  ∀ (s : State) (p : Fin 16) (mv : Nat), s.live 19 = true → s.drvUsed p = true →
    Gives (.drvLevelChange p mv) s fun t => t.get F.INP_DRV_LEVEL p = b2n (s.drvReads p mv != s.drvInvert p)

/-- R106, R111 to R113, R115, R116, R122: what the dies watch. -/
def Obligations.DieWatchesSetFlags : Prop :=
  ∀ (s : State) (c : Fin 96), s.isChan c = true → s.dieLost (bankOf c) = false →
    (∀ above : Bool, exec (.ocWarnChange c above) s = .next (s.flagTo c Flag.ocWarn above)) ∧
    (∀ hot : Bool, exec (.tempWarnChange c hot) s = .next (s.flagTo c Flag.tempWarn hot)) ∧
    (s.flag c Flag.tempLatch = true → s.prot c = Prot.latched →
      exec (.tempLatchRelease c) s = .next ((s.clearFlag c Flag.tempLatch).put F.LCH_PROT_STATE Prot.waiting c)) ∧
    (s.flag c Flag.tempLatch = true → s.prot c ≠ Prot.latched →
      exec (.tempLatchRelease c) s = .next ((s.clearFlag c Flag.tempLatch).resolve c)) ∧
    (s.ch c 7 15 0 ≠ 0 → s.get F.LCH_STATE_PHASE c = 3 →
      ∀ below : Bool, exec (.openLoadOnstate c below) s = .next (s.flagTo c Flag.openLoad below)) ∧
    (s.ch c 7 15 0 ≠ 0 → s.get F.LCH_STATE_OUT c = 0 → ∀ b : Fin 4, bankOf c = b →
      exec (.offStateCheckTick b [c]) s = .next (s.putLc c { s.lc c with chk := 1 })) ∧
    ((s.lc c).chk = 1 → ∀ high : Bool,
      Gives (.offStateShortSample c high) s fun t => t.flag c Flag.shortBat = high ∧ (t.lc c).chk = if high then 0 else 2) ∧
    ((s.lc c).chk = 2 → ∀ high : Bool,
      Gives (.offStateOpenSample c high) s fun t => t.flag c Flag.openLoad = high ∧ (t.lc c).chk = 0) ∧
    (s.is F.LCH_PROT_EPISODE c = true → s.prot c = Prot.armed → s.flag c Flag.tempLatch = false →
      Gives (.episodeClose c) s fun t =>
        t.get F.LCH_PROT_EPISODE c = 0 ∧ t.get F.LCH_PROT_RETRY_LEFT c = s.ch c 4 3 0 % 16 ∧ (t.lc c).quietMs = 0) ∧
    (s.phase = Ph.run → ∀ meanI2 : Nat,
      Gives (.wireModelStep c meanI2) s fun t =>
        (t.lc c).temp = wireStep s.ambient (s.lc c).temp (s.lc c).csa (s.lc c).insul meanI2)

/-- R130, R136 to R138, R416: budgets, holds and records. -/
def Obligations.FeedsShedAndRestore : Prop :=
  (∀ (s : State) (f : Fin 2) (mean : Nat), s.dieLost (2 * f) = false →
    Gives (.feedMean f mean) s fun t =>
      (t.fd f).mean = mean ∧
        t.is F.FEED_STATUS_OVER f = ((s.fd f).limit != 0 && decide (mean > 100 * (s.fd f).limit)) ∧
        ((s.fd f).limit ≠ 0 → 100 * (s.fd f).limit < mean → (t.fd f).overs = min ((s.fd f).overs + 1) 20) ∧
        (mean ≤ 100 * (s.fd f).limit → (t.fd f).overs = 0)) ∧
  (∀ (s : State) (f : Fin 2) (means : List (Fin 96 × Nat)), s.dieLost (2 * f) = false → (s.fd f).overs = 20 →
    let q := shedTake (fun c => (means.find? fun p => p.1.val == c).elim 0 (·.2)) ((s.fd f).mean - 100 * (s.fd f).limit) (s.shedOrder f)
    let u := ((s.each q.1 State.shedChan).putFd f { s.fd f with overs := 0, restore := 0 }).put F.FEED_EVENTS_SHED 1 f
    (q.2 = true → exec (.shedStep f means) s = .next u) ∧
    (q.2 = false → exec (.shedStep f means) s = .next ((u.put F.FEED_EVENTS_SHORTFALL 1 f).put F.FEED_STATUS_SHORTFALL 1 f))) ∧
  (∀ (s : State) (f : Fin 2) (c : Nat), s.dieLost (2 * f) = false → (s.fd f).restore = 5000 → s.restoreNext f = some c →
    exec (.restore f) s =
      .next ((((s.putFd f { s.fd f with restore := 0 }).clearFlag c Flag.budgetShed).resolve c).put F.FEED_EVENTS_RESTORE 1 f)) ∧
  (∀ (s : State) (c : Fin 96), s.isChan c = true → s.dieLost (bankOf c) = false → s.flag c Flag.holding = true →
    (s.lc c).holdPol = 2 →
    exec (.holdMsExpiry c) s =
      .next (((s.put F.LCH_PROT_HOLD_EXPIRED 1 c).putLc c { s.lc c with holdVal := false }).resolve c)) ∧
  ∀ (s : State) (kind : Fin 7) (unit : Fin 128), s.awake = true → (kind.val, unit.val) ∈ s.flt.pend → 0 < kind.val →
    Gives (.retirementRecord kind unit) s fun t => t.unitRetired kind unit = true ∧ (kind.val, unit.val) ∉ t.flt.pend

/-- R150: the state table of a Clamp rule, and its fires. -/
def Obligations.ClampRuleFollowsItsStates : Prop :=
  ∀ (s : State) (r : Fin 64) (mv : PinMv), s.awake = true → s.start.wasOff = false → s.ruleOn r = true →
    let st := s.get F.CLP_STAT_STATE r
    let p := s.sensePins mv
    let c := p.put F.CLP_STAT_COND (p.ruleConds r (p.ruleCmp r)) r
    let u := c.put F.CLP_STAT_RESULT 1 r
    let v := c.put F.CLP_STAT_RESULT 0 r
    (p.ruleResult r (p.ruleCmp r) = true →
      (st = Rule.idle →
        exec (.clampResultTrue r mv) s = .next (((u.put F.CLP_STAT_STATE Rule.active r).ruleFire r).clampTargets r)) ∧
      (st = Rule.latched → exec (.clampResultTrue r mv) s = .next ((u.put F.CLP_STAT_STATE Rule.active r).clampTargets r)) ∧
      (st = Rule.active → exec (.clampResultTrue r mv) s = .next (u.clampTargets r))) ∧
    (p.ruleResult r (p.ruleCmp r) = false →
      (st = Rule.active ∧ s.ruleLatches r = false →
        exec (.clampResultFalse r mv) s = .next ((v.put F.CLP_STAT_STATE Rule.idle r).clampTargets r)) ∧
      (st = Rule.active ∧ s.ruleLatches r = true →
        exec (.clampResultFalse r mv) s = .next ((v.put F.CLP_STAT_STATE Rule.latched r).clampTargets r)) ∧
      (st = Rule.idle ∨ st = Rule.latched → exec (.clampResultFalse r mv) s = .next (v.clampTargets r))) ∧
    (∀ t : State, (t.ruleFire r).get F.CLP_FIRES_COUNT r = min (t.get F.CLP_FIRES_COUNT r + 1) (2 ^ 16 - 1) ∧
      (t.ruleFire r).is F.CLP_STAT_FIRED r = true)

/-- R151: the three answers to an acknowledgement. -/
def Obligations.ClampAcknowledgementIsJudged : Prop :=
  ∀ (s : State) (m : Master) (r : Fin 64) (mv : PinMv) (a : Access),
    let p := s.sensePins mv
    p.writes m .CLP_ACK none 0 0 (2 ^ 31 + r) a →
    let u := (p.taken a).put F.CLP_ACK_STATUS_RULE r
    let st := s.get F.CLP_STAT_STATE r
    let w := ((u.put F.CLP_ACK_STATUS_RESULT 1).put F.CLP_STAT_STATE Rule.idle r).raise F.CLP_STAT_RELEASED 1 r 0 0
      (some (s.rule r 0 7 4)) 2 r
    (st = Rule.latched → p.ruleNow r = false → exec (.clampAck m ⟨r, mv⟩) s = .next ((w.clampTargets r).answer true 0)) ∧
    (st = Rule.latched → p.ruleNow r = true →
      Gives (.clampAck m ⟨r, mv⟩) s fun t => t.get F.CLP_STAT_STATE r = Rule.active ∧ t.get F.CLP_ACK_STATUS_RESULT = 1 ∧
        exec (.clampAck m ⟨r, mv⟩) s = .next (((((w.ruleShow r).put F.CLP_STAT_RESULT 1 r).put F.CLP_STAT_STATE Rule.active r).ruleFire r
          |>.clampTargets r).answer true 0)) ∧
    (st = Rule.active → exec (.clampAck m ⟨r, mv⟩) s = .next ((u.put F.CLP_ACK_STATUS_RESULT 3).answer true 0)) ∧
    (st = Rule.idle ∨ st = Rule.disabled → exec (.clampAck m ⟨r, mv⟩) s = .next ((u.put F.CLP_ACK_STATUS_RESULT 2).answer true 0))

/-- R141 to R145: what the input pins report. -/
def Obligations.InputPinsReport : Prop :=
  ∀ (s : State) (p : Fin 128), s.live 19 = true → s.unitOut 2 p = false →
    (s.miMode p = 1 → ∀ mv : Nat,
      let high := decide (10 * s.mi p 0 31 16 < mv) || (s.cmpOut p && decide (10 * (s.mi p 0 31 16 - s.mi p 1 15 0) ≤ mv))
      Gives (.miLevelChange p mv) s fun t =>
        t.get F.INP_MI_VAL_VALUE p = b2n high ∧ t.cmpOut p = high ∧
          (bitOf (s.get F.INP_MI_VAL_VALUE p) 0 ≠ high →
            t.is (if high then F.INP_MI_STAT_RISE else F.INP_MI_STAT_FALL) p = true)) ∧
    (∀ (code : BitVec 12) (comp : Bool),
      let codes := (code.toNat :: (s.pin p).codes).take (max 1 (s.mi p 1 23 16 / 10))
      (s.miMode p = 2 ∨ s.miMode p = 3 →
        Gives (.analogConversion p code comp) s fun t =>
          t.get F.INP_MI_VAL_VALUE p = meanCode codes % 2 ^ 28 ∧ t.is F.INP_MI_STAT_OVERRANGE p = (code.toNat == 4095) ∧
            (t.pin p).codes = codes) ∧
      (s.miMode p = 4 →
        Gives (.analogConversion p code comp) s fun t =>
          t.get F.INP_MI_VAL_VALUE p =
              (if comp then 0xFFFFF else min 0xFFFFF (divRound (meanCode codes * 200000) (4096 * s.mi p 1 15 0))) ∧
            t.is F.INP_MI_STAT_OPEN p = comp ∧ (t.pin p).codes = codes)) ∧
    (s.miMode p = 5 →
      (∀ ticks : BitVec 32,
        Gives (.freqRisingEdge p ticks) s fun t =>
          t.get F.INP_MI_EDGES_EDGES p = (s.get F.INP_MI_EDGES_EDGES p + 1) % 2 ^ 32 ∧
            ((s.pin p).hasEdge = true → t.get F.INP_MI_VAL_VALUE p = ticks.toNat % 2 ^ 28 ∧ t.is F.INP_MI_STAT_STALLED p = false) ∧
            (t.pin p).hasEdge = true) ∧
      Gives (.freqStall p) s fun t =>
        t.get F.INP_MI_VAL_VALUE p = 0 ∧ t.is F.INP_MI_STAT_STALLED p = true ∧ (t.pin p).hasEdge = false)

/-- R158, R171, R173 to R176, R178: the phases of an instance. -/
def Obligations.TasksRunThroughTheirPhases : Prop :=
  (∀ (s : State) (k : Fin 8), s.latheRuns = true → s.phase ≠ Ph.toSleep → s.releaseDue k = true →
    (s.taskState k = Task.idle →
      Gives (.taskRelease k) s fun t =>
        t.taskState k = Task.busy ∧ (t.tk k).phase = 1 ∧ t.lth.slots = s.lth.slots ∧
          ∀ n, n < s.slotCount → s.slotTask n = k → s.slotShadowed n = true → storeGet 0#32 (t.tk k).shadow n = s.slot n) ∧
    (s.taskState k = Task.busy →
      let p := s.putTk k { s.tk k with made := some s.tbUs }
      let u := (p.bump F.LTH_TASK_OVR_OVERRUNS 1 k).raise F.LTH_TASK_STAT_OVR_EV 1 k 0 0 (s.taskOwner k) 3 k
      exec (.taskRelease k) s = .next (u.faultRun k 0x01 0))) ∧
  (∀ (s : State) (k : Fin 8), s.releaseDue k = false → exec (.taskRelease k) s = .next s) ∧
  (∀ s : State, s.latheRuns = true → s.phase ≠ Ph.toSleep → s.lth.errs ≠ [] → s.taskState 8 = Task.idle →
    exec .errorTaskRelease s = .next (s.release 8 s.ztm.tb)) ∧
  (∀ (s : State) (k : Fin 9), s.latheRuns = true → s.latchReady k = true → s.laneTask (s.taskLane k) = none →
    Gives (.latchComplete k) s fun t =>
      t.laneTask (s.taskLane k) = some k.val ∧ (t.tk k).phase = 3 ∧ t.flagF k = false ∧ (t.tk k).stack = [] ∧
        (t.tk k).pc = s.taskRec k 5 15 0 ∧ (t.tk k).shadow = (s.tk k).shadow) ∧
  (∀ (s : State) (k : Nat) (q : List Nat) (resp : BitVec 24), s.latheRuns = true → s.lth.commitQ = k :: q → k ≤ 8 →
    Gives (.commit resp) s fun t =>
      (∀ n, n < s.slotCount → s.slotTask n = k → s.slotShadowed n = true → t.slot n = storeGet 0#32 (s.tk k).shadow n) ∧
        (∀ n, (s.slotTask n ≠ k ∨ s.slotShadowed n = false) → t.slot n = s.slot n) ∧
        t.taskState k = Task.idle ∧ t.get F.LTH_TASK_STAT_FAULT_RUN k = 0 ∧ (t.tk k).phase = 0 ∧ k ∉ t.lth.commitQ ∧
        t.get F.LTH_TASK_RESP_RESP k = resp.toNat) ∧
  (∀ (s : State) (l : Fin 2) (k : Nat), s.latheRuns = true → s.laneTask l = some k → 32768 ≤ (s.tk k).cycles →
    let u := ((s.abandon k).put F.LTH_TASK_STAT_STATE Task.idle k).bump F.LTH_TASK_OVR_LIMITS 1 k
    exec (.instanceLimit l) s =
      .next (((u.put F.LTH_TASK_TIME_CYCLES 32768 k).put F.LTH_TASK_TMAX_CYCLES (max 32768 (u.get F.LTH_TASK_TMAX_CYCLES k)) k).faultRun k
        0x02 (s.tk k).pc) ∧
    (s.abandon k).lth.slots = s.lth.slots) ∧
  ∀ (s : State) (k : Fin 8) (cause op : Nat),
    (2 ≤ s.get F.LTH_TASK_STAT_FAULT_RUN k →
      (s.faultRun k cause op).taskState k = Task.stopped ∧ ((s.faultRun k cause op).tk k).faultStop = true ∧
        ∀ n, n < s.slotCount → s.slotTask n = k → s.slotArea n = Area.output → (s.faultRun k cause op).slot n = s.restVal n) ∧
    (s.get F.LTH_TASK_STAT_FAULT_RUN k < 2 →
      (s.faultRun k cause op).get F.LTH_TASK_STAT_FAULT_RUN k = s.get F.LTH_TASK_STAT_FAULT_RUN k + 1 ∧
        (s.faultRun k cause op).taskState k = s.taskState k)

/-- R158, R176 to R178, R180 to R183, R199: the engine's commands and reports. -/
def Obligations.LatheEngineCommands : Prop :=
  (∀ (s : State) (m : Master) (a : Access), a.tag.drawer = 0 →
    (s.writes m .LTH_CTRL none 0 0 (keyed 0x3E71 1) a →
      (s.engine = Eng.running → s.lth.reloading = false →
        Gives (.latheStop m) s fun t =>
          t.engine = Eng.stopped ∧ t.lth.lane = [] ∧ t.lth.waiting = [] ∧ t.lth.saving.isSome = true ∧
            ∀ k, k < 9 → s.taskEn k = true → t.taskState k = Task.stopped) ∧
      (s.engine ≠ Eng.running → exec (.latheStop m) s = .next (((s.taken a).put F.LTH_STATE_CMD_REJ 1).answer true 0))) ∧
    (∀ cold : Bool, s.writes m .LTH_CTRL none 0 0 (keyed 0x3E71 (if cold then 3 else 2)) a →
      let c := if cold then Instr.latheRunCold m else .latheRunWarm m
      (s.engine = Eng.stopped → s.lth.reloading = false →
        exec c s = .next (({ s.taken a with lth := { s.lth with coldAsked := cold } }.put F.LTH_STATE_STATE Eng.starting).answer true 0)) ∧
      (s.engine ≠ Eng.stopped → exec c s = .next (((s.taken a).put F.LTH_STATE_CMD_REJ 1).answer true 0)))) ∧
  (∀ (s : State) (m : Master) (v : Option (Fin 16)) (k : Fin 9) (a : Access), s.writes m .LTH_TASK_CTRL v k 0 1 a →
    (s.engine = Eng.running → s.taskState k = Task.stopped →
      Gives (.taskStart m v k) s fun t =>
        t.taskState k = Task.idle ∧ t.get F.LTH_TASK_STAT_FAULT_RUN k = 0 ∧ (t.tk k).faultStop = false ∧ t.lth.slots = s.lth.slots) ∧
    (s.engine ≠ Eng.running ∨ s.taskState k ≠ Task.stopped → exec (.taskStart m v k) s = .next ((s.taken a).answer true 0))) ∧
  (∀ (s : State) (m : Master) (a : Access), s.writes m .LTH_ERR_STAT none 0 0 256 a →
    exec (.lthErrPop m) s =
      .next ({ s.taken a with lth := { s.lth with errs := s.lth.errs.tail } }.answer true 0)) ∧
  (∀ s : State, s.latheLive = true → s.phase = Ph.run → s.engine = Eng.starting →
    Gives .latheInitEnd s fun t =>
      t.engine = Eng.running ∧ t.lth.coldAsked = false ∧ t.get F.LTH_STATE_RESTART = (if s.warmOk then 1 else 2) ∧
        ∀ k, k < 9 → t.taskState k = if s.taskEn k then Task.idle else Task.disabled) ∧
  (∀ (s : State) (im : RetImg), s.lth.saving = some im →
    exec .retentiveSaveDone s = .next ({ s with lth := { s.lth with ret := im, saving := none } }.put F.LTH_STATE_RET_VALID 1)) ∧
  (∀ s : State, s.live 13 = true → s.lth.reloading = true →
    Gives .latheReloadDone s fun t =>
      t.engine = Eng.stopped ∧ t.lth.reloading = false ∧ (∀ k, k < 9 → s.taskEn k = true → t.taskState k = Task.stopped)) ∧
  ∀ (s : State) (m : Master) (v : Option (Fin 16)) (a : Access), s.reads m .LTH_SLOT_DATA v 0 0 a →
    let n := s.get F.LTH_SLOT_IDX_IDX 0 0 (viewCopy v)
    Gives (.slotDataRead m v) s fun t =>
      t.resp = ⟨true, if n < s.slotCount then (s.forced n (s.slot n)).toNat else 0⟩ ∧ t.lth = s.lth ∧
        t.get F.LTH_SLOT_IDX_IDX 0 0 (viewCopy v) =
          if s.is F.LTH_SLOT_IDX_AUTO 0 0 (viewCopy v) then (n + 1) % 16384 else n

/-- R159 to R174: the plain operations of a lane. -/
def Obligations.LaneMoveAndFlowOperations : Prop :=
  ((∀ (s : State) (l : Fin 2) (k : Nat) (c : OpCond) (d a : BitVec 14) (b : OpSrc) (bit : BitVec 5), s.executes l k →
     let pc := (s.tk k).pc
     let F := s.flagF k
     let done := fun (t : State) =>
       (.next (if c.holds F then t.goto_ k (pc + 1) 1 else s.goto_ k (pc + 1) 1) : Out)
     let always := fun (t : State) => (.next (t.goto_ k (pc + 1) 1) : Out)
     let A := s.readSlot k a.toNat
     let B := s.opB k b
     let x := A.getLsbD bit.toNat
     let D := s.beneath k d.toNat
     (s.op k (.opNop l) (always s) ∧
       s.op k (.opMov l c d b) (done (s.writeSlot k d.toNat B)) ∧
       s.op k (.opLdb l c a bit) (done (s.setF k x)) ∧ s.op k (.opLdbn l c a bit) (done (s.setF k (!x))) ∧
       s.op k (.opAndb l c a bit) (done (s.setF k (F && x))) ∧ s.op k (.opAndbn l c a bit) (done (s.setF k (F && !x))) ∧
       s.op k (.opOrb l c a bit) (done (s.setF k (F || x))) ∧ s.op k (.opOrbn l c a bit) (done (s.setF k (F || !x))) ∧
       s.op k (.opXorb l c a bit) (done (s.setF k (F ^^ x))) ∧
       s.op k (.opNotf l c) (done (s.setF k (!F))) ∧ s.op k (.opLdf l c a) (done (s.setF k (decide (A ≠ 0#32)))) ∧
       s.op k (.opStf l c d) (done (s.writeSlot k d.toNat (BitVec.ofNat 32 (b2n F)))) ∧
       s.op k (.opSel l c d a b) (done (s.writeSlot k d.toNat (if F then B else A))) ∧
       s.op k (.opRdtb l c d) (done (s.writeSlot k d.toNat (BitVec.ofNat 32 (s.tk k).relUs))) ∧
       s.op k (.opRdzt l c d) (done ((s.writeSlot k d.toNat (BitVec.ofNat 32 (s.tk k).relAt.ns)).writeSlot k (d.toNat + 1)
         (BitVec.ofNat 32 (s.tk k).relAt.ep))) ∧
       s.op k (.opTrap l c b) (done (s.lthErr k 0x06 pc B.toNat)) ∧
       s.op k (.opCload l d a) (always (if F then s.writeSlot k (d.toNat + 1) A else s))) ∧
     (∀ q ∈ [(Instr.opStb l c d bit, F), (.opStbn l c d bit, !F), (.opSetb l c d bit, D.getLsbD bit.toNat || F),
         (.opRstb l c d bit, D.getLsbD bit.toNat && !F)],
       ∃ w : Word, s.op k q.1 (done (s.writeSlot k d.toNat w)) ∧
         ∀ i, i < 32 → w.getLsbD i = if i = bit.toNat then q.2 else D.getLsbD i) ∧
     s.op k (.opRedge l d)
       (always ((s.writeSlot k d.toNat (BitVec.ofNat 32 (b2n F))).setF k (F && !(s.readSlot k d.toNat).getLsbD 0))) ∧
     s.op k (.opFedge l d)
       (always ((s.writeSlot k d.toNat (BitVec.ofNat 32 (b2n F))).setF k (!F && (s.readSlot k d.toNat).getLsbD 0)))) ∧
   ∀ (s : State) (k n m : Nat) (v : Word),
     let t := s.writeSlot k n v
     t = { s with lth := t.lth } ∧ (s.ownSlot k n → t.beneath k n = v) ∧ (m ≠ n → t.beneath k m = s.beneath k m) ∧
       (¬s.ownSlot k n → t = s) ∧ (s.slotShadowed n = true → t.lth.slots = s.lth.slots)) ∧
  (∀ (s : State) (l : Fin 2) (k : Nat) (t : BitVec 16), s.executes l k →
     let x := s.tk k
     s.op k (.opJmp l t) (.next (s.goto_ k t.toNat 2)) ∧
     s.op k (.opJf l t) (.next (if x.flag then s.goto_ k t.toNat 2 else s.goto_ k (x.pc + 1) 1)) ∧
     s.op k (.opJnf l t) (.next (if x.flag then s.goto_ k (x.pc + 1) 1 else s.goto_ k t.toNat 2)) ∧
     (x.stack.length < 8 → s.op k (.opCall l t)
       (.next (s.putTk k { x with stack := (x.pc + 1) :: x.stack, pc := t.toNat, cycles := x.cycles + 2 }))) ∧
     (∀ r rest, x.stack = r :: rest →
       s.op k (.opRet l) (.next (s.putTk k { x with stack := rest, pc := r, cycles := x.cycles + 2 }))) ∧
     (∀ c ∈ [Instr.opEnd l, .opRet l], (c = .opRet l → x.stack = []) → s.opAt k = laneWord c →
       Gives c s fun u => u = { s with lth := u.lth } ∧ (u.tk k).phase = 5 ∧ k ∈ u.lth.commitQ ∧ u.lth.slots = s.lth.slots ∧
         (u.tk k).shadow = x.shadow ∧ u.laneTask l ≠ some k) ∧
     ∀ (pc cost : Nat), s.goto_ k pc cost = s.putTk k { x with pc := pc, cycles := x.cycles + cost })

/-- R165 to R167: integer operations. -/
def Obligations.LaneIntegerOperations : Prop :=
  ∀ (s : State) (l : Fin 2) (k : Nat) (c : OpCond) (d a : BitVec 14) (b : OpSrc), s.executes l k →
    let pc := (s.tk k).pc
    let done := fun (t : State) (cost : Nat) => (.next (if c.holds (s.flagF k) then
      t.goto_ k (pc + 1) cost else s.goto_ k (pc + 1) 1) : Out)
    let A := s.readSlot k a.toNat
    let B := s.opB k b
    let D := s.readSlot k d.toNat
    let n := B.toNat % 32
    (∀ q ∈ [(Instr.opAdd l c d a b, 1, A.toInt + B.toInt), (.opSub l c d a b, 1, A.toInt - B.toInt),
        (.opMul l c d a b, 2, A.toInt * B.toInt), (.opMin l c d a b, 1, min A.toInt B.toInt),
        (.opMax l c d a b, 1, max A.toInt B.toInt), (.opLimit l c d a b, 1, min (max D.toInt A.toInt) B.toInt),
        (.opShl l c d a b, 1, (A.toNat : Int) * 2 ^ n), (.opShr l c d a b, 1, (A.toNat : Int) / 2 ^ n),
        (.opSar l c d a b, 1, A.toInt / 2 ^ n), (.opRol l c d a b, 1, (A.toNat : Int) * 2 ^ n + (A.toNat : Int) / 2 ^ (32 - n))],
      s.op k q.1 (done (s.writeSlot k d.toNat (BitVec.ofInt 32 q.2.2)) q.2.1)) ∧
    (∀ q ∈ [(Instr.opAnd l c d a b, A &&& B), (.opOr l c d a b, A ||| B), (.opXor l c d a b, A ^^^ B), (.opNot l c d a, ~~~A)],
      s.op k q.1 (done (s.writeSlot k d.toNat q.2) 1)) ∧
    (B ≠ 0#32 →
      s.op k (.opDiv l c d a b) (done (s.writeSlot k d.toNat (BitVec.ofInt 32 (A.toInt.tdiv B.toInt))) 16) ∧
      s.op k (.opMod l c d a b) (done (s.writeSlot k d.toNat (BitVec.ofInt 32 (A.toInt - A.toInt.tdiv B.toInt * B.toInt))) 16)) ∧
    (B = 0#32 →
      s.op k (.opDiv l c d a b) (done ((s.writeSlot k d.toNat 0#32).lthErr k 0x04 pc 0) 16) ∧
      s.op k (.opMod l c d a b) (done ((s.writeSlot k d.toNat 0#32).lthErr k 0x04 pc 0) 16)) ∧
    ∀ q ∈ [(Instr.opEq l c a b, decide (A.toNat = B.toNat)), (.opNe l c a b, decide (A.toNat ≠ B.toNat)),
        (.opLt l c a b, decide (A.toInt < B.toInt)), (.opLe l c a b, decide (A.toInt ≤ B.toInt)),
        (.opGt l c a b, decide (B.toInt < A.toInt)), (.opGe l c a b, decide (B.toInt ≤ A.toInt)),
        (.opLtu l c a b, decide (A.toNat < B.toNat)), (.opGeu l c a b, decide (B.toNat ≤ A.toNat))],
      s.op k q.1 (done (s.setF k q.2) 1)

/-- R165 to R167: floating-point operations. -/
def Obligations.LaneFloatOperations : Prop :=
  (∀ (s : State) (l : Fin 2) (k : Nat) (c : OpCond) (d a : BitVec 14) (b : OpSrc), s.executes l k →
    let pc := (s.tk k).pc
    let done := fun (t : State) (cost : Nat) => (.next (if c.holds (s.flagF k) then
      t.goto_ k (pc + 1) cost else s.goto_ k (pc + 1) 1) : Out)
    let A := s.readSlot k a.toNat
    let B := s.opB k b
    (∀ q ∈ [(Instr.opFadd l c d a b, 2, fpAdd A B), (.opFsub l c d a b, 2, fpSub A B), (.opFmul l c d a b, 2, fpMul A B),
        (.opFdiv l c d a b, 8, fpDiv A B), (.opFsqrt l c d a, 8, fpSqrt A), (.opFmin l c d a b, 1, fpMin A B),
        (.opFmax l c d a b, 1, fpMax A B), (.opFabs l c d a, 1, fpAbs A), (.opFneg l c d a, 1, fpNeg A),
        (.opItof l c d a, 2, fpOfInt A.toInt), (.opFtoi l c d a, 2, fpToInt A)],
      s.op k q.1 (done (s.writeSlot k d.toNat q.2.2) q.2.1)) ∧
    ∀ q ∈ [(Instr.opFlt l c a b, fpLt A B), (.opFle l c a b, fpLe A B), (.opFeq l c a b, fpEq A B)],
      s.op k q.1 (done (s.setF k q.2) 1)) ∧
  ∀ x y : Word,
    (∀ r ∈ [fpAdd x y, fpSub x y, fpMul x y, fpDiv x y, fpSqrt x, fpMin x y, fpMax x y, fpAbs x, fpNeg x, fpOfInt x.toInt],
      (fpIsNan r = true → r = 0x7FC00000#32) ∧ (fpExp r = 0 → fpFrac r = 0)) ∧
    (fpIsNan x = true ∨ fpIsNan y = true →
      (∀ r ∈ [fpAdd x y, fpSub x y, fpMul x y, fpDiv x y], r = 0x7FC00000#32) ∧
        (∀ r ∈ [fpLt x y, fpLe x y, fpEq x y], r = false)) ∧
    (fpIsNan x = true → fpIsNan y = false → fpMin x y = fpFlush y ∧ fpMax x y = fpFlush y) ∧
    (fpIsInf x = true → fpIsInf y = true → fpSign x ≠ fpSign y → fpAdd x y = 0x7FC00000#32) ∧
    (fpIsZero x = true → fpIsZero y = true → fpDiv x y = 0x7FC00000#32 ∧ fpEq x y = true) ∧
    (fpIsZero x = false → fpSign x = true → fpSqrt x = 0x7FC00000#32) ∧
    (fpIsNan x = true → fpToInt x = 0#32) ∧
    (fpIsInf x = true → fpToInt x = if fpSign x then 0x80000000#32 else 0x7FFFFFFF#32)

/-- R158, R165, R167, R169, R170: blocks and indexed access. -/
def Obligations.LaneBlockOperations : Prop :=
  (∀ (s : State) (l : Fin 2) (k : Nat) (c : OpCond) (d a : BitVec 14) (b : OpSrc), s.executes l k →
    let pc := (s.tk k).pc
    let done := fun (t : State) => (.next (if c.holds (s.flagF k) then
      t.goto_ k (pc + 1) 2 else s.goto_ k (pc + 1) 1) : Out)
    (∀ n : Nat, n < s.slotCount → (n : Int) = a.toNat + (s.opB k b).toInt → s.slotTask n = s.slotTask a.toNat →
      s.slotArea n = s.slotArea a.toNat →
      s.op k (.opLdx l c d a b) (done (s.writeSlot k d.toNat (s.readSlot k n))) ∧
        s.op k (.opStx l c d a b) (done (s.writeSlot k n (s.readSlot k d.toNat)))) ∧
    ((∀ n : Nat, n < s.slotCount → (n : Int) = a.toNat + (s.opB k b).toInt → s.slotTask n = s.slotTask a.toNat →
        s.slotArea n ≠ s.slotArea a.toNat) →
      s.op k (.opLdx l c d a b) (done ((s.writeSlot k d.toNat 0#32).lthErr k 0x05 pc 0)) ∧
        s.op k (.opStx l c d a b) (done (s.lthErr k 0x05 pc 0)))) ∧
  ∀ (s : State) (l : Fin 2) (k : Nat) (d a : BitVec 14), s.executes l k →
    s.ownSlot k d.toNat → s.ownSlot k (d.toNat + 1) →
    let F := s.flagF k
    let w := s.readSlot k d.toNat
    let q := w.getLsbD 0
    let run := w.getLsbD 1
    let prev := w.getLsbD 2
    let et := s.readSlot k (d.toNat + 1)
    let start := s.readSlot k (d.toNat + 2)
    let now := BitVec.ofNat 32 (s.tk k).relUs
    let pt := s.readSlot k a.toNat
    let least := fun x : Word => if x.toNat ≤ pt.toNat then x else pt
    (s.ownSlot k (d.toNat + 2) →
      let leaves := fun (c : Instr) (Q RUN : Bool) (ET START : Word) => s.opAt k = laneWord c → Gives c s fun t =>
        t.flagF k = Q ∧ (t.beneath k d.toNat).getLsbD 0 = Q ∧ (t.beneath k d.toNat).getLsbD 1 = RUN ∧
          (t.beneath k d.toNat).getLsbD 2 = F ∧ t.beneath k (d.toNat + 1) = ET ∧ t.beneath k (d.toNat + 2) = START
      let keptRun := (s.beneath k d.toNat).getLsbD 1
      let keptEt := s.beneath k (d.toNat + 1)
      let kept := s.beneath k (d.toNat + 2)
      (F = false → leaves (.opTon l d a) false keptRun 0#32 kept) ∧
      (F = true → prev = false → leaves (.opTon l d a) (decide (pt = 0#32)) keptRun 0#32 now) ∧
      (F = true → prev = true → q = true → leaves (.opTon l d a) true keptRun pt kept) ∧
      (F = true → prev = true → q = false →
        leaves (.opTon l d a) (decide (pt.toNat ≤ (now - start).toNat)) keptRun (least (now - start)) kept) ∧
      (F = true → leaves (.opTof l d a) true false 0#32 kept) ∧
      (F = false → prev = true → leaves (.opTof l d a) (decide (0 < pt.toNat)) (decide (pt ≠ 0#32)) 0#32 now) ∧
      (F = false → prev = false → run = true →
        leaves (.opTof l d a) (decide ((now - start).toNat < pt.toNat)) (decide ((now - start).toNat < pt.toNat))
          (least (now - start)) kept) ∧
      (F = false → prev = false → run = false → leaves (.opTof l d a) false keptRun keptEt kept) ∧
      (F = true → prev = false → run = false → leaves (.opTp l d a) (decide (pt ≠ 0#32)) (decide (pt ≠ 0#32)) 0#32 now) ∧
      (run = true → (now - start).toNat < pt.toNat → leaves (.opTp l d a) true true (now - start) kept) ∧
      (run = true → pt.toNat ≤ (now - start).toNat → leaves (.opTp l d a) false false (if F then pt else 0#32) kept) ∧
      (F = true → prev = true → run = false → leaves (.opTp l d a) false keptRun keptEt kept) ∧
      (F = false → run = false → leaves (.opTp l d a) false keptRun 0#32 kept)) ∧
    (let cv := et.toInt
      let up := if F = true ∧ w.getLsbD 1 = false then min (cv + 1) (2 ^ 31 - 1) else cv
      let down := if F = true ∧ w.getLsbD 2 = false then max (cv - 1) (-2 ^ 31) else cv
      (s.opAt k = laneWord (.opCtu l d a) → Gives (.opCtu l d a) s fun t =>
        (up ≠ cv → t.beneath k (d.toNat + 1) = BitVec.ofInt 32 up) ∧
          (t.beneath k d.toNat).getLsbD 1 = F ∧ t.flagF k = decide (pt.toInt ≤ up)) ∧
      (s.opAt k = laneWord (.opCtd l d a) → Gives (.opCtd l d a) s fun t =>
        (down ≠ cv → t.beneath k (d.toNat + 1) = BitVec.ofInt 32 down) ∧
          (t.beneath k d.toNat).getLsbD 2 = F ∧ t.flagF k = decide (down ≤ 0)))

/-- R189, R192, R194: station states. -/
def Obligations.StationsFollowTheirStates : Prop :=
  (∀ (s : State) (eth : Bool) (e : Fin 32) (src : BitVec 48) (l : List (BitVec 8)), s.latheRuns = true →
    (∀ n < 64, s.stnAt eth e n = true → s.stnSource n ≠ src.toNat) →
    exec (.stationIn ⟨eth, e, src⟩ l) s =
      .next (if s.stnAt eth e (at0 (natsOf l) 1) then s.bump F.LTH_STN_ERR_BAD 1 (at0 (natsOf l) 1) else s)) ∧
  (∀ (s : State) (n : Fin 64) (eth : Bool) (e : Fin 32) (src : BitVec 48) (l : List (BitVec 8)), s.latheRuns = true →
    s.stnAt eth e n = true → s.stnSource n = src.toNat → (∀ j < n.val, s.stnAt eth e j = true → s.stnSource j ≠ src.toNat) →
    let pdu := natsOf l
    let len := leNat (slice pdu 8 2)
    let good := at0 pdu 0 = 0x13 ∧ at0 pdu 1 = n ∧ len = 4 * s.stnIn n ∧ 16 + len ≤ pdu.length ∧
      leNat (slice pdu (12 + len) 4) = crc32 (pdu.take (12 + len)) ∧
      ((s.tk (s.stnTask n)).sync = true → leNat (slice pdu 4 4) = (s.tk (s.stnTask n)).relUs % 2 ^ 32)
    let seq := leNat (slice pdu 2 2)
    let next := ∀ p, (s.stn n).lastSeq = some p → 1 ≤ (seq + 65536 - p) % 65536 ∧ (seq + 65536 - p) % 65536 ≤ 32767
    (¬good → exec (.stationIn ⟨eth, e, src⟩ l) s = .next (s.bump F.LTH_STN_ERR_BAD 1 n)) ∧
    (good → ¬next → exec (.stationIn ⟨eth, e, src⟩ l) s = .next (s.bump F.LTH_STN_ERR_STALE 1 n)) ∧
    (good → next →
      Gives (.stationIn ⟨eth, e, src⟩ l) s fun t =>
        (t.stn n).lastSeq = some seq ∧ (t.stn n).vals = leWords (slice pdu 12 len) ∧ (t.stn n).answered = true ∧
          t.is F.LTH_STN_STAT_FAULT n = bitOf (leNat (slice pdu 10 2)) 1 ∧
          ((s.stn n).run = 0 → s.stnState n ≠ Stn.active → t.stnState n = s.stnState n) ∧
          (1 ≤ (s.stn n).run → t.stnState n = Stn.active))) ∧
  (∀ (s : State) (n : Fin 64), s.latheRuns = true → s.stnEn n = true →
    (s.stnState n = Stn.dropped → exec (.stationAllowanceExpiry n) s = .next (s.putStn n { s.stn n with run := 0 })) ∧
    (s.stnState n ≠ Stn.dropped →
      Gives (.stationAllowanceExpiry n) s fun t =>
        t.stnState n = Stn.dropped ∧ (t.stn n).run = 0 ∧
          t.get F.LTH_STN_DROPS_COUNT n = min (s.get F.LTH_STN_DROPS_COUNT n + 1) (2 ^ 16 - 1))) ∧
  ∀ (s : State) (k : Fin 8), s.latheRuns = true → (s.tk k).phase = 1 → (s.tk k).sync = true →
    Gives (.stationSyncTimeout k) s fun t =>
      (∀ n ∈ s.taskStations k, t.stnState n = Stn.dropped ∨ (t.stn n).answered = true) ∧
        ∀ n ∈ s.taskStations k, s.stnState n ≠ Stn.dropped → (s.stn n).answered = false → t.stnState n = Stn.dropped

/-- R195 to R200: online change and forces. -/
def Obligations.ChangesAndForcesActAtOneInstant : Prop :=
  (∀ (s : State) (m : Master) (v : Option (Fin 16)) (a : Access),
    let cp := viewCopy v
    (∀ sid : BitVec 32, s.writes m .LTH_CHG_ITEM v 0 0 sid.toNat a → s.lth.waiting.contains cp = false →
      ((s.items cp).length < 256 → Gives (.chgItem m v sid) s fun t =>
        t.items cp = s.items cp ++ [(sid.toNat, BitVec.ofNat 32 (s.get F.LTH_CHG_VALUE_VALUE 0 0 cp))]) ∧
      (256 ≤ (s.items cp).length → exec (.chgItem m v sid) s = .next ((s.taken a).answer true 0))) ∧
    (s.writes m .LTH_CHG_CTRL v 0 0 2 a → s.lth.waiting.contains cp = false →
      Gives (.chgClear m v) s fun t => t.items cp = [] ∧ t.get F.LTH_CHG_STATUS_COUNT 0 0 cp = 0) ∧
    (s.writes m .LTH_CHG_CTRL v 0 0 1 a → s.lth.waiting.contains cp = false →
      let fails := fun r : Nat => exec (.chgCommit m v) s =
        .next ((((s.taken a).put F.LTH_CHG_STATUS_RESULT r 0 0 cp).put F.LTH_CHG_STATUS_FIRST_BAD 0 0 0 cp).answer true 0)
      let offered := ∀ d : Fin 16, v = some d → s.feat d 9 = true
      (s.engine = Eng.idle ∨ s.engine = Eng.starting → fails 5) ∧
      (s.engine = Eng.running ∨ s.engine = Eng.stopped →
        (¬offered → fails 6) ∧ (offered → s.items cp = [] → fails 7) ∧
        (offered → (∃ p ∈ s.items cp, s.itemCheck cp p.1 ≠ 0) →
          Gives (.chgCommit m v) s fun t => t.get F.LTH_CHG_STATUS_RESULT 0 0 cp = 2 ∧
            t.get F.LTH_CHG_STATUS_FIRST_BAD 0 0 cp = (s.items cp).findIdx (fun p => s.itemCheck cp p.1 != 0) % 256 ∧ t.lth.slots = s.lth.slots ∧ t.items cp = []) ∧
        (offered → s.items cp ≠ [] → (∀ p ∈ s.items cp, s.itemCheck cp p.1 = 0) → s.engine = Eng.running →
          Gives (.chgCommit m v) s fun t =>
            t.get F.LTH_CHG_STATUS_RESULT 0 0 cp = 4 ∧ t.lth.waiting = s.lth.waiting ++ [cp] ∧ t.lth.slots = s.lth.slots) ∧
        (offered → s.items cp ≠ [] → (∀ p ∈ s.items cp, s.itemCheck cp p.1 = 0) → s.engine = Eng.stopped →
          Gives (.chgCommit m v) s fun t => t.get F.LTH_CHG_STATUS_RESULT 0 0 cp = 1 ∧ t.lth.waiting = [])))) ∧
  (∀ (s : State) (cp : Nat), s.latheLive = true → s.lth.forceReqs = [] → s.lth.waiting = [cp] → s.instant (s.itemSlots cp) = true →
    Gives .changeApply s fun t =>
      t.get F.LTH_CHG_STATUS_RESULT 0 0 cp = 1 ∧ t.lth.waiting = [] ∧ t.items cp = [] ∧
        ∀ n w, s.items cp = [(s.slotSid n, w)] → s.slotOfSid (s.slotSid n) = some n →
          t.slot n = w ∧ storeGet [] t.lth.results cp = [if s.isForced n then 4 else 0] ∧ ∀ x, x ≠ n → t.slot x = s.slot x) ∧
  (∀ (s : State) (v : Option (Fin 16)), s.latheRuns = true → s.lth.waiting.contains (viewCopy v) = true →
    Gives (.changeTimeout v) s fun t =>
      t.get F.LTH_CHG_STATUS_RESULT 0 0 (viewCopy v) = 3 ∧ t.lth.slots = s.lth.slots ∧ t.items (viewCopy v) = [] ∧
        viewCopy v ∉ t.lth.waiting) ∧
  (∀ (s : State) (m : Master) (v : Option (Fin 16)) (a : Access) (n : Nat), s.engine = Eng.running →
    let cp := viewCopy v
    let sid := s.get F.LTH_FRC_SID_WORD 0 0 cp
    let f : Force := ⟨sid, BitVec.ofNat 32 (s.get F.LTH_FRC_VALUE_WORD 0 0 cp), BitVec.ofNat 32 (s.get F.LTH_FRC_MASK_WORD 0 0 cp)⟩
    (∀ d : Fin 16, v = some d → s.feat d 10 = true) → s.slotOfSid sid = some n → s.maySlot cp n = true →
    (s.writes m .LTH_FRC_CTRL v 0 0 1 a → f.mask ≠ 0#32 →
      (∃ g ∈ s.lth.forces, g.sid = sid) ∨ s.lth.forces.length + s.lth.forceReqs.length < 512 →
      exec (.forceSet m v) s =
        .next ({ s.taken a with lth := { s.lth with forceReqs := s.lth.forceReqs ++ [(⟨cp, true, f⟩ : ForceReq)] } }.answer true 0)) ∧
    (s.writes m .LTH_FRC_CTRL v 0 0 1 a → f.mask ≠ 0#32 → (∀ g ∈ s.lth.forces, g.sid ≠ sid) → 512 ≤ s.lth.forces.length →
      s.lth.forceReqs = [] → exec (.forceSet m v) s = .next (((s.taken a).put F.LTH_FRC_STATUS_RESULT 4 0 0 cp).answer true 0)) ∧
    (s.writes m .LTH_FRC_CTRL v 0 0 2 a →
      ((∃ g ∈ s.lth.forces, g.sid = sid) → exec (.forceRelease m v) s =
        .next ({ s.taken a with lth := { s.lth with forceReqs := s.lth.forceReqs ++ [(⟨cp, false, f⟩ : ForceReq)] } }.answer true 0)) ∧
      ((∀ g ∈ s.lth.forces, g.sid ≠ sid) → exec (.forceRelease m v) s =
        .next (((s.taken a).put F.LTH_FRC_STATUS_RESULT 5 0 0 cp).answer true 0)))) ∧
  (∀ (s : State) (m : Master) (v : Option (Fin 16)) (a : Access), s.writes m .LTH_FRC_CTRL v 0 0 3 a →
    (∀ d : Fin 16, v = some d → s.feat d 10 = true) →
    let cp := viewCopy v
    let mine := s.lth.forces.filter fun g => match s.slotOfSid g.sid with | some n => s.maySlot cp n | none => cp == 0
    (s.engine = Eng.running → mine = [] →
      exec (.forceReleaseAll m v) s = .next (((s.taken a).put F.LTH_FRC_STATUS_RESULT 1 0 0 cp).answer true 0)) ∧
    (s.engine = Eng.running → mine ≠ [] →
      exec (.forceReleaseAll m v) s = .next ({ s.taken a with lth := { s.lth with
        forceReqs := s.lth.forceReqs ++ mine.map fun g => (⟨cp, false, g⟩ : ForceReq) } }.answer true 0)) ∧
    (s.engine = Eng.stopped → s.lth.forceReqs = [] → s.lth.forces.length ≤ 512 →
      Gives (.forceReleaseAll m v) s fun t =>
        t.get F.LTH_FRC_STATUS_RESULT 0 0 cp = 1 ∧ t.lth.forceReqs = [] ∧ ∀ g, g ∈ t.lth.forces ↔ g ∈ s.lth.forces ∧ g ∉ mine)) ∧
  ∀ (s : State) (q : ForceReq) (n : Nat), s.latheLive = true → s.lth.forceReqs = [q] → s.slotOfSid q.force.sid = some n →
    s.lth.forces.length < 512 →
    s.instant [n] = true →
    Gives .forceApply s fun t =>
      t.get F.LTH_FRC_STATUS_RESULT 0 0 q.cp = 1 ∧ t.lth.forceReqs = [] ∧ t.lth.slots = s.lth.slots ∧
        (q.set_ = true → q.force ∈ t.lth.forces) ∧ (q.set_ = false → ∀ g ∈ t.lth.forces, g.sid ≠ q.force.sid) ∧
        ∀ g, g.sid ≠ q.force.sid → (g ∈ t.lth.forces ↔ g ∈ s.lth.forces)

/-- R205, R208, R216, R219 to R222, R224: commands of the Mitre unit. -/
def Obligations.MitreCommandsFollowTheStates : Prop :=
  (∀ (s : State) (m : Master) (cores : Fin 4) (a : Access), a.tag.drawer = 0 → s.mtrSplit = false →
    let rej := (((s.taken a).put F.MTR_STATE_CMD_REJ 1).answer true 0 : State)
    (s.bare = true → s.writes m .MTR_CTRL none 0 0 (keyed 0x4D17 (1 + 16 * cores)) a → exec (.mitreRun m cores) s = .next rej) ∧
    (s.bare = false →
    (s.writes m .MTR_CTRL none 0 0 (keyed 0x4D17 (1 + 16 * cores)) a →
      (s.mtrState = Mtr.halted → Gives (.mitreRun m cores) s fun t =>
        t.mtrState = Mtr.running ∧ t.get F.MTR_STATE_COPY = 1 ∧ t.get F.MTR_SLICES_COUNT = 0 ∧ t.mtr.recA = none ∧
          t.mtr.ckArch = s.mtr.archA.set archPc (BitVec.ofNat 32 (2 * s.get F.MTR_ENTRY_PC)) ∧
          t.mtr.bank0 = s.mtr.bank0 ∧ t.mtr.bank1 = s.mtr.bank1) ∧
      (s.mtrState ≠ Mtr.halted → exec (.mitreRun m cores) s = .next rej)) ∧
    (s.writes m .MTR_CTRL none 0 0 (keyed 0x4D17 (2 + 16 * cores)) a →
      (s.mtrState = Mtr.running ∨ s.mtrState = Mtr.resolving →
        exec (.mitreHalt m cores) s = .next ({ s.taken a with mtr := { s.mtr with haltReq := true } }.answer true 0)) ∧
      (s.mtrState ≠ Mtr.running → s.mtrState ≠ Mtr.resolving → exec (.mitreHalt m cores) s = .next rej)) ∧
    (s.writes m .MTR_CTRL none 0 0 (keyed 0x4D17 3) a →
      (s.mtrState = Mtr.halted →
        exec (.mitreTest m) s = .next (((s.taken a).put F.MTR_STATE_STATE Mtr.testing).answer true 0)) ∧
      (s.mtrState ≠ Mtr.halted → exec (.mitreTest m) s = .next rej)) ∧
    (s.writes m .MTR_CTRL none 0 0 (keyed 0x4D17 4) a →
      (s.mtrState = Mtr.safeFault ∨ s.mtrState = Mtr.failed →
        Gives (.mitreClear m) s fun t => t.mtrState = Mtr.testing ∧ t.mtr = MtrSt.rst) ∧
      (s.mtrState ≠ Mtr.safeFault → s.mtrState ≠ Mtr.failed → exec (.mitreClear m) s = .next rej)))) ∧
  (∀ (s : State) (lanes : BitVec 32) (sig : Bool), s.live 12 = true → s.mtrState = Mtr.testing →
    (lanes = 0 → sig = false → Gives (.mitreSelfTest lanes sig) s fun t =>
      t.mtrState = Mtr.halted ∧ t.get F.MTR_TEST_LANE_FAIL = 0 ∧ t.get F.MTR_TEST_SIG_DONE = 1) ∧
    (lanes ≠ 0 ∨ sig = true → Gives (.mitreSelfTest lanes sig) s fun t =>
      t.mtrState = Mtr.failed ∧ t.get F.MTR_STATE_CAUSE = 4 ∧ t.get F.MTR_TEST_LANE_FAIL = lanes.toNat ∧
        t.is F.MTR_TEST_SIG_SIG_FAIL = sig)) ∧
  (∀ (s : State) (m : Master) (a : Access), s.writes m .MTR_DOORBELL none 0 0 1 a → a.tag.drawer = 0 →
    exec (.doorbell m) s = .next (((s.taken a).put F.MTR_INT_ACK_ACK (setBitTo (s.get F.MTR_INT_ACK_ACK) 11 true)).answer true 0)) ∧
  ∀ (s : State) (m : Master) (v : BitVec 32) (a : Access), a.tag.drawer = 0 → s.mtrState = Mtr.halted → s.mtrSplit = false →
    let off := 4 * s.get F.MTR_LMEM_ADDR_OFFSET % 0x100000
    (s.writes m .MTR_LMEM_DATA none 0 0 v.toNat a →
      Gives (.lmemDataAccess m (some v)) s fun t =>
        t.lmemA off = v ∧ t.lmemB off = v ∧ (∀ x, x % 4 = 0 → x < 0x100000 → x ≠ off → t.lmemA x = s.lmemA x ∧ t.lmemB x = s.lmemB x)) ∧
    (s.reads m .MTR_LMEM_DATA none 0 0 a →
      Gives (.lmemDataAccess m none) s fun t => t.resp = ⟨true, (s.lmemA off).toNat⟩ ∧ t.mtr = s.mtr)

/-- R204, R206, R209 to R214, R216: slices of the braced unit, and where each end of a copy completes. -/
def Obligations.BracedSlicesAreCompared : Prop :=
  (∀ (s : State) (r : CopyRec), s.live 12 = true → s.mtrSplit = false → s.mtrState = Mtr.running →
    (s.get F.MTR_STATE_COPY = 1 → s.sliceFits r = true → s.endOk r = true → r.loads = s.mtr.loads →
      exec (.copyAEnd r) s = .next (s.copyAEnd r) ∧
      (s.copyAEnd r).get F.MTR_STATE_COPY = 2 ∧ (s.copyAEnd r).mtr.recA = some r ∧ (s.copyAEnd r).mtr.archA = r.regs ∧
        (∀ a v, r.writes = [(a, v)] → (s.copyAEnd r).lmemA a = v) ∧ (s.copyAEnd r).mtr.bank1 = s.mtr.bank1) ∧
    (s.get F.MTR_STATE_COPY = 2 → ∀ a, s.mtr.recA = some a → r.instrs = a.instrs → s.sliceFits (r.logged a) = true →
      let b := r.logged a
      let u := s.copyBState b
      (queuesAgree a b = false → exec (.copyBEnd r) s = .next ((u.put F.MTR_STATE_STATE Mtr.resolving).put F.MTR_STATE_COPY 3) ∧
        Gives (.copyBEnd r) s fun t => t.mtrState = Mtr.resolving ∧ t.get F.MTR_STATE_COPY = 3 ∧ t.mem = s.mem ∧
          t.get F.MTR_SLICES_COUNT = s.get F.MTR_SLICES_COUNT) ∧
      (queuesAgree a b = true → a.signature = b.signature →
        exec (.copyBEnd r) s = .next (((u.queueRelease a.queue).sliceReleased).nextSlice) ∧
        (a.queue = [] → s.mtr.haltReq = false → bitOf s.mtr.dbgReq 0 = false → Gives (.copyBEnd r) s fun t =>
          t.mtrState = Mtr.running ∧ t.get F.MTR_STATE_COPY = 1 ∧ t.mtr.recA = none ∧
            t.get F.MTR_SLICES_COUNT = (s.get F.MTR_SLICES_COUNT + 1) % 2 ^ 32)) ∧
      (queuesAgree a b = true → a.signature ≠ b.signature → rateMet s.mtr.latents 2 (s.get F.MTR_SLICES_COUNT) = false →
        exec (.copyBEnd r) s = .next ((((u.latentEvent a b).2.queueRelease a.queue).sliceReleased).resyncBegin 2) ∧
        (a.queue = [] → Gives (.copyBEnd r) s fun t =>
          t.mtrState = Mtr.running ∧ t.get F.MTR_STATE_COPY = 0 ∧ t.mtr.odd = 2 ∧
            t.get F.MTR_EVENTS_LATENT = min (s.get F.MTR_EVENTS_LATENT + 1) (2 ^ 16 - 1))) ∧
      (queuesAgree a b = true → a.signature ≠ b.signature → rateMet s.mtr.latents 2 (s.get F.MTR_SLICES_COUNT) = true →
        exec (.copyBEnd r) s = .next ((u.latentEvent a b).2.safeFault 2) ∧
        Gives (.copyBEnd r) s fun t => t.mtrState = Mtr.safeFault ∧ t.get F.MTR_STATE_CAUSE = 2))) ∧
  (∀ (s : State) (a b r : CopyRec), s.live 12 = true → s.mtrSplit = false → s.mtrState = Mtr.resolving →
    s.get F.MTR_STATE_COPY = 3 → s.mtr.recA = some a → s.mtr.recB = some b → s.sliceFits (r.logged a) = true →
    r.instrs = a.instrs →
    let c := r.logged a
    let u := s.copyCState c
    (copiesAgree a c = false → copiesAgree b c = false →
      exec (.copyCEnd r) s = .next ((u.mtrLast 3 0 (diffOf a b)).safeFault 1) ∧
      Gives (.copyCEnd r) s fun t => t.mtrState = Mtr.safeFault ∧ t.get F.MTR_STATE_CAUSE = 1 ∧ t.mem = s.mem) ∧
    (∀ odd, (odd = 2 ∧ copiesAgree a c = true) ∨ (odd = 1 ∧ copiesAgree a c = false ∧ copiesAgree b c = true) →
      let q := if odd = 2 then a.queue else b.queue
      (rateMet s.mtr.mismatches 6 (s.get F.MTR_SLICES_COUNT) = true →
        exec (.copyCEnd r) s = .next ((u.mismatchEvent odd a b).2.safeFault 3)) ∧
      (rateMet s.mtr.mismatches 6 (s.get F.MTR_SLICES_COUNT) = false →
        exec (.copyCEnd r) s = .next ((((u.mismatchEvent odd a b).2.queueRelease q).sliceReleased).resyncBegin odd) ∧
        (q = [] → Gives (.copyCEnd r) s fun t =>
          t.mtrState = Mtr.running ∧ t.get F.MTR_STATE_COPY = 0 ∧ t.mtr.odd = odd ∧ t.get F.MTR_LAST_ODD = odd)))) ∧
  ∀ s : State, s.live 12 = true → s.mtrSplit = false → s.mtrState = Mtr.running → s.get F.MTR_STATE_COPY = 0 →
    (s.mtr.odd ≠ 0 → exec .resyncEnd s = .next s.resyncEnd) ∧
    (s.mtr.odd = 2 → s.mtr.haltReq = false → bitOf s.mtr.dbgReq 0 = false → Gives .resyncEnd s fun t =>
      t.get F.MTR_STATE_COPY = 1 ∧ t.mtr.odd = 0 ∧ t.mtr.bank0 = s.mtr.bank0 ∧
        ∀ a, a % 4 = 0 → a < 0x100000 → a ∈ wroteOf s.mtr.recA ++ wroteOf s.mtr.recB → t.lmemB a = t.lmemA a)

/-- R255 to R257: the forwarding database. -/
def Obligations.ForwardingDatabaseFollowsItsOperations : Prop :=
  (∀ (s : State) (m : Master) (a : Access),
    let mac := s.get F.DVT_FDB_MAC_LO_MAC + s.get F.DVT_FDB_MAC_HI_MAC_VID % 65536 * 2 ^ 32
    let vid := s.get F.DVT_FDB_MAC_HI_MAC_VID / 65536 % 4096
    let dest := s.get F.DVT_FDB_DEST_LO_DEST + s.get F.DVT_FDB_DEST_HI_DEST_HI * 2 ^ 32
    let room := (s.bucket (fdbBucket mac vid)).length < 4
    let others := fun t : State => ∀ m2 v2, ¬(m2 = mac ∧ v2 = vid) → t.fdbFind m2 v2 = s.fdbFind m2 v2
    let reports := fun (t : State) (res : Nat) => t.is F.DVT_FDB_STAT_BUSY = true ∧ t.dvt.fdbOp / 2 = res
    (s.is F.DVT_FDB_STAT_BUSY = true →
      (s.writes m .DVT_FDB_CTRL none 0 0 1 a → exec (.fdbLookup m) s = .next ((s.taken a).answer true 0)) ∧
      (s.writes m .DVT_FDB_CTRL none 0 0 2 a → exec (.fdbAddStatic m) s = .next ((s.taken a).answer true 0)) ∧
      (s.writes m .DVT_FDB_CTRL none 0 0 3 a → exec (.fdbDelete m) s = .next ((s.taken a).answer true 0)) ∧
      (s.writes m .DVT_FDB_CTRL none 0 0 4 a → exec (.fdbFlushPort m) s = .next ((s.taken a).answer true 0)) ∧
      (s.writes m .DVT_FDB_CTRL none 0 0 5 a → exec (.fdbFlushAll m) s = .next ((s.taken a).answer true 0))) ∧
    (s.is F.DVT_FDB_STAT_BUSY = false →
      (s.writes m .DVT_FDB_CTRL none 0 0 1 a →
        (s.fdbFind mac vid = none → Gives (.fdbLookup m) s fun t => reports t 2 ∧ t.dvt.fdb = s.dvt.fdb) ∧
        (∀ e, s.fdbFind mac vid = some e → Gives (.fdbLookup m) s fun t =>
          reports t 1 ∧ t.dvt.fdbOp % 2 = b2n (!e.static) ∧ t.get F.DVT_FDB_DEST_LO_DEST = e.dest % 2 ^ 32 ∧
            t.get F.DVT_FDB_DEST_HI_DEST_HI = e.dest / 2 ^ 32 % 32 ∧ t.dvt.fdb = s.dvt.fdb)) ∧
      (s.writes m .DVT_FDB_CTRL none 0 0 2 a →
        (dest = 0 ∨ vid = 0 ∨ vid = 4095 → Gives (.fdbAddStatic m) s fun t => reports t 4 ∧ t.dvt.fdb = s.dvt.fdb) ∧
        (dest ≠ 0 → vid ≠ 0 → vid ≠ 4095 →
          (s.fdbFind mac vid ≠ none ∨ room → Gives (.fdbAddStatic m) s fun t =>
            reports t 1 ∧ t.fdbFind mac vid = some ⟨mac, vid, dest, true, 0⟩ ∧ others t) ∧
          (s.fdbFind mac vid = none → ¬room → Gives (.fdbAddStatic m) s fun t => reports t 3 ∧ t.dvt.fdb = s.dvt.fdb))) ∧
      (s.writes m .DVT_FDB_CTRL none 0 0 3 a →
        (s.fdbFind mac vid = none → Gives (.fdbDelete m) s fun t => reports t 2 ∧ t.dvt.fdb = s.dvt.fdb) ∧
        (s.fdbFind mac vid ≠ none → Gives (.fdbDelete m) s fun t => reports t 1 ∧ t.fdbFind mac vid = none ∧ others t)) ∧
      (s.writes m .DVT_FDB_CTRL none 0 0 4 a → Gives (.fdbFlushPort m) s fun t =>
        reports t 1 ∧ ∀ b, t.bucket b =
          (s.bucket b).filter fun e => e.static || !(e.dest == 2 ^ (s.get F.DVT_FDB_DEST_LO_DEST % 64))) ∧
      (s.writes m .DVT_FDB_CTRL none 0 0 5 a → Gives (.fdbFlushAll m) s fun t =>
        reports t 1 ∧ ∀ b, t.bucket b = (s.bucket b).filter (·.static)))) ∧
  ∀ s : State, s.live 20 = true →
    (s.is F.DVT_FDB_STAT_BUSY = true → Gives .fdbOperationDone s fun t =>
      t.is F.DVT_FDB_STAT_BUSY = false ∧ t.get F.DVT_FDB_STAT_RESULT = s.dvt.fdbOp / 2 % 8 ∧
        t.get F.DVT_FDB_STAT_DYNAMIC = s.dvt.fdbOp % 2 ∧ t.dvt = s.dvt) ∧
    (s.get F.DVT_AGE_AGE_S = 0 → exec .fdbAgingScan s = .next s) ∧
    (s.get F.DVT_AGE_AGE_S ≠ 0 → (s.dvt.fdb.map (·.1)).Nodup → Gives .fdbAgingScan s fun t =>
      ∀ b, t.bucket b =
        ((s.bucket b).filter fun e => e.static || decide (e.age + 1 < 5)).map fun e =>
          if e.static then e else { e with age := e.age + 1 })

/-- R246, R247, R251, R252, R258, R263, R270, R271, R300: the path of a frame. -/
def Obligations.SwitchMovesFrames : Prop :=
  (∀ (s : State) (p : Fin 37) (f : InFrame), s.live 20 = true → s.dvt.ingress.find? (fun x => x.port == p.val) = some f →
    f.ring = none → f.tun = none →
    let u : State := { s with dvt := { s.dvt with ingress := s.dvt.ingress.erase f } }
    let vid := if isTagged f.data ∧ tciOf f.data % 4096 ≠ 0 then tciOf f.data % 4096 else s.portPvid p
    (s.portEnabled p = false → exec (.switchFrameArrival p) s = .next u) ∧
    (s.portEnabled p = true → isLinkLocal f.data = false → (∀ k < 4, s.get F.DVT_CAP_CFG_N k = 0) →
      let dropped := fun r : Nat => ((u.bump F.DVT_DROP_COUNT 1 (r - 1)).bump F.DVT_PDROP_COUNT 1 p : State)
      (s.vlanIdx vid = none → exec (.switchFrameArrival p) s = .next (dropped 1)) ∧
      (∀ vi, s.vlanIdx vid = some vi →
        (vid = 4095 ∨ s.vlanMember vi p = false → exec (.switchFrameArrival p) s = .next (dropped 1)) ∧
        (vid ≠ 4095 → s.vlanMember vi p = true → s.is F.DVT_PORT_LEARN p = false → s.handleOf (dstOf f.data) vid = none →
          s.destPorts f (dstOf (untag f.data)) vi vid = [] → exec (.switchFrameArrival p) s = .next (dropped 2)) ∧
        (∀ e : Nat, e < 30 → vid ≠ 4095 → s.vlanMember vi p = true → s.is F.DVT_PORT_LEARN p = false →
          s.handleOf (dstOf f.data) vid = none → s.destPorts f (dstOf (untag f.data)) vi vid = [e] → f.bad = false → s.portCut p = false →
          s.portUp e = true → s.unitOut 3 e = false →
          let prio := if isTagged f.data then tciOf f.data / 8192 else s.get F.DVT_PORT_DEF_PCP p
          let out := if s.vlanUntagged vi e then untag f.data else withTag (untag f.data) prio vid
          let q := 8 * e + classOf prio
          let n := cellsOf f.data.length
          (2048 < f.data.length + 4 → exec (.switchFrameArrival p) s = .next u) ∧
          (f.data.length + 4 ≤ 2048 → out.length + 4 ≤ 2048 →
          (s.occ q + n ≤ s.qLimit q → s.sharedUse + ((s.occ q + n - s.qReserve q) - (s.occ q - s.qReserve q)) ≤ s.sharedCap →
            Gives (.switchFrameArrival p) s fun t =>
              t.occ q = s.occ q + n ∧ t.dvt.ingress = u.dvt.ingress ∧
                ∃ x, t.queueOf q = s.queueOf q ++ [x] ∧ x.data = out ∧ x.at_ = f.at_ ∧ ∀ q', q' ≠ q → t.queueOf q' = s.queueOf q') ∧
          (s.qLimit q < s.occ q + n → Gives (.switchFrameArrival p) s fun t =>
            t.dvt.queue = s.dvt.queue ∧ t.occ q = s.occ q ∧ t.get F.DVT_QDROP_DROPS q = min (s.get F.DVT_QDROP_DROPS q + 1) (2 ^ 32 - 1))))))) ∧
  (∀ (s : State) (p : Fin 37) (sent : Nat), p.val < 22 → s.live 20 = true → s.live (portIsland p) = true → s.mayBegin p = true →
    s.sendingAt p = none → s.suspendedAt p = none → s.mscOn p = false → (∀ k < 4, s.get F.DVT_CAP_CFG_N k = 0) →
    (∀ c : Nat, c < 8 → s.cbsOn (8 * p + c) = false ∧ ∀ x ∈ s.queueOf (8 * p + c), x.launch = none) → s.listAt Tbl.qbv p = none →
    ((∀ c : Nat, c < 8 → s.queueOf (8 * p + c) = []) → exec (.egressSelect p sent false) s = .next s) ∧
    ∀ c : Nat, c < 8 → ∀ x l, s.queueOf (8 * p + c) = x :: l → (∀ c' : Nat, c' < 8 → c < c' → s.queueOf (8 * p + c') = []) → ptpAt x.data = none →
      exec (.egressSelect p sent false) s = .next ((s.putQueue (8 * p + c) l).putSending p (some x))) ∧
  (∀ (s : State) (p : Fin 37) (c r : Nat) (x : QCopy) (l : List QCopy), 30 ≤ p.val → c < 8 → s.live 20 = true → s.live 26 = true →
    s.queueOf (8 * p + c) = x :: l → s.ringOn Kind.ethRx (8 * (p - 30) + c) = some r → (∀ k < 4, s.get F.DVT_CAP_CFG_N k = 0) →
    (∀ k < 16, s.is F.CAN_ACF_CFG_EN k = false) → s.sendingAt (64 + 8 * (p - 30) + c) = none → s.ringReady r = true → (s.rg r).src = [] →
    (∀ q < 56, q ≠ 8 * (p - 30) + c → s.hostReady q = false) →
    ∀ sent, Gives (.egressSelect p sent false) s fun t =>
      t.queueOf (8 * p + c) = l ∧ t.sendingAt (64 + 8 * (p - 30) + c) = some x ∧ (t.rg r).src = x.data ∧ (t.rg r).stamp = x.at_ ∧
        t.occ (8 * p + c) = s.occ (8 * p + c)) ∧
  (∀ (s : State) (p : Fin 37) (c : Fin 8) (x : QCopy), s.live 20 = true → x.drawer = none →
    (p.val < 30 → s.live (portIsland p) = true → (s.pt p).backoff = false → s.sendingAt p = some x → x.cut = false → x.bad = false →
      Gives (.egressDone p c) s fun t =>
        t.sendingAt p = none ∧ t.occ (8 * p + x.cls) = s.occ (8 * p + x.cls) - x.cells ∧ t.emitted = s.emitted ++ [⟨3, p, 0, x.data⟩] ∧ t.dvt.queue = s.dvt.queue) ∧
    (30 ≤ p.val → s.live 26 = true → s.sendingAt (64 + 8 * (p - 30) + c) = some x →
      (∃ r, s.ringOn Kind.ethRx (8 * (p - 30) + c) = some r ∧ (s.rg r).src = []) →
      Gives (.egressDone p c) s fun t =>
        t.sendingAt (64 + 8 * (p - 30) + c) = none ∧ t.occ (8 * p + c) = s.occ (8 * p + c) - x.cells ∧ t.dvt.queue = s.dvt.queue)) ∧
  (∀ (s : State) (q : Fin 296) (x : QCopy) (l : List QCopy) (at_ : Stamp) (r : Nat), s.live 20 = true →
    s.queueOf q = x :: l → x.launch = some at_ → x.due = false → x.ring = some r → (s.rg r).desc ≠ none → s.ringKind r = Kind.ethTx →
    (at_.ep = s.now.ep → launchPassed s.now.ns at_.ns = false →
      Gives (.launchTime q) s fun t =>
        t.queueOf q = { x with due := true } :: l ∧ (t.rg r).ready = true ∧ (t.rg r).result = 0 ∧ t.regs = s.regs) ∧
    (at_.ep = s.now.ep → launchPassed s.now.ns at_.ns = true → l = [] →
      Gives (.launchTime q) s fun t => t.queueOf q = [] ∧ (t.rg r).ready = true ∧ (t.rg r).result = 2) ∧
    (at_.ep ≠ s.now.ep → l = [] →
      Gives (.launchTime q) s fun t => t.queueOf q = [] ∧ (t.rg r).ready = true ∧ (t.rg r).result = 4)) ∧
  ∀ (s : State) (r : Fin 256), s.live 38 = true → s.ringKind r = Kind.capture → (s.rg r).src ≠ [] → (s.rg r).desc ≠ none →
    (s.rg r).ready = false → Gives (.captureBufferTimeout r) s fun t => (t.rg r).close = true ∧ t.regs = s.regs ∧ t.mem = s.mem

/-- R262, R264 to R266, R272: tables, lists, recovery and slopes. -/
def Obligations.SwitchTablesAndListsFollowTheirRules : Prop :=
  (∀ (s : State) (m : Master) (a : Access),
    let T := s.get F.DVT_TBL_SEL_TABLE
    let i := s.get F.DVT_TBL_SEL_INDEX
    let k := s.get F.DVT_TBL_SEL_WORD
    let rej := (((s.taken a).put F.DVT_TBL_STAT_REJ 1).answer true 0 : State)
    (s.writes m .DVT_TBL_CTRL none 0 0 1 a →
      (tblEntries T ≤ i → exec (.tblLoad m) s = .next rej) ∧
      (i < tblEntries T → exec (.tblLoad m) s =
        .next ({ s.taken a with dvt := { s.dvt with stage := padTo (s.tbl T i) (tblWords T) } }.answer true 0))) ∧
    (s.writes m .DVT_TBL_CTRL none 0 0 2 a →
      (tblEntries T ≤ i ∨ ((T = Tbl.gate ∨ T = Tbl.qbv) ∧ (at0 s.dvt.stage 3 % 65536 ≠ s.now.ep ∨ listLen T s.dvt.stage = 0)) →
        exec (.tblCommit m) s = .next rej) ∧
      (i < tblEntries T → (T = Tbl.sid ∨ T = Tbl.filter ∨ T = Tbl.meter ∨ T = Tbl.gen) →
        Gives (.tblCommit m) s fun t =>
          (∀ w < tblWords T, ¬(T = Tbl.filter ∧ 2 ≤ w) → ¬(T = Tbl.meter ∧ w = 5) →
            at0 (t.tbl T i) w = at0 s.dvt.stage w &&& tblMask T w) ∧
            (∀ T' j, 256 * T' + j ≠ 256 * T + i → t.tbl T' j = s.tbl T' j) ∧ t.dvt.pendingLists = s.dvt.pendingLists) ∧
      (s.tblOk T i s.dvt.stage = true → (T = Tbl.gate ∨ T = Tbl.qbv) →
        Gives (.tblCommit m) s fun t =>
          t.dvt.lists = s.dvt.lists ∧
            ∀ w, w < tblWords T → at0 (storeGet [] t.dvt.pendingLists (listKey T i)) w = at0 s.dvt.stage w &&& tblMask T w)) ∧
    (∀ v : BitVec 32, s.writes m .DVT_TBL_DATA none 0 0 v.toNat a →
      Gives (.tblDataAccess m (some v)) s fun t =>
        at0 t.dvt.stage k = v.toNat ∧ (∀ w, w ≠ k → at0 t.dvt.stage w = at0 s.dvt.stage w) ∧
          t.get F.DVT_TBL_SEL_WORD = (k + 1) % 128 ∧ t.dvt.tables = s.dvt.tables) ∧
    (s.reads m .DVT_TBL_DATA none 0 0 a →
      Gives (.tblDataAccess m none) s fun t =>
        t.resp = ⟨true, at0 (s.tbl T i) k % 2 ^ 32⟩ ∧ t.get F.DVT_TBL_SEL_WORD = (k + 1) % 128 ∧ t.dvt = s.dvt)) ∧
  (∀ (s : State) (l : ListRef), s.live 20 = true →
    let t_ := match l with | .gate _ => Tbl.gate | .qbv _ => Tbl.qbv
    let i := match l with | .gate n => n.val | .qbv p => p.val
    let pend := storeGet [] s.dvt.pendingLists (listKey t_ i)
    (pend ≠ [] → Gives (.gateCycleStart l true) s fun t =>
      t.listAt t_ i = some ⟨pend, 0, s.now.ns, s.now.ns⟩ ∧ storeGet [] t.dvt.pendingLists (listKey t_ i) = []) ∧
    (pend = [] → Gives (.gateCycleStart l true) s fun t => t.dvt.lists = s.dvt.lists) ∧
    ∀ x, s.listAt t_ i = some x →
      (Gives (.gateCycleStart l false) s fun t =>
        t.listAt t_ i = some { x with idx := 0, since := s.now.ns, cycle := s.now.ns } ∧ t.dvt.pendingLists = s.dvt.pendingLists) ∧
      (x.idx + 1 < listLen t_ x.words → Gives (.gateEntryEnd l) s fun t =>
        t.listAt t_ i = some { x with idx := x.idx + 1, since := s.now.ns }) ∧
      (listLen t_ x.words ≤ x.idx + 1 → exec (.gateEntryEnd l) s = .next s)) ∧
  (∀ (s : State) (i : Fin 64), s.live 20 = true →
    Gives (.frerResetTimeout i) s fun t =>
      (∀ h seq, (recover h (storeGet RecovSt.fresh t.dvt.recov i) seq).1 = true) ∧
        at0 (t.tbl Tbl.rec_ i) 5 = (at0 (s.tbl Tbl.rec_ i) 5 + 1) % 2 ^ 32) ∧
  ∀ (s : State) (m : Master) (q : Fin 296) (v : BitVec 32) (a : Access), s.writes m .DVT_QCBS none q 0 v.toNat a →
    let sum := sumList (((List.range 8).filter (· != q.val % 8)).map fun c => s.get F.DVT_QCBS_IDLE_KBPS (8 * (q.val / 8) + c))
    (176 ≤ q.val ∨ (sum + v.toNat % 2 ^ 24) * 100 > portRate (q.val / 8) * 1000 * 75 →
      exec (.cbsIdleSlopeWrite m q v) s = .next (((s.taken a).put F.DVT_TBL_STAT_REJ 1).answer true 0)) ∧
    (q.val < 176 → (sum + v.toNat % 2 ^ 24) * 100 ≤ portRate (q.val / 8) * 1000 * 75 →
      Gives (.cbsIdleSlopeWrite m q v) s fun t =>
        t.get F.DVT_QCBS_IDLE_KBPS q = v.toNat % 2 ^ 24 ∧ t.creditOf q = ⟨0, s.ztm.raw⟩ ∧
          ∀ q' : Fin 296, q' ≠ q → t.get F.DVT_QCBS_IDLE_KBPS q' = s.get F.DVT_QCBS_IDLE_KBPS q' ∧ t.creditOf q' = s.creditOf q')

/-- R275, R276, R289, R290, R251: link states. -/
def Obligations.LinksFollowTheirStates : Prop :=
  (∀ (s : State) (m : Master) (p : Fin 30) (w : BitVec 32) (a : Access), s.portEnabled p = true → s.unitOut 3 p = false →
    s.linkState p ≠ Link.retired →
    let down := fun t : State => t.is F.EPT_EVT_LINK_DOWN p = true ∧ ∀ c < 8, t.queueOf (8 * p.val + c) = []
    (s.writes m .EPT_PCFG none p 0 (setBitTo (setBitTo w.toNat 16 false) 0 true) a →
      (s.linkState p = Link.disabled → Gives (.portLinkEnable m p w) s fun t => t.linkState p = Link.training) ∧
      (s.linkState p ≠ Link.disabled → Gives (.portLinkEnable m p w) s fun t => t.linkState p = s.linkState p)) ∧
    (s.writes m .EPT_PCFG none p 0 (setBitTo w.toNat 0 false) a →
      (s.linkState p = Link.up → Gives (.portLinkDisable m p w) s fun t => t.linkState p = Link.disabled ∧ down t) ∧
      (s.linkState p = Link.training → Gives (.portLinkDisable m p w) s fun t => t.linkState p = Link.disabled)) ∧
    (s.writes m .EPT_PCFG none p 0 (setBitTo w.toNat 16 true) a → bitOf w.toNat 0 = true → s.linkState p = Link.up →
      Gives (.retrain m p w) s fun t =>
        t.linkState p = Link.training ∧ down t ∧ t.get F.EPT_LDROPS_DROPS p = min (s.get F.EPT_LDROPS_DROPS p + 1) (2 ^ 16 - 1)) ∧
    (s.live (portIsland p) = true →
      (∀ slave, s.linkState p = Link.training →
        (22 ≤ p.val ∨ (s.pt p).slave ≠ slave → Gives (.trainingComplete ⟨p, slave⟩) s fun t =>
          t.linkState p = Link.up ∧ t.is F.EPT_EVT_LINK_UP p = true ∧ ∀ c < 8, (t.creditOf (8 * p.val + c)).bits = 0) ∧
        (p.val < 22 → (s.pt p).slave = slave → exec (.trainingComplete ⟨p, slave⟩) s = .next s)) ∧
      (s.linkState p = Link.training → Gives (.trainingTimeLimit p) s fun t =>
        t.linkState p = Link.training ∧ (t.pt p).slave = s.is F.EPT_PCFG_ROLE p ∧ t.regs = s.regs) ∧
      (s.linkState p = Link.up → Gives (.linkLoss p) s fun t =>
        t.linkState p = Link.training ∧ down t ∧ t.get F.EPT_LDROPS_DROPS p = min (s.get F.EPT_LDROPS_DROPS p + 1) (2 ^ 16 - 1)) ∧
      (s.is F.EPT_LINK_PHY_FAULT p = false → s.linkState p ≠ Link.disabled → Gives (.phyFault p) s fun t =>
        t.linkState p = Link.training ∧ t.is F.EPT_LINK_PHY_FAULT p = true ∧ t.unitOut 3 p = false) ∧
      (s.is F.EPT_LINK_PHY_FAULT p = true → Gives (.phyFault p) s fun t =>
        t.linkState p = Link.retired ∧ t.is F.EPT_EVT_RETIRED p = true ∧ t.unitOut 3 p = true ∧ t.portUp p = false))) ∧
  ∀ (s : State) (m : Master) (p : Fin 30) (w : BitVec 32) (a : Access), s.portShut p = true →
    (s.writes m .EPT_PCFG none p 0 (setBitTo (setBitTo w.toNat 16 false) 0 true) a →
      exec (.portLinkEnable m p w) s = .next ((s.taken a).answer true 0)) ∧
    (s.writes m .EPT_PMAC none p 0 w.toNat a → exec (.pmacWrite m p w) s = .next ((s.taken a).answer true 0))

/-- R274, R280, R281, R288, R267: reception and pause. -/
def Obligations.PortsReceiveFramesAndPauses : Prop :=
  (∀ (s : State) (p : Fin 30) (l : List (BitVec 8)), s.phase ≠ Ph.sleep → s.phase ≠ Ph.toSleep → s.live (portIsland p) = true →
    s.portEnabled p = true →
    let d := natsOf l
    let n := d.length + 4
    let ety := beNat (slice d 12 2)
    let counted := fun (t : State) (i k : Nat) => t.get F.EPT_CNT_COUNT p i = (s.get F.EPT_CNT_COUNT p i + k) % 2 ^ 32
    (s.linkState p ≠ Link.up → ∀ k f, exec (.macRxFrame p l k f) s = .next s) ∧
    (s.linkState p = Link.up → s.mscOn p = false →
      (64 ≤ n → n ≤ 2048 → s.get F.EPT_WAKE_PAT_EN p = 0 → ety ≠ etherPtp → s.stationPort p = false →
        (ety ≠ etherMacControl → Gives (.macRxFrame p l .good 0) s fun t =>
          t.dvt.ingress = s.dvt.ingress ++ [⟨p, d, s.now, none, none, 0, false, s.ztm.steps, none⟩] ∧ counted t 0 1 ∧ counted t 1 n) ∧
        (ety = etherMacControl → Gives (.macRxFrame p l .good 0) s fun t => t.dvt = s.dvt ∧ counted t 0 1)) ∧
      (s.portCut p = false →
        (n < 64 → ∀ k, k = .good ∨ k = .badFcs → Gives (.macRxFrame p l k 0) s fun t => t.dvt = s.dvt ∧ counted t 13 1) ∧
        (2048 < n → ∀ k, k = .good ∨ k = .badFcs → Gives (.macRxFrame p l k 0) s fun t => t.dvt = s.dvt ∧ counted t 14 1) ∧
        (64 ≤ n → n ≤ 2048 → Gives (.macRxFrame p l .badFcs 0) s fun t => t.dvt = s.dvt ∧ counted t 12 1)))) ∧
  ∀ (s : State) (p : Fin 30) (quanta : BitVec 16), s.live (portIsland p) = true →
    (s.phase ≠ Ph.sleep → s.phase ≠ Ph.toSleep → s.portEnabled p = true → s.linkState p = Link.up → Gives (.pauseReceived p quanta) s fun t =>
      t.get F.EPT_CNT_COUNT p 16 = (s.get F.EPT_CNT_COUNT p 16 + 1) % 2 ^ 32 ∧
        (p.val < 22 → s.is F.EPT_PCFG_PAUSE_EN p = true → t.is F.EPT_LINK_PAUSED p = (quanta != 0)) ∧
        (¬(p.val < 22 ∧ s.is F.EPT_PCFG_PAUSE_EN p = true) → t.is F.EPT_LINK_PAUSED p = s.is F.EPT_LINK_PAUSED p)) ∧
    exec (.pauseExpiry p) s = .next (s.put F.EPT_LINK_PAUSED 0 p) ∧
    (s.is F.EPT_LINK_PAUSED p = false → exec (.pauseWatchdog p) s = .next s) ∧
    (s.is F.EPT_LINK_PAUSED p = true → Gives (.pauseWatchdog p) s fun t =>
      t.is F.EPT_LINK_PAUSED p = false ∧ t.is F.EPT_EVT_PAUSE_BREAK p = true ∧
        t.get F.EPT_LDROPS_BREAKS p = min (s.get F.EPT_LDROPS_BREAKS p + 1) (2 ^ 16 - 1))

/-- R278, R282, R286: verification, collisions and associations. -/
def Obligations.VerificationCollisionsAndAssociations : Prop :=
  ((∀ (s : State) (m : Master) (p : Fin 30) (w : BitVec 32) (a : Access), s.writes m .EPT_PMAC none p 0 w.toNat a → s.portShut p = false →
     (22 ≤ p.val → exec (.pmacWrite m p w) s = .next ((s.taken a).answer true 0)) ∧
     (p.val < 22 → Gives (.pmacWrite m p w) s fun t =>
       t.is F.EPT_PMAC_PRE_EN p = bitOf w.toNat 0 ∧ t.is F.EPT_PMAC_VERIFY_DIS p = bitOf w.toNat 1 ∧
         t.get F.EPT_PMAC_EXPRESS p = w.toNat / 4 % 256 ∧ t.get F.EPT_PMAC_ADD_FRAG p = w.toNat / 1024 % 4 ∧
         (bitOf w.toNat 0 = true → bitOf w.toNat 1 = true → t.get F.EPT_PSTAT_VERIFY p = Ver.disabled) ∧
         (bitOf w.toNat 0 = true → bitOf w.toNat 1 = false → s.linkState p = Link.up →
           t.get F.EPT_PSTAT_VERIFY p = Ver.verifying ∧ (t.pt p).verifySent = 1 ∧ t.emitted = s.emitted ++ [⟨7, p, 0, []⟩]) ∧
         (bitOf w.toNat 0 = false → t.get F.EPT_PSTAT_VERIFY p = Ver.initial))) ∧
   (∀ (s : State) (p : Fin 30), s.live (portIsland p) = true → s.get F.EPT_PSTAT_VERIFY p = Ver.verifying →
     ((s.pt p).verifySent < 3 → Gives (.verifyTimer p) s fun t =>
       (t.pt p).verifySent = (s.pt p).verifySent + 1 ∧ t.emitted = s.emitted ++ [⟨7, p, 0, []⟩] ∧ t.regs = s.regs) ∧
     (3 ≤ (s.pt p).verifySent → Gives (.verifyTimer p) s fun t =>
       t.get F.EPT_PSTAT_VERIFY p = Ver.failed ∧ t.is F.EPT_EVT_VERIFY_DONE p = true) ∧
     Gives (.respondMpacket p) s fun t => t.get F.EPT_PSTAT_VERIFY p = Ver.succeeded ∧ t.is F.EPT_EVT_VERIFY_DONE p = true) ∧
   ∀ (s : State) (p : Fin 30) (x : QCopy), s.live (portIsland p) = true →
     exec (.backoffExpiry p) s = .next (s.putPt p { s.pt p with backoff := false, slots := 0 }) ∧
     (22 ≤ p.val → s.sendingAt p = some x → s.linkState p ≠ Link.retired →
       (Gives (.collision p true) s fun t =>
         t.sendingAt p = none ∧ t.get F.EPT_CNT_COUNT p 39 = (s.get F.EPT_CNT_COUNT p 39 + 1) % 2 ^ 32) ∧
       (15 ≤ x.cols → Gives (.collision p false) s fun t =>
         t.sendingAt p = none ∧ t.get F.EPT_CNT_COUNT p 40 = (s.get F.EPT_CNT_COUNT p 40 + 1) % 2 ^ 32) ∧
       (x.cols < 15 → Gives (.collision p false) s fun t =>
         t.sendingAt p = some { x with cols := x.cols + 1 } ∧ (t.pt p).backoff = true ∧ (t.pt p).slots < 2 ^ min (x.cols + 1) 10))) ∧
  (∀ (s : State) (m : Master) (v : Option (Fin 16)) (p : Fin 14) (n : Fin 20) (slot : BitVec 8) (a : Access),
     (s.writes m .MSC_SA_CTRL v p n (256 + slot.toNat) a →
       let t := a.tag
       let x := s.til_ slot.toNat
       let lo := s.get F.MSC_SA_PN_LO_VALUE p n
       let hi := s.get F.MSC_SA_PN_HI_VALUE p n
       let xpn := s.get F.MSC_CFG_CIPHER p = 2 ∨ s.get F.MSC_CFG_CIPHER p = 3
       let notOwner := t.secure = false ∧ t.drawer ≠ 0 ∧ t.drawer.val ≠ s.get F.MSC_CFG_OWNER p
       let notNeg := t.secure = false ∧ t.drawer ≠ 0 ∧ s.feat t.drawer 6 = false
       let denied := x.full = false ∨ (t.secure = false ∧ x.owns t.drawer = false) ∨ bitOf x.usage (if n.val < 4 then 0 else 1) = false ∨
         x.type ≠ (if s.get F.MSC_CFG_CIPHER p % 2 = 0 then 1 else 2) ∨ (x.limited = true ∧ x.w2 = 0)
       let badPn := (lo = 0 ∧ (xpn → hi = 0)) ∨ (¬xpn ∧ hi ≠ 0)
       let busy := s.is F.MSC_SA_CTRL_VALID p n = true
       let fails := fun r : Nat => exec (.saInstall m v p n slot) s = .next (((s.taken a).put F.MSC_SA_CTRL_RESULT r p n).answer true 0)
       (notOwner → fails 2) ∧ (¬notOwner → notNeg → fails 3) ∧ (¬notOwner → ¬notNeg → denied → fails 4) ∧
       (¬notOwner → ¬notNeg → ¬denied → badPn → fails 5) ∧ (¬notOwner → ¬notNeg → ¬denied → ¬badPn → busy → fails 6) ∧
       (¬notOwner → ¬notNeg → ¬denied → ¬badPn → ¬busy →
         Gives (.saInstall m v p n slot) s fun u =>
           u.get F.MSC_SA_CTRL_RESULT p n = 1 ∧ u.is F.MSC_SA_CTRL_VALID p n = true ∧ u.get F.MSC_SA_CTRL_SLOT p n = slot.toNat ∧
             storeGet [] u.saKey (20 * p.val + n.val) = x.key ∧
             (x.limited = true → (u.til_ slot.toNat).w2 = x.w2 - 1) ∧ (∀ k, k ≠ slot.toNat → u.til_ k = s.til_ k))) ∧
     (s.writes m .MSC_SA_CTRL v p n 512 a → Gives (.saRemove m v p n) s fun u =>
       u.is F.MSC_SA_CTRL_VALID p n = false ∧ storeGet [] u.saKey (20 * p.val + n.val) = [] ∧ u.til = s.til ∧
         ∀ k, k ≠ 20 * p.val + n.val → storeGet [] u.saKey k = storeGet [] s.saKey k))

/-- R292: INCR from a staged fraction and an applied integer part, clamped. -/
def Obligations.IncrementIsStagedAppliedAndClamped : Prop :=
  ∀ (s : State) (m : Master) (v : BitVec 32) (a : Access),
    (s.writes m .ZTM_INCR_FRAC none 0 0 v.toNat a →
      exec (.incrFracStage m v) s =
        .next ({ s.taken a with ztm := { (s.taken a).ztm with fracStaged := v.toNat } }.answer true 0)) ∧
    (s.writes m .ZTM_INCR_INT none 0 0 v.toNat a →
      let x := max (2 ^ 32 + 4286377361) (min (2 * 2 ^ 32 + 8589935) (v.toNat % 256 * 2 ^ 32 + s.ztm.fracStaged))
      exec (.incrIntWrite m v) s =
        .next ((((s.taken a).put F.ZTM_INCR_INT_INT (x / 2 ^ 32)).put F.ZTM_INCR_FRAC_FRAC (x % 2 ^ 32)).answer true 0))

/-- R291, R293, R295, R296, R303: the counters, epochs and captures. -/
def Obligations.ZoneTimeRunsOnOpensEpochsAndIsCaptured : Prop :=
  (∀ (s : State) (m : Master) (a : Access),
     (s.writes m .ZTM_CTRL none 0 0 (keyed 0x2E5A 1) a →
       Gives (.epochOpen m) s fun t =>
         t.get F.ZTM_EPOCH_EPOCH = (s.get F.ZTM_EPOCH_EPOCH + 1) % 65536 ∧ t.ztm.zone = s.ztm.zone % 2 ^ 64 ∧
           t.ztm.raw = s.ztm.raw ∧ t.ztm.tb = s.ztm.tb ∧ t.resp = ⟨true, 0⟩) ∧
     (s.writes m .ZTM_CTRL none 0 0 (keyed 0x2E5A 3) a →
       Gives (.epochStep m true) s fun t =>
         t.get F.ZTM_EPOCH_EPOCH = (s.get F.ZTM_EPOCH_EPOCH + 1) % 65536 ∧
           t.ztm.zone = (s.ztm.zone + s.get F.ZTM_STEP_VALUE * 2 ^ 32) % 2 ^ 64 ∧
           t.ztm.raw = s.ztm.raw ∧ t.ztm.tb = s.ztm.tb ∧ t.resp = ⟨true, 0⟩) ∧
     (s.writes m .ZTM_CTRL none 0 0 (keyed 0x2E5A 2) a →
       exec (.epochStep m false) s = .next (((s.taken a).put F.ZTM_EPOCH_STEP_REJ 1).answer true 0))) ∧
  ((∀ s : State, s.pending = [] → s.live 34 = true →
     ∃ t, step s = .next t ∧ t.ztm.zone = (s.ztm.zone + s.incrVal) % 2 ^ 64 ∧ t.ztm.raw = s.ztm.raw + 2 ∧ t.ztm.tb = s.ztm.tb + s.incrVal) ∧
   (∀ s : State, s.pending = [] → s.live 34 = false → step s = .next s) ∧
   ∀ s : State, s.live 34 = true → s.ztm.zone < 2 ^ 64 → 0 < s.incrVal → s.incrVal < 2 ^ 63 →
     Gives .zoneHalf s fun t => ∃ n, 0 < n ∧
       t.ztm.zone = (s.ztm.zone + n * s.incrVal) % 2 ^ 64 ∧ t.ztm.raw = s.ztm.raw + 2 * n ∧ t.ztm.tb = s.ztm.tb + n * s.incrVal ∧
       bitOf t.ztm.zone 63 ≠ bitOf s.ztm.zone 63 ∧
       (∀ k < n, bitOf ((s.ztm.zone + k * s.incrVal) % 2 ^ 64) 63 = bitOf s.ztm.zone 63) ∧
       t.get F.ZTM_PAIR_RAW_VALUE = t.ztm.raw % 2 ^ 32 ∧ t.get F.ZTM_PAIR_NS_VALUE = t.ztm.zone / 2 ^ 32 ∧
       t.get F.ZTM_PAIR_EP_EPOCH = s.get F.ZTM_EPOCH_EPOCH ∧ t.get F.ZTM_PAIR_EP_AUTO = 1) ∧
  (∀ (s : State) (m : Master) (v : Option (Fin 16)) (a : Access),
     (s.writes m .ZTM_PAIR_CTRL v 0 0 1 a →
       exec (.pairSample m v) s =
         .next (((((s.taken a).put F.ZTM_PAIR_RAW_VALUE (s.ztm.raw % 2 ^ 32) 0 0 (viewCopy v)).put F.ZTM_PAIR_NS_VALUE
           (s.ztm.zone / 2 ^ 32 % 2 ^ 32) 0 0 (viewCopy v)).put F.ZTM_PAIR_EP_EPOCH (s.get F.ZTM_EPOCH_EPOCH) 0 0 (viewCopy v) |>.put
           F.ZTM_PAIR_EP_AUTO 0 0 0 (viewCopy v)).answer true 0)) ∧
     (s.reads m .ZTM_NOW v 0 0 a →
       Gives (.ztmNowRead m v) s fun t =>
         t.resp = ⟨true, s.ztm.zone / 2 ^ 32 % 2 ^ 32⟩ ∧ t.get F.ZTM_NOW_EP_EPOCH 0 0 (viewCopy v) = s.get F.ZTM_EPOCH_EPOCH ∧ t.ztm = s.ztm))

/-- R305 to R307: the CAN fallback. -/
def Obligations.FallbackFollowsItsTableAndMessages : Prop :=
  (∀ (s : State) (m : Master) (w : BitVec 32) (a : Access),
     (s.writes m .ZTM_FB_CFG none 0 0 (setBitTo w.toNat 5 true) a → s.get F.ZTM_FB_STAT_STATE = 0 →
       Gives (.fallbackEnable m w) s fun t =>
         t.get F.ZTM_FB_STAT_STATE = 1 ∧ t.get F.ZTM_FB_CFG_EN = 1 ∧ t.get F.ZTM_FB_CFG_CAN = w.toNat % 16 ∧
           t.get F.ZTM_FB_CFG_ROLE = w.toNat / 16 % 2 ∧ t.get F.ZTM_FB_CFG_GPTP_PORT = w.toNat / 256 % 32 ∧
           t.get F.ZTM_FB_CFG_LOSS_MS = w.toNat / 65536 % 4096 ∧ t.ztm = s.ztm) ∧
     (s.writes m .ZTM_FB_CFG none 0 0 (setBitTo w.toNat 5 true) a → s.get F.ZTM_FB_STAT_STATE = 2 →
       exec (.fallbackEnable m w) s = .next ((s.taken a).answer true 0)) ∧
     (s.writes m .ZTM_FB_CFG none 0 0 (setBitTo w.toNat 5 false) a →
       Gives (.fallbackDisable m w) s fun t =>
         t.get F.ZTM_FB_STAT_STATE = 0 ∧ t.get F.ZTM_FB_CFG_EN = 0 ∧
           (s.get F.ZTM_FB_STAT_STATE = 2 → t.is F.ZTM_EVT_FB_OFF = true) ∧
           (s.get F.ZTM_FB_STAT_STATE ≠ 2 → t.is F.ZTM_EVT_FB_OFF = s.is F.ZTM_EVT_FB_OFF)) ∧
     (s.live 34 = true → s.get F.ZTM_FB_STAT_STATE = 1 →
       Gives .fallbackLossTimeout s fun t =>
         t.get F.ZTM_FB_STAT_STATE = 2 ∧ t.is F.ZTM_EVT_FB_ON = true ∧ t.ztm.fbPrev = none)) ∧
  ((∀ s : State, s.live 34 = true → s.get F.ZTM_FB_STAT_STATE = 2 → s.is F.ZTM_FB_CFG_ROLE = false →
     (s.mbState (s.get F.ZTM_FB_CFG_CAN) 63 = Mb.empty →
       Gives .referencePeriod s fun t =>
         t.mbState (s.get F.ZTM_FB_CFG_CAN) 63 = Mb.pending ∧ t.get F.ZTM_FB_STAT_SEQ = (s.get F.ZTM_FB_STAT_SEQ + 1) % 256 ∧
           ∃ f, t.ztm.fbMsg = some (s.get F.ZTM_FB_CFG_CAN, f) ∧ f.id = s.get F.ZTM_FB_REF_ID ∧ f.dlc = 8 ∧ f.data.length = 8) ∧
     (s.mbState (s.get F.ZTM_FB_CFG_CAN) 63 ≠ Mb.empty →
       exec .referencePeriod s = .next (s.bump F.ZTM_FB_STAT_SKIPS 1))) ∧
   ∀ (s : State) (data : List (BitVec 8)) (ago : BitVec 32) (own : Stamp) (last : Nat),
     s.live 34 = true → s.get F.ZTM_FB_STAT_STATE = 2 → s.is F.ZTM_FB_CFG_ROLE = true → data.length = 8 →
     s.ztm.fbLastOwn = some own → s.ztm.fbLastSeq = some last → last < 256 → at0 (natsOf data) 6 = (last + 1) % 256 →
     bitOf (at0 (natsOf data) 7) 0 = true →
     Gives (.referenceMessageRx data ago) s fun t =>
       t.get F.ZTM_FB_OFFS_OFFS = (leNat (slice (natsOf data) 0 4) + 2 ^ 32 - own.ns) % 2 ^ 32 ∧
         t.get F.ZTM_FB_STAT_EP_DIFF = b2n (leNat (slice (natsOf data) 4 2) != own.ep) ∧
         t.is F.ZTM_EVT_OFFS = true ∧ t.get F.ZTM_FB_STAT_SEQ = at0 (natsOf data) 6)

/-- R309, R310, R312, R313, R315, R331: states of a controller. -/
def Obligations.CanControllersFollowTheirStates : Prop :=
  (∀ (s : State) (m : Master) (v : Option (Fin 16)) (k : Fin 16) (w : BitVec 32) (a : Access) (c : Instr) (n : Nat),
    (c, n) ∈ [(Instr.canModeConfig m v k w, 0), (.canModeNormal m v k w, 1), (.canModeRestricted m v k w, 2), (.canModeMonitor m v k w, 3)] →
    s.writes m .CAN_CTRL v k 0 (canMode w n) a →
    let nbt := s.timing .CAN_NBT k
    let valid := timingOk nbt 32 256 128 160 1280 = true ∧
      (bitOf w.toNat 4 = true → timingOk (s.timing .CAN_DBT k) 4 128 64 20 (bitCycles nbt) = true) ∧
      (bitOf w.toNat 5 = true → ((s.canOwner k).any fun d => s.feat d 7) = true →
        timingOk (s.timing .CAN_XBT k) 4 128 64 8 (bitCycles nbt) = true)
    (s.bare = true → n ≠ 0 → Gives c s fun t => t.canState k = s.canState k ∧ t.is F.CAN_STAT_CFG_REJ k = true) ∧
    (s.bare = false → s.canState k = Can.config →
      (n = 0 → Gives c s fun t => t.canState k = Can.config ∧ t.is F.CAN_CTRL_FD_EN k = bitOf w.toNat 4) ∧
      (n ≠ 0 → valid → Gives c s fun t =>
        t.canState k = Can.syncing ∧ t.get F.CAN_CTRL_MODE k = n ∧ (t.cn k).mode = n ∧ t.is F.CAN_CTRL_FD_EN k = bitOf w.toNat 4 ∧
          t.is F.CAN_CTRL_XL_EN k = bitOf w.toNat 5) ∧
      (n ≠ 0 → ¬valid → Gives c s fun t => t.canState k = Can.config ∧ t.is F.CAN_STAT_CFG_REJ k = true ∧ t.can = s.can)) ∧
    (s.bare = false → s.canState k = Can.active ∨ s.canState k = Can.passive ∨ s.canState k = Can.syncing → (s.cn k).att = none →
      (n = 0 → s.rsvLathe k = false → s.rsvTime k = false → Gives c s fun t =>
        t.canState k = Can.config ∧ ∀ mb < 64, s.mbState k mb = Mb.pending → t.mbState k mb = Mb.empty ∧ t.get F.CAN_MB_CMD_RESULT k mb = 2) ∧
      (n ≠ 0 → Gives c s fun t => t.canState k = s.canState k ∧ (t.cn k).mode = n ∧ t.get F.CAN_CTRL_MODE k = n)) ∧
    (s.bare = false → s.canState k = Can.busOff ∨ s.canState k = Can.recovering ∨ s.canState k = Can.retired →
      exec c s = .next (((s.taken a).put F.CAN_STAT_CFG_REJ 1 k).answer true 0))) ∧
  (∀ (s : State) (m : Master) (v : Option (Fin 16)) (k : Fin 16) (a : Access), s.writes m .CAN_RECOVER v k 0 (keyed 0x0C4B 1) a →
    (s.canState k = Can.busOff → exec (.canRecover m v k) s = .next (((s.taken a).put F.CAN_STAT_STATE Can.recovering k).answer true 0)) ∧
    (s.canState k ≠ Can.busOff → exec (.canRecover m v k) s = .next (((s.taken a).put F.CAN_STAT_REC_REJ 1 k).answer true 0))) ∧
  ∀ (s : State) (k : Fin 16), s.live (canIsland k) = true →
    (s.canState k = Can.syncing → (s.cn k).hot = false →
      (s.get F.CAN_ERRC_TEC k ≤ 127 → s.get F.CAN_ERRC_REC k ≤ 127 →
        exec (.canBusIntegrated k) s = .next (s.put F.CAN_STAT_STATE Can.active k)) ∧
      (127 < s.get F.CAN_ERRC_TEC k ∨ 127 < s.get F.CAN_ERRC_REC k →
        Gives (.canBusIntegrated k) s fun t => t.canState k = Can.passive ∧ t.is F.CAN_EVT_PASSIVE k = true)) ∧
    (s.canState k = Can.recovering → Gives (.canRecoveryDone k) s fun t =>
      t.canState k = Can.active ∧ t.get F.CAN_ERRC_TEC k = 0 ∧ t.get F.CAN_ERRC_REC k = 0 ∧ t.is F.CAN_EVT_RECOVERED k = true) ∧
    (∀ (lec : Fin 8) (tec : Fin 512) (rec_ : Fin 256), s.canOn k = true → (s.cn k).mode = 1 → (s.cn k).modeNext = none →
      (s.cn k).att = none → Gives (.canError k lec tec rec_) s fun t =>
        t.get F.CAN_LEC_LEC k = lec ∧ t.get F.CAN_LEC_ERRS k = min (s.get F.CAN_LEC_ERRS k + 1) (2 ^ 16 - 1) ∧
          t.get F.CAN_ERRC_TEC k = tec ∧ t.get F.CAN_ERRC_REC k = rec_ ∧
          (255 < tec.val → t.canState k = Can.busOff ∧ t.is F.CAN_EVT_BUS_OFF k = true) ∧
          (tec.val ≤ 255 → 127 < tec.val ∨ 127 < rec_.val → t.canState k = Can.passive) ∧
          (tec.val ≤ 127 → rec_.val ≤ 127 → t.canState k = Can.active)) ∧
    (s.canOn k = true → (s.cn k).modeNext ≠ some 0 → Gives (.canProtocolException k) s fun t => t.canState k = Can.syncing ∧ t.is F.CAN_EVT_PEX k = true) ∧
    (s.canOn k = true → (s.cn k).att = none → (s.cn k).modeNext = none →
      Gives (.canOvertemp k true) s fun t => t.canState k = Can.syncing ∧ (t.cn k).hot = true) ∧
    exec (.canOvertemp k false) s = .next (s.putCn k { s.cn k with hot := false })

/-- R316 to R320: mailboxes. -/
def Obligations.MailboxesAreRequestedSelectedAndSent : Prop :=
  (∀ (s : State) (m : Master) (v : Option (Fin 16)) (k : Fin 16) (mb : Fin 64) (a : Access),
    (s.writes m .CAN_MB_CMD v k mb 1 a →
      (s.mbReserved k mb = true ∨ s.mbState k mb ≠ Mb.empty → exec (.mbReq m v k mb) s = .next ((s.taken a).answer true 0)) ∧
      (s.mbReserved k mb = false → s.mbState k mb = Mb.empty →
        let g := fun x => s.is x k mb
        let id := s.get F.CAN_MB_ID_ID k mb
        let n := s.get F.CAN_MB_CTL_LEN k mb
        let fd := g F.CAN_MB_CTL_FDF = true
        let xl := g F.CAN_MB_CTL_XLF = true
        let rtr := g F.CAN_MB_CTL_RTR = true
        let bad := s.canState k = Can.config ∨ s.canState k = Can.retired ∨ (fd ∧ xl) ∨ (fd ∧ s.is F.CAN_CTRL_FD_EN k = false) ∨
          (xl ∧ s.xlOn k = false) ∨ (g F.CAN_MB_CTL_BRS = true ∧ ¬fd) ∨ (rtr ∧ (fd ∨ xl)) ∨
          (xl ∧ g F.CAN_MB_ID_IDE = true) ∨ (g F.CAN_MB_ID_IDE = false ∧ 2047 < id) ∨
          (xl ∧ (n < 1 ∨ 2048 < n)) ∨ (¬xl ∧ ¬fd ∧ 8 < n) ∨ (¬xl ∧ fd ∧ 8 < n ∧ n ∉ [12, 16, 20, 24, 32, 48, 64]) ∨
          8192 < 16 * s.get F.CAN_MB_CTL_OFFSET k mb + (if rtr then 0 else n + if xl then 8 else 0)
        (¬bad → exec (.mbReq m v k mb) s =
          .next ((((s.taken a).put F.CAN_MB_CMD_STATE Mb.pending k mb).put F.CAN_MB_CMD_RESULT 0 k mb).answer true 0)) ∧
        (bad → Gives (.mbReq m v k mb) s fun t => t.mbState k mb = Mb.empty ∧ t.get F.CAN_MB_CMD_RESULT k mb = 6))) ∧
    (s.writes m .CAN_MB_CMD v k mb 2 a → s.mbReserved k mb = false →
      (s.mbState k mb = Mb.empty → exec (.mbAbort m v k mb) s = .next ((s.taken a).answer true 0)) ∧
      (s.mbState k mb = Mb.pending → Gives (.mbAbort m v k mb) s fun t => t.mbState k mb = Mb.empty ∧ t.get F.CAN_MB_CMD_RESULT k mb = 2) ∧
      (s.mbState k mb = Mb.active ∨ s.mbState k mb = Mb.committed →
        exec (.mbAbort m v k mb) s = .next (((s.taken a).put F.CAN_MB_CMD_ABORT_REQ 1 k mb).answer true 0)))) ∧
  (∀ (s : State) (k : Fin 16) (mb : Fin 64), s.live (canIsland k) = true → s.canOn k = true → (s.cn k).mode = 1 → (s.cn k).att = none →
    s.mbState k mb = Mb.pending →
    (∀ n : Fin 64, n ≠ mb → s.mbState k n = Mb.pending →
      arbKey (s.mbFrame k mb) < arbKey (s.mbFrame k n) ∨ (arbKey (s.mbFrame k mb) = arbKey (s.mbFrame k n) ∧ mb < n)) →
    Gives (.canFrameStart k) s fun t =>
      t.mbState k mb = Mb.active ∧ (t.cn k).att = some ⟨mb, s.mbFrame k mb, s.raw32, s.now⟩) ∧
  ∀ (s : State) (k : Fin 16) (mb : Fin 64) (x : CanTry), s.live (canIsland k) = true → (s.cn k).att = some x → x.mb = mb.val →
    (s.cn k).modeNext = none → s.mbDevice k mb = false →
    (s.mbState k mb = Mb.active →
      let once := s.is F.CAN_MB_CTL_ONE_SHOT k mb
      let abort := s.is F.CAN_MB_CMD_ABORT_REQ k mb
      (s.is F.CAN_CTRL_TDC_EN k = false → exec (.canArbWon k) s = .next (s.put F.CAN_MB_CMD_STATE Mb.committed k mb)) ∧
      (Gives (.canArbWon k) s fun t => t.mbState k mb = Mb.committed ∧ t.can = s.can) ∧
      Gives (.canArbLost k) s fun t =>
        (t.cn k).att = none ∧ (abort = false → once = false → t.mbState k mb = Mb.pending) ∧
          (abort = true → t.mbState k mb = Mb.empty ∧ t.get F.CAN_MB_CMD_RESULT k mb = 2) ∧
          (abort = false → once = true → t.mbState k mb = Mb.empty ∧ t.get F.CAN_MB_CMD_RESULT k mb = 4)) ∧
    (∀ (lec : Fin 8) (tec : Fin 512) (rec_ : Fin 256), s.canOn k = true →
      let once := s.is F.CAN_MB_CTL_ONE_SHOT k mb
      let abort := s.is F.CAN_MB_CMD_ABORT_REQ k mb
      Gives (.canError k lec tec rec_) s fun t =>
        (t.cn k).att = none ∧ (abort = false → once = false → t.mbState k mb = Mb.pending) ∧
          (abort = true → t.mbState k mb = Mb.empty ∧ t.get F.CAN_MB_CMD_RESULT k mb = 2) ∧
          (abort = false → once = true → t.mbState k mb = Mb.empty ∧ t.get F.CAN_MB_CMD_RESULT k mb = 5)) ∧
    ∀ (tec : Fin 512) (rec_ : Fin 256), s.mbState k mb = Mb.committed → s.is F.CAN_RXCFG_SELF_RX k = false →
      Gives (.canTxComplete k tec rec_) s fun t =>
        (t.cn k).att = none ∧ t.mbState k mb = Mb.empty ∧ t.get F.CAN_MB_CMD_RESULT k mb = (if s.is F.CAN_MB_CMD_ABORT_REQ k mb then 3 else 1) ∧
          bitOf (t.get F.CAN_TXDONE_DONE k (mb.val / 32)) (mb.val % 32) = true ∧ t.get F.CAN_MB_STAMP_RAW k mb = x.raw % 2 ^ 32 ∧
          t.emitted = s.emitted ++ [⟨2, k, x.frame.id, x.frame.data⟩] ∧ t.get F.CAN_ERRC_TEC k = tec ∧ t.get F.CAN_ERRC_REC k = rec_

/-- R316, R322 to R324, R326 to R329: the other parts of a controller. -/
def Obligations.CanReceptionTunnelAndRam : Prop :=
  (∀ (s : State) (k : Fin 16) (f : CanFrame) (ago : BitVec 32) (tec : Fin 512) (rec_ : Fin 256), s.live (canIsland k) = true →
    s.canOn k = true → (f.fdf = true → s.is F.CAN_CTRL_FD_EN k = true) → (f.xlf = true → s.xlOn k = true) → (s.cn k).modeNext = none →
    (∀ n < 64, s.stnEn n = false) → s.is F.ZTM_FB_CFG_EN = false →
    let raw := (s.ztm.raw - ago.toNat) % 2 ^ 32
    let room := (s.cn k).rx.length < 32 ∧ ∀ y : CanRx, y.frame = f → sumList (((s.cn k).rx ++ [y]).map fun y => (canRecord y).length) ≤ 16384
    ((∀ i < 32, s.filterHits k f i = false) → s.is F.CAN_RXCFG_DEFAULT k = false →
      Gives (.canRxFrame k f ago tec rec_) s fun t => t.can = s.can ∧ t.dvt = s.dvt ∧ t.get F.CAN_RXDROP_NO_RING k = s.get F.CAN_RXDROP_NO_RING k) ∧
    ∀ i : Fin 32, s.filterHits k f i = true → (∀ j < i.val, s.filterHits k f j = false) → s.get F.CAN_FLT_CTL_ACTION k i = 0 →
      Gives (.canRxFrame k f ago tec rec_) s fun t =>
        t.get F.CAN_FLT_HITS_HITS k i = min (s.get F.CAN_FLT_HITS_HITS k i + 1) (2 ^ 32 - 1) ∧
          (s.ringOn Kind.canRx k = none → (t.cn k).rx = (s.cn k).rx ∧
            t.get F.CAN_RXDROP_NO_RING k = min (s.get F.CAN_RXDROP_NO_RING k + 1) (2 ^ 16 - 1)) ∧
          (s.ringOn Kind.canRx k ≠ none → room → (t.cn k).rx = (s.cn k).rx ++ [⟨f, raw, i, false⟩]) ∧
          (s.ringOn Kind.canRx k ≠ none → 32 ≤ (s.cn k).rx.length → (t.cn k).rx = (s.cn k).rx ∧ t.is F.CAN_EVT_RX_OVERRUN k = true)) ∧
  (∀ (s : State) (k : Fin 16) (r : Nat) (x : CanRx) (l : List CanRx), s.live (canIsland k) = true → (s.cn k).rx = x :: l →
    s.ringOn Kind.canRx k = some r → s.ringReady r = true → (s.rg r).src = [] →
    Gives (.canRxDeliver k) s fun t => (t.cn k).rx = l ∧ (t.rg r).src = canRecord x ∧ (t.rg r).stamp = ⟨x.raw, 0⟩ ∧ t.regs = s.regs) ∧
  (∀ (s : State) (m : Master) (v : Option (Fin 16)) (k : Fin 16) (w : BitVec 32) (a : Access),
    let o := s.get F.CAN_MRAM_IDX_OFFSET k
    let word := fun (t : State) (i : Nat) => storeGet 0#32 (t.cn k).mram i
    let next := if s.is F.CAN_MRAM_IDX_AUTO k then (o + 1) % 2048 else o
    (s.writes m .CAN_MRAM_DATA v k 0 w.toNat a → Gives (.mramDataAccess m v k (some w)) s fun t =>
      word t o = w ∧ (∀ i, i ≠ o → word t i = word s i) ∧ t.get F.CAN_MRAM_IDX_OFFSET k = next) ∧
    (s.reads m .CAN_MRAM_DATA v k 0 a → Gives (.mramDataAccess m v k none) s fun t =>
      t.resp = ⟨true, (word s o).toNat⟩ ∧ t.can = s.can ∧ t.get F.CAN_MRAM_IDX_OFFSET k = next) ∧
    (s.writes m .CAN_ACF_CFG v k 0 w.toNat a → s.acfDenied k a.tag = false →
      let mine := (s.canOwner k).any fun d => s.ownsHostQ d (w.toNat / 65536 % 64)
      (mine = false → exec (.acfCfgWrite m v k w) s = .next (((s.taken a).put F.CAN_ACF_CFG_ACF_REJ 1 k).answer true 0)) ∧
      (mine = true → Gives (.acfCfgWrite m v k w) s fun t =>
        t.is F.CAN_ACF_CFG_EN k = bitOf w.toNat 0 ∧ t.get F.CAN_ACF_CFG_HOSTQ k = w.toNat / 65536 % 64 ∧
          t.get F.CAN_ACF_CFG_BUS_ID k = w.toNat / 16 % 32 ∧ (bitOf w.toNat 0 = true → (t.cn k).seq = 0)))) ∧
  (∀ (s : State) (k : Fin 16) (l : List Nat) (rest : List (List Nat)) (d : Nat), s.live (canIsland k) = true →
    (s.cn k).tunTx = l :: rest → s.canOwner k = some d →
    let q := s.get F.CAN_ACF_CFG_HOSTQ k
    (s.get F.DRW_G_HOLD_AMOUNT d 2 ≤ s.get F.DVT_CHARGE_CELLS d → exec (.tunnelTxRelease k) s = .next s) ∧
    (s.get F.DVT_CHARGE_CELLS d < s.get F.DRW_G_HOLD_AMOUNT d 2 → Gives (.tunnelTxRelease k) s fun t =>
      (t.cn k).tunTx = rest ∧ t.dvt.ingress = s.dvt.ingress ++ [⟨30 + q / 8, l, s.now, none, none, 0, false, s.ztm.steps, some (d, q)⟩] ∧
        t.get F.DVT_CHARGE_CELLS d = (s.get F.DVT_CHARGE_CELLS d + cellsOf l.length) % 2 ^ 16)) ∧
  (∀ (s : State) (k : Fin 16) (x : QCopy) (l : List QCopy), s.live (canIsland k) = true →
    let q := s.get F.CAN_ACF_CFG_HOSTQ k
    s.queueOf (240 + q) = x :: l → s.tunnelOf q x.data = some k.val →
    Gives (.acfRx k) s fun t =>
      t.queueOf (240 + q) = l ∧ t.occ (240 + q) = s.occ (240 + q) - x.cells ∧ ∃ fs, (t.cn k).tunRx = (s.cn k).tunRx ++ fs) ∧
  ∀ (s : State) (k : Fin 16),
    (s.is F.CAN_WAKE_ARM k = false ∨ s.canState k = Can.retired → exec (.canWakePattern k) s = .next s) ∧
    (s.is F.CAN_WAKE_ARM k = true → s.canState k ≠ Can.retired →
      (s.phase = Ph.sleep → exec (.canWakePattern k) s = .next (s.wakeUp 3 k)) ∧
      (s.phase = Ph.toSleep → s.start.wakeHeld = none →
        exec (.canWakePattern k) s = .next { s with start := { s.start with wakeHeld := some (3, k.val, s.ztm.zone) } }) ∧
      (s.phase ≠ Ph.sleep → s.phase ≠ Ph.toSleep →
        let kind := s.get F.FAB_SLEEP_STATUS_KIND
        (s.sameCycle = false ∨ kind = 0 → exec (.canWakePattern k) s = .next s) ∧
        (s.sameCycle = true → kind ≠ 0 → s.start.cause = 7 ∨ s.start.cause = 1 →
          wakeBefore 3 k kind (s.get F.FAB_SLEEP_STATUS_INDEX) = true →
          exec (.canWakePattern k) s = .next ((s.put F.FAB_SLEEP_STATUS_KIND 3).put F.FAB_SLEEP_STATUS_INDEX k))))

/-- R339 to R341, R343, R344, R207: atomics, reservations and prefetched lines. -/
def Obligations.AtomicsAndReservations : Prop :=
  (∀ (s : State) (m : Master) (addr : BitVec 40) (x : BitVec 32), 0x40000 ≤ addr.toNat → isWindow addr.toNat = false →
    let old := leNat (memBytes s.mem addr.toNat 4)
    let wrote := fun (a : Access) (v : Nat) => ({ (s.taken a).semTaken a with mem := memWrite s.mem addr.toNat (leBytes 4 v) }.answer true old : State)
    (∀ (o : AtomOp) (a : Access), s.presents m addr.toNat 4 (.amo o) x.toNat = some a → s.opens a →
      exec (.amoW m o addr x) s = .next (wrote a (atomicResult o 4 old x.toNat))) ∧
    (∀ (f : Fin 16) (a : Access), s.opens a →
      (s.presents (.pcie f) addr.toNat 4 (.amo .add) x.toNat = some a →
        exec (.pcieFetchAdd f addr x) s = .next (wrote a ((old + x.toNat) % 2 ^ 32))) ∧
      (s.presents (.pcie f) addr.toNat 4 (.amo .swap) x.toNat = some a → exec (.pcieSwap f addr x) s = .next (wrote a x.toNat)) ∧
      ∀ cmp : BitVec 32, s.presents (.pcie f) addr.toNat 4 (.cas cmp.toNat) x.toNat = some a →
        exec (.pcieCas f addr cmp x) s = .next (if old = cmp.toNat then wrote a x.toNat else ((s.taken a).semTaken a).answer true old))) ∧
  (∀ (s : State) (c : Fin 2) (o : AtomOp) (v : Bool) (addr : BitVec 40) (x : BitVec 32), s.mtrSplit = false →
    (s.mtrRuns c = false → exec (.amoW (.mitre c) o addr x) s = .next (s.answer false 0)) ∧
    (s.mtrRuns c = true → s.inLmem addr.toNat 4 = false →
      exec (.amoW (.mitre c) o addr x) s = .next ((s.coreTrap c 7#32 (BitVec.ofNat 32 addr.toNat)).answer false 0) ∧
      exec (.scW (.mitre c) v addr x) s = .next ((s.coreTrap c 7#32 (BitVec.ofNat 32 addr.toNat)).answer false 0))) ∧
  (∀ (s : State) (m : Master) (r : RegId) (v : Option (Fin 16)) (i j : Nat) (o : AtomOp) (x : BitVec 32) (a : Access),
    hitAt (regAddr r v i j) = some (hitOf r v i j) → s.posLive (hitOf r v i j) = true → isWindow (regAddr r v i j) = true →
    s.presents m (regAddr r v i j) 4 (.amo o) x.toNat = some a → s.opens a →
    let q := ((s.taken a).semTaken a).regRead (hitOf r v i j) a.tag
    let t := (q.2.regWrite (hitOf r v i j) a.tag (atomicResult o 4 q.1 x.toNat)).answer true q.1
    exec (.amoW m o (BitVec.ofNat 40 (regAddr r v i j)) x) s = .next (if (hitOf r v i j).reg = .FAB_ISL_REQ then t.retry else t)) ∧
  (∀ (s : State) (h : Fin 6) (virt : Bool) (addr : BitVec 40) (x : BitVec 32) (a : Access), 0x40000 ≤ addr.toNat →
    isWindow addr.toNat = false → emulated addr.toNat = true → s.opens a →
    let old := leNat (memBytes s.mem addr.toNat 4)
    (s.presents (.hart h virt) addr.toNat 4 .lr 0 = some a → Gives (.lrW (.hart h) virt addr) s fun t =>
      t.resp = ⟨true, old⟩ ∧ t.mem = s.mem ∧ storeGet 0 t.dwl.resv h = addr.toNat + 1 ∧ t.is F.DWL_SEM_HELD (semOf addr.toNat) = true) ∧
    (s.presents (.hart h virt) addr.toNat 4 .sc x.toNat = some a → s.fab.waiting = [] →
      Gives (.scW (.hart h) virt addr x) s fun t =>
        storeGet 0 t.dwl.resv h = 0 ∧
          (storeGet 0 s.dwl.resv h = addr.toNat + 1 →
            t.resp = ⟨true, 0⟩ ∧ t.mem = memWrite s.mem addr.toNat (leBytes 4 x.toNat) ∧ t.is F.DWL_SEM_HELD (semOf addr.toNat) = false) ∧
          (storeGet 0 s.dwl.resv h ≠ addr.toNat + 1 → t.resp = ⟨true, 1⟩ ∧ t.mem = s.mem))) ∧
  (∀ (s : State) (h : Fin 6) (w : Nat), s.live 35 = true → s.fab.waiting = [] → storeGet 0 s.dwl.resv h = w + 1 →
    Gives (.reservationExpiry h) s fun t =>
      storeGet 0 t.dwl.resv h = 0 ∧ t.is F.DWL_SEM_HELD (semOf w) = false ∧ t.mem = s.mem) ∧
  ∀ (s : State) (i : Fin 32) (x : PLine), s.dwl.lines[i.val]? = some x → s.dwl.lines.Nodup →
    Gives (.prefetchLineExpiry i) s fun t =>
      t.dwl.lines = s.dwl.lines.filter (fun y => !decide (y = x)) ∧ (x.served = true → t.regs = s.regs) ∧
        (x.served = false → x.region < 32 →
          t.get F.DWL_REGION_DISC_COUNT x.region = min (s.get F.DWL_REGION_DISC_COUNT x.region + 1) (2 ^ 32 - 1))

/-- R333, R336, R337, R345 to R347, R349, R350: the link, functions and failures. -/
def Obligations.LinkFunctionsAndPostedFailures : Prop :=
  (∀ (s : State), s.live 35 = true →
    (s.is F.DWL_LINK_DL_UP = true → exec .pcieLinkDown s = .next ((s.put F.DWL_LINK_DL_UP 0).bump F.DWL_LINK_DOWNS 1)) ∧
    (s.is F.DWL_LINK_DL_UP = false → exec .pcieLinkDown s = .next s) ∧
    (∀ (g : Fin 4) (l : Fin 3), Gives (.pcieLinkUp g l) s fun t =>
      t.is F.DWL_LINK_DL_UP = true ∧ t.get F.DWL_LINK_SPEED = g + 1 ∧ t.get F.DWL_LINK_WIDTH = 2 ^ l.val ∧
        (∀ f, t.fn f = FnSt.rst) ∧ t.dwl.vfEn = false ∧ t.dwl.pba = []) ∧
    (∀ f : Fin 16, s.is F.DWL_LINK_DL_UP = true → s.fnExists f = true →
      let fn := s.fn f
      (∀ b, exec (.pcieConfigWrite f (.bme b)) s = .next (s.putFn f { fn with bme := b }) ∧
        exec (.pcieConfigWrite f (.mse b)) s = .next (s.putFn f { fn with mse := b }) ∧
        exec (.pcieConfigWrite f (.msixEnable b)) s = .next (s.putFn f { fn with msix := b }) ∧
        exec (.pcieConfigWrite f (.functionMask b)) s = .next (s.putFn f { fn with fmask := b }) ∧
        exec (.pcieConfigWrite f (.dState b)) s = .next (s.putFn f { fn with d3 := b })) ∧
      (∀ v : Fin 16, exec (.pcieConfigWrite f (.completionTimeout v)) s = .next (s.putFn f { fn with cto := v })) ∧
      (∀ (v : Fin 64) (a d : Nat) (k : Bool), Gives (.pcieConfigWrite f (.msixEntry v a d k)) s fun t =>
        t.msixEntry f v = (a, d, k) ∧ t.dwl.fn = s.dwl.fn) ∧
      (f = 0 → exec (.pcieConfigWrite f .vfEnable) s = .next { s with dwl := { s.dwl with vfEn := true } })) ∧
    (∀ f : Fin 16, s.fnExists f = true → f.val < s.drw.count → Gives (.functionLevelReset f) s fun t =>
      t.fn f = FnSt.rst ∧ t.drwState f = 3 ∧ (f = 0 → t.dwl.vfEn = false)) ∧
    (s.dwl.vfEn = true → Gives .vfEnableClear s fun t =>
      t.dwl.vfEn = false ∧ ∀ d : Fin 16, 1 ≤ d.val → d.val < s.drw.count → s.hostBound d = true → t.drwState d = 3) ∧
    (s.dwl.vfEn = false → exec .vfEnableClear s = .next s)) ∧
  (∀ (s : State) (d : Fin 16) (src : Fin 5) (unit : BitVec 16) (addr : BitVec 40) (cause : BitVec 8) (data : BitVec 32), s.live 35 = true →
    d.val < s.drw.count →
    let n := storeGet 1 s.seqs (8 * d + src)
    let k := 8 * d.val + src.val
    let fails := fun (t : State) (src k tag cause : Nat) =>
      (src ≠ 2 → (storeGet [] s.dwl.unacked k).length < 16 →
        storeGet [] t.dwl.unacked k = storeGet [] s.dwl.unacked k ++ [(tag, cause)]) ∧
      (s.feat d 11 = false → storeGet [] s.drw.faults d = [] →
        ∃ r, storeGet [] t.drw.faults d = [r] ∧ r.cause = 0x20 ∧ r.write = true ∧ r.addr = addr.toNat) ∧
      (s.feat d 11 = true → s.ringOf d Kind.postedErr = none →
        t.is F.DWL_VEVT_PERR 0 0 (d + 1) = true ∧
          ((storeGet [] s.dwl.perr d).length < 8 → ∃ r, storeGet [] t.dwl.perr d = storeGet [] s.dwl.perr d ++ [r] ∧
            r.head.take 12 = leBytes 8 addr.toNat ++ leBytes 4 tag) ∧
          (8 ≤ (storeGet [] s.dwl.perr d).length → t.get F.DWL_VEVT_LOST 0 0 (d + 1) = min (s.get F.DWL_VEVT_LOST 0 0 (d + 1) + 1) (2 ^ 16 - 1)))
    Gives (.postedWriteFailure d src unit addr cause data) s (fun t =>
      fails t src k (src * 2 ^ 29 + n) cause.toNat ∧ storeGet 1 t.seqs k = if n = 0x1FFFFFFF then 1 else n + 1) ∧
    (s.is F.DWL_LINK_DL_UP = true → s.fnExists d = true → Gives (.pciePoisonedWrite d addr) s fun t =>
      fails t 1 (8 * d + 1) (2 ^ 29 + storeGet 1 s.seqs (8 * d + 1)) 0x0B)) ∧
  (∀ (s : State) (r : Fin 256) (d : Nat) (cause : BitVec 8) (va : BitVec 64), s.live 38 = true → s.ringOwner r = some d →
    s.hostBound d = true → s.ringState r = Rst.running →
    Gives (.hostReadFailure r cause va) s fun t =>
      t.ringState r = Rst.faulted ∧ t.get F.RING_FAULT_DESC r = s.ringHead r % 2 ^ 16 ∧ (t.rg r).side = (if (s.rg r).desc = none then 0 else 1)) ∧
  ∀ (s : State) (m : Master) (v : Fin 16) (a : Access),
    let k := 8 * v.val + a.tag.src.code
    let l := storeGet [] s.dwl.unacked k
    (s.reads m .DWL_FENCE (some v) 0 0 a → Gives (.fence m v) s fun t =>
      t.dwl.unacked = s.dwl.unacked ∧
        (l = [] → t.resp = ⟨true, 0⟩) ∧
        (∀ tag c rest, l = (tag, c) :: rest → tag < 2 ^ 32 →
          t.resp = ⟨true, tag⟩ ∧ storeGet 0 t.dwl.info k = c + 256 * l.length + b2n (storeGet false s.dwl.tooMany k) * 65536)) ∧
    (∀ tag : BitVec 32, s.writes m .DWL_FENCE_ACK (some v) 0 0 tag.toNat a → Gives (.fenceAck m v tag) s fun t =>
      (∀ old c rest, l = old ++ (tag.toNat, c) :: rest → (∀ p ∈ old, p.1 ≠ tag.toNat) → storeGet [] t.dwl.unacked k = rest) ∧
        ((∀ p ∈ l, p.1 ≠ tag.toNat) → storeGet [] t.dwl.unacked k = l) ∧
        ∀ k2, k2 ≠ k → storeGet [] t.dwl.unacked k2 = storeGet [] s.dwl.unacked k2)

/-- R351, R352, R228, R89: delivery of interrupts. -/
def Obligations.InterruptScanDeliversVectors : Prop :=
  (∀ s : State, s.live 35 = true → s.drw.count ≤ 16 →
    Gives .interruptScan s fun t => ∀ d v : Nat, d < s.drw.count → v < 64 →
      let busy := storeGet false s.dwl.inSvc (64 * d + v)
      let up := (s.highLines d).contains v
      let held := storeGet false s.dwl.held (64 * d + v)
      let fires := busy = false ∧ s.vecMasked d v = false ∧ (up = true ∨ held = true)
      storeGet false t.dwl.inSvc (64 * d + v) = (if busy then up else !s.vecMasked d v && (up || held)) ∧
        storeGet false t.dwl.held (64 * d + v) = (if busy then held else s.vecMasked d v && (up || held)) ∧
        (fires → s.hostBound d = true → s.msixOpen d v = true →
          (⟨4, d, (s.msixEntry d v).1, leBytes 4 (s.msixEntry d v).2.1⟩ : Emit) ∈ t.emitted) ∧
        (fires → s.hostBound d = true → s.msixOpen d v = false → storeGet false t.dwl.pba (64 * d + v) = true) ∧
        (fires → s.hostBound d = false → 1 ≤ s.get F.DRW_BIND_EIID_BASE d + v → s.get F.DRW_BIND_EIID_BASE d + v ≤ 255 →
          1 ≤ s.get F.IOM_GIRQ_GFILE d → s.get F.IOM_GIRQ_GFILE d ≤ 7 → s.get F.IOM_GIRQ_HART d < 6 →
          s.unitOut 5 (s.get F.IOM_GIRQ_HART d) = false → (s.ht (s.get F.IOM_GIRQ_HART d)).imsic.length = 9 →
          ((t.ht (s.get F.IOM_GIRQ_HART d)).imsic.getD (1 + s.get F.IOM_GIRQ_GFILE d) ImsicFile.rst).pending.getLsbD
            (s.get F.DRW_BIND_EIID_BASE d + v) = true)) ∧
  (∀ (s : State) (m : Master) (v : Fin 16) (vec : Fin 64) (a : Access), s.writes m .DWL_EOI (some v) 0 0 vec a →
    Gives (.eoi m v vec) s fun t =>
      storeGet false t.dwl.inSvc (64 * v + vec) = false ∧
        ∀ k, k ≠ 64 * v.val + vec.val → storeGet false t.dwl.inSvc k = storeGet false s.dwl.inSvc k) ∧
  ∀ (s : State) (f : Fin 16) (v : Fin 64), s.live 35 = true →
    let pend := storeGet false s.dwl.pba (64 * f + v)
    (pend = true → s.msixOpen f v = true → Gives (.msixPendingSend f v) s fun t =>
      storeGet false t.dwl.pba (64 * f + v) = false ∧
        t.emitted = s.emitted ++ [⟨4, f, (s.msixEntry f v).1, leBytes 4 (s.msixEntry f v).2.1⟩]) ∧
    (pend = false ∨ s.msixOpen f v = false → exec (.msixPendingSend f v) s = .next s)

/-- R357 to R363, R365, R227: the device's own instructions. -/
def Obligations.CallsChangeTheWorldInOneStep : Prop :=
  ∀ (s : State) (h : Fin 6) (c : HartCtx), s.awake = true → s.unitOut 5 h = false → (s.ht h).halted = false →
    let next := (c.pc.toNat + 4) % 2 ^ 64
    let only := fun t : State => ∀ k, k ≠ h.val → t.ht k = s.ht k
    let here := fun y : HartSt => y.snap = some (c.x, c.f, c.fcsr.toNat) ∧ y.ppriv = c.priv ∧ y.forced = false ∧ y.timing = true ∧ y.w = true
    let back := fun y : HartSt => y.w = false ∧ y.x = c.x.set 10 minusTwo ∧ y.priv = c.priv
    let raised := fun (y : HartSt) (code : Nat) => y.trap = some code ∧ y.w = false ∧ y.pc = c.pc.toNat
    ((s.ht h).w = false →
      (c.virt = true → ∀ pa, Gives (.wcall h c) s (fun t => raised (t.ht h) 22 ∧ only t) ∧
        Gives (.gate h c pa) s (fun t => raised (t.ht h) 22 ∧ only t) ∧
        ∀ v, Gives (.hdrawerWrite h c v) s (fun t => raised (t.ht h) 22 ∧ only t)) ∧
      (c.virt = false →
        (s.gateway h = true → Gives (.wcall h c) s fun t => raised (t.ht h) 2 ∧ only t) ∧
        (s.gateway h = false → s.svcOk = true → s.secureAddr s.monVec = true → s.secureAddr s.secVec = true →
          Gives (.wcall h c) s fun t =>
            here (t.ht h) ∧ (t.ht h).priv = 3 ∧ (t.ht h).pc = s.monVec ∧ (t.ht h).mwepc = next ∧ only t) ∧
        (s.gateway h = false → s.svcOk = false ∨ s.secureAddr s.monVec = false ∨ s.secureAddr s.secVec = false →
          Gives (.wcall h c) s fun t => back (t.ht h) ∧ (t.ht h).pc = next ∧ only t) ∧
        (∀ pa : BitVec 40,
          (s.gateway h = false ∨ s.gateEntry pa.toNat = false → Gives (.gate h c pa) s fun t => raised (t.ht h) 2 ∧ only t) ∧
          (s.gateway h = true → s.gateEntry pa.toNat = true →
            (s.svcOk = true → Gives (.gate h c pa) s fun t =>
              here (t.ht h) ∧ (t.ht h).priv = c.priv ∧ (t.ht h).pc = next ∧ (t.ht h).mwepc = (c.x.getD 1 0#64).toNat ∧ only t) ∧
            (s.svcOk = false → Gives (.gate h c pa) s fun t =>
              back (t.ht h) ∧ (t.ht h).pc = (c.x.getD 1 0#64).toNat ∧ only t))) ∧
        Gives (.wret h c) s (fun t => raised (t.ht h) 2 ∧ only t) ∧
        ∀ v : BitVec 64,
          (c.priv = 0 → Gives (.hdrawerWrite h c (some v)) s (fun t => raised (t.ht h) 2 ∧ only t) ∧ Gives (.hdrawerWrite h c none) s fun t => raised (t.ht h) 2 ∧ only t) ∧
          (c.priv ≠ 0 → Gives (.hdrawerWrite h c (some v)) s (fun t =>
              (t.ht h).hdrawer = v.toNat % 16 ∧ (t.ht h).pc = next ∧ (t.ht h).w = false ∧ only t) ∧
            Gives (.hdrawerWrite h c none) s fun t =>
              t.resp = ⟨true, (s.ht h).hdrawer⟩ ∧ (t.ht h).hdrawer = (s.ht h).hdrawer ∧ (t.ht h).pc = next ∧ only t))) ∧
    ((s.ht h).w = true → (s.ht h).haltReq = false →
      (c.priv = 3 ∨ (s.gateway h = true ∧ c.priv = c.ppriv) → Gives (.wret h c) s fun t =>
        (t.ht h).w = false ∧ (t.ht h).priv = c.ppriv ∧ (t.ht h).pc = c.mwepc.toNat ∧ (t.ht h).timing = false ∧ (t.ht h).snap = none ∧
          only t) ∧
      (¬(c.priv = 3 ∨ (s.gateway h = true ∧ c.priv = c.ppriv)) → Gives (.wret h c) s fun t =>
        (t.ht h).w = true ∧ (t.ht h).priv = 3 ∧ (t.ht h).pc = s.secVec ∧ (t.ht h).trap = some 2 ∧ only t))

/-- R356, R364 to R367: the secure services. -/
def Obligations.ServicesRestartAtMostThreeTimes : Prop :=
  (∀ (s t : State), t = s.restartBegin →
    t.get F.WLD_SVC_STATE = 2 ∧ t.is F.WLD_EVT_RESTARTING = true ∧ t.wld.wiping = true ∧ t.get F.WLD_MTR_WORLD_SECURE = 0 ∧
      (∀ r < 256, t.ringSecure r = false ∧ (s.ringSecure r = true → t.ringState r = Rst.disabled)) ∧
      (∀ n < 41, t.get F.FAB_ISL_STATE_CLAIM n = 0) ∧
      (∀ x, memByte t.mem x = if (isSram x || isDram x) && s.secureAddr x then blankByte else memByte s.mem x) ∧
      ∀ h < 6, (s.ht h).w = true → (s.ht h).inReset = false →
        (t.ht h).w = false ∧ (t.ht h).forced = true ∧ (t.ht h).pc = (s.ht h).mwepc ∧ (t.ht h).priv = (s.ht h).ppriv ∧
          ∀ x f r, (s.ht h).snap = some (x, f, r) → (t.ht h).x = x.set 10 minusTwo ∧ (t.ht h).f = f ∧ (t.ht h).fcsr = r) ∧
  (∀ (s : State) (h : Fin 6), s.awake = true →
    let n := s.get F.WLD_SVC_RESTARTS
    let u := ((s.put F.WLD_TIMEOUT_HART h).put F.WLD_TIMEOUT_VALID 1).put F.WLD_TIMEOUT_NS_NS s.now.ns
    ((s.ht h).w = true → (s.ht h).timing = true →
      (n < 3 → exec (.callTimeout h) s = .next (u.put F.WLD_SVC_RESTARTS (n + 1)).restartBegin) ∧
      (n = 3 → Gives (.callTimeout h) s fun t =>
        t.get F.WLD_SVC_STATE = 3 ∧ t.is F.WLD_EVT_DEAD = true ∧ ((s.ht h).inReset = false → (t.ht h).w = false))) ∧
    ((s.ht h).w = false ∨ (s.ht h).timing = false → exec (.callTimeout h) s = .next s) ∧
    (s.get F.WLD_SVC_STATE = 2 → s.wld.wiping = false →
      (n < 3 → exec .restartTimeout s = .next (s.put F.WLD_SVC_RESTARTS (n + 1)).restartBegin) ∧
      (n = 3 → Gives .restartTimeout s fun t => t.get F.WLD_SVC_STATE = 3 ∧ t.is F.WLD_EVT_DEAD = true ∧ t.hart = s.hart)) ∧
    (s.get F.WLD_SVC_STATE ≠ 2 ∨ s.wld.wiping = true → exec .restartTimeout s = .next s)) ∧
  (∀ (s : State) (c : HartCtx), s.awake = true → s.wld.wiping = true → s.get F.WLD_SVC_STATE = 2 →
    (s.ht s.restartHart).inReset = false →
    Gives (.wrldWipeEnd c) s fun t =>
      let y := t.ht s.restartHart
      t.wld.wiping = false ∧ y.w = true ∧ y.priv = 3 ∧ y.pc = 0x100 ∧ y.mwepc = c.pc.toNat ∧ y.ppriv = c.priv ∧
        y.snap = some (c.x, c.f, c.fcsr.toNat) ∧ y.timing = false) ∧
  (∀ (s : State) (m : Master) (h : Fin 6) (a : Access),
    (s.writes m .WLD_SVC none 0 0 (h * 256 + 2 ^ 16) a →
      let st := s.get F.WLD_SVC_STATE
      exec (.servicesReady m h) s =
        .next ((if st = 0 ∨ st = 2 then ((s.taken a).put F.WLD_SVC_HART h).put F.WLD_SVC_STATE 1
          else (s.taken a).put F.WLD_SVC_HART h).answer true 0)) ∧
    (s.writes m .WLD_SVC none 0 0 (h * 256 + 2 ^ 17) a →
      exec (.servicesRestart m h) s =
        .next ((if s.get F.WLD_SVC_STATE = 1 then ((s.taken a).put F.WLD_SVC_HART h).restartBegin
          else (s.taken a).put F.WLD_SVC_HART h).answer true 0))) ∧
  ∀ (s : State) (m : Master) (a : Access),
    (∀ (k : Fin 8) (w : BitVec 32), s.writes m .WLD_RING_SEC none k 0 w.toNat a → Gives (.ringSecWrite m k w) s fun t =>
      ∀ b < 32, t.ringSecure (32 * k + b) = if s.ringState (32 * k + b) = Rst.disabled then w.getLsbD b else s.ringSecure (32 * k + b)) ∧
    (∀ w : Fin 4, s.writes m .WLD_MTR_WORLD none 0 0 w a →
      (s.mtrState = Mtr.halted → exec (.mtrWorldWrite m w) s = .next (((s.taken a).put F.WLD_MTR_WORLD_SECURE w).answer true 0)) ∧
      (s.mtrState ≠ Mtr.halted → exec (.mtrWorldWrite m w) s = .next ((s.taken a).answer true 0)))

/-- R368, R369: debug requests. -/
def Obligations.DebugActsUnderItsEnables : Prop :=
  (∀ (s : State) (h : Fin 6), s.awake = true → (s.ht h).inReset = false →
    let x := s.ht h
    let denied := fun t : State => t.resp = ⟨false, 0⟩ ∧ t.hart = s.hart ∧ t.mem = s.mem ∧ t.is F.FAB_AERR_INFO_VALID = true
    (s.dbgAct x.w = true →
      exec (.debugHalt (.hart h)) s = .next (s.putHt h { x with halted := true }) ∧
      exec (.debugResume (.hart h)) s = .next (s.putHt h { x with halted := false, haltReq := false }) ∧
      (x.halted = false → ∀ k, exec (.debugStep h k) s = .next s) ∧
      (x.halted = true → ∀ pc : Nat, Gives (.debugStep h (.plain pc)) s fun t =>
        (t.ht h).halted = true ∧ (t.ht h).pc = pc % 2 ^ 64 ∧ (t.ht h).w = x.w ∧ ∀ k, k ≠ h.val → t.ht k = s.ht k)) ∧
    (s.dbgAct x.w = false →
      (x.w = true → exec (.debugHalt (.hart h)) s = .next (s.putHt h { x with haltReq := true })) ∧
      (x.w = false → Gives (.debugHalt (.hart h)) s denied) ∧
      Gives (.debugResume (.hart h)) s denied ∧ ∀ k, Gives (.debugStep h k) s denied)) ∧
  (∀ (s : State) (c : Fin 2), s.awake = true → s.mtrSplit = true →
    (s.dbgAct (s.mtrSecure c) = true →
      exec (.debugHalt (.mitre c)) s = .next { s with mtr := { s.mtr with dbg := setBitTo s.mtr.dbg c true } } ∧
      exec (.debugResume (.mitre c)) s =
        .next { s with mtr := { s.mtr with dbg := setBitTo s.mtr.dbg c false, dbgReq := setBitTo s.mtr.dbgReq c false } })) ∧
  ∀ (s : State) (addr : BitVec 40) (x : BitVec 32) (a : Access), isWindow addr.toNat = false →
    let old := leNat (memBytes s.mem addr.toNat 4)
    (s.presents .debug addr.toNat 4 .read 0 = some a → s.opens a → s.lineServe a.tag a.num a.addr = none →
      a.tag = ⟨0, s.dbgSee true, .debug⟩ ∧
      Gives (.debugSysbusRead addr) s fun t => t.resp = ⟨true, old⟩ ∧ t.mem = s.mem) ∧
    (s.presents .debug addr.toNat 4 .write x.toNat = some a → s.opens a → 0x40000 ≤ addr.toNat →
      a.tag = ⟨0, s.dbgAct true, .debug⟩ ∧
      exec (.debugSysbusWrite addr x) s =
        .next ({ s.taken a with mem := memWrite s.mem addr.toNat (leBytes 4 x.toNat) }.answer true 0)) ∧
    (s.dbgSee true = false → s.dbgSee false = false →
      Gives (.debugSysbusRead addr) s fun t => t.resp = ⟨false, 0⟩ ∧ t.mem = s.mem ∧ t.is F.FAB_AERR_INFO_VALID = true) ∧
    (s.dbgAct true = false → s.dbgAct false = false →
      Gives (.debugSysbusWrite addr x) s fun t => t.resp = ⟨false, 0⟩ ∧ t.mem = s.mem ∧ t.is F.FAB_AERR_INFO_VALID = true)

/-- R376 to R387: every operation of the Till. -/
def Obligations.TillCommandsAreCheckedAndRunToTheirEnd : Prop :=
  ∀ (s : State) (cp : Nat) (h : HostMem), s.live 32 = true → s.til.busy = some cp → s.til.result = none → cp < 18 →
    let op := s.tOp cp
    let p := s.tParam cp
    let x := s.til_ (s.tSlot cp)
    let y := s.til_ (s.tSlot2 cp)
    let lc := s.get F.TIL_LC_STATE
    let ends := fun (r : Nat) (t : State) => t.til.result = some (r, 0) ∧ t.til.busy = some cp ∧ t.mem = s.mem
    let rows : List (Nat × Instr) :=
      [(1, .tillGenerate h), (2, .tillImport h), (3, .tillUnwrap h), (4, .tillWrap h), (5, .tillDestroy h), (6, .tillPubkey h),
        (8, .tillEncrypt h), (9, .tillDecrypt h), (0xA, .tillMac h), (0xB, .tillMacVerify h), (0xC, .tillHash h), (0xD, .tillSign h),
        (0xE, .tillVerify h), (0xF, .tillAgree h), (0x10, .tillDerive h), (0x11, .tillRandom h), (0x12, .tillAttest h),
        (0x13, .tillChallenge h), (0x14, .tillLcChange h), (0x15, .tillUnlock h), (0x16, .tillSetOwner h)]
    (∀ r ∈ rows, r.1 = op → s.tillCheck cp ≠ 0 → Gives r.2 s fun t => ends (s.tillCheck cp) t ∧ t.til.slots = s.til.slots) ∧
    (op = 8 → s.tillCheck cp =
      if 1 < p then 2 else if x.full = false then 5 else if s.mayUse cp (s.tSlot cp) = false then 7
      else if bitOf x.usage 0 = false then 8 else if x.noUses = true then 9 else if s.lenOk cp = false then 11 else 0) ∧
    (s.tillCheck cp = 0 →
      let rd := s.bufRead cp h (splitAt_ 4096 18 (s.tSrc cp) (s.tillSrcLen cp))
      (rd.1 = none → ∀ r ∈ rows, r.1 = op → Gives r.2 s fun t => t.til.result = some (12, 0) ∧ t.mem = rd.2.mem) ∧
      ∀ src, rd = (some src, s) →
        (lc = 4 → ∀ r ∈ rows, r.1 = op → op ≠ 5 → op ≠ 6 → op ≠ 0xC → Gives r.2 s fun t =>
          (∀ n, t.til.result ≠ some (1, n)) ∧ t.mem = s.mem ∧ ∀ k, (t.til_ k).full = (s.til_ k).full) ∧
        (lc ≠ 4 → s.get F.TIL_ENT_HEALTH_OK = 0 → ∀ r ∈ rows, r.1 = op → op = 1 ∨ op = 0xD ∨ op = 0x11 ∨ op = 0x13 →
          Gives r.2 s fun t => ends 18 t ∧ t.til.slots = s.til.slots) ∧
        (lc ≠ 4 → s.get F.TIL_ENT_HEALTH_OK = 1 →
          let made := fun (key : List Nat) (t : State) => ends 1 t ∧ t.til_ (s.tDslot cp) = s.newSlot cp key ∧
            ∀ k, k ≠ s.tDslot cp → (t.til_ k).key = (s.til_ k).key ∧ (t.til_ k).w0 = (s.til_ k).w0
          let n := bitsOf (s.tNew cp 0) 31 24
          let w0 := leNat (slice src 12 4)
          let wrong := fun (c : Instr) (r : Nat) => Gives c s fun t => ends r t ∧ ∀ k, (t.til_ k).key = (s.til_ k).key
          (op = 1 → Gives (.tillGenerate h) s (made (s.newKey (bitsOf (s.tNew cp 0) 3 0) n).1)) ∧
          (op = 2 → Gives (.tillImport h) s (made src)) ∧
          (op = 3 →
            (bitsOf w0 3 0 ≠ bitsOf (s.tNew cp 0) 3 0 ∨ bitsOf w0 31 24 ≠ n → wrong (.tillUnwrap h) 10) ∧
            (bitsOf w0 3 0 = bitsOf (s.tNew cp 0) 3 0 → bitsOf w0 31 24 = n →
              (unwrapBlob x.key src = none → wrong (.tillUnwrap h) 13) ∧
              (∀ key, unwrapBlob x.key src = some key → Gives (.tillUnwrap h) s (made key)))) ∧
          (op = 4 → y.export_ = false → wrong (.tillWrap h) 14) ∧
          (op = 5 → Gives (.tillDestroy h) s fun t => ends 1 t ∧ t.til_ (s.tSlot cp) = SlotSt.empty ∧
            ∀ k, k ≠ s.tSlot cp → t.til_ k = s.til_ k) ∧
          (op = 0xB → let good := macTag p x.key (src.drop (hashLen p)) = src.take (hashLen p)
            (good → Gives (.tillMacVerify h) s (ends 1)) ∧ (¬good → wrong (.tillMacVerify h) 13)) ∧
          (op = 0xE → let good := x.verifies p (src.take (sigLen x.type)) (src.drop (sigLen x.type)) = true
            (good → Gives (.tillVerify h) s (ends 1)) ∧ (¬good → wrong (.tillVerify h) 13)) ∧
          (op = 0xF → let z := (curveOf x.type).agree x.key src
            (z = none → wrong (.tillAgree h) 13) ∧ (∀ key, z = some key → Gives (.tillAgree h) s (made key))) ∧
          (op = 0x10 → (src.length < 4 + leNat (slice src 0 4) → wrong (.tillDerive h) 11) ∧
            (4 + leNat (slice src 0 4) ≤ src.length →
              Gives (.tillDerive h) s (made (deriveKey p x.key src n)))) ∧
          (op = 0x12 → x.imported = true ∨ x.export_ = true → wrong (.tillAttest h) 15) ∧
          (op = 0x14 → let goal := at0 src 6
            (s.tokenOk 1 src = false → wrong (.tillLcChange h) 16) ∧
            (s.tokenOk 1 src = true → s.lcAllowed goal = false → wrong (.tillLcChange h) 17) ∧
            (s.tokenOk 1 src = true → s.lcAllowed goal = true → Gives (.tillLcChange h) s fun t =>
              ends 1 t ∧ t.til.intent = some goal ∧ t.get F.TIL_LC_STATE = lc ∧ t.get F.WLD_DBG_UNLOCK = 0 ∧ t.til.nonce = none ∧
                ∀ k < 256, (t.til_ k).full = ((s.til_ k).full && (s.til_ k).binds goal))) ∧
          (op = 0x15 →
            (s.tokenOk 2 src = false → wrong (.tillUnlock h) 16) ∧
            (s.tokenOk 2 src = true → lc = 0 → wrong (.tillUnlock h) 17) ∧
            (s.tokenOk 2 src = true → lc ≠ 0 → Gives (.tillUnlock h) s fun t =>
              ends 1 t ∧ t.get F.WLD_DBG_UNLOCK = at0 src 6 % 16 ∧ t.til.nonce = none ∧ t.til.slots = s.til.slots)) ∧
          (op = 0x16 → (lc ≠ 0 ∨ s.is F.TIL_LC_OWNER_SET = true → wrong (.tillSetOwner h) 17) ∧
            (lc = 0 → s.is F.TIL_LC_OWNER_SET = false → Gives (.tillSetOwner h) s fun t =>
              ends 1 t ∧ t.til.owner = sha384 src ∧ t.is F.TIL_LC_OWNER_SET = true ∧
                t.til.slots = s.til.slots)) ∧
          (cp = 17 →
            let writes := fun (c : Instr) (out : List Nat) => out.length ≤ 65536 →
              (∀ i < out.length, s.memCause 0 true true (s.tDst 17 + i) = 0 ∧ s.memHeld (s.tDst 17 + i) = none) → Gives c s fun t =>
                t.til.result = some (1, out.length) ∧ t.mem = memWrite s.mem (s.tDst 17) out ∧
                  ∀ k, (t.til_ k).key = (s.til_ k).key ∧ (t.til_ k).full = (s.til_ k).full
            let draw := fun m : Nat => (List.range m).map fun i => Config.drbg (s.til.draws + i) % 256
            let room := s.tDstLen 17
            (op = 4 → y.export_ = true → writes (.tillWrap h)
              (draw 12 ++ y.attr ++ gcmSeal x.key (draw 12) y.attr y.key)) ∧
            (op = 6 → writes (.tillPubkey h) x.pub) ∧
            (op = 8 → (cryptLen 8 p src = none → wrong (.tillEncrypt h) 11) ∧ ∀ m, cryptLen 8 p src = some m →
              let n := if p = 1 then m + 16 else m
              (room < n → wrong (.tillEncrypt h) 11) ∧ (n ≤ room → writes (.tillEncrypt h) (encryptSrc p x.key src))) ∧
            (op = 9 → (cryptLen 9 p src = none → wrong (.tillDecrypt h) 11) ∧ ∀ m, cryptLen 9 p src = some m →
              (room < m → wrong (.tillDecrypt h) 11) ∧
              (m ≤ room → (decryptSrc p x.key src = none → wrong (.tillDecrypt h) 13) ∧
                ∀ l, decryptSrc p x.key src = some l → writes (.tillDecrypt h) l)) ∧
            (op = 0xA → writes (.tillMac h) (macTag p x.key src)) ∧
            (op = 0xC → writes (.tillHash h) (digest p src)) ∧
            (op = 0xD → writes (.tillSign h) (s.signBy x p src).1) ∧
            (op = 0x11 → writes (.tillRandom h) (draw room)) ∧
            (op = 0x12 → x.imported = false → x.export_ = false → writes (.tillAttest h) (s.statement (s.tSlot cp) src).1) ∧
            (op = 0x13 → writes (.tillChallenge h) (draw 32) ∧
              ((∀ i < 32, s.memCause 0 true true (s.tDst 17 + i) = 0 ∧ s.memHeld (s.tDst 17 + i) = none) →
                Gives (.tillChallenge h) s fun t => t.til.nonce = some (draw 32, s.ztm.raw))))))

/-- R376, R380: completion and the entropy source. -/
def Obligations.TillCommandsCompleteAndEntropyIsTested : Prop :=
  ∀ s : State, s.live 32 = true →
    (∀ (cp r n : Nat), cp < 18 → r < 32 → s.til.busy = some cp → s.til.result = some (r, n) → s.til.wrldPend = false →
      Gives .tillCommandDone s fun t =>
        t.get F.TIL_STAT_STATE 0 0 cp = 3 ∧ t.get F.TIL_STAT_RESULT 0 0 cp = r ∧ t.is F.TIL_STAT_DONE_EV 0 0 cp = true ∧
          t.get F.TIL_OUTLEN_OUTLEN 0 0 cp = n % 2 ^ 17 ∧ t.til.busy = none ∧ t.til.result = none ∧ t.til.intent = none ∧ t.mem = s.mem ∧
          (s.til.intent = none → t.til.slots = s.til.slots ∧ t.get F.TIL_LC_STATE = s.get F.TIL_LC_STATE) ∧
          ∀ v, s.til.intent = some v → v ≤ 4 → t.get F.TIL_LC_STATE = v ∧ t.get F.WLD_DBG_UNLOCK = 0) ∧
    (s.til.busy = none → exec .tillCommandDone s = .next s ∧ ∀ h : HostMem,
      ∀ c ∈ ([.tillGenerate h, .tillWrap h, .tillSign h, .tillLcChange h, .tillDestroy h] : List Instr), exec c s = .next s) ∧
    (Gives .entropyHealthFail s fun t =>
      t.get F.TIL_ENT_HEALTH_OK = 0 ∧ t.get F.TIL_ENT_FAILS = min (s.get F.TIL_ENT_FAILS + 1) (2 ^ 8 - 1) ∧
        (∀ cp, s.til.busy = some cp → s.til.result = none → t.til.result = some (18, 0) ∧ t.til.busy = some cp) ∧
        (s.til.busy = none → t.til = s.til) ∧ t.til.slots = s.til.slots ∧ t.mem = s.mem) ∧
    exec .entropyRestartPass s = .next (s.put F.TIL_ENT_HEALTH_OK 1)

/-- R388 to R396: items, clears and the read window. -/
def Obligations.RecorderItemsFollowTheirRules : Prop :=
  (∀ (s : State) (l : List Sample), s.live 33 = true → Gives (.sampleMerge l) s fun t =>
    t.recd.accum = [] ∧ t.recd.alarms = s.recd.alarms ∧ ∀ i, t.item i = (s.recd.accum ++ l).foldl (fun x p =>
      if x.enable = true ∧ x.kind = p.kind ∧ x.index = p.index then x.take p else x) (s.item i)) ∧
  (∀ (x : RecItem) (p : Sample), x.bins.length = 32 →
    let y := x.take p
    let v := p.val.toInt
    let u := v - x.lo
    y.count = min (x.count + 1) 0xFFFFFFFF ∧
      y.bins.getD (x.bin v) 0 = min (x.bins.getD (x.bin v) 0 + 1) 0xFFFFFFFF ∧ (∀ k, k ≠ x.bin v → y.bins.getD k 0 = x.bins.getD k 0) ∧
      (v < x.mn → y.mn = v ∧ y.mnAt = p.at_) ∧ (x.mn ≤ v → y.mn = x.mn ∧ y.mnAt = x.mnAt) ∧
      (x.mx < v → y.mx = v ∧ y.mxAt = p.at_) ∧ (v ≤ x.mx → y.mx = x.mx ∧ y.mxAt = x.mxAt) ∧
      (-(2 ^ 63) ≤ x.sum + v → x.sum + v < 2 ^ 63 → y.sum = x.sum + v) ∧
      y.kind = x.kind ∧ y.index = x.index ∧ y.enable = x.enable ∧ y.clears = x.clears ∧
      (x.mode = 0 → 0 < x.width → (u < 0 → x.bin v = 0) ∧ (0 ≤ u → x.bin v = min (u.toNat / x.width) 31)) ∧
      (x.mode = 1 → (u < 2 ^ x.shift → x.bin v = 0) ∧ (2 ^ (x.shift + 30) ≤ u → x.bin v = 31) ∧
        ∀ k : Nat, 1 ≤ k → k ≤ 30 → 2 ^ (x.shift + k - 1) ≤ u → u < 2 ^ (x.shift + k) → x.bin v = k)) ∧
  (∀ (s : State) (m : Master) (a : Access), a.tag.drawer = 0 ∨ a.tag.secure = true →
    let u := s.taken a
    let cleared := fun (x y : RecItem) => y.count = 0 ∧ y.sum = 0 ∧ y.sat = false ∧ y.bins = List.replicate 32 0 ∧ y.mn = 0x7FFFFFFF ∧
      y.mx = -(2 ^ 31) ∧ y.mnAt = ⟨0, 0⟩ ∧ y.mxAt = ⟨0, 0⟩ ∧ y.clears = (x.clears + 1) % 2 ^ 32 ∧ y.clrAt = s.now
    let kept := fun (x y : RecItem) => y.kind = x.kind ∧ y.index = x.index ∧ y.lo = x.lo ∧ y.width = x.width ∧ y.enable = x.enable ∧
      y.mode = x.mode ∧ y.shift = x.shift
    (s.writes m .REC_CFG_CMD none 0 0 1 a →
      let i := u.get F.REC_CFG_ITEM_ITEM
      let src := u.get F.REC_CFG_SRC_SRC
      let word3 := u.get F.REC_CFG_MODE_MODE
      let kind := src % 256
      let index := bitsOf src 23 8
      let shift := bitsOf word3 20 16
      let refused := sourceOk kind index = false ∨ (bitOf word3 1 = false ∧ u.get F.REC_CFG_WIDTH_VALUE = 0) ∨ 16 < shift ∨
        ∃ d, s.recHolder i = some d ∧ d ≠ 0 ∧ u.sourceOwner kind index ≠ some d
      (refused → exec (.itemConfig m) s = .next ((u.put F.REC_CFG_STAT_REJ 1).answer true 0)) ∧
      (¬refused → Gives (.itemConfig m) s fun t =>
        let y := t.item i
        t.is F.REC_CFG_STAT_REJ = false ∧ cleared (s.item i) y ∧ y.kind = kind ∧ y.index = index ∧
          y.width = u.get F.REC_CFG_WIDTH_VALUE ∧ y.enable = bitOf word3 0 ∧ y.shift = shift ∧ (y.mode = 1 ↔ bitOf word3 1 = true) ∧
          y.lo = (BitVec.ofNat 32 (u.get F.REC_CFG_LO_VALUE)).toInt ∧ ∀ k, k ≠ i → t.item k = s.item k)) ∧
    (∀ i : Fin 4096, s.writes m .REC_CLEAR none 0 0 (2 ^ 31 + i) a → Gives (.itemClear m i) s fun t =>
      cleared (s.item i) (t.item i) ∧ kept (s.item i) (t.item i) ∧ (∀ k, k ≠ i.val → t.item k = s.item k) ∧
        t.get F.REC_CLEARS_COUNT = (u.get F.REC_CLEARS_COUNT + 1) % 2 ^ 32 ∧ t.mem = s.mem ∧ t.recd.alarms = s.recd.alarms) ∧
    (s.writes m .REC_CLEAR none 0 0 (2 ^ 31 + 2 ^ 30) a → Gives (.itemClearAll m) s fun t =>
      (∀ k < 4096, cleared (s.item k) (t.item k) ∧ kept (s.item k) (t.item k)) ∧
        t.get F.REC_CLEARS_COUNT = (u.get F.REC_CLEARS_COUNT + 1) % 2 ^ 32)) ∧
  ∀ (s : State) (m : Master) (v : Option (Fin 16)) (a : Access),
    let cp := viewCopy v
    let i := s.get F.REC_CURSOR_ITEM 0 0 cp
    (s.reads m .REC_WIN v 0 0 a → Gives (.windowSnapshot m v) s fun t =>
      t.resp = ⟨true, (s.item i).word 0 % 2 ^ 32⟩ ∧ (∀ k < 64, t.get F.REC_WIN_WORD k 0 cp = (s.item i).word k % 2 ^ 32) ∧
        t.recd = s.recd ∧ t.get F.REC_CURSOR_ITEM 0 0 cp = i) ∧
    (s.reads m .REC_WIN v 63 0 a → Gives (.windowAdvance m v) s fun t =>
      t.resp = ⟨true, s.get F.REC_WIN_WORD 63 0 cp⟩ ∧ t.recd = s.recd ∧
        (s.is F.REC_CURSOR_AUTO 0 0 cp = false → t.get F.REC_CURSOR_ITEM 0 0 cp = i) ∧
        (s.is F.REC_CURSOR_AUTO 0 0 cp = true →
          (v = none → t.get F.REC_CURSOR_ITEM 0 0 cp = (i + 1) % 4096) ∧
          ∀ d, v = some d → ∀ k < 4096, s.recHolder ((i + 1 + k) % 4096) = some d.val →
            (∀ j < k, s.recHolder ((i + 1 + j) % 4096) ≠ some d.val) → t.get F.REC_CURSOR_ITEM 0 0 cp = (i + 1 + k) % 4096))

/-- R393, R394, R399 to R402: flushes, alarms, logs and traces. -/
def Obligations.RecorderFlushesAndDelivers : Prop :=
  (∀ s : State, s.live 33 = true →
    (s.is F.REC_FLUSH_BUSY = false → exec .flushPeriodic s = .next (s.put F.REC_FLUSH_BUSY 1) ∧ exec .flushDone s = .next s) ∧
    (s.is F.REC_FLUSH_BUSY = true → exec .flushPeriodic s = .next (s.put F.REC_FLUSH_PENDING 1) ∧
      Gives .flushDone s fun t =>
        t.is F.REC_FLUSH_DONE = true ∧ t.is F.REC_EVT_FLUSH_DONE = true ∧ t.recd.current = !s.recd.current ∧
          t.recHalf = ⟨s.recd.items, s.recd.alarms⟩ ∧ t.recd.items = s.recd.items ∧ t.recd.alarms = s.recd.alarms ∧
          (if s.recd.current then t.recd.halfB = s.recd.halfB else t.recd.halfA = s.recd.halfA) ∧
          t.is F.REC_FLUSH_PENDING = false ∧ t.is F.REC_FLUSH_BUSY = s.is F.REC_FLUSH_PENDING)) ∧
  (∀ (s : State) (m : Master) (a : Access), s.writes m .REC_FLUSH none 0 0 1 a → Gives (.flushGo m) s fun t =>
    t.is F.REC_FLUSH_BUSY = true ∧ t.recd = s.recd ∧
      t.is F.REC_FLUSH_PENDING = (s.is F.REC_FLUSH_PENDING || s.is F.REC_FLUSH_BUSY)) ∧
  (∀ (s : State) (code unit detail d : Nat),
    let t := s.alarm code unit detail d
    let same := fun r : AlarmRec => r.code = code ∧ r.unit = unit ∧ r.frozen = false
    ((∀ r ∈ s.recd.alarms, ¬same r) →
      t.recd.alarms = s.recd.alarms ++ [⟨code, d, 0, unit, detail, s.now, false⟩] ∧ t.is F.REC_EVT_ALARM = true ∧
        t.is F.REC_FLUSH_BUSY = true) ∧
    ((∃ r ∈ s.recd.alarms, same r) → t.regs = s.regs ∧
      t.recd.alarms = s.recd.alarms.map fun r => if same r then { r with rep := min (r.rep + 1) 255 } else r)) ∧
  (∀ (s : State) (m : Master) (a : Access),
    (s.reads m .REC_ALM_HEAD none 0 0 a →
      (∀ r rest, s.recd.alarms = r :: rest → Gives (.alarmHeadRead m) s fun t =>
        t.resp = ⟨true, r.word 0 % 2 ^ 32⟩ ∧ t.recd = { s.recd with alarms := { r with frozen := true } :: rest }) ∧
      (s.recd.alarms = [] → Gives (.alarmHeadRead m) s fun t => t.resp = ⟨true, 0⟩ ∧ t.recd = s.recd)) ∧
    (s.writes m .REC_ALM_STAT none 0 0 (2 ^ 16) a → exec (.alarmPop m) s =
      .next ({ s.taken a with recd := { s.recd with alarms := s.recd.alarms.drop 1 } }.answer true 0))) ∧
  ∀ (s : State) (d : Fin 16), s.live 33 = true →
    (s.live 38 = true → d.val < s.drw.count →
      (s.ringOf d 5 = none ∨ (storeGet [] s.recd.staging d = [] ∧ ∀ x ∈ s.recd.backlog, x.1 ≠ d.val) →
        exec (.logDeliver d) s = .next s) ∧
      ∀ r x, s.ringOf d 5 = some r → s.ringReady r = true → (s.rg r).close = false → (s.rg r).desc = some x →
        s.ringKind r = 5 → storeGet 0 s.recd.lostLogs d = 0 →
        let l := storeGet [] s.recd.staging d ++ (s.recd.backlog.filter (·.1 == d.val)).map (·.2)
        l ≠ [] → (s.rg r).src.length + 32 * l.length + 32 ≤ x.len → Gives (.logDeliver d) s fun t =>
          (t.rg r).src = (s.rg r).src ++ l.flatMap LogRec.bytes ∧ storeGet [] t.recd.staging d = [] ∧
            t.recd.backlog = s.recd.backlog.filter (·.1 != d.val) ∧ ∀ k, k ≠ r → t.rg k = s.rg k) ∧
    (s.live 38 = true → ∀ r : Fin 256, s.ringKind r = 5 → (s.rg r).src ≠ [] → (s.rg r).desc.isSome = true →
      (s.rg r).ready = false → Gives (.logBufferTimeout r) s fun t => (t.rg r).close = true ∧ (t.rg r).src = (s.rg r).src) ∧
    (d.val < s.drw.count → d ≠ 0 →
      let n := (s.recd.backlog.filter (·.1 == d.val)).length
      let lv := s.get F.REC_LOG_STAT_LEVEL 0 0 (d + 1)
      let thresh := max 16 (min 97792 (s.get F.REC_TRC_THRESH_THRESH 0 0 (d + 1)))
      Gives (.traceLevelUpdate d) s fun t =>
        t.get F.REC_LOG_STAT_LEVEL 0 0 (d + 1) = (if thresh < n ∧ lv < 10 then lv + 1 else if 2 * n < thresh ∧ 0 < lv then lv - 1 else lv) ∧
          (thresh < n → lv < 10 → t.is F.REC_LOG_STAT_LEVEL_UP 0 0 (d + 1) = true) ∧ t.recd = s.recd)

/-- R404 to R407, R410: update commands and confirmation. -/
def Obligations.UpdateCommandsFollowTheirTable : Prop :=
  (∀ (s : State) (c : UpdCmd) (rest : List UpdCmd) (bad : Bool), s.live 39 = true → s.upd.cmds = c :: rest →
    let rows : List (Nat × Instr) := [(1, .updateBegin bad), (2, .updateBlock bad), (3, .updateEnd bad), (4, .updateAbort bad)]
    let x := s.sess c.kind
    let n := c.pay.length
    let status :=
      if c.head.length < 16 ∨ fieldLe c.head 0 4 ≠ 0x4B425A4C ∨ c.kind < 1 ∨ 3 < c.kind ∨ fieldLe c.head 5 3 ≠ 0 then 2
      else if (c.op = 2 ∨ c.op = 3) ∧ x.state ≠ 1 then 3
      else if c.op = 1 ∧ (c.offset = 0 ∨ kindLimit c.kind < c.offset) then 4
      else if c.op = 2 ∧ (c.offset % 4096 ≠ 0 ∨ n = 0 ∨ 65536 < n ∨ x.size < c.offset + n ∨
        (n % 4096 ≠ 0 ∧ c.offset + n ≠ x.size)) then 4
      else if c.op = 2 ∧ crc32 c.pay ≠ fieldLe c.head 12 4 then 5
      else if bad = true then 6
      else if c.op = 3 ∧ x.filled ≠ x.size then 7 else 0
    (s.upd.ran = none → ∀ r ∈ rows,
      (r.1 ≠ c.op → exec r.2 s = .next s) ∧
      (r.1 = c.op → Gives r.2 s fun t =>
        t.upd.ran = some status ∧ t.upd.cmds = s.upd.cmds ∧ t.regs = s.regs ∧ t.mem = s.mem ∧
          (∀ k, k ≠ c.kind → t.sess k = s.sess k) ∧ (status ≠ 0 → t.sess c.kind = x) ∧
          (status = 0 →
            (c.op = 1 → t.sess c.kind = ⟨1, c.offset, []⟩) ∧
            (c.op = 2 → (t.sess c.kind).state = 1 ∧ (t.sess c.kind).size = x.size ∧
              ∀ p, storeGet [] (t.sess c.kind).pages p =
                if c.offset / 4096 ≤ p ∧ 4096 * p < c.offset + n then slice c.pay (4096 * p - c.offset) 4096 else storeGet [] x.pages p) ∧
            (c.op = 3 → t.sess c.kind = { x with state := 2 }) ∧ (c.op = 4 → t.sess c.kind = SessSt.none_)))) ∧
    (∀ st, s.upd.ran = some st → (∀ r ∈ rows, exec r.2 s = .next s) ∧
      Gives .updateCommandDone s fun t => t.upd.cmds = rest ∧ t.upd.ran = none ∧ t.upd.sess = s.upd.sess ∧
        (c.ring = 256 → t.is F.UPD_MBX_STAT_BUSY = false ∧ t.is F.UPD_MBX_STAT_DONE = true ∧
          t.get F.UPD_MBX_STAT_STATUS = st % 16) ∧
        (c.ring < 256 → t.regs = s.regs ∧ t.rg c.ring = { s.rg c.ring with result := 0, detail := st, ready := true })) ∧
    (s.upd.ran = none → 1 ≤ c.op → c.op ≤ 4 → exec .updateCommandDone s = .next s)) ∧
  ∀ (s : State) (m : Master) (kind : Fin 4) (a : Access), s.writes m .UPD_CONFIRM none 0 0 (keyed 0x9A51 kind) a →
    let u := s.taken a
    let refused := exec (.updConfirm m kind) s = .next ((u.put F.UPD_CONF_STAT_REJ 1).answer true 0)
    ((s.tookBank kind).1 = 0 → refused) ∧
    ∀ b, (s.tookBank kind).1 = b + 1 →
      (b ≠ s.prefBank kind ∨ (s.tookBank kind).2 ≤ u.get F.UPD_ARB_COUNTER (kind - 1) → refused) ∧
      (b = s.prefBank kind → u.get F.UPD_ARB_COUNTER (kind - 1) < (s.tookBank kind).2 →
        exec (.updConfirm m kind) s = .next ((u.put F.UPD_ARB_COUNTER (s.tookBank kind).2 (kind - 1)).answer true 0))

/-- R127, R412 to R417: retirement. -/
def Obligations.UnitsRetireAndAreCleared : Prop :=
  (∀ (s : State) (c : Fin 6), s.awake = true → s.unitOut 5 c = false →
    (s.get F.FAB_CORE_STAT_RUN_ERR / 2 ^ c.val % 2 = 0 → Gives (.coreRuntimeError c) s fun t =>
      t.ht c = { HartSt.rst with inReset := false } ∧ (∀ k, k ≠ c.val → t.ht k = s.ht k) ∧
        t.get F.FAB_CORE_STAT_RUN_ERR / 2 ^ c.val % 2 = 1 ∧ t.unitOut 5 c = false ∧ t.mem = s.mem) ∧
    (s.get F.FAB_CORE_STAT_RUN_ERR / 2 ^ c.val % 2 = 1 → (s.ht c).w = false → Gives (.coreRuntimeError c) s fun t =>
      t.ht c = HartSt.rst ∧ (∀ k, k ≠ c.val → t.ht k = s.ht k) ∧ t.unitOut 5 c = true ∧ (5, c.val) ∈ t.flt.pend ∧ t.mem = s.mem)) ∧
  (∀ (s : State) (u : Fin 48), s.awake = true →
    exec (.ceWindowEnd u) s = .next (s.put F.FAB_SRAM_CE_WINDOW 0 u) ∧
    (s.unitOut 6 u = true → exec (.sramCorrectableError u) s = .next s ∧ ∀ x, exec (.scrubRead u x) s = .next s) ∧
    (s.unitOut 6 u = false →
      let w := s.get F.FAB_SRAM_CE_WINDOW u
      let counted := (s.put F.FAB_SRAM_CE_WINDOW (w + 1) u).bump F.FAB_SRAM_CE_TOTAL 1 u
      let retired := fun t : State => t.unitOut 6 u = true ∧ (6, u.val) ∈ t.flt.pend ∧ t.mem = s.mem ∧
        ∀ k n, (k, n) ≠ (6, u.val) → n < 256 → t.unitOut k n = s.unitOut k n
      exec (.scrubRead u .clean) s = .next s ∧
      (w < 63 → exec (.sramCorrectableError u) s = .next counted ∧ exec (.scrubRead u .corrected) s = .next counted) ∧
      (63 ≤ w → Gives (.sramCorrectableError u) s retired ∧ Gives (.scrubRead u .corrected) s retired) ∧
      Gives (.scrubRead u .again) s retired ∧ Gives (.scrubRead u .bad) s retired ∧
      ∀ (m : Master) (addr : BitVec 40) (size : Fin 9) (op : AccOp) (x : BitVec 64) (a : Access),
        isSram addr.toNat = true → (addr.toNat - 0x10000000) / 0x100000 = u.val → s.presents m addr.toNat size op x.toNat = some a →
        s.opens a → Gives (.sramUncorrectableError m addr size op x) s fun t =>
          retired t ∧ t.resp = ⟨false, 0⟩ ∧ t.is F.FAB_AERR_INFO_VALID = true ∧
            (s.is F.FAB_AERR_INFO_VALID = false → t.get F.FAB_AERR_INFO_CAUSE = Aerr.retired))) ∧
  (∀ (s : State) (m : Master) (kind : Fin 8) (unit : Fin 128) (a : Access), a.tag.drawer = 0 →
    s.writes m .FAB_RET_CLR none 0 0 (keyed 0x3D9E (unit * 256 + kind)) a →
    let u := s.taken a
    let judged := fun r : Nat => exec (.retirementClear m kind unit) s = .next ((u.put F.FAB_RET_CLR_STAT_RESULT r).answer true 0)
    (s.get F.TIL_LC_STATE ≠ 3 → judged 2) ∧
    (s.get F.TIL_LC_STATE = 3 → unitCount kind ≤ unit.val → judged 3) ∧
    (s.get F.TIL_LC_STATE = 3 → unit.val < unitCount kind → s.countsRetired kind unit = false → judged 4) ∧
    (s.get F.TIL_LC_STATE = 3 → unit.val < unitCount kind → s.countsRetired kind unit = true →
      Gives (.retirementClear m kind unit) s fun t =>
        t.get F.FAB_RET_CLR_STAT_RESULT = 1 ∧ t.countsRetired kind unit = false ∧ t.unitSuspect kind unit = false ∧
          t.get F.FAB_RET_CLRS_COUNT = (u.get F.FAB_RET_CLRS_COUNT + 1) % 2 ^ 32 ∧ t.unitOut kind unit = s.unitOut kind unit)) ∧
  ∀ (s : State) (c : Fin 96), s.isChan c = true → s.dieLost (bankOf c) = false →
    ((s.lc c).hsWin = true → exec (.hardShortWindowEnd c) s =
      .next ((s.putLc c { s.lc c with hsWin := false }).put F.LCH_PROT_HARD_SHORT 0 c)) ∧
    ((s.lc c).hsWin = false → exec (.hardShortWindowEnd c) s = .next s)

/-- R421 to R423: SAFEN. -/
def Obligations.SafenFollowsItsReasons : Prop :=
  (∀ (s : State) (m : Master) (a : Access), a.tag.drawer = 0 →
    let u := s.taken a
    let old := fun b : Nat => u.get F.FAB_SAFEN_REASON / 2 ^ b % 2
    let new := fun (t : State) (b : Nat) => t.get F.FAB_SAFEN_REASON / 2 ^ b % 2
    let stopped := (List.range 9).any fun k => (s.tk k).faultStop
    (∀ on : Bool, s.writes m .FAB_SAFEN_CTRL none 0 0 (keyed 0x5A4F (2 * b2n on)) a →
      exec (.safenForce m on) s = .next ((u.put F.FAB_SAFEN_CTRL_FORCE (b2n on)).answer true 0)) ∧
    (∀ force : Bool, s.writes m .FAB_SAFEN_CTRL none 0 0 (keyed 0x5A4F (1 + 2 * b2n force)) a →
      Gives (.safenRelease m force) s fun t =>
        t.is F.FAB_SAFEN_CTRL_FORCE = force ∧
          new t 0 = (if s.startDone = true then 0 else old 0) ∧
          new t 1 = old 1 ∧ new t 5 = old 5 ∧ new t 4 = 0 ∧
          new t 2 = (if s.get F.MTR_STATE_STATE ≠ 4 ∧ s.get F.MTR_STATE_STATE ≠ 5 then 0 else old 2) ∧
          new t 6 = (if stopped = true then old 6 else 0)) ∧
    ∀ w : BitVec 32, s.writes m .FAB_SAFEN_MASK none 0 0 w.toNat a →
      Gives (.safenMaskWrite m w) s fun t =>
        t.get F.FAB_SAFEN_MASK_ARM = w.toNat / 16 % 8 ∧ (∀ b < 4, new t b = old b) ∧
          new t 4 = (if w.getLsbD 4 = true ∧ s.flt.byTest = true then 1 else old 4) ∧
          new t 5 = (if w.getLsbD 5 = true ∧ s.get F.WLD_SVC_STATE = 3 then 1 else old 5) ∧
          new t 6 = (if w.getLsbD 6 = true ∧ stopped = true then 1 else old 6)) ∧
  ∀ s : State,
    (s.phase = Ph.run → s.safenPin = if s.get F.FAB_SAFEN_REASON ≠ 0 ∨ s.get F.FAB_SAFEN_CTRL_FORCE = 1 then 1 else 0) ∧
    (s.phase = Ph.began ∨ s.phase = Ph.banks ∨ s.phase = Ph.taken ∨ s.phase = Ph.fail → s.safenPin = 1) ∧
    (s.phase = Ph.sleep → s.safenPin = if s.feedOk 0 = true ∨ s.feedOk 1 = true then 1 else 2)
end

