-- ==== Sys2Proof/Laws/Store.lean ====
section
/-! SUPPORT. Laws of the sparse stores, of bit fields, and of memory's canonical form. -/

namespace Sys2Proof.Machine

/-! Bit fields -/

theorem getLsbD_maskOf (hi lo k : Nat) (h : hi < 32) :
    (maskOf hi lo).getLsbD k = (decide (lo ≤ k) && decide (k ≤ hi)) := by
  have e : (maskOf hi lo).getLsbD k = (decide (k < 32) && ((2 ^ (hi + 1 - lo) - 1) <<< lo).testBit k) := by
    simp [maskOf, BitVec.getLsbD_ofNat, Nat.shiftLeft_eq]
  rw [e, Nat.testBit_shiftLeft, Nat.testBit_two_pow_sub_one]
  by_cases h1 : lo ≤ k <;> by_cases h2 : k ≤ hi <;> simp [h1, h2] <;> omega

theorem getLsbD_fieldSet (w : Word) (hi lo v k : Nat) (h : hi < 32) :
    (fieldSet w hi lo v).getLsbD k =
      if lo ≤ k ∧ k ≤ hi then v.testBit (k - lo) else w.getLsbD k := by
  simp only [fieldSet, BitVec.getLsbD_or, BitVec.getLsbD_and, BitVec.getLsbD_not, getLsbD_maskOf _ _ _ h,
    BitVec.getLsbD_ofNat]
  by_cases h1 : lo ≤ k <;> by_cases h2 : k ≤ hi
  · have h3 : k < 32 := by omega
    have h4 : (v * 2 ^ lo).testBit k = v.testBit (k - lo) := by
      rw [← Nat.shiftLeft_eq, Nat.testBit_shiftLeft]; simp [h1]
    simp [h1, h2, h3, h4]
  · by_cases h3 : k < 32
    · simp [h1, h2, h3]
    · simp [h1, h2, h3, BitVec.getLsbD_of_ge w k (by omega)]
  · by_cases h3 : k < 32
    · simp [h1, h2, h3]
    · simp [h1, h2, h3, BitVec.getLsbD_of_ge w k (by omega)]
  · by_cases h3 : k < 32
    · simp [h1, h2, h3]
    · simp [h1, h2, h3, BitVec.getLsbD_of_ge w k (by omega)]

theorem testBit_fieldGet (w : Word) (hi lo k : Nat) :
    (fieldGet w hi lo).testBit k = (decide (k < hi + 1 - lo) && w.getLsbD (lo + k)) := by
  simp only [fieldGet, bitsOf, Nat.testBit_mod_two_pow, Nat.testBit_div_two_pow, BitVec.getLsbD, Nat.add_comm]

/-- A field reads back what was written into it. -/
theorem fieldGet_fieldSet_same (w : Word) (hi lo v : Nat) (h : hi < 32) :
    fieldGet (fieldSet w hi lo v) hi lo = v % 2 ^ (hi + 1 - lo) := by
  apply Nat.eq_of_testBit_eq
  intro k
  rw [testBit_fieldGet, getLsbD_fieldSet _ _ _ _ _ h, Nat.testBit_mod_two_pow]
  by_cases h1 : k < hi + 1 - lo
  · have h2 : lo ≤ lo + k ∧ lo + k ≤ hi := by omega
    rw [if_pos h2]; simp [h1]
  · simp [h1]

/-- A write of one field leaves a field with no common bit. -/
theorem fieldGet_fieldSet_ne (w : Word) (hi lo v hi' lo' : Nat) (h : hi < 32) (hd : hi' < lo ∨ hi < lo') :
    fieldGet (fieldSet w hi lo v) hi' lo' = fieldGet w hi' lo' := by
  apply Nat.eq_of_testBit_eq
  intro k
  rw [testBit_fieldGet, testBit_fieldGet, getLsbD_fieldSet _ _ _ _ _ h]
  by_cases h1 : k < hi' + 1 - lo'
  · have h2 : ¬ (lo ≤ lo' + k ∧ lo' + k ≤ hi) := by omega
    rw [if_neg h2]
  · simp [h1]

/-! Sparse stores -/

section store
variable {α : Type}

theorem storeGet_erase_same (d : α) (l : Store α) (k : Nat) : storeGet d (storeErase l k) k = d := by
  induction l with
  | nil => rfl
  | cons p l ih =>
    obtain ⟨k', v⟩ := p
    by_cases h : k' = k
    · simpa [storeErase, h] using ih
    · simp [storeErase, h, storeGet, ih]

theorem storeGet_erase_ne (d : α) (l : Store α) (k n : Nat) (h : n ≠ k) :
    storeGet d (storeErase l k) n = storeGet d l n := by
  induction l with
  | nil => rfl
  | cons p l ih =>
    obtain ⟨k', v⟩ := p
    by_cases h1 : k' = k
    · subst h1
      simp [storeErase, storeGet, ih, Ne.symm h]
    · rw [storeErase, if_neg h1]
      simp only [storeGet, ih]

theorem storeGet_insert_same (d : α) (l : Store α) (k : Nat) (v : α) (hn : ∀ p ∈ l, p.1 ≠ k) : storeGet d (storeInsert l k v) k = v := by
  induction l with
  | nil => simp [storeInsert, storeGet]
  | cons p l ih =>
    obtain ⟨k', v'⟩ := p
    have hk : k' ≠ k := hn (k', v') (by simp)
    by_cases h1 : k < k'
    · simp [storeInsert, h1, storeGet]
    · simp [storeInsert, h1, storeGet, hk, ih (fun p hp => hn p (by simp [hp]))]

theorem storeGet_insert_ne (d : α) (l : Store α) (k n : Nat) (v : α) (h : n ≠ k) :
    storeGet d (storeInsert l k v) n = storeGet d l n := by
  induction l with
  | nil => simp [storeInsert, storeGet, Ne.symm h]
  | cons p l ih =>
    obtain ⟨k', v'⟩ := p
    by_cases h1 : k < k'
    · simp [storeInsert, h1, storeGet, Ne.symm h]
    · rw [storeInsert, if_neg h1]
      simp only [storeGet, ih]

theorem mem_storeErase (l : Store α) (k : Nat) (p : Nat × α) : p ∈ storeErase l k ↔ p ∈ l ∧ p.1 ≠ k := by
  induction l with
  | nil => simp [storeErase]
  | cons q l ih =>
    obtain ⟨k', v⟩ := q
    by_cases h : k' = k
    · simp only [storeErase, h, if_true, ih, List.mem_cons]
      constructor
      · rintro ⟨h1, h2⟩; exact ⟨Or.inr h1, h2⟩
      · rintro ⟨h1 | h1, h2⟩
        · subst h1; exact absurd rfl h2
        · exact ⟨h1, h2⟩
    · simp only [storeErase, h, if_false, List.mem_cons, ih]
      constructor
      · rintro (h1 | ⟨h1, h2⟩)
        · subst h1; exact ⟨Or.inl rfl, h⟩
        · exact ⟨Or.inr h1, h2⟩
      · rintro ⟨h1 | h1, h2⟩
        · exact Or.inl h1
        · exact Or.inr ⟨h1, h2⟩

variable [DecidableEq α]

/-- A key reads back what was stored under it. -/
@[simp] theorem storeGet_put_same (d : α) (l : Store α) (k : Nat) (v : α) : storeGet d (storePut d l k v) k = v := by
  by_cases h : v = d
  · simp [storePut, h, storeGet_erase_same]
  · simp only [storePut, h, if_false]
    exact storeGet_insert_same d _ k v fun p hp => ((mem_storeErase l k p).1 hp).2

/-- A store under one key leaves the others. -/
theorem storeGet_put_ne (d e : α) (l : Store α) (k n : Nat) (v : α) (h : n ≠ k) :
    storeGet e (storePut d l k v) n = storeGet e l n := by
  by_cases h1 : v = d
  · simp [storePut, h1, storeGet_erase_ne _ _ _ _ h]
  · simp [storePut, h1, storeGet_insert_ne _ _ _ _ _ h, storeGet_erase_ne _ _ _ _ h]

/-- Whether a bound lies below a key. -/
theorem storeWfFrom_weaken (d : Nat → α) (lo : Option Nat) (k : Nat) (l : Store α) (h : ∀ b, lo = some b → b < k)
    (hw : storeWfFrom d (some k) l = true) : storeWfFrom d lo l = true := by
  cases l with
  | nil => rfl
  | cons p l =>
    obtain ⟨k', v⟩ := p
    simp only [storeWfFrom, Bool.and_eq_true, decide_eq_true_eq] at hw ⊢
    refine ⟨⟨?_, hw.1.2⟩, hw.2⟩
    cases lo with
    | none => rfl
    | some b => have := h b rfl; simp; omega

theorem storeWfFrom_erase (d : Nat → α) (lo : Option Nat) (l : Store α) (k : Nat) (hw : storeWfFrom d lo l = true) :
    storeWfFrom d lo (storeErase l k) = true := by
  induction l generalizing lo with
  | nil => rfl
  | cons p l ih =>
    obtain ⟨k', v⟩ := p
    simp only [storeWfFrom, Bool.and_eq_true, decide_eq_true_eq] at hw
    by_cases h : k' = k
    · simp only [storeErase, h, if_true]
      apply storeWfFrom_weaken d lo k'
      · rintro b rfl; simpa using hw.1.1
      · exact ih _ hw.2
    · simp only [storeErase, h, if_false, storeWfFrom, Bool.and_eq_true, decide_eq_true_eq]
      exact ⟨hw.1, ih _ hw.2⟩

theorem storeWfFrom_insert (d : Nat → α) (lo : Option Nat) (l : Store α) (k : Nat) (v : α) (hv : v ≠ d k)
    (hlo : ∀ b, lo = some b → b < k) (hn : ∀ p ∈ l, p.1 ≠ k) (hw : storeWfFrom d lo l = true) :
    storeWfFrom d lo (storeInsert l k v) = true := by
  induction l generalizing lo with
  | nil =>
    simp only [storeInsert, storeWfFrom, Bool.and_eq_true, decide_eq_true_eq]
    refine ⟨⟨?_, hv⟩, trivial⟩
    cases lo with
    | none => rfl
    | some b => simpa using hlo b rfl
  | cons p l ih =>
    obtain ⟨k', v'⟩ := p
    have hk : k' ≠ k := hn (k', v') (by simp)
    simp only [storeWfFrom, Bool.and_eq_true, decide_eq_true_eq] at hw
    by_cases h1 : k < k'
    · simp only [storeInsert, h1, if_true, storeWfFrom, Bool.and_eq_true, decide_eq_true_eq]
      refine ⟨⟨?_, hv⟩, ⟨by simp, hw.1.2⟩, hw.2⟩
      cases lo with
      | none => rfl
      | some b => simpa using hlo b rfl
    · simp only [storeInsert, h1, if_false, storeWfFrom, Bool.and_eq_true, decide_eq_true_eq]
      refine ⟨hw.1, ih (some k') ?_ (fun p hp => hn p (by simp [hp])) hw.2⟩
      rintro b hb
      cases hb
      omega

/-- A store keeps the canonical form. -/
theorem storeWf_put (d : Nat → α) (l : Store α) (k : Nat) (v : α) (hw : storeWf d l = true) :
    storeWf d (storePut (d k) l k v) = true := by
  unfold storePut
  split
  · exact storeWfFrom_erase d none l k hw
  · rename_i h
    exact storeWfFrom_insert d none _ k v h (by simp) (fun p hp => ((mem_storeErase l k p).1 hp).2)
      (storeWfFrom_erase d none l k hw)

theorem storeWfFrom_filter (d : Nat → α) (lo : Option Nat) (l : Store α) (p : Nat × α → Bool)
    (hw : storeWfFrom d lo l = true) : storeWfFrom d lo (l.filter p) = true := by
  induction l generalizing lo with
  | nil => rfl
  | cons q l ih =>
    obtain ⟨k', v⟩ := q
    simp only [storeWfFrom, Bool.and_eq_true, decide_eq_true_eq] at hw
    by_cases h : p (k', v) = true
    · simp only [List.filter_cons, h, if_true, storeWfFrom, Bool.and_eq_true, decide_eq_true_eq]
      exact ⟨hw.1, ih _ hw.2⟩
    · simp only [List.filter_cons, h, Bool.false_eq_true, if_false]
      apply storeWfFrom_weaken d lo k'
      · rintro b rfl; simpa using hw.1.1
      · exact ih _ hw.2

end store

/-! Memory -/

/-- The canonical form survives the write of a byte. -/
theorem memPut_wf (m : List Host.Cell) (a : Nat) (b : Byte) (h : Memory.wf m = true) :
    Memory.wf (memPut m a b) = true := storeWf_put (fun _ => blankByte) m a b h

/-- The canonical form survives the write of a byte string. -/
theorem memWrite_wf (l : List Nat) (m : List Host.Cell) (a : Nat) (h : Memory.wf m = true) :
    Memory.wf (memWrite m a l) = true := by
  induction l generalizing m a with
  | nil => exact h
  | cons b l ih => exact ih _ _ (memPut_wf m a _ h)

/-- The canonical form survives the removal of entries. -/
theorem memFilter_wf (m : List Host.Cell) (p : Host.Cell → Bool) (h : Memory.wf m = true) :
    Memory.wf (m.filter p) = true := storeWfFrom_filter _ none m p h

/-- A byte written is a byte read. -/
theorem memByte_put_same (m : List Host.Cell) (a : Nat) (b : Byte) : memByte (memPut m a b) a = b :=
  storeGet_put_same _ _ _ _

/-- A byte write leaves the other bytes. -/
theorem memByte_put_ne (m : List Host.Cell) (a n : Nat) (b : Byte) (h : n ≠ a) :
    memByte (memPut m a b) n = memByte m n := storeGet_put_ne _ _ _ _ _ _ h

/-- A byte string's write leaves every byte outside it. -/
theorem memByte_write_out (l : List Nat) (m : List Host.Cell) (a n : Nat) (h : n < a ∨ a + l.length ≤ n) :
    memByte (memWrite m a l) n = memByte m n := by
  induction l generalizing m a with
  | nil => rfl
  | cons b l ih =>
    simp only [memWrite, List.length_cons] at h ⊢
    rw [ih _ _ (by omega), memByte_put_ne _ _ _ _ (by omega)]

/-- A byte string's write puts each of its bytes in place. -/
theorem memByte_write_in (l : List Nat) (m : List Host.Cell) (a k : Nat) (h : k < l.length) :
    memByte (memWrite m a l) (a + k) = BitVec.ofNat 8 (l.getD k 0) := by
  induction l generalizing m a k with
  | nil => simp at h
  | cons b l ih =>
    cases k with
    | zero =>
      simp only [memWrite, Nat.add_zero]
      rw [memByte_write_out _ _ _ _ (by omega), memByte_put_same]
      simp
    | succ k =>
      simp only [memWrite]
      have := ih (memPut m a (BitVec.ofNat 8 b)) (a + 1) k (by simpa using h)
      rw [show a + (k + 1) = a + 1 + k by omega, this]
      simp

end Sys2Proof.Machine
end

