-- ==== Sys2Proof/Laws/State.lean ====
section
/-! SUPPORT. What an update of one part of the state leaves of the others, one lemma per field and update, and how a register field reads
after a write. -/

namespace Sys2Proof.Machine

/-! `put` -/

@[simp] theorem State.put_img (s : State) (x : Fld) (v i j cp : Nat) : (s.put x v i j cp).img = s.img := rfl
@[simp] theorem State.put_fab (s : State) (x : Fld) (v i j cp : Nat) : (s.put x v i j cp).fab = s.fab := rfl
@[simp] theorem State.put_drw (s : State) (x : Fld) (v i j cp : Nat) : (s.put x v i j cp).drw = s.drw := rfl
@[simp] theorem State.put_recd (s : State) (x : Fld) (v i j cp : Nat) : (s.put x v i j cp).recd = s.recd := rfl
@[simp] theorem State.put_ztm (s : State) (x : Fld) (v i j cp : Nat) : (s.put x v i j cp).ztm = s.ztm := rfl
@[simp] theorem State.put_load (s : State) (x : Fld) (v i j cp : Nat) : (s.put x v i j cp).load = s.load := rfl
@[simp] theorem State.put_flt (s : State) (x : Fld) (v i j cp : Nat) : (s.put x v i j cp).flt = s.flt := rfl
@[simp] theorem State.put_pins (s : State) (x : Fld) (v i j cp : Nat) : (s.put x v i j cp).pins = s.pins := rfl
@[simp] theorem State.put_front (s : State) (x : Fld) (v i j cp : Nat) : (s.put x v i j cp).front = s.front := rfl
@[simp] theorem State.put_latchedRules (s : State) (x : Fld) (v i j cp : Nat) : (s.put x v i j cp).latchedRules = s.latchedRules := rfl
@[simp] theorem State.put_lth (s : State) (x : Fld) (v i j cp : Nat) : (s.put x v i j cp).lth = s.lth := rfl
@[simp] theorem State.put_canLthQ (s : State) (x : Fld) (v i j cp : Nat) : (s.put x v i j cp).canLthQ = s.canLthQ := rfl
@[simp] theorem State.put_can (s : State) (x : Fld) (v i j cp : Nat) : (s.put x v i j cp).can = s.can := rfl
@[simp] theorem State.put_emitted (s : State) (x : Fld) (v i j cp : Nat) : (s.put x v i j cp).emitted = s.emitted := rfl
@[simp] theorem State.put_mtr (s : State) (x : Fld) (v i j cp : Nat) : (s.put x v i j cp).mtr = s.mtr := rfl
@[simp] theorem State.put_ring (s : State) (x : Fld) (v i j cp : Nat) : (s.put x v i j cp).ring = s.ring := rfl
@[simp] theorem State.put_ringSig (s : State) (x : Fld) (v i j cp : Nat) : (s.put x v i j cp).ringSig = s.ringSig := rfl
@[simp] theorem State.put_seqs (s : State) (x : Fld) (v i j cp : Nat) : (s.put x v i j cp).seqs = s.seqs := rfl
@[simp] theorem State.put_iom (s : State) (x : Fld) (v i j cp : Nat) : (s.put x v i j cp).iom = s.iom := rfl
@[simp] theorem State.put_dvt (s : State) (x : Fld) (v i j cp : Nat) : (s.put x v i j cp).dvt = s.dvt := rfl
@[simp] theorem State.put_port (s : State) (x : Fld) (v i j cp : Nat) : (s.put x v i j cp).port = s.port := rfl
@[simp] theorem State.put_saKey (s : State) (x : Fld) (v i j cp : Nat) : (s.put x v i j cp).saKey = s.saKey := rfl
@[simp] theorem State.put_hart (s : State) (x : Fld) (v i j cp : Nat) : (s.put x v i j cp).hart = s.hart := rfl
@[simp] theorem State.put_wld (s : State) (x : Fld) (v i j cp : Nat) : (s.put x v i j cp).wld = s.wld := rfl
@[simp] theorem State.put_dwl (s : State) (x : Fld) (v i j cp : Nat) : (s.put x v i j cp).dwl = s.dwl := rfl
@[simp] theorem State.put_til (s : State) (x : Fld) (v i j cp : Nat) : (s.put x v i j cp).til = s.til := rfl
@[simp] theorem State.put_upd (s : State) (x : Fld) (v i j cp : Nat) : (s.put x v i j cp).upd = s.upd := rfl
@[simp] theorem State.put_start (s : State) (x : Fld) (v i j cp : Nat) : (s.put x v i j cp).start = s.start := rfl
@[simp] theorem State.put_resp (s : State) (x : Fld) (v i j cp : Nat) : (s.put x v i j cp).resp = s.resp := rfl
@[simp] theorem State.put_freeIx (s : State) (x : Fld) (v i j cp : Nat) : (s.put x v i j cp).freeIx = s.freeIx := rfl

/-! `store` -/

@[simp] theorem State.store_img (s : State) (r : RegId) (w i j cp : Nat) : (s.store r w i j cp).img = s.img := rfl
@[simp] theorem State.store_fab (s : State) (r : RegId) (w i j cp : Nat) : (s.store r w i j cp).fab = s.fab := rfl
@[simp] theorem State.store_drw (s : State) (r : RegId) (w i j cp : Nat) : (s.store r w i j cp).drw = s.drw := rfl
@[simp] theorem State.store_recd (s : State) (r : RegId) (w i j cp : Nat) : (s.store r w i j cp).recd = s.recd := rfl
@[simp] theorem State.store_ztm (s : State) (r : RegId) (w i j cp : Nat) : (s.store r w i j cp).ztm = s.ztm := rfl
@[simp] theorem State.store_load (s : State) (r : RegId) (w i j cp : Nat) : (s.store r w i j cp).load = s.load := rfl
@[simp] theorem State.store_flt (s : State) (r : RegId) (w i j cp : Nat) : (s.store r w i j cp).flt = s.flt := rfl
@[simp] theorem State.store_pins (s : State) (r : RegId) (w i j cp : Nat) : (s.store r w i j cp).pins = s.pins := rfl
@[simp] theorem State.store_front (s : State) (r : RegId) (w i j cp : Nat) : (s.store r w i j cp).front = s.front := rfl
@[simp] theorem State.store_latchedRules (s : State) (r : RegId) (w i j cp : Nat) : (s.store r w i j cp).latchedRules = s.latchedRules := rfl
@[simp] theorem State.store_lth (s : State) (r : RegId) (w i j cp : Nat) : (s.store r w i j cp).lth = s.lth := rfl
@[simp] theorem State.store_canLthQ (s : State) (r : RegId) (w i j cp : Nat) : (s.store r w i j cp).canLthQ = s.canLthQ := rfl
@[simp] theorem State.store_can (s : State) (r : RegId) (w i j cp : Nat) : (s.store r w i j cp).can = s.can := rfl
@[simp] theorem State.store_emitted (s : State) (r : RegId) (w i j cp : Nat) : (s.store r w i j cp).emitted = s.emitted := rfl
@[simp] theorem State.store_mtr (s : State) (r : RegId) (w i j cp : Nat) : (s.store r w i j cp).mtr = s.mtr := rfl
@[simp] theorem State.store_ring (s : State) (r : RegId) (w i j cp : Nat) : (s.store r w i j cp).ring = s.ring := rfl
@[simp] theorem State.store_ringSig (s : State) (r : RegId) (w i j cp : Nat) : (s.store r w i j cp).ringSig = s.ringSig := rfl
@[simp] theorem State.store_seqs (s : State) (r : RegId) (w i j cp : Nat) : (s.store r w i j cp).seqs = s.seqs := rfl
@[simp] theorem State.store_iom (s : State) (r : RegId) (w i j cp : Nat) : (s.store r w i j cp).iom = s.iom := rfl
@[simp] theorem State.store_dvt (s : State) (r : RegId) (w i j cp : Nat) : (s.store r w i j cp).dvt = s.dvt := rfl
@[simp] theorem State.store_port (s : State) (r : RegId) (w i j cp : Nat) : (s.store r w i j cp).port = s.port := rfl
@[simp] theorem State.store_saKey (s : State) (r : RegId) (w i j cp : Nat) : (s.store r w i j cp).saKey = s.saKey := rfl
@[simp] theorem State.store_hart (s : State) (r : RegId) (w i j cp : Nat) : (s.store r w i j cp).hart = s.hart := rfl
@[simp] theorem State.store_wld (s : State) (r : RegId) (w i j cp : Nat) : (s.store r w i j cp).wld = s.wld := rfl
@[simp] theorem State.store_dwl (s : State) (r : RegId) (w i j cp : Nat) : (s.store r w i j cp).dwl = s.dwl := rfl
@[simp] theorem State.store_til (s : State) (r : RegId) (w i j cp : Nat) : (s.store r w i j cp).til = s.til := rfl
@[simp] theorem State.store_upd (s : State) (r : RegId) (w i j cp : Nat) : (s.store r w i j cp).upd = s.upd := rfl
@[simp] theorem State.store_start (s : State) (r : RegId) (w i j cp : Nat) : (s.store r w i j cp).start = s.start := rfl
@[simp] theorem State.store_resp (s : State) (r : RegId) (w i j cp : Nat) : (s.store r w i j cp).resp = s.resp := rfl
@[simp] theorem State.store_freeIx (s : State) (r : RegId) (w i j cp : Nat) : (s.store r w i j cp).freeIx = s.freeIx := rfl

/-! `bump` -/

@[simp] theorem State.bump_img (s : State) (x : Fld) (n i j cp : Nat) : (s.bump x n i j cp).img = s.img := rfl
@[simp] theorem State.bump_fab (s : State) (x : Fld) (n i j cp : Nat) : (s.bump x n i j cp).fab = s.fab := rfl
@[simp] theorem State.bump_drw (s : State) (x : Fld) (n i j cp : Nat) : (s.bump x n i j cp).drw = s.drw := rfl
@[simp] theorem State.bump_recd (s : State) (x : Fld) (n i j cp : Nat) : (s.bump x n i j cp).recd = s.recd := rfl
@[simp] theorem State.bump_ztm (s : State) (x : Fld) (n i j cp : Nat) : (s.bump x n i j cp).ztm = s.ztm := rfl
@[simp] theorem State.bump_load (s : State) (x : Fld) (n i j cp : Nat) : (s.bump x n i j cp).load = s.load := rfl
@[simp] theorem State.bump_flt (s : State) (x : Fld) (n i j cp : Nat) : (s.bump x n i j cp).flt = s.flt := rfl
@[simp] theorem State.bump_pins (s : State) (x : Fld) (n i j cp : Nat) : (s.bump x n i j cp).pins = s.pins := rfl
@[simp] theorem State.bump_front (s : State) (x : Fld) (n i j cp : Nat) : (s.bump x n i j cp).front = s.front := rfl
@[simp] theorem State.bump_latchedRules (s : State) (x : Fld) (n i j cp : Nat) : (s.bump x n i j cp).latchedRules = s.latchedRules := rfl
@[simp] theorem State.bump_lth (s : State) (x : Fld) (n i j cp : Nat) : (s.bump x n i j cp).lth = s.lth := rfl
@[simp] theorem State.bump_canLthQ (s : State) (x : Fld) (n i j cp : Nat) : (s.bump x n i j cp).canLthQ = s.canLthQ := rfl
@[simp] theorem State.bump_can (s : State) (x : Fld) (n i j cp : Nat) : (s.bump x n i j cp).can = s.can := rfl
@[simp] theorem State.bump_emitted (s : State) (x : Fld) (n i j cp : Nat) : (s.bump x n i j cp).emitted = s.emitted := rfl
@[simp] theorem State.bump_mtr (s : State) (x : Fld) (n i j cp : Nat) : (s.bump x n i j cp).mtr = s.mtr := rfl
@[simp] theorem State.bump_ring (s : State) (x : Fld) (n i j cp : Nat) : (s.bump x n i j cp).ring = s.ring := rfl
@[simp] theorem State.bump_ringSig (s : State) (x : Fld) (n i j cp : Nat) : (s.bump x n i j cp).ringSig = s.ringSig := rfl
@[simp] theorem State.bump_seqs (s : State) (x : Fld) (n i j cp : Nat) : (s.bump x n i j cp).seqs = s.seqs := rfl
@[simp] theorem State.bump_iom (s : State) (x : Fld) (n i j cp : Nat) : (s.bump x n i j cp).iom = s.iom := rfl
@[simp] theorem State.bump_dvt (s : State) (x : Fld) (n i j cp : Nat) : (s.bump x n i j cp).dvt = s.dvt := rfl
@[simp] theorem State.bump_port (s : State) (x : Fld) (n i j cp : Nat) : (s.bump x n i j cp).port = s.port := rfl
@[simp] theorem State.bump_saKey (s : State) (x : Fld) (n i j cp : Nat) : (s.bump x n i j cp).saKey = s.saKey := rfl
@[simp] theorem State.bump_hart (s : State) (x : Fld) (n i j cp : Nat) : (s.bump x n i j cp).hart = s.hart := rfl
@[simp] theorem State.bump_wld (s : State) (x : Fld) (n i j cp : Nat) : (s.bump x n i j cp).wld = s.wld := rfl
@[simp] theorem State.bump_dwl (s : State) (x : Fld) (n i j cp : Nat) : (s.bump x n i j cp).dwl = s.dwl := rfl
@[simp] theorem State.bump_til (s : State) (x : Fld) (n i j cp : Nat) : (s.bump x n i j cp).til = s.til := rfl
@[simp] theorem State.bump_upd (s : State) (x : Fld) (n i j cp : Nat) : (s.bump x n i j cp).upd = s.upd := rfl
@[simp] theorem State.bump_start (s : State) (x : Fld) (n i j cp : Nat) : (s.bump x n i j cp).start = s.start := rfl
@[simp] theorem State.bump_resp (s : State) (x : Fld) (n i j cp : Nat) : (s.bump x n i j cp).resp = s.resp := rfl
@[simp] theorem State.bump_freeIx (s : State) (x : Fld) (n i j cp : Nat) : (s.bump x n i j cp).freeIx = s.freeIx := rfl

/-! `incr` -/

@[simp] theorem State.incr_img (s : State) (x : Fld) (i j cp : Nat) : (s.incr x i j cp).img = s.img := rfl
@[simp] theorem State.incr_fab (s : State) (x : Fld) (i j cp : Nat) : (s.incr x i j cp).fab = s.fab := rfl
@[simp] theorem State.incr_drw (s : State) (x : Fld) (i j cp : Nat) : (s.incr x i j cp).drw = s.drw := rfl
@[simp] theorem State.incr_recd (s : State) (x : Fld) (i j cp : Nat) : (s.incr x i j cp).recd = s.recd := rfl
@[simp] theorem State.incr_ztm (s : State) (x : Fld) (i j cp : Nat) : (s.incr x i j cp).ztm = s.ztm := rfl
@[simp] theorem State.incr_load (s : State) (x : Fld) (i j cp : Nat) : (s.incr x i j cp).load = s.load := rfl
@[simp] theorem State.incr_flt (s : State) (x : Fld) (i j cp : Nat) : (s.incr x i j cp).flt = s.flt := rfl
@[simp] theorem State.incr_pins (s : State) (x : Fld) (i j cp : Nat) : (s.incr x i j cp).pins = s.pins := rfl
@[simp] theorem State.incr_front (s : State) (x : Fld) (i j cp : Nat) : (s.incr x i j cp).front = s.front := rfl
@[simp] theorem State.incr_latchedRules (s : State) (x : Fld) (i j cp : Nat) : (s.incr x i j cp).latchedRules = s.latchedRules := rfl
@[simp] theorem State.incr_lth (s : State) (x : Fld) (i j cp : Nat) : (s.incr x i j cp).lth = s.lth := rfl
@[simp] theorem State.incr_canLthQ (s : State) (x : Fld) (i j cp : Nat) : (s.incr x i j cp).canLthQ = s.canLthQ := rfl
@[simp] theorem State.incr_can (s : State) (x : Fld) (i j cp : Nat) : (s.incr x i j cp).can = s.can := rfl
@[simp] theorem State.incr_emitted (s : State) (x : Fld) (i j cp : Nat) : (s.incr x i j cp).emitted = s.emitted := rfl
@[simp] theorem State.incr_mtr (s : State) (x : Fld) (i j cp : Nat) : (s.incr x i j cp).mtr = s.mtr := rfl
@[simp] theorem State.incr_ring (s : State) (x : Fld) (i j cp : Nat) : (s.incr x i j cp).ring = s.ring := rfl
@[simp] theorem State.incr_ringSig (s : State) (x : Fld) (i j cp : Nat) : (s.incr x i j cp).ringSig = s.ringSig := rfl
@[simp] theorem State.incr_seqs (s : State) (x : Fld) (i j cp : Nat) : (s.incr x i j cp).seqs = s.seqs := rfl
@[simp] theorem State.incr_iom (s : State) (x : Fld) (i j cp : Nat) : (s.incr x i j cp).iom = s.iom := rfl
@[simp] theorem State.incr_dvt (s : State) (x : Fld) (i j cp : Nat) : (s.incr x i j cp).dvt = s.dvt := rfl
@[simp] theorem State.incr_port (s : State) (x : Fld) (i j cp : Nat) : (s.incr x i j cp).port = s.port := rfl
@[simp] theorem State.incr_saKey (s : State) (x : Fld) (i j cp : Nat) : (s.incr x i j cp).saKey = s.saKey := rfl
@[simp] theorem State.incr_hart (s : State) (x : Fld) (i j cp : Nat) : (s.incr x i j cp).hart = s.hart := rfl
@[simp] theorem State.incr_wld (s : State) (x : Fld) (i j cp : Nat) : (s.incr x i j cp).wld = s.wld := rfl
@[simp] theorem State.incr_dwl (s : State) (x : Fld) (i j cp : Nat) : (s.incr x i j cp).dwl = s.dwl := rfl
@[simp] theorem State.incr_til (s : State) (x : Fld) (i j cp : Nat) : (s.incr x i j cp).til = s.til := rfl
@[simp] theorem State.incr_upd (s : State) (x : Fld) (i j cp : Nat) : (s.incr x i j cp).upd = s.upd := rfl
@[simp] theorem State.incr_start (s : State) (x : Fld) (i j cp : Nat) : (s.incr x i j cp).start = s.start := rfl
@[simp] theorem State.incr_resp (s : State) (x : Fld) (i j cp : Nat) : (s.incr x i j cp).resp = s.resp := rfl
@[simp] theorem State.incr_freeIx (s : State) (x : Fld) (i j cp : Nat) : (s.incr x i j cp).freeIx = s.freeIx := rfl

/-! `answer` -/

@[simp] theorem State.answer_regs (s : State) (ok : Bool) (d : Nat) : (s.answer ok d).regs = s.regs := rfl
@[simp] theorem State.answer_img (s : State) (ok : Bool) (d : Nat) : (s.answer ok d).img = s.img := rfl
@[simp] theorem State.answer_fab (s : State) (ok : Bool) (d : Nat) : (s.answer ok d).fab = s.fab := rfl
@[simp] theorem State.answer_drw (s : State) (ok : Bool) (d : Nat) : (s.answer ok d).drw = s.drw := rfl
@[simp] theorem State.answer_recd (s : State) (ok : Bool) (d : Nat) : (s.answer ok d).recd = s.recd := rfl
@[simp] theorem State.answer_ztm (s : State) (ok : Bool) (d : Nat) : (s.answer ok d).ztm = s.ztm := rfl
@[simp] theorem State.answer_load (s : State) (ok : Bool) (d : Nat) : (s.answer ok d).load = s.load := rfl
@[simp] theorem State.answer_flt (s : State) (ok : Bool) (d : Nat) : (s.answer ok d).flt = s.flt := rfl
@[simp] theorem State.answer_pins (s : State) (ok : Bool) (d : Nat) : (s.answer ok d).pins = s.pins := rfl
@[simp] theorem State.answer_front (s : State) (ok : Bool) (d : Nat) : (s.answer ok d).front = s.front := rfl
@[simp] theorem State.answer_latchedRules (s : State) (ok : Bool) (d : Nat) : (s.answer ok d).latchedRules = s.latchedRules := rfl
@[simp] theorem State.answer_lth (s : State) (ok : Bool) (d : Nat) : (s.answer ok d).lth = s.lth := rfl
@[simp] theorem State.answer_canLthQ (s : State) (ok : Bool) (d : Nat) : (s.answer ok d).canLthQ = s.canLthQ := rfl
@[simp] theorem State.answer_can (s : State) (ok : Bool) (d : Nat) : (s.answer ok d).can = s.can := rfl
@[simp] theorem State.answer_emitted (s : State) (ok : Bool) (d : Nat) : (s.answer ok d).emitted = s.emitted := rfl
@[simp] theorem State.answer_mtr (s : State) (ok : Bool) (d : Nat) : (s.answer ok d).mtr = s.mtr := rfl
@[simp] theorem State.answer_ring (s : State) (ok : Bool) (d : Nat) : (s.answer ok d).ring = s.ring := rfl
@[simp] theorem State.answer_ringSig (s : State) (ok : Bool) (d : Nat) : (s.answer ok d).ringSig = s.ringSig := rfl
@[simp] theorem State.answer_seqs (s : State) (ok : Bool) (d : Nat) : (s.answer ok d).seqs = s.seqs := rfl
@[simp] theorem State.answer_iom (s : State) (ok : Bool) (d : Nat) : (s.answer ok d).iom = s.iom := rfl
@[simp] theorem State.answer_dvt (s : State) (ok : Bool) (d : Nat) : (s.answer ok d).dvt = s.dvt := rfl
@[simp] theorem State.answer_port (s : State) (ok : Bool) (d : Nat) : (s.answer ok d).port = s.port := rfl
@[simp] theorem State.answer_saKey (s : State) (ok : Bool) (d : Nat) : (s.answer ok d).saKey = s.saKey := rfl
@[simp] theorem State.answer_hart (s : State) (ok : Bool) (d : Nat) : (s.answer ok d).hart = s.hart := rfl
@[simp] theorem State.answer_wld (s : State) (ok : Bool) (d : Nat) : (s.answer ok d).wld = s.wld := rfl
@[simp] theorem State.answer_dwl (s : State) (ok : Bool) (d : Nat) : (s.answer ok d).dwl = s.dwl := rfl
@[simp] theorem State.answer_til (s : State) (ok : Bool) (d : Nat) : (s.answer ok d).til = s.til := rfl
@[simp] theorem State.answer_upd (s : State) (ok : Bool) (d : Nat) : (s.answer ok d).upd = s.upd := rfl
@[simp] theorem State.answer_start (s : State) (ok : Bool) (d : Nat) : (s.answer ok d).start = s.start := rfl
@[simp] theorem State.answer_freeIx (s : State) (ok : Bool) (d : Nat) : (s.answer ok d).freeIx = s.freeIx := rfl

/-! `memStore` -/

@[simp] theorem State.memStore_regs (s : State) (a : Nat) (l : List Nat) : (s.memStore a l).regs = s.regs := rfl
@[simp] theorem State.memStore_img (s : State) (a : Nat) (l : List Nat) : (s.memStore a l).img = s.img := rfl
@[simp] theorem State.memStore_fab (s : State) (a : Nat) (l : List Nat) : (s.memStore a l).fab = s.fab := rfl
@[simp] theorem State.memStore_drw (s : State) (a : Nat) (l : List Nat) : (s.memStore a l).drw = s.drw := rfl
@[simp] theorem State.memStore_recd (s : State) (a : Nat) (l : List Nat) : (s.memStore a l).recd = s.recd := rfl
@[simp] theorem State.memStore_ztm (s : State) (a : Nat) (l : List Nat) : (s.memStore a l).ztm = s.ztm := rfl
@[simp] theorem State.memStore_load (s : State) (a : Nat) (l : List Nat) : (s.memStore a l).load = s.load := rfl
@[simp] theorem State.memStore_flt (s : State) (a : Nat) (l : List Nat) : (s.memStore a l).flt = s.flt := rfl
@[simp] theorem State.memStore_pins (s : State) (a : Nat) (l : List Nat) : (s.memStore a l).pins = s.pins := rfl
@[simp] theorem State.memStore_front (s : State) (a : Nat) (l : List Nat) : (s.memStore a l).front = s.front := rfl
@[simp] theorem State.memStore_latchedRules (s : State) (a : Nat) (l : List Nat) : (s.memStore a l).latchedRules = s.latchedRules := rfl
@[simp] theorem State.memStore_lth (s : State) (a : Nat) (l : List Nat) : (s.memStore a l).lth = s.lth := rfl
@[simp] theorem State.memStore_canLthQ (s : State) (a : Nat) (l : List Nat) : (s.memStore a l).canLthQ = s.canLthQ := rfl
@[simp] theorem State.memStore_can (s : State) (a : Nat) (l : List Nat) : (s.memStore a l).can = s.can := rfl
@[simp] theorem State.memStore_emitted (s : State) (a : Nat) (l : List Nat) : (s.memStore a l).emitted = s.emitted := rfl
@[simp] theorem State.memStore_mtr (s : State) (a : Nat) (l : List Nat) : (s.memStore a l).mtr = s.mtr := rfl
@[simp] theorem State.memStore_ring (s : State) (a : Nat) (l : List Nat) : (s.memStore a l).ring = s.ring := rfl
@[simp] theorem State.memStore_ringSig (s : State) (a : Nat) (l : List Nat) : (s.memStore a l).ringSig = s.ringSig := rfl
@[simp] theorem State.memStore_seqs (s : State) (a : Nat) (l : List Nat) : (s.memStore a l).seqs = s.seqs := rfl
@[simp] theorem State.memStore_iom (s : State) (a : Nat) (l : List Nat) : (s.memStore a l).iom = s.iom := rfl
@[simp] theorem State.memStore_dvt (s : State) (a : Nat) (l : List Nat) : (s.memStore a l).dvt = s.dvt := rfl
@[simp] theorem State.memStore_port (s : State) (a : Nat) (l : List Nat) : (s.memStore a l).port = s.port := rfl
@[simp] theorem State.memStore_saKey (s : State) (a : Nat) (l : List Nat) : (s.memStore a l).saKey = s.saKey := rfl
@[simp] theorem State.memStore_hart (s : State) (a : Nat) (l : List Nat) : (s.memStore a l).hart = s.hart := rfl
@[simp] theorem State.memStore_wld (s : State) (a : Nat) (l : List Nat) : (s.memStore a l).wld = s.wld := rfl
@[simp] theorem State.memStore_dwl (s : State) (a : Nat) (l : List Nat) : (s.memStore a l).dwl = s.dwl := rfl
@[simp] theorem State.memStore_til (s : State) (a : Nat) (l : List Nat) : (s.memStore a l).til = s.til := rfl
@[simp] theorem State.memStore_upd (s : State) (a : Nat) (l : List Nat) : (s.memStore a l).upd = s.upd := rfl
@[simp] theorem State.memStore_start (s : State) (a : Nat) (l : List Nat) : (s.memStore a l).start = s.start := rfl
@[simp] theorem State.memStore_resp (s : State) (a : Nat) (l : List Nat) : (s.memStore a l).resp = s.resp := rfl
@[simp] theorem State.memStore_freeIx (s : State) (a : Nat) (l : List Nat) : (s.memStore a l).freeIx = s.freeIx := rfl

/-! `putTk` -/

@[simp] theorem State.putTk_regs (s : State) (k : Nat) (x : TaskSt) : (s.putTk k x).regs = s.regs := rfl
@[simp] theorem State.putTk_img (s : State) (k : Nat) (x : TaskSt) : (s.putTk k x).img = s.img := rfl
@[simp] theorem State.putTk_fab (s : State) (k : Nat) (x : TaskSt) : (s.putTk k x).fab = s.fab := rfl
@[simp] theorem State.putTk_drw (s : State) (k : Nat) (x : TaskSt) : (s.putTk k x).drw = s.drw := rfl
@[simp] theorem State.putTk_recd (s : State) (k : Nat) (x : TaskSt) : (s.putTk k x).recd = s.recd := rfl
@[simp] theorem State.putTk_ztm (s : State) (k : Nat) (x : TaskSt) : (s.putTk k x).ztm = s.ztm := rfl
@[simp] theorem State.putTk_load (s : State) (k : Nat) (x : TaskSt) : (s.putTk k x).load = s.load := rfl
@[simp] theorem State.putTk_flt (s : State) (k : Nat) (x : TaskSt) : (s.putTk k x).flt = s.flt := rfl
@[simp] theorem State.putTk_pins (s : State) (k : Nat) (x : TaskSt) : (s.putTk k x).pins = s.pins := rfl
@[simp] theorem State.putTk_front (s : State) (k : Nat) (x : TaskSt) : (s.putTk k x).front = s.front := rfl
@[simp] theorem State.putTk_latchedRules (s : State) (k : Nat) (x : TaskSt) : (s.putTk k x).latchedRules = s.latchedRules := rfl
@[simp] theorem State.putTk_canLthQ (s : State) (k : Nat) (x : TaskSt) : (s.putTk k x).canLthQ = s.canLthQ := rfl
@[simp] theorem State.putTk_can (s : State) (k : Nat) (x : TaskSt) : (s.putTk k x).can = s.can := rfl
@[simp] theorem State.putTk_emitted (s : State) (k : Nat) (x : TaskSt) : (s.putTk k x).emitted = s.emitted := rfl
@[simp] theorem State.putTk_mtr (s : State) (k : Nat) (x : TaskSt) : (s.putTk k x).mtr = s.mtr := rfl
@[simp] theorem State.putTk_ring (s : State) (k : Nat) (x : TaskSt) : (s.putTk k x).ring = s.ring := rfl
@[simp] theorem State.putTk_ringSig (s : State) (k : Nat) (x : TaskSt) : (s.putTk k x).ringSig = s.ringSig := rfl
@[simp] theorem State.putTk_seqs (s : State) (k : Nat) (x : TaskSt) : (s.putTk k x).seqs = s.seqs := rfl
@[simp] theorem State.putTk_iom (s : State) (k : Nat) (x : TaskSt) : (s.putTk k x).iom = s.iom := rfl
@[simp] theorem State.putTk_dvt (s : State) (k : Nat) (x : TaskSt) : (s.putTk k x).dvt = s.dvt := rfl
@[simp] theorem State.putTk_port (s : State) (k : Nat) (x : TaskSt) : (s.putTk k x).port = s.port := rfl
@[simp] theorem State.putTk_saKey (s : State) (k : Nat) (x : TaskSt) : (s.putTk k x).saKey = s.saKey := rfl
@[simp] theorem State.putTk_hart (s : State) (k : Nat) (x : TaskSt) : (s.putTk k x).hart = s.hart := rfl
@[simp] theorem State.putTk_wld (s : State) (k : Nat) (x : TaskSt) : (s.putTk k x).wld = s.wld := rfl
@[simp] theorem State.putTk_dwl (s : State) (k : Nat) (x : TaskSt) : (s.putTk k x).dwl = s.dwl := rfl
@[simp] theorem State.putTk_til (s : State) (k : Nat) (x : TaskSt) : (s.putTk k x).til = s.til := rfl
@[simp] theorem State.putTk_upd (s : State) (k : Nat) (x : TaskSt) : (s.putTk k x).upd = s.upd := rfl
@[simp] theorem State.putTk_start (s : State) (k : Nat) (x : TaskSt) : (s.putTk k x).start = s.start := rfl
@[simp] theorem State.putTk_resp (s : State) (k : Nat) (x : TaskSt) : (s.putTk k x).resp = s.resp := rfl
@[simp] theorem State.putTk_freeIx (s : State) (k : Nat) (x : TaskSt) : (s.putTk k x).freeIx = s.freeIx := rfl

/-! `putLc` -/

@[simp] theorem State.putLc_regs (s : State) (c : Nat) (x : LoadCh) : (s.putLc c x).regs = s.regs := rfl
@[simp] theorem State.putLc_img (s : State) (c : Nat) (x : LoadCh) : (s.putLc c x).img = s.img := rfl
@[simp] theorem State.putLc_fab (s : State) (c : Nat) (x : LoadCh) : (s.putLc c x).fab = s.fab := rfl
@[simp] theorem State.putLc_drw (s : State) (c : Nat) (x : LoadCh) : (s.putLc c x).drw = s.drw := rfl
@[simp] theorem State.putLc_recd (s : State) (c : Nat) (x : LoadCh) : (s.putLc c x).recd = s.recd := rfl
@[simp] theorem State.putLc_ztm (s : State) (c : Nat) (x : LoadCh) : (s.putLc c x).ztm = s.ztm := rfl
@[simp] theorem State.putLc_flt (s : State) (c : Nat) (x : LoadCh) : (s.putLc c x).flt = s.flt := rfl
@[simp] theorem State.putLc_pins (s : State) (c : Nat) (x : LoadCh) : (s.putLc c x).pins = s.pins := rfl
@[simp] theorem State.putLc_front (s : State) (c : Nat) (x : LoadCh) : (s.putLc c x).front = s.front := rfl
@[simp] theorem State.putLc_latchedRules (s : State) (c : Nat) (x : LoadCh) : (s.putLc c x).latchedRules = s.latchedRules := rfl
@[simp] theorem State.putLc_lth (s : State) (c : Nat) (x : LoadCh) : (s.putLc c x).lth = s.lth := rfl
@[simp] theorem State.putLc_canLthQ (s : State) (c : Nat) (x : LoadCh) : (s.putLc c x).canLthQ = s.canLthQ := rfl
@[simp] theorem State.putLc_can (s : State) (c : Nat) (x : LoadCh) : (s.putLc c x).can = s.can := rfl
@[simp] theorem State.putLc_emitted (s : State) (c : Nat) (x : LoadCh) : (s.putLc c x).emitted = s.emitted := rfl
@[simp] theorem State.putLc_mtr (s : State) (c : Nat) (x : LoadCh) : (s.putLc c x).mtr = s.mtr := rfl
@[simp] theorem State.putLc_ring (s : State) (c : Nat) (x : LoadCh) : (s.putLc c x).ring = s.ring := rfl
@[simp] theorem State.putLc_ringSig (s : State) (c : Nat) (x : LoadCh) : (s.putLc c x).ringSig = s.ringSig := rfl
@[simp] theorem State.putLc_seqs (s : State) (c : Nat) (x : LoadCh) : (s.putLc c x).seqs = s.seqs := rfl
@[simp] theorem State.putLc_iom (s : State) (c : Nat) (x : LoadCh) : (s.putLc c x).iom = s.iom := rfl
@[simp] theorem State.putLc_dvt (s : State) (c : Nat) (x : LoadCh) : (s.putLc c x).dvt = s.dvt := rfl
@[simp] theorem State.putLc_port (s : State) (c : Nat) (x : LoadCh) : (s.putLc c x).port = s.port := rfl
@[simp] theorem State.putLc_saKey (s : State) (c : Nat) (x : LoadCh) : (s.putLc c x).saKey = s.saKey := rfl
@[simp] theorem State.putLc_hart (s : State) (c : Nat) (x : LoadCh) : (s.putLc c x).hart = s.hart := rfl
@[simp] theorem State.putLc_wld (s : State) (c : Nat) (x : LoadCh) : (s.putLc c x).wld = s.wld := rfl
@[simp] theorem State.putLc_dwl (s : State) (c : Nat) (x : LoadCh) : (s.putLc c x).dwl = s.dwl := rfl
@[simp] theorem State.putLc_til (s : State) (c : Nat) (x : LoadCh) : (s.putLc c x).til = s.til := rfl
@[simp] theorem State.putLc_upd (s : State) (c : Nat) (x : LoadCh) : (s.putLc c x).upd = s.upd := rfl
@[simp] theorem State.putLc_start (s : State) (c : Nat) (x : LoadCh) : (s.putLc c x).start = s.start := rfl
@[simp] theorem State.putLc_resp (s : State) (c : Nat) (x : LoadCh) : (s.putLc c x).resp = s.resp := rfl
@[simp] theorem State.putLc_freeIx (s : State) (c : Nat) (x : LoadCh) : (s.putLc c x).freeIx = s.freeIx := rfl

/-! `putHt` -/

@[simp] theorem State.putHt_regs (s : State) (h : Nat) (x : HartSt) : (s.putHt h x).regs = s.regs := rfl
@[simp] theorem State.putHt_img (s : State) (h : Nat) (x : HartSt) : (s.putHt h x).img = s.img := rfl
@[simp] theorem State.putHt_fab (s : State) (h : Nat) (x : HartSt) : (s.putHt h x).fab = s.fab := rfl
@[simp] theorem State.putHt_drw (s : State) (h : Nat) (x : HartSt) : (s.putHt h x).drw = s.drw := rfl
@[simp] theorem State.putHt_recd (s : State) (h : Nat) (x : HartSt) : (s.putHt h x).recd = s.recd := rfl
@[simp] theorem State.putHt_ztm (s : State) (h : Nat) (x : HartSt) : (s.putHt h x).ztm = s.ztm := rfl
@[simp] theorem State.putHt_load (s : State) (h : Nat) (x : HartSt) : (s.putHt h x).load = s.load := rfl
@[simp] theorem State.putHt_flt (s : State) (h : Nat) (x : HartSt) : (s.putHt h x).flt = s.flt := rfl
@[simp] theorem State.putHt_pins (s : State) (h : Nat) (x : HartSt) : (s.putHt h x).pins = s.pins := rfl
@[simp] theorem State.putHt_front (s : State) (h : Nat) (x : HartSt) : (s.putHt h x).front = s.front := rfl
@[simp] theorem State.putHt_latchedRules (s : State) (h : Nat) (x : HartSt) : (s.putHt h x).latchedRules = s.latchedRules := rfl
@[simp] theorem State.putHt_lth (s : State) (h : Nat) (x : HartSt) : (s.putHt h x).lth = s.lth := rfl
@[simp] theorem State.putHt_canLthQ (s : State) (h : Nat) (x : HartSt) : (s.putHt h x).canLthQ = s.canLthQ := rfl
@[simp] theorem State.putHt_can (s : State) (h : Nat) (x : HartSt) : (s.putHt h x).can = s.can := rfl
@[simp] theorem State.putHt_emitted (s : State) (h : Nat) (x : HartSt) : (s.putHt h x).emitted = s.emitted := rfl
@[simp] theorem State.putHt_mtr (s : State) (h : Nat) (x : HartSt) : (s.putHt h x).mtr = s.mtr := rfl
@[simp] theorem State.putHt_ring (s : State) (h : Nat) (x : HartSt) : (s.putHt h x).ring = s.ring := rfl
@[simp] theorem State.putHt_ringSig (s : State) (h : Nat) (x : HartSt) : (s.putHt h x).ringSig = s.ringSig := rfl
@[simp] theorem State.putHt_seqs (s : State) (h : Nat) (x : HartSt) : (s.putHt h x).seqs = s.seqs := rfl
@[simp] theorem State.putHt_iom (s : State) (h : Nat) (x : HartSt) : (s.putHt h x).iom = s.iom := rfl
@[simp] theorem State.putHt_dvt (s : State) (h : Nat) (x : HartSt) : (s.putHt h x).dvt = s.dvt := rfl
@[simp] theorem State.putHt_port (s : State) (h : Nat) (x : HartSt) : (s.putHt h x).port = s.port := rfl
@[simp] theorem State.putHt_saKey (s : State) (h : Nat) (x : HartSt) : (s.putHt h x).saKey = s.saKey := rfl
@[simp] theorem State.putHt_wld (s : State) (h : Nat) (x : HartSt) : (s.putHt h x).wld = s.wld := rfl
@[simp] theorem State.putHt_dwl (s : State) (h : Nat) (x : HartSt) : (s.putHt h x).dwl = s.dwl := rfl
@[simp] theorem State.putHt_til (s : State) (h : Nat) (x : HartSt) : (s.putHt h x).til = s.til := rfl
@[simp] theorem State.putHt_upd (s : State) (h : Nat) (x : HartSt) : (s.putHt h x).upd = s.upd := rfl
@[simp] theorem State.putHt_start (s : State) (h : Nat) (x : HartSt) : (s.putHt h x).start = s.start := rfl
@[simp] theorem State.putHt_resp (s : State) (h : Nat) (x : HartSt) : (s.putHt h x).resp = s.resp := rfl
@[simp] theorem State.putHt_freeIx (s : State) (h : Nat) (x : HartSt) : (s.putHt h x).freeIx = s.freeIx := rfl

/-! `putRg` -/

@[simp] theorem State.putRg_regs (s : State) (r : Nat) (x : RingSt) : (s.putRg r x).regs = s.regs := rfl
@[simp] theorem State.putRg_img (s : State) (r : Nat) (x : RingSt) : (s.putRg r x).img = s.img := rfl
@[simp] theorem State.putRg_fab (s : State) (r : Nat) (x : RingSt) : (s.putRg r x).fab = s.fab := rfl
@[simp] theorem State.putRg_drw (s : State) (r : Nat) (x : RingSt) : (s.putRg r x).drw = s.drw := rfl
@[simp] theorem State.putRg_recd (s : State) (r : Nat) (x : RingSt) : (s.putRg r x).recd = s.recd := rfl
@[simp] theorem State.putRg_ztm (s : State) (r : Nat) (x : RingSt) : (s.putRg r x).ztm = s.ztm := rfl
@[simp] theorem State.putRg_load (s : State) (r : Nat) (x : RingSt) : (s.putRg r x).load = s.load := rfl
@[simp] theorem State.putRg_flt (s : State) (r : Nat) (x : RingSt) : (s.putRg r x).flt = s.flt := rfl
@[simp] theorem State.putRg_pins (s : State) (r : Nat) (x : RingSt) : (s.putRg r x).pins = s.pins := rfl
@[simp] theorem State.putRg_front (s : State) (r : Nat) (x : RingSt) : (s.putRg r x).front = s.front := rfl
@[simp] theorem State.putRg_latchedRules (s : State) (r : Nat) (x : RingSt) : (s.putRg r x).latchedRules = s.latchedRules := rfl
@[simp] theorem State.putRg_lth (s : State) (r : Nat) (x : RingSt) : (s.putRg r x).lth = s.lth := rfl
@[simp] theorem State.putRg_canLthQ (s : State) (r : Nat) (x : RingSt) : (s.putRg r x).canLthQ = s.canLthQ := rfl
@[simp] theorem State.putRg_can (s : State) (r : Nat) (x : RingSt) : (s.putRg r x).can = s.can := rfl
@[simp] theorem State.putRg_emitted (s : State) (r : Nat) (x : RingSt) : (s.putRg r x).emitted = s.emitted := rfl
@[simp] theorem State.putRg_mtr (s : State) (r : Nat) (x : RingSt) : (s.putRg r x).mtr = s.mtr := rfl
@[simp] theorem State.putRg_ringSig (s : State) (r : Nat) (x : RingSt) : (s.putRg r x).ringSig = s.ringSig := rfl
@[simp] theorem State.putRg_seqs (s : State) (r : Nat) (x : RingSt) : (s.putRg r x).seqs = s.seqs := rfl
@[simp] theorem State.putRg_iom (s : State) (r : Nat) (x : RingSt) : (s.putRg r x).iom = s.iom := rfl
@[simp] theorem State.putRg_dvt (s : State) (r : Nat) (x : RingSt) : (s.putRg r x).dvt = s.dvt := rfl
@[simp] theorem State.putRg_port (s : State) (r : Nat) (x : RingSt) : (s.putRg r x).port = s.port := rfl
@[simp] theorem State.putRg_saKey (s : State) (r : Nat) (x : RingSt) : (s.putRg r x).saKey = s.saKey := rfl
@[simp] theorem State.putRg_hart (s : State) (r : Nat) (x : RingSt) : (s.putRg r x).hart = s.hart := rfl
@[simp] theorem State.putRg_wld (s : State) (r : Nat) (x : RingSt) : (s.putRg r x).wld = s.wld := rfl
@[simp] theorem State.putRg_dwl (s : State) (r : Nat) (x : RingSt) : (s.putRg r x).dwl = s.dwl := rfl
@[simp] theorem State.putRg_til (s : State) (r : Nat) (x : RingSt) : (s.putRg r x).til = s.til := rfl
@[simp] theorem State.putRg_upd (s : State) (r : Nat) (x : RingSt) : (s.putRg r x).upd = s.upd := rfl
@[simp] theorem State.putRg_start (s : State) (r : Nat) (x : RingSt) : (s.putRg r x).start = s.start := rfl
@[simp] theorem State.putRg_resp (s : State) (r : Nat) (x : RingSt) : (s.putRg r x).resp = s.resp := rfl
@[simp] theorem State.putRg_freeIx (s : State) (r : Nat) (x : RingSt) : (s.putRg r x).freeIx = s.freeIx := rfl

/-! `sample` -/

@[simp] theorem State.sample_regs (s : State) (k i v : Nat) : (s.sample k i v).regs = s.regs := rfl
@[simp] theorem State.sample_img (s : State) (k i v : Nat) : (s.sample k i v).img = s.img := rfl
@[simp] theorem State.sample_fab (s : State) (k i v : Nat) : (s.sample k i v).fab = s.fab := rfl
@[simp] theorem State.sample_drw (s : State) (k i v : Nat) : (s.sample k i v).drw = s.drw := rfl
@[simp] theorem State.sample_ztm (s : State) (k i v : Nat) : (s.sample k i v).ztm = s.ztm := rfl
@[simp] theorem State.sample_load (s : State) (k i v : Nat) : (s.sample k i v).load = s.load := rfl
@[simp] theorem State.sample_flt (s : State) (k i v : Nat) : (s.sample k i v).flt = s.flt := rfl
@[simp] theorem State.sample_pins (s : State) (k i v : Nat) : (s.sample k i v).pins = s.pins := rfl
@[simp] theorem State.sample_front (s : State) (k i v : Nat) : (s.sample k i v).front = s.front := rfl
@[simp] theorem State.sample_latchedRules (s : State) (k i v : Nat) : (s.sample k i v).latchedRules = s.latchedRules := rfl
@[simp] theorem State.sample_lth (s : State) (k i v : Nat) : (s.sample k i v).lth = s.lth := rfl
@[simp] theorem State.sample_canLthQ (s : State) (k i v : Nat) : (s.sample k i v).canLthQ = s.canLthQ := rfl
@[simp] theorem State.sample_can (s : State) (k i v : Nat) : (s.sample k i v).can = s.can := rfl
@[simp] theorem State.sample_emitted (s : State) (k i v : Nat) : (s.sample k i v).emitted = s.emitted := rfl
@[simp] theorem State.sample_mtr (s : State) (k i v : Nat) : (s.sample k i v).mtr = s.mtr := rfl
@[simp] theorem State.sample_ring (s : State) (k i v : Nat) : (s.sample k i v).ring = s.ring := rfl
@[simp] theorem State.sample_ringSig (s : State) (k i v : Nat) : (s.sample k i v).ringSig = s.ringSig := rfl
@[simp] theorem State.sample_seqs (s : State) (k i v : Nat) : (s.sample k i v).seqs = s.seqs := rfl
@[simp] theorem State.sample_iom (s : State) (k i v : Nat) : (s.sample k i v).iom = s.iom := rfl
@[simp] theorem State.sample_dvt (s : State) (k i v : Nat) : (s.sample k i v).dvt = s.dvt := rfl
@[simp] theorem State.sample_port (s : State) (k i v : Nat) : (s.sample k i v).port = s.port := rfl
@[simp] theorem State.sample_saKey (s : State) (k i v : Nat) : (s.sample k i v).saKey = s.saKey := rfl
@[simp] theorem State.sample_hart (s : State) (k i v : Nat) : (s.sample k i v).hart = s.hart := rfl
@[simp] theorem State.sample_wld (s : State) (k i v : Nat) : (s.sample k i v).wld = s.wld := rfl
@[simp] theorem State.sample_dwl (s : State) (k i v : Nat) : (s.sample k i v).dwl = s.dwl := rfl
@[simp] theorem State.sample_til (s : State) (k i v : Nat) : (s.sample k i v).til = s.til := rfl
@[simp] theorem State.sample_upd (s : State) (k i v : Nat) : (s.sample k i v).upd = s.upd := rfl
@[simp] theorem State.sample_start (s : State) (k i v : Nat) : (s.sample k i v).start = s.start := rfl
@[simp] theorem State.sample_resp (s : State) (k i v : Nat) : (s.sample k i v).resp = s.resp := rfl
@[simp] theorem State.sample_freeIx (s : State) (k i v : Nat) : (s.sample k i v).freeIx = s.freeIx := rfl

/-! Register fields -/

theorem ctorIdx_inj (r t : RegId) (h : r.ctorIdx = t.ctorIdx) : r = t := by
  rw [← RegId.ofNat_ctorIdx r, h, RegId.ofNat_ctorIdx]

/-- Registers of different windows are different. -/
theorem ctorIdx_win (r t : RegId) (h : (regDef r).win ≠ (regDef t).win) : r.ctorIdx ≠ t.ctorIdx :=
  fun e => h (by rw [ctorIdx_inj r t e])

/-- Two registers never share a key. -/
theorem keyOf_ne (r t : RegId) (cp i j cp' i' j' : Nat) (h : r.ctorIdx ≠ t.ctorIdx) : keyOf r cp i j ≠ keyOf t cp' i' j' := by
  unfold keyOf
  omega

theorem regGet_put_same (l : RegFile) (r : RegId) (w : Word) (i j cp : Nat) : regGet (regPut l r w i j cp) r i j cp = w :=
  storeGet_put_same _ _ _ _

theorem regGet_put_key (l : RegFile) (r t : RegId) (w : Word) (i j cp i' j' cp' : Nat) (h : keyOf t cp' i' j' ≠ keyOf r cp i j) :
    regGet (regPut l r w i j cp) t i' j' cp' = regGet l t i' j' cp' := by
  unfold regGet regPut
  rw [storeGet_put_ne _ _ _ _ _ _ h]

theorem regGet_key (l : RegFile) (r : RegId) (i j cp i' j' cp' : Nat) (h : keyOf r cp' i' j' = keyOf r cp i j) :
    regGet l r i' j' cp' = regGet l r i j cp := by unfold regGet; rw [h]

/-- A field reads back what was put into it. -/
theorem State.get_put_same (s : State) (x : Fld) (v i j cp : Nat) (h : x.hi < 32) :
    (s.put x v i j cp).get x i j cp = v % 2 ^ (x.hi + 1 - x.lo) := by
  unfold State.get State.put
  rw [regGet_put_same, fieldGet_fieldSet_same _ _ _ _ h]

/-- A put leaves the fields of every other register. -/
theorem State.get_put_reg (s : State) (x y : Fld) (v i j cp i' j' cp' : Nat) (h : y.reg.ctorIdx ≠ x.reg.ctorIdx) :
    (s.put x v i j cp).get y i' j' cp' = s.get y i' j' cp' := by
  unfold State.get State.put
  rw [regGet_put_key _ _ _ _ _ _ _ _ _ _ (keyOf_ne _ _ _ _ _ _ _ _ h)]

/-- A put leaves the other fields of its register, at every position. -/
theorem State.get_put_fld (s : State) (x y : Fld) (v i j cp i' j' cp' : Nat) (hx : x.hi < 32) (h : y.hi < x.lo ∨ x.hi < y.lo) :
    (s.put x v i j cp).get y i' j' cp' = s.get y i' j' cp' := by
  by_cases hr : y.reg.ctorIdx = x.reg.ctorIdx
  · unfold State.get State.put
    by_cases hk : keyOf y.reg cp' i' j' = keyOf x.reg cp i j
    · have hr' : y.reg = x.reg := ctorIdx_inj _ _ hr
      rw [hr'] at hk ⊢
      rw [regGet_key _ _ _ _ _ _ _ _ hk, regGet_put_same, fieldGet_fieldSet_ne _ _ _ _ _ _ hx h]
      unfold regGet
      rw [hk]
    · rw [regGet_put_key _ _ _ _ _ _ _ _ _ _ hk]
  · exact State.get_put_reg s x y v i j cp i' j' cp' hr

/-- A put leaves its field at the other positions. -/
theorem State.get_put_pos (s : State) (x : Fld) (v i j cp i' j' cp' : Nat) (h : i' % 4096 ≠ i % 4096 ∨ j' % 64 ≠ j % 64 ∨ cp' % 32 ≠ cp % 32) :
    (s.put x v i j cp).get x i' j' cp' = s.get x i' j' cp' := by
  unfold State.get State.put
  rw [regGet_put_key]
  unfold keyOf
  omega

/-- A word put back where it was read changes no field. -/
theorem State.get_reput (s : State) (r : RegId) (i j cp : Nat) (y : Fld) (i' j' cp' : Nat) :
    { s with regs := regPut s.regs r (regGet s.regs r i j cp) i j cp }.get y i' j' cp' = s.get y i' j' cp' := by
  unfold State.get
  dsimp only
  by_cases hk : keyOf y.reg cp' i' j' = keyOf r cp i j
  · by_cases hr : y.reg.ctorIdx = r.ctorIdx
    · have hr' : y.reg = r := ctorIdx_inj _ _ hr
      rw [hr'] at hk ⊢
      rw [regGet_key _ _ _ _ _ _ _ _ hk, regGet_put_same]
      unfold regGet
      rw [hk]
    · exact absurd hk (keyOf_ne _ _ _ _ _ _ _ _ hr)
  · rw [regGet_put_key _ _ _ _ _ _ _ _ _ _ hk]

/-- A bit of a field reads the bit that was put there. -/
theorem State.is_put_bit (s : State) (x : Fld) (v i j cp b : Nat) (h : x.hi < 32) (hb : x.lo + b ≤ x.hi) :
    (s.put x v i j cp).is ⟨x.reg, x.lo + b, x.lo + b⟩ i j cp = v.testBit b := by
  have hg := State.get_put_same s x v i j cp h
  have hf : ((s.put x v i j cp).get x i j cp).testBit b = v.testBit b := by
    rw [hg, Nat.testBit_mod_two_pow]
    simp only [show b < x.hi + 1 - x.lo by omega, decide_true, Bool.true_and]
  unfold State.is
  unfold State.get fieldGet bitsOf at hf ⊢
  rw [Nat.testBit_mod_two_pow, Nat.testBit_div_two_pow] at hf
  simp only [show b < x.hi + 1 - x.lo by omega, decide_true, Bool.true_and] at hf
  rw [show x.lo + b + 1 - (x.lo + b) = 1 by omega, Nat.pow_one]
  rw [← hf, show b + x.lo = x.lo + b by omega]
  generalize (regGet (s.put x v i j cp).regs x.reg i j cp).toNat = n
  rw [Nat.testBit_eq_decide_div_mod_eq]
  cases Nat.mod_two_eq_zero_or_one (n / 2 ^ (x.lo + b)) with
  | inl h => simp [h]
  | inr h => simp [h]

/-- What a field reads depends on the registers alone. -/
theorem State.get_congr (s t : State) (h : s.regs = t.regs) (x : Fld) (i j cp : Nat) : s.get x i j cp = t.get x i j cp := by
  unfold State.get
  rw [h]

end Sys2Proof.Machine
end

