-- ==== Sys2Proof/Laws/AddrMap.lean ====
section
/-! SUPPORT. The address map of the registers (R33, R34): the address of every register position names that position, and so no two
positions share one. The map is checked pair by pair: two registers of a window lie in disjoint intervals modulo some number. -/

namespace Sys2Proof.Machine

/-! What an offset names in one register -/

theorem posAt_some (d : RegDef) (base off i j : Nat) (h : posAt d base off = some (i, j)) :
    off = base + i * d.st1 + j * d.st2 ∧ i < d.n1 ∧ j < d.n2 := by
  unfold posAt at h
  by_cases hb : off < base
  · rw [if_pos hb] at h; cases h
  · rw [if_neg hb] at h
    extract_lets x i' j' at h
    by_cases hc : x = i' * d.st1 + j' * d.st2 ∧ i' < d.n1 ∧ j' < d.n2
    · rw [if_pos hc] at h
      simp only [Option.some.injEq, Prod.mk.injEq] at h
      obtain ⟨h1, h2, h3⟩ := hc
      rw [h.1] at h1 h2
      rw [h.2] at h1 h3
      have hx : x = off - base := rfl
      exact ⟨by omega, h2, h3⟩
    · rw [if_neg hc] at h; cases h

/-- A stride counts only where there is more than one position. -/
def effStride (n st : Nat) : Nat := if n ≤ 1 then 0 else st

/-- An interval that holds every position of a register modulo `m`. -/
def spanOf (m base : Nat) (d : RegDef) : Nat × Nat :=
  let a := effStride d.n1 d.st1
  let b := effStride d.n2 d.st2
  let x := base % m
  if a % m = 0 ∧ b % m = 0 then (x, x)
  else if a % m = 0 ∧ x + (d.n2 - 1) * b < m then (x, x + (d.n2 - 1) * b)
  else if b % m = 0 ∧ x + (d.n1 - 1) * a < m then (x, x + (d.n1 - 1) * a)
  else if x + (d.n1 - 1) * a + (d.n2 - 1) * b < m then (x, x + (d.n1 - 1) * a + (d.n2 - 1) * b)
  else (0, m)

theorem mul_effStride (n st i : Nat) (h : i < n) : i * st = i * effStride n st := by
  unfold effStride
  split
  · have : i = 0 := by omega
    simp [this]
  · rfl

theorem spanOf_mem (m base : Nat) (d : RegDef) (i j : Nat) (hm : 0 < m) (hi : i < d.n1) (hj : j < d.n2) :
    (spanOf m base d).1 ≤ (base + i * d.st1 + j * d.st2) % m ∧ (base + i * d.st1 + j * d.st2) % m ≤ (spanOf m base d).2 := by
  rw [mul_effStride d.n1 d.st1 i hi, mul_effStride d.n2 d.st2 j hj]
  unfold spanOf
  generalize effStride d.n1 d.st1 = a
  generalize effStride d.n2 d.st2 = b
  dsimp only
  have hia : i * a ≤ (d.n1 - 1) * a := Nat.mul_le_mul_right _ (by omega)
  have hjb : j * b ≤ (d.n2 - 1) * b := Nat.mul_le_mul_right _ (by omega)
  have hx : base % m < m := Nat.mod_lt _ hm
  have za : a % m = 0 → (i * a) % m = 0 := fun h => by rw [Nat.mul_mod, h]; simp
  have zb : b % m = 0 → (j * b) % m = 0 := fun h => by rw [Nat.mul_mod, h]; simp
  have key : (base + i * a + j * b) % m = (base % m + (i * a) % m + (j * b) % m) % m := by
    simp [Nat.add_mod]
  split_ifs with h1 h2 h3 h4
  · rw [key, za h1.1, zb h1.2]
    simp
  · rw [key, za h2.1]
    have e : (base % m + 0 + j * b % m) % m = base % m + j * b := by
      rw [Nat.mod_eq_of_lt (a := j * b) (by omega), Nat.mod_eq_of_lt (by omega)]
      omega
    rw [e]
    constructor <;> (dsimp only; omega)
  · rw [key, zb h3.1]
    have e : (base % m + i * a % m + 0) % m = base % m + i * a := by
      rw [Nat.mod_eq_of_lt (a := i * a) (by omega), Nat.mod_eq_of_lt (by omega)]
      omega
    rw [e]
    constructor <;> (dsimp only; omega)
  · rw [key]
    have e : (base % m + i * a % m + j * b % m) % m = base % m + i * a + j * b := by
      rw [Nat.mod_eq_of_lt (a := i * a) (by omega), Nat.mod_eq_of_lt (a := j * b) (by omega), Nat.mod_eq_of_lt (by omega)]
    rw [e]
    constructor <;> (dsimp only; omega)
  · exact ⟨Nat.zero_le _, le_of_lt (Nat.mod_lt _ hm)⟩

/-- Two registers at offsets `x` and `y` have no position in common, as the intervals modulo `m` show. -/
def sepAt (m x y : Nat) (d e : RegDef) : Bool :=
  decide (0 < m) && (decide ((spanOf m x d).2 < (spanOf m y e).1) || decide ((spanOf m y e).2 < (spanOf m x d).1))

/-- Two registers at offsets `x` and `y` have no position in common, as one of the moduli tried shows. -/
def sepRegs (x y : Nat) (d e : RegDef) : Bool :=
  [1048576, d.st1, d.st2, e.st1, e.st2, Nat.gcd d.st2 e.st2, Nat.gcd d.st1 e.st1].any fun m => sepAt m x y d e

theorem posAt_none (x y : Nat) (d e : RegDef) (i j : Nat) (h : sepRegs x y d e = true) (hi : i < d.n1) (hj : j < d.n2) :
    posAt e y (x + i * d.st1 + j * d.st2) = none := by
  cases hp : posAt e y (x + i * d.st1 + j * d.st2) with
  | none => rfl
  | some p =>
    obtain ⟨h1, h2, h3⟩ := posAt_some e y _ p.1 p.2 hp
    obtain ⟨m, -, hm⟩ := List.any_eq_true.1 h
    simp only [sepAt, Bool.and_eq_true, decide_eq_true_eq, Bool.or_eq_true] at hm
    have a := spanOf_mem m x d i j hm.1 hi hj
    have b := spanOf_mem m y e p.1 p.2 hm.1 h2 h3
    rw [← h1] at b
    omega

/-- A register's strides tell its positions apart. -/
def selfOk (d : RegDef) : Bool :=
  (decide (d.n1 ≤ 1) || d.st1 != 0) &&
    (decide (d.n2 ≤ 1) || (d.st2 != 0 && (if d.st2 ≥ d.st1 then d.st1 == 0 || decide (d.n1 * d.st1 ≤ d.st2)
      else decide (d.n2 * d.st2 ≤ d.st1))))

theorem posAt_self (base : Nat) (d : RegDef) (i j : Nat) (h : selfOk d = true) (hi : i < d.n1) (hj : j < d.n2) :
    posAt d base (base + i * d.st1 + j * d.st2) = some (i, j) := by
  simp only [selfOk, Bool.and_eq_true, Bool.or_eq_true, decide_eq_true_eq, bne_iff_ne] at h
  obtain ⟨h1, h2⟩ := h
  have hx : base + i * d.st1 + j * d.st2 - base = i * d.st1 + j * d.st2 := by omega
  have hI : (if d.st1 = 0 then 0 else if d.n2 ≤ 1 then (i * d.st1 + j * d.st2) / d.st1
      else if d.st2 ≥ d.st1 then (i * d.st1 + j * d.st2) % d.st2 / d.st1 else (i * d.st1 + j * d.st2) / d.st1) = i := by
    split_ifs with a b c
    · rcases h1 with h1 | h1
      · omega
      · exact absurd a h1
    · have : j = 0 := by omega
      subst this
      simp [Nat.mul_div_cancel _ (Nat.pos_of_ne_zero a)]
    · rcases h2 with h2 | ⟨h2, h3⟩
      · exact absurd h2 b
      · rw [if_pos c] at h3
        simp only [Bool.or_eq_true, beq_iff_eq, decide_eq_true_eq] at h3
        rcases h3 with h3 | h3
        · exact absurd h3 a
        · have lt : i * d.st1 < d.st2 := lt_of_lt_of_le ((Nat.mul_lt_mul_right (Nat.pos_of_ne_zero a)).2 hi) h3
          rw [Nat.add_mul_mod_self_right, Nat.mod_eq_of_lt lt, Nat.mul_div_cancel _ (Nat.pos_of_ne_zero a)]
    · rcases h2 with h2 | ⟨h2, h3⟩
      · exact absurd h2 b
      · rw [if_neg c] at h3
        simp only [decide_eq_true_eq] at h3
        have lt : j * d.st2 < d.st1 := lt_of_lt_of_le ((Nat.mul_lt_mul_right (Nat.pos_of_ne_zero h2)).2 hj) h3
        rw [Nat.add_comm, Nat.add_mul_div_right _ _ (Nat.pos_of_ne_zero a), Nat.div_eq_of_lt lt, Nat.zero_add]
  have hJ : (if d.n2 ≤ 1 then 0 else (i * d.st1 + j * d.st2 - i * d.st1) / d.st2) = j := by
    split_ifs with b
    · omega
    · rcases h2 with h2 | ⟨h2, -⟩
      · exact absurd h2 b
      · rw [Nat.add_sub_cancel_left, Nat.mul_div_cancel _ (Nat.pos_of_ne_zero h2)]
  unfold posAt
  rw [if_neg (by omega)]
  dsimp only
  rw [hx, hI, hJ, if_pos ⟨rfl, hi, hj⟩]

/-! The table as a whole -/

theorem regTable_get (r : RegId) : regTable[r.ctorIdx]? = some r := by cases r <;> rfl

theorem mem_regTable (r : RegId) : r ∈ regTable := List.mem_of_getElem? (regTable_get r)

/-- One element answers, and no other does: the search finds what it answers. -/
theorem findSome_of_only {α β : Type} (l : List α) (f : α → Option β) (a : α) (b : β) (ha : a ∈ l) (hf : f a = some b)
    (ho : ∀ x ∈ l, x ≠ a → f x = none) : l.findSome? f = some b := by
  induction l with
  | nil => cases ha
  | cons x l ih =>
    by_cases hx : x = a
    · subst hx; simp [hf]
    · have hn := ho x (by simp) hx
      rw [List.findSome?_cons, hn]
      exact ih (by simpa [Ne.symm hx] using ha) fun y hy => ho y (by simp [hy])

/-- The registers of a global window, and of a sub-window of the views. -/
def winRegs (w : Win) : List RegId := regTable.filter fun t => (regDef t).win == w && (regDef t).kind != .view
def subRegs (w : Win) : List RegId := regTable.filter fun t => (regDef t).win == w && (regDef t).kind != .glob

/-- A global window: every register fits in it, and two are apart. -/
def mapOkG (w : Win) : Bool :=
  (winRegs w).all fun r =>
    selfOk (regDef r) &&
      decide ((regDef r).off + ((regDef r).n1 - 1) * (regDef r).st1 + ((regDef r).n2 - 1) * (regDef r).st2 < winSize w) &&
      (winRegs w).all fun t => r.ctorIdx == t.ctorIdx || sepRegs (regDef r).off (regDef t).off (regDef r) (regDef t)

/-- A sub-window of the views: every register fits in it, and two are apart. -/
def mapOkV (w : Win) : Bool :=
  ((List.range 16).find? fun k => subWin k == w).isSome == !(subRegs w).isEmpty && (subRegs w).all fun r =>
    selfOk (regDef r) &&
      decide ((regDef r).voff + ((regDef r).n1 - 1) * (regDef r).st1 + ((regDef r).n2 - 1) * (regDef r).st2 < 65536) &&
      (subRegs w).all fun t => r.ctorIdx == t.ctorIdx || sepRegs (regDef r).voff (regDef t).voff (regDef r) (regDef t)

theorem mapG_ok : allWins.all mapOkG = true := by decide +kernel

theorem mapV_ok : allWins.all mapOkV = true := by decide +kernel

theorem pos_lt (d : RegDef) (base top i j : Nat) (h : base + (d.n1 - 1) * d.st1 + (d.n2 - 1) * d.st2 < top) (hi : i < d.n1)
    (hj : j < d.n2) : base + i * d.st1 + j * d.st2 < top := by
  have a : i * d.st1 ≤ (d.n1 - 1) * d.st1 := Nat.mul_le_mul_right _ (by omega)
  have b : j * d.st2 ≤ (d.n2 - 1) * d.st2 := Nat.mul_le_mul_right _ (by omega)
  omega

theorem wins_apart (w v : Win) (h : w ≠ v) : winBase w + winSize w ≤ winBase v ∨ winBase v + winSize v ≤ winBase w := by
  revert h
  cases w <;> cases v <;> decide

theorem mem_allWins (w : Win) : w ∈ allWins := by cases w <;> decide

theorem find_of_only {α : Type} (l : List α) (p : α → Bool) (a : α) (ha : a ∈ l) (hp : p a = true)
    (ho : ∀ x ∈ l, x ≠ a → p x = false) : l.find? p = some a := by
  induction l with
  | nil => cases ha
  | cons x l ih =>
    by_cases hx : x = a
    · subst hx; simp [hp]
    · rw [List.find?_cons, ho x (by simp) hx]
      exact ih (by simpa [Ne.symm hx] using ha) fun y hy => ho y (by simp [hy])

/-- An offset of a window lies in that window. -/
theorem winOf_base (w : Win) (x : Nat) (h : x < winSize w) : winOf (winBase w + x) = some w := by
  refine find_of_only _ _ w (mem_allWins w) ?_ ?_
  · simp only [Bool.and_eq_true, decide_eq_true_eq]; omega
  · intro v _ hv
    simp only [Bool.and_eq_false_iff, decide_eq_false_iff_not]
    rcases wins_apart v w hv with h1 | h1 <;> omega

theorem viewOf_none (w : Win) (x : Nat) (h : x < winSize w) : viewOf (winBase w + x) = none := by
  unfold viewOf
  rw [if_neg]
  cases w <;> simp only [winSize, winBase] at h ⊢ <;> omega

/-- The address of a position of a global window names it (R33). -/
theorem hitAt_global (r : RegId) (i j : Nat) (hk : (regDef r).kind ≠ .view) (hi : i < (regDef r).n1) (hj : j < (regDef r).n2) :
    hitAt (regAddr r none i j) = some ⟨r, r, 0, i, j, none⟩ := by
  have mem : ∀ t, (regDef t).win = (regDef r).win → (regDef t).kind ≠ .view → t ∈ winRegs (regDef r).win := fun t h h' =>
    List.mem_filter.2 ⟨mem_regTable t, by simp [h, h']⟩
  have ok := List.all_eq_true.1 (List.all_eq_true.1 mapG_ok _ (mem_allWins (regDef r).win)) r (mem r rfl hk)
  simp only [Bool.or_eq_true, beq_iff_eq, Bool.and_eq_true, decide_eq_true_eq, List.all_eq_true] at ok
  obtain ⟨⟨h1, h2⟩, h3⟩ := ok
  have lt := pos_lt _ _ _ i j h2 hi hj
  have e : regAddr r none i j = winBase (regDef r).win + ((regDef r).off + i * (regDef r).st1 + j * (regDef r).st2) := by
    simp only [regAddr]; omega
  have hv : hitAt (regAddr r none i j) =
      regTable.findSome? (hitGlobal (regDef r).win ((regDef r).off + i * (regDef r).st1 + j * (regDef r).st2)) := by
    rw [e]
    unfold hitAt
    rw [viewOf_none _ _ lt, winOf_base _ _ lt]
    dsimp only
    rw [Nat.add_sub_cancel_left]
  rw [hv]
  refine findSome_of_only _ _ r _ (mem_regTable r) ?_ ?_
  · simp only [hitGlobal, hk, ne_eq, not_false_eq_true, and_self, if_true, posAt_self _ _ i j h1 hi hj, Option.map_some]
  · intro t ht hne
    unfold hitGlobal
    dsimp only
    split
    · rename_i hc
      rcases h3 t (mem t hc.1 hc.2) with h | h
      · exact absurd (ctorIdx_inj _ _ h).symm hne
      · rw [posAt_none _ _ _ _ i j h hi hj]; rfl
    · rfl

/-- What an address of a view says: the drawer, the sub-window and the offset (R34). -/
theorem viewOf_base (a n k x : Nat) (hn : n < 16) (hk : k < 16) (hx : x < 65536)
    (e : a = 805306368 + (n * 1048576 + (k * 65536 + x))) :
    viewOf a = some n ∧ (a - 0x30000000) % 0x100000 / 0x10000 = k ∧ (a - 0x30000000) % 0x100000 % 0x10000 = x := by
  have h : 0x30000000 ≤ a ∧ a < 0x31000000 := by omega
  refine ⟨?_, by omega, by omega⟩
  unfold viewOf
  rw [if_pos h]
  congr 1
  omega

theorem hitAt_of_view (a n k x : Nat) (h : viewOf a = some n) (hk : (a - 0x30000000) % 0x100000 / 0x10000 = k)
    (hx : (a - 0x30000000) % 0x100000 % 0x10000 = x) : hitAt a = regTable.findSome? (hitView (subWin k) n x) := by
  subst hk hx
  unfold hitAt
  rw [h]

/-- What the address of a position of a view names (R12, R34). -/
def viewHit (r : RegId) (n : Fin 16) (i j : Nat) : Hit :=
  match (regDef r).shows with
  | some t => ⟨r, t, 0, n.val, i, some n.val⟩
  | none => ⟨r, r, if (regDef r).kind = .both then 0 else n.val + 1, i, j, some n.val⟩

/-- The address of a position of a view names it (R34). -/
theorem hitAt_view (r : RegId) (n : Fin 16) (i j : Nat) (hk : (regDef r).kind ≠ .glob) (hi : i < (regDef r).n1)
    (hj : j < (regDef r).n2) : hitAt (regAddr r (some n) i j) = some (viewHit r n i j) := by
  have mem : ∀ t, (regDef t).win = (regDef r).win → (regDef t).kind ≠ .glob → t ∈ subRegs (regDef r).win := fun t h h' =>
    List.mem_filter.2 ⟨mem_regTable t, by simp [h, h']⟩
  have okw := List.all_eq_true.1 mapV_ok _ (mem_allWins (regDef r).win)
  rw [mapOkV, Bool.and_eq_true] at okw
  have ne : (subRegs (regDef r).win).isEmpty = false := by
    rw [Bool.eq_false_iff]
    intro h
    rw [List.isEmpty_iff] at h
    have := mem r rfl hk
    rw [h] at this
    cases this
  have h4 : ((List.range 16).find? fun k => subWin k == (regDef r).win).isSome = true := by
    have := okw.1
    rw [ne] at this
    simpa using this
  have ok := List.all_eq_true.1 okw.2 r (mem r rfl hk)
  simp only [Bool.or_eq_true, beq_iff_eq, Bool.and_eq_true, decide_eq_true_eq, List.all_eq_true] at ok
  obtain ⟨⟨h1, h2⟩, h3⟩ := ok
  have lt := pos_lt _ _ _ i j h2 hi hj
  obtain ⟨k, hk'⟩ := Option.isSome_iff_exists.1 h4
  have hk1 := List.find?_some hk'
  have hk2 := List.mem_range.1 (List.mem_of_find?_eq_some hk')
  simp only [beq_iff_eq] at hk1
  have e : regAddr r (some n) i j =
      805306368 + (n.val * 1048576 + (k * 65536 + ((regDef r).voff + i * (regDef r).st1 + j * (regDef r).st2))) := by
    simp only [regAddr, hk', Option.getD_some]
    omega
  obtain ⟨v1, v2, v3⟩ := viewOf_base _ _ _ _ n.isLt hk2 lt e
  have hv : hitAt (regAddr r (some n) i j) =
      regTable.findSome? (hitView (regDef r).win n.val ((regDef r).voff + i * (regDef r).st1 + j * (regDef r).st2)) := by
    rw [hitAt_of_view _ _ _ _ v1 v2 v3, hk1]
  rw [hv]
  refine findSome_of_only _ _ r _ (mem_regTable r) ?_ ?_
  · simp only [hitView, hk, ne_eq, not_false_eq_true, and_self, if_true, posAt_self _ _ i j h1 hi hj, Option.map_some,
      viewHit]
    all_goals cases (regDef r).shows <;> rfl
  · intro t ht hne
    unfold hitView
    dsimp only
    split
    · rename_i hc
      rcases h3 t (mem t hc.1 hc.2) with h | h
      · exact absurd (ctorIdx_inj _ _ h).symm hne
      · rw [posAt_none _ _ _ _ i j h hi hj]; rfl
    · rfl

end Sys2Proof.Machine
end

