-- ==== Sys2Proof/Laws/Access.lean ====
section
/-! SUPPORT. What a register command comes to when its access opens: the register's own write, or read, on the state that the access has
taken. -/

namespace Sys2Proof.Machine

/-! The parts of an access that tagging leaves -/

@[simp] theorem State.tagGiven_tag (s : State) (a : Access) : (s.tagGiven a).tag = a.tag := by unfold State.tagGiven; split <;> rfl
@[simp] theorem State.tagGiven_num (s : State) (a : Access) : (s.tagGiven a).num = a.num := by unfold State.tagGiven; split <;> rfl
@[simp] theorem State.tagGiven_addr (s : State) (a : Access) : (s.tagGiven a).addr = a.addr := by unfold State.tagGiven; split <;> rfl
@[simp] theorem State.tagGiven_size (s : State) (a : Access) : (s.tagGiven a).size = a.size := by unfold State.tagGiven; split <;> rfl
@[simp] theorem State.tagGiven_op (s : State) (a : Access) : (s.tagGiven a).op = a.op := by unfold State.tagGiven; split <;> rfl
@[simp] theorem State.tagGiven_data (s : State) (a : Access) : (s.tagGiven a).data = a.data := by unfold State.tagGiven; split <;> rfl

/-! What an access that opens has changed: sequence numbers, prefetched lines, and the counts of lines that served nothing -/

theorem State.tagTaken_eq (s : State) (a : Access) : s.tagTaken a = { s with seqs := (s.tagTaken a).seqs } := by
  unfold State.tagTaken State.nextTag
  split <;> rfl

theorem each_bump_eq {α : Type} (l : List α) (p : α → Bool) (x : Fld) (k : α → Nat) (s : State) :
    s.each l (fun s y => if p y then s else s.bump x 1 (k y)) =
      { s with regs := (s.each l fun s y => if p y then s else s.bump x 1 (k y)).regs } := by
  induction l generalizing s with
  | nil => rfl
  | cons y l ih =>
    show State.each (if p y then s else s.bump x 1 (k y)) l _ = { s with regs := (State.each (if p y then s else s.bump x 1 (k y)) l _).regs }
    rw [ih]
    split <;> rfl

theorem each_bump_get {α : Type} (l : List α) (p : α → Bool) (x : Fld) (k : α → Nat) (s : State) (y : Fld) (i j cp : Nat)
    (h : y.reg.ctorIdx ≠ x.reg.ctorIdx) :
    (s.each l fun s y => if p y then s else s.bump x 1 (k y)).get y i j cp = s.get y i j cp := by
  induction l generalizing s with
  | nil => rfl
  | cons z l ih =>
    show (State.each (if p z then s else s.bump x 1 (k z)) l _).get y i j cp = _
    rw [ih]
    split
    · rfl
    · exact State.get_put_reg _ _ _ _ _ _ _ _ _ _ h

theorem State.lineDrop_eq (s : State) (p : PLine → Bool) :
    s.lineDrop p = { s with regs := (s.lineDrop p).regs, dwl := { s.dwl with lines := s.dwl.lines.filter fun x => !p x } } := by
  unfold State.lineDrop
  exact each_bump_eq (s.dwl.lines.filter p) (fun x => x.served) F.DWL_REGION_DISC_COUNT (fun x => x.region)
    { s with dwl := { s.dwl with lines := s.dwl.lines.filter fun x => !p x } }

/-- Dropping lines leaves every register but the counts of discarded lines. -/
theorem State.lineDrop_get (s : State) (p : PLine → Bool) (y : Fld) (i j cp : Nat)
    (h : y.reg.ctorIdx ≠ RegId.DWL_REGION_DISC.ctorIdx) : (s.lineDrop p).get y i j cp = s.get y i j cp := by
  unfold State.lineDrop
  exact each_bump_get (s.dwl.lines.filter p) (fun x => x.served) F.DWL_REGION_DISC_COUNT (fun x => x.region)
    { s with dwl := { s.dwl with lines := s.dwl.lines.filter fun x => !p x } } y i j cp h

/-! What a prefetch changes: the lines, and the counts of lines that served nothing -/

theorem State.lineAdd_eq (s : State) (x : PLine) :
    s.lineAdd x = { s with regs := (s.lineAdd x).regs, dwl := { s.dwl with lines := (s.lineAdd x).dwl.lines } } := by
  unfold State.lineAdd
  split
  · rfl
  · split
    · split
      · rw [State.lineDrop_eq]
      · rfl
    · rfl

theorem State.lineAdd_get (s : State) (x : PLine) (y : Fld) (i j cp : Nat) (h : y.reg.ctorIdx ≠ RegId.DWL_REGION_DISC.ctorIdx) :
    (s.lineAdd x).get y i j cp = s.get y i j cp := by
  unfold State.lineAdd
  split
  · rfl
  · split
    · split
      · exact State.lineDrop_get _ _ _ _ _ _ h
      · rfl
    · rfl

theorem State.fetchLine_eq (s : State) (a : Access) (r top b k : Nat) :
    s.fetchLine a r top b k =
      { s with regs := (s.fetchLine a r top b k).regs, dwl := { s.dwl with lines := (s.fetchLine a r top b k).dwl.lines } } := by
  unfold State.fetchLine
  split
  · rfl
  · exact State.lineAdd_eq _ _

theorem State.fetchLine_get (s : State) (a : Access) (r top b k : Nat) (y : Fld) (i j cp : Nat)
    (h : y.reg.ctorIdx ≠ RegId.DWL_REGION_DISC.ctorIdx) : (s.fetchLine a r top b k).get y i j cp = s.get y i j cp := by
  unfold State.fetchLine
  split
  · rfl
  · exact State.lineAdd_get _ _ _ _ _ _ h

theorem State.prefetch_eq (s : State) (a : Access) :
    s.prefetch a = { s with regs := (s.prefetch a).regs, dwl := { s.dwl with lines := (s.prefetch a).dwl.lines } } := by
  unfold State.prefetch
  split
  · rw [State.fetchLine_eq, State.fetchLine_eq s]
  · rfl

/-- A prefetch leaves every register but the counts of discarded lines. -/
theorem State.prefetch_get (s : State) (a : Access) (y : Fld) (i j cp : Nat) (h : y.reg.ctorIdx ≠ RegId.DWL_REGION_DISC.ctorIdx) :
    (s.prefetch a).get y i j cp = s.get y i j cp := by
  unfold State.prefetch
  split
  · exact (State.fetchLine_get _ _ _ _ _ _ _ _ _ _ h).trans (State.fetchLine_get _ _ _ _ _ _ _ _ _ _ h)
  · rfl

/-! What the grant of an arbitration point changes: its pointer, and the record of what it granted -/

theorem State.arbMove_eq (s : State) (k : Nat) (d : Fin 16) :
    s.arbMove k d = { s with regs := (s.arbMove k d).regs,
                             fab := { s.fab with granted := (s.arbMove k d).fab.granted, used := (s.arbMove k d).fab.used } } := by
  unfold State.arbMove State.shareUse
  dsimp only
  split
  · split <;> rfl
  · rfl

/-- A grant leaves every register but the pointers. -/
theorem State.arbMove_get (s : State) (k : Nat) (d : Fin 16) (y : Fld) (i j cp : Nat) (h : y.reg.ctorIdx ≠ RegId.FAB_ARB_PTR.ctorIdx) :
    (s.arbMove k d).get y i j cp = s.get y i j cp := by
  unfold State.arbMove
  refine (State.get_put_reg _ _ _ _ _ _ _ _ _ _ h).trans (State.get_congr _ _ ?_ _ _ _ _)
  dsimp only
  split
  · unfold State.shareUse
    split <;> rfl
  · rfl

theorem State.pointed_eq (s : State) (a : Access) :
    s.pointed a = { s with regs := (s.pointed a).regs,
                           fab := { s.fab with granted := (s.pointed a).fab.granted, used := (s.pointed a).fab.used } } :=
  State.arbMove_eq _ _ _

theorem State.pointed_get (s : State) (a : Access) (y : Fld) (i j cp : Nat) (h : y.reg.ctorIdx ≠ RegId.FAB_ARB_PTR.ctorIdx) :
    (s.pointed a).get y i j cp = s.get y i j cp := State.arbMove_get _ _ _ _ _ _ _ h

/-- What an access that opens has changed before its arbitration point grants it. -/
theorem State.reached_eq (s : State) (a : Access) :
    (if a.op.writes then (s.tagTaken a).lineWrite a.tag a.num a.addr else s.tagTaken a) =
      { s with regs := (if a.op.writes then (s.tagTaken a).lineWrite a.tag a.num a.addr else s.tagTaken a).regs,
               seqs := (s.tagTaken a).seqs,
               dwl := { s.dwl with
                 lines := (if a.op.writes then (s.tagTaken a).lineWrite a.tag a.num a.addr else s.tagTaken a).dwl.lines } } := by
  have ht := State.tagTaken_eq s a
  split
  · unfold State.lineWrite
    rw [State.lineDrop_eq]
    rw [ht]
  · rw [ht]

theorem State.taken_eq (s : State) (a : Access) :
    s.taken a =
      { s with regs := (s.taken a).regs, seqs := (s.taken a).seqs, dwl := { s.dwl with lines := (s.taken a).dwl.lines },
               fab := { s.fab with granted := (s.taken a).fab.granted, used := (s.taken a).fab.used } } := by
  have hb := State.reached_eq s a
  unfold State.taken
  generalize (if a.op.writes then (s.tagTaken a).lineWrite a.tag a.num a.addr else s.tagTaken a) = t at hb ⊢
  rw [State.pointed_eq t a]
  generalize s.tagTaken a = u at hb
  rw [hb]

@[simp] theorem State.taken_mem (s : State) (a : Access) : (s.taken a).mem = s.mem := by rw [State.taken_eq]
@[simp] theorem State.taken_img (s : State) (a : Access) : (s.taken a).img = s.img := by rw [State.taken_eq]
@[simp] theorem State.taken_waiting (s : State) (a : Access) : (s.taken a).fab.waiting = s.fab.waiting := by rw [State.taken_eq]
@[simp] theorem State.taken_fromOff (s : State) (a : Access) : (s.taken a).fab.fromOff = s.fab.fromOff := by rw [State.taken_eq]
@[simp] theorem State.taken_target (s : State) (a : Access) : (s.taken a).fab.target = s.fab.target := by rw [State.taken_eq]
@[simp] theorem State.taken_drw (s : State) (a : Access) : (s.taken a).drw = s.drw := by rw [State.taken_eq]
@[simp] theorem State.taken_recd (s : State) (a : Access) : (s.taken a).recd = s.recd := by rw [State.taken_eq]
@[simp] theorem State.taken_ztm (s : State) (a : Access) : (s.taken a).ztm = s.ztm := by rw [State.taken_eq]
@[simp] theorem State.taken_load (s : State) (a : Access) : (s.taken a).load = s.load := by rw [State.taken_eq]
@[simp] theorem State.taken_flt (s : State) (a : Access) : (s.taken a).flt = s.flt := by rw [State.taken_eq]
@[simp] theorem State.taken_pins (s : State) (a : Access) : (s.taken a).pins = s.pins := by rw [State.taken_eq]
@[simp] theorem State.taken_front (s : State) (a : Access) : (s.taken a).front = s.front := by rw [State.taken_eq]
@[simp] theorem State.taken_latchedRules (s : State) (a : Access) : (s.taken a).latchedRules = s.latchedRules := by rw [State.taken_eq]
@[simp] theorem State.taken_lth (s : State) (a : Access) : (s.taken a).lth = s.lth := by rw [State.taken_eq]
@[simp] theorem State.taken_canLthQ (s : State) (a : Access) : (s.taken a).canLthQ = s.canLthQ := by rw [State.taken_eq]
@[simp] theorem State.taken_can (s : State) (a : Access) : (s.taken a).can = s.can := by rw [State.taken_eq]
@[simp] theorem State.taken_emitted (s : State) (a : Access) : (s.taken a).emitted = s.emitted := by rw [State.taken_eq]
@[simp] theorem State.taken_mtr (s : State) (a : Access) : (s.taken a).mtr = s.mtr := by rw [State.taken_eq]
@[simp] theorem State.taken_ring (s : State) (a : Access) : (s.taken a).ring = s.ring := by rw [State.taken_eq]
@[simp] theorem State.taken_ringSig (s : State) (a : Access) : (s.taken a).ringSig = s.ringSig := by rw [State.taken_eq]
@[simp] theorem State.taken_iom (s : State) (a : Access) : (s.taken a).iom = s.iom := by rw [State.taken_eq]
@[simp] theorem State.taken_dvt (s : State) (a : Access) : (s.taken a).dvt = s.dvt := by rw [State.taken_eq]
@[simp] theorem State.taken_port (s : State) (a : Access) : (s.taken a).port = s.port := by rw [State.taken_eq]
@[simp] theorem State.taken_saKey (s : State) (a : Access) : (s.taken a).saKey = s.saKey := by rw [State.taken_eq]
@[simp] theorem State.taken_hart (s : State) (a : Access) : (s.taken a).hart = s.hart := by rw [State.taken_eq]
@[simp] theorem State.taken_wld (s : State) (a : Access) : (s.taken a).wld = s.wld := by rw [State.taken_eq]
@[simp] theorem State.taken_til (s : State) (a : Access) : (s.taken a).til = s.til := by rw [State.taken_eq]
@[simp] theorem State.taken_upd (s : State) (a : Access) : (s.taken a).upd = s.upd := by rw [State.taken_eq]
@[simp] theorem State.taken_start (s : State) (a : Access) : (s.taken a).start = s.start := by rw [State.taken_eq]
@[simp] theorem State.taken_resp (s : State) (a : Access) : (s.taken a).resp = s.resp := by rw [State.taken_eq]
@[simp] theorem State.taken_freeIx (s : State) (a : Access) : (s.taken a).freeIx = s.freeIx := by rw [State.taken_eq]
@[simp] theorem State.taken_pending (s : State) (a : Access) : (s.taken a).pending = s.pending := by rw [State.taken_eq]
@[simp] theorem State.prefetch_img (s : State) (a : Access) : (s.prefetch a).img = s.img := by rw [State.prefetch_eq]
@[simp] theorem State.prefetch_fab (s : State) (a : Access) : (s.prefetch a).fab = s.fab := by rw [State.prefetch_eq]
@[simp] theorem State.prefetch_drw (s : State) (a : Access) : (s.prefetch a).drw = s.drw := by rw [State.prefetch_eq]
@[simp] theorem State.prefetch_recd (s : State) (a : Access) : (s.prefetch a).recd = s.recd := by rw [State.prefetch_eq]
@[simp] theorem State.prefetch_ztm (s : State) (a : Access) : (s.prefetch a).ztm = s.ztm := by rw [State.prefetch_eq]
@[simp] theorem State.prefetch_load (s : State) (a : Access) : (s.prefetch a).load = s.load := by rw [State.prefetch_eq]
@[simp] theorem State.prefetch_flt (s : State) (a : Access) : (s.prefetch a).flt = s.flt := by rw [State.prefetch_eq]
@[simp] theorem State.prefetch_pins (s : State) (a : Access) : (s.prefetch a).pins = s.pins := by rw [State.prefetch_eq]
@[simp] theorem State.prefetch_front (s : State) (a : Access) : (s.prefetch a).front = s.front := by rw [State.prefetch_eq]
@[simp] theorem State.prefetch_latchedRules (s : State) (a : Access) : (s.prefetch a).latchedRules = s.latchedRules := by rw [State.prefetch_eq]
@[simp] theorem State.prefetch_lth (s : State) (a : Access) : (s.prefetch a).lth = s.lth := by rw [State.prefetch_eq]
@[simp] theorem State.prefetch_canLthQ (s : State) (a : Access) : (s.prefetch a).canLthQ = s.canLthQ := by rw [State.prefetch_eq]
@[simp] theorem State.prefetch_can (s : State) (a : Access) : (s.prefetch a).can = s.can := by rw [State.prefetch_eq]
@[simp] theorem State.prefetch_emitted (s : State) (a : Access) : (s.prefetch a).emitted = s.emitted := by rw [State.prefetch_eq]
@[simp] theorem State.prefetch_mtr (s : State) (a : Access) : (s.prefetch a).mtr = s.mtr := by rw [State.prefetch_eq]
@[simp] theorem State.prefetch_ring (s : State) (a : Access) : (s.prefetch a).ring = s.ring := by rw [State.prefetch_eq]
@[simp] theorem State.prefetch_ringSig (s : State) (a : Access) : (s.prefetch a).ringSig = s.ringSig := by rw [State.prefetch_eq]
@[simp] theorem State.prefetch_iom (s : State) (a : Access) : (s.prefetch a).iom = s.iom := by rw [State.prefetch_eq]
@[simp] theorem State.prefetch_dvt (s : State) (a : Access) : (s.prefetch a).dvt = s.dvt := by rw [State.prefetch_eq]
@[simp] theorem State.prefetch_port (s : State) (a : Access) : (s.prefetch a).port = s.port := by rw [State.prefetch_eq]
@[simp] theorem State.prefetch_saKey (s : State) (a : Access) : (s.prefetch a).saKey = s.saKey := by rw [State.prefetch_eq]
@[simp] theorem State.prefetch_hart (s : State) (a : Access) : (s.prefetch a).hart = s.hart := by rw [State.prefetch_eq]
@[simp] theorem State.prefetch_wld (s : State) (a : Access) : (s.prefetch a).wld = s.wld := by rw [State.prefetch_eq]
@[simp] theorem State.prefetch_til (s : State) (a : Access) : (s.prefetch a).til = s.til := by rw [State.prefetch_eq]
@[simp] theorem State.prefetch_upd (s : State) (a : Access) : (s.prefetch a).upd = s.upd := by rw [State.prefetch_eq]
@[simp] theorem State.prefetch_start (s : State) (a : Access) : (s.prefetch a).start = s.start := by rw [State.prefetch_eq]
@[simp] theorem State.prefetch_resp (s : State) (a : Access) : (s.prefetch a).resp = s.resp := by rw [State.prefetch_eq]
@[simp] theorem State.prefetch_freeIx (s : State) (a : Access) : (s.prefetch a).freeIx = s.freeIx := by rw [State.prefetch_eq]

/-- An access that opens leaves every register but the counts of discarded lines and the arbitration pointers. -/
theorem State.taken_get (s : State) (a : Access) (y : Fld) (i j cp : Nat) (h : y.reg.ctorIdx ≠ RegId.DWL_REGION_DISC.ctorIdx)
    (hp : y.reg.ctorIdx ≠ RegId.FAB_ARB_PTR.ctorIdx) : (s.taken a).get y i j cp = s.get y i j cp := by
  have ht : (s.tagTaken a).get y i j cp = s.get y i j cp := by rw [State.tagTaken_eq]; rfl
  unfold State.taken
  refine (State.pointed_get _ _ _ _ _ _ hp).trans ?_
  split
  · exact (State.lineDrop_get _ _ _ _ _ _ h).trans ht
  · exact ht

theorem State.semBlocks_congr (s t : State) (a : Access) (h : s.dwl.resv = t.dwl.resv) : s.semBlocks a = t.semBlocks a := by
  unfold State.semBlocks State.semHolder
  rw [h]

theorem State.entered_eq_taken (s : State) (a : Access) (h : (s.tagTaken a).semBlocks (s.tagGiven a) = false) :
    ((s.tagTaken a).entered (s.tagGiven a)).pointed (s.tagGiven a) = s.taken a := by
  have hs : ((s.tagTaken a).lineWrite a.tag a.num a.addr).semBlocks (s.tagGiven a) = false := by
    rw [← h]
    refine State.semBlocks_congr _ _ _ ?_
    unfold State.lineWrite
    rw [State.lineDrop_eq]
  unfold State.entered State.taken State.pointed
  simp only [State.tagGiven_op, State.tagGiven_tag, State.tagGiven_num, State.tagGiven_addr]
  split
  · rw [hs]; rfl
  · rw [h]; rfl

/-- What holds an access depends on the islands, the reservations and the waiting accesses alone. -/
theorem State.waitKey_congr (s t : State) (a : Access) (h1 : s.islandHolds = t.islandHolds) (h2 : s.dwl.resv = t.dwl.resv)
    (h3 : s.fab.waiting = t.fab.waiting) : s.waitKey a = t.waitKey a := by
  unfold State.waitKey State.waitsBehind
  rw [h1, h3, State.semBlocks_congr s t a h2]

theorem State.taken_waitKey (s : State) (a : Access) : (s.taken a).waitKey (s.tagGiven a) = (s.tagTaken a).waitKey (s.tagGiven a) := by
  have ht := State.tagTaken_eq s a
  refine State.waitKey_congr _ _ _ ?_ ?_ ?_
  · funext n
    unfold State.islandHolds State.islState
    rw [State.taken_get _ _ _ _ _ _ (by decide) (by decide), ht]
    rfl
  · rw [State.taken_eq, ht]
  · rw [State.taken_eq, ht]

/-- An access that opens is performed on the state it has taken; then what it frees goes on. -/
theorem State.access_opens (s : State) (a : Access) (h : s.opens a) (hop : ¬(a.op = .read ∧ a.size = 4 ∧ emulated a.addr)) :
    s.access a = if frees a then ((s.taken a).perform (s.tagGiven a)).retry else (s.taken a).perform (s.tagGiven a) := by
  obtain ⟨h1, h2, h3, h4⟩ := h
  have hf : frees (s.tagGiven a) = frees a := by unfold frees; simp only [State.tagGiven_op, State.tagGiven_addr]
  unfold State.access State.admitted
  rw [h1, h2, State.entered_eq_taken s a h3, hf]
  simp only [Bool.not_true, Bool.false_eq_true, if_false, if_true, State.tagGiven_op, State.tagGiven_size, State.tagGiven_addr, hop]
  unfold State.route
  rw [State.taken_waitKey, h4]

/-- What a master presents is what its issue comes to. -/
theorem State.issue_presents (s : State) (m : Master) (addr size : Nat) (op : AccOp) (data : Nat) (a : Access)
    (h : s.presents m addr size op data = some a) : s.issue m addr size op data = s.access a := by
  cases m with
  | hart h' v =>
    simp only [State.presents] at h
    split at h
    · cases h
    · rename_i hn
      simp only [Bool.or_eq_true, not_or, Bool.not_eq_true, beq_eq_false_iff_ne, ne_eq] at hn
      cases h
      simp only [State.issue]
      obtain ⟨⟨⟨n1, n2⟩, n3⟩, n4⟩ := hn
      rw [n1, n2, n3]
      simp [n4]
  | pcie f =>
    simp only [State.presents] at h
    split at h
    · rename_i hn
      simp only [Bool.and_eq_true, Bool.not_eq_true'] at hn
      obtain ⟨⟨⟨⟨⟨⟨h1, h2⟩, h3⟩, h4⟩, h5⟩, h6⟩, h7⟩ := hn
      cases h
      simp [State.issue, State.pcieAccess, h1, h2, h3, h4, h5, h6, h7]
    · cases h
  | mitre c =>
    simp only [State.presents] at h
    cases hs : s.mtrSplit <;> simp only [hs, Bool.false_eq_true, if_false, if_true] at h
    all_goals
      split at h
      · rename_i hc
        simp only [Bool.and_eq_true, decide_eq_true_eq, Bool.not_eq_true', bne_iff_ne, ne_eq, beq_iff_eq] at hc
        cases h
        have h3 : ¬lmemBase < addr + size := by omega
        simp [State.issue, State.mitreIssue, hs, hc, h3, State.mitreOut, AccOp.atomic]
      · cases h
  | debug =>
    simp only [State.presents] at h
    simp only [State.issue]
    cases hw : op.writes <;> simp only [hw, Bool.false_eq_true, if_false, if_true] at h ⊢
    all_goals
      split at h
      · rename_i hc
        rw [if_pos hc]
        cases h; rfl
      · rename_i hc
        rw [if_neg hc]
        split at h
        · rename_i hd
          rw [if_pos hd]
          cases h; rfl
        · cases h

theorem State.presents_op (s : State) (m : Master) (addr size : Nat) (op : AccOp) (data : Nat) (a : Access)
    (h : s.presents m addr size op data = some a) : a.op = op ∧ a.addr = addr ∧ a.size = size ∧ a.data = data := by
  cases m with
  | hart h' v =>
    simp only [State.presents] at h
    split at h
    · cases h
    · cases h; exact ⟨rfl, rfl, rfl, rfl⟩
  | pcie f =>
    simp only [State.presents] at h
    split at h
    · cases h; exact ⟨rfl, rfl, rfl, rfl⟩
    · cases h
  | mitre c =>
    simp only [State.presents] at h
    cases hs : s.mtrSplit <;> simp only [hs, Bool.false_eq_true, if_false, if_true] at h
    all_goals
      split at h
      · cases h; exact ⟨rfl, rfl, rfl, rfl⟩
      · cases h
  | debug =>
    simp only [State.presents] at h
    cases hw : op.writes <;> simp only [hw, Bool.false_eq_true, if_false, if_true] at h
    all_goals
      split at h
      · cases h; exact ⟨rfl, rfl, rfl, rfl⟩
      · split at h
        · cases h; exact ⟨rfl, rfl, rfl, rfl⟩
        · cases h

/-- A position exists in the global window, or in the views. -/
def hasPos (r : RegId) (view : Option (Fin 16)) (i j : Nat) : Prop :=
  (match view with | none => (regDef r).kind ≠ .view | some _ => (regDef r).kind ≠ .glob) ∧ i < (regDef r).n1 ∧ j < (regDef r).n2

theorem hitAt_hitOf (r : RegId) (view : Option (Fin 16)) (i j : Nat) (h : hasPos r view i j) :
    hitAt (regAddr r view i j) = some (hitOf r view i j) := by
  obtain ⟨h1, h2, h3⟩ := h
  cases view with
  | none => exact hitAt_global r i j h1 h2 h3
  | some n => exact hitAt_view r n i j h1 h2 h3

theorem regAddr_window (r : RegId) (view : Option (Fin 16)) (i j : Nat) (h : hasPos r view i j) :
    isWindow (regAddr r view i j) = true := by
  have hh := hitAt_hitOf r view i j h
  unfold hitAt at hh
  unfold isWindow
  split at hh
  · rename_i hv; simp [hv]
  · split at hh
    · rename_i hw; simp [hw]
    · cases hh

/-- A register is no device memory. -/
theorem isWindow_emulated (a : Nat) (h : isWindow a = true) : emulated a = true := by
  have : 0x20000000 ≤ a ∧ a < 0x31000000 := by
    unfold isWindow at h
    rw [Bool.or_eq_true] at h
    rcases h with h | h
    · obtain ⟨w, hw⟩ := Option.isSome_iff_exists.1 h
      have hp := List.find?_some hw
      rw [Bool.and_eq_true, decide_eq_true_eq, decide_eq_true_eq] at hp
      have hb : 0x20000000 ≤ winBase w ∧ winBase w + winSize w < 0x31000000 := by cases w <;> decide
      omega
    · unfold viewOf at h
      split at h
      · omega
      · cases h
  unfold emulated isDevMem isDram isSram
  simp only [Bool.not_or, Bool.and_eq_true, Bool.not_eq_true', Bool.and_eq_false_iff, decide_eq_false_iff_not]
  omega

/-- A write that reaches its register is that register's write; an island request may let waiting accesses go on (R44). -/
theorem State.regCmd_writes (s : State) (m : Master) (r : RegId) (view : Option (Fin 16)) (i w j : Nat) (a : Access)
    (hp : hasPos r view i j) (h : s.writes m r view i j w a) (hl : s.posLive (hitOf r view i j) = true) :
    s.regCmd m r view i w j =
      if (hitOf r view i j).reg = .FAB_ISL_REQ then (((s.taken a).regWrite (hitOf r view i j) a.tag w).answer true 0).retry
      else ((s.taken a).regWrite (hitOf r view i j) a.tag w).answer true 0 := by
  obtain ⟨h1, h2⟩ := h
  obtain ⟨e1, e2, e3, e4⟩ := State.presents_op _ _ _ _ _ _ _ h1
  unfold State.regCmd
  rw [State.issue_presents _ _ _ _ _ _ _ h1, State.access_opens _ _ h2 (by simp [e1])]
  have hl' : (s.taken a).posLive (hitOf r view i j) = true := by
    rw [State.taken_eq]; exact hl
  have hf : frees a = ((hitOf r view i j).reg == .FAB_ISL_REQ) := by
    unfold frees
    rw [e1, e2, hitAt_hitOf _ _ _ _ hp]
    rfl
  have hw : (s.taken a).perform (s.tagGiven a) = ((s.taken a).regWrite (hitOf r view i j) a.tag w).answer true 0 := by
    simp only [State.perform, State.tagGiven_op, e1, State.targetWrite, State.tagGiven_addr, e2, regAddr_window _ _ _ _ hp, if_true,
      State.winWrite, hitAt_hitOf _ _ _ _ hp, hl', State.tagGiven_data, e4, State.tagGiven_tag]
  rw [hf, hw]
  simp only [beq_iff_eq]

/-- The same for every register but the island requests. -/
theorem State.regCmd_writes_ne (s : State) (m : Master) (r : RegId) (view : Option (Fin 16)) (i w j : Nat) (a : Access)
    (hp : hasPos r view i j) (h : s.writes m r view i j w a) (hl : s.posLive (hitOf r view i j) = true)
    (hr : (hitOf r view i j).reg ≠ .FAB_ISL_REQ) :
    s.regCmd m r view i w j = ((s.taken a).regWrite (hitOf r view i j) a.tag w).answer true 0 := by
  rw [State.regCmd_writes s m r view i w j a hp h hl, if_neg hr]

/-- A read that reaches its register is that register's read; copy A logs it, and a region with PREFETCH then fetches lines (R206, R342). -/
theorem State.regAsk_reads (s : State) (m : Master) (r : RegId) (view : Option (Fin 16)) (i j : Nat) (a : Access)
    (hp : hasPos r view i j) (h : s.reads m r view i j a) (hl : s.posLive (hitOf r view i j) = true) :
    s.regAsk m r view i j =
      let q := (s.taken a).regRead (hitOf r view i j) a.tag
      ((q.2.answer true q.1).mtrLogged a).prefetch a := by
  obtain ⟨h1, ⟨h21, h22, h23, h24⟩, h3⟩ := h
  obtain ⟨e1, e2, e3, e4⟩ := State.presents_op _ _ _ _ _ _ _ h1
  have he := isWindow_emulated _ (regAddr_window r view i j hp)
  have ht : s.tagTaken a = s := by unfold State.tagTaken; rw [if_neg (by simp [e1])]
  have hg : s.tagGiven a = a := by unfold State.tagGiven; rw [if_neg (by simp [e1])]
  have hw : a.op.writes = false := by rw [e1]; rfl
  have hk : s.taken a = s.pointed a := by unfold State.taken; rw [ht, hw]; rfl
  rw [ht, hg] at h22 h23 h24
  have hen : s.entered a = s := by
    unfold State.entered
    simp [hw, h23]
  have hl' : (s.pointed a).posLive (hitOf r view i j) = true := by
    rw [State.pointed_eq]; exact hl
  unfold State.regAsk
  rw [State.issue_presents _ _ _ _ _ _ _ h1]
  unfold State.access State.admitted
  rw [h21, ht, hg, h22]
  simp only [Bool.not_true, Bool.false_eq_true, if_false, if_true]
  rw [if_pos ⟨e1, e3, by rw [e2]; exact he⟩, hen, hk]
  unfold State.dwlRead
  rw [h3]
  dsimp only
  rw [h24]
  simp only [State.perform, e1, State.targetRead, e2, regAddr_window _ _ _ _ hp, if_true, State.winRead, hitAt_hitOf _ _ _ _ hp, hl']

end Sys2Proof.Machine
end

