-- ==== Sys2Proof/Laws/Memory.lean ====
section
/-! SUPPORT. What every operation leaves of memory: an operation leaves it, or keeps its canonical form. One lemma per operation of the
files from Ops to Events. -/

set_option linter.unusedTactic false
set_option linter.unreachableTactic false

namespace Sys2Proof.Machine

@[simp] theorem State.ite_mem (c : Prop) [Decidable c] (a b : State) : (if c then a else b).mem = if c then a.mem else b.mem := apply_ite _ _ _ _

@[simp] theorem State.elim_mem {α : Type} (o : Option α) (s : State) (f : α → State) (h : ∀ x, (f x).mem = s.mem) : (o.elim s f).mem = s.mem := by cases o with
  | none => rfl
  | some x => exact h x

@[simp] theorem State.each_memwf {α : Type} (s : State) (l : List α) (f : State → α → State)
    (hf : ∀ s a, Memory.wf s.mem = true → Memory.wf (f s a).mem = true) (h_ : Memory.wf s.mem = true) :
    Memory.wf (s.each l f).mem = true := by
  unfold State.each
  induction l generalizing s with
  | nil => exact h_
  | cons a l ih => exact ih _ (hf s a h_)

@[simp] theorem State.when_memwf (s : State) (c : Bool) (f : State → State)
    (hf : ∀ s, Memory.wf s.mem = true → Memory.wf (f s).mem = true) (h_ : Memory.wf s.mem = true) :
    Memory.wf (s.when c f).mem = true := by
  unfold State.when
  split
  · exact hf s h_
  · exact h_

@[simp] theorem State.put_mem (s : State) (x : Fld) (v : Nat) (i : Nat) (j : Nat) (cp : Nat) : (State.put s x v i j cp).mem = s.mem := by unfold State.put; rfl

@[simp] theorem State.store_mem (s : State) (r : RegId) (w : Nat) (i : Nat) (j : Nat) (cp : Nat) : (State.store s r w i j cp).mem = s.mem := by unfold State.store; rfl

@[simp] theorem State.bump_mem (s : State) (x : Fld) (n : Nat) (i : Nat) (j : Nat) (cp : Nat) : (State.bump s x n i j cp).mem = s.mem := by unfold State.bump; simp

@[simp] theorem State.incr_mem (s : State) (x : Fld) (i : Nat) (j : Nat) (cp : Nat) : (State.incr s x i j cp).mem = s.mem := by unfold State.incr; simp

@[simp] theorem State.each_mem {α : Type} (s : State) (l : List α) (f : State → α → State) (hf : ∀ s0 x1, (f s0 x1).mem = s0.mem) : (State.each s l f).mem = s.mem := by
  unfold State.each
  induction l generalizing s with
  | nil => rfl
  | cons a l ih => simp only [List.foldl_cons]; rw [ih, hf]

@[simp] theorem State.when_mem (s : State) (c : Bool) (f : State → State) (hf : ∀ s0, (f s0).mem = s0.mem) : (State.when s c f).mem = s.mem := by
  unfold State.when
  first
    | with_reducible rfl
    | (simp; done)
    | (repeat'
        first
          | with_reducible rfl
          | (simp; done)
          | (simp_all; done)
          | (intro _)
          | (dsimp only)
          | split
          | (rename_i heq; obtain ⟨rfl, rfl⟩ := Prod.ext_iff.1 heq)
          | refine (State.each_mem _ _ _ ?_).trans ?_)

@[simp] theorem State.free_mem (s : State) : (State.free s).2.mem = s.mem := by unfold State.free; rfl

@[simp] theorem State.faultRecord_mem (s : State) (d cause source : Nat) (write : Bool) (addr unit detail : Nat) : (State.faultRecord s d cause source write addr unit detail).mem = s.mem := by unfold State.faultRecord; simp

@[simp] theorem State.flushStart_mem (s : State) : (State.flushStart s).mem = s.mem := by unfold State.flushStart; simp

@[simp] theorem State.alarm_mem (s : State) (code unit detail drawer : Nat) : (State.alarm s code unit detail drawer).mem = s.mem := by unfold State.alarm; simp

@[simp] theorem State.putFor_mem (s : State) (d : Nat) (x : Fld) (v : Nat) : (State.putFor s d x v).mem = s.mem := by unfold State.putFor; simp

@[simp] theorem State.bumpFor_mem (s : State) (d : Nat) (x : Fld) : (State.bumpFor s d x).mem = s.mem := by unfold State.bumpFor; simp

@[simp] theorem State.loseLog_mem (s : State) (d n : Nat) : (State.loseLog s d n).mem = s.mem := by unfold State.loseLog; simp

@[simp] theorem State.stageLost_mem (s : State) (d : Nat) : (State.stageLost s d).mem = s.mem := by unfold State.stageLost; simp

@[simp] theorem State.nextSeq_mem (s : State) (d : Nat) : (State.nextSeq s d).2.mem = s.mem := by unfold State.nextSeq; rfl

@[simp] theorem State.logEvent_mem (s : State) (d src unit bits : Nat) : (State.logEvent s d src unit bits).mem = s.mem := by unfold State.logEvent; simp

@[simp] theorem State.trace_mem (s : State) (d src unit a0 a1 : Nat) : (State.trace s d src unit a0 a1).mem = s.mem := by unfold State.trace; simp

@[simp] theorem State.raise_mem (s : State) (x : Fld) (mask i j cp : Nat) (owner : Option Nat) (src unit : Nat) : (State.raise s x mask i j cp owner src unit).mem = s.mem := by unfold State.raise; split <;> simp

@[simp] theorem State.sample_mem (s : State) (kind index : Nat) (v : Nat) : (State.sample s kind index v).mem = s.mem := by unfold State.sample; rfl

@[simp] theorem State.answer_mem (s : State) (ok : Bool) (data : Nat) : (State.answer s ok data).mem = s.mem := by unfold State.answer; rfl

@[simp] theorem State.cnt_mem (s : State) (p i n : Nat) : (State.cnt s p i n).mem = s.mem := by unfold State.cnt; simp

@[simp] theorem State.portEvt_mem (s : State) (p b : Nat) : (State.portEvt s p b).mem = s.mem := by unfold State.portEvt; simp

@[simp] theorem State.cntRx_mem (s : State) (p : Nat) (data : List Nat) : (State.cntRx s p data).mem = s.mem := by unfold State.cntRx; simp

@[simp] theorem State.cntTx_mem (s : State) (p : Nat) (data : List Nat) : (State.cntTx s p data).mem = s.mem := by unfold State.cntTx; simp

@[simp] theorem State.safenSet_mem (s : State) (b : Nat) : (State.safenSet s b).mem = s.mem := by unfold State.safenSet; simp

@[simp] theorem State.putRetired_mem (s : State) (kind unit : Nat) (b : Bool) : (State.putRetired s kind unit b).mem = s.mem := by unfold State.putRetired; simp

@[simp] theorem State.putSuspect_mem (s : State) (kind unit : Nat) (b : Bool) : (State.putSuspect s kind unit b).mem = s.mem := by unfold State.putSuspect; simp

@[simp] theorem State.retireUnit_mem (s : State) (kind unit code drawer detail : Nat) : (State.retireUnit s kind unit code drawer detail).mem = s.mem := by unfold State.retireUnit; simp

@[simp] theorem State.startTest_mem (s : State) (kind unit code drawer : Nat) (pass : Bool) : (State.startTest s kind unit code drawer pass).mem = s.mem := by unfold State.startTest; simp

@[simp] theorem State.putLc_mem (s : State) (c : Nat) (x : LoadCh) : (State.putLc s c x).mem = s.mem := by unfold State.putLc; rfl

@[simp] theorem State.mitreLine_mem (s : State) (n : Nat) : (State.mitreLine s n).mem = s.mem := by unfold State.mitreLine; simp

@[simp] theorem State.setFlag_mem (s : State) (c b : Nat) : (State.setFlag s c b).mem = s.mem := by unfold State.setFlag; simp

@[simp] theorem State.clearFlag_mem (s : State) (c b : Nat) : (State.clearFlag s c b).mem = s.mem := by unfold State.clearFlag; simp

@[simp] theorem State.flagTo_mem (s : State) (c b : Nat) (v : Bool) : (State.flagTo s c b v).mem = s.mem := by unfold State.flagTo; simp

@[simp] theorem State.offDone_mem (s : State) (c : Nat) : (State.offDone s c).mem = s.mem := by unfold State.offDone; simp

@[simp] theorem State.turnOn_mem (s : State) (c : Nat) : (State.turnOn s c).mem = s.mem := by
  unfold State.turnOn
  first
    | with_reducible rfl
    | (simp; done)
    | (repeat'
        first
          | with_reducible rfl
          | (simp; done)
          | (simp_all; done)
          | (intro _)
          | (dsimp only)
          | split
          | (rename_i heq; obtain ⟨rfl, rfl⟩ := Prod.ext_iff.1 heq)
          | refine (State.each_mem _ _ _ ?_).trans ?_)

@[simp] theorem State.applyCmd_mem (s : State) (c cmd : Nat) (fast : Bool) : (State.applyCmd s c cmd fast).mem = s.mem := by unfold State.applyCmd; simp

@[simp] theorem State.resolve_mem (s : State) (c : Nat) : (State.resolve s c).mem = s.mem := by unfold State.resolve; simp

@[simp] theorem State.setDrive_mem (s : State) (c : Nat) (v : Bool) : (State.setDrive s c v).mem = s.mem := by unfold State.setDrive; simp

@[simp] theorem State.drive_mem (s : State) (c : Nat) (v : Bool) : (State.drive s c v).mem = s.mem := by unfold State.drive; simp

@[simp] theorem State.retireChan_mem (s : State) (c cause : Nat) : (State.retireChan s c cause).mem = s.mem := by unfold State.retireChan; simp

@[simp] theorem State.trip_mem (s : State) (c cause : Nat) : (State.trip s c cause).mem = s.mem := by unfold State.trip; simp

@[simp] theorem State.tempLatch_mem (s : State) (c : Nat) : (State.tempLatch s c).mem = s.mem := by unfold State.tempLatch; simp

@[simp] theorem State.restart_mem (s : State) (c : Nat) : (State.restart s c).mem = s.mem := by unfold State.restart; simp

@[simp] theorem State.rearm_mem (s : State) (c : Nat) : (State.rearm s c).mem = s.mem := by unfold State.rearm; simp

@[simp] theorem State.episodeClose_mem (s : State) (c : Nat) : (State.episodeClose s c).mem = s.mem := by unfold State.episodeClose; simp

@[simp] theorem State.freshProt_mem (s : State) (c : Nat) : (State.freshProt s c).mem = s.mem := by unfold State.freshProt; simp

@[simp] theorem State.wireModel_mem (s : State) (c meanI2 : Nat) : (State.wireModel s c meanI2).mem = s.mem := by unfold State.wireModel; simp

@[simp] theorem State.sleepDrop_mem (s : State) (c : Nat) : (State.sleepDrop s c).mem = s.mem := by unfold State.sleepDrop; simp

@[simp] theorem State.sleepLift_mem (s : State) (c : Nat) : (State.sleepLift s c).mem = s.mem := by unfold State.sleepLift; simp

@[simp] theorem State.holdBegin_mem (s : State) (by_ c : Nat) : (State.holdBegin s by_ c).mem = s.mem := by unfold State.holdBegin; simp

@[simp] theorem State.holdExpire_mem (s : State) (c : Nat) : (State.holdExpire s c).mem = s.mem := by unfold State.holdExpire; simp

@[simp] theorem State.holdEnd_mem (s : State) (c : Nat) : (State.holdEnd s c).mem = s.mem := by unfold State.holdEnd; simp

@[simp] theorem State.putPw_mem (s : State) (k : Nat) (x : PwmSt) : (State.putPw s k x).mem = s.mem := by unfold State.putPw; rfl

@[simp] theorem State.pwmOut_mem (s : State) (k : Nat) (v : Bool) : (State.pwmOut s k v).mem = s.mem := by unfold State.pwmOut; simp

@[simp] theorem State.putFd_mem (s : State) (f : Nat) (x : FeedSt) : (State.putFd s f x).mem = s.mem := by unfold State.putFd; rfl

@[simp] theorem State.shedChan_mem (s : State) (c : Nat) : (State.shedChan s c).mem = s.mem := by unfold State.shedChan; simp

@[simp] theorem State.putPin_mem (s : State) (p : Nat) (x : PinSt) : (State.putPin s p x).mem = s.mem := by unfold State.putPin; rfl

@[simp] theorem State.sense_mem (s : State) (p mv : Nat) : (State.sense s p mv).mem = s.mem := by unfold State.sense; rfl

@[simp] theorem State.sensePins_mem (s : State) (l : PinMv) : (State.sensePins s l).mem = s.mem := by unfold State.sensePins; simp

@[simp] theorem State.frontStart_mem (s : State) (l : PinMv) : (State.frontStart s l).mem = s.mem := by unfold State.frontStart; simp

@[simp] theorem State.miEvent_mem (s : State) (p : Nat) (x : Fld) : (State.miEvent s p x).mem = s.mem := by unfold State.miEvent; simp

@[simp] theorem State.miLevel_mem (s : State) (p : Nat) (v : Bool) : (State.miLevel s p v).mem = s.mem := by unfold State.miLevel; simp

@[simp] theorem State.miConvert_mem (s : State) (p code : Nat) (comp : Bool) : (State.miConvert s p code comp).mem = s.mem := by unfold State.miConvert; simp

@[simp] theorem State.miEdge_mem (s : State) (p ticks : Nat) : (State.miEdge s p ticks).mem = s.mem := by unfold State.miEdge; simp

@[simp] theorem State.miStall_mem (s : State) (p : Nat) : (State.miStall s p).mem = s.mem := by unfold State.miStall; simp

@[simp] theorem State.drvLevel_mem (s : State) (p : Nat) (high : Bool) : (State.drvLevel s p high).mem = s.mem := by
  unfold State.drvLevel
  first
    | with_reducible rfl
    | (simp; done)
    | (repeat'
        first
          | with_reducible rfl
          | (simp; done)
          | (simp_all; done)
          | (intro _)
          | (dsimp only)
          | split
          | (rename_i heq; obtain ⟨rfl, rfl⟩ := Prod.ext_iff.1 heq)
          | refine (State.each_mem _ _ _ ?_).trans ?_)

@[simp] theorem State.clampChan_mem (s : State) (c : Nat) : (State.clampChan s c).mem = s.mem := by unfold State.clampChan; simp

@[simp] theorem State.clampTargets_mem (s : State) (r : Nat) : (State.clampTargets s r).mem = s.mem := by unfold State.clampTargets; simp

@[simp] theorem State.ruleFire_mem (s : State) (r : Nat) : (State.ruleFire s r).mem = s.mem := by unfold State.ruleFire; simp

@[simp] theorem State.ruleStep_mem (s : State) (r : Nat) (v : Bool) : (State.ruleStep s r v).mem = s.mem := by unfold State.ruleStep; simp

@[simp] theorem State.ruleMove_mem (s : State) (r : Nat) (v : Bool) : (State.ruleMove s r v).mem = s.mem := by unfold State.ruleMove; simp

@[simp] theorem State.ruleShow_mem (s : State) (r : Nat) : (State.ruleShow s r).mem = s.mem := by unfold State.ruleShow; simp

@[simp] theorem State.ruleAck_mem (s : State) (r : Nat) : (State.ruleAck s r).mem = s.mem := by unfold State.ruleAck; simp

@[simp] theorem State.ruleLoad_mem (s : State) (r : Nat) : (State.ruleLoad s r).mem = s.mem := by unfold State.ruleLoad; simp

@[simp] theorem State.putSlot_mem (s : State) (n : Nat) (v : Word) : (State.putSlot s n v).mem = s.mem := by unfold State.putSlot; rfl

@[simp] theorem State.putTk_mem (s : State) (k : Nat) (x : TaskSt) : (State.putTk s k x).mem = s.mem := by unfold State.putTk; rfl

@[simp] theorem State.writeSlot_mem (s : State) (k n : Nat) (v : Word) : (State.writeSlot s k n v).mem = s.mem := by unfold State.writeSlot; simp

@[simp] theorem State.lthErr_mem (s : State) (task cause op arg : Nat) : (State.lthErr s task cause op arg).mem = s.mem := by unfold State.lthErr; simp

@[simp] theorem State.putStn_mem (s : State) (n : Nat) (x : StnSt) : (State.putStn s n x).mem = s.mem := by unfold State.putStn; rfl

@[simp] theorem State.emit_mem (s : State) (kind unit dest : Nat) (data : List Nat) : (State.emit s kind unit dest data).mem = s.mem := by unfold State.emit; rfl

@[simp] theorem State.canQueue_mem (s : State) (k id : Nat) (ide : Bool) (pdu : List Nat) : (State.canQueue s k id ide pdu).mem = s.mem := by unfold State.canQueue; simp

@[simp] theorem State.stnSend_mem (s : State) (e dest : Nat) (pdu : List Nat) : (State.stnSend s e dest pdu).mem = s.mem := by unfold State.stnSend; simp

@[simp] theorem State.sendOut_mem (s : State) (n : Nat) : (State.sendOut s n).mem = s.mem := by unfold State.sendOut; simp

@[simp] theorem State.sendSync_mem (s : State) (k : Nat) : (State.sendSync s k).mem = s.mem := by unfold State.sendSync; simp

@[simp] theorem State.stnDrop_mem (s : State) (n cause : Nat) : (State.stnDrop s n cause).mem = s.mem := by unfold State.stnDrop; simp

@[simp] theorem State.stnValid_mem (s : State) (n seq : Nat) (fault : Bool) (vals : List Nat) : (State.stnValid s n seq fault vals).mem = s.mem := by unfold State.stnValid; simp

@[simp] theorem State.stationIn_mem (s : State) (n : Nat) (pdu : List Nat) : (State.stationIn s n pdu).mem = s.mem := by unfold State.stationIn; simp

@[simp] theorem State.stnMessage_mem (s : State) (eth : Bool) (e src : Nat) (pdu : List Nat) : (State.stnMessage s eth e src pdu).mem = s.mem := by unfold State.stnMessage; split <;> simp

@[simp] theorem State.publish_mem (s : State) (slots : List Nat) (ends : Bool) : (State.publish s slots ends).mem = s.mem := by unfold State.publish; simp

@[simp] theorem State.firstCommit_mem (s : State) : (State.firstCommit s).mem = s.mem := by unfold State.firstCommit; simp

@[simp] theorem State.commitRest_mem (s : State) (k : Nat) : (State.commitRest s k).mem = s.mem := by unfold State.commitRest; simp

@[simp] theorem State.putLane_mem (s : State) (l : Nat) (t : Option Nat) : (State.putLane s l t).mem = s.mem := by unfold State.putLane; rfl

@[simp] theorem State.startRun_mem (s : State) (k : Nat) : (State.startRun s k).mem = s.mem := by unfold State.startRun; simp

@[simp] theorem State.laneNext_mem (s : State) (l : Nat) : (State.laneNext s l).mem = s.mem := by unfold State.laneNext; split <;> simp

@[simp] theorem State.abandon_mem (s : State) (k : Nat) : (State.abandon s k).mem = s.mem := by unfold State.abandon; simp

@[simp] theorem State.faultStop_mem (s : State) (k : Nat) : (State.faultStop s k).mem = s.mem := by unfold State.faultStop; simp

@[simp] theorem State.faultRun_mem (s : State) (k cause op : Nat) : (State.faultRun s k cause op).mem = s.mem := by unfold State.faultRun; simp

@[simp] theorem State.sampleInputs_mem (s : State) (k : Nat) (maps : List Nat) : (State.sampleInputs s k maps).mem = s.mem := by unfold State.sampleInputs; simp

@[simp] theorem State.release_mem (s : State) (k tb : Nat) : (State.release s k tb).mem = s.mem := by unfold State.release; simp

@[simp] theorem State.latchDone_mem (s : State) (k : Nat) : (State.latchDone s k).mem = s.mem := by
  unfold State.latchDone
  first
    | with_reducible rfl
    | (simp; done)
    | (repeat'
        first
          | with_reducible rfl
          | (simp; done)
          | (simp_all; done)
          | (intro _)
          | (dsimp only)
          | split
          | (rename_i heq; obtain ⟨rfl, rfl⟩ := Prod.ext_iff.1 heq)
          | refine (State.each_mem _ _ _ ?_).trans ?_)

@[simp] theorem State.limitRun_mem (s : State) (k : Nat) : (State.limitRun s k).mem = s.mem := by unfold State.limitRun; simp

@[simp] theorem State.execEnd_mem (s : State) (l : Nat) : (State.execEnd s l).mem = s.mem := by unfold State.execEnd; split <;> simp

@[simp] theorem State.commit_mem (s : State) (k resp : Nat) : (State.commit s k resp).mem = s.mem := by
  unfold State.commit
  first
    | with_reducible rfl
    | (simp; done)
    | (repeat'
        first
          | with_reducible rfl
          | (simp; done)
          | (simp_all; done)
          | (intro _)
          | (dsimp only)
          | split
          | (rename_i heq; obtain ⟨rfl, rfl⟩ := Prod.ext_iff.1 heq)
          | refine (State.each_mem _ _ _ ?_).trans ?_)

@[simp] theorem State.retCommit_mem (s : State) (im : RetImg) : (State.retCommit s im).mem = s.mem := by unfold State.retCommit; simp

@[simp] theorem State.retSave_mem (s : State) : (State.retSave s).mem = s.mem := by unfold State.retSave; simp

@[simp] theorem State.fixTimers_mem (s : State) : (State.fixTimers s).mem = s.mem := by unfold State.fixTimers; simp

@[simp] theorem State.initSlots_mem (s : State) (warm : Bool) : (State.initSlots s warm).mem = s.mem := by unfold State.initSlots; simp

@[simp] theorem State.adoptBits_mem (s : State) (warm fresh : Bool) : (State.adoptBits s warm fresh).mem = s.mem := by unfold State.adoptBits; simp

@[simp] theorem State.restartForces_mem (s : State) (warm load : Bool) : (State.restartForces s warm load).mem = s.mem := by unfold State.restartForces; simp

@[simp] theorem State.latheInit_mem (s : State) (load : Bool) : (State.latheInit s load).mem = s.mem := by unfold State.latheInit; simp

@[simp] theorem State.tellDropped_mem (s : State) : (State.tellDropped s).mem = s.mem := by unfold State.tellDropped; simp

@[simp] theorem State.enterRunning_mem (s : State) : (State.enterRunning s).mem = s.mem := by
  unfold State.enterRunning
  (repeat'
    first
      | with_reducible rfl
      | (simp +zetaDelta; done)
      | (intro _)
      | (extract_lets)
      | split
      | (rename_i heq; obtain ⟨rfl, rfl⟩ := Prod.ext_iff.1 heq)
      | refine (State.each_mem _ _ _ ?_).trans ?_)

@[simp] theorem State.abortChanges_mem (s : State) : (State.abortChanges s).mem = s.mem := by unfold State.abortChanges; simp

@[simp] theorem State.engineStop_mem (s : State) : (State.engineStop s).mem = s.mem := by unfold State.engineStop; simp

@[simp] theorem State.reloaded_mem (s : State) : (State.reloaded s).mem = s.mem := by unfold State.reloaded; simp

@[simp] theorem State.putItems_mem (s : State) (cp : Nat) (l : List (Nat × Word)) : (State.putItems s cp l).mem = s.mem := by unfold State.putItems; simp

@[simp] theorem State.applyForce_mem (s : State) (r : ForceReq) : (State.applyForce s r).mem = s.mem := by unfold State.applyForce; simp

@[simp] theorem State.applyForces_mem (s : State) : (State.applyForces s).mem = s.mem := by unfold State.applyForces; simp

@[simp] theorem State.applyChange_mem (s : State) (cp : Nat) : (State.applyChange s cp).mem = s.mem := by unfold State.applyChange; simp

@[simp] theorem State.applyWaiting_mem (s : State) (l : List Nat) : (State.applyWaiting s l).mem = s.mem := by
  induction l generalizing s with
  | nil => rfl
  | cons a l ih => unfold State.applyWaiting; (repeat' first | with_reducible rfl | (simp [ih]; done) | split)

@[simp] theorem State.applyInstant_mem (s : State) : (State.applyInstant s).mem = s.mem := by unfold State.applyInstant; simp

@[simp] theorem State.changeCommit_mem (s : State) (cp : Nat) : (State.changeCommit s cp).mem = s.mem := by
  unfold State.changeCommit
  (repeat'
    first
      | with_reducible rfl
      | (simp +zetaDelta; done)
      | (intro _)
      | (extract_lets)
      | split
      | (rename_i heq; obtain ⟨rfl, rfl⟩ := Prod.ext_iff.1 heq)
      | refine (State.each_mem _ _ _ ?_).trans ?_)

@[simp] theorem State.forceRequest_mem (s : State) (cp op : Nat) : (State.forceRequest s cp op).mem = s.mem := by
  unfold State.forceRequest
  (repeat'
    first
      | with_reducible rfl
      | (simp +zetaDelta; done)
      | (intro _)
      | (extract_lets)
      | split
      | (rename_i heq; obtain ⟨rfl, rfl⟩ := Prod.ext_iff.1 heq)
      | refine (State.each_mem _ _ _ ?_).trans ?_)

@[simp] theorem State.putLmemA_mem (s : State) (a : Nat) (v : Word) : (State.putLmemA s a v).mem = s.mem := by unfold State.putLmemA; rfl

@[simp] theorem State.putLmemB_mem (s : State) (a : Nat) (v : Word) : (State.putLmemB s a v).mem = s.mem := by unfold State.putLmemB; rfl

@[simp] theorem State.putBank1_mem (s : State) (a : Nat) (v : Word) : (State.putBank1 s a v).mem = s.mem := by unfold State.putBank1; rfl

@[simp] theorem State.lmemAdvance_mem (s : State) : (State.lmemAdvance s).mem = s.mem := by unfold State.lmemAdvance; simp

@[simp] theorem State.lmemWrite_mem (s : State) (v : Word) : (State.lmemWrite s v).mem = s.mem := by unfold State.lmemWrite; simp

@[simp] theorem State.mtrZero_mem (s : State) : (State.mtrZero s).mem = s.mem := by unfold State.mtrZero; rfl

@[simp] theorem State.mtrLast_mem (s : State) (kind odd : Nat) (d : Nat × Nat × Nat) : (State.mtrLast s kind odd d).mem = s.mem := by unfold State.mtrLast; simp

@[simp] theorem State.mtrIrq_mem (s : State) (b : Nat) : (State.mtrIrq s b).mem = s.mem := by unfold State.mtrIrq; simp

@[simp] theorem State.coreTrap_mem (s : State) (c : Nat) (cause tval : Word) : (State.coreTrap s c cause tval).mem = s.mem := by unfold State.coreTrap; simp

@[simp] theorem State.coreIrq_mem (s : State) (c lines : Nat) : (State.coreIrq s c lines).mem = s.mem := by unfold State.coreIrq; split <;> simp

@[simp] theorem State.checkpoint_mem (s : State) : (State.checkpoint s).mem = s.mem := by unfold State.checkpoint; simp

@[simp] theorem State.nextSlice_mem (s : State) : (State.nextSlice s).mem = s.mem := by unfold State.nextSlice; simp

@[simp] theorem State.mtrReject_mem (s : State) : (State.mtrReject s).mem = s.mem := by unfold State.mtrReject; simp

@[simp] theorem State.mtrRun_mem (s : State) (cores : Nat) : (State.mtrRun s cores).mem = s.mem := by unfold State.mtrRun; simp

@[simp] theorem State.mtrHalt_mem (s : State) (cores : Nat) : (State.mtrHalt s cores).mem = s.mem := by unfold State.mtrHalt; simp

@[simp] theorem State.mtrTest_mem (s : State) : (State.mtrTest s).mem = s.mem := by unfold State.mtrTest; simp

@[simp] theorem State.mtrClear_mem (s : State) : (State.mtrClear s).mem = s.mem := by unfold State.mtrClear; simp

@[simp] theorem State.mtrCommand_mem (s : State) (cmd cores : Nat) : (State.mtrCommand s cmd cores).mem = s.mem := by unfold State.mtrCommand; (repeat' split) <;> simp

@[simp] theorem State.mtrStopReq_mem (s : State) : (State.mtrStopReq s).mem = s.mem := by unfold State.mtrStopReq; simp

@[simp] theorem State.safeActions_mem (s : State) (cause : Nat) : (State.safeActions s cause).mem = s.mem := by unfold State.safeActions; simp

@[simp] theorem State.safeFault_mem (s : State) (cause : Nat) : (State.safeFault s cause).mem = s.mem := by unfold State.safeFault; simp

@[simp] theorem State.mtrSelfTest_mem (s : State) (lanes : Nat) (sigFail : Bool) : (State.mtrSelfTest s lanes sigFail).mem = s.mem := by unfold State.mtrSelfTest; simp

@[simp] theorem State.copyAEnd_mem (s : State) (r : CopyRec) : (State.copyAEnd s r).mem = s.mem := by unfold State.copyAEnd; simp

@[simp] theorem State.copyBState_mem (s : State) (r : CopyRec) : (State.copyBState s r).mem = s.mem := by unfold State.copyBState; simp

@[simp] theorem State.sliceReleased_mem (s : State) : (State.sliceReleased s).mem = s.mem := by unfold State.sliceReleased; simp

@[simp] theorem State.mtrGap_mem (s : State) (ix now : Nat) (old : List Nat) : (State.mtrGap s ix now old).mem = s.mem := by unfold State.mtrGap; split <;> simp

@[simp] theorem State.latentEvent_mem (s : State) (a b : CopyRec) : (State.latentEvent s a b).2.mem = s.mem := by unfold State.latentEvent; simp

@[simp] theorem State.mismatchEvent_mem (s : State) (odd : Nat) (a b : CopyRec) : (State.mismatchEvent s odd a b).2.mem = s.mem := by unfold State.mismatchEvent; simp

@[simp] theorem State.resyncBegin_mem (s : State) (odd : Nat) : (State.resyncBegin s odd).mem = s.mem := by unfold State.resyncBegin; simp

@[simp] theorem State.putOverlay_mem (s : State) (a : Nat) (v : Word) : (State.putOverlay s a v).mem = s.mem := by unfold State.putOverlay; rfl

@[simp] theorem State.copyCState_mem (s : State) (r : CopyRec) : (State.copyCState s r).mem = s.mem := by unfold State.copyCState; simp

@[simp] theorem State.resyncEnd_mem (s : State) : (State.resyncEnd s).mem = s.mem := by unfold State.resyncEnd; split <;> simp

@[simp] theorem State.putLmemByte_mem (s : State) (c a v : Nat) : (State.putLmemByte s c a v).mem = s.mem := by unfold State.putLmemByte; simp

@[simp] theorem State.lmemStore_mem (s : State) (c a n v : Nat) : (State.lmemStore s c a n v).mem = s.mem := by unfold State.lmemStore; simp

@[simp] theorem State.lmemAccess_mem (s : State) (c a n : Nat) (op : AccOp) (data : Nat) : (State.lmemAccess s c a n op data).mem = s.mem := by unfold State.lmemAccess; split <;> simp

@[simp] theorem State.mtrLogged_mem (s : State) (a : Access) : (State.mtrLogged s a).mem = s.mem := by unfold State.mtrLogged; simp

@[simp] theorem State.putIsl_mem (s : State) (n st : Nat) : (State.putIsl s n st).mem = s.mem := by unfold State.putIsl; simp

@[simp] theorem State.islandWake_mem (s : State) (n : Nat) (off : Bool) : (State.islandWake s n off).mem = s.mem := by unfold State.islandWake; simp

@[simp] theorem State.ungate_mem (s : State) (n : Nat) : (State.ungate s n).mem = s.mem := by unfold State.ungate; simp

@[simp] theorem State.aerr_mem (s : State) (tag : Tag) (addr : Nat) (write : Bool) (cause : Nat) : (State.aerr s tag addr write cause).mem = s.mem := by unfold State.aerr; simp

@[simp] theorem State.memStore_memwf (s : State) (a : Nat) (l : List Nat) (h_ : Memory.wf s.mem = true) : Memory.wf (State.memStore s a l).mem = true := memWrite_wf _ _ _ h_

@[simp] theorem State.nextTag_mem (s : State) (d src : Nat) : (State.nextTag s d src).2.mem = s.mem := by unfold State.nextTag; rfl

@[simp] theorem State.addFailure_mem (s : State) (d src tag cause : Nat) : (State.addFailure s d src tag cause).mem = s.mem := by unfold State.addFailure; simp

@[simp] theorem State.farFailure_mem (s : State) (d src unit addr tag cause data : Nat) : (State.farFailure s d src unit addr tag cause data).mem = s.mem := by unfold State.farFailure; simp

@[simp] theorem State.hostWrite_mem (s : State) (d src unit va addr : Nat) (l : List Nat) : (State.hostWrite s d src unit va addr l).mem = s.mem := by unfold State.hostWrite; simp

@[simp] theorem State.shareUse_mem (s : State) (k d : Nat) : (State.shareUse s k d).mem = s.mem := by unfold State.shareUse; split <;> simp

@[simp] theorem State.arbMove_mem (s : State) (k : Nat) (d : Fin 16) : (State.arbMove s k d).mem = s.mem := by unfold State.arbMove; simp

@[simp] theorem State.pteUpdate_memwf (s : State) (d : Nat) (h : HostMem) (u : Place × Nat) (h_ : Memory.wf s.mem = true) : Memory.wf (State.pteUpdate s d h u).mem = true := by unfold State.pteUpdate; split <;> simp [h_]

@[simp] theorem State.walkDone_memwf (s : State) (d : Nat) (sec : Bool) (h : HostMem) (va : Nat) (wr : Bool) (h_ : Memory.wf s.mem = true) : Memory.wf (State.walkDone s d sec h va wr).mem = true := by
  unfold State.walkDone
  (repeat'
    first
      | exact h_
      | with_reducible rfl
      | (simp [*]; done)
      | (simp_all; done)
      | (intro _)
      | (dsimp only)
      | split
      | (rename_i heq; obtain ⟨rfl, rfl⟩ := Prod.ext_iff.1 heq)
      | refine State.each_memwf _ _ _ ?_ ?_)

@[simp] theorem State.dmaUngate_mem (s : State) (d : Nat) (sec : Bool) (l : List (Bool × Piece)) : (State.dmaUngate s d sec l).mem = s.mem := by
  unfold State.dmaUngate
  first
    | with_reducible rfl
    | (simp; done)
    | (repeat'
        first
          | with_reducible rfl
          | (simp; done)
          | (simp_all; done)
          | (intro _)
          | (dsimp only)
          | split
          | (rename_i heq; obtain ⟨rfl, rfl⟩ := Prod.ext_iff.1 heq)
          | refine (State.each_mem _ _ _ ?_).trans ?_)

@[simp] theorem State.dmaGrants_mem (s : State) (d : Nat) (sec : Bool) (l : List (Bool × Piece)) : (State.dmaGrants s d sec l).mem = s.mem := by
  unfold State.dmaGrants
  first
    | with_reducible rfl
    | (simp; done)
    | (repeat'
        first
          | with_reducible rfl
          | (simp; done)
          | (simp_all; done)
          | (intro _)
          | (dsimp only)
          | split
          | (rename_i heq; obtain ⟨rfl, rfl⟩ := Prod.ext_iff.1 heq)
          | refine (State.each_mem _ _ _ ?_).trans ?_)

@[simp] theorem State.dirtyLog_memwf (s : State) (d va : Nat) (h_ : Memory.wf s.mem = true) : Memory.wf (State.dirtyLog s d va).mem = true := by
  unfold State.dirtyLog
  (repeat'
    first
      | exact h_
      | with_reducible rfl
      | (simp [*]; done)
      | (simp_all; done)
      | (intro _)
      | (dsimp only)
      | split
      | (rename_i heq; obtain ⟨rfl, rfl⟩ := Prod.ext_iff.1 heq)
      | refine State.each_memwf _ _ _ ?_ ?_)

theorem State.writePieces_memwf {s : State} {d r : Nat} {sec : Bool} {ps : List Piece} {l : List Nat} {t : State}
    (h : s.writePieces d r sec ps l = some t) (h_ : Memory.wf s.mem = true) : Memory.wf t.mem = true := by
  induction ps generalizing s l with
  | nil => simp only [State.writePieces, Option.some.injEq] at h; rw [← h]; exact h_
  | cons p ps ih =>
    simp only [State.writePieces] at h
    split at h
    · cases h
    · refine ih h ?_
      apply State.dirtyLog_memwf
      split
      · simpa using h_
      · exact State.memStore_memwf _ _ _ h_

@[simp] theorem State.dirtySwap_mem (s : State) (d : Nat) : (State.dirtySwap s d).mem = s.mem := by unfold State.dirtySwap; simp

@[simp] theorem State.putRg_mem (s : State) (r : Nat) (x : RingSt) : (State.putRg s r x).mem = s.mem := by unfold State.putRg; rfl

@[simp] theorem State.ringSignal_mem (s : State) (r : Nat) : (State.ringSignal s r).mem = s.mem := by unfold State.ringSignal; split <;> simp

@[simp] theorem State.descFetched_mem (s : State) (r : Nat) (l : List Nat) : (State.descFetched s r l).mem = s.mem := by
  unfold State.descFetched
  first
    | with_reducible rfl
    | (simp; done)
    | (repeat'
        first
          | with_reducible rfl
          | (simp; done)
          | (simp_all; done)
          | (intro _)
          | (dsimp only)
          | split
          | (rename_i heq; obtain ⟨rfl, rfl⟩ := Prod.ext_iff.1 heq)
          | refine (State.each_mem _ _ _ ?_).trans ?_)

@[simp] theorem State.descFetch_mem (s : State) (r : Nat) (h : HostMem) : (State.descFetch s r h).mem = s.mem := by
  unfold State.descFetch
  first
    | with_reducible rfl
    | (simp; done)
    | (repeat'
        first
          | with_reducible rfl
          | (simp; done)
          | (simp_all; done)
          | (intro _)
          | (dsimp only)
          | split
          | (rename_i heq; obtain ⟨rfl, rfl⟩ := Prod.ext_iff.1 heq)
          | refine (State.each_mem _ _ _ ?_).trans ?_)

@[simp] theorem State.closeBuf_mem (s : State) (r : Nat) : (State.closeBuf s r).mem = s.mem := by unfold State.closeBuf; simp

@[simp] theorem State.addRecord_mem (s : State) (r : Nat) (l : List Nat) : (State.addRecord s r l).mem = s.mem := by unfold State.addRecord; simp

@[simp] theorem State.txQueued_mem (s : State) (r : Nat) : (State.txQueued s r).mem = s.mem := by unfold State.txQueued; rfl

@[simp] theorem State.updReach_mem (s : State) (r : Nat) (x : Desc) : (State.updReach s r x).mem = s.mem := by unfold State.updReach; simp

@[simp] theorem State.unitTaken_mem (s : State) (r n : Nat) (x : Desc) (data : List Nat) : (State.unitTaken s r n x data).mem = s.mem := by
  unfold State.unitTaken
  (repeat'
    first
      | with_reducible rfl
      | (simp +zetaDelta; done)
      | (intro _)
      | (extract_lets)
      | split
      | (rename_i heq; obtain ⟨rfl, rfl⟩ := Prod.ext_iff.1 heq)
      | refine (State.each_mem _ _ _ ?_).trans ?_)

@[simp] theorem State.unitGrants_mem (s : State) (r d : Nat) : (State.unitGrants s r d).mem = s.mem := by unfold State.unitGrants; simp

@[simp] theorem State.unitCommit_memwf (s : State) (r : Nat) (h : HostMem) (h_ : Memory.wf s.mem = true) : Memory.wf (State.unitCommit s r h).mem = true := by
  unfold State.unitCommit
  dsimp only
  split
  · split
    · exact h_
    · split
      · exact h_
      · split
        · simp [h_]
        · split
          · simp [h_]
          · rename_i heq
            rw [State.unitTaken_mem]
            exact State.writePieces_memwf heq (by simp [h_])
  · exact h_

@[simp] theorem State.faultCode_mem (s : State) (cause : Nat) : (State.faultCode s cause).2.mem = s.mem := by unfold State.faultCode; split <;> simp

@[simp] theorem State.faultShown_mem (s : State) (r : Nat) (n : Nat × Bool × Piece) (f : DmaFault) : (State.faultShown s r n f).mem = s.mem := by unfold State.faultShown; simp

@[simp] theorem State.faultTaken_mem (s : State) (r d : Nat) (n : Nat × Bool × Piece) (f : DmaFault) : (State.faultTaken s r d n f).mem = s.mem := by unfold State.faultTaken; simp

@[simp] theorem State.ringEnable_mem (s : State) (r : Nat) : (State.ringEnable s r).mem = s.mem := by unfold State.ringEnable; simp

@[simp] theorem State.charge_mem (s : State) (d n : Nat) : (State.charge s d n).mem = s.mem := by unfold State.charge; simp

@[simp] theorem State.uncharge_mem (s : State) (d n : Nat) : (State.uncharge s d n).mem = s.mem := by unfold State.uncharge; simp

@[simp] theorem State.putCn_mem (s : State) (k : Nat) (x : CanSt) : (State.putCn s k x).mem = s.mem := by unfold State.putCn; rfl

@[simp] theorem State.canNoRing_mem (s : State) (k : Nat) : (State.canNoRing s k).mem = s.mem := by unfold State.canNoRing; simp

@[simp] theorem State.updOrphan_mem (s : State) (r : Nat) : (State.updOrphan s r).mem = s.mem := by unfold State.updOrphan; rfl

@[simp] theorem State.txFree_mem (s : State) (r : Nat) : (State.txFree s r).mem = s.mem := by unfold State.txFree; split <;> simp

@[simp] theorem State.ringOff_mem (s : State) (r : Nat) : (State.ringOff s r).mem = s.mem := by unfold State.ringOff; simp

@[simp] theorem State.ringResume_mem (s : State) (r : Nat) : (State.ringResume s r).mem = s.mem := by unfold State.ringResume; split <;> simp

@[simp] theorem State.tailWrite_mem (s : State) (r v : Nat) : (State.tailWrite s r v).mem = s.mem := by unfold State.tailWrite; (repeat' split) <;> simp

@[simp] theorem State.invalScope_mem (s : State) (scope d page : Nat) : (State.invalScope s scope d page).mem = s.mem := by unfold State.invalScope; rfl

@[simp] theorem State.invalGo_mem (s : State) (scope d : Nat) : (State.invalGo s scope d).mem = s.mem := by unfold State.invalGo; simp

@[simp] theorem State.invalDone_mem (s : State) : (State.invalDone s).mem = s.mem := by unfold State.invalDone; split <;> simp

@[simp] theorem State.s1InvalDone_mem (s : State) (d : Nat) : (State.s1InvalDone s d).mem = s.mem := by unfold State.s1InvalDone; simp

@[simp] theorem State.granuleWrite_mem (s : State) (dram : Bool) (g : Nat) (w : Nat) : (State.granuleWrite s dram g w).mem = s.mem := by unfold State.granuleWrite; simp

@[simp] theorem State.dropIn_mem (s : State) (p r : Nat) : (State.dropIn s p r).mem = s.mem := by unfold State.dropIn; simp

@[simp] theorem State.dropQ_mem (s : State) (q r : Nat) : (State.dropQ s q r).mem = s.mem := by
  unfold State.dropQ
  first
    | with_reducible rfl
    | (simp; done)
    | (repeat'
        first
          | with_reducible rfl
          | (simp; done)
          | (simp_all; done)
          | (intro _)
          | (dsimp only)
          | split
          | (rename_i heq; obtain ⟨rfl, rfl⟩ := Prod.ext_iff.1 heq)
          | refine (State.each_mem _ _ _ ?_).trans ?_)

@[simp] theorem State.putOcc_mem (s : State) (q n : Nat) : (State.putOcc s q n).mem = s.mem := by unfold State.putOcc; simp

@[simp] theorem State.putQueue_mem (s : State) (q : Nat) (l : List QCopy) : (State.putQueue s q l).mem = s.mem := by unfold State.putQueue; rfl

@[simp] theorem State.putSending_mem (s : State) (k : Nat) (x : Option QCopy) : (State.putSending s k x).mem = s.mem := by unfold State.putSending; rfl

@[simp] theorem State.putSuspended_mem (s : State) (p : Nat) (x : Option QCopy) : (State.putSuspended s p x).mem = s.mem := by unfold State.putSuspended; rfl

@[simp] theorem State.frameRelease_mem (s : State) (fid : Nat) : (State.frameRelease s fid).mem = s.mem := by
  unfold State.frameRelease
  first
    | with_reducible rfl
    | (simp; done)
    | (repeat'
        first
          | with_reducible rfl
          | (simp; done)
          | (simp_all; done)
          | (intro _)
          | (dsimp only)
          | split
          | (rename_i heq; obtain ⟨rfl, rfl⟩ := Prod.ext_iff.1 heq)
          | refine (State.each_mem _ _ _ ?_).trans ?_)

@[simp] theorem State.release__mem (s : State) (q : Nat) (x : QCopy) : (State.release_ s q x).mem = s.mem := by unfold State.release_; split <;> simp

@[simp] theorem State.putTbl_mem (s : State) (t i : Nat) (l : List Nat) : (State.putTbl s t i l).mem = s.mem := by unfold State.putTbl; rfl

@[simp] theorem State.tblCount_mem (s : State) (t i w : Nat) : (State.tblCount s t i w).mem = s.mem := by unfold State.tblCount; simp

@[simp] theorem State.putList_mem (s : State) (t i : Nat) (x : Option ListSt) : (State.putList s t i x).mem = s.mem := by unfold State.putList; rfl

@[simp] theorem State.putCredit_mem (s : State) (q : Nat) (x : CreditSt) : (State.putCredit s q x).mem = s.mem := by unfold State.putCredit; rfl

@[simp] theorem State.creditRun_mem (s : State) (p dur : Nat) (done : Option Nat) : (State.creditRun s p dur done).mem = s.mem := by unfold State.creditRun; simp

@[simp] theorem State.creditEmpty_mem (s : State) (q : Nat) : (State.creditEmpty s q).mem = s.mem := by unfold State.creditEmpty; simp

@[simp] theorem State.creditReset_mem (s : State) (p : Nat) : (State.creditReset s p).mem = s.mem := by unfold State.creditReset; simp

@[simp] theorem State.gateSettle_mem (s : State) (t i : Nat) : (State.gateSettle s t i).mem = s.mem := by unfold State.gateSettle; simp

@[simp] theorem State.cycleStart_mem (s : State) (t i : Nat) (newList : Bool) : (State.cycleStart s t i newList).mem = s.mem := by
  unfold State.cycleStart
  first
    | with_reducible rfl
    | (simp; done)
    | (repeat'
        first
          | with_reducible rfl
          | (simp; done)
          | (simp_all; done)
          | (intro _)
          | (dsimp only)
          | split
          | (rename_i heq; obtain ⟨rfl, rfl⟩ := Prod.ext_iff.1 heq)
          | refine (State.each_mem _ _ _ ?_).trans ?_)

@[simp] theorem State.entryEnd_mem (s : State) (t i : Nat) : (State.entryEnd s t i).mem = s.mem := by unfold State.entryEnd; split <;> simp

@[simp] theorem State.stopMark_mem (s : State) (t i : Nat) : (State.stopMark s t i).mem = s.mem := by unfold State.stopMark; simp

@[simp] theorem State.epochStop_mem (s : State) : (State.epochStop s).mem = s.mem := by unfold State.epochStop; simp

@[simp] theorem State.admitCopy_mem (s : State) (q : Nat) (x : QCopy) : (State.admitCopy s q x).mem = s.mem := by
  unfold State.admitCopy
  first
    | with_reducible rfl
    | (simp; done)
    | (repeat'
        first
          | with_reducible rfl
          | (simp; done)
          | (simp_all; done)
          | (intro _)
          | (dsimp only)
          | split
          | (rename_i heq; obtain ⟨rfl, rfl⟩ := Prod.ext_iff.1 heq)
          | refine (State.each_mem _ _ _ ?_).trans ?_)

@[simp] theorem State.admitOne_mem (fid : Nat) (p : State × Nat) (q : Nat × QCopy) :
    (State.admitOne fid p q).1.mem = p.1.mem := by
  unfold State.admitOne; simp

@[simp] theorem State.admitFold_mem (fid : Nat) (l : List (Nat × QCopy)) (p : State × Nat) :
    (l.foldl (State.admitOne fid) p).1.mem = p.1.mem := by
  induction l generalizing p with
  | nil => rfl
  | cons a l ih => simp [ih]

@[simp] theorem State.idleSlope_mem (s : State) (q v : Nat) : (State.idleSlope s q v).mem = s.mem := by unfold State.idleSlope; simp

@[simp] theorem State.txResult_mem (s : State) (r res : Nat) : (State.txResult s r res).mem = s.mem := by unfold State.txResult; simp

@[simp] theorem State.headCheck_mem (s : State) (q : Nat) (y : Nat) : (State.headCheck s q y).mem = s.mem := by
  induction y generalizing s with
  | zero => (try unfold State.headCheck); (repeat' first | with_reducible rfl | (simp; done) | split)
  | succ n ih => unfold State.headCheck; (repeat' first | with_reducible rfl | (simp [ih]; done) | (dsimp only) | split)

@[simp] theorem State.launchDue_mem (s : State) (q : Nat) : (State.launchDue s q).mem = s.mem := by
  unfold State.launchDue
  first
    | with_reducible rfl
    | (simp; done)
    | (repeat'
        first
          | with_reducible rfl
          | (simp; done)
          | (simp_all; done)
          | (intro _)
          | (dsimp only)
          | split
          | (rename_i heq; obtain ⟨rfl, rfl⟩ := Prod.ext_iff.1 heq)
          | refine (State.each_mem _ _ _ ?_).trans ?_)

@[simp] theorem State.putBucket_mem (s : State) (b : Nat) (l : List FdbE) : (State.putBucket s b l).mem = s.mem := by unfold State.putBucket; rfl

@[simp] theorem State.learn_mem (s : State) (p mac vid : Nat) : (State.learn s p mac vid).mem = s.mem := by
  unfold State.learn
  first
    | with_reducible rfl
    | (simp; done)
    | (repeat'
        first
          | with_reducible rfl
          | (simp; done)
          | (simp_all; done)
          | (intro _)
          | (dsimp only)
          | split
          | (rename_i heq; obtain ⟨rfl, rfl⟩ := Prod.ext_iff.1 heq)
          | refine (State.each_mem _ _ _ ?_).trans ?_)

@[simp] theorem State.ageScan_mem (s : State) : (State.ageScan s).mem = s.mem := by unfold State.ageScan; simp

@[simp] theorem State.fdbFlush_mem (s : State) (p : FdbE → Bool) : (State.fdbFlush s p).mem = s.mem := by unfold State.fdbFlush; simp

@[simp] theorem State.fdbStart_mem (s : State) (op : Nat) : (State.fdbStart s op).mem = s.mem := by
  unfold State.fdbStart
  first
    | with_reducible rfl
    | (simp; done)
    | (repeat'
        first
          | with_reducible rfl
          | (simp; done)
          | (simp_all; done)
          | (intro _)
          | (dsimp only)
          | split
          | (rename_i heq; obtain ⟨rfl, rfl⟩ := Prod.ext_iff.1 heq)
          | refine (State.each_mem _ _ _ ?_).trans ?_)

@[simp] theorem State.fdbDone_mem (s : State) : (State.fdbDone s).mem = s.mem := by unfold State.fdbDone; simp

@[simp] theorem State.meterRed_mem (s : State) (m n : Nat) : (State.meterRed s m n).2.mem = s.mem := by unfold State.meterRed; split <;> simp

@[simp] theorem State.recovReset_mem (s : State) (i : Nat) : (State.recovReset s i).mem = s.mem := by unfold State.recovReset; simp

@[simp] theorem State.blockOver_mem (s : State) (hd : Nat) : (State.blockOver s hd).mem = s.mem := by unfold State.blockOver; simp

@[simp] theorem State.streamCheck_mem (s : State) (hd cls n : Nat) (cut : Bool) : (State.streamCheck s hd cls n cut).2.2.mem = s.mem := by
  unfold State.streamCheck
  first
    | with_reducible rfl
    | (simp; done)
    | (repeat'
        first
          | with_reducible rfl
          | (simp; done)
          | (simp_all; done)
          | (intro _)
          | (dsimp only)
          | split
          | (rename_i heq; obtain ⟨rfl, rfl⟩ := Prod.ext_iff.1 heq)
          | refine (State.each_mem _ _ _ ?_).trans ?_)

@[simp] theorem State.frerRecover_mem (s : State) (ri : Nat) (l : List Nat) : (State.frerRecover s ri l).2.2.mem = s.mem := by
  unfold State.frerRecover
  first
    | with_reducible rfl
    | (simp; done)
    | (repeat'
        first
          | with_reducible rfl
          | (simp; done)
          | (simp_all; done)
          | (intro _)
          | (dsimp only)
          | split
          | (rename_i heq; obtain ⟨rfl, rfl⟩ := Prod.ext_iff.1 heq)
          | refine (State.each_mem _ _ _ ?_).trans ?_)

@[simp] theorem State.frerSplit_mem (s : State) (gi : Nat) (l : List Nat) : (State.frerSplit s gi l).2.2.mem = s.mem := by unfold State.frerSplit; simp

@[simp] theorem State.frerCheck_mem (s : State) (hd : Nat) (l : List Nat) : (State.frerCheck s hd l).2.2.mem = s.mem := by
  unfold State.frerCheck
  first
    | with_reducible rfl
    | (simp; done)
    | (repeat'
        first
          | with_reducible rfl
          | (simp; done)
          | (simp_all; done)
          | (intro _)
          | (dsimp only)
          | split
          | (rename_i heq; obtain ⟨rfl, rfl⟩ := Prod.ext_iff.1 heq)
          | refine (State.each_mem _ _ _ ?_).trans ?_)

@[simp] theorem State.capSee_mem (s : State) (k : Nat) (mk : Nat → List Nat) : (State.capSee s k mk).mem = s.mem := by
  unfold State.capSee
  first
    | with_reducible rfl
    | (simp; done)
    | (repeat'
        first
          | with_reducible rfl
          | (simp; done)
          | (simp_all; done)
          | (intro _)
          | (dsimp only)
          | split
          | (rename_i heq; obtain ⟨rfl, rfl⟩ := Prod.ext_iff.1 heq)
          | refine (State.each_mem _ _ _ ?_).trans ?_)

@[simp] theorem State.capIngress_mem (s : State) (f : InFrame) (v : Verdict) : (State.capIngress s f v).mem = s.mem := by unfold State.capIngress; (repeat' split) <;> simp

@[simp] theorem State.capEgress_mem (s : State) (p : Nat) (x : QCopy) (l : List Nat) : (State.capEgress s p x l).mem = s.mem := by unfold State.capEgress; simp

@[simp] theorem State.frameCharge_mem (s : State) (f : InFrame) (cells : Nat) (d : Option Nat) : (State.frameCharge s f cells d).mem = s.mem := by unfold State.frameCharge; split <;> simp

@[simp] theorem State.admitAll_mem (s : State) (f : InFrame) (cells : Nat) (copies : List (Nat × QCopy)) : (State.admitAll s f cells copies).1.mem = s.mem := by unfold State.admitAll; simp

@[simp] theorem State.txTaken_mem (s : State) (f : InFrame) (queued : Bool) : (State.txTaken s f queued).mem = s.mem := by unfold State.txTaken; (repeat' split) <;> simp

@[simp] theorem State.macDrop_mem (s : State) (f : InFrame) : (State.macDrop s f).1.mem = s.mem := by unfold State.macDrop; split <;> simp

@[simp] theorem State.linkLocal_mem (s : State) (f : InFrame) : (State.linkLocal s f).1.mem = s.mem := by
  unfold State.linkLocal
  first
    | with_reducible rfl
    | (simp; done)
    | (repeat'
        first
          | with_reducible rfl
          | (simp; done)
          | (simp_all; done)
          | (intro _)
          | (dsimp only)
          | split
          | (rename_i heq; obtain ⟨rfl, rfl⟩ := Prod.ext_iff.1 heq)
          | refine (State.each_mem _ _ _ ?_).trans ?_)

@[simp] theorem State.cutEnd_mem (s : State) (q cells : Nat) : (State.cutEnd s q cells).mem = s.mem := by unfold State.cutEnd; split <;> simp

@[simp] theorem State.admitCut_mem (s : State) (f : InFrame) (p : Nat) (d : List Nat) (vid prio cls : Nat) (h : Option Nat) : (State.admitCut s f p d vid prio cls h).1.mem = s.mem := by unfold State.admitCut; simp

@[simp] theorem State.admitFit_mem (s : State) (f : InFrame) (cells vid prio cls : Nat) (h : Option Nat) (outs : List (Nat × List Nat)) : (State.admitFit s f cells vid prio cls h outs).1.mem = s.mem := by
  unfold State.admitFit
  first
    | with_reducible rfl
    | (simp; done)
    | (repeat'
        first
          | with_reducible rfl
          | (simp; done)
          | (simp_all; done)
          | (intro _)
          | (dsimp only)
          | split
          | (rename_i heq; obtain ⟨rfl, rfl⟩ := Prod.ext_iff.1 heq)
          | refine (State.each_mem _ _ _ ?_).trans ?_)

@[simp] theorem State.forward_mem (s : State) (f : InFrame) (l : List Nat) (vi vid prio cls : Nat) (h : Option Nat) (cut : Bool) : (State.forward s f l vi vid prio cls h cut).1.mem = s.mem := by
  unfold State.forward
  first
    | with_reducible rfl
    | (simp; done)
    | (repeat'
        first
          | with_reducible rfl
          | (simp; done)
          | (simp_all; done)
          | (intro _)
          | (dsimp only)
          | split
          | (rename_i heq; obtain ⟨rfl, rfl⟩ := Prod.ext_iff.1 heq)
          | refine (State.each_mem _ _ _ ?_).trans ?_)

@[simp] theorem State.bridgeStream_mem (s : State) (f : InFrame) (vi vid hd : Nat) : (State.bridgeStream s f vi vid hd).1.mem = s.mem := by
  unfold State.bridgeStream
  first
    | with_reducible rfl
    | (simp; done)
    | (repeat'
        first
          | with_reducible rfl
          | (simp; done)
          | (simp_all; done)
          | (intro _)
          | (dsimp only)
          | split
          | (rename_i heq; obtain ⟨rfl, rfl⟩ := Prod.ext_iff.1 heq)
          | refine (State.each_mem _ _ _ ?_).trans ?_)

@[simp] theorem State.bridge_mem (s : State) (f : InFrame) : (State.bridge s f).1.mem = s.mem := by
  unfold State.bridge
  first
    | with_reducible rfl
    | (simp; done)
    | (repeat'
        first
          | with_reducible rfl
          | (simp; done)
          | (simp_all; done)
          | (intro _)
          | (dsimp only)
          | split
          | (rename_i heq; obtain ⟨rfl, rfl⟩ := Prod.ext_iff.1 heq)
          | refine (State.each_mem _ _ _ ?_).trans ?_)

@[simp] theorem State.frameArrival_mem (s : State) (p : Nat) : (State.frameArrival s p).mem = s.mem := by unfold State.frameArrival; (repeat' split) <;> simp

@[simp] theorem State.cellRead_mem (s : State) (r : Nat) : (State.cellRead s r).mem = s.mem := by unfold State.cellRead; split <;> simp

@[simp] theorem State.copyDrop_mem (s : State) (q reason : Nat) (x : QCopy) : (State.copyDrop s q reason x).mem = s.mem := by unfold State.copyDrop; split <;> simp

@[simp] theorem State.dropQueue_mem (s : State) (q reason : Nat) : (State.dropQueue s q reason).1.mem = s.mem := by
  unfold State.dropQueue
  first
    | with_reducible rfl
    | (simp; done)
    | (repeat'
        first
          | with_reducible rfl
          | (simp; done)
          | (simp_all; done)
          | (intro _)
          | (dsimp only)
          | split
          | (rename_i heq; obtain ⟨rfl, rfl⟩ := Prod.ext_iff.1 heq)
          | refine (State.each_mem _ _ _ ?_).trans ?_)

@[simp] theorem State.dropPort_mem (s : State) (p : Nat) : (State.dropPort s p).mem = s.mem := by
  unfold State.dropPort
  first
    | with_reducible rfl
    | (simp; done)
    | (repeat'
        first
          | with_reducible rfl
          | (simp; done)
          | (simp_all; done)
          | (intro _)
          | (dsimp only)
          | split
          | (rename_i heq; obtain ⟨rfl, rfl⟩ := Prod.ext_iff.1 heq)
          | refine (State.each_mem _ _ _ ?_).trans ?_)

@[simp] theorem State.rxFault_mem (s : State) (r : Nat) : (State.rxFault s r).mem = s.mem := by unfold State.rxFault; simp

@[simp] theorem State.holdExpired_mem (s : State) (r : Nat) : (State.holdExpired s r).mem = s.mem := by unfold State.holdExpired; split <;> simp

@[simp] theorem State.rxRequeue_mem (s : State) (r : Nat) : (State.rxRequeue s r).mem = s.mem := by unfold State.rxRequeue; (repeat' split) <;> simp

@[simp] theorem State.ringStop_mem (s : State) (r : Nat) : (State.ringStop s r).mem = s.mem := by unfold State.ringStop; (repeat' split) <;> simp

@[simp] theorem State.ringDisable_mem (s : State) (r : Nat) : (State.ringDisable s r).mem = s.mem := by unfold State.ringDisable; simp

@[simp] theorem State.headOn_mem (s : State) (r : Nat) (irq : Bool) (status : Nat) (rest : List Nat) : (State.headOn s r irq status rest).mem = s.mem := by
  unfold State.headOn
  first
    | with_reducible rfl
    | (simp; done)
    | (repeat'
        first
          | with_reducible rfl
          | (simp; done)
          | (simp_all; done)
          | (intro _)
          | (dsimp only)
          | split
          | (rename_i heq; obtain ⟨rfl, rfl⟩ := Prod.ext_iff.1 heq)
          | refine (State.each_mem _ _ _ ?_).trans ?_)

@[simp] theorem State.rxDrain_mem (s : State) (r : Nat) : (State.rxDrain s r).mem = s.mem := by unfold State.rxDrain; simp

@[simp] theorem State.descEnd_mem (s : State) (r d : Nat) (stopping irq : Bool) (status : Nat) (rest : List Nat) : (State.descEnd s r d stopping irq status rest).mem = s.mem := by unfold State.descEnd; simp

@[simp] theorem State.descComplete_memwf (s : State) (r : Nat) (h_ : Memory.wf s.mem = true) : Memory.wf (State.descComplete s r).mem = true := by
  unfold State.descComplete
  dsimp only
  split
  · split
    · exact h_
    · split
      · simpa using h_
      · rename_i heq
        have h := State.writePieces_memwf heq (by simpa using h_)
        simp [h]
  · exact h_

@[simp] theorem State.tblLoad_mem (s : State) : (State.tblLoad s).mem = s.mem := by unfold State.tblLoad; simp

@[simp] theorem State.tblCommit_mem (s : State) : (State.tblCommit s).mem = s.mem := by unfold State.tblCommit; simp

@[simp] theorem State.tblAdvance_mem (s : State) : (State.tblAdvance s).mem = s.mem := by unfold State.tblAdvance; simp

@[simp] theorem State.tblStage_mem (s : State) (v : Nat) : (State.tblStage s v).mem = s.mem := by unfold State.tblStage; rfl

@[simp] theorem State.putPt_mem (s : State) (p : Nat) (x : PortSt) : (State.putPt s p x).mem = s.mem := by unfold State.putPt; rfl

@[simp] theorem State.corrected_mem (s : State) (p : Nat) (x : QCopy) : (State.corrected s p x).2.mem = s.mem := by unfold State.corrected; (repeat' split) <;> simp

@[simp] theorem State.putSaPn_mem (s : State) (p a n : Nat) : (State.putSaPn s p a n).mem = s.mem := by unfold State.putSaPn; simp

@[simp] theorem State.saEvents_mem (s : State) (p a pn : Nat) : (State.saEvents s p a pn).mem = s.mem := by unfold State.saEvents; simp

@[simp] theorem State.mscProtect_mem (s : State) (p : Nat) (l : List Nat) : (State.mscProtect s p l).2.mem = s.mem := by
  unfold State.mscProtect
  first
    | with_reducible rfl
    | (simp; done)
    | (repeat'
        first
          | with_reducible rfl
          | (simp; done)
          | (simp_all; done)
          | (intro _)
          | (dsimp only)
          | split
          | (rename_i heq; obtain ⟨rfl, rfl⟩ := Prod.ext_iff.1 heq)
          | refine (State.each_mem _ _ _ ?_).trans ?_)

@[simp] theorem State.mscOpen_mem (s : State) (p a sci : Nat) (l : List Nat) : (State.mscOpen s p a sci l).2.mem = s.mem := by
  unfold State.mscOpen
  first
    | with_reducible rfl
    | (simp; done)
    | (repeat'
        first
          | with_reducible rfl
          | (simp; done)
          | (simp_all; done)
          | (intro _)
          | (dsimp only)
          | split
          | (rename_i heq; obtain ⟨rfl, rfl⟩ := Prod.ext_iff.1 heq)
          | refine (State.each_mem _ _ _ ?_).trans ?_)

@[simp] theorem State.mscVerify_mem (s : State) (p : Nat) (l : List Nat) : (State.mscVerify s p l).2.mem = s.mem := by
  unfold State.mscVerify
  first
    | with_reducible rfl
    | (simp; done)
    | (repeat'
        first
          | with_reducible rfl
          | (simp; done)
          | (simp_all; done)
          | (intro _)
          | (dsimp only)
          | split
          | (rename_i heq; obtain ⟨rfl, rfl⟩ := Prod.ext_iff.1 heq)
          | refine (State.each_mem _ _ _ ?_).trans ?_)

@[simp] theorem State.saClear_mem (s : State) (p : Nat) : (State.saClear s p).mem = s.mem := by unfold State.saClear; simp

@[simp] theorem State.startSend_mem (s : State) (p : Nat) (x : QCopy) : (State.startSend s p x).mem = s.mem := by
  unfold State.startSend
  first
    | with_reducible rfl
    | (simp; done)
    | (repeat'
        first
          | with_reducible rfl
          | (simp; done)
          | (simp_all; done)
          | (intro _)
          | (dsimp only)
          | split
          | (rename_i heq; obtain ⟨rfl, rfl⟩ := Prod.ext_iff.1 heq)
          | refine (State.each_mem _ _ _ ?_).trans ?_)

@[simp] theorem State.headChecks_mem (s : State) (p : Nat) : (State.headChecks s p).mem = s.mem := by unfold State.headChecks; simp

@[simp] theorem State.sendHead_mem (s : State) (p c : Nat) : (State.sendHead s p c).mem = s.mem := by unfold State.sendHead; split <;> simp

@[simp] theorem State.pickNext_mem (s : State) (p : Nat) : (State.pickNext s p).mem = s.mem := by unfold State.pickNext; (repeat' split) <;> simp

@[simp] theorem State.egressExt_mem (s : State) (p sent : Nat) (deferred : Bool) : (State.egressExt s p sent deferred).mem = s.mem := by
  unfold State.egressExt
  first
    | with_reducible rfl
    | (simp; done)
    | (repeat'
        first
          | with_reducible rfl
          | (simp; done)
          | (simp_all; done)
          | (intro _)
          | (dsimp only)
          | split
          | (rename_i heq; obtain ⟨rfl, rfl⟩ := Prod.ext_iff.1 heq)
          | refine (State.each_mem _ _ _ ?_).trans ?_)

@[simp] theorem State.egressHost_mem (s : State) (p : Nat) : (State.egressHost s p).mem = s.mem := by unfold State.egressHost; (repeat' split) <;> simp

@[simp] theorem State.egressDoneExt_mem (s : State) (p : Nat) : (State.egressDoneExt s p).mem = s.mem := by unfold State.egressDoneExt; split <;> simp

@[simp] theorem State.egressDoneHost_mem (s : State) (p c : Nat) : (State.egressDoneHost s p c).mem = s.mem := by
  unfold State.egressDoneHost
  first
    | with_reducible rfl
    | (simp; done)
    | (repeat'
        first
          | with_reducible rfl
          | (simp; done)
          | (simp_all; done)
          | (intro _)
          | (dsimp only)
          | split
          | (rename_i heq; obtain ⟨rfl, rfl⟩ := Prod.ext_iff.1 heq)
          | refine (State.each_mem _ _ _ ?_).trans ?_)

@[simp] theorem State.verifyStart_mem (s : State) (p : Nat) : (State.verifyStart s p).mem = s.mem := by unfold State.verifyStart; simp

@[simp] theorem State.leaveUp_mem (s : State) (p st : Nat) : (State.leaveUp s p st).mem = s.mem := by unfold State.leaveUp; simp

@[simp] theorem State.takeRole_mem (s : State) (p : Nat) : (State.takeRole s p).mem = s.mem := by unfold State.takeRole; simp

@[simp] theorem State.toTraining_mem (s : State) (p : Nat) : (State.toTraining s p).mem = s.mem := by unfold State.toTraining; simp

@[simp] theorem State.retrain_mem (s : State) (p : Nat) : (State.retrain s p).mem = s.mem := by unfold State.retrain; simp

@[simp] theorem State.linkEnable_mem (s : State) (p : Nat) : (State.linkEnable s p).mem = s.mem := by unfold State.linkEnable; simp

@[simp] theorem State.linkDisable_mem (s : State) (p : Nat) : (State.linkDisable s p).mem = s.mem := by unfold State.linkDisable; simp

@[simp] theorem State.linkUp_mem (s : State) (p : Nat) : (State.linkUp s p).mem = s.mem := by unfold State.linkUp; simp

@[simp] theorem State.verifyTick_mem (s : State) (p : Nat) : (State.verifyTick s p).mem = s.mem := by unfold State.verifyTick; simp

@[simp] theorem State.verifyRespond_mem (s : State) (p : Nat) : (State.verifyRespond s p).mem = s.mem := by unfold State.verifyRespond; simp

@[simp] theorem State.pauseRx_mem (s : State) (p quanta : Nat) : (State.pauseRx s p quanta).mem = s.mem := by unfold State.pauseRx; simp

@[simp] theorem State.pauseEnd_mem (s : State) (p : Nat) : (State.pauseEnd s p).mem = s.mem := by unfold State.pauseEnd; simp

@[simp] theorem State.pauseBreak_mem (s : State) (p : Nat) : (State.pauseBreak s p).mem = s.mem := by unfold State.pauseBreak; simp

@[simp] theorem State.colDrop_mem (s : State) (p i : Nat) (x : QCopy) : (State.colDrop s p i x).mem = s.mem := by unfold State.colDrop; simp

@[simp] theorem State.collide_mem (s : State) (p : Nat) (late : Bool) : (State.collide s p late).mem = s.mem := by unfold State.collide; split <;> simp

@[simp] theorem State.backoffEnd_mem (s : State) (p : Nat) : (State.backoffEnd s p).mem = s.mem := by unfold State.backoffEnd; simp

@[simp] theorem State.wakeHit_mem (s : State) (p k : Nat) (sleep : Bool) : (State.wakeHit s p k sleep).mem = s.mem := by unfold State.wakeHit; simp

@[simp] theorem State.wakeScan_mem (s : State) (p : Nat) (l : List Nat) : (State.wakeScan s p l).mem = s.mem := by unfold State.wakeScan; simp

@[simp] theorem State.fbSync_mem (s : State) : (State.fbSync s).mem = s.mem := by unfold State.fbSync; simp

@[simp] theorem State.ingressAdd_mem (s : State) (p : Nat) (l : List Nat) (bad : Bool) : (State.ingressAdd s p l bad).mem = s.mem := by unfold State.ingressAdd; rfl

@[simp] theorem State.ingressBad_mem (s : State) (p : Nat) (l : List Nat) : (State.ingressBad s p l).mem = s.mem := by unfold State.ingressBad; simp

@[simp] theorem State.macGood_mem (s : State) (p : Nat) (l : List Nat) (frags : Nat) : (State.macGood s p l frags).mem = s.mem := by
  unfold State.macGood
  extract_lets s1 s2 ety s3
  have h3 : s3.mem = s.mem := by
    simp only [s3, s2, s1, State.ite_mem, State.fbSync_mem, State.wakeScan_mem, State.cntRx_mem, State.cnt_mem, ite_self]
  clear_value s3
  split
  · split
    · rw [State.pauseRx_mem, h3]
    · exact h3
  · split
    · split <;> simp +zetaDelta [h3]
    · have hr : (s3.mscVerify p l).2.mem = s.mem := by rw [State.mscVerify_mem, h3]
      split
      · exact hr
      · rw [State.ingressAdd_mem, hr]

@[simp] theorem State.macRx_mem (s : State) (p : Nat) (l : List Nat) (kind : RxKind) (frags : Nat) : (State.macRx s p l kind frags).mem = s.mem := by unfold State.macRx; (repeat' split) <;> simp

@[simp] theorem State.portRetire_mem (s : State) (p : Nat) : (State.portRetire s p).mem = s.mem := by unfold State.portRetire; simp

@[simp] theorem State.phyFault_mem (s : State) (p : Nat) : (State.phyFault s p).mem = s.mem := by unfold State.phyFault; simp

@[simp] theorem State.portTest_mem (s : State) (p : Nat) (pass : Bool) : (State.portTest s p pass).mem = s.mem := by unfold State.portTest; simp

@[simp] theorem State.incrApply_mem (s : State) (int : Nat) : (State.incrApply s int).mem = s.mem := by unfold State.incrApply; simp

@[simp] theorem State.timeEvent_mem (s : State) (mask : Nat) : (State.timeEvent s mask).mem = s.mem := by unfold State.timeEvent; simp

@[simp] theorem State.pairCapture_mem (s : State) (cp : Nat) (auto : Bool) : (State.pairCapture s cp auto).mem = s.mem := by unfold State.pairCapture; simp

@[simp] theorem State.halfEdge_mem (s : State) : (State.halfEdge s).mem = s.mem := by unfold State.halfEdge; simp

@[simp] theorem State.advance_mem (s : State) (n : Nat) : (State.advance s n).mem = s.mem := by unfold State.advance; rfl

@[simp] theorem State.tick_mem (s : State) : (State.tick s).mem = s.mem := by
  unfold State.tick
  extract_lets s'
  have h : s'.mem = s.mem := State.advance_mem s 1
  split
  · exact h
  · rw [State.halfEdge_mem, h]

@[simp] theorem State.runToHalf_mem (s : State) : (State.runToHalf s).mem = s.mem := by unfold State.runToHalf; simp

@[simp] theorem State.zoneStep_mem (s : State) (v : Nat) : (State.zoneStep s v).mem = s.mem := by unfold State.zoneStep; rfl

@[simp] theorem State.epochNext_mem (s : State) (step half : Bool) : (State.epochNext s step half).mem = s.mem := by unfold State.epochNext; dsimp only; split <;> simp

@[simp] theorem State.epochOpen_mem (s : State) (step : Bool) : (State.epochOpen s step).mem = s.mem := by unfold State.epochOpen; simp

@[simp] theorem State.epochCtrl_mem (s : State) (w : Nat) : (State.epochCtrl s w).mem = s.mem := by unfold State.epochCtrl; simp

@[simp] theorem State.nowRead_mem (s : State) (cp : Nat) : (State.nowRead s cp).mem = s.mem := by unfold State.nowRead; simp

@[simp] theorem State.fbConfig_mem (s : State) (w : Nat) : (State.fbConfig s w).mem = s.mem := by unfold State.fbConfig; simp

@[simp] theorem State.fbLoss_mem (s : State) : (State.fbLoss s).mem = s.mem := by unfold State.fbLoss; simp

@[simp] theorem State.canEvt_mem (s : State) (k b : Nat) : (State.canEvt s k b).mem = s.mem := by unfold State.canEvt; simp

@[simp] theorem State.txDone_mem (s : State) (k m : Nat) : (State.txDone s k m).mem = s.mem := by unfold State.txDone; simp

@[simp] theorem State.mbEnd_mem (s : State) (k m res : Nat) : (State.mbEnd s k m res).mem = s.mem := by unfold State.mbEnd; simp

@[simp] theorem State.canStart_mem (s : State) (k : Nat) : (State.canStart s k).mem = s.mem := by unfold State.canStart; (repeat' split) <;> simp

@[simp] theorem State.mbWithdraw_mem (s : State) (k res : Nat) : (State.mbWithdraw s k res).mem = s.mem := by unfold State.mbWithdraw; split <;> simp

@[simp] theorem State.mbAbortPending_mem (s : State) (k : Nat) : (State.mbAbortPending s k).mem = s.mem := by unfold State.mbAbortPending; simp

@[simp] theorem State.modeIdle_mem (s : State) (k : Nat) : (State.modeIdle s k).mem = s.mem := by unfold State.modeIdle; split <;> simp

@[simp] theorem State.modeWrite_mem (s : State) (k m : Nat) : (State.modeWrite s k m).mem = s.mem := by unfold State.modeWrite; simp

@[simp] theorem State.canCtrl_mem (s : State) (k w : Nat) : (State.canCtrl s k w).mem = s.mem := by unfold State.canCtrl; simp

@[simp] theorem State.canRecover_mem (s : State) (k w : Nat) : (State.canRecover s k w).mem = s.mem := by unfold State.canRecover; simp

@[simp] theorem State.mbReq_mem (s : State) (k m : Nat) : (State.mbReq s k m).mem = s.mem := by unfold State.mbReq; simp

@[simp] theorem State.mbAbort_mem (s : State) (k m : Nat) : (State.mbAbort s k m).mem = s.mem := by unfold State.mbAbort; simp

@[simp] theorem State.mbCmd_mem (s : State) (k m w : Nat) : (State.mbCmd s k m w).mem = s.mem := by unfold State.mbCmd; simp

@[simp] theorem State.canCount_mem (s : State) (k tec rec_ : Nat) : (State.canCount s k tec rec_).mem = s.mem := by unfold State.canCount; simp

@[simp] theorem State.canError_mem (s : State) (k lec tec rec_ : Nat) : (State.canError s k lec tec rec_).mem = s.mem := by unfold State.canError; simp

@[simp] theorem State.canIntegrated_mem (s : State) (k : Nat) : (State.canIntegrated s k).mem = s.mem := by unfold State.canIntegrated; simp

@[simp] theorem State.canRecovered_mem (s : State) (k : Nat) : (State.canRecovered s k).mem = s.mem := by unfold State.canRecovered; simp

@[simp] theorem State.canPex_mem (s : State) (k : Nat) : (State.canPex s k).mem = s.mem := by unfold State.canPex; simp

@[simp] theorem State.canHot_mem (s : State) (k : Nat) (hot : Bool) : (State.canHot s k hot).mem = s.mem := by unfold State.canHot; simp

@[simp] theorem State.canLost_mem (s : State) (k : Nat) : (State.canLost s k).mem = s.mem := by unfold State.canLost; split <;> simp

@[simp] theorem State.canDataPhase_mem (s : State) (k : Nat) (f : CanFrame) : (State.canDataPhase s k f).mem = s.mem := by unfold State.canDataPhase; simp

@[simp] theorem State.canWon_mem (s : State) (k : Nat) : (State.canWon s k).mem = s.mem := by unfold State.canWon; split <;> simp

@[simp] theorem State.refPeriod_mem (s : State) : (State.refPeriod s).mem = s.mem := by unfold State.refPeriod; simp

@[simp] theorem State.refReceived_mem (s : State) (data : List Nat) (at_ : Stamp) : (State.refReceived s data at_).mem = s.mem := by
  unfold State.refReceived
  first
    | with_reducible rfl
    | (simp; done)
    | (repeat'
        first
          | with_reducible rfl
          | (simp; done)
          | (simp_all; done)
          | (intro _)
          | (dsimp only)
          | split
          | (rename_i heq; obtain ⟨rfl, rfl⟩ := Prod.ext_iff.1 heq)
          | refine (State.each_mem _ _ _ ?_).trans ?_)

@[simp] theorem State.canToRing_mem (s : State) (k : Nat) (x : CanRx) : (State.canToRing s k x).mem = s.mem := by unfold State.canToRing; simp

@[simp] theorem State.tunnelQueue_mem (s : State) (k d : Nat) (l : List Nat) : (State.tunnelQueue s k d l).mem = s.mem := by unfold State.tunnelQueue; simp

@[simp] theorem State.canToTunnel_mem (s : State) (k : Nat) (f : CanFrame) : (State.canToTunnel s k f).mem = s.mem := by unfold State.canToTunnel; (repeat' split) <;> simp

@[simp] theorem State.tunnelRelease_mem (s : State) (k : Nat) : (State.tunnelRelease s k).mem = s.mem := by unfold State.tunnelRelease; split <;> simp

@[simp] theorem State.canRoute_mem (s : State) (k : Nat) (f : CanFrame) (raw : Nat) (at_ : Stamp) (echo : Bool) : (State.canRoute s k f raw at_ echo).mem = s.mem := by unfold State.canRoute; (repeat' split) <;> simp

@[simp] theorem State.canTrace_mem (s : State) (k : Nat) (f : CanFrame) : (State.canTrace s k f).mem = s.mem := by unfold State.canTrace; split <;> simp

@[simp] theorem State.canReceive_mem (s : State) (k : Nat) (f : CanFrame) (ago tec rec_ : Nat) : (State.canReceive s k f ago tec rec_).mem = s.mem := by unfold State.canReceive; simp

@[simp] theorem State.canSent_mem (s : State) (k tec rec_ : Nat) : (State.canSent s k tec rec_).mem = s.mem := by unfold State.canSent; split <;> simp

@[simp] theorem State.canDeliver_mem (s : State) (k : Nat) : (State.canDeliver s k).mem = s.mem := by unfold State.canDeliver; split <;> simp

@[simp] theorem State.mramStep_mem (s : State) (k : Nat) : (State.mramStep s k).mem = s.mem := by unfold State.mramStep; simp

@[simp] theorem State.mramWrite_mem (s : State) (k : Nat) (w : Word) : (State.mramWrite s k w).mem = s.mem := by unfold State.mramWrite; simp

@[simp] theorem State.acfConfig_mem (s : State) (k : Nat) (t : Tag) (w : Nat) : (State.acfConfig s k t w).mem = s.mem := by unfold State.acfConfig; simp

@[simp] theorem State.acfMessage_mem (s : State) (k : Nat) (m : List Nat) : (State.acfMessage s k m).mem = s.mem := by unfold State.acfMessage; simp

@[simp] theorem State.acfReceive_mem (s : State) (k : Nat) : (State.acfReceive s k).mem = s.mem := by
  unfold State.acfReceive
  first
    | with_reducible rfl
    | (simp; done)
    | (repeat'
        first
          | with_reducible rfl
          | (simp; done)
          | (simp_all; done)
          | (intro _)
          | (dsimp only)
          | split
          | (rename_i heq; obtain ⟨rfl, rfl⟩ := Prod.ext_iff.1 heq)
          | refine (State.each_mem _ _ _ ?_).trans ?_)

@[simp] theorem State.canIslReset_mem (s : State) (k : Nat) : (State.canIslReset s k).mem = s.mem := by unfold State.canIslReset; simp

@[simp] theorem State.canSquash_mem (s : State) (k : Nat) : (State.canSquash s k).mem = s.mem := by unfold State.canSquash; simp

@[simp] theorem State.canEnterRetired_mem (s : State) (k : Nat) : (State.canEnterRetired s k).mem = s.mem := by unfold State.canEnterRetired; simp

@[simp] theorem State.canTest_mem (s : State) (k : Nat) (pass : Bool) : (State.canTest s k pass).mem = s.mem := by unfold State.canTest; simp

@[simp] theorem State.putFn_mem (s : State) (f : Nat) (x : FnSt) : (State.putFn s f x).mem = s.mem := by unfold State.putFn; rfl

@[simp] theorem State.cfgWrite_mem (s : State) (f : Nat) (y : CfgWrite) : (State.cfgWrite s f y).mem = s.mem := by
  cases y <;> (unfold State.cfgWrite; (repeat' first | with_reducible rfl | (simp; done) | (dsimp only) | split))

@[simp] theorem State.cfgReset_mem (s : State) : (State.cfgReset s).mem = s.mem := by unfold State.cfgReset; rfl

@[simp] theorem State.linkIsUp_mem (s : State) (speed width : Nat) : (State.linkIsUp s speed width).mem = s.mem := by unfold State.linkIsUp; simp

@[simp] theorem State.linkIsDown_mem (s : State) : (State.linkIsDown s).mem = s.mem := by unfold State.linkIsDown; simp

@[simp] theorem State.resvEnd_mem (s : State) (h : Nat) : (State.resvEnd s h).mem = s.mem := by unfold State.resvEnd; split <;> simp

@[simp] theorem State.resvTake_mem (s : State) (h d a : Nat) : (State.resvTake s h d a).mem = s.mem := by unfold State.resvTake; simp

@[simp] theorem State.lineDrop_mem (s : State) (p : PLine → Bool) : (State.lineDrop s p).mem = s.mem := by unfold State.lineDrop; simp

@[simp] theorem State.lineWrite_mem (s : State) (t : Tag) (num a : Nat) : (State.lineWrite s t num a).mem = s.mem := by unfold State.lineWrite; simp

@[simp] theorem State.lineServed_mem (s : State) (x : PLine) : (State.lineServed s x).mem = s.mem := by unfold State.lineServed; simp

@[simp] theorem State.lineAdd_mem (s : State) (x : PLine) : (State.lineAdd s x).mem = s.mem := by unfold State.lineAdd; (repeat' split) <;> simp

@[simp] theorem State.perrDeliver_mem (s : State) (d : Nat) : (State.perrDeliver s d).mem = s.mem := by unfold State.perrDeliver; split <;> simp

@[simp] theorem State.fenceRead_mem (s : State) (d src : Nat) : (State.fenceRead s d src).2.mem = s.mem := by
  unfold State.fenceRead
  first
    | with_reducible rfl
    | (simp; done)
    | (repeat'
        first
          | with_reducible rfl
          | (simp; done)
          | (simp_all; done)
          | (intro _)
          | (dsimp only)
          | split
          | (rename_i heq; obtain ⟨rfl, rfl⟩ := Prod.ext_iff.1 heq)
          | refine (State.each_mem _ _ _ ?_).trans ?_)

@[simp] theorem State.fenceAck_mem (s : State) (d src t : Nat) : (State.fenceAck s d src t).mem = s.mem := by unfold State.fenceAck; simp

@[simp] theorem State.hostReadFail_mem (s : State) (r cause va : Nat) : (State.hostReadFail s r cause va).mem = s.mem := by unfold State.hostReadFail; split <;> simp

@[simp] theorem State.msixSend_mem (s : State) (f v : Nat) : (State.msixSend s f v).mem = s.mem := by unfold State.msixSend; simp

@[simp] theorem State.putHt_mem (s : State) (h : Nat) (x : HartSt) : (State.putHt s h x).mem = s.mem := by unfold State.putHt; rfl

@[simp] theorem State.guestIrq_mem (s : State) (d v : Nat) : (State.guestIrq s d v).mem = s.mem := by unfold State.guestIrq; simp

@[simp] theorem State.vecDeliver_mem (s : State) (d v : Nat) : (State.vecDeliver s d v).mem = s.mem := by unfold State.vecDeliver; simp

@[simp] theorem State.vecScan_mem (s : State) (d v : Nat) (high : Bool) : (State.vecScan s d v high).mem = s.mem := by unfold State.vecScan; simp

@[simp] theorem State.irqScan_mem (s : State) : (State.irqScan s).mem = s.mem := by unfold State.irqScan; simp

@[simp] theorem State.eoi_mem (s : State) (d v : Nat) : (State.eoi s d v).mem = s.mem := by unfold State.eoi; rfl

@[simp] theorem State.msixPending_mem (s : State) (f v : Nat) : (State.msixPending s f v).mem = s.mem := by unfold State.msixPending; simp

@[simp] theorem State.dwlDrawerReset_mem (s : State) (d : Nat) : (State.dwlDrawerReset s d).mem = s.mem := by unfold State.dwlDrawerReset; simp

@[simp] theorem State.recordRetirement_mem (s : State) (kind unit : Nat) : (State.recordRetirement s kind unit).mem = s.mem := by unfold State.recordRetirement; simp

@[simp] theorem State.recordAll_mem (s : State) : (State.recordAll s).mem = s.mem := by unfold State.recordAll; simp

@[simp] theorem State.restoreUnits_mem (s : State) : (State.restoreUnits s).mem = s.mem := by unfold State.restoreUnits; simp

@[simp] theorem State.clearBit_mem (s : State) (x : Fld) (b : Nat) : (State.clearBit s x b).mem = s.mem := by unfold State.clearBit; simp

@[simp] theorem State.setBit_mem (s : State) (x : Fld) (b : Nat) : (State.setBit s x b).mem = s.mem := by unfold State.setBit; simp

@[simp] theorem State.coreTest_mem (s : State) (c : Nat) (pass : Bool) : (State.coreTest s c pass).mem = s.mem := by unfold State.coreTest; simp

@[simp] theorem State.sramTest_mem (s : State) (u : Nat) (pass : Bool) : (State.sramTest s u pass).mem = s.mem := by unfold State.sramTest; simp

@[simp] theorem State.sramRetire_mem (s : State) (u : Nat) : (State.sramRetire s u).mem = s.mem := by unfold State.sramRetire; simp

@[simp] theorem State.sramCe_mem (s : State) (u : Nat) (again : Bool) : (State.sramCe s u again).mem = s.mem := by unfold State.sramCe; simp

@[simp] theorem State.retClear_mem (s : State) (w : Nat) : (State.retClear s w).mem = s.mem := by unfold State.retClear; simp

@[simp] theorem State.safenRelease_mem (s : State) (startDone : Bool) : (State.safenRelease s startDone).mem = s.mem := by unfold State.safenRelease; simp

@[simp] theorem State.safenCtrl_mem (s : State) (startDone : Bool) (w : Nat) : (State.safenCtrl s startDone w).mem = s.mem := by unfold State.safenCtrl; simp

@[simp] theorem State.safenMask_mem (s : State) (w : Nat) : (State.safenMask s w).mem = s.mem := by unfold State.safenMask; simp

@[simp] theorem State.putTarget_mem (s : State) (n t : Nat) : (State.putTarget s n t).mem = s.mem := by unfold State.putTarget; rfl

@[simp] theorem State.islandDrain_mem (s : State) (n t : Nat) : (State.islandDrain s n t).mem = s.mem := by unfold State.islandDrain; simp

@[simp] theorem State.islandTake_mem (s : State) (n t : Nat) (secure : Bool) : (State.islandTake s n t secure).mem = s.mem := by unfold State.islandTake; simp

@[simp] theorem State.islandDown_mem (s : State) (n t : Nat) (secure : Bool) : (State.islandDown s n t secure).mem = s.mem := by unfold State.islandDown; simp

@[simp] theorem State.islandUp_mem (s : State) (n : Nat) (secure : Bool) : (State.islandUp s n secure).mem = s.mem := by unfold State.islandUp; simp

@[simp] theorem State.islandReq_mem (s : State) (n w : Nat) (secure : Bool) : (State.islandReq s n w secure).mem = s.mem := by unfold State.islandReq; simp

@[simp] theorem State.claimZero_mem (s : State) (n : Nat) : (State.claimZero s n).mem = s.mem := by unfold State.claimZero; simp

@[simp] theorem State.claimWrite_mem (s : State) (n w : Nat) : (State.claimWrite s n w).mem = s.mem := by unfold State.claimWrite; simp

@[simp] theorem State.claimExpire_mem (s : State) (n : Nat) : (State.claimExpire s n).mem = s.mem := by unfold State.claimExpire; simp

@[simp] theorem State.forget_memwf (s : State) (p : Nat → Bool) (h_ : Memory.wf s.mem = true) : Memory.wf (State.forget s p).mem = true := memFilter_wf _ _ h_

@[simp] theorem State.sramZero_memwf (s : State) (n : Nat) (h_ : Memory.wf s.mem = true) : Memory.wf (State.sramZero s n).mem = true := by unfold State.sramZero; simp [h_]

@[simp] theorem State.groupDown_mem (s : State) (n : Nat) : (State.groupDown s n).mem = s.mem := by unfold State.groupDown; simp

@[simp] theorem State.groupUp_mem (s : State) (n : Nat) : (State.groupUp s n).mem = s.mem := by unfold State.groupUp; simp

@[simp] theorem State.arbGrant_mem (s : State) (k : Nat) (l : List Claim) : (State.arbGrant s k l).mem = s.mem := by unfold State.arbGrant; split <;> simp

@[simp] theorem State.putHolding_mem (s : State) (d c n : Nat) : (State.putHolding s d c n).mem = s.mem := by unfold State.putHolding; simp

@[simp] theorem State.putUnitMap_mem (s : State) (c : Nat) (l : Store Nat) : (State.putUnitMap s c l).mem = s.mem := by unfold State.putUnitMap; rfl

@[simp] theorem State.giveUnits_mem (s : State) (c first n o : Nat) : (State.giveUnits s c first n o).mem = s.mem := by unfold State.giveUnits; simp

@[simp] theorem State.allocate_mem (s : State) (c : Nat) : (State.allocate s c).mem = s.mem := by unfold State.allocate; simp

@[simp] theorem State.allocateAll_mem (s : State) : (State.allocateAll s).mem = s.mem := by unfold State.allocateAll; simp

@[simp] theorem State.moveGo_mem (s : State) : (State.moveGo s).mem = s.mem := by unfold State.moveGo; simp

@[simp] theorem State.moveParty_mem (s : State) (p c n : Nat) : (State.moveParty s p c n).mem = s.mem := by unfold State.moveParty; simp

@[simp] theorem State.moveCommit_mem (s : State) : (State.moveCommit s).mem = s.mem := by unfold State.moveCommit; split <;> simp

@[simp] theorem State.moveDone_mem (s : State) : (State.moveDone s).mem = s.mem := by unfold State.moveDone; split <;> simp

@[simp] theorem State.offerAll_mem (s : State) : (State.offerAll s).mem = s.mem := by unfold State.offerAll; simp

@[simp] theorem State.featCommit_mem (s : State) (d : Nat) : (State.featCommit s d).mem = s.mem := by unfold State.featCommit; (repeat' split) <;> simp

@[simp] theorem State.withdraw_mem (s : State) (d : Nat) : (State.withdraw s d).mem = s.mem := by unfold State.withdraw; simp

@[simp] theorem State.txResetDrop_mem (s : State) (x : QCopy) (q : Nat) : (State.txResetDrop s x q).mem = s.mem := by unfold State.txResetDrop; split <;> simp

@[simp] theorem State.frameResetDrop_mem (s : State) (f : InFrame) : (State.frameResetDrop s f).mem = s.mem := by unfold State.frameResetDrop; split <;> simp

@[simp] theorem State.dropTx_mem (s : State) (d : Nat) : (State.dropTx s d).mem = s.mem := by unfold State.dropTx; simp

@[simp] theorem State.dropRx_mem (s : State) (d : Nat) : (State.dropRx s d).mem = s.mem := by unfold State.dropRx; simp

@[simp] theorem State.dropWaiting_mem (s : State) (d : Nat) : (State.dropWaiting s d).mem = s.mem := by unfold State.dropWaiting; simp

@[simp] theorem State.squash_mem (s : State) (d : Nat) : (State.squash s d).mem = s.mem := by unfold State.squash; simp

@[simp] theorem State.drain_mem (s : State) (d : Nat) : (State.drain s d).mem = s.mem := by unfold State.drain; simp

@[simp] theorem State.drawerReset_mem (s : State) (d : Nat) (sq : Bool) : (State.drawerReset s d sq).mem = s.mem := by unfold State.drawerReset; simp

@[simp] theorem State.drainEscalate_mem (s : State) (d : Nat) : (State.drainEscalate s d).mem = s.mem := by unfold State.drainEscalate; simp

@[simp] theorem State.changeAbort_mem (s : State) (cp : Nat) : (State.changeAbort s cp).mem = s.mem := by unfold State.changeAbort; simp

@[simp] theorem State.recDrawerReset_mem (s : State) (d : Nat) : (State.recDrawerReset s d).mem = s.mem := by unfold State.recDrawerReset; rfl

@[simp] theorem State.drawerAbandon_mem (s : State) : (State.drawerAbandon s).mem = s.mem := by unfold State.drawerAbandon; simp

@[simp] theorem State.drawerResetDone_mem (s : State) (d : Nat) : (State.drawerResetDone s d).mem = s.mem := by unfold State.drawerResetDone; simp

@[simp] theorem State.hartTrap_mem (s : State) (h code : Nat) : (State.hartTrap s h code).mem = s.mem := by unfold State.hartTrap; simp

@[simp] theorem State.wcall_mem (s : State) (h : Nat) : (State.wcall s h).mem = s.mem := by unfold State.wcall; simp

@[simp] theorem State.gateCall_mem (s : State) (h pa : Nat) : (State.gateCall s h pa).mem = s.mem := by unfold State.gateCall; simp

@[simp] theorem State.hartSettle_mem (s : State) (h : Nat) : (State.hartSettle s h).mem = s.mem := by unfold State.hartSettle; simp

@[simp] theorem State.mtrResume_mem (s : State) (c : Nat) : (State.mtrResume s c).mem = s.mem := by unfold State.mtrResume; simp

@[simp] theorem State.dbgSettle_mem (s : State) : (State.dbgSettle s).mem = s.mem := by unfold State.dbgSettle; simp

@[simp] theorem State.backToNormal_mem (s : State) (h : Nat) : (State.backToNormal s h).mem = s.mem := by unfold State.backToNormal; simp

@[simp] theorem State.wret_mem (s : State) (h : Nat) : (State.wret s h).mem = s.mem := by unfold State.wret; simp

@[simp] theorem State.hdrawerAccess_mem (s : State) (h : Nat) (v : Option Nat) : (State.hdrawerAccess s h v).mem = s.mem := by unfold State.hdrawerAccess; simp

@[simp] theorem State.forceOut_mem (s : State) (h : Nat) : (State.forceOut s h).mem = s.mem := by unfold State.forceOut; simp

@[simp] theorem State.clearSet_mem (s : State) (cp : Nat) : (State.clearSet s cp).mem = s.mem := by unfold State.clearSet; rfl

@[simp] theorem State.tillWrld_mem (s : State) : (State.tillWrld s).mem = s.mem := by unfold State.tillWrld; simp

@[simp] theorem State.wrldReset_memwf (s : State) (h_ : Memory.wf s.mem = true) : Memory.wf (State.wrldReset s).mem = true := by unfold State.wrldReset; simp [h_]

@[simp] theorem State.forceAll_memwf (s : State) (h_ : Memory.wf s.mem = true) : Memory.wf (State.forceAll s).mem = true := by unfold State.forceAll; simp [h_]

@[simp] theorem State.restartBegin_memwf (s : State) (h_ : Memory.wf s.mem = true) : Memory.wf (State.restartBegin s).mem = true := by unfold State.restartBegin; simp [h_]

@[simp] theorem State.svcDead_mem (s : State) : (State.svcDead s).mem = s.mem := by unfold State.svcDead; simp

@[simp] theorem State.svcFail_memwf (s : State) (call : Bool) (h_ : Memory.wf s.mem = true) : Memory.wf (State.svcFail s call).mem = true := by
  unfold State.svcFail
  (repeat'
    first
      | exact h_
      | with_reducible rfl
      | (simp [*]; done)
      | (simp_all; done)
      | (intro _)
      | (dsimp only)
      | split
      | (rename_i heq; obtain ⟨rfl, rfl⟩ := Prod.ext_iff.1 heq)
      | refine State.each_memwf _ _ _ ?_ ?_)

@[simp] theorem State.callTimeout_memwf (s : State) (h : Nat) (h_ : Memory.wf s.mem = true) : Memory.wf (State.callTimeout s h).mem = true := by unfold State.callTimeout; simp [h_]

@[simp] theorem State.callTimer_memwf (s : State) (h : Nat) (h_ : Memory.wf s.mem = true) : Memory.wf (State.callTimer s h).mem = true := by unfold State.callTimer; split <;> simp [h_]

@[simp] theorem State.wipeDone_mem (s : State) : (State.wipeDone s).mem = s.mem := by unfold State.wipeDone; simp

@[simp] theorem State.svcReady_mem (s : State) : (State.svcReady s).mem = s.mem := by unfold State.svcReady; simp

@[simp] theorem State.svcRestart_memwf (s : State) (h_ : Memory.wf s.mem = true) : Memory.wf (State.svcRestart s).mem = true := by unfold State.svcRestart; split <;> simp [h_]

@[simp] theorem State.restartTimeout_memwf (s : State) (h_ : Memory.wf s.mem = true) : Memory.wf (State.restartTimeout s).mem = true := by unfold State.restartTimeout; split <;> simp [h_]

@[simp] theorem State.svcWrite_memwf (s : State) (w : Nat) (h_ : Memory.wf s.mem = true) : Memory.wf (State.svcWrite s w).mem = true := by
  unfold State.svcWrite
  (repeat'
    first
      | exact h_
      | with_reducible rfl
      | (simp [*]; done)
      | (simp_all; done)
      | (intro _)
      | (dsimp only)
      | split
      | (rename_i heq; obtain ⟨rfl, rfl⟩ := Prod.ext_iff.1 heq)
      | refine State.each_memwf _ _ _ ?_ ?_)

@[simp] theorem State.ringSecWrite_mem (s : State) (k w : Nat) : (State.ringSecWrite s k w).mem = s.mem := by unfold State.ringSecWrite; simp

@[simp] theorem State.mtrWorldWrite_mem (s : State) (w : Nat) : (State.mtrWorldWrite s w).mem = s.mem := by unfold State.mtrWorldWrite; simp

@[simp] theorem State.coreReset_mem (s : State) (c : Nat) : (State.coreReset s c).mem = s.mem := by unfold State.coreReset; simp

@[simp] theorem State.coreStop_memwf (s : State) (c : Nat) (h_ : Memory.wf s.mem = true) : Memory.wf (State.coreStop s c).mem = true := by
  unfold State.coreStop
  (repeat'
    first
      | exact h_
      | with_reducible rfl
      | (simp [*]; done)
      | (simp_all; done)
      | (intro _)
      | (dsimp only)
      | split
      | (rename_i heq; obtain ⟨rfl, rfl⟩ := Prod.ext_iff.1 heq)
      | refine State.each_memwf _ _ _ ?_ ?_)

@[simp] theorem State.coreError_memwf (s : State) (c : Nat) (h_ : Memory.wf s.mem = true) : Memory.wf (State.coreError s c).mem = true := by
  unfold State.coreError
  (repeat'
    first
      | exact h_
      | with_reducible rfl
      | (simp [*]; done)
      | (simp_all; done)
      | (intro _)
      | (dsimp only)
      | split
      | (rename_i heq; obtain ⟨rfl, rfl⟩ := Prod.ext_iff.1 heq)
      | refine State.each_memwf _ _ _ ?_ ?_)

@[simp] theorem State.dbgDenied_mem (s : State) (secure write : Bool) (addr : Nat) : (State.dbgDenied s secure write addr).mem = s.mem := by unfold State.dbgDenied; simp

@[simp] theorem State.dbgHalt_mem (s : State) (y : DbgTarget) : (State.dbgHalt s y).mem = s.mem := by
  cases y <;> (unfold State.dbgHalt; (repeat' first | with_reducible rfl | (simp; done) | (dsimp only) | split))

@[simp] theorem State.dbgResume_mem (s : State) (y : DbgTarget) : (State.dbgResume s y).mem = s.mem := by
  cases y <;> (unfold State.dbgResume; (repeat' first | with_reducible rfl | (simp; done) | (dsimp only) | split))

@[simp] theorem State.dbgStep_mem (s : State) (h : Nat) (k : StepKind) : (State.dbgStep s h k).mem = s.mem := by unfold State.dbgStep; split <;> simp

@[simp] theorem State.putTil_mem (s : State) (k : Nat) (x : SlotSt) : (State.putTil s k x).mem = s.mem := by unfold State.putTil; rfl

@[simp] theorem State.takeUse_mem (s : State) (k : Nat) : (State.takeUse s k).mem = s.mem := by unfold State.takeUse; simp

@[simp] theorem State.saUnbind_mem (s : State) (k : Nat) : (State.saUnbind s k).mem = s.mem := by unfold State.saUnbind; simp

@[simp] theorem State.slotDestroy_mem (s : State) (k : Nat) : (State.slotDestroy s k).mem = s.mem := by unfold State.slotDestroy; simp

@[simp] theorem State.volatileLost_mem (s : State) : (State.volatileLost s).mem = s.mem := by unfold State.volatileLost; simp

@[simp] theorem State.tillGo_mem (s : State) (cp w : Nat) : (State.tillGo s cp w).mem = s.mem := by unfold State.tillGo; simp

@[simp] theorem State.tillGrant_mem (s : State) : (State.tillGrant s).mem = s.mem := by
  unfold State.tillGrant
  first
    | with_reducible rfl
    | (simp; done)
    | (repeat'
        first
          | with_reducible rfl
          | (simp; done)
          | (simp_all; done)
          | (intro _)
          | (dsimp only)
          | split
          | (rename_i heq; obtain ⟨rfl, rfl⟩ := Prod.ext_iff.1 heq)
          | refine (State.each_mem _ _ _ ?_).trans ?_)

@[simp] theorem State.bufPlace_memwf (s : State) (cp : Nat) (h : HostMem) (wr : Bool) (p : Piece) (h_ : Memory.wf s.mem = true) : Memory.wf (State.bufPlace s cp h wr p).2.mem = true := by
  unfold State.bufPlace
  (repeat'
    first
      | exact h_
      | with_reducible rfl
      | (simp [*]; done)
      | (simp_all; done)
      | (intro _)
      | (dsimp only)
      | split
      | (rename_i heq; obtain ⟨rfl, rfl⟩ := Prod.ext_iff.1 heq)
      | refine State.each_memwf _ _ _ ?_ ?_)

@[simp] theorem State.bufRead_memwf (s : State) (cp : Nat) (h : HostMem) (l : List Piece) (h_ : Memory.wf s.mem = true) :
    Memory.wf (s.bufRead cp h l).2.mem = true := by
  induction l generalizing s with
  | nil => exact h_
  | cons p l ih =>
    unfold State.bufRead
    have e := State.bufPlace_memwf s cp h false p h_
    split
    · rename_i heq
      rw [heq] at e; exact e
    · rename_i heq
      rw [heq] at e
      dsimp only at e ⊢
      split <;> rename_i heq2 <;>
        · have e2 := ih _ e
          rw [heq2] at e2
          exact e2

@[simp] theorem State.bufWrite_memwf (s : State) (cp : Nat) (h : HostMem) (n : Nat) (l : List Piece) (x : List Nat)
    (h_ : Memory.wf s.mem = true) : Memory.wf (s.bufWrite cp h n l x).2.2.mem = true := by
  induction l generalizing s n x with
  | nil => exact h_
  | cons p l ih =>
    unfold State.bufWrite
    have e := State.bufPlace_memwf s cp h true p h_
    split
    · rename_i heq
      rw [heq] at e; exact e
    · rename_i heq
      rw [heq] at e
      dsimp only at e ⊢
      apply ih
      split <;> split <;> simp [e]

@[simp] theorem State.lcLoop_mem (s : State) (t : Nat) : (State.lcLoop s t).mem = s.mem := by unfold State.lcLoop; simp

@[simp] theorem State.lcBegin_mem (s : State) (t : Nat) : (State.lcBegin s t).mem = s.mem := by unfold State.lcBegin; simp

@[simp] theorem State.lcCommit_mem (s : State) (t : Nat) : (State.lcCommit s t).mem = s.mem := by unfold State.lcCommit; simp

@[simp] theorem State.lcEnd_mem (s : State) : (State.lcEnd s).mem = s.mem := by unfold State.lcEnd; split <;> simp

@[simp] theorem State.draw_mem (s : State) (n : Nat) : (State.draw s n).2.mem = s.mem := by unfold State.draw; rfl

@[simp] theorem State.newKey_mem (s : State) (type n : Nat) : (State.newKey s type n).2.mem = s.mem := by unfold State.newKey; split <;> simp

@[simp] theorem State.signBy_mem (s : State) (x : SlotSt) (p : Nat) (m : List Nat) : (State.signBy s x p m).2.mem = s.mem := by unfold State.signBy; split <;> simp

@[simp] theorem State.statement_mem (s : State) (k : Nat) (nonce : List Nat) : (State.statement s k nonce).2.mem = s.mem := by unfold State.statement; simp

@[simp] theorem State.nonceNew_mem (s : State) (l : List Nat) (at_ : Nat) : (State.nonceNew s l at_).mem = s.mem := rfl

@[simp] theorem State.tillMake_mem (s : State) (cp : Nat) (key : List Nat) (t : State) :
    (s.tillMake cp key t).mem = t.mem := by unfold State.tillMake; simp

@[simp] theorem State.tillEnd_mem (s : State) (cp r : Nat) (l : List Nat) (t : State) (h : t.mem = s.mem) :
    (s.tillEnd cp r l t).2.2.mem = s.mem := by
  unfold State.tillEnd
  dsimp only
  split
  · rfl
  · split
    · rfl
    · split
      · rfl
      · exact h

@[simp] theorem State.tillEffect_mem (s : State) (cp : Nat) (src : List Nat) : (State.tillEffect s cp src).2.2.mem = s.mem := by
  unfold State.tillEffect
  dsimp only
  split
  all_goals
    repeat' split
    all_goals exact State.tillEnd_mem _ _ _ _ _ (by simp)

@[simp] theorem State.tillResult_mem (s : State) (r n : Nat) : (State.tillResult s r n).mem = s.mem := by unfold State.tillResult; rfl

@[simp] theorem State.tillFinish_memwf (s : State) (cp : Nat) (h : HostMem) (src : List Nat) (h_ : Memory.wf s.mem = true) : Memory.wf (State.tillFinish s cp h src).mem = true := by
  unfold State.tillFinish
  (repeat'
    first
      | exact h_
      | with_reducible rfl
      | (simp [*]; done)
      | (simp_all; done)
      | (intro _)
      | (dsimp only)
      | split
      | (rename_i heq; obtain ⟨rfl, rfl⟩ := Prod.ext_iff.1 heq)
      | refine State.each_memwf _ _ _ ?_ ?_)

@[simp] theorem State.nonceDone_mem (s : State) (op : Nat) : (State.nonceDone s op).mem = s.mem := by unfold State.nonceDone; simp

@[simp] theorem State.tillRun_memwf (s : State) (cp : Nat) (h : HostMem) (h_ : Memory.wf s.mem = true) : Memory.wf (State.tillRun s cp h).mem = true := by
  unfold State.tillRun
  (repeat'
    first
      | exact h_
      | with_reducible rfl
      | (simp [*]; done)
      | (simp_all; done)
      | (intro _)
      | (dsimp only)
      | split
      | (rename_i heq; obtain ⟨rfl, rfl⟩ := Prod.ext_iff.1 heq)
      | refine State.each_memwf _ _ _ ?_ ?_)

@[simp] theorem State.tillOp_memwf (s : State) (op : Nat) (h : HostMem) (h_ : Memory.wf s.mem = true) : Memory.wf (State.tillOp s op h).mem = true := by
  unfold State.tillOp
  (repeat'
    first
      | exact h_
      | with_reducible rfl
      | (simp [*]; done)
      | (simp_all; done)
      | (intro _)
      | (dsimp only)
      | split
      | (rename_i heq; obtain ⟨rfl, rfl⟩ := Prod.ext_iff.1 heq)
      | refine State.each_memwf _ _ _ ?_ ?_)

@[simp] theorem State.tillDone_mem (s : State) : (State.tillDone s).mem = s.mem := by unfold State.tillDone; split <;> simp

@[simp] theorem State.entropyFail_mem (s : State) : (State.entropyFail s).mem = s.mem := by unfold State.entropyFail; simp

@[simp] theorem State.entropyPass_mem (s : State) : (State.entropyPass s).mem = s.mem := by unfold State.entropyPass; simp

@[simp] theorem State.saCtrl_mem (s : State) (t : Tag) (p a w : Nat) : (State.saCtrl s t p a w).mem = s.mem := by unfold State.saCtrl; simp

theorem State.nextRec_mem {s : State} {d : Nat} {x : LogRec} {t : State} (h : s.nextRec d = some (x, t)) :
    t.mem = s.mem := by
  unfold State.nextRec at h
  split at h
  · cases h; simp
  · split at h <;> cases h
    rfl

@[simp] theorem State.putItem_mem (s : State) (i : Nat) (x : RecItem) : (State.putItem s i x).mem = s.mem := by unfold State.putItem; rfl

@[simp] theorem State.sampleTake_mem (s : State) (p : Sample) : (State.sampleTake s p).mem = s.mem := by unfold State.sampleTake; rfl

@[simp] theorem State.sampleMerge_mem (s : State) (l : List Sample) : (State.sampleMerge s l).mem = s.mem := by unfold State.sampleMerge; simp

@[simp] theorem State.itemConfig_mem (s : State) : (State.itemConfig s).mem = s.mem := by unfold State.itemConfig; simp

@[simp] theorem State.recCfgCmd_mem (s : State) (w : Nat) : (State.recCfgCmd s w).mem = s.mem := by unfold State.recCfgCmd; simp

@[simp] theorem State.itemClear_mem (s : State) (all : Bool) (i : Nat) : (State.itemClear s all i).mem = s.mem := by unfold State.itemClear; simp

@[simp] theorem State.recClear_mem (s : State) (w : Nat) : (State.recClear s w).mem = s.mem := by unfold State.recClear; simp

@[simp] theorem State.recCommit_mem (s : State) : (State.recCommit s).mem = s.mem := by unfold State.recCommit; rfl

@[simp] theorem State.flushDone_mem (s : State) : (State.flushDone s).mem = s.mem := by unfold State.flushDone; simp

@[simp] theorem State.recFlush_mem (s : State) (w : Nat) : (State.recFlush s w).mem = s.mem := by unfold State.recFlush; simp

@[simp] theorem State.alarmSave_mem (s : State) : (State.alarmSave s).mem = s.mem := by unfold State.alarmSave; rfl

@[simp] theorem State.recRestore_mem (s : State) : (State.recRestore s).mem = s.mem := by unfold State.recRestore; rfl

@[simp] theorem State.recLost_mem (s : State) : (State.recLost s).mem = s.mem := by unfold State.recLost; rfl

@[simp] theorem State.winSnap_mem (s : State) (cp : Nat) : (State.winSnap s cp).mem = s.mem := by unfold State.winSnap; simp

@[simp] theorem State.winAdvance_mem (s : State) (cp : Nat) : (State.winAdvance s cp).mem = s.mem := by
  unfold State.winAdvance
  first
    | with_reducible rfl
    | (simp; done)
    | (repeat'
        first
          | with_reducible rfl
          | (simp; done)
          | (simp_all; done)
          | (intro _)
          | (dsimp only)
          | split
          | (rename_i heq; obtain ⟨rfl, rfl⟩ := Prod.ext_iff.1 heq)
          | refine (State.each_mem _ _ _ ?_).trans ?_)

@[simp] theorem State.winBefore_mem (s : State) (w cp : Nat) : (State.winBefore s w cp).mem = s.mem := by unfold State.winBefore; simp

@[simp] theorem State.winAfter_mem (s : State) (w cp : Nat) : (State.winAfter s w cp).mem = s.mem := by unfold State.winAfter; simp

@[simp] theorem State.alarmFreeze_mem (s : State) : (State.alarmFreeze s).mem = s.mem := by unfold State.alarmFreeze; split <;> simp

@[simp] theorem State.alarmPop_mem (s : State) (w : Nat) : (State.alarmPop s w).mem = s.mem := by unfold State.alarmPop; simp

@[simp] theorem State.logFill_mem (s : State) (d r : Nat) (y : Nat) : (State.logFill s d r y).mem = s.mem := by
  induction y generalizing s with
  | zero => rfl
  | succ n ih =>
    unfold State.logFill
    dsimp only
    split
    · rfl
    · split
      · simp
      · split
        · rfl
        · rename_i heq
          rw [ih, State.addRecord_mem, State.nextRec_mem heq]

@[simp] theorem State.logDeliver_mem (s : State) (d : Nat) : (State.logDeliver s d).mem = s.mem := by unfold State.logDeliver; split <;> simp

@[simp] theorem State.logTimeout_mem (s : State) (r : Nat) : (State.logTimeout s r).mem = s.mem := by unfold State.logTimeout; simp

@[simp] theorem State.traceLevel_mem (s : State) (d : Nat) : (State.traceLevel s d).mem = s.mem := by unfold State.traceLevel; simp

@[simp] theorem State.withImage_mem (s : State) (im : Image) : (State.withImage s im).mem = s.mem := by unfold State.withImage; rfl

@[simp] theorem State.putSess_mem (s : State) (kind : Nat) (x : SessSt) : (State.putSess s kind x).mem = s.mem := by unfold State.putSess; rfl

@[simp] theorem State.updEffect_mem (s : State) (c : UpdCmd) : (State.updEffect s c).mem = s.mem := by unfold State.updEffect; split <;> simp

@[simp] theorem State.updRun_mem (s : State) (op : Nat) (nandErr : Bool) : (State.updRun s op nandErr).mem = s.mem := by unfold State.updRun; split <;> simp

@[simp] theorem State.updReport_mem (s : State) (ring st : Nat) : (State.updReport s ring st).mem = s.mem := by unfold State.updReport; simp

@[simp] theorem State.updDone_mem (s : State) : (State.updDone s).mem = s.mem := by unfold State.updDone; (repeat' split) <;> simp

@[simp] theorem State.mbxCmd_mem (s : State) (w : Nat) : (State.mbxCmd s w).mem = s.mem := by unfold State.mbxCmd; simp

@[simp] theorem State.copyPage_memwf (s : State) (kind bank p : Nat) (l : List Nat) (h_ : Memory.wf s.mem = true) : Memory.wf (State.copyPage s kind bank p l).mem = true := by
  unfold State.copyPage
  repeat' (first | exact h_ | exact memWrite_wf _ _ _ h_ | (dsimp only) | split)

@[simp] theorem State.zeroMagic_memwf (s : State) (kind bank : Nat) (h_ : Memory.wf s.mem = true) : Memory.wf (State.zeroMagic s kind bank).mem = true := by
  unfold State.zeroMagic
  split
  · exact State.copyPage_memwf _ _ _ _ _ h_
  · exact memWrite_wf _ _ _ h_

@[simp] theorem State.lastBoot_mem (s : State) (kind code bank : Nat) (resumed : Bool) : (State.lastBoot s kind code bank resumed).mem = s.mem := by unfold State.lastBoot; simp

@[simp] theorem State.copyOver_mem (s : State) (kind : Nat) : (State.copyOver s kind).mem = s.mem := by unfold State.copyOver; simp

@[simp] theorem State.copyRun_memwf (s : State) (kind bank first : Nat) (e : CopyEnd) (resumed : Bool) (h_ : Memory.wf s.mem = true) : Memory.wf (State.copyRun s kind bank first e resumed).mem = true := by
  unfold State.copyRun
  extract_lets x upTo
  have hu : ∀ s n, Memory.wf s.mem = true → Memory.wf (upTo s n).mem = true := fun s n h =>
    State.each_memwf _ _ _ (fun s a h => State.copyPage_memwf _ _ _ _ _ h) h
  clear_value upTo
  split <;> simp only [State.lastBoot_mem, State.copyOver_mem]
  · exact hu _ _ h_
  · exact State.zeroMagic_memwf _ _ _ (hu _ _ h_)
  · exact hu _ _ h_
  · exact hu _ _ h_

@[simp] theorem State.stagedImage_memwf (s : State) (kind : Nat) (e : CopyEnd) (h_ : Memory.wf s.mem = true) : Memory.wf (State.stagedImage s kind e).mem = true := by
  unfold State.stagedImage
  (repeat'
    first
      | exact h_
      | with_reducible rfl
      | (simp [*]; done)
      | (simp_all; done)
      | (intro _)
      | (dsimp only)
      | split
      | (rename_i heq; obtain ⟨rfl, rfl⟩ := Prod.ext_iff.1 heq)
      | refine State.each_memwf _ _ _ ?_ ?_)

@[simp] theorem State.openDiscard_mem (s : State) (kind : Nat) : (State.openDiscard s kind).mem = s.mem := by unfold State.openDiscard; simp

@[simp] theorem State.takeBank_mem (s : State) (kind : Nat) : (State.takeBank s kind).mem = s.mem := by unfold State.takeBank; rfl

@[simp] theorem State.copyResume_memwf (s : State) (ends : Nat → CopyEnd) (h_ : Memory.wf s.mem = true) : Memory.wf (State.copyResume s ends).mem = true := by unfold State.copyResume; split <;> simp [h_]

@[simp] theorem State.stagedNext_memwf (s : State) (kind : Nat) (e : CopyEnd) (h_ : Memory.wf s.mem = true) : Memory.wf (State.stagedNext s kind e).mem = true := by unfold State.stagedNext; split <;> simp [h_]

@[simp] theorem State.bootImages_memwf (s : State) (ends : Nat → CopyEnd) (h_ : Memory.wf s.mem = true) : Memory.wf (State.bootImages s ends).mem = true := by
  unfold State.bootImages
  apply State.stagedNext_memwf
  apply State.stagedNext_memwf
  apply State.each_memwf
  · intro s a h
    rwa [State.openDiscard_mem]
  · exact State.copyResume_memwf _ _ h_

@[simp] theorem State.updConfirm_mem (s : State) (w : Nat) : (State.updConfirm s w).mem = s.mem := by
  unfold State.updConfirm
  first
    | with_reducible rfl
    | (simp; done)
    | (repeat'
        first
          | with_reducible rfl
          | (simp; done)
          | (simp_all; done)
          | (intro _)
          | (dsimp only)
          | split
          | (rename_i heq; obtain ⟨rfl, rfl⟩ := Prod.ext_iff.1 heq)
          | refine (State.each_mem _ _ _ ?_).trans ?_)

@[simp] theorem State.putPhase_mem (s : State) (p : Nat) : (State.putPhase s p).mem = s.mem := by unfold State.putPhase; rfl

@[simp] theorem State.putLost_mem (s : State) (b : Nat) (v : Bool) : (State.putLost s b v).mem = s.mem := by unfold State.putLost; rfl

@[simp] theorem State.sysUnits_memwf (s : State) (h_ : Memory.wf s.mem = true) : Memory.wf (State.sysUnits s).mem = true := by unfold State.sysUnits; simp [h_]

@[simp] theorem State.porUnits_mem (s : State) : (State.porUnits s).mem = s.mem := by unfold State.porUnits; rfl

@[simp] theorem State.resetSaves_mem (s : State) (cause : Nat) : (State.resetSaves s cause).mem = s.mem := by unfold State.resetSaves; simp

@[simp] theorem State.ruleResults_mem (s : State) : (State.ruleResults s).mem = s.mem := by unfold State.ruleResults; simp

@[simp] theorem State.ruleConditions_mem (s : State) : (State.ruleConditions s).mem = s.mem := by unfold State.ruleConditions; simp

@[simp] theorem State.doReset_memwf (s : State) (por : Bool) (cause flush : Nat) (h_ : Memory.wf s.mem = true) : Memory.wf (State.doReset s por cause flush).mem = true := by unfold State.doReset; simp [h_]

@[simp] theorem State.trigger_memwf (s : State) (por : Bool) (cause : Nat) (h_ : Memory.wf s.mem = true) : Memory.wf (State.trigger s por cause).mem = true := by
  unfold State.trigger
  (repeat'
    first
      | exact h_
      | with_reducible rfl
      | (simp [*]; done)
      | (simp_all; done)
      | (intro _)
      | (dsimp only)
      | split
      | (rename_i heq; obtain ⟨rfl, rfl⟩ := Prod.ext_iff.1 heq)
      | refine State.each_memwf _ _ _ ?_ ?_)

@[simp] theorem State.vlogStart_memwf (s : State) (flush : Nat) (h_ : Memory.wf s.mem = true) : Memory.wf (State.vlogStart s flush).mem = true := by unfold State.vlogStart; split <;> simp [h_]

@[simp] theorem State.powerOff_mem (s : State) (ph : Nat) : (State.powerOff s ph).mem = s.mem := by unfold State.powerOff; simp

@[simp] theorem State.saveLatched_mem (s : State) : (State.saveLatched s).mem = s.mem := by unfold State.saveLatched; rfl

@[simp] theorem State.vlogValid_memwf (s : State) (cut : Bool) (h_ : Memory.wf s.mem = true) : Memory.wf (State.vlogValid s cut).mem = true := by
  unfold State.vlogValid
  (repeat'
    first
      | exact h_
      | with_reducible rfl
      | (simp [*]; done)
      | (simp_all; done)
      | (intro _)
      | (dsimp only)
      | split
      | (rename_i heq; obtain ⟨rfl, rfl⟩ := Prod.ext_iff.1 heq)
      | refine State.each_memwf _ _ _ ?_ ?_)

@[simp] theorem State.vlogFail_mem (s : State) : (State.vlogFail s).mem = s.mem := by unfold State.vlogFail; simp

@[simp] theorem State.recSave_mem (s : State) : (State.recSave s).mem = s.mem := by unfold State.recSave; simp

@[simp] theorem State.powerFailDone_memwf (s : State) (h_ : Memory.wf s.mem = true) : Memory.wf (State.powerFailDone s).mem = true := by
  unfold State.powerFailDone
  (repeat'
    first
      | exact h_
      | with_reducible rfl
      | (simp [*]; done)
      | (simp_all; done)
      | (intro _)
      | (dsimp only)
      | split
      | (rename_i heq; obtain ⟨rfl, rfl⟩ := Prod.ext_iff.1 heq)
      | refine State.each_memwf _ _ _ ?_ ?_)

@[simp] theorem State.dieClear_mem (s : State) (b : Nat) : (State.dieClear s b).mem = s.mem := by unfold State.dieClear; simp

@[simp] theorem State.feedLoss_mem (s : State) (f : Nat) : (State.feedLoss s f).mem = s.mem := by unfold State.feedLoss; simp

@[simp] theorem State.feedReturn_mem (s : State) (f : Nat) : (State.feedReturn s f).mem = s.mem := by unfold State.feedReturn; simp

@[simp] theorem State.retiredBy_mem (s : State) (c cause : Nat) : (State.retiredBy s c cause).mem = s.mem := by unfold State.retiredBy; simp

@[simp] theorem State.blockChan_mem (s : State) (c : Nat) : (State.blockChan s c).mem = s.mem := by unfold State.blockChan; simp

@[simp] theorem State.wireOf_mem (s : State) (c : Nat) : (State.wireOf s c).mem = s.mem := by unfold State.wireOf; simp

@[simp] theorem State.dieReload_mem (s : State) (b : Nat) : (State.dieReload s b).mem = s.mem := by
  unfold State.dieReload
  first
    | with_reducible rfl
    | (simp; done)
    | (repeat'
        first
          | with_reducible rfl
          | (simp; done)
          | (simp_all; done)
          | (intro _)
          | (dsimp only)
          | split
          | (rename_i heq; obtain ⟨rfl, rfl⟩ := Prod.ext_iff.1 heq)
          | refine (State.each_mem _ _ _ ?_).trans ?_)

@[simp] theorem State.bootCause_mem (s : State) : (State.bootCause s).mem = s.mem := by unfold State.bootCause; simp

@[simp] theorem State.cholOk_mem (s : State) : (State.cholOk s).mem = s.mem := by unfold State.cholOk; simp

@[simp] theorem State.lcComplete_mem (s : State) : (State.lcComplete s).mem = s.mem := by unfold State.lcComplete; split <;> simp

@[simp] theorem State.bootBanks_mem (s : State) : (State.bootBanks s).mem = s.mem := by unfold State.bootBanks; simp

@[simp] theorem State.bootRom_memwf (s : State) (ends : Nat → CopyEnd) (h_ : Memory.wf s.mem = true) : Memory.wf (State.bootRom s ends).mem = true := by unfold State.bootRom; split <;> simp [h_]

@[simp] theorem State.coreZero_mem (s : State) : (State.coreZero s).mem = s.mem := by unfold State.coreZero; simp

@[simp] theorem State.showRetired_mem (s : State) : (State.showRetired s).mem = s.mem := by unfold State.showRetired; simp

@[simp] theorem State.enterBare_mem (s : State) : (State.enterBare s).mem = s.mem := by unfold State.enterBare; simp

@[simp] theorem State.holdsDropped_mem (s : State) : (State.holdsDropped s).mem = s.mem := by unfold State.holdsDropped; simp

@[simp] theorem State.channelsRenewed_mem (s : State) : (State.channelsRenewed s).mem = s.mem := by unfold State.channelsRenewed; simp

@[simp] theorem State.pinsReload_mem (s : State) : (State.pinsReload s).mem = s.mem := by unfold State.pinsReload; simp

@[simp] theorem State.clampStart_mem (s : State) (changed : Bool) (l : PinMv) : (State.clampStart s changed l).mem = s.mem := by unfold State.clampStart; simp

@[simp] theorem State.retireStart_mem (s : State) (old : List (Nat × Nat)) (power : Bool) : (State.retireStart s old power).mem = s.mem := by unfold State.retireStart; simp

@[simp] theorem State.putMk_mem (s : State) (n : Nat) (x : MarkSt) : (State.putMk s n x).mem = s.mem := by unfold State.putMk; rfl

@[simp] theorem State.wireStart_mem (s : State) (c : Nat) : (State.wireStart s c).mem = s.mem := by
  unfold State.wireStart
  first
    | with_reducible rfl
    | (simp; done)
    | (repeat'
        first
          | with_reducible rfl
          | (simp; done)
          | (simp_all; done)
          | (intro _)
          | (dsimp only)
          | split
          | (rename_i heq; obtain ⟨rfl, rfl⟩ := Prod.ext_iff.1 heq)
          | refine (State.each_mem _ _ _ ?_).trans ?_)

@[simp] theorem State.harnessEnd_mem (s : State) : (State.harnessEnd s).mem = s.mem := by unfold State.harnessEnd; simp

@[simp] theorem State.imageRegs_mem (s : State) (b : Nat) (im : Image) : (State.imageRegs s b im).mem = s.mem := by unfold State.imageRegs; simp

@[simp] theorem State.imageInForce_mem (s : State) (b : Nat) (im : Image) (changed : Bool) : (State.imageInForce s b im changed).mem = s.mem := by
  unfold State.imageInForce; cases changed <;> simp

@[simp] theorem State.imageEngines_mem (s : State) : (State.imageEngines s).mem = s.mem := by unfold State.imageEngines; simp

@[simp] theorem State.imageChannels_mem (s : State) (changed : Bool) : (State.imageChannels s changed).mem = s.mem := by
  unfold State.imageChannels; split
  · simp
  · split <;> simp

@[simp] theorem State.marksBegin_mem (s : State) : (State.marksBegin s).mem = s.mem := by unfold State.marksBegin; simp

@[simp] theorem State.imageTaken_mem (s : State) (b : Nat) (l : PinMv) (im : Image) : (State.imageTaken s b l im).mem = s.mem := by unfold State.imageTaken; simp

@[simp] theorem State.bankRejected_mem (s : State) (b : Nat) (e : ImgFail) : (State.bankRejected s b e).mem = s.mem := by unfold State.bankRejected; simp

@[simp] theorem State.bankJudged_mem (s : State) (b : Nat) (l : PinMv) (res : Option ImgFail) : (State.bankJudged s b l res).mem = s.mem := by unfold State.bankJudged; split <;> simp

@[simp] theorem State.bankChecked_mem (s : State) (l : PinMv) : (State.bankChecked s l).mem = s.mem := by unfold State.bankChecked; simp

@[simp] theorem State.verdict_mem (s : State) (n v : Nat) : (State.verdict s n v).mem = s.mem := by unfold State.verdict; simp

@[simp] theorem State.markRead_mem (s : State) (n off len : Nat) : (State.markRead s n off len).mem = s.mem := by unfold State.markRead; simp

@[simp] theorem State.markSend_mem (s : State) (n : Nat) (x : MarkSt) : (State.markSend s n x).mem = s.mem := by unfold State.markSend; simp

@[simp] theorem State.markReady_mem (s : State) (n : Nat) (c : MarkCond) : (State.markReady s n c).mem = s.mem := by unfold State.markReady; (repeat' split) <;> simp

@[simp] theorem State.markFail_mem (s : State) (n : Nat) : (State.markFail s n).mem = s.mem := by unfold State.markFail; simp

@[simp] theorem State.markHeader_mem (s : State) (n : Nat) (l : List Nat) : (State.markHeader s n l).mem = s.mem := by unfold State.markHeader; simp

@[simp] theorem State.markAnswer_mem (s : State) (n : Nat) (l : List Nat) (crc : Nat) : (State.markAnswer s n l crc).mem = s.mem := by unfold State.markAnswer; simp

@[simp] theorem State.markSilent_mem (s : State) (n : Nat) : (State.markSilent s n).mem = s.mem := by unfold State.markSilent; simp

@[simp] theorem State.markGap_mem (s : State) (n : Nat) : (State.markGap s n).mem = s.mem := by unfold State.markGap; simp

@[simp] theorem State.markShort_mem (s : State) (n : Nat) : (State.markShort s n).mem = s.mem := by unfold State.markShort; simp

@[simp] theorem State.markLost_mem (s : State) (n : Nat) : (State.markLost s n).mem = s.mem := by unfold State.markLost; simp

@[simp] theorem State.imageFields_mem (s : State) : (State.imageFields s).mem = s.mem := by unfold State.imageFields; simp

@[simp] theorem State.holdsEnd_mem (s : State) : (State.holdsEnd s).mem = s.mem := by unfold State.holdsEnd; simp

@[simp] theorem State.startEnd_mem (s : State) : (State.startEnd s).mem = s.mem := by unfold State.startEnd; simp

@[simp] theorem State.wakeRefs_mem (s : State) : (State.wakeRefs s).mem = s.mem := by unfold State.wakeRefs; simp

@[simp] theorem State.sleepEnter_mem (s : State) (w : Nat) : (State.sleepEnter s w).mem = s.mem := by unfold State.sleepEnter; simp

@[simp] theorem State.wakeUp_memwf (s : State) (kind ix : Nat) (h_ : Memory.wf s.mem = true) : Memory.wf (State.wakeUp s kind ix).mem = true := by
  unfold State.wakeUp
  (repeat'
    first
      | exact h_
      | with_reducible rfl
      | (simp [*]; done)
      | (simp_all; done)
      | (intro _)
      | (dsimp only)
      | split
      | (rename_i heq; obtain ⟨rfl, rfl⟩ := Prod.ext_iff.1 heq)
      | refine State.each_memwf _ _ _ ?_ ?_)

@[simp] theorem State.wake_memwf (s : State) (kind ix : Nat) (h_ : Memory.wf s.mem = true) : Memory.wf (State.wake s kind ix).mem = true := by
  unfold State.wake
  (repeat'
    first
      | exact h_
      | with_reducible rfl
      | (simp [*]; done)
      | (simp_all; done)
      | (intro _)
      | (dsimp only)
      | split
      | (rename_i heq; obtain ⟨rfl, rfl⟩ := Prod.ext_iff.1 heq)
      | refine State.each_memwf _ _ _ ?_ ?_)

@[simp] theorem State.sleepOff_memwf (s : State) (h_ : Memory.wf s.mem = true) : Memory.wf (State.sleepOff s).mem = true := by
  unfold State.sleepOff
  (repeat'
    first
      | exact h_
      | with_reducible rfl
      | (simp [*]; done)
      | (simp_all; done)
      | (intro _)
      | (dsimp only)
      | split
      | (rename_i heq; obtain ⟨rfl, rfl⟩ := Prod.ext_iff.1 heq)
      | refine State.each_memwf _ _ _ ?_ ?_)

@[simp] theorem State.miWake_memwf (s : State) (p mv : Nat) (h_ : Memory.wf s.mem = true) : Memory.wf (State.miWake s p mv).mem = true := by
  unfold State.miWake
  (repeat'
    first
      | exact h_
      | with_reducible rfl
      | (simp [*]; done)
      | (simp_all; done)
      | (intro _)
      | (dsimp only)
      | split
      | (rename_i heq; obtain ⟨rfl, rfl⟩ := Prod.ext_iff.1 heq)
      | refine State.each_memwf _ _ _ ?_ ?_)

@[simp] theorem State.tripWakes_memwf (old s : State) (c : Nat) (h_ : Memory.wf s.mem = true) : Memory.wf (State.tripWakes old s c).mem = true := by unfold State.tripWakes; split <;> simp [h_]

@[simp] theorem State.islRegs_mem (s : State) (n : Nat) : (State.islRegs s n).mem = s.mem := by unfold State.islRegs; rfl

@[simp] theorem State.islWaiting_mem (s : State) (n : Nat) : (State.islWaiting s n).mem = s.mem := by unfold State.islWaiting; simp

@[simp] theorem State.islCan_mem (s : State) (g : Nat) : (State.islCan s g).mem = s.mem := by unfold State.islCan; simp

@[simp] theorem State.islInp_mem (s : State) (dv : List (Fin 16 × Nat)) : (State.islInp s dv).mem = s.mem := by unfold State.islInp; simp

@[simp] theorem State.islLth_mem (s : State) : (State.islLth s).mem = s.mem := by unfold State.islLth; simp

@[simp] theorem State.islBank_mem (s : State) (b : Nat) : (State.islBank s b).mem = s.mem := by unfold State.islBank; simp

@[simp] theorem State.islTil_mem (s : State) : (State.islTil s).mem = s.mem := by unfold State.islTil; simp

@[simp] theorem State.islFields_mem (s : State) (n : Nat) : (State.islFields s n).mem = s.mem := by unfold State.islFields; simp

@[simp] theorem State.islClu_mem (s : State) (c : Nat) : (State.islClu s c).mem = s.mem := by unfold State.islClu; simp

@[simp] theorem State.islMtr_mem (s : State) : (State.islMtr s).mem = s.mem := by unfold State.islMtr; simp

@[simp] theorem State.islClp_mem (s : State) : (State.islClp s).mem = s.mem := by unfold State.islClp; simp

@[simp] theorem State.islDvt_mem (s : State) : (State.islDvt s).mem = s.mem := by unfold State.islDvt; simp

@[simp] theorem State.islRge_mem (s : State) : (State.islRge s).mem = s.mem := by unfold State.islRge; simp

@[simp] theorem State.islDwl_mem (s : State) : (State.islDwl s).mem = s.mem := by unfold State.islDwl; rfl

@[simp] theorem State.islReset_memwf (s : State) (n : Nat) (dv : List (Fin 16 × Nat)) (h_ : Memory.wf s.mem = true) : Memory.wf (State.islReset s n dv).mem = true := by
  unfold State.islReset
  extract_lets s1
  have h1 : Memory.wf s1.mem = true := by simpa [s1] using h_
  clear_value s1
  simp only [apply_ite State.mem, apply_ite Memory.wf, State.islClu_mem, State.islMtr_mem, State.islLth_mem, State.islClp_mem,
    State.islBank_mem, State.islInp_mem, State.islDvt_mem, State.groupUp_mem, State.groupDown_mem, State.islTil_mem, h1,
    State.islDwl_mem, State.islRge_mem, State.linkIsDown_mem, State.cfgReset_mem, State.forget_memwf _ _ h1, ite_self]

@[simp] theorem State.beforeRead_mem (s : State) (h : Hit) : (State.beforeRead s h).mem = s.mem := by unfold State.beforeRead; split <;> simp

@[simp] theorem State.afterRead__mem (s : State) (h : Hit) (t : Tag) : (State.afterRead_ s h t).mem = s.mem := by
  unfold State.afterRead_
  first
    | with_reducible rfl
    | (simp; done)
    | (repeat'
        first
          | with_reducible rfl
          | (simp; done)
          | (simp_all; done)
          | (intro _)
          | (dsimp only)
          | split
          | (rename_i heq; obtain ⟨rfl, rfl⟩ := Prod.ext_iff.1 heq)
          | refine (State.each_mem _ _ _ ?_).trans ?_)

@[simp] theorem State.regRead_mem (s : State) (h : Hit) (t : Tag) : (State.regRead s h t).2.mem = s.mem := by unfold State.regRead; simp

@[simp] theorem State.bindWrite_mem (s : State) (d w : Nat) : (State.bindWrite s d w).mem = s.mem := by unfold State.bindWrite; simp

@[simp] theorem State.resetReqWrite_mem (s : State) (w : Nat) : (State.resetReqWrite s w).mem = s.mem := by unfold State.resetReqWrite; simp

@[simp] theorem State.resetWrite_mem (s : State) (d w : Nat) : (State.resetWrite s d w).mem = s.mem := by unfold State.resetWrite; simp

@[simp] theorem State.faultPop_mem (s : State) (d w : Nat) : (State.faultPop s d w).mem = s.mem := by unfold State.faultPop; simp

@[simp] theorem State.ringIdleWrite_mem (s : State) (reg : RegId) (r w : Nat) : (State.ringIdleWrite s reg r w).mem = s.mem := by unfold State.ringIdleWrite; simp

@[simp] theorem State.ringCtrl_mem (s : State) (r w : Nat) : (State.ringCtrl s r w).mem = s.mem := by unfold State.ringCtrl; simp

@[simp] theorem State.chCmd_mem (s : State) (c w : Nat) : (State.chCmd s c w).mem = s.mem := by unfold State.chCmd; simp

@[simp] theorem State.limitWrite_mem (s : State) (f w : Nat) : (State.limitWrite s f w).mem = s.mem := by unfold State.limitWrite; simp

@[simp] theorem State.ackWrite_mem (s : State) (w : Nat) : (State.ackWrite s w).mem = s.mem := by unfold State.ackWrite; simp

@[simp] theorem State.lthReject_mem (s : State) : (State.lthReject s).mem = s.mem := by unfold State.lthReject; simp

@[simp] theorem State.lthStop_mem (s : State) : (State.lthStop s).mem = s.mem := by unfold State.lthStop; simp

@[simp] theorem State.lthRun_mem (s : State) (cold : Bool) : (State.lthRun s cold).mem = s.mem := by unfold State.lthRun; simp

@[simp] theorem State.lthCtrl_mem (s : State) (w : Nat) : (State.lthCtrl s w).mem = s.mem := by unfold State.lthCtrl; (repeat' split) <;> simp

@[simp] theorem State.taskStart_mem (s : State) (k w : Nat) : (State.taskStart s k w).mem = s.mem := by unfold State.taskStart; simp

@[simp] theorem State.lthErrPop_mem (s : State) (w : Nat) : (State.lthErrPop s w).mem = s.mem := by unfold State.lthErrPop; simp

@[simp] theorem State.chgItem_mem (s : State) (cp w : Nat) : (State.chgItem s cp w).mem = s.mem := by unfold State.chgItem; simp

@[simp] theorem State.chgCtrl_mem (s : State) (cp w : Nat) : (State.chgCtrl s cp w).mem = s.mem := by unfold State.chgCtrl; simp

@[simp] theorem State.mtrCtrl_mem (s : State) (w : Nat) : (State.mtrCtrl s w).mem = s.mem := by unfold State.mtrCtrl; simp

@[simp] theorem State.modeField_mem (s : State) (x : Fld) (v i cp : Nat) : (State.modeField s x v i cp).mem = s.mem := by unfold State.modeField; simp

@[simp] theorem State.s2Write_mem (s : State) (d w : Nat) : (State.s2Write s d w).mem = s.mem := by unfold State.s2Write; simp

@[simp] theorem State.invalWrite_mem (s : State) (w : Nat) : (State.invalWrite s w).mem = s.mem := by unfold State.invalWrite; simp

@[simp] theorem State.s1InvalWrite_mem (s : State) (d w : Nat) : (State.s1InvalWrite s d w).mem = s.mem := by unfold State.s1InvalWrite; simp

@[simp] theorem State.swPortWrite_mem (s : State) (p : Nat) (t : Tag) (w : Nat) : (State.swPortWrite s p t w).mem = s.mem := by unfold State.swPortWrite; simp

@[simp] theorem State.tblCtrl_mem (s : State) (w : Nat) : (State.tblCtrl s w).mem = s.mem := by unfold State.tblCtrl; simp

@[simp] theorem State.pcfgWrite_mem (s : State) (p w : Nat) : (State.pcfgWrite s p w).mem = s.mem := by unfold State.pcfgWrite; simp

@[simp] theorem State.pmacWrite_mem (s : State) (p w : Nat) : (State.pmacWrite s p w).mem = s.mem := by unfold State.pmacWrite; simp

@[simp] theorem State.wakeWrite_mem (s : State) (p w : Nat) : (State.wakeWrite s p w).mem = s.mem := by unfold State.wakeWrite; simp

@[simp] theorem State.portWrite_mem (s : State) (reg : RegId) (p j w : Nat) : (State.portWrite s reg p j w).mem = s.mem := by unfold State.portWrite; (repeat' split) <;> simp

@[simp] theorem State.mscWrite_mem (s : State) (p : Nat) (t : Tag) (w : Nat) : (State.mscWrite s p t w).mem = s.mem := by unfold State.mscWrite; simp

@[simp] theorem State.macsecWrite_mem (s : State) (reg : RegId) (p j w : Nat) (t : Tag) : (State.macsecWrite s reg p j w t).mem = s.mem := by unfold State.macsecWrite; split <;> simp

@[simp] theorem State.fracStage_mem (s : State) (w : Nat) : (State.fracStage s w).mem = s.mem := by unfold State.fracStage; rfl

@[simp] theorem State.canConfigWrite_mem (s : State) (reg : RegId) (k w : Nat) : (State.canConfigWrite s reg k w).mem = s.mem := by unfold State.canConfigWrite; simp

@[simp] theorem State.mbWrite_mem (s : State) (reg : RegId) (k m w : Nat) : (State.mbWrite s reg k m w).mem = s.mem := by unfold State.mbWrite; simp

@[simp] theorem State.acfWrite_mem (s : State) (reg : RegId) (k : Nat) (t : Tag) (w : Nat) : (State.acfWrite s reg k t w).mem = s.mem := by unfold State.acfWrite; simp

@[simp] theorem State.canWrite_mem (s : State) (reg : RegId) (k j : Nat) (t : Tag) (w : Nat) : (State.canWrite s reg k j t w).mem = s.mem := by unfold State.canWrite; split <;> simp

@[simp] theorem State.rstReq_memwf (s : State) (w : Nat) (h_ : Memory.wf s.mem = true) : Memory.wf (State.rstReq s w).mem = true := by
  unfold State.rstReq
  (repeat'
    first
      | exact h_
      | with_reducible rfl
      | (simp [*]; done)
      | (simp_all; done)
      | (intro _)
      | (dsimp only)
      | split
      | (rename_i heq; obtain ⟨rfl, rfl⟩ := Prod.ext_iff.1 heq)
      | refine State.each_memwf _ _ _ ?_ ?_)

@[simp] theorem State.evtEnWrite_mem (s : State) (cp w : Nat) : (State.evtEnWrite s cp w).mem = s.mem := by unfold State.evtEnWrite; simp

@[simp] theorem State.fabricWrite_memwf (s : State) (h : Hit) (t : Tag) (w : Nat) (h_ : Memory.wf s.mem = true) : Memory.wf (State.fabricWrite s h t w).mem = true := by
  unfold State.fabricWrite
  (repeat'
    first
      | exact h_
      | with_reducible rfl
      | (simp [*]; done)
      | (simp_all; done)
      | (intro _)
      | (dsimp only)
      | split
      | (rename_i heq; obtain ⟨rfl, rfl⟩ := Prod.ext_iff.1 heq)
      | refine State.each_memwf _ _ _ ?_ ?_)

@[simp] theorem State.controlWrite_mem (s : State) (h : Hit) (t : Tag) (w : Nat) : (State.controlWrite s h t w).mem = s.mem := by unfold State.controlWrite; split <;> simp

@[simp] theorem State.networkWrite_mem (s : State) (h : Hit) (t : Tag) (w : Nat) : (State.networkWrite s h t w).mem = s.mem := by unfold State.networkWrite; split <;> simp

@[simp] theorem State.serviceWrite_memwf (s : State) (h : Hit) (t : Tag) (w : Nat) (h_ : Memory.wf s.mem = true) : Memory.wf (State.serviceWrite s h t w).mem = true := by unfold State.serviceWrite; split <;> simp [h_]

@[simp] theorem State.regWrite_memwf (s : State) (h : Hit) (t : Tag) (w : Nat) (h_ : Memory.wf s.mem = true) : Memory.wf (State.regWrite s h t w).mem = true := by unfold State.regWrite; split <;> simp [h_]

@[simp] theorem State.accessTrap_mem (s : State) (a : Access) (cause : Nat) : (State.accessTrap s a cause).mem = s.mem := by unfold State.accessTrap; simp

@[simp] theorem State.denied_mem (s : State) (a : Access) (cause : Nat) : (State.denied s a cause).mem = s.mem := by unfold State.denied; simp

@[simp] theorem State.winRead_mem (s : State) (a : Access) : (State.winRead s a).2.mem = s.mem := by unfold State.winRead; (repeat' split) <;> simp

@[simp] theorem State.winWrite_memwf (s : State) (a : Access) (v : Nat) (h_ : Memory.wf s.mem = true) : Memory.wf (State.winWrite s a v).mem = true := by
  unfold State.winWrite
  (repeat'
    first
      | exact h_
      | with_reducible rfl
      | (simp [*]; done)
      | (simp_all; done)
      | (intro _)
      | (dsimp only)
      | split
      | (rename_i heq; obtain ⟨rfl, rfl⟩ := Prod.ext_iff.1 heq)
      | refine State.each_memwf _ _ _ ?_ ?_)

@[simp] theorem State.targetRead_mem (s : State) (a : Access) : (State.targetRead s a).2.mem = s.mem := by unfold State.targetRead; split <;> simp

@[simp] theorem State.targetWrite_memwf (s : State) (a : Access) (v : Nat) (h_ : Memory.wf s.mem = true) : Memory.wf (State.targetWrite s a v).mem = true := by
  unfold State.targetWrite
  (repeat'
    first
      | exact h_
      | with_reducible rfl
      | (simp [*]; done)
      | (simp_all; done)
      | (intro _)
      | (dsimp only)
      | split
      | (rename_i heq; obtain ⟨rfl, rfl⟩ := Prod.ext_iff.1 heq)
      | refine State.each_memwf _ _ _ ?_ ?_)

@[simp] theorem State.scWins_mem (s : State) (a : Access) : (State.scWins s a).2.mem = s.mem := by unfold State.scWins; split <;> simp

@[simp] theorem State.semTaken_mem (s : State) (a : Access) : (State.semTaken s a).mem = s.mem := by unfold State.semTaken; simp

@[simp] theorem State.perform_memwf (s : State) (a : Access) (h_ : Memory.wf s.mem = true) : Memory.wf (State.perform s a).mem = true := by
  unfold State.perform
  (repeat'
    first
      | exact h_
      | with_reducible rfl
      | (simp [*]; done)
      | (simp_all; done)
      | (intro _)
      | (dsimp only)
      | split
      | (rename_i heq; obtain ⟨rfl, rfl⟩ := Prod.ext_iff.1 heq)
      | refine State.each_memwf _ _ _ ?_ ?_)

@[simp] theorem State.wait_mem (s : State) (a : Access) (k : Nat) : (State.wait s a k).mem = s.mem := by unfold State.wait; simp

@[simp] theorem State.route_memwf (s : State) (a : Access) (h_ : Memory.wf s.mem = true) : Memory.wf (State.route s a).mem = true := by unfold State.route; split <;> simp [h_]

@[simp] theorem State.reroute_memwf (s : State) (a : Access) (h_ : Memory.wf s.mem = true) : Memory.wf (State.reroute s a).mem = true := by
  unfold State.reroute
  (repeat'
    first
      | exact h_
      | with_reducible rfl
      | (simp [*]; done)
      | (simp_all; done)
      | (intro _)
      | (dsimp only)
      | split
      | (rename_i heq; obtain ⟨rfl, rfl⟩ := Prod.ext_iff.1 heq)
      | refine State.each_memwf _ _ _ ?_ ?_)

theorem State.retryList_memwf (n : Nat) (l : List (Nat × Access)) (s : State) (h_ : Memory.wf s.mem = true) :
    Memory.wf (State.retryList n l s).mem = true := by
  induction n generalizing l s with
  | zero => exact h_
  | succ n ih =>
    unfold State.retryList
    split
    · exact ih _ _ (State.reroute_memwf _ _ h_)
    · exact h_

@[simp] theorem State.retry_memwf (s : State) (h_ : Memory.wf s.mem = true) : Memory.wf (State.retry s).mem = true := by
  unfold State.retry
  exact State.retryList_memwf _ _ _ h_

@[simp] theorem State.reservationEnd_memwf (s : State) (h : Nat) (h_ : Memory.wf s.mem = true) : Memory.wf (State.reservationEnd s h).mem = true := by unfold State.reservationEnd; simp [h_]

@[simp] theorem State.fetchLine_mem (s : State) (a : Access) (region top block skip : Nat) : (State.fetchLine s a region top block skip).mem = s.mem := by unfold State.fetchLine; simp

@[simp] theorem State.prefetch_mem (s : State) (a : Access) : (State.prefetch s a).mem = s.mem := by unfold State.prefetch; split <;> simp

@[simp] theorem State.pointed_mem (s : State) (a : Access) : (State.pointed s a).mem = s.mem := by unfold State.pointed; simp

@[simp] theorem State.dwlRead_memwf (s : State) (a : Access) (h_ : Memory.wf s.mem = true) : Memory.wf (State.dwlRead s a).mem = true := by
  unfold State.dwlRead
  (repeat'
    first
      | exact h_
      | with_reducible rfl
      | (simp [*]; done)
      | (simp_all; done)
      | (intro _)
      | (dsimp only)
      | split
      | (rename_i heq; obtain ⟨rfl, rfl⟩ := Prod.ext_iff.1 heq)
      | refine State.each_memwf _ _ _ ?_ ?_)

@[simp] theorem State.tagTaken_mem (s : State) (a : Access) : (State.tagTaken s a).mem = s.mem := by unfold State.tagTaken; simp

@[simp] theorem State.entered_mem (s : State) (a : Access) : (State.entered s a).mem = s.mem := by unfold State.entered; simp

@[simp] theorem State.admitted_memwf (s : State) (a : Access) (h_ : Memory.wf s.mem = true) : Memory.wf (State.admitted s a).mem = true := by
  unfold State.admitted
  (repeat'
    first
      | exact h_
      | with_reducible rfl
      | (simp [*]; done)
      | (simp_all; done)
      | (intro _)
      | (dsimp only)
      | split
      | (rename_i heq; obtain ⟨rfl, rfl⟩ := Prod.ext_iff.1 heq)
      | refine State.each_memwf _ _ _ ?_ ?_)

@[simp] theorem State.access_memwf (s : State) (a : Access) (h_ : Memory.wf s.mem = true) : Memory.wf (State.access s a).mem = true := by
  unfold State.access
  (repeat'
    first
      | exact h_
      | with_reducible rfl
      | (simp [*]; done)
      | (simp_all; done)
      | (intro _)
      | (dsimp only)
      | split
      | (rename_i heq; obtain ⟨rfl, rfl⟩ := Prod.ext_iff.1 heq)
      | refine State.each_memwf _ _ _ ?_ ?_)

@[simp] theorem State.pcieAccess_memwf (s : State) (f : Fin 16) (a : Access) (h_ : Memory.wf s.mem = true) : Memory.wf (State.pcieAccess s f a).mem = true := by
  unfold State.pcieAccess
  (repeat'
    first
      | exact h_
      | with_reducible rfl
      | (simp [*]; done)
      | (simp_all; done)
      | (intro _)
      | (dsimp only)
      | split
      | (rename_i heq; obtain ⟨rfl, rfl⟩ := Prod.ext_iff.1 heq)
      | refine State.each_memwf _ _ _ ?_ ?_)

@[simp] theorem State.fetchAccess_memwf (s : State) (h : Nat) (a : Access) (h_ : Memory.wf s.mem = true) : Memory.wf (State.fetchAccess s h a).mem = true := by
  unfold State.fetchAccess
  (repeat'
    first
      | exact h_
      | with_reducible rfl
      | (simp [*]; done)
      | (simp_all; done)
      | (intro _)
      | (dsimp only)
      | split
      | (rename_i heq; obtain ⟨rfl, rfl⟩ := Prod.ext_iff.1 heq)
      | refine State.each_memwf _ _ _ ?_ ?_)

@[simp] theorem State.mitreOut_memwf (s : State) (c addr size : Nat) (op : AccOp) (data : Nat) (h_ : Memory.wf s.mem = true) : Memory.wf (State.mitreOut s c addr size op data).mem = true := by unfold State.mitreOut; simp [h_]

@[simp] theorem State.mitreIssue_memwf (s : State) (c addr size : Nat) (op : AccOp) (data : Nat) (h_ : Memory.wf s.mem = true) : Memory.wf (State.mitreIssue s c addr size op data).mem = true := by
  unfold State.mitreIssue
  (repeat'
    first
      | exact h_
      | with_reducible rfl
      | (simp [*]; done)
      | (simp_all; done)
      | (intro _)
      | (dsimp only)
      | split
      | (rename_i heq; obtain ⟨rfl, rfl⟩ := Prod.ext_iff.1 heq)
      | refine State.each_memwf _ _ _ ?_ ?_)

@[simp] theorem State.issue_memwf (s : State) (m : Master) (addr size : Nat) (op : AccOp) (data : Nat) (h_ : Memory.wf s.mem = true) : Memory.wf (State.issue s m addr size op data).mem = true := by
  unfold State.issue
  (repeat'
    first
      | exact h_
      | with_reducible rfl
      | (simp [*]; done)
      | (simp_all; done)
      | (intro _)
      | (dsimp only)
      | split
      | (rename_i heq; obtain ⟨rfl, rfl⟩ := Prod.ext_iff.1 heq)
      | refine State.each_memwf _ _ _ ?_ ?_)

@[simp] theorem State.regCmd_memwf (s : State) (m : Master) (r : RegId) (view : Option (Fin 16)) (i w : Nat) (j : Nat) (h_ : Memory.wf s.mem = true) : Memory.wf (State.regCmd s m r view i w j).mem = true := by unfold State.regCmd; simp [h_]

@[simp] theorem State.regAsk_memwf (s : State) (m : Master) (r : RegId) (view : Option (Fin 16)) (i : Nat) (j : Nat) (h_ : Memory.wf s.mem = true) : Memory.wf (State.regAsk s m r view i j).mem = true := by unfold State.regAsk; simp [h_]

@[simp] theorem State.islandDrained_memwf (s : State) (n : Nat) (h_ : Memory.wf s.mem = true) : Memory.wf (State.islandDrained s n).mem = true := by
  unfold State.islandDrained
  (repeat'
    first
      | exact h_
      | with_reducible rfl
      | (simp [*]; done)
      | (simp_all; done)
      | (intro _)
      | (dsimp only)
      | split
      | (rename_i heq; obtain ⟨rfl, rfl⟩ := Prod.ext_iff.1 heq)
      | refine State.each_memwf _ _ _ ?_ ?_)

@[simp] theorem State.islandZero_memwf (s : State) (n : Nat) (h_ : Memory.wf s.mem = true) : Memory.wf (State.islandZero s n).mem = true := by
  unfold State.islandZero
  (repeat'
    first
      | exact h_
      | with_reducible rfl
      | (simp [*]; done)
      | (simp_all; done)
      | (intro _)
      | (dsimp only)
      | split
      | (rename_i heq; obtain ⟨rfl, rfl⟩ := Prod.ext_iff.1 heq)
      | refine State.each_memwf _ _ _ ?_ ?_)

@[simp] theorem State.islandWiped_memwf (s : State) (n : Nat) (h_ : Memory.wf s.mem = true) : Memory.wf (State.islandWiped s n).mem = true := by unfold State.islandWiped; split <;> simp [h_]

@[simp] theorem State.wakeReset_memwf (s : State) (n : Nat) (dv : List (Fin 16 × Nat)) (h_ : Memory.wf s.mem = true) : Memory.wf (State.wakeReset s n dv).mem = true := by unfold State.wakeReset; simp [h_]

@[simp] theorem State.islandWoken_memwf (s : State) (n : Nat) (dv : List (Fin 16 × Nat)) (h_ : Memory.wf s.mem = true) : Memory.wf (State.islandWoken s n dv).mem = true := by
  unfold State.islandWoken
  (repeat'
    first
      | exact h_
      | with_reducible rfl
      | (simp [*]; done)
      | (simp_all; done)
      | (intro _)
      | (dsimp only)
      | split
      | (rename_i heq; obtain ⟨rfl, rfl⟩ := Prod.ext_iff.1 heq)
      | refine State.each_memwf _ _ _ ?_ ?_)

@[simp] theorem State.idle_mem (s : State) : (State.idle s).mem = s.mem := by unfold State.idle; simp

end Sys2Proof.Machine
end

