-- ==== Sys2Proof/Laws/MemoryRows.lean ====
section
/-! SUPPORT. What the operations of the command families leave of memory: an operation leaves it, or keeps its canonical form. -/

set_option linter.unusedTactic false
set_option linter.unreachableTactic false

namespace Sys2Proof.Machine

@[simp] theorem State.rstn_memwf (s : State) (h_ : Memory.wf s.mem = true) : Memory.wf (State.rstn s).mem = true := by
  unfold State.rstn
  (repeat'
    first
      | exact h_
      | with_reducible rfl
      | (simp [*]; done)
      | (simp_all; done)
      | (intro _)
      | (dsimp only)
      | split
      | (rename_i heq; obtain ⟨rfl, rfl⟩ := Prod.ext_iff.1 heq)
      | refine State.each_memwf _ _ _ ?_ ?_)

@[simp] theorem State.miTest_mem (s : State) (p : Nat) (pass : Bool) : (State.miTest s p pass).mem = s.mem := by unfold State.miTest; simp

@[simp] theorem State.coreSelfTest_mem (s : State) (c : Nat) (pass : Bool) : (State.coreSelfTest s c pass).mem = s.mem := by unfold State.coreSelfTest; simp

@[simp] theorem State.secureUpdate_memwf (s : State) (e : CopyEnd) (h_ : Memory.wf s.mem = true) : Memory.wf (State.secureUpdate s e).mem = true := by
  unfold State.secureUpdate
  (repeat'
    first
      | exact h_
      | with_reducible rfl
      | (simp [*]; done)
      | (simp_all; done)
      | (intro _)
      | (dsimp only)
      | split
      | (rename_i heq; obtain ⟨rfl, rfl⟩ := Prod.ext_iff.1 heq)
      | refine State.each_memwf _ _ _ ?_ ?_)

@[simp] theorem State.perrAll_mem (s : State) : (State.perrAll s).mem = s.mem := by unfold State.perrAll; simp

@[simp] theorem State.perrOf_mem (s : State) (r : Nat) : (State.perrOf s r).mem = s.mem := by unfold State.perrOf; split <;> simp

@[simp] theorem State.ringFaults_mem (s : State) (r : Nat) (h : HostMem) : (State.ringFaults s r h).mem = s.mem := by unfold State.ringFaults; (repeat' split) <;> simp

@[simp] theorem State.walkEnds_memwf (s : State) (d : Nat) (sec : Bool) (h : HostMem) (va : Nat) (wr : Bool) (h_ : Memory.wf s.mem = true) : Memory.wf (State.walkEnds s d sec h va wr).mem = true := by unfold State.walkEnds; split <;> simp [h_]

@[simp] theorem State.dirtyDone_mem (s : State) (d : Nat) : (State.dirtyDone s d).mem = s.mem := by unfold State.dirtyDone; simp

@[simp] theorem State.onChan_mem (s : State) (c : Nat) (f : State → State) (hf : ∀ s0, (f s0).mem = s0.mem) : (State.onChan s c f).mem = s.mem := by
  unfold State.onChan
  first
    | with_reducible rfl
    | (simp; done)
    | (repeat'
        first
          | with_reducible rfl
          | (simp; done)
          | (simp_all; done)
          | (intro _)
          | (dsimp only)
          | split
          | (rename_i heq; obtain ⟨rfl, rfl⟩ := Prod.ext_iff.1 heq)
          | refine (State.each_mem _ _ _ ?_).trans ?_)

@[simp] theorem State.onChan_memwf (s : State) (c : Nat) (f : State → State)
    (hf : ∀ s, Memory.wf s.mem = true → Memory.wf (f s).mem = true) (h_ : Memory.wf s.mem = true) :
    Memory.wf (s.onChan c f).mem = true := by
  unfold State.onChan
  split
  · exact hf s h_
  · exact h_

@[simp] theorem State.tripOf_memwf (s : State) (c cause : Nat) (h_ : Memory.wf s.mem = true) : Memory.wf (State.tripOf s c cause).mem = true := State.onChan_memwf _ _ _ (fun s h => State.tripWakes_memwf _ _ _ (by simpa using h)) h_

@[simp] theorem State.phaseTo_mem (s : State) (c old new : Nat) : (State.phaseTo s c old new).mem = s.mem := by unfold State.phaseTo; simp

@[simp] theorem State.edgeDone_mem (s : State) (c : Nat) : (State.edgeDone s c).mem = s.mem := by unfold State.edgeDone; simp

@[simp] theorem State.gapEnd_mem (s : State) (c : Nat) : (State.gapEnd s c).mem = s.mem := by unfold State.gapEnd; simp

@[simp] theorem State.pwmHoldsEnd_mem (s : State) (k : Nat) : (State.pwmHoldsEnd s k).mem = s.mem := by unfold State.pwmHoldsEnd; simp

@[simp] theorem State.pwmStart_mem (s : State) (k : Nat) : (State.pwmStart s k).mem = s.mem := by unfold State.pwmStart; simp

@[simp] theorem State.pwmEnd_mem (s : State) (k : Nat) : (State.pwmEnd s k).mem = s.mem := by unfold State.pwmEnd; simp

@[simp] theorem State.tempRelease_mem (s : State) (c : Nat) : (State.tempRelease s c).mem = s.mem := by unfold State.tempRelease; simp

@[simp] theorem State.offTick_mem (s : State) (b : Nat) (l : List (Fin 96)) : (State.offTick s b l).mem = s.mem := by unfold State.offTick; simp

@[simp] theorem State.offShort_mem (s : State) (c : Nat) (high : Bool) : (State.offShort s c high).mem = s.mem := by unfold State.offShort; simp

@[simp] theorem State.offOpen_mem (s : State) (c : Nat) (high : Bool) : (State.offOpen s c high).mem = s.mem := by unfold State.offOpen; simp

@[simp] theorem State.quietEnd_mem (s : State) (c : Nat) : (State.quietEnd s c).mem = s.mem := by unfold State.quietEnd; simp

@[simp] theorem State.feedMean_mem (s : State) (f mean : Nat) : (State.feedMean s f mean).mem = s.mem := by unfold State.feedMean; simp

@[simp] theorem State.shedStep_mem (s : State) (f : Nat) (means : List (Fin 96 × Nat)) : (State.shedStep s f means).mem = s.mem := by unfold State.shedStep; simp

@[simp] theorem State.restoreStep_mem (s : State) (f : Nat) : (State.restoreStep s f).mem = s.mem := by
  unfold State.restoreStep
  first
    | with_reducible rfl
    | (simp; done)
    | (repeat'
        first
          | with_reducible rfl
          | (simp; done)
          | (simp_all; done)
          | (intro _)
          | (dsimp only)
          | split
          | (rename_i heq; obtain ⟨rfl, rfl⟩ := Prod.ext_iff.1 heq)
          | refine (State.each_mem _ _ _ ?_).trans ?_)

@[simp] theorem State.ruleInput_mem (s : State) (r : Nat) (mv : PinMv) (v : Bool) : (State.ruleInput s r mv v).mem = s.mem := by unfold State.ruleInput; simp

@[simp] theorem State.miHeld_mem (s : State) (p mv : Nat) : (State.miHeld s p mv).mem = s.mem := by unfold State.miHeld; simp

@[simp] theorem State.onPin_mem (s : State) (p : Nat) (l : List Nat) (f : State → State) (hf : ∀ s0, (f s0).mem = s0.mem) : (State.onPin s p l f).mem = s.mem := by
  unfold State.onPin
  first
    | with_reducible rfl
    | (simp; done)
    | (repeat'
        first
          | with_reducible rfl
          | (simp; done)
          | (simp_all; done)
          | (intro _)
          | (dsimp only)
          | split
          | (rename_i heq; obtain ⟨rfl, rfl⟩ := Prod.ext_iff.1 heq)
          | refine (State.each_mem _ _ _ ?_).trans ?_)

@[simp] theorem State.taskRelease_mem (s : State) (k : Nat) : (State.taskRelease s k).mem = s.mem := by unfold State.taskRelease; simp

@[simp] theorem State.instanceLimit_mem (s : State) (l : Nat) : (State.instanceLimit s l).mem = s.mem := by unfold State.instanceLimit; split <;> simp

@[simp] theorem State.commitNext_mem (s : State) (resp : Nat) : (State.commitNext s resp).mem = s.mem := by unfold State.commitNext; split <;> simp

@[simp] theorem State.errorRelease_mem (s : State) : (State.errorRelease s).mem = s.mem := by unfold State.errorRelease; simp

@[simp] theorem State.initEnd_mem (s : State) : (State.initEnd s).mem = s.mem := by unfold State.initEnd; simp

@[simp] theorem State.saveDone_mem (s : State) : (State.saveDone s).mem = s.mem := by unfold State.saveDone; split <;> simp

@[simp] theorem State.onLane_mem (s : State) (l w : Nat) (f : State → Nat → State) (hf : ∀ s0 x1, (f s0 x1).mem = s0.mem) : (State.onLane s l w f).mem = s.mem := by
  unfold State.onLane
  first
    | with_reducible rfl
    | (simp; done)
    | (repeat'
        first
          | with_reducible rfl
          | (simp; done)
          | (simp_all; done)
          | (intro _)
          | (dsimp only)
          | split
          | (rename_i heq; obtain ⟨rfl, rfl⟩ := Prod.ext_iff.1 heq)
          | refine (State.each_mem _ _ _ ?_).trans ?_)

@[simp] theorem State.goto__mem (s : State) (k pc cost : Nat) : (State.goto_ s k pc cost).mem = s.mem := by unfold State.goto_; simp

@[simp] theorem State.setF_mem (s : State) (k : Nat) (b : Bool) : (State.setF s k b).mem = s.mem := by unfold State.setF; simp

@[simp] theorem State.laneOp_mem (s : State) (l w : Nat) (c : OpCond) (cost : Nat) (f : State → Nat → State) (hf : ∀ s0 x1, (f s0 x1).mem = s0.mem) : (State.laneOp s l w c cost f).mem = s.mem := by
  unfold State.laneOp
  first
    | with_reducible rfl
    | (simp; done)
    | (repeat'
        first
          | with_reducible rfl
          | (simp; done)
          | (simp_all; done)
          | (intro _)
          | (dsimp only)
          | split
          | (rename_i heq; obtain ⟨rfl, rfl⟩ := Prod.ext_iff.1 heq)
          | refine (State.each_mem _ _ _ ?_).trans ?_)

@[simp] theorem State.alu_mem (s : State) (l w : Nat) (c : OpCond) (cost : Nat) (d a : BitVec 14) (b : OpSrc) (g : Word → Word → Word) : (State.alu s l w c cost d a b g).mem = s.mem := by unfold State.alu; simp

@[simp] theorem State.alu1_mem (s : State) (l w : Nat) (c : OpCond) (cost : Nat) (d a : BitVec 14) (g : Word → Word) : (State.alu1 s l w c cost d a g).mem = s.mem := by unfold State.alu1; simp

@[simp] theorem State.cmp_mem (s : State) (l w : Nat) (c : OpCond) (a : BitVec 14) (b : OpSrc) (g : Word → Word → Bool) : (State.cmp s l w c a b g).mem = s.mem := by unfold State.cmp; simp

@[simp] theorem State.bitF_mem (s : State) (l w : Nat) (c : OpCond) (a : BitVec 14) (bit : BitVec 5) (g : Bool → Bool → Bool) : (State.bitF s l w c a bit g).mem = s.mem := by unfold State.bitF; simp

@[simp] theorem State.bitD_mem (s : State) (l w : Nat) (c : OpCond) (d : BitVec 14) (bit : BitVec 5) (g : Bool → Bool → Bool) : (State.bitD s l w c d bit g).mem = s.mem := by unfold State.bitD; simp

@[simp] theorem State.divide_mem (s : State) (l w : Nat) (c : OpCond) (d a : BitVec 14) (b : OpSrc) (g : Word → Word → Word) : (State.divide s l w c d a b g).mem = s.mem := by unfold State.divide; simp

@[simp] theorem State.edgeOp_mem (s : State) (l w : Nat) (d : BitVec 14) (g : Bool → Bool → Bool) : (State.edgeOp s l w d g).mem = s.mem := by unfold State.edgeOp; simp

@[simp] theorem State.writeIf_mem (s : State) (k n : Nat) (v : Option Word) : (State.writeIf s k n v).mem = s.mem := by unfold State.writeIf; split <;> simp

@[simp] theorem State.timerOp_mem (s : State) (l w : Nat) (d a : BitVec 14) (g : TimerBlk → Bool → Word → Word → TimerNew) : (State.timerOp s l w d a g).mem = s.mem := by unfold State.timerOp; simp

@[simp] theorem State.counterOp_mem (s : State) (l w : Nat) (d a : BitVec 14) (b : Nat) (step : Int → Int) (done : Int → Int → Bool) : (State.counterOp s l w d a b step done).mem = s.mem := by unfold State.counterOp; simp

@[simp] theorem State.jump_mem (s : State) (l w : Nat) (t : BitVec 16) (taken : Bool → Bool) : (State.jump s l w t taken).mem = s.mem := by unfold State.jump; simp

@[simp] theorem State.retOp_mem (s : State) (l w : Nat) : (State.retOp s l w).mem = s.mem := by
  unfold State.retOp
  refine State.onLane_mem _ _ _ _ ?_
  intro s k
  split <;> simp

@[simp] theorem State.stnAllowance_mem (s : State) (n : Nat) : (State.stnAllowance s n).mem = s.mem := by unfold State.stnAllowance; simp

@[simp] theorem State.stnTimeout_mem (s : State) (k : Nat) : (State.stnTimeout s k).mem = s.mem := by unfold State.stnTimeout; simp

@[simp] theorem State.changeTimeout_mem (s : State) (cp : Nat) : (State.changeTimeout s cp).mem = s.mem := by unfold State.changeTimeout; simp

@[simp] theorem State.queueRelease_memwf (s : State) (l : List QEntry) (h_ : Memory.wf s.mem = true) : Memory.wf (State.queueRelease s l).mem = true := by
  unfold State.queueRelease
  (repeat'
    first
      | exact h_
      | with_reducible rfl
      | (simp [*]; done)
      | (simp_all; done)
      | (intro _)
      | (dsimp only)
      | split
      | (rename_i heq; obtain ⟨rfl, rfl⟩ := Prod.ext_iff.1 heq)
      | refine State.each_memwf _ _ _ ?_ ?_)

@[simp] theorem State.copyADone_mem (s : State) (r : CopyRec) : (State.copyADone s r).mem = s.mem := by unfold State.copyADone; simp

@[simp] theorem State.sliceDone_memwf (s : State) (l : List QEntry) (odd : Nat) (h_ : Memory.wf s.mem = true) : Memory.wf (State.sliceDone s l odd).mem = true := by unfold State.sliceDone; simp [h_]

@[simp] theorem State.copyBDone_memwf (s : State) (r : CopyRec) (h_ : Memory.wf s.mem = true) : Memory.wf (State.copyBDone s r).mem = true := by
  unfold State.copyBDone
  (repeat'
    first
      | exact h_
      | with_reducible rfl
      | (simp [*]; done)
      | (simp_all; done)
      | (intro _)
      | (dsimp only)
      | split
      | (rename_i heq; obtain ⟨rfl, rfl⟩ := Prod.ext_iff.1 heq)
      | refine State.each_memwf _ _ _ ?_ ?_)

@[simp] theorem State.copyCDone_memwf (s : State) (r : CopyRec) (h_ : Memory.wf s.mem = true) : Memory.wf (State.copyCDone s r).mem = true := by
  unfold State.copyCDone
  (repeat'
    first
      | exact h_
      | with_reducible rfl
      | (simp [*]; done)
      | (simp_all; done)
      | (intro _)
      | (dsimp only)
      | split
      | (rename_i heq; obtain ⟨rfl, rfl⟩ := Prod.ext_iff.1 heq)
      | refine State.each_memwf _ _ _ ?_ ?_)

@[simp] theorem State.resyncDone_mem (s : State) : (State.resyncDone s).mem = s.mem := by unfold State.resyncDone; simp

@[simp] theorem State.selfTestDone_mem (s : State) (lanes : Nat) (sigFail : Bool) : (State.selfTestDone s lanes sigFail).mem = s.mem := by unfold State.selfTestDone; simp

@[simp] theorem State.egressPick_mem (s : State) (p sent : Nat) (deferred : Bool) : (State.egressPick s p sent deferred).mem = s.mem := by unfold State.egressPick; simp

@[simp] theorem State.egressEnd_mem (s : State) (p c : Nat) : (State.egressEnd s p c).mem = s.mem := by unfold State.egressEnd; simp

@[simp] theorem State.onList_mem (s : State) (l : ListRef) (f : State → Nat → Nat → State) (hf : ∀ s0 x1 x2, (f s0 x1 x2).mem = s0.mem) : (State.onList s l f).mem = s.mem := by
  unfold State.onList
  first
    | with_reducible rfl
    | (simp; done)
    | (repeat'
        first
          | with_reducible rfl
          | (simp; done)
          | (simp_all; done)
          | (intro _)
          | (dsimp only)
          | split
          | (rename_i heq; obtain ⟨rfl, rfl⟩ := Prod.ext_iff.1 heq)
          | refine (State.each_mem _ _ _ ?_).trans ?_)

@[simp] theorem State.onPort_mem (s : State) (p : Nat) (f : State → State) (hf : ∀ s0, (f s0).mem = s0.mem) : (State.onPort s p f).mem = s.mem := by
  unfold State.onPort
  first
    | with_reducible rfl
    | (simp; done)
    | (repeat'
        first
          | with_reducible rfl
          | (simp; done)
          | (simp_all; done)
          | (intro _)
          | (dsimp only)
          | split
          | (rename_i heq; obtain ⟨rfl, rfl⟩ := Prod.ext_iff.1 heq)
          | refine (State.each_mem _ _ _ ?_).trans ?_)

@[simp] theorem State.ethWake_memwf (s : State) (p : Nat) (l : List Nat) (h_ : Memory.wf s.mem = true) : Memory.wf (State.ethWake s p l).mem = true := by
  unfold State.ethWake
  (repeat'
    first
      | exact h_
      | with_reducible rfl
      | (simp [*]; done)
      | (simp_all; done)
      | (intro _)
      | (dsimp only)
      | split
      | (rename_i heq; obtain ⟨rfl, rfl⟩ := Prod.ext_iff.1 heq)
      | refine State.each_memwf _ _ _ ?_ ?_)

@[simp] theorem State.frameIn_memwf (s : State) (p : Nat) (l : List Nat) (kind : RxKind) (frags : Nat) (h_ : Memory.wf s.mem = true) : Memory.wf (State.frameIn s p l kind frags).mem = true := by
  unfold State.frameIn
  (repeat'
    first
      | exact h_
      | with_reducible rfl
      | (simp [*]; done)
      | (simp_all; done)
      | (intro _)
      | (dsimp only)
      | split
      | (rename_i heq; obtain ⟨rfl, rfl⟩ := Prod.ext_iff.1 heq)
      | refine State.each_memwf _ _ _ ?_ ?_)

@[simp] theorem State.refMessage_mem (s : State) (data : List Nat) (ago : Nat) : (State.refMessage s data ago).mem = s.mem := by unfold State.refMessage; simp

@[simp] theorem State.onCan_mem (s : State) (k : Nat) (f : State → State) (hf : ∀ s0, (f s0).mem = s0.mem) : (State.onCan s k f).mem = s.mem := by
  unfold State.onCan
  first
    | with_reducible rfl
    | (simp; done)
    | (repeat'
        first
          | with_reducible rfl
          | (simp; done)
          | (simp_all; done)
          | (intro _)
          | (dsimp only)
          | split
          | (rename_i heq; obtain ⟨rfl, rfl⟩ := Prod.ext_iff.1 heq)
          | refine (State.each_mem _ _ _ ?_).trans ?_)

@[simp] theorem State.canWake_memwf (s : State) (k : Nat) (h_ : Memory.wf s.mem = true) : Memory.wf (State.canWake s k).mem = true := by unfold State.canWake; split <;> simp [h_]

@[simp] theorem State.failWrite_mem (s : State) (d : Nat) (src unit addr cause data : Nat) : (State.failWrite s d src unit addr cause data).mem = s.mem := by unfold State.failWrite; simp

@[simp] theorem State.squashHosts_mem (s : State) : (State.squashHosts s).mem = s.mem := by unfold State.squashHosts; simp

@[simp] theorem State.vfClear_mem (s : State) : (State.vfClear s).mem = s.mem := by unfold State.vfClear; simp

@[simp] theorem State.flr_mem (s : State) (f : Nat) : (State.flr s f).mem = s.mem := by unfold State.flr; simp

@[simp] theorem State.reserving_memwf (s : State) (c : DbgTarget) (virt : Bool) (addr : Nat) (op : AccOp) (x : Nat) (h_ : Memory.wf s.mem = true) : Memory.wf (State.reserving s c virt addr op x).mem = true := by unfold State.reserving; split <;> simp [h_]

@[simp] theorem State.lineExpire_mem (s : State) (i : Nat) : (State.lineExpire s i).mem = s.mem := by unfold State.lineExpire; split <;> simp

@[simp] theorem State.readFailure_mem (s : State) (r cause va : Nat) : (State.readFailure s r cause va).mem = s.mem := by unfold State.readFailure; split <;> simp

@[simp] theorem State.hartAt_mem (s : State) (h : Nat) (c : HartCtx) : (State.hartAt s h c).mem = s.mem := by unfold State.hartAt; simp

@[simp] theorem State.restartAt_mem (s : State) (c : HartCtx) : (State.restartAt s c).mem = s.mem := by unfold State.restartAt; simp

@[simp] theorem State.tillStep_memwf (s : State) (op : Nat) (h : HostMem) (h_ : Memory.wf s.mem = true) : Memory.wf (State.tillStep s op h).mem = true := by unfold State.tillStep; split <;> simp [h_]

@[simp] theorem State.updStep_mem (s : State) (op : Nat) (nandErr : Bool) : (State.updStep s op nandErr).mem = s.mem := by unfold State.updStep; simp

@[simp] theorem State.hardShortPassed_mem (s : State) (c : Nat) : (State.hardShortPassed s c).mem = s.mem := by unfold State.hardShortPassed; simp

@[simp] theorem State.scrub_mem (s : State) (u : Nat) (x : ScrubFind) : (State.scrub s u x).mem = s.mem := by unfold State.scrub; (repeat' split) <;> simp

@[simp] theorem State.lmemBad_mem (s : State) (m : Master) (addr : Nat) (op : AccOp) : (State.lmemBad s m addr op).mem = s.mem := by unfold State.lmemBad; split <;> simp

@[simp] theorem State.sramBad_memwf (s : State) (m : Master) (addr size : Nat) (op : AccOp) (data : Nat) (h_ : Memory.wf s.mem = true) : Memory.wf (State.sramBad s m addr size op data).mem = true := by unfold State.sramBad; split <;> simp [h_]

end Sys2Proof.Machine
end

