-- ==== Sys2Proof/Laws/Queue.lean ====
section
/-! SUPPORT. What every operation leaves of the queue of waiting commands (`pending`): no operation touches it. One lemma per operation of the
files from Ops to Events. -/

set_option linter.unusedTactic false
set_option linter.unreachableTactic false

namespace Sys2Proof.Machine

@[simp] theorem State.ite_pending (c : Prop) [Decidable c] (a b : State) : (if c then a else b).pending = if c then a.pending else b.pending := apply_ite _ _ _ _

@[simp] theorem State.elim_pending {α : Type} (o : Option α) (s : State) (f : α → State) (h : ∀ x, (f x).pending = s.pending) : (o.elim s f).pending = s.pending := by cases o with
  | none => rfl
  | some x => exact h x

@[simp] theorem State.put_pending (s : State) (x : Fld) (v : Nat) (i : Nat) (j : Nat) (cp : Nat) : (State.put s x v i j cp).pending = s.pending := by unfold State.put; rfl

@[simp] theorem State.store_pending (s : State) (r : RegId) (w : Nat) (i : Nat) (j : Nat) (cp : Nat) : (State.store s r w i j cp).pending = s.pending := by unfold State.store; rfl

@[simp] theorem State.bump_pending (s : State) (x : Fld) (n : Nat) (i : Nat) (j : Nat) (cp : Nat) : (State.bump s x n i j cp).pending = s.pending := by unfold State.bump; simp

@[simp] theorem State.incr_pending (s : State) (x : Fld) (i : Nat) (j : Nat) (cp : Nat) : (State.incr s x i j cp).pending = s.pending := by unfold State.incr; simp

@[simp] theorem State.each_pending {α : Type} (s : State) (l : List α) (f : State → α → State) (hf : ∀ s0 x1, (f s0 x1).pending = s0.pending) : (State.each s l f).pending = s.pending := by
  unfold State.each
  induction l generalizing s with
  | nil => rfl
  | cons a l ih => simp only [List.foldl_cons]; rw [ih, hf]

@[simp] theorem State.when_pending (s : State) (c : Bool) (f : State → State) (hf : ∀ s0, (f s0).pending = s0.pending) : (State.when s c f).pending = s.pending := by
  unfold State.when
  first
    | with_reducible rfl
    | (simp; done)
    | (repeat'
        first
          | with_reducible rfl
          | (simp; done)
          | (simp_all; done)
          | (intro _)
          | (dsimp only)
          | split
          | (rename_i heq; obtain ⟨rfl, rfl⟩ := Prod.ext_iff.1 heq)
          | refine (State.each_pending _ _ _ ?_).trans ?_)

@[simp] theorem State.free_pending (s : State) : (State.free s).2.pending = s.pending := by unfold State.free; rfl

@[simp] theorem State.faultRecord_pending (s : State) (d cause source : Nat) (write : Bool) (addr unit detail : Nat) : (State.faultRecord s d cause source write addr unit detail).pending = s.pending := by unfold State.faultRecord; simp

@[simp] theorem State.flushStart_pending (s : State) : (State.flushStart s).pending = s.pending := by unfold State.flushStart; simp

@[simp] theorem State.alarm_pending (s : State) (code unit detail drawer : Nat) : (State.alarm s code unit detail drawer).pending = s.pending := by unfold State.alarm; simp

@[simp] theorem State.putFor_pending (s : State) (d : Nat) (x : Fld) (v : Nat) : (State.putFor s d x v).pending = s.pending := by unfold State.putFor; simp

@[simp] theorem State.bumpFor_pending (s : State) (d : Nat) (x : Fld) : (State.bumpFor s d x).pending = s.pending := by unfold State.bumpFor; simp

@[simp] theorem State.loseLog_pending (s : State) (d n : Nat) : (State.loseLog s d n).pending = s.pending := by unfold State.loseLog; simp

@[simp] theorem State.stageLost_pending (s : State) (d : Nat) : (State.stageLost s d).pending = s.pending := by unfold State.stageLost; simp

@[simp] theorem State.nextSeq_pending (s : State) (d : Nat) : (State.nextSeq s d).2.pending = s.pending := by unfold State.nextSeq; rfl

@[simp] theorem State.logEvent_pending (s : State) (d src unit bits : Nat) : (State.logEvent s d src unit bits).pending = s.pending := by unfold State.logEvent; simp

@[simp] theorem State.trace_pending (s : State) (d src unit a0 a1 : Nat) : (State.trace s d src unit a0 a1).pending = s.pending := by unfold State.trace; simp

@[simp] theorem State.raise_pending (s : State) (x : Fld) (mask i j cp : Nat) (owner : Option Nat) (src unit : Nat) : (State.raise s x mask i j cp owner src unit).pending = s.pending := by unfold State.raise; split <;> simp

@[simp] theorem State.sample_pending (s : State) (kind index : Nat) (v : Nat) : (State.sample s kind index v).pending = s.pending := by unfold State.sample; rfl

@[simp] theorem State.answer_pending (s : State) (ok : Bool) (data : Nat) : (State.answer s ok data).pending = s.pending := by unfold State.answer; rfl

@[simp] theorem State.cnt_pending (s : State) (p i n : Nat) : (State.cnt s p i n).pending = s.pending := by unfold State.cnt; simp

@[simp] theorem State.portEvt_pending (s : State) (p b : Nat) : (State.portEvt s p b).pending = s.pending := by unfold State.portEvt; simp

@[simp] theorem State.cntRx_pending (s : State) (p : Nat) (data : List Nat) : (State.cntRx s p data).pending = s.pending := by unfold State.cntRx; simp

@[simp] theorem State.cntTx_pending (s : State) (p : Nat) (data : List Nat) : (State.cntTx s p data).pending = s.pending := by unfold State.cntTx; simp

@[simp] theorem State.safenSet_pending (s : State) (b : Nat) : (State.safenSet s b).pending = s.pending := by unfold State.safenSet; simp

@[simp] theorem State.putRetired_pending (s : State) (kind unit : Nat) (b : Bool) : (State.putRetired s kind unit b).pending = s.pending := by unfold State.putRetired; simp

@[simp] theorem State.putSuspect_pending (s : State) (kind unit : Nat) (b : Bool) : (State.putSuspect s kind unit b).pending = s.pending := by unfold State.putSuspect; simp

@[simp] theorem State.retireUnit_pending (s : State) (kind unit code drawer detail : Nat) : (State.retireUnit s kind unit code drawer detail).pending = s.pending := by unfold State.retireUnit; simp

@[simp] theorem State.startTest_pending (s : State) (kind unit code drawer : Nat) (pass : Bool) : (State.startTest s kind unit code drawer pass).pending = s.pending := by unfold State.startTest; simp

@[simp] theorem State.putLc_pending (s : State) (c : Nat) (x : LoadCh) : (State.putLc s c x).pending = s.pending := by unfold State.putLc; rfl

@[simp] theorem State.mitreLine_pending (s : State) (n : Nat) : (State.mitreLine s n).pending = s.pending := by unfold State.mitreLine; simp

@[simp] theorem State.setFlag_pending (s : State) (c b : Nat) : (State.setFlag s c b).pending = s.pending := by unfold State.setFlag; simp

@[simp] theorem State.clearFlag_pending (s : State) (c b : Nat) : (State.clearFlag s c b).pending = s.pending := by unfold State.clearFlag; simp

@[simp] theorem State.flagTo_pending (s : State) (c b : Nat) (v : Bool) : (State.flagTo s c b v).pending = s.pending := by unfold State.flagTo; simp

@[simp] theorem State.offDone_pending (s : State) (c : Nat) : (State.offDone s c).pending = s.pending := by unfold State.offDone; simp

@[simp] theorem State.turnOn_pending (s : State) (c : Nat) : (State.turnOn s c).pending = s.pending := by
  unfold State.turnOn
  first
    | with_reducible rfl
    | (simp; done)
    | (repeat'
        first
          | with_reducible rfl
          | (simp; done)
          | (simp_all; done)
          | (intro _)
          | (dsimp only)
          | split
          | (rename_i heq; obtain ⟨rfl, rfl⟩ := Prod.ext_iff.1 heq)
          | refine (State.each_pending _ _ _ ?_).trans ?_)

@[simp] theorem State.applyCmd_pending (s : State) (c cmd : Nat) (fast : Bool) : (State.applyCmd s c cmd fast).pending = s.pending := by unfold State.applyCmd; simp

@[simp] theorem State.resolve_pending (s : State) (c : Nat) : (State.resolve s c).pending = s.pending := by unfold State.resolve; simp

@[simp] theorem State.setDrive_pending (s : State) (c : Nat) (v : Bool) : (State.setDrive s c v).pending = s.pending := by unfold State.setDrive; simp

@[simp] theorem State.drive_pending (s : State) (c : Nat) (v : Bool) : (State.drive s c v).pending = s.pending := by unfold State.drive; simp

@[simp] theorem State.retireChan_pending (s : State) (c cause : Nat) : (State.retireChan s c cause).pending = s.pending := by unfold State.retireChan; simp

@[simp] theorem State.trip_pending (s : State) (c cause : Nat) : (State.trip s c cause).pending = s.pending := by unfold State.trip; simp

@[simp] theorem State.tempLatch_pending (s : State) (c : Nat) : (State.tempLatch s c).pending = s.pending := by unfold State.tempLatch; simp

@[simp] theorem State.restart_pending (s : State) (c : Nat) : (State.restart s c).pending = s.pending := by unfold State.restart; simp

@[simp] theorem State.rearm_pending (s : State) (c : Nat) : (State.rearm s c).pending = s.pending := by unfold State.rearm; simp

@[simp] theorem State.episodeClose_pending (s : State) (c : Nat) : (State.episodeClose s c).pending = s.pending := by unfold State.episodeClose; simp

@[simp] theorem State.freshProt_pending (s : State) (c : Nat) : (State.freshProt s c).pending = s.pending := by unfold State.freshProt; simp

@[simp] theorem State.wireModel_pending (s : State) (c meanI2 : Nat) : (State.wireModel s c meanI2).pending = s.pending := by unfold State.wireModel; simp

@[simp] theorem State.sleepDrop_pending (s : State) (c : Nat) : (State.sleepDrop s c).pending = s.pending := by unfold State.sleepDrop; simp

@[simp] theorem State.sleepLift_pending (s : State) (c : Nat) : (State.sleepLift s c).pending = s.pending := by unfold State.sleepLift; simp

@[simp] theorem State.holdBegin_pending (s : State) (by_ c : Nat) : (State.holdBegin s by_ c).pending = s.pending := by unfold State.holdBegin; simp

@[simp] theorem State.holdExpire_pending (s : State) (c : Nat) : (State.holdExpire s c).pending = s.pending := by unfold State.holdExpire; simp

@[simp] theorem State.holdEnd_pending (s : State) (c : Nat) : (State.holdEnd s c).pending = s.pending := by unfold State.holdEnd; simp

@[simp] theorem State.putPw_pending (s : State) (k : Nat) (x : PwmSt) : (State.putPw s k x).pending = s.pending := by unfold State.putPw; rfl

@[simp] theorem State.pwmOut_pending (s : State) (k : Nat) (v : Bool) : (State.pwmOut s k v).pending = s.pending := by unfold State.pwmOut; simp

@[simp] theorem State.putFd_pending (s : State) (f : Nat) (x : FeedSt) : (State.putFd s f x).pending = s.pending := by unfold State.putFd; rfl

@[simp] theorem State.shedChan_pending (s : State) (c : Nat) : (State.shedChan s c).pending = s.pending := by unfold State.shedChan; simp

@[simp] theorem State.putPin_pending (s : State) (p : Nat) (x : PinSt) : (State.putPin s p x).pending = s.pending := by unfold State.putPin; rfl

@[simp] theorem State.sense_pending (s : State) (p mv : Nat) : (State.sense s p mv).pending = s.pending := by unfold State.sense; rfl

@[simp] theorem State.sensePins_pending (s : State) (l : PinMv) : (State.sensePins s l).pending = s.pending := by unfold State.sensePins; simp

@[simp] theorem State.frontStart_pending (s : State) (l : PinMv) : (State.frontStart s l).pending = s.pending := by unfold State.frontStart; simp

@[simp] theorem State.miEvent_pending (s : State) (p : Nat) (x : Fld) : (State.miEvent s p x).pending = s.pending := by unfold State.miEvent; simp

@[simp] theorem State.miLevel_pending (s : State) (p : Nat) (v : Bool) : (State.miLevel s p v).pending = s.pending := by unfold State.miLevel; simp

@[simp] theorem State.miConvert_pending (s : State) (p code : Nat) (comp : Bool) : (State.miConvert s p code comp).pending = s.pending := by unfold State.miConvert; simp

@[simp] theorem State.miEdge_pending (s : State) (p ticks : Nat) : (State.miEdge s p ticks).pending = s.pending := by unfold State.miEdge; simp

@[simp] theorem State.miStall_pending (s : State) (p : Nat) : (State.miStall s p).pending = s.pending := by unfold State.miStall; simp

@[simp] theorem State.drvLevel_pending (s : State) (p : Nat) (high : Bool) : (State.drvLevel s p high).pending = s.pending := by
  unfold State.drvLevel
  first
    | with_reducible rfl
    | (simp; done)
    | (repeat'
        first
          | with_reducible rfl
          | (simp; done)
          | (simp_all; done)
          | (intro _)
          | (dsimp only)
          | split
          | (rename_i heq; obtain ⟨rfl, rfl⟩ := Prod.ext_iff.1 heq)
          | refine (State.each_pending _ _ _ ?_).trans ?_)

@[simp] theorem State.clampChan_pending (s : State) (c : Nat) : (State.clampChan s c).pending = s.pending := by unfold State.clampChan; simp

@[simp] theorem State.clampTargets_pending (s : State) (r : Nat) : (State.clampTargets s r).pending = s.pending := by unfold State.clampTargets; simp

@[simp] theorem State.ruleFire_pending (s : State) (r : Nat) : (State.ruleFire s r).pending = s.pending := by unfold State.ruleFire; simp

@[simp] theorem State.ruleStep_pending (s : State) (r : Nat) (v : Bool) : (State.ruleStep s r v).pending = s.pending := by unfold State.ruleStep; simp

@[simp] theorem State.ruleMove_pending (s : State) (r : Nat) (v : Bool) : (State.ruleMove s r v).pending = s.pending := by unfold State.ruleMove; simp

@[simp] theorem State.ruleShow_pending (s : State) (r : Nat) : (State.ruleShow s r).pending = s.pending := by unfold State.ruleShow; simp

@[simp] theorem State.ruleAck_pending (s : State) (r : Nat) : (State.ruleAck s r).pending = s.pending := by unfold State.ruleAck; simp

@[simp] theorem State.ruleLoad_pending (s : State) (r : Nat) : (State.ruleLoad s r).pending = s.pending := by unfold State.ruleLoad; simp

@[simp] theorem State.putSlot_pending (s : State) (n : Nat) (v : Word) : (State.putSlot s n v).pending = s.pending := by unfold State.putSlot; rfl

@[simp] theorem State.putTk_pending (s : State) (k : Nat) (x : TaskSt) : (State.putTk s k x).pending = s.pending := by unfold State.putTk; rfl

@[simp] theorem State.writeSlot_pending (s : State) (k n : Nat) (v : Word) : (State.writeSlot s k n v).pending = s.pending := by unfold State.writeSlot; simp

@[simp] theorem State.lthErr_pending (s : State) (task cause op arg : Nat) : (State.lthErr s task cause op arg).pending = s.pending := by unfold State.lthErr; simp

@[simp] theorem State.putStn_pending (s : State) (n : Nat) (x : StnSt) : (State.putStn s n x).pending = s.pending := by unfold State.putStn; rfl

@[simp] theorem State.emit_pending (s : State) (kind unit dest : Nat) (data : List Nat) : (State.emit s kind unit dest data).pending = s.pending := by unfold State.emit; rfl

@[simp] theorem State.canQueue_pending (s : State) (k id : Nat) (ide : Bool) (pdu : List Nat) : (State.canQueue s k id ide pdu).pending = s.pending := by unfold State.canQueue; simp

@[simp] theorem State.stnSend_pending (s : State) (e dest : Nat) (pdu : List Nat) : (State.stnSend s e dest pdu).pending = s.pending := by unfold State.stnSend; simp

@[simp] theorem State.sendOut_pending (s : State) (n : Nat) : (State.sendOut s n).pending = s.pending := by unfold State.sendOut; simp

@[simp] theorem State.sendSync_pending (s : State) (k : Nat) : (State.sendSync s k).pending = s.pending := by unfold State.sendSync; simp

@[simp] theorem State.stnDrop_pending (s : State) (n cause : Nat) : (State.stnDrop s n cause).pending = s.pending := by unfold State.stnDrop; simp

@[simp] theorem State.stnValid_pending (s : State) (n seq : Nat) (fault : Bool) (vals : List Nat) : (State.stnValid s n seq fault vals).pending = s.pending := by unfold State.stnValid; simp

@[simp] theorem State.stationIn_pending (s : State) (n : Nat) (pdu : List Nat) : (State.stationIn s n pdu).pending = s.pending := by unfold State.stationIn; simp

@[simp] theorem State.stnMessage_pending (s : State) (eth : Bool) (e src : Nat) (pdu : List Nat) : (State.stnMessage s eth e src pdu).pending = s.pending := by unfold State.stnMessage; split <;> simp

@[simp] theorem State.publish_pending (s : State) (slots : List Nat) (ends : Bool) : (State.publish s slots ends).pending = s.pending := by unfold State.publish; simp

@[simp] theorem State.firstCommit_pending (s : State) : (State.firstCommit s).pending = s.pending := by unfold State.firstCommit; simp

@[simp] theorem State.commitRest_pending (s : State) (k : Nat) : (State.commitRest s k).pending = s.pending := by unfold State.commitRest; simp

@[simp] theorem State.putLane_pending (s : State) (l : Nat) (t : Option Nat) : (State.putLane s l t).pending = s.pending := by unfold State.putLane; rfl

@[simp] theorem State.startRun_pending (s : State) (k : Nat) : (State.startRun s k).pending = s.pending := by unfold State.startRun; simp

@[simp] theorem State.laneNext_pending (s : State) (l : Nat) : (State.laneNext s l).pending = s.pending := by unfold State.laneNext; split <;> simp

@[simp] theorem State.abandon_pending (s : State) (k : Nat) : (State.abandon s k).pending = s.pending := by unfold State.abandon; simp

@[simp] theorem State.faultStop_pending (s : State) (k : Nat) : (State.faultStop s k).pending = s.pending := by unfold State.faultStop; simp

@[simp] theorem State.faultRun_pending (s : State) (k cause op : Nat) : (State.faultRun s k cause op).pending = s.pending := by unfold State.faultRun; simp

@[simp] theorem State.sampleInputs_pending (s : State) (k : Nat) (maps : List Nat) : (State.sampleInputs s k maps).pending = s.pending := by unfold State.sampleInputs; simp

@[simp] theorem State.release_pending (s : State) (k tb : Nat) : (State.release s k tb).pending = s.pending := by unfold State.release; simp

@[simp] theorem State.latchDone_pending (s : State) (k : Nat) : (State.latchDone s k).pending = s.pending := by
  unfold State.latchDone
  first
    | with_reducible rfl
    | (simp; done)
    | (repeat'
        first
          | with_reducible rfl
          | (simp; done)
          | (simp_all; done)
          | (intro _)
          | (dsimp only)
          | split
          | (rename_i heq; obtain ⟨rfl, rfl⟩ := Prod.ext_iff.1 heq)
          | refine (State.each_pending _ _ _ ?_).trans ?_)

@[simp] theorem State.limitRun_pending (s : State) (k : Nat) : (State.limitRun s k).pending = s.pending := by unfold State.limitRun; simp

@[simp] theorem State.execEnd_pending (s : State) (l : Nat) : (State.execEnd s l).pending = s.pending := by unfold State.execEnd; split <;> simp

@[simp] theorem State.commit_pending (s : State) (k resp : Nat) : (State.commit s k resp).pending = s.pending := by
  unfold State.commit
  first
    | with_reducible rfl
    | (simp; done)
    | (repeat'
        first
          | with_reducible rfl
          | (simp; done)
          | (simp_all; done)
          | (intro _)
          | (dsimp only)
          | split
          | (rename_i heq; obtain ⟨rfl, rfl⟩ := Prod.ext_iff.1 heq)
          | refine (State.each_pending _ _ _ ?_).trans ?_)

@[simp] theorem State.retCommit_pending (s : State) (im : RetImg) : (State.retCommit s im).pending = s.pending := by unfold State.retCommit; simp

@[simp] theorem State.retSave_pending (s : State) : (State.retSave s).pending = s.pending := by unfold State.retSave; simp

@[simp] theorem State.fixTimers_pending (s : State) : (State.fixTimers s).pending = s.pending := by unfold State.fixTimers; simp

@[simp] theorem State.initSlots_pending (s : State) (warm : Bool) : (State.initSlots s warm).pending = s.pending := by unfold State.initSlots; simp

@[simp] theorem State.adoptBits_pending (s : State) (warm fresh : Bool) : (State.adoptBits s warm fresh).pending = s.pending := by unfold State.adoptBits; simp

@[simp] theorem State.restartForces_pending (s : State) (warm load : Bool) : (State.restartForces s warm load).pending = s.pending := by unfold State.restartForces; simp

@[simp] theorem State.latheInit_pending (s : State) (load : Bool) : (State.latheInit s load).pending = s.pending := by unfold State.latheInit; simp

@[simp] theorem State.tellDropped_pending (s : State) : (State.tellDropped s).pending = s.pending := by unfold State.tellDropped; simp

@[simp] theorem State.enterRunning_pending (s : State) : (State.enterRunning s).pending = s.pending := by
  unfold State.enterRunning
  (repeat'
    first
      | with_reducible rfl
      | (simp +zetaDelta; done)
      | (intro _)
      | (extract_lets)
      | split
      | (rename_i heq; obtain ⟨rfl, rfl⟩ := Prod.ext_iff.1 heq)
      | refine (State.each_pending _ _ _ ?_).trans ?_)

@[simp] theorem State.abortChanges_pending (s : State) : (State.abortChanges s).pending = s.pending := by unfold State.abortChanges; simp

@[simp] theorem State.engineStop_pending (s : State) : (State.engineStop s).pending = s.pending := by unfold State.engineStop; simp

@[simp] theorem State.reloaded_pending (s : State) : (State.reloaded s).pending = s.pending := by unfold State.reloaded; simp

@[simp] theorem State.putItems_pending (s : State) (cp : Nat) (l : List (Nat × Word)) : (State.putItems s cp l).pending = s.pending := by unfold State.putItems; simp

@[simp] theorem State.applyForce_pending (s : State) (r : ForceReq) : (State.applyForce s r).pending = s.pending := by unfold State.applyForce; simp

@[simp] theorem State.applyForces_pending (s : State) : (State.applyForces s).pending = s.pending := by unfold State.applyForces; simp

@[simp] theorem State.applyChange_pending (s : State) (cp : Nat) : (State.applyChange s cp).pending = s.pending := by unfold State.applyChange; simp

@[simp] theorem State.applyWaiting_pending (s : State) (l : List Nat) : (State.applyWaiting s l).pending = s.pending := by
  induction l generalizing s with
  | nil => rfl
  | cons a l ih => unfold State.applyWaiting; (repeat' first | with_reducible rfl | (simp [ih]; done) | split)

@[simp] theorem State.applyInstant_pending (s : State) : (State.applyInstant s).pending = s.pending := by unfold State.applyInstant; simp

@[simp] theorem State.changeCommit_pending (s : State) (cp : Nat) : (State.changeCommit s cp).pending = s.pending := by
  unfold State.changeCommit
  (repeat'
    first
      | with_reducible rfl
      | (simp +zetaDelta; done)
      | (intro _)
      | (extract_lets)
      | split
      | (rename_i heq; obtain ⟨rfl, rfl⟩ := Prod.ext_iff.1 heq)
      | refine (State.each_pending _ _ _ ?_).trans ?_)

@[simp] theorem State.forceRequest_pending (s : State) (cp op : Nat) : (State.forceRequest s cp op).pending = s.pending := by
  unfold State.forceRequest
  (repeat'
    first
      | with_reducible rfl
      | (simp +zetaDelta; done)
      | (intro _)
      | (extract_lets)
      | split
      | (rename_i heq; obtain ⟨rfl, rfl⟩ := Prod.ext_iff.1 heq)
      | refine (State.each_pending _ _ _ ?_).trans ?_)

@[simp] theorem State.putLmemA_pending (s : State) (a : Nat) (v : Word) : (State.putLmemA s a v).pending = s.pending := by unfold State.putLmemA; rfl

@[simp] theorem State.putLmemB_pending (s : State) (a : Nat) (v : Word) : (State.putLmemB s a v).pending = s.pending := by unfold State.putLmemB; rfl

@[simp] theorem State.putBank1_pending (s : State) (a : Nat) (v : Word) : (State.putBank1 s a v).pending = s.pending := by unfold State.putBank1; rfl

@[simp] theorem State.lmemAdvance_pending (s : State) : (State.lmemAdvance s).pending = s.pending := by unfold State.lmemAdvance; simp

@[simp] theorem State.lmemWrite_pending (s : State) (v : Word) : (State.lmemWrite s v).pending = s.pending := by unfold State.lmemWrite; simp

@[simp] theorem State.mtrZero_pending (s : State) : (State.mtrZero s).pending = s.pending := by unfold State.mtrZero; rfl

@[simp] theorem State.mtrLast_pending (s : State) (kind odd : Nat) (d : Nat × Nat × Nat) : (State.mtrLast s kind odd d).pending = s.pending := by unfold State.mtrLast; simp

@[simp] theorem State.mtrIrq_pending (s : State) (b : Nat) : (State.mtrIrq s b).pending = s.pending := by unfold State.mtrIrq; simp

@[simp] theorem State.coreTrap_pending (s : State) (c : Nat) (cause tval : Word) : (State.coreTrap s c cause tval).pending = s.pending := by unfold State.coreTrap; simp

@[simp] theorem State.coreIrq_pending (s : State) (c lines : Nat) : (State.coreIrq s c lines).pending = s.pending := by unfold State.coreIrq; split <;> simp

@[simp] theorem State.checkpoint_pending (s : State) : (State.checkpoint s).pending = s.pending := by unfold State.checkpoint; simp

@[simp] theorem State.nextSlice_pending (s : State) : (State.nextSlice s).pending = s.pending := by unfold State.nextSlice; simp

@[simp] theorem State.mtrReject_pending (s : State) : (State.mtrReject s).pending = s.pending := by unfold State.mtrReject; simp

@[simp] theorem State.mtrRun_pending (s : State) (cores : Nat) : (State.mtrRun s cores).pending = s.pending := by unfold State.mtrRun; simp

@[simp] theorem State.mtrHalt_pending (s : State) (cores : Nat) : (State.mtrHalt s cores).pending = s.pending := by unfold State.mtrHalt; simp

@[simp] theorem State.mtrTest_pending (s : State) : (State.mtrTest s).pending = s.pending := by unfold State.mtrTest; simp

@[simp] theorem State.mtrClear_pending (s : State) : (State.mtrClear s).pending = s.pending := by unfold State.mtrClear; simp

@[simp] theorem State.mtrCommand_pending (s : State) (cmd cores : Nat) : (State.mtrCommand s cmd cores).pending = s.pending := by unfold State.mtrCommand; (repeat' split) <;> simp

@[simp] theorem State.mtrStopReq_pending (s : State) : (State.mtrStopReq s).pending = s.pending := by unfold State.mtrStopReq; simp

@[simp] theorem State.safeActions_pending (s : State) (cause : Nat) : (State.safeActions s cause).pending = s.pending := by unfold State.safeActions; simp

@[simp] theorem State.safeFault_pending (s : State) (cause : Nat) : (State.safeFault s cause).pending = s.pending := by unfold State.safeFault; simp

@[simp] theorem State.mtrSelfTest_pending (s : State) (lanes : Nat) (sigFail : Bool) : (State.mtrSelfTest s lanes sigFail).pending = s.pending := by unfold State.mtrSelfTest; simp

@[simp] theorem State.copyAEnd_pending (s : State) (r : CopyRec) : (State.copyAEnd s r).pending = s.pending := by unfold State.copyAEnd; simp

@[simp] theorem State.copyBState_pending (s : State) (r : CopyRec) : (State.copyBState s r).pending = s.pending := by unfold State.copyBState; simp

@[simp] theorem State.sliceReleased_pending (s : State) : (State.sliceReleased s).pending = s.pending := by unfold State.sliceReleased; simp

@[simp] theorem State.mtrGap_pending (s : State) (ix now : Nat) (old : List Nat) : (State.mtrGap s ix now old).pending = s.pending := by unfold State.mtrGap; split <;> simp

@[simp] theorem State.latentEvent_pending (s : State) (a b : CopyRec) : (State.latentEvent s a b).2.pending = s.pending := by unfold State.latentEvent; simp

@[simp] theorem State.mismatchEvent_pending (s : State) (odd : Nat) (a b : CopyRec) : (State.mismatchEvent s odd a b).2.pending = s.pending := by unfold State.mismatchEvent; simp

@[simp] theorem State.resyncBegin_pending (s : State) (odd : Nat) : (State.resyncBegin s odd).pending = s.pending := by unfold State.resyncBegin; simp

@[simp] theorem State.putOverlay_pending (s : State) (a : Nat) (v : Word) : (State.putOverlay s a v).pending = s.pending := by unfold State.putOverlay; rfl

@[simp] theorem State.copyCState_pending (s : State) (r : CopyRec) : (State.copyCState s r).pending = s.pending := by unfold State.copyCState; simp

@[simp] theorem State.resyncEnd_pending (s : State) : (State.resyncEnd s).pending = s.pending := by unfold State.resyncEnd; split <;> simp

@[simp] theorem State.putLmemByte_pending (s : State) (c a v : Nat) : (State.putLmemByte s c a v).pending = s.pending := by unfold State.putLmemByte; simp

@[simp] theorem State.lmemStore_pending (s : State) (c a n v : Nat) : (State.lmemStore s c a n v).pending = s.pending := by unfold State.lmemStore; simp

@[simp] theorem State.lmemAccess_pending (s : State) (c a n : Nat) (op : AccOp) (data : Nat) : (State.lmemAccess s c a n op data).pending = s.pending := by unfold State.lmemAccess; split <;> simp

@[simp] theorem State.mtrLogged_pending (s : State) (a : Access) : (State.mtrLogged s a).pending = s.pending := by unfold State.mtrLogged; simp

@[simp] theorem State.putIsl_pending (s : State) (n st : Nat) : (State.putIsl s n st).pending = s.pending := by unfold State.putIsl; simp

@[simp] theorem State.islandWake_pending (s : State) (n : Nat) (off : Bool) : (State.islandWake s n off).pending = s.pending := by unfold State.islandWake; simp

@[simp] theorem State.ungate_pending (s : State) (n : Nat) : (State.ungate s n).pending = s.pending := by unfold State.ungate; simp

@[simp] theorem State.aerr_pending (s : State) (tag : Tag) (addr : Nat) (write : Bool) (cause : Nat) : (State.aerr s tag addr write cause).pending = s.pending := by unfold State.aerr; simp

@[simp] theorem State.memStore_pending (s : State) (a : Nat) (l : List Nat) : (State.memStore s a l).pending = s.pending := by unfold State.memStore; rfl

@[simp] theorem State.nextTag_pending (s : State) (d src : Nat) : (State.nextTag s d src).2.pending = s.pending := by unfold State.nextTag; rfl

@[simp] theorem State.addFailure_pending (s : State) (d src tag cause : Nat) : (State.addFailure s d src tag cause).pending = s.pending := by unfold State.addFailure; simp

@[simp] theorem State.farFailure_pending (s : State) (d src unit addr tag cause data : Nat) : (State.farFailure s d src unit addr tag cause data).pending = s.pending := by unfold State.farFailure; simp

@[simp] theorem State.hostWrite_pending (s : State) (d src unit va addr : Nat) (l : List Nat) : (State.hostWrite s d src unit va addr l).pending = s.pending := by unfold State.hostWrite; simp

@[simp] theorem State.shareUse_pending (s : State) (k d : Nat) : (State.shareUse s k d).pending = s.pending := by unfold State.shareUse; split <;> simp

@[simp] theorem State.arbMove_pending (s : State) (k : Nat) (d : Fin 16) : (State.arbMove s k d).pending = s.pending := by unfold State.arbMove; simp

@[simp] theorem State.pteUpdate_pending (s : State) (d : Nat) (h : HostMem) (u : Place × Nat) : (State.pteUpdate s d h u).pending = s.pending := by unfold State.pteUpdate; simp

@[simp] theorem State.walkDone_pending (s : State) (d : Nat) (sec : Bool) (h : HostMem) (va : Nat) (wr : Bool) : (State.walkDone s d sec h va wr).pending = s.pending := by
  unfold State.walkDone
  first
    | with_reducible rfl
    | (simp; done)
    | (repeat'
        first
          | with_reducible rfl
          | (simp; done)
          | (simp_all; done)
          | (intro _)
          | (dsimp only)
          | split
          | (rename_i heq; obtain ⟨rfl, rfl⟩ := Prod.ext_iff.1 heq)
          | refine (State.each_pending _ _ _ ?_).trans ?_)

@[simp] theorem State.dmaUngate_pending (s : State) (d : Nat) (sec : Bool) (l : List (Bool × Piece)) : (State.dmaUngate s d sec l).pending = s.pending := by
  unfold State.dmaUngate
  first
    | with_reducible rfl
    | (simp; done)
    | (repeat'
        first
          | with_reducible rfl
          | (simp; done)
          | (simp_all; done)
          | (intro _)
          | (dsimp only)
          | split
          | (rename_i heq; obtain ⟨rfl, rfl⟩ := Prod.ext_iff.1 heq)
          | refine (State.each_pending _ _ _ ?_).trans ?_)

@[simp] theorem State.dmaGrants_pending (s : State) (d : Nat) (sec : Bool) (l : List (Bool × Piece)) : (State.dmaGrants s d sec l).pending = s.pending := by
  unfold State.dmaGrants
  first
    | with_reducible rfl
    | (simp; done)
    | (repeat'
        first
          | with_reducible rfl
          | (simp; done)
          | (simp_all; done)
          | (intro _)
          | (dsimp only)
          | split
          | (rename_i heq; obtain ⟨rfl, rfl⟩ := Prod.ext_iff.1 heq)
          | refine (State.each_pending _ _ _ ?_).trans ?_)

@[simp] theorem State.dirtyLog_pending (s : State) (d va : Nat) : (State.dirtyLog s d va).pending = s.pending := by
  unfold State.dirtyLog
  first
    | with_reducible rfl
    | (simp; done)
    | (repeat'
        first
          | with_reducible rfl
          | (simp; done)
          | (simp_all; done)
          | (intro _)
          | (dsimp only)
          | split
          | (rename_i heq; obtain ⟨rfl, rfl⟩ := Prod.ext_iff.1 heq)
          | refine (State.each_pending _ _ _ ?_).trans ?_)

theorem State.writePieces_pending {s : State} {d r : Nat} {sec : Bool} {ps : List Piece} {l : List Nat} {t : State}
    (h : s.writePieces d r sec ps l = some t) : t.pending = s.pending := by
  induction ps generalizing s l with
  | nil => simp only [State.writePieces, Option.some.injEq] at h; rw [← h]
  | cons p ps ih =>
    simp only [State.writePieces] at h
    split at h
    · cases h
    · rw [ih h]; split <;> simp

@[simp] theorem State.dirtySwap_pending (s : State) (d : Nat) : (State.dirtySwap s d).pending = s.pending := by unfold State.dirtySwap; simp

@[simp] theorem State.putRg_pending (s : State) (r : Nat) (x : RingSt) : (State.putRg s r x).pending = s.pending := by unfold State.putRg; rfl

@[simp] theorem State.ringSignal_pending (s : State) (r : Nat) : (State.ringSignal s r).pending = s.pending := by unfold State.ringSignal; split <;> simp

@[simp] theorem State.descFetched_pending (s : State) (r : Nat) (l : List Nat) : (State.descFetched s r l).pending = s.pending := by
  unfold State.descFetched
  first
    | with_reducible rfl
    | (simp; done)
    | (repeat'
        first
          | with_reducible rfl
          | (simp; done)
          | (simp_all; done)
          | (intro _)
          | (dsimp only)
          | split
          | (rename_i heq; obtain ⟨rfl, rfl⟩ := Prod.ext_iff.1 heq)
          | refine (State.each_pending _ _ _ ?_).trans ?_)

@[simp] theorem State.descFetch_pending (s : State) (r : Nat) (h : HostMem) : (State.descFetch s r h).pending = s.pending := by
  unfold State.descFetch
  first
    | with_reducible rfl
    | (simp; done)
    | (repeat'
        first
          | with_reducible rfl
          | (simp; done)
          | (simp_all; done)
          | (intro _)
          | (dsimp only)
          | split
          | (rename_i heq; obtain ⟨rfl, rfl⟩ := Prod.ext_iff.1 heq)
          | refine (State.each_pending _ _ _ ?_).trans ?_)

@[simp] theorem State.closeBuf_pending (s : State) (r : Nat) : (State.closeBuf s r).pending = s.pending := by unfold State.closeBuf; simp

@[simp] theorem State.addRecord_pending (s : State) (r : Nat) (l : List Nat) : (State.addRecord s r l).pending = s.pending := by unfold State.addRecord; simp

@[simp] theorem State.txQueued_pending (s : State) (r : Nat) : (State.txQueued s r).pending = s.pending := by unfold State.txQueued; rfl

@[simp] theorem State.updReach_pending (s : State) (r : Nat) (x : Desc) : (State.updReach s r x).pending = s.pending := by unfold State.updReach; simp

@[simp] theorem State.unitTaken_pending (s : State) (r n : Nat) (x : Desc) (data : List Nat) : (State.unitTaken s r n x data).pending = s.pending := by
  unfold State.unitTaken
  (repeat'
    first
      | with_reducible rfl
      | (simp +zetaDelta; done)
      | (intro _)
      | (extract_lets)
      | split
      | (rename_i heq; obtain ⟨rfl, rfl⟩ := Prod.ext_iff.1 heq)
      | refine (State.each_pending _ _ _ ?_).trans ?_)

@[simp] theorem State.unitGrants_pending (s : State) (r d : Nat) : (State.unitGrants s r d).pending = s.pending := by unfold State.unitGrants; simp

@[simp] theorem State.unitCommit_pending (s : State) (r : Nat) (h : HostMem) : (State.unitCommit s r h).pending = s.pending := by
  unfold State.unitCommit
  dsimp only
  split
  · split
    · rfl
    · split
      · rfl
      · split
        · simp
        · split
          · simp
          · rename_i heq
            rw [State.unitTaken_pending, State.writePieces_pending heq, State.unitGrants_pending]
  · rfl

@[simp] theorem State.faultCode_pending (s : State) (cause : Nat) : (State.faultCode s cause).2.pending = s.pending := by unfold State.faultCode; split <;> simp

@[simp] theorem State.faultShown_pending (s : State) (r : Nat) (n : Nat × Bool × Piece) (f : DmaFault) : (State.faultShown s r n f).pending = s.pending := by unfold State.faultShown; simp

@[simp] theorem State.faultTaken_pending (s : State) (r d : Nat) (n : Nat × Bool × Piece) (f : DmaFault) : (State.faultTaken s r d n f).pending = s.pending := by unfold State.faultTaken; simp

@[simp] theorem State.ringEnable_pending (s : State) (r : Nat) : (State.ringEnable s r).pending = s.pending := by unfold State.ringEnable; simp

@[simp] theorem State.charge_pending (s : State) (d n : Nat) : (State.charge s d n).pending = s.pending := by unfold State.charge; simp

@[simp] theorem State.uncharge_pending (s : State) (d n : Nat) : (State.uncharge s d n).pending = s.pending := by unfold State.uncharge; simp

@[simp] theorem State.putCn_pending (s : State) (k : Nat) (x : CanSt) : (State.putCn s k x).pending = s.pending := by unfold State.putCn; rfl

@[simp] theorem State.canNoRing_pending (s : State) (k : Nat) : (State.canNoRing s k).pending = s.pending := by unfold State.canNoRing; simp

@[simp] theorem State.updOrphan_pending (s : State) (r : Nat) : (State.updOrphan s r).pending = s.pending := by unfold State.updOrphan; rfl

@[simp] theorem State.txFree_pending (s : State) (r : Nat) : (State.txFree s r).pending = s.pending := by unfold State.txFree; split <;> simp

@[simp] theorem State.ringOff_pending (s : State) (r : Nat) : (State.ringOff s r).pending = s.pending := by unfold State.ringOff; simp

@[simp] theorem State.ringResume_pending (s : State) (r : Nat) : (State.ringResume s r).pending = s.pending := by unfold State.ringResume; split <;> simp

@[simp] theorem State.tailWrite_pending (s : State) (r v : Nat) : (State.tailWrite s r v).pending = s.pending := by unfold State.tailWrite; (repeat' split) <;> simp

@[simp] theorem State.invalScope_pending (s : State) (scope d page : Nat) : (State.invalScope s scope d page).pending = s.pending := by unfold State.invalScope; rfl

@[simp] theorem State.invalGo_pending (s : State) (scope d : Nat) : (State.invalGo s scope d).pending = s.pending := by unfold State.invalGo; simp

@[simp] theorem State.invalDone_pending (s : State) : (State.invalDone s).pending = s.pending := by unfold State.invalDone; split <;> simp

@[simp] theorem State.s1InvalDone_pending (s : State) (d : Nat) : (State.s1InvalDone s d).pending = s.pending := by unfold State.s1InvalDone; simp

@[simp] theorem State.granuleWrite_pending (s : State) (dram : Bool) (g : Nat) (w : Nat) : (State.granuleWrite s dram g w).pending = s.pending := by unfold State.granuleWrite; simp

@[simp] theorem State.dropIn_pending (s : State) (p r : Nat) : (State.dropIn s p r).pending = s.pending := by unfold State.dropIn; simp

@[simp] theorem State.dropQ_pending (s : State) (q r : Nat) : (State.dropQ s q r).pending = s.pending := by
  unfold State.dropQ
  first
    | with_reducible rfl
    | (simp; done)
    | (repeat'
        first
          | with_reducible rfl
          | (simp; done)
          | (simp_all; done)
          | (intro _)
          | (dsimp only)
          | split
          | (rename_i heq; obtain ⟨rfl, rfl⟩ := Prod.ext_iff.1 heq)
          | refine (State.each_pending _ _ _ ?_).trans ?_)

@[simp] theorem State.putOcc_pending (s : State) (q n : Nat) : (State.putOcc s q n).pending = s.pending := by unfold State.putOcc; simp

@[simp] theorem State.putQueue_pending (s : State) (q : Nat) (l : List QCopy) : (State.putQueue s q l).pending = s.pending := by unfold State.putQueue; rfl

@[simp] theorem State.putSending_pending (s : State) (k : Nat) (x : Option QCopy) : (State.putSending s k x).pending = s.pending := by unfold State.putSending; rfl

@[simp] theorem State.putSuspended_pending (s : State) (p : Nat) (x : Option QCopy) : (State.putSuspended s p x).pending = s.pending := by unfold State.putSuspended; rfl

@[simp] theorem State.frameRelease_pending (s : State) (fid : Nat) : (State.frameRelease s fid).pending = s.pending := by
  unfold State.frameRelease
  first
    | with_reducible rfl
    | (simp; done)
    | (repeat'
        first
          | with_reducible rfl
          | (simp; done)
          | (simp_all; done)
          | (intro _)
          | (dsimp only)
          | split
          | (rename_i heq; obtain ⟨rfl, rfl⟩ := Prod.ext_iff.1 heq)
          | refine (State.each_pending _ _ _ ?_).trans ?_)

@[simp] theorem State.release__pending (s : State) (q : Nat) (x : QCopy) : (State.release_ s q x).pending = s.pending := by unfold State.release_; split <;> simp

@[simp] theorem State.putTbl_pending (s : State) (t i : Nat) (l : List Nat) : (State.putTbl s t i l).pending = s.pending := by unfold State.putTbl; rfl

@[simp] theorem State.tblCount_pending (s : State) (t i w : Nat) : (State.tblCount s t i w).pending = s.pending := by unfold State.tblCount; simp

@[simp] theorem State.putList_pending (s : State) (t i : Nat) (x : Option ListSt) : (State.putList s t i x).pending = s.pending := by unfold State.putList; rfl

@[simp] theorem State.putCredit_pending (s : State) (q : Nat) (x : CreditSt) : (State.putCredit s q x).pending = s.pending := by unfold State.putCredit; rfl

@[simp] theorem State.creditRun_pending (s : State) (p dur : Nat) (done : Option Nat) : (State.creditRun s p dur done).pending = s.pending := by unfold State.creditRun; simp

@[simp] theorem State.creditEmpty_pending (s : State) (q : Nat) : (State.creditEmpty s q).pending = s.pending := by unfold State.creditEmpty; simp

@[simp] theorem State.creditReset_pending (s : State) (p : Nat) : (State.creditReset s p).pending = s.pending := by unfold State.creditReset; simp

@[simp] theorem State.gateSettle_pending (s : State) (t i : Nat) : (State.gateSettle s t i).pending = s.pending := by unfold State.gateSettle; simp

@[simp] theorem State.cycleStart_pending (s : State) (t i : Nat) (newList : Bool) : (State.cycleStart s t i newList).pending = s.pending := by
  unfold State.cycleStart
  first
    | with_reducible rfl
    | (simp; done)
    | (repeat'
        first
          | with_reducible rfl
          | (simp; done)
          | (simp_all; done)
          | (intro _)
          | (dsimp only)
          | split
          | (rename_i heq; obtain ⟨rfl, rfl⟩ := Prod.ext_iff.1 heq)
          | refine (State.each_pending _ _ _ ?_).trans ?_)

@[simp] theorem State.entryEnd_pending (s : State) (t i : Nat) : (State.entryEnd s t i).pending = s.pending := by unfold State.entryEnd; split <;> simp

@[simp] theorem State.stopMark_pending (s : State) (t i : Nat) : (State.stopMark s t i).pending = s.pending := by unfold State.stopMark; simp

@[simp] theorem State.epochStop_pending (s : State) : (State.epochStop s).pending = s.pending := by unfold State.epochStop; simp

@[simp] theorem State.admitCopy_pending (s : State) (q : Nat) (x : QCopy) : (State.admitCopy s q x).pending = s.pending := by
  unfold State.admitCopy
  first
    | with_reducible rfl
    | (simp; done)
    | (repeat'
        first
          | with_reducible rfl
          | (simp; done)
          | (simp_all; done)
          | (intro _)
          | (dsimp only)
          | split
          | (rename_i heq; obtain ⟨rfl, rfl⟩ := Prod.ext_iff.1 heq)
          | refine (State.each_pending _ _ _ ?_).trans ?_)

@[simp] theorem State.admitOne_pending (fid : Nat) (p : State × Nat) (q : Nat × QCopy) :
    (State.admitOne fid p q).1.pending = p.1.pending := by
  unfold State.admitOne; simp

@[simp] theorem State.admitFold_pending (fid : Nat) (l : List (Nat × QCopy)) (p : State × Nat) :
    (l.foldl (State.admitOne fid) p).1.pending = p.1.pending := by
  induction l generalizing p with
  | nil => rfl
  | cons a l ih => simp [ih]

@[simp] theorem State.idleSlope_pending (s : State) (q v : Nat) : (State.idleSlope s q v).pending = s.pending := by unfold State.idleSlope; simp

@[simp] theorem State.txResult_pending (s : State) (r res : Nat) : (State.txResult s r res).pending = s.pending := by unfold State.txResult; simp

@[simp] theorem State.headCheck_pending (s : State) (q : Nat) (y : Nat) : (State.headCheck s q y).pending = s.pending := by
  induction y generalizing s with
  | zero => (try unfold State.headCheck); (repeat' first | with_reducible rfl | (simp; done) | split)
  | succ n ih => unfold State.headCheck; (repeat' first | with_reducible rfl | (simp [ih]; done) | (dsimp only) | split)

@[simp] theorem State.launchDue_pending (s : State) (q : Nat) : (State.launchDue s q).pending = s.pending := by
  unfold State.launchDue
  first
    | with_reducible rfl
    | (simp; done)
    | (repeat'
        first
          | with_reducible rfl
          | (simp; done)
          | (simp_all; done)
          | (intro _)
          | (dsimp only)
          | split
          | (rename_i heq; obtain ⟨rfl, rfl⟩ := Prod.ext_iff.1 heq)
          | refine (State.each_pending _ _ _ ?_).trans ?_)

@[simp] theorem State.putBucket_pending (s : State) (b : Nat) (l : List FdbE) : (State.putBucket s b l).pending = s.pending := by unfold State.putBucket; rfl

@[simp] theorem State.learn_pending (s : State) (p mac vid : Nat) : (State.learn s p mac vid).pending = s.pending := by
  unfold State.learn
  first
    | with_reducible rfl
    | (simp; done)
    | (repeat'
        first
          | with_reducible rfl
          | (simp; done)
          | (simp_all; done)
          | (intro _)
          | (dsimp only)
          | split
          | (rename_i heq; obtain ⟨rfl, rfl⟩ := Prod.ext_iff.1 heq)
          | refine (State.each_pending _ _ _ ?_).trans ?_)

@[simp] theorem State.ageScan_pending (s : State) : (State.ageScan s).pending = s.pending := by unfold State.ageScan; simp

@[simp] theorem State.fdbFlush_pending (s : State) (p : FdbE → Bool) : (State.fdbFlush s p).pending = s.pending := by unfold State.fdbFlush; simp

@[simp] theorem State.fdbStart_pending (s : State) (op : Nat) : (State.fdbStart s op).pending = s.pending := by
  unfold State.fdbStart
  first
    | with_reducible rfl
    | (simp; done)
    | (repeat'
        first
          | with_reducible rfl
          | (simp; done)
          | (simp_all; done)
          | (intro _)
          | (dsimp only)
          | split
          | (rename_i heq; obtain ⟨rfl, rfl⟩ := Prod.ext_iff.1 heq)
          | refine (State.each_pending _ _ _ ?_).trans ?_)

@[simp] theorem State.fdbDone_pending (s : State) : (State.fdbDone s).pending = s.pending := by unfold State.fdbDone; simp

@[simp] theorem State.meterRed_pending (s : State) (m n : Nat) : (State.meterRed s m n).2.pending = s.pending := by unfold State.meterRed; split <;> simp

@[simp] theorem State.recovReset_pending (s : State) (i : Nat) : (State.recovReset s i).pending = s.pending := by unfold State.recovReset; simp

@[simp] theorem State.blockOver_pending (s : State) (hd : Nat) : (State.blockOver s hd).pending = s.pending := by unfold State.blockOver; simp

@[simp] theorem State.streamCheck_pending (s : State) (hd cls n : Nat) (cut : Bool) : (State.streamCheck s hd cls n cut).2.2.pending = s.pending := by
  unfold State.streamCheck
  first
    | with_reducible rfl
    | (simp; done)
    | (repeat'
        first
          | with_reducible rfl
          | (simp; done)
          | (simp_all; done)
          | (intro _)
          | (dsimp only)
          | split
          | (rename_i heq; obtain ⟨rfl, rfl⟩ := Prod.ext_iff.1 heq)
          | refine (State.each_pending _ _ _ ?_).trans ?_)

@[simp] theorem State.frerRecover_pending (s : State) (ri : Nat) (l : List Nat) : (State.frerRecover s ri l).2.2.pending = s.pending := by
  unfold State.frerRecover
  first
    | with_reducible rfl
    | (simp; done)
    | (repeat'
        first
          | with_reducible rfl
          | (simp; done)
          | (simp_all; done)
          | (intro _)
          | (dsimp only)
          | split
          | (rename_i heq; obtain ⟨rfl, rfl⟩ := Prod.ext_iff.1 heq)
          | refine (State.each_pending _ _ _ ?_).trans ?_)

@[simp] theorem State.frerSplit_pending (s : State) (gi : Nat) (l : List Nat) : (State.frerSplit s gi l).2.2.pending = s.pending := by unfold State.frerSplit; simp

@[simp] theorem State.frerCheck_pending (s : State) (hd : Nat) (l : List Nat) : (State.frerCheck s hd l).2.2.pending = s.pending := by
  unfold State.frerCheck
  first
    | with_reducible rfl
    | (simp; done)
    | (repeat'
        first
          | with_reducible rfl
          | (simp; done)
          | (simp_all; done)
          | (intro _)
          | (dsimp only)
          | split
          | (rename_i heq; obtain ⟨rfl, rfl⟩ := Prod.ext_iff.1 heq)
          | refine (State.each_pending _ _ _ ?_).trans ?_)

@[simp] theorem State.capSee_pending (s : State) (k : Nat) (mk : Nat → List Nat) : (State.capSee s k mk).pending = s.pending := by
  unfold State.capSee
  first
    | with_reducible rfl
    | (simp; done)
    | (repeat'
        first
          | with_reducible rfl
          | (simp; done)
          | (simp_all; done)
          | (intro _)
          | (dsimp only)
          | split
          | (rename_i heq; obtain ⟨rfl, rfl⟩ := Prod.ext_iff.1 heq)
          | refine (State.each_pending _ _ _ ?_).trans ?_)

@[simp] theorem State.capIngress_pending (s : State) (f : InFrame) (v : Verdict) : (State.capIngress s f v).pending = s.pending := by unfold State.capIngress; (repeat' split) <;> simp

@[simp] theorem State.capEgress_pending (s : State) (p : Nat) (x : QCopy) (l : List Nat) : (State.capEgress s p x l).pending = s.pending := by unfold State.capEgress; simp

@[simp] theorem State.frameCharge_pending (s : State) (f : InFrame) (cells : Nat) (d : Option Nat) : (State.frameCharge s f cells d).pending = s.pending := by unfold State.frameCharge; split <;> simp

@[simp] theorem State.admitAll_pending (s : State) (f : InFrame) (cells : Nat) (copies : List (Nat × QCopy)) : (State.admitAll s f cells copies).1.pending = s.pending := by unfold State.admitAll; simp

@[simp] theorem State.txTaken_pending (s : State) (f : InFrame) (queued : Bool) : (State.txTaken s f queued).pending = s.pending := by unfold State.txTaken; (repeat' split) <;> simp

@[simp] theorem State.macDrop_pending (s : State) (f : InFrame) : (State.macDrop s f).1.pending = s.pending := by unfold State.macDrop; split <;> simp

@[simp] theorem State.linkLocal_pending (s : State) (f : InFrame) : (State.linkLocal s f).1.pending = s.pending := by
  unfold State.linkLocal
  first
    | with_reducible rfl
    | (simp; done)
    | (repeat'
        first
          | with_reducible rfl
          | (simp; done)
          | (simp_all; done)
          | (intro _)
          | (dsimp only)
          | split
          | (rename_i heq; obtain ⟨rfl, rfl⟩ := Prod.ext_iff.1 heq)
          | refine (State.each_pending _ _ _ ?_).trans ?_)

@[simp] theorem State.cutEnd_pending (s : State) (q cells : Nat) : (State.cutEnd s q cells).pending = s.pending := by unfold State.cutEnd; split <;> simp

@[simp] theorem State.admitCut_pending (s : State) (f : InFrame) (p : Nat) (d : List Nat) (vid prio cls : Nat) (h : Option Nat) : (State.admitCut s f p d vid prio cls h).1.pending = s.pending := by unfold State.admitCut; simp

@[simp] theorem State.admitFit_pending (s : State) (f : InFrame) (cells vid prio cls : Nat) (h : Option Nat) (outs : List (Nat × List Nat)) : (State.admitFit s f cells vid prio cls h outs).1.pending = s.pending := by
  unfold State.admitFit
  first
    | with_reducible rfl
    | (simp; done)
    | (repeat'
        first
          | with_reducible rfl
          | (simp; done)
          | (simp_all; done)
          | (intro _)
          | (dsimp only)
          | split
          | (rename_i heq; obtain ⟨rfl, rfl⟩ := Prod.ext_iff.1 heq)
          | refine (State.each_pending _ _ _ ?_).trans ?_)

@[simp] theorem State.forward_pending (s : State) (f : InFrame) (l : List Nat) (vi vid prio cls : Nat) (h : Option Nat) (cut : Bool) : (State.forward s f l vi vid prio cls h cut).1.pending = s.pending := by
  unfold State.forward
  first
    | with_reducible rfl
    | (simp; done)
    | (repeat'
        first
          | with_reducible rfl
          | (simp; done)
          | (simp_all; done)
          | (intro _)
          | (dsimp only)
          | split
          | (rename_i heq; obtain ⟨rfl, rfl⟩ := Prod.ext_iff.1 heq)
          | refine (State.each_pending _ _ _ ?_).trans ?_)

@[simp] theorem State.bridgeStream_pending (s : State) (f : InFrame) (vi vid hd : Nat) : (State.bridgeStream s f vi vid hd).1.pending = s.pending := by
  unfold State.bridgeStream
  first
    | with_reducible rfl
    | (simp; done)
    | (repeat'
        first
          | with_reducible rfl
          | (simp; done)
          | (simp_all; done)
          | (intro _)
          | (dsimp only)
          | split
          | (rename_i heq; obtain ⟨rfl, rfl⟩ := Prod.ext_iff.1 heq)
          | refine (State.each_pending _ _ _ ?_).trans ?_)

@[simp] theorem State.bridge_pending (s : State) (f : InFrame) : (State.bridge s f).1.pending = s.pending := by
  unfold State.bridge
  first
    | with_reducible rfl
    | (simp; done)
    | (repeat'
        first
          | with_reducible rfl
          | (simp; done)
          | (simp_all; done)
          | (intro _)
          | (dsimp only)
          | split
          | (rename_i heq; obtain ⟨rfl, rfl⟩ := Prod.ext_iff.1 heq)
          | refine (State.each_pending _ _ _ ?_).trans ?_)

@[simp] theorem State.frameArrival_pending (s : State) (p : Nat) : (State.frameArrival s p).pending = s.pending := by unfold State.frameArrival; (repeat' split) <;> simp

@[simp] theorem State.cellRead_pending (s : State) (r : Nat) : (State.cellRead s r).pending = s.pending := by unfold State.cellRead; split <;> simp

@[simp] theorem State.copyDrop_pending (s : State) (q reason : Nat) (x : QCopy) : (State.copyDrop s q reason x).pending = s.pending := by unfold State.copyDrop; split <;> simp

@[simp] theorem State.dropQueue_pending (s : State) (q reason : Nat) : (State.dropQueue s q reason).1.pending = s.pending := by
  unfold State.dropQueue
  first
    | with_reducible rfl
    | (simp; done)
    | (repeat'
        first
          | with_reducible rfl
          | (simp; done)
          | (simp_all; done)
          | (intro _)
          | (dsimp only)
          | split
          | (rename_i heq; obtain ⟨rfl, rfl⟩ := Prod.ext_iff.1 heq)
          | refine (State.each_pending _ _ _ ?_).trans ?_)

@[simp] theorem State.dropPort_pending (s : State) (p : Nat) : (State.dropPort s p).pending = s.pending := by
  unfold State.dropPort
  first
    | with_reducible rfl
    | (simp; done)
    | (repeat'
        first
          | with_reducible rfl
          | (simp; done)
          | (simp_all; done)
          | (intro _)
          | (dsimp only)
          | split
          | (rename_i heq; obtain ⟨rfl, rfl⟩ := Prod.ext_iff.1 heq)
          | refine (State.each_pending _ _ _ ?_).trans ?_)

@[simp] theorem State.rxFault_pending (s : State) (r : Nat) : (State.rxFault s r).pending = s.pending := by unfold State.rxFault; simp

@[simp] theorem State.holdExpired_pending (s : State) (r : Nat) : (State.holdExpired s r).pending = s.pending := by unfold State.holdExpired; split <;> simp

@[simp] theorem State.rxRequeue_pending (s : State) (r : Nat) : (State.rxRequeue s r).pending = s.pending := by unfold State.rxRequeue; (repeat' split) <;> simp

@[simp] theorem State.ringStop_pending (s : State) (r : Nat) : (State.ringStop s r).pending = s.pending := by unfold State.ringStop; (repeat' split) <;> simp

@[simp] theorem State.ringDisable_pending (s : State) (r : Nat) : (State.ringDisable s r).pending = s.pending := by unfold State.ringDisable; simp

@[simp] theorem State.headOn_pending (s : State) (r : Nat) (irq : Bool) (status : Nat) (rest : List Nat) : (State.headOn s r irq status rest).pending = s.pending := by
  unfold State.headOn
  first
    | with_reducible rfl
    | (simp; done)
    | (repeat'
        first
          | with_reducible rfl
          | (simp; done)
          | (simp_all; done)
          | (intro _)
          | (dsimp only)
          | split
          | (rename_i heq; obtain ⟨rfl, rfl⟩ := Prod.ext_iff.1 heq)
          | refine (State.each_pending _ _ _ ?_).trans ?_)

@[simp] theorem State.rxDrain_pending (s : State) (r : Nat) : (State.rxDrain s r).pending = s.pending := by unfold State.rxDrain; simp

@[simp] theorem State.descEnd_pending (s : State) (r d : Nat) (stopping irq : Bool) (status : Nat) (rest : List Nat) : (State.descEnd s r d stopping irq status rest).pending = s.pending := by unfold State.descEnd; simp

@[simp] theorem State.descComplete_pending (s : State) (r : Nat) : (State.descComplete s r).pending = s.pending := by
  unfold State.descComplete
  dsimp only
  split
  · split
    · rfl
    · split
      · simp
      · rename_i heq
        have h := State.writePieces_pending heq
        simp [h]
  · rfl

@[simp] theorem State.tblLoad_pending (s : State) : (State.tblLoad s).pending = s.pending := by unfold State.tblLoad; simp

@[simp] theorem State.tblCommit_pending (s : State) : (State.tblCommit s).pending = s.pending := by unfold State.tblCommit; simp

@[simp] theorem State.tblAdvance_pending (s : State) : (State.tblAdvance s).pending = s.pending := by unfold State.tblAdvance; simp

@[simp] theorem State.tblStage_pending (s : State) (v : Nat) : (State.tblStage s v).pending = s.pending := by unfold State.tblStage; rfl

@[simp] theorem State.putPt_pending (s : State) (p : Nat) (x : PortSt) : (State.putPt s p x).pending = s.pending := by unfold State.putPt; rfl

@[simp] theorem State.corrected_pending (s : State) (p : Nat) (x : QCopy) : (State.corrected s p x).2.pending = s.pending := by unfold State.corrected; (repeat' split) <;> simp

@[simp] theorem State.putSaPn_pending (s : State) (p a n : Nat) : (State.putSaPn s p a n).pending = s.pending := by unfold State.putSaPn; simp

@[simp] theorem State.saEvents_pending (s : State) (p a pn : Nat) : (State.saEvents s p a pn).pending = s.pending := by unfold State.saEvents; simp

@[simp] theorem State.mscProtect_pending (s : State) (p : Nat) (l : List Nat) : (State.mscProtect s p l).2.pending = s.pending := by
  unfold State.mscProtect
  first
    | with_reducible rfl
    | (simp; done)
    | (repeat'
        first
          | with_reducible rfl
          | (simp; done)
          | (simp_all; done)
          | (intro _)
          | (dsimp only)
          | split
          | (rename_i heq; obtain ⟨rfl, rfl⟩ := Prod.ext_iff.1 heq)
          | refine (State.each_pending _ _ _ ?_).trans ?_)

@[simp] theorem State.mscOpen_pending (s : State) (p a sci : Nat) (l : List Nat) : (State.mscOpen s p a sci l).2.pending = s.pending := by
  unfold State.mscOpen
  first
    | with_reducible rfl
    | (simp; done)
    | (repeat'
        first
          | with_reducible rfl
          | (simp; done)
          | (simp_all; done)
          | (intro _)
          | (dsimp only)
          | split
          | (rename_i heq; obtain ⟨rfl, rfl⟩ := Prod.ext_iff.1 heq)
          | refine (State.each_pending _ _ _ ?_).trans ?_)

@[simp] theorem State.mscVerify_pending (s : State) (p : Nat) (l : List Nat) : (State.mscVerify s p l).2.pending = s.pending := by
  unfold State.mscVerify
  first
    | with_reducible rfl
    | (simp; done)
    | (repeat'
        first
          | with_reducible rfl
          | (simp; done)
          | (simp_all; done)
          | (intro _)
          | (dsimp only)
          | split
          | (rename_i heq; obtain ⟨rfl, rfl⟩ := Prod.ext_iff.1 heq)
          | refine (State.each_pending _ _ _ ?_).trans ?_)

@[simp] theorem State.saClear_pending (s : State) (p : Nat) : (State.saClear s p).pending = s.pending := by unfold State.saClear; simp

@[simp] theorem State.startSend_pending (s : State) (p : Nat) (x : QCopy) : (State.startSend s p x).pending = s.pending := by
  unfold State.startSend
  first
    | with_reducible rfl
    | (simp; done)
    | (repeat'
        first
          | with_reducible rfl
          | (simp; done)
          | (simp_all; done)
          | (intro _)
          | (dsimp only)
          | split
          | (rename_i heq; obtain ⟨rfl, rfl⟩ := Prod.ext_iff.1 heq)
          | refine (State.each_pending _ _ _ ?_).trans ?_)

@[simp] theorem State.headChecks_pending (s : State) (p : Nat) : (State.headChecks s p).pending = s.pending := by unfold State.headChecks; simp

@[simp] theorem State.sendHead_pending (s : State) (p c : Nat) : (State.sendHead s p c).pending = s.pending := by unfold State.sendHead; split <;> simp

@[simp] theorem State.pickNext_pending (s : State) (p : Nat) : (State.pickNext s p).pending = s.pending := by unfold State.pickNext; (repeat' split) <;> simp

@[simp] theorem State.egressExt_pending (s : State) (p sent : Nat) (deferred : Bool) : (State.egressExt s p sent deferred).pending = s.pending := by
  unfold State.egressExt
  first
    | with_reducible rfl
    | (simp; done)
    | (repeat'
        first
          | with_reducible rfl
          | (simp; done)
          | (simp_all; done)
          | (intro _)
          | (dsimp only)
          | split
          | (rename_i heq; obtain ⟨rfl, rfl⟩ := Prod.ext_iff.1 heq)
          | refine (State.each_pending _ _ _ ?_).trans ?_)

@[simp] theorem State.egressHost_pending (s : State) (p : Nat) : (State.egressHost s p).pending = s.pending := by unfold State.egressHost; (repeat' split) <;> simp

@[simp] theorem State.egressDoneExt_pending (s : State) (p : Nat) : (State.egressDoneExt s p).pending = s.pending := by unfold State.egressDoneExt; split <;> simp

@[simp] theorem State.egressDoneHost_pending (s : State) (p c : Nat) : (State.egressDoneHost s p c).pending = s.pending := by
  unfold State.egressDoneHost
  first
    | with_reducible rfl
    | (simp; done)
    | (repeat'
        first
          | with_reducible rfl
          | (simp; done)
          | (simp_all; done)
          | (intro _)
          | (dsimp only)
          | split
          | (rename_i heq; obtain ⟨rfl, rfl⟩ := Prod.ext_iff.1 heq)
          | refine (State.each_pending _ _ _ ?_).trans ?_)

@[simp] theorem State.verifyStart_pending (s : State) (p : Nat) : (State.verifyStart s p).pending = s.pending := by unfold State.verifyStart; simp

@[simp] theorem State.leaveUp_pending (s : State) (p st : Nat) : (State.leaveUp s p st).pending = s.pending := by unfold State.leaveUp; simp

@[simp] theorem State.takeRole_pending (s : State) (p : Nat) : (State.takeRole s p).pending = s.pending := by unfold State.takeRole; simp

@[simp] theorem State.toTraining_pending (s : State) (p : Nat) : (State.toTraining s p).pending = s.pending := by unfold State.toTraining; simp

@[simp] theorem State.retrain_pending (s : State) (p : Nat) : (State.retrain s p).pending = s.pending := by unfold State.retrain; simp

@[simp] theorem State.linkEnable_pending (s : State) (p : Nat) : (State.linkEnable s p).pending = s.pending := by unfold State.linkEnable; simp

@[simp] theorem State.linkDisable_pending (s : State) (p : Nat) : (State.linkDisable s p).pending = s.pending := by unfold State.linkDisable; simp

@[simp] theorem State.linkUp_pending (s : State) (p : Nat) : (State.linkUp s p).pending = s.pending := by unfold State.linkUp; simp

@[simp] theorem State.verifyTick_pending (s : State) (p : Nat) : (State.verifyTick s p).pending = s.pending := by unfold State.verifyTick; simp

@[simp] theorem State.verifyRespond_pending (s : State) (p : Nat) : (State.verifyRespond s p).pending = s.pending := by unfold State.verifyRespond; simp

@[simp] theorem State.pauseRx_pending (s : State) (p quanta : Nat) : (State.pauseRx s p quanta).pending = s.pending := by unfold State.pauseRx; simp

@[simp] theorem State.pauseEnd_pending (s : State) (p : Nat) : (State.pauseEnd s p).pending = s.pending := by unfold State.pauseEnd; simp

@[simp] theorem State.pauseBreak_pending (s : State) (p : Nat) : (State.pauseBreak s p).pending = s.pending := by unfold State.pauseBreak; simp

@[simp] theorem State.colDrop_pending (s : State) (p i : Nat) (x : QCopy) : (State.colDrop s p i x).pending = s.pending := by unfold State.colDrop; simp

@[simp] theorem State.collide_pending (s : State) (p : Nat) (late : Bool) : (State.collide s p late).pending = s.pending := by unfold State.collide; split <;> simp

@[simp] theorem State.backoffEnd_pending (s : State) (p : Nat) : (State.backoffEnd s p).pending = s.pending := by unfold State.backoffEnd; simp

@[simp] theorem State.wakeHit_pending (s : State) (p k : Nat) (sleep : Bool) : (State.wakeHit s p k sleep).pending = s.pending := by unfold State.wakeHit; simp

@[simp] theorem State.wakeScan_pending (s : State) (p : Nat) (l : List Nat) : (State.wakeScan s p l).pending = s.pending := by unfold State.wakeScan; simp

@[simp] theorem State.fbSync_pending (s : State) : (State.fbSync s).pending = s.pending := by unfold State.fbSync; simp

@[simp] theorem State.ingressAdd_pending (s : State) (p : Nat) (l : List Nat) (bad : Bool) : (State.ingressAdd s p l bad).pending = s.pending := by unfold State.ingressAdd; rfl

@[simp] theorem State.ingressBad_pending (s : State) (p : Nat) (l : List Nat) : (State.ingressBad s p l).pending = s.pending := by unfold State.ingressBad; simp

@[simp] theorem State.macGood_pending (s : State) (p : Nat) (l : List Nat) (frags : Nat) : (State.macGood s p l frags).pending = s.pending := by
  unfold State.macGood
  extract_lets s1 s2 ety s3
  have h3 : s3.pending = s.pending := by
    simp only [s3, s2, s1, State.ite_pending, State.fbSync_pending, State.wakeScan_pending, State.cntRx_pending, State.cnt_pending, ite_self]
  clear_value s3
  split
  · split
    · rw [State.pauseRx_pending, h3]
    · exact h3
  · split
    · split <;> simp +zetaDelta [h3]
    · have hr : (s3.mscVerify p l).2.pending = s.pending := by rw [State.mscVerify_pending, h3]
      split
      · exact hr
      · rw [State.ingressAdd_pending, hr]

@[simp] theorem State.macRx_pending (s : State) (p : Nat) (l : List Nat) (kind : RxKind) (frags : Nat) : (State.macRx s p l kind frags).pending = s.pending := by unfold State.macRx; (repeat' split) <;> simp

@[simp] theorem State.portRetire_pending (s : State) (p : Nat) : (State.portRetire s p).pending = s.pending := by unfold State.portRetire; simp

@[simp] theorem State.phyFault_pending (s : State) (p : Nat) : (State.phyFault s p).pending = s.pending := by unfold State.phyFault; simp

@[simp] theorem State.portTest_pending (s : State) (p : Nat) (pass : Bool) : (State.portTest s p pass).pending = s.pending := by unfold State.portTest; simp

@[simp] theorem State.incrApply_pending (s : State) (int : Nat) : (State.incrApply s int).pending = s.pending := by unfold State.incrApply; simp

@[simp] theorem State.timeEvent_pending (s : State) (mask : Nat) : (State.timeEvent s mask).pending = s.pending := by unfold State.timeEvent; simp

@[simp] theorem State.pairCapture_pending (s : State) (cp : Nat) (auto : Bool) : (State.pairCapture s cp auto).pending = s.pending := by unfold State.pairCapture; simp

@[simp] theorem State.halfEdge_pending (s : State) : (State.halfEdge s).pending = s.pending := by unfold State.halfEdge; simp

@[simp] theorem State.advance_pending (s : State) (n : Nat) : (State.advance s n).pending = s.pending := by unfold State.advance; rfl

@[simp] theorem State.tick_pending (s : State) : (State.tick s).pending = s.pending := by
  unfold State.tick
  extract_lets s'
  have h : s'.pending = s.pending := State.advance_pending s 1
  split
  · exact h
  · rw [State.halfEdge_pending, h]

@[simp] theorem State.runToHalf_pending (s : State) : (State.runToHalf s).pending = s.pending := by unfold State.runToHalf; simp

@[simp] theorem State.zoneStep_pending (s : State) (v : Nat) : (State.zoneStep s v).pending = s.pending := by unfold State.zoneStep; rfl

@[simp] theorem State.epochNext_pending (s : State) (step half : Bool) : (State.epochNext s step half).pending = s.pending := by unfold State.epochNext; dsimp only; split <;> simp

@[simp] theorem State.epochOpen_pending (s : State) (step : Bool) : (State.epochOpen s step).pending = s.pending := by unfold State.epochOpen; simp

@[simp] theorem State.epochCtrl_pending (s : State) (w : Nat) : (State.epochCtrl s w).pending = s.pending := by unfold State.epochCtrl; simp

@[simp] theorem State.nowRead_pending (s : State) (cp : Nat) : (State.nowRead s cp).pending = s.pending := by unfold State.nowRead; simp

@[simp] theorem State.fbConfig_pending (s : State) (w : Nat) : (State.fbConfig s w).pending = s.pending := by unfold State.fbConfig; simp

@[simp] theorem State.fbLoss_pending (s : State) : (State.fbLoss s).pending = s.pending := by unfold State.fbLoss; simp

@[simp] theorem State.canEvt_pending (s : State) (k b : Nat) : (State.canEvt s k b).pending = s.pending := by unfold State.canEvt; simp

@[simp] theorem State.txDone_pending (s : State) (k m : Nat) : (State.txDone s k m).pending = s.pending := by unfold State.txDone; simp

@[simp] theorem State.mbEnd_pending (s : State) (k m res : Nat) : (State.mbEnd s k m res).pending = s.pending := by unfold State.mbEnd; simp

@[simp] theorem State.canStart_pending (s : State) (k : Nat) : (State.canStart s k).pending = s.pending := by unfold State.canStart; (repeat' split) <;> simp

@[simp] theorem State.mbWithdraw_pending (s : State) (k res : Nat) : (State.mbWithdraw s k res).pending = s.pending := by unfold State.mbWithdraw; split <;> simp

@[simp] theorem State.mbAbortPending_pending (s : State) (k : Nat) : (State.mbAbortPending s k).pending = s.pending := by unfold State.mbAbortPending; simp

@[simp] theorem State.modeIdle_pending (s : State) (k : Nat) : (State.modeIdle s k).pending = s.pending := by unfold State.modeIdle; split <;> simp

@[simp] theorem State.modeWrite_pending (s : State) (k m : Nat) : (State.modeWrite s k m).pending = s.pending := by unfold State.modeWrite; simp

@[simp] theorem State.canCtrl_pending (s : State) (k w : Nat) : (State.canCtrl s k w).pending = s.pending := by unfold State.canCtrl; simp

@[simp] theorem State.canRecover_pending (s : State) (k w : Nat) : (State.canRecover s k w).pending = s.pending := by unfold State.canRecover; simp

@[simp] theorem State.mbReq_pending (s : State) (k m : Nat) : (State.mbReq s k m).pending = s.pending := by unfold State.mbReq; simp

@[simp] theorem State.mbAbort_pending (s : State) (k m : Nat) : (State.mbAbort s k m).pending = s.pending := by unfold State.mbAbort; simp

@[simp] theorem State.mbCmd_pending (s : State) (k m w : Nat) : (State.mbCmd s k m w).pending = s.pending := by unfold State.mbCmd; simp

@[simp] theorem State.canCount_pending (s : State) (k tec rec_ : Nat) : (State.canCount s k tec rec_).pending = s.pending := by unfold State.canCount; simp

@[simp] theorem State.canError_pending (s : State) (k lec tec rec_ : Nat) : (State.canError s k lec tec rec_).pending = s.pending := by unfold State.canError; simp

@[simp] theorem State.canIntegrated_pending (s : State) (k : Nat) : (State.canIntegrated s k).pending = s.pending := by unfold State.canIntegrated; simp

@[simp] theorem State.canRecovered_pending (s : State) (k : Nat) : (State.canRecovered s k).pending = s.pending := by unfold State.canRecovered; simp

@[simp] theorem State.canPex_pending (s : State) (k : Nat) : (State.canPex s k).pending = s.pending := by unfold State.canPex; simp

@[simp] theorem State.canHot_pending (s : State) (k : Nat) (hot : Bool) : (State.canHot s k hot).pending = s.pending := by unfold State.canHot; simp

@[simp] theorem State.canLost_pending (s : State) (k : Nat) : (State.canLost s k).pending = s.pending := by unfold State.canLost; split <;> simp

@[simp] theorem State.canDataPhase_pending (s : State) (k : Nat) (f : CanFrame) : (State.canDataPhase s k f).pending = s.pending := by unfold State.canDataPhase; simp

@[simp] theorem State.canWon_pending (s : State) (k : Nat) : (State.canWon s k).pending = s.pending := by unfold State.canWon; split <;> simp

@[simp] theorem State.refPeriod_pending (s : State) : (State.refPeriod s).pending = s.pending := by unfold State.refPeriod; simp

@[simp] theorem State.refReceived_pending (s : State) (data : List Nat) (at_ : Stamp) : (State.refReceived s data at_).pending = s.pending := by
  unfold State.refReceived
  first
    | with_reducible rfl
    | (simp; done)
    | (repeat'
        first
          | with_reducible rfl
          | (simp; done)
          | (simp_all; done)
          | (intro _)
          | (dsimp only)
          | split
          | (rename_i heq; obtain ⟨rfl, rfl⟩ := Prod.ext_iff.1 heq)
          | refine (State.each_pending _ _ _ ?_).trans ?_)

@[simp] theorem State.canToRing_pending (s : State) (k : Nat) (x : CanRx) : (State.canToRing s k x).pending = s.pending := by unfold State.canToRing; simp

@[simp] theorem State.tunnelQueue_pending (s : State) (k d : Nat) (l : List Nat) : (State.tunnelQueue s k d l).pending = s.pending := by unfold State.tunnelQueue; simp

@[simp] theorem State.canToTunnel_pending (s : State) (k : Nat) (f : CanFrame) : (State.canToTunnel s k f).pending = s.pending := by unfold State.canToTunnel; (repeat' split) <;> simp

@[simp] theorem State.tunnelRelease_pending (s : State) (k : Nat) : (State.tunnelRelease s k).pending = s.pending := by unfold State.tunnelRelease; split <;> simp

@[simp] theorem State.canRoute_pending (s : State) (k : Nat) (f : CanFrame) (raw : Nat) (at_ : Stamp) (echo : Bool) : (State.canRoute s k f raw at_ echo).pending = s.pending := by unfold State.canRoute; (repeat' split) <;> simp

@[simp] theorem State.canTrace_pending (s : State) (k : Nat) (f : CanFrame) : (State.canTrace s k f).pending = s.pending := by unfold State.canTrace; split <;> simp

@[simp] theorem State.canReceive_pending (s : State) (k : Nat) (f : CanFrame) (ago tec rec_ : Nat) : (State.canReceive s k f ago tec rec_).pending = s.pending := by unfold State.canReceive; simp

@[simp] theorem State.canSent_pending (s : State) (k tec rec_ : Nat) : (State.canSent s k tec rec_).pending = s.pending := by unfold State.canSent; split <;> simp

@[simp] theorem State.canDeliver_pending (s : State) (k : Nat) : (State.canDeliver s k).pending = s.pending := by unfold State.canDeliver; split <;> simp

@[simp] theorem State.mramStep_pending (s : State) (k : Nat) : (State.mramStep s k).pending = s.pending := by unfold State.mramStep; simp

@[simp] theorem State.mramWrite_pending (s : State) (k : Nat) (w : Word) : (State.mramWrite s k w).pending = s.pending := by unfold State.mramWrite; simp

@[simp] theorem State.acfConfig_pending (s : State) (k : Nat) (t : Tag) (w : Nat) : (State.acfConfig s k t w).pending = s.pending := by unfold State.acfConfig; simp

@[simp] theorem State.acfMessage_pending (s : State) (k : Nat) (m : List Nat) : (State.acfMessage s k m).pending = s.pending := by unfold State.acfMessage; simp

@[simp] theorem State.acfReceive_pending (s : State) (k : Nat) : (State.acfReceive s k).pending = s.pending := by
  unfold State.acfReceive
  first
    | with_reducible rfl
    | (simp; done)
    | (repeat'
        first
          | with_reducible rfl
          | (simp; done)
          | (simp_all; done)
          | (intro _)
          | (dsimp only)
          | split
          | (rename_i heq; obtain ⟨rfl, rfl⟩ := Prod.ext_iff.1 heq)
          | refine (State.each_pending _ _ _ ?_).trans ?_)

@[simp] theorem State.canIslReset_pending (s : State) (k : Nat) : (State.canIslReset s k).pending = s.pending := by unfold State.canIslReset; simp

@[simp] theorem State.canSquash_pending (s : State) (k : Nat) : (State.canSquash s k).pending = s.pending := by unfold State.canSquash; simp

@[simp] theorem State.canEnterRetired_pending (s : State) (k : Nat) : (State.canEnterRetired s k).pending = s.pending := by unfold State.canEnterRetired; simp

@[simp] theorem State.canTest_pending (s : State) (k : Nat) (pass : Bool) : (State.canTest s k pass).pending = s.pending := by unfold State.canTest; simp

@[simp] theorem State.putFn_pending (s : State) (f : Nat) (x : FnSt) : (State.putFn s f x).pending = s.pending := by unfold State.putFn; rfl

@[simp] theorem State.cfgWrite_pending (s : State) (f : Nat) (y : CfgWrite) : (State.cfgWrite s f y).pending = s.pending := by
  cases y <;> (unfold State.cfgWrite; (repeat' first | with_reducible rfl | (simp; done) | (dsimp only) | split))

@[simp] theorem State.cfgReset_pending (s : State) : (State.cfgReset s).pending = s.pending := by unfold State.cfgReset; rfl

@[simp] theorem State.linkIsUp_pending (s : State) (speed width : Nat) : (State.linkIsUp s speed width).pending = s.pending := by unfold State.linkIsUp; simp

@[simp] theorem State.linkIsDown_pending (s : State) : (State.linkIsDown s).pending = s.pending := by unfold State.linkIsDown; simp

@[simp] theorem State.resvEnd_pending (s : State) (h : Nat) : (State.resvEnd s h).pending = s.pending := by unfold State.resvEnd; split <;> simp

@[simp] theorem State.resvTake_pending (s : State) (h d a : Nat) : (State.resvTake s h d a).pending = s.pending := by unfold State.resvTake; simp

@[simp] theorem State.lineDrop_pending (s : State) (p : PLine → Bool) : (State.lineDrop s p).pending = s.pending := by unfold State.lineDrop; simp

@[simp] theorem State.lineWrite_pending (s : State) (t : Tag) (num a : Nat) : (State.lineWrite s t num a).pending = s.pending := by unfold State.lineWrite; simp

@[simp] theorem State.lineServed_pending (s : State) (x : PLine) : (State.lineServed s x).pending = s.pending := by unfold State.lineServed; simp

@[simp] theorem State.lineAdd_pending (s : State) (x : PLine) : (State.lineAdd s x).pending = s.pending := by unfold State.lineAdd; (repeat' split) <;> simp

@[simp] theorem State.perrDeliver_pending (s : State) (d : Nat) : (State.perrDeliver s d).pending = s.pending := by unfold State.perrDeliver; split <;> simp

@[simp] theorem State.fenceRead_pending (s : State) (d src : Nat) : (State.fenceRead s d src).2.pending = s.pending := by
  unfold State.fenceRead
  first
    | with_reducible rfl
    | (simp; done)
    | (repeat'
        first
          | with_reducible rfl
          | (simp; done)
          | (simp_all; done)
          | (intro _)
          | (dsimp only)
          | split
          | (rename_i heq; obtain ⟨rfl, rfl⟩ := Prod.ext_iff.1 heq)
          | refine (State.each_pending _ _ _ ?_).trans ?_)

@[simp] theorem State.fenceAck_pending (s : State) (d src t : Nat) : (State.fenceAck s d src t).pending = s.pending := by unfold State.fenceAck; simp

@[simp] theorem State.hostReadFail_pending (s : State) (r cause va : Nat) : (State.hostReadFail s r cause va).pending = s.pending := by unfold State.hostReadFail; split <;> simp

@[simp] theorem State.msixSend_pending (s : State) (f v : Nat) : (State.msixSend s f v).pending = s.pending := by unfold State.msixSend; simp

@[simp] theorem State.putHt_pending (s : State) (h : Nat) (x : HartSt) : (State.putHt s h x).pending = s.pending := by unfold State.putHt; rfl

@[simp] theorem State.guestIrq_pending (s : State) (d v : Nat) : (State.guestIrq s d v).pending = s.pending := by unfold State.guestIrq; simp

@[simp] theorem State.vecDeliver_pending (s : State) (d v : Nat) : (State.vecDeliver s d v).pending = s.pending := by unfold State.vecDeliver; simp

@[simp] theorem State.vecScan_pending (s : State) (d v : Nat) (high : Bool) : (State.vecScan s d v high).pending = s.pending := by unfold State.vecScan; simp

@[simp] theorem State.irqScan_pending (s : State) : (State.irqScan s).pending = s.pending := by unfold State.irqScan; simp

@[simp] theorem State.eoi_pending (s : State) (d v : Nat) : (State.eoi s d v).pending = s.pending := by unfold State.eoi; rfl

@[simp] theorem State.msixPending_pending (s : State) (f v : Nat) : (State.msixPending s f v).pending = s.pending := by unfold State.msixPending; simp

@[simp] theorem State.dwlDrawerReset_pending (s : State) (d : Nat) : (State.dwlDrawerReset s d).pending = s.pending := by unfold State.dwlDrawerReset; simp

@[simp] theorem State.recordRetirement_pending (s : State) (kind unit : Nat) : (State.recordRetirement s kind unit).pending = s.pending := by unfold State.recordRetirement; simp

@[simp] theorem State.recordAll_pending (s : State) : (State.recordAll s).pending = s.pending := by unfold State.recordAll; simp

@[simp] theorem State.restoreUnits_pending (s : State) : (State.restoreUnits s).pending = s.pending := by unfold State.restoreUnits; simp

@[simp] theorem State.clearBit_pending (s : State) (x : Fld) (b : Nat) : (State.clearBit s x b).pending = s.pending := by unfold State.clearBit; simp

@[simp] theorem State.setBit_pending (s : State) (x : Fld) (b : Nat) : (State.setBit s x b).pending = s.pending := by unfold State.setBit; simp

@[simp] theorem State.coreTest_pending (s : State) (c : Nat) (pass : Bool) : (State.coreTest s c pass).pending = s.pending := by unfold State.coreTest; simp

@[simp] theorem State.sramTest_pending (s : State) (u : Nat) (pass : Bool) : (State.sramTest s u pass).pending = s.pending := by unfold State.sramTest; simp

@[simp] theorem State.sramRetire_pending (s : State) (u : Nat) : (State.sramRetire s u).pending = s.pending := by unfold State.sramRetire; simp

@[simp] theorem State.sramCe_pending (s : State) (u : Nat) (again : Bool) : (State.sramCe s u again).pending = s.pending := by unfold State.sramCe; simp

@[simp] theorem State.retClear_pending (s : State) (w : Nat) : (State.retClear s w).pending = s.pending := by unfold State.retClear; simp

@[simp] theorem State.safenRelease_pending (s : State) (startDone : Bool) : (State.safenRelease s startDone).pending = s.pending := by unfold State.safenRelease; simp

@[simp] theorem State.safenCtrl_pending (s : State) (startDone : Bool) (w : Nat) : (State.safenCtrl s startDone w).pending = s.pending := by unfold State.safenCtrl; simp

@[simp] theorem State.safenMask_pending (s : State) (w : Nat) : (State.safenMask s w).pending = s.pending := by unfold State.safenMask; simp

@[simp] theorem State.putTarget_pending (s : State) (n t : Nat) : (State.putTarget s n t).pending = s.pending := by unfold State.putTarget; rfl

@[simp] theorem State.islandDrain_pending (s : State) (n t : Nat) : (State.islandDrain s n t).pending = s.pending := by unfold State.islandDrain; simp

@[simp] theorem State.islandTake_pending (s : State) (n t : Nat) (secure : Bool) : (State.islandTake s n t secure).pending = s.pending := by unfold State.islandTake; simp

@[simp] theorem State.islandDown_pending (s : State) (n t : Nat) (secure : Bool) : (State.islandDown s n t secure).pending = s.pending := by unfold State.islandDown; simp

@[simp] theorem State.islandUp_pending (s : State) (n : Nat) (secure : Bool) : (State.islandUp s n secure).pending = s.pending := by unfold State.islandUp; simp

@[simp] theorem State.islandReq_pending (s : State) (n w : Nat) (secure : Bool) : (State.islandReq s n w secure).pending = s.pending := by unfold State.islandReq; simp

@[simp] theorem State.claimZero_pending (s : State) (n : Nat) : (State.claimZero s n).pending = s.pending := by unfold State.claimZero; simp

@[simp] theorem State.claimWrite_pending (s : State) (n w : Nat) : (State.claimWrite s n w).pending = s.pending := by unfold State.claimWrite; simp

@[simp] theorem State.claimExpire_pending (s : State) (n : Nat) : (State.claimExpire s n).pending = s.pending := by unfold State.claimExpire; simp

@[simp] theorem State.forget_pending (s : State) (p : Nat → Bool) : (State.forget s p).pending = s.pending := by unfold State.forget; rfl

@[simp] theorem State.sramZero_pending (s : State) (n : Nat) : (State.sramZero s n).pending = s.pending := by unfold State.sramZero; simp

@[simp] theorem State.groupDown_pending (s : State) (n : Nat) : (State.groupDown s n).pending = s.pending := by unfold State.groupDown; simp

@[simp] theorem State.groupUp_pending (s : State) (n : Nat) : (State.groupUp s n).pending = s.pending := by unfold State.groupUp; simp

@[simp] theorem State.arbGrant_pending (s : State) (k : Nat) (l : List Claim) : (State.arbGrant s k l).pending = s.pending := by unfold State.arbGrant; split <;> simp

@[simp] theorem State.putHolding_pending (s : State) (d c n : Nat) : (State.putHolding s d c n).pending = s.pending := by unfold State.putHolding; simp

@[simp] theorem State.putUnitMap_pending (s : State) (c : Nat) (l : Store Nat) : (State.putUnitMap s c l).pending = s.pending := by unfold State.putUnitMap; rfl

@[simp] theorem State.giveUnits_pending (s : State) (c first n o : Nat) : (State.giveUnits s c first n o).pending = s.pending := by unfold State.giveUnits; simp

@[simp] theorem State.allocate_pending (s : State) (c : Nat) : (State.allocate s c).pending = s.pending := by unfold State.allocate; simp

@[simp] theorem State.allocateAll_pending (s : State) : (State.allocateAll s).pending = s.pending := by unfold State.allocateAll; simp

@[simp] theorem State.moveGo_pending (s : State) : (State.moveGo s).pending = s.pending := by unfold State.moveGo; simp

@[simp] theorem State.moveParty_pending (s : State) (p c n : Nat) : (State.moveParty s p c n).pending = s.pending := by unfold State.moveParty; simp

@[simp] theorem State.moveCommit_pending (s : State) : (State.moveCommit s).pending = s.pending := by unfold State.moveCommit; split <;> simp

@[simp] theorem State.moveDone_pending (s : State) : (State.moveDone s).pending = s.pending := by unfold State.moveDone; split <;> simp

@[simp] theorem State.offerAll_pending (s : State) : (State.offerAll s).pending = s.pending := by unfold State.offerAll; simp

@[simp] theorem State.featCommit_pending (s : State) (d : Nat) : (State.featCommit s d).pending = s.pending := by unfold State.featCommit; (repeat' split) <;> simp

@[simp] theorem State.withdraw_pending (s : State) (d : Nat) : (State.withdraw s d).pending = s.pending := by unfold State.withdraw; simp

@[simp] theorem State.txResetDrop_pending (s : State) (x : QCopy) (q : Nat) : (State.txResetDrop s x q).pending = s.pending := by unfold State.txResetDrop; split <;> simp

@[simp] theorem State.frameResetDrop_pending (s : State) (f : InFrame) : (State.frameResetDrop s f).pending = s.pending := by unfold State.frameResetDrop; split <;> simp

@[simp] theorem State.dropTx_pending (s : State) (d : Nat) : (State.dropTx s d).pending = s.pending := by unfold State.dropTx; simp

@[simp] theorem State.dropRx_pending (s : State) (d : Nat) : (State.dropRx s d).pending = s.pending := by unfold State.dropRx; simp

@[simp] theorem State.dropWaiting_pending (s : State) (d : Nat) : (State.dropWaiting s d).pending = s.pending := by unfold State.dropWaiting; simp

@[simp] theorem State.squash_pending (s : State) (d : Nat) : (State.squash s d).pending = s.pending := by unfold State.squash; simp

@[simp] theorem State.drain_pending (s : State) (d : Nat) : (State.drain s d).pending = s.pending := by unfold State.drain; simp

@[simp] theorem State.drawerReset_pending (s : State) (d : Nat) (sq : Bool) : (State.drawerReset s d sq).pending = s.pending := by unfold State.drawerReset; simp

@[simp] theorem State.drainEscalate_pending (s : State) (d : Nat) : (State.drainEscalate s d).pending = s.pending := by unfold State.drainEscalate; simp

@[simp] theorem State.changeAbort_pending (s : State) (cp : Nat) : (State.changeAbort s cp).pending = s.pending := by unfold State.changeAbort; simp

@[simp] theorem State.recDrawerReset_pending (s : State) (d : Nat) : (State.recDrawerReset s d).pending = s.pending := by unfold State.recDrawerReset; rfl

@[simp] theorem State.drawerAbandon_pending (s : State) : (State.drawerAbandon s).pending = s.pending := by unfold State.drawerAbandon; simp

@[simp] theorem State.drawerResetDone_pending (s : State) (d : Nat) : (State.drawerResetDone s d).pending = s.pending := by unfold State.drawerResetDone; simp

@[simp] theorem State.hartTrap_pending (s : State) (h code : Nat) : (State.hartTrap s h code).pending = s.pending := by unfold State.hartTrap; simp

@[simp] theorem State.wcall_pending (s : State) (h : Nat) : (State.wcall s h).pending = s.pending := by unfold State.wcall; simp

@[simp] theorem State.gateCall_pending (s : State) (h pa : Nat) : (State.gateCall s h pa).pending = s.pending := by unfold State.gateCall; simp

@[simp] theorem State.hartSettle_pending (s : State) (h : Nat) : (State.hartSettle s h).pending = s.pending := by unfold State.hartSettle; simp

@[simp] theorem State.mtrResume_pending (s : State) (c : Nat) : (State.mtrResume s c).pending = s.pending := by unfold State.mtrResume; simp

@[simp] theorem State.dbgSettle_pending (s : State) : (State.dbgSettle s).pending = s.pending := by unfold State.dbgSettle; simp

@[simp] theorem State.backToNormal_pending (s : State) (h : Nat) : (State.backToNormal s h).pending = s.pending := by unfold State.backToNormal; simp

@[simp] theorem State.wret_pending (s : State) (h : Nat) : (State.wret s h).pending = s.pending := by unfold State.wret; simp

@[simp] theorem State.hdrawerAccess_pending (s : State) (h : Nat) (v : Option Nat) : (State.hdrawerAccess s h v).pending = s.pending := by unfold State.hdrawerAccess; simp

@[simp] theorem State.forceOut_pending (s : State) (h : Nat) : (State.forceOut s h).pending = s.pending := by unfold State.forceOut; simp

@[simp] theorem State.clearSet_pending (s : State) (cp : Nat) : (State.clearSet s cp).pending = s.pending := by unfold State.clearSet; rfl

@[simp] theorem State.tillWrld_pending (s : State) : (State.tillWrld s).pending = s.pending := by unfold State.tillWrld; simp

@[simp] theorem State.wrldReset_pending (s : State) : (State.wrldReset s).pending = s.pending := by unfold State.wrldReset; simp

@[simp] theorem State.forceAll_pending (s : State) : (State.forceAll s).pending = s.pending := by unfold State.forceAll; simp

@[simp] theorem State.restartBegin_pending (s : State) : (State.restartBegin s).pending = s.pending := by unfold State.restartBegin; simp

@[simp] theorem State.svcDead_pending (s : State) : (State.svcDead s).pending = s.pending := by unfold State.svcDead; simp

@[simp] theorem State.svcFail_pending (s : State) (call : Bool) : (State.svcFail s call).pending = s.pending := by unfold State.svcFail; simp

@[simp] theorem State.callTimeout_pending (s : State) (h : Nat) : (State.callTimeout s h).pending = s.pending := by unfold State.callTimeout; simp

@[simp] theorem State.callTimer_pending (s : State) (h : Nat) : (State.callTimer s h).pending = s.pending := by unfold State.callTimer; simp

@[simp] theorem State.wipeDone_pending (s : State) : (State.wipeDone s).pending = s.pending := by unfold State.wipeDone; simp

@[simp] theorem State.svcReady_pending (s : State) : (State.svcReady s).pending = s.pending := by unfold State.svcReady; simp

@[simp] theorem State.svcRestart_pending (s : State) : (State.svcRestart s).pending = s.pending := by unfold State.svcRestart; simp

@[simp] theorem State.restartTimeout_pending (s : State) : (State.restartTimeout s).pending = s.pending := by unfold State.restartTimeout; simp

@[simp] theorem State.svcWrite_pending (s : State) (w : Nat) : (State.svcWrite s w).pending = s.pending := by unfold State.svcWrite; simp

@[simp] theorem State.ringSecWrite_pending (s : State) (k w : Nat) : (State.ringSecWrite s k w).pending = s.pending := by unfold State.ringSecWrite; simp

@[simp] theorem State.mtrWorldWrite_pending (s : State) (w : Nat) : (State.mtrWorldWrite s w).pending = s.pending := by unfold State.mtrWorldWrite; simp

@[simp] theorem State.coreReset_pending (s : State) (c : Nat) : (State.coreReset s c).pending = s.pending := by unfold State.coreReset; simp

@[simp] theorem State.coreStop_pending (s : State) (c : Nat) : (State.coreStop s c).pending = s.pending := by unfold State.coreStop; simp

@[simp] theorem State.coreError_pending (s : State) (c : Nat) : (State.coreError s c).pending = s.pending := by unfold State.coreError; simp

@[simp] theorem State.dbgDenied_pending (s : State) (secure write : Bool) (addr : Nat) : (State.dbgDenied s secure write addr).pending = s.pending := by unfold State.dbgDenied; simp

@[simp] theorem State.dbgHalt_pending (s : State) (y : DbgTarget) : (State.dbgHalt s y).pending = s.pending := by
  cases y <;> (unfold State.dbgHalt; (repeat' first | with_reducible rfl | (simp; done) | (dsimp only) | split))

@[simp] theorem State.dbgResume_pending (s : State) (y : DbgTarget) : (State.dbgResume s y).pending = s.pending := by
  cases y <;> (unfold State.dbgResume; (repeat' first | with_reducible rfl | (simp; done) | (dsimp only) | split))

@[simp] theorem State.dbgStep_pending (s : State) (h : Nat) (k : StepKind) : (State.dbgStep s h k).pending = s.pending := by unfold State.dbgStep; split <;> simp

@[simp] theorem State.putTil_pending (s : State) (k : Nat) (x : SlotSt) : (State.putTil s k x).pending = s.pending := by unfold State.putTil; rfl

@[simp] theorem State.takeUse_pending (s : State) (k : Nat) : (State.takeUse s k).pending = s.pending := by unfold State.takeUse; simp

@[simp] theorem State.saUnbind_pending (s : State) (k : Nat) : (State.saUnbind s k).pending = s.pending := by unfold State.saUnbind; simp

@[simp] theorem State.slotDestroy_pending (s : State) (k : Nat) : (State.slotDestroy s k).pending = s.pending := by unfold State.slotDestroy; simp

@[simp] theorem State.volatileLost_pending (s : State) : (State.volatileLost s).pending = s.pending := by unfold State.volatileLost; simp

@[simp] theorem State.tillGo_pending (s : State) (cp w : Nat) : (State.tillGo s cp w).pending = s.pending := by unfold State.tillGo; simp

@[simp] theorem State.tillGrant_pending (s : State) : (State.tillGrant s).pending = s.pending := by
  unfold State.tillGrant
  first
    | with_reducible rfl
    | (simp; done)
    | (repeat'
        first
          | with_reducible rfl
          | (simp; done)
          | (simp_all; done)
          | (intro _)
          | (dsimp only)
          | split
          | (rename_i heq; obtain ⟨rfl, rfl⟩ := Prod.ext_iff.1 heq)
          | refine (State.each_pending _ _ _ ?_).trans ?_)

@[simp] theorem State.bufPlace_pending (s : State) (cp : Nat) (h : HostMem) (wr : Bool) (p : Piece) : (State.bufPlace s cp h wr p).2.pending = s.pending := by
  unfold State.bufPlace
  first
    | with_reducible rfl
    | (simp; done)
    | (repeat'
        first
          | with_reducible rfl
          | (simp; done)
          | (simp_all; done)
          | (intro _)
          | (dsimp only)
          | split
          | (rename_i heq; obtain ⟨rfl, rfl⟩ := Prod.ext_iff.1 heq)
          | refine (State.each_pending _ _ _ ?_).trans ?_)

@[simp] theorem State.bufRead_pending (s : State) (cp : Nat) (h : HostMem) (l : List Piece) :
    (s.bufRead cp h l).2.pending = s.pending := by
  induction l generalizing s with
  | nil => rfl
  | cons p l ih =>
    unfold State.bufRead
    split
    · rename_i heq
      have e := congrArg (·.2.pending) heq
      simpa using e.symm
    · rename_i heq
      have e := congrArg (·.2.pending) heq
      simp only [State.bufPlace_pending] at e
      dsimp only
      split <;> rename_i heq2 <;>
        · have e2 := congrArg (·.2.pending) heq2
          simp only [ih] at e2
          rw [← e2, ← e]

@[simp] theorem State.bufWrite_pending (s : State) (cp : Nat) (h : HostMem) (n : Nat) (l : List Piece) (x : List Nat) :
    (s.bufWrite cp h n l x).2.2.pending = s.pending := by
  induction l generalizing s n x with
  | nil => rfl
  | cons p l ih =>
    unfold State.bufWrite
    split
    · rename_i heq
      have e := congrArg (·.2.pending) heq
      simpa using e.symm
    · rename_i heq
      have e := congrArg (·.2.pending) heq
      simp only [State.bufPlace_pending] at e
      dsimp only
      rw [ih]
      split <;> split <;> simp [← e]

@[simp] theorem State.lcLoop_pending (s : State) (t : Nat) : (State.lcLoop s t).pending = s.pending := by unfold State.lcLoop; simp

@[simp] theorem State.lcBegin_pending (s : State) (t : Nat) : (State.lcBegin s t).pending = s.pending := by unfold State.lcBegin; simp

@[simp] theorem State.lcCommit_pending (s : State) (t : Nat) : (State.lcCommit s t).pending = s.pending := by unfold State.lcCommit; simp

@[simp] theorem State.lcEnd_pending (s : State) : (State.lcEnd s).pending = s.pending := by unfold State.lcEnd; split <;> simp

@[simp] theorem State.draw_pending (s : State) (n : Nat) : (State.draw s n).2.pending = s.pending := by unfold State.draw; rfl

@[simp] theorem State.newKey_pending (s : State) (type n : Nat) : (State.newKey s type n).2.pending = s.pending := by unfold State.newKey; split <;> simp

@[simp] theorem State.signBy_pending (s : State) (x : SlotSt) (p : Nat) (m : List Nat) : (State.signBy s x p m).2.pending = s.pending := by unfold State.signBy; split <;> simp

@[simp] theorem State.statement_pending (s : State) (k : Nat) (nonce : List Nat) : (State.statement s k nonce).2.pending = s.pending := by unfold State.statement; simp

@[simp] theorem State.nonceNew_pending (s : State) (l : List Nat) (at_ : Nat) : (State.nonceNew s l at_).pending = s.pending := rfl

@[simp] theorem State.tillMake_pending (s : State) (cp : Nat) (key : List Nat) (t : State) :
    (s.tillMake cp key t).pending = t.pending := by unfold State.tillMake; simp

@[simp] theorem State.tillEnd_pending (s : State) (cp r : Nat) (l : List Nat) (t : State) (h : t.pending = s.pending) :
    (s.tillEnd cp r l t).2.2.pending = s.pending := by
  unfold State.tillEnd
  dsimp only
  split
  · rfl
  · split
    · rfl
    · split
      · rfl
      · exact h

@[simp] theorem State.tillEffect_pending (s : State) (cp : Nat) (src : List Nat) : (State.tillEffect s cp src).2.2.pending = s.pending := by
  unfold State.tillEffect
  dsimp only
  split
  all_goals
    repeat' split
    all_goals exact State.tillEnd_pending _ _ _ _ _ (by simp)

@[simp] theorem State.tillResult_pending (s : State) (r n : Nat) : (State.tillResult s r n).pending = s.pending := by unfold State.tillResult; rfl

@[simp] theorem State.tillFinish_pending (s : State) (cp : Nat) (h : HostMem) (src : List Nat) : (State.tillFinish s cp h src).pending = s.pending := by unfold State.tillFinish; simp

@[simp] theorem State.nonceDone_pending (s : State) (op : Nat) : (State.nonceDone s op).pending = s.pending := by unfold State.nonceDone; simp

@[simp] theorem State.tillRun_pending (s : State) (cp : Nat) (h : HostMem) : (State.tillRun s cp h).pending = s.pending := by
  unfold State.tillRun
  first
    | with_reducible rfl
    | (simp; done)
    | (repeat'
        first
          | with_reducible rfl
          | (simp; done)
          | (simp_all; done)
          | (intro _)
          | (dsimp only)
          | split
          | (rename_i heq; obtain ⟨rfl, rfl⟩ := Prod.ext_iff.1 heq)
          | refine (State.each_pending _ _ _ ?_).trans ?_)

@[simp] theorem State.tillOp_pending (s : State) (op : Nat) (h : HostMem) : (State.tillOp s op h).pending = s.pending := by unfold State.tillOp; split <;> simp

@[simp] theorem State.tillDone_pending (s : State) : (State.tillDone s).pending = s.pending := by unfold State.tillDone; split <;> simp

@[simp] theorem State.entropyFail_pending (s : State) : (State.entropyFail s).pending = s.pending := by unfold State.entropyFail; simp

@[simp] theorem State.entropyPass_pending (s : State) : (State.entropyPass s).pending = s.pending := by unfold State.entropyPass; simp

@[simp] theorem State.saCtrl_pending (s : State) (t : Tag) (p a w : Nat) : (State.saCtrl s t p a w).pending = s.pending := by unfold State.saCtrl; simp

theorem State.nextRec_pending {s : State} {d : Nat} {x : LogRec} {t : State} (h : s.nextRec d = some (x, t)) :
    t.pending = s.pending := by
  unfold State.nextRec at h
  split at h
  · cases h; simp
  · split at h <;> cases h
    rfl

@[simp] theorem State.putItem_pending (s : State) (i : Nat) (x : RecItem) : (State.putItem s i x).pending = s.pending := by unfold State.putItem; rfl

@[simp] theorem State.sampleTake_pending (s : State) (p : Sample) : (State.sampleTake s p).pending = s.pending := by unfold State.sampleTake; rfl

@[simp] theorem State.sampleMerge_pending (s : State) (l : List Sample) : (State.sampleMerge s l).pending = s.pending := by unfold State.sampleMerge; simp

@[simp] theorem State.itemConfig_pending (s : State) : (State.itemConfig s).pending = s.pending := by unfold State.itemConfig; simp

@[simp] theorem State.recCfgCmd_pending (s : State) (w : Nat) : (State.recCfgCmd s w).pending = s.pending := by unfold State.recCfgCmd; simp

@[simp] theorem State.itemClear_pending (s : State) (all : Bool) (i : Nat) : (State.itemClear s all i).pending = s.pending := by unfold State.itemClear; simp

@[simp] theorem State.recClear_pending (s : State) (w : Nat) : (State.recClear s w).pending = s.pending := by unfold State.recClear; simp

@[simp] theorem State.recCommit_pending (s : State) : (State.recCommit s).pending = s.pending := by unfold State.recCommit; rfl

@[simp] theorem State.flushDone_pending (s : State) : (State.flushDone s).pending = s.pending := by unfold State.flushDone; simp

@[simp] theorem State.recFlush_pending (s : State) (w : Nat) : (State.recFlush s w).pending = s.pending := by unfold State.recFlush; simp

@[simp] theorem State.alarmSave_pending (s : State) : (State.alarmSave s).pending = s.pending := by unfold State.alarmSave; rfl

@[simp] theorem State.recRestore_pending (s : State) : (State.recRestore s).pending = s.pending := by unfold State.recRestore; rfl

@[simp] theorem State.recLost_pending (s : State) : (State.recLost s).pending = s.pending := by unfold State.recLost; rfl

@[simp] theorem State.winSnap_pending (s : State) (cp : Nat) : (State.winSnap s cp).pending = s.pending := by unfold State.winSnap; simp

@[simp] theorem State.winAdvance_pending (s : State) (cp : Nat) : (State.winAdvance s cp).pending = s.pending := by
  unfold State.winAdvance
  first
    | with_reducible rfl
    | (simp; done)
    | (repeat'
        first
          | with_reducible rfl
          | (simp; done)
          | (simp_all; done)
          | (intro _)
          | (dsimp only)
          | split
          | (rename_i heq; obtain ⟨rfl, rfl⟩ := Prod.ext_iff.1 heq)
          | refine (State.each_pending _ _ _ ?_).trans ?_)

@[simp] theorem State.winBefore_pending (s : State) (w cp : Nat) : (State.winBefore s w cp).pending = s.pending := by unfold State.winBefore; simp

@[simp] theorem State.winAfter_pending (s : State) (w cp : Nat) : (State.winAfter s w cp).pending = s.pending := by unfold State.winAfter; simp

@[simp] theorem State.alarmFreeze_pending (s : State) : (State.alarmFreeze s).pending = s.pending := by unfold State.alarmFreeze; split <;> simp

@[simp] theorem State.alarmPop_pending (s : State) (w : Nat) : (State.alarmPop s w).pending = s.pending := by unfold State.alarmPop; simp

@[simp] theorem State.logFill_pending (s : State) (d r : Nat) (y : Nat) : (State.logFill s d r y).pending = s.pending := by
  induction y generalizing s with
  | zero => rfl
  | succ n ih =>
    unfold State.logFill
    dsimp only
    split
    · rfl
    · split
      · simp
      · split
        · rfl
        · rename_i heq
          rw [ih, State.addRecord_pending, State.nextRec_pending heq]

@[simp] theorem State.logDeliver_pending (s : State) (d : Nat) : (State.logDeliver s d).pending = s.pending := by unfold State.logDeliver; split <;> simp

@[simp] theorem State.logTimeout_pending (s : State) (r : Nat) : (State.logTimeout s r).pending = s.pending := by unfold State.logTimeout; simp

@[simp] theorem State.traceLevel_pending (s : State) (d : Nat) : (State.traceLevel s d).pending = s.pending := by unfold State.traceLevel; simp

@[simp] theorem State.withImage_pending (s : State) (im : Image) : (State.withImage s im).pending = s.pending := by unfold State.withImage; rfl

@[simp] theorem State.putSess_pending (s : State) (kind : Nat) (x : SessSt) : (State.putSess s kind x).pending = s.pending := by unfold State.putSess; rfl

@[simp] theorem State.updEffect_pending (s : State) (c : UpdCmd) : (State.updEffect s c).pending = s.pending := by unfold State.updEffect; split <;> simp

@[simp] theorem State.updRun_pending (s : State) (op : Nat) (nandErr : Bool) : (State.updRun s op nandErr).pending = s.pending := by unfold State.updRun; split <;> simp

@[simp] theorem State.updReport_pending (s : State) (ring st : Nat) : (State.updReport s ring st).pending = s.pending := by unfold State.updReport; simp

@[simp] theorem State.updDone_pending (s : State) : (State.updDone s).pending = s.pending := by unfold State.updDone; (repeat' split) <;> simp

@[simp] theorem State.mbxCmd_pending (s : State) (w : Nat) : (State.mbxCmd s w).pending = s.pending := by unfold State.mbxCmd; simp

@[simp] theorem State.copyPage_pending (s : State) (kind bank p : Nat) (l : List Nat) : (State.copyPage s kind bank p l).pending = s.pending := by unfold State.copyPage; simp

@[simp] theorem State.zeroMagic_pending (s : State) (kind bank : Nat) : (State.zeroMagic s kind bank).pending = s.pending := by unfold State.zeroMagic; simp

@[simp] theorem State.lastBoot_pending (s : State) (kind code bank : Nat) (resumed : Bool) : (State.lastBoot s kind code bank resumed).pending = s.pending := by unfold State.lastBoot; simp

@[simp] theorem State.copyOver_pending (s : State) (kind : Nat) : (State.copyOver s kind).pending = s.pending := by unfold State.copyOver; simp

@[simp] theorem State.copyRun_pending (s : State) (kind bank first : Nat) (e : CopyEnd) (resumed : Bool) : (State.copyRun s kind bank first e resumed).pending = s.pending := by unfold State.copyRun; split <;> simp

@[simp] theorem State.stagedImage_pending (s : State) (kind : Nat) (e : CopyEnd) : (State.stagedImage s kind e).pending = s.pending := by unfold State.stagedImage; (repeat' split) <;> simp

@[simp] theorem State.openDiscard_pending (s : State) (kind : Nat) : (State.openDiscard s kind).pending = s.pending := by unfold State.openDiscard; simp

@[simp] theorem State.takeBank_pending (s : State) (kind : Nat) : (State.takeBank s kind).pending = s.pending := by unfold State.takeBank; rfl

@[simp] theorem State.copyResume_pending (s : State) (ends : Nat → CopyEnd) : (State.copyResume s ends).pending = s.pending := by unfold State.copyResume; split <;> simp

@[simp] theorem State.stagedNext_pending (s : State) (kind : Nat) (e : CopyEnd) : (State.stagedNext s kind e).pending = s.pending := by unfold State.stagedNext; simp

@[simp] theorem State.bootImages_pending (s : State) (ends : Nat → CopyEnd) : (State.bootImages s ends).pending = s.pending := by unfold State.bootImages; simp

@[simp] theorem State.updConfirm_pending (s : State) (w : Nat) : (State.updConfirm s w).pending = s.pending := by
  unfold State.updConfirm
  first
    | with_reducible rfl
    | (simp; done)
    | (repeat'
        first
          | with_reducible rfl
          | (simp; done)
          | (simp_all; done)
          | (intro _)
          | (dsimp only)
          | split
          | (rename_i heq; obtain ⟨rfl, rfl⟩ := Prod.ext_iff.1 heq)
          | refine (State.each_pending _ _ _ ?_).trans ?_)

@[simp] theorem State.putPhase_pending (s : State) (p : Nat) : (State.putPhase s p).pending = s.pending := by unfold State.putPhase; rfl

@[simp] theorem State.putLost_pending (s : State) (b : Nat) (v : Bool) : (State.putLost s b v).pending = s.pending := by unfold State.putLost; rfl

@[simp] theorem State.sysUnits_pending (s : State) : (State.sysUnits s).pending = s.pending := by unfold State.sysUnits; simp

@[simp] theorem State.porUnits_pending (s : State) : (State.porUnits s).pending = s.pending := by unfold State.porUnits; rfl

@[simp] theorem State.resetSaves_pending (s : State) (cause : Nat) : (State.resetSaves s cause).pending = s.pending := by unfold State.resetSaves; simp

@[simp] theorem State.ruleResults_pending (s : State) : (State.ruleResults s).pending = s.pending := by unfold State.ruleResults; simp

@[simp] theorem State.ruleConditions_pending (s : State) : (State.ruleConditions s).pending = s.pending := by unfold State.ruleConditions; simp

@[simp] theorem State.doReset_pending (s : State) (por : Bool) (cause flush : Nat) : (State.doReset s por cause flush).pending = s.pending := by unfold State.doReset; simp

@[simp] theorem State.trigger_pending (s : State) (por : Bool) (cause : Nat) : (State.trigger s por cause).pending = s.pending := by unfold State.trigger; simp

@[simp] theorem State.vlogStart_pending (s : State) (flush : Nat) : (State.vlogStart s flush).pending = s.pending := by unfold State.vlogStart; simp

@[simp] theorem State.powerOff_pending (s : State) (ph : Nat) : (State.powerOff s ph).pending = s.pending := by unfold State.powerOff; simp

@[simp] theorem State.saveLatched_pending (s : State) : (State.saveLatched s).pending = s.pending := by unfold State.saveLatched; rfl

@[simp] theorem State.vlogValid_pending (s : State) (cut : Bool) : (State.vlogValid s cut).pending = s.pending := by unfold State.vlogValid; simp

@[simp] theorem State.vlogFail_pending (s : State) : (State.vlogFail s).pending = s.pending := by unfold State.vlogFail; simp

@[simp] theorem State.recSave_pending (s : State) : (State.recSave s).pending = s.pending := by unfold State.recSave; simp

@[simp] theorem State.powerFailDone_pending (s : State) : (State.powerFailDone s).pending = s.pending := by unfold State.powerFailDone; simp

@[simp] theorem State.dieClear_pending (s : State) (b : Nat) : (State.dieClear s b).pending = s.pending := by unfold State.dieClear; simp

@[simp] theorem State.feedLoss_pending (s : State) (f : Nat) : (State.feedLoss s f).pending = s.pending := by unfold State.feedLoss; simp

@[simp] theorem State.feedReturn_pending (s : State) (f : Nat) : (State.feedReturn s f).pending = s.pending := by unfold State.feedReturn; simp

@[simp] theorem State.retiredBy_pending (s : State) (c cause : Nat) : (State.retiredBy s c cause).pending = s.pending := by unfold State.retiredBy; simp

@[simp] theorem State.blockChan_pending (s : State) (c : Nat) : (State.blockChan s c).pending = s.pending := by unfold State.blockChan; simp

@[simp] theorem State.wireOf_pending (s : State) (c : Nat) : (State.wireOf s c).pending = s.pending := by unfold State.wireOf; simp

@[simp] theorem State.dieReload_pending (s : State) (b : Nat) : (State.dieReload s b).pending = s.pending := by
  unfold State.dieReload
  first
    | with_reducible rfl
    | (simp; done)
    | (repeat'
        first
          | with_reducible rfl
          | (simp; done)
          | (simp_all; done)
          | (intro _)
          | (dsimp only)
          | split
          | (rename_i heq; obtain ⟨rfl, rfl⟩ := Prod.ext_iff.1 heq)
          | refine (State.each_pending _ _ _ ?_).trans ?_)

@[simp] theorem State.bootCause_pending (s : State) : (State.bootCause s).pending = s.pending := by unfold State.bootCause; simp

@[simp] theorem State.cholOk_pending (s : State) : (State.cholOk s).pending = s.pending := by unfold State.cholOk; simp

@[simp] theorem State.lcComplete_pending (s : State) : (State.lcComplete s).pending = s.pending := by unfold State.lcComplete; split <;> simp

@[simp] theorem State.bootBanks_pending (s : State) : (State.bootBanks s).pending = s.pending := by unfold State.bootBanks; simp

@[simp] theorem State.bootRom_pending (s : State) (ends : Nat → CopyEnd) : (State.bootRom s ends).pending = s.pending := by unfold State.bootRom; simp

@[simp] theorem State.coreZero_pending (s : State) : (State.coreZero s).pending = s.pending := by unfold State.coreZero; simp

@[simp] theorem State.showRetired_pending (s : State) : (State.showRetired s).pending = s.pending := by unfold State.showRetired; simp

@[simp] theorem State.enterBare_pending (s : State) : (State.enterBare s).pending = s.pending := by unfold State.enterBare; simp

@[simp] theorem State.holdsDropped_pending (s : State) : (State.holdsDropped s).pending = s.pending := by unfold State.holdsDropped; simp

@[simp] theorem State.channelsRenewed_pending (s : State) : (State.channelsRenewed s).pending = s.pending := by unfold State.channelsRenewed; simp

@[simp] theorem State.pinsReload_pending (s : State) : (State.pinsReload s).pending = s.pending := by unfold State.pinsReload; simp

@[simp] theorem State.clampStart_pending (s : State) (changed : Bool) (l : PinMv) : (State.clampStart s changed l).pending = s.pending := by unfold State.clampStart; simp

@[simp] theorem State.retireStart_pending (s : State) (old : List (Nat × Nat)) (power : Bool) : (State.retireStart s old power).pending = s.pending := by unfold State.retireStart; simp

@[simp] theorem State.putMk_pending (s : State) (n : Nat) (x : MarkSt) : (State.putMk s n x).pending = s.pending := by unfold State.putMk; rfl

@[simp] theorem State.wireStart_pending (s : State) (c : Nat) : (State.wireStart s c).pending = s.pending := by
  unfold State.wireStart
  first
    | with_reducible rfl
    | (simp; done)
    | (repeat'
        first
          | with_reducible rfl
          | (simp; done)
          | (simp_all; done)
          | (intro _)
          | (dsimp only)
          | split
          | (rename_i heq; obtain ⟨rfl, rfl⟩ := Prod.ext_iff.1 heq)
          | refine (State.each_pending _ _ _ ?_).trans ?_)

@[simp] theorem State.harnessEnd_pending (s : State) : (State.harnessEnd s).pending = s.pending := by unfold State.harnessEnd; simp

@[simp] theorem State.imageRegs_pending (s : State) (b : Nat) (im : Image) : (State.imageRegs s b im).pending = s.pending := by unfold State.imageRegs; simp

@[simp] theorem State.imageInForce_pending (s : State) (b : Nat) (im : Image) (changed : Bool) : (State.imageInForce s b im changed).pending = s.pending := by
  unfold State.imageInForce; cases changed <;> simp

@[simp] theorem State.imageEngines_pending (s : State) : (State.imageEngines s).pending = s.pending := by unfold State.imageEngines; simp

@[simp] theorem State.imageChannels_pending (s : State) (changed : Bool) : (State.imageChannels s changed).pending = s.pending := by
  unfold State.imageChannels; split
  · simp
  · split <;> simp

@[simp] theorem State.marksBegin_pending (s : State) : (State.marksBegin s).pending = s.pending := by unfold State.marksBegin; simp

@[simp] theorem State.imageTaken_pending (s : State) (b : Nat) (l : PinMv) (im : Image) : (State.imageTaken s b l im).pending = s.pending := by unfold State.imageTaken; simp

@[simp] theorem State.bankRejected_pending (s : State) (b : Nat) (e : ImgFail) : (State.bankRejected s b e).pending = s.pending := by unfold State.bankRejected; simp

@[simp] theorem State.bankJudged_pending (s : State) (b : Nat) (l : PinMv) (res : Option ImgFail) : (State.bankJudged s b l res).pending = s.pending := by unfold State.bankJudged; split <;> simp

@[simp] theorem State.bankChecked_pending (s : State) (l : PinMv) : (State.bankChecked s l).pending = s.pending := by unfold State.bankChecked; simp

@[simp] theorem State.verdict_pending (s : State) (n v : Nat) : (State.verdict s n v).pending = s.pending := by unfold State.verdict; simp

@[simp] theorem State.markRead_pending (s : State) (n off len : Nat) : (State.markRead s n off len).pending = s.pending := by unfold State.markRead; simp

@[simp] theorem State.markSend_pending (s : State) (n : Nat) (x : MarkSt) : (State.markSend s n x).pending = s.pending := by unfold State.markSend; simp

@[simp] theorem State.markReady_pending (s : State) (n : Nat) (c : MarkCond) : (State.markReady s n c).pending = s.pending := by unfold State.markReady; (repeat' split) <;> simp

@[simp] theorem State.markFail_pending (s : State) (n : Nat) : (State.markFail s n).pending = s.pending := by unfold State.markFail; simp

@[simp] theorem State.markHeader_pending (s : State) (n : Nat) (l : List Nat) : (State.markHeader s n l).pending = s.pending := by unfold State.markHeader; simp

@[simp] theorem State.markAnswer_pending (s : State) (n : Nat) (l : List Nat) (crc : Nat) : (State.markAnswer s n l crc).pending = s.pending := by unfold State.markAnswer; simp

@[simp] theorem State.markSilent_pending (s : State) (n : Nat) : (State.markSilent s n).pending = s.pending := by unfold State.markSilent; simp

@[simp] theorem State.markGap_pending (s : State) (n : Nat) : (State.markGap s n).pending = s.pending := by unfold State.markGap; simp

@[simp] theorem State.markShort_pending (s : State) (n : Nat) : (State.markShort s n).pending = s.pending := by unfold State.markShort; simp

@[simp] theorem State.markLost_pending (s : State) (n : Nat) : (State.markLost s n).pending = s.pending := by unfold State.markLost; simp

@[simp] theorem State.imageFields_pending (s : State) : (State.imageFields s).pending = s.pending := by unfold State.imageFields; simp

@[simp] theorem State.holdsEnd_pending (s : State) : (State.holdsEnd s).pending = s.pending := by unfold State.holdsEnd; simp

@[simp] theorem State.startEnd_pending (s : State) : (State.startEnd s).pending = s.pending := by unfold State.startEnd; simp

@[simp] theorem State.wakeRefs_pending (s : State) : (State.wakeRefs s).pending = s.pending := by unfold State.wakeRefs; simp

@[simp] theorem State.sleepEnter_pending (s : State) (w : Nat) : (State.sleepEnter s w).pending = s.pending := by unfold State.sleepEnter; simp

@[simp] theorem State.wakeUp_pending (s : State) (kind ix : Nat) : (State.wakeUp s kind ix).pending = s.pending := by unfold State.wakeUp; simp

@[simp] theorem State.wake_pending (s : State) (kind ix : Nat) : (State.wake s kind ix).pending = s.pending := by unfold State.wake; (repeat' split) <;> simp

@[simp] theorem State.sleepOff_pending (s : State) : (State.sleepOff s).pending = s.pending := by
  unfold State.sleepOff
  first
    | with_reducible rfl
    | (simp; done)
    | (repeat'
        first
          | with_reducible rfl
          | (simp; done)
          | (simp_all; done)
          | (intro _)
          | (dsimp only)
          | split
          | (rename_i heq; obtain ⟨rfl, rfl⟩ := Prod.ext_iff.1 heq)
          | refine (State.each_pending _ _ _ ?_).trans ?_)

@[simp] theorem State.miWake_pending (s : State) (p mv : Nat) : (State.miWake s p mv).pending = s.pending := by unfold State.miWake; simp

@[simp] theorem State.tripWakes_pending (old s : State) (c : Nat) : (State.tripWakes old s c).pending = s.pending := by unfold State.tripWakes; simp

@[simp] theorem State.islRegs_pending (s : State) (n : Nat) : (State.islRegs s n).pending = s.pending := by unfold State.islRegs; rfl

@[simp] theorem State.islWaiting_pending (s : State) (n : Nat) : (State.islWaiting s n).pending = s.pending := by unfold State.islWaiting; simp

@[simp] theorem State.islCan_pending (s : State) (g : Nat) : (State.islCan s g).pending = s.pending := by unfold State.islCan; simp

@[simp] theorem State.islInp_pending (s : State) (dv : List (Fin 16 × Nat)) : (State.islInp s dv).pending = s.pending := by unfold State.islInp; simp

@[simp] theorem State.islLth_pending (s : State) : (State.islLth s).pending = s.pending := by unfold State.islLth; simp

@[simp] theorem State.islBank_pending (s : State) (b : Nat) : (State.islBank s b).pending = s.pending := by unfold State.islBank; simp

@[simp] theorem State.islTil_pending (s : State) : (State.islTil s).pending = s.pending := by unfold State.islTil; simp

@[simp] theorem State.islFields_pending (s : State) (n : Nat) : (State.islFields s n).pending = s.pending := by unfold State.islFields; simp

@[simp] theorem State.islClu_pending (s : State) (c : Nat) : (State.islClu s c).pending = s.pending := by unfold State.islClu; simp

@[simp] theorem State.islMtr_pending (s : State) : (State.islMtr s).pending = s.pending := by unfold State.islMtr; simp

@[simp] theorem State.islClp_pending (s : State) : (State.islClp s).pending = s.pending := by unfold State.islClp; simp

@[simp] theorem State.islDvt_pending (s : State) : (State.islDvt s).pending = s.pending := by unfold State.islDvt; simp

@[simp] theorem State.islRge_pending (s : State) : (State.islRge s).pending = s.pending := by unfold State.islRge; simp

@[simp] theorem State.islDwl_pending (s : State) : (State.islDwl s).pending = s.pending := by unfold State.islDwl; rfl

@[simp] theorem State.islReset_pending (s : State) (n : Nat) (dv : List (Fin 16 × Nat)) : (State.islReset s n dv).pending = s.pending := by unfold State.islReset; simp

@[simp] theorem State.beforeRead_pending (s : State) (h : Hit) : (State.beforeRead s h).pending = s.pending := by unfold State.beforeRead; split <;> simp

@[simp] theorem State.afterRead__pending (s : State) (h : Hit) (t : Tag) : (State.afterRead_ s h t).pending = s.pending := by
  unfold State.afterRead_
  first
    | with_reducible rfl
    | (simp; done)
    | (repeat'
        first
          | with_reducible rfl
          | (simp; done)
          | (simp_all; done)
          | (intro _)
          | (dsimp only)
          | split
          | (rename_i heq; obtain ⟨rfl, rfl⟩ := Prod.ext_iff.1 heq)
          | refine (State.each_pending _ _ _ ?_).trans ?_)

@[simp] theorem State.regRead_pending (s : State) (h : Hit) (t : Tag) : (State.regRead s h t).2.pending = s.pending := by unfold State.regRead; simp

@[simp] theorem State.bindWrite_pending (s : State) (d w : Nat) : (State.bindWrite s d w).pending = s.pending := by unfold State.bindWrite; simp

@[simp] theorem State.resetReqWrite_pending (s : State) (w : Nat) : (State.resetReqWrite s w).pending = s.pending := by unfold State.resetReqWrite; simp

@[simp] theorem State.resetWrite_pending (s : State) (d w : Nat) : (State.resetWrite s d w).pending = s.pending := by unfold State.resetWrite; simp

@[simp] theorem State.faultPop_pending (s : State) (d w : Nat) : (State.faultPop s d w).pending = s.pending := by unfold State.faultPop; simp

@[simp] theorem State.ringIdleWrite_pending (s : State) (reg : RegId) (r w : Nat) : (State.ringIdleWrite s reg r w).pending = s.pending := by unfold State.ringIdleWrite; simp

@[simp] theorem State.ringCtrl_pending (s : State) (r w : Nat) : (State.ringCtrl s r w).pending = s.pending := by unfold State.ringCtrl; simp

@[simp] theorem State.chCmd_pending (s : State) (c w : Nat) : (State.chCmd s c w).pending = s.pending := by unfold State.chCmd; simp

@[simp] theorem State.limitWrite_pending (s : State) (f w : Nat) : (State.limitWrite s f w).pending = s.pending := by unfold State.limitWrite; simp

@[simp] theorem State.ackWrite_pending (s : State) (w : Nat) : (State.ackWrite s w).pending = s.pending := by unfold State.ackWrite; simp

@[simp] theorem State.lthReject_pending (s : State) : (State.lthReject s).pending = s.pending := by unfold State.lthReject; simp

@[simp] theorem State.lthStop_pending (s : State) : (State.lthStop s).pending = s.pending := by unfold State.lthStop; simp

@[simp] theorem State.lthRun_pending (s : State) (cold : Bool) : (State.lthRun s cold).pending = s.pending := by unfold State.lthRun; simp

@[simp] theorem State.lthCtrl_pending (s : State) (w : Nat) : (State.lthCtrl s w).pending = s.pending := by unfold State.lthCtrl; (repeat' split) <;> simp

@[simp] theorem State.taskStart_pending (s : State) (k w : Nat) : (State.taskStart s k w).pending = s.pending := by unfold State.taskStart; simp

@[simp] theorem State.lthErrPop_pending (s : State) (w : Nat) : (State.lthErrPop s w).pending = s.pending := by unfold State.lthErrPop; simp

@[simp] theorem State.chgItem_pending (s : State) (cp w : Nat) : (State.chgItem s cp w).pending = s.pending := by unfold State.chgItem; simp

@[simp] theorem State.chgCtrl_pending (s : State) (cp w : Nat) : (State.chgCtrl s cp w).pending = s.pending := by unfold State.chgCtrl; simp

@[simp] theorem State.mtrCtrl_pending (s : State) (w : Nat) : (State.mtrCtrl s w).pending = s.pending := by unfold State.mtrCtrl; simp

@[simp] theorem State.modeField_pending (s : State) (x : Fld) (v i cp : Nat) : (State.modeField s x v i cp).pending = s.pending := by unfold State.modeField; simp

@[simp] theorem State.s2Write_pending (s : State) (d w : Nat) : (State.s2Write s d w).pending = s.pending := by unfold State.s2Write; simp

@[simp] theorem State.invalWrite_pending (s : State) (w : Nat) : (State.invalWrite s w).pending = s.pending := by unfold State.invalWrite; simp

@[simp] theorem State.s1InvalWrite_pending (s : State) (d w : Nat) : (State.s1InvalWrite s d w).pending = s.pending := by unfold State.s1InvalWrite; simp

@[simp] theorem State.swPortWrite_pending (s : State) (p : Nat) (t : Tag) (w : Nat) : (State.swPortWrite s p t w).pending = s.pending := by unfold State.swPortWrite; simp

@[simp] theorem State.tblCtrl_pending (s : State) (w : Nat) : (State.tblCtrl s w).pending = s.pending := by unfold State.tblCtrl; simp

@[simp] theorem State.pcfgWrite_pending (s : State) (p w : Nat) : (State.pcfgWrite s p w).pending = s.pending := by unfold State.pcfgWrite; simp

@[simp] theorem State.pmacWrite_pending (s : State) (p w : Nat) : (State.pmacWrite s p w).pending = s.pending := by unfold State.pmacWrite; simp

@[simp] theorem State.wakeWrite_pending (s : State) (p w : Nat) : (State.wakeWrite s p w).pending = s.pending := by unfold State.wakeWrite; simp

@[simp] theorem State.portWrite_pending (s : State) (reg : RegId) (p j w : Nat) : (State.portWrite s reg p j w).pending = s.pending := by unfold State.portWrite; (repeat' split) <;> simp

@[simp] theorem State.mscWrite_pending (s : State) (p : Nat) (t : Tag) (w : Nat) : (State.mscWrite s p t w).pending = s.pending := by unfold State.mscWrite; simp

@[simp] theorem State.macsecWrite_pending (s : State) (reg : RegId) (p j w : Nat) (t : Tag) : (State.macsecWrite s reg p j w t).pending = s.pending := by unfold State.macsecWrite; split <;> simp

@[simp] theorem State.fracStage_pending (s : State) (w : Nat) : (State.fracStage s w).pending = s.pending := by unfold State.fracStage; rfl

@[simp] theorem State.canConfigWrite_pending (s : State) (reg : RegId) (k w : Nat) : (State.canConfigWrite s reg k w).pending = s.pending := by unfold State.canConfigWrite; simp

@[simp] theorem State.mbWrite_pending (s : State) (reg : RegId) (k m w : Nat) : (State.mbWrite s reg k m w).pending = s.pending := by unfold State.mbWrite; simp

@[simp] theorem State.acfWrite_pending (s : State) (reg : RegId) (k : Nat) (t : Tag) (w : Nat) : (State.acfWrite s reg k t w).pending = s.pending := by unfold State.acfWrite; simp

@[simp] theorem State.canWrite_pending (s : State) (reg : RegId) (k j : Nat) (t : Tag) (w : Nat) : (State.canWrite s reg k j t w).pending = s.pending := by unfold State.canWrite; split <;> simp

@[simp] theorem State.rstReq_pending (s : State) (w : Nat) : (State.rstReq s w).pending = s.pending := by unfold State.rstReq; simp

@[simp] theorem State.evtEnWrite_pending (s : State) (cp w : Nat) : (State.evtEnWrite s cp w).pending = s.pending := by unfold State.evtEnWrite; simp

@[simp] theorem State.fabricWrite_pending (s : State) (h : Hit) (t : Tag) (w : Nat) : (State.fabricWrite s h t w).pending = s.pending := by unfold State.fabricWrite; split <;> simp

@[simp] theorem State.controlWrite_pending (s : State) (h : Hit) (t : Tag) (w : Nat) : (State.controlWrite s h t w).pending = s.pending := by unfold State.controlWrite; split <;> simp

@[simp] theorem State.networkWrite_pending (s : State) (h : Hit) (t : Tag) (w : Nat) : (State.networkWrite s h t w).pending = s.pending := by unfold State.networkWrite; split <;> simp

@[simp] theorem State.serviceWrite_pending (s : State) (h : Hit) (t : Tag) (w : Nat) : (State.serviceWrite s h t w).pending = s.pending := by unfold State.serviceWrite; split <;> simp

@[simp] theorem State.regWrite_pending (s : State) (h : Hit) (t : Tag) (w : Nat) : (State.regWrite s h t w).pending = s.pending := by unfold State.regWrite; split <;> simp

@[simp] theorem State.accessTrap_pending (s : State) (a : Access) (cause : Nat) : (State.accessTrap s a cause).pending = s.pending := by unfold State.accessTrap; simp

@[simp] theorem State.denied_pending (s : State) (a : Access) (cause : Nat) : (State.denied s a cause).pending = s.pending := by unfold State.denied; simp

@[simp] theorem State.winRead_pending (s : State) (a : Access) : (State.winRead s a).2.pending = s.pending := by unfold State.winRead; (repeat' split) <;> simp

@[simp] theorem State.winWrite_pending (s : State) (a : Access) (v : Nat) : (State.winWrite s a v).pending = s.pending := by unfold State.winWrite; split <;> simp

@[simp] theorem State.targetRead_pending (s : State) (a : Access) : (State.targetRead s a).2.pending = s.pending := by unfold State.targetRead; split <;> simp

@[simp] theorem State.targetWrite_pending (s : State) (a : Access) (v : Nat) : (State.targetWrite s a v).pending = s.pending := by unfold State.targetWrite; simp

@[simp] theorem State.scWins_pending (s : State) (a : Access) : (State.scWins s a).2.pending = s.pending := by unfold State.scWins; split <;> simp

@[simp] theorem State.semTaken_pending (s : State) (a : Access) : (State.semTaken s a).pending = s.pending := by unfold State.semTaken; simp

@[simp] theorem State.perform_pending (s : State) (a : Access) : (State.perform s a).pending = s.pending := by unfold State.perform; split <;> simp

@[simp] theorem State.wait_pending (s : State) (a : Access) (k : Nat) : (State.wait s a k).pending = s.pending := by unfold State.wait; simp

@[simp] theorem State.route_pending (s : State) (a : Access) : (State.route s a).pending = s.pending := by unfold State.route; split <;> simp

@[simp] theorem State.reroute_pending (s : State) (a : Access) : (State.reroute s a).pending = s.pending := by unfold State.reroute; simp

@[simp] theorem State.retryList_pending (n : Nat) (l : List (Nat × Access)) (s : State) :
    (State.retryList n l s).pending = s.pending := by
  induction n generalizing l s with
  | zero => rfl
  | succ n ih => unfold State.retryList; split <;> simp [ih]

@[simp] theorem State.retry_pending (s : State) : (State.retry s).pending = s.pending := by unfold State.retry; simp

@[simp] theorem State.reservationEnd_pending (s : State) (h : Nat) : (State.reservationEnd s h).pending = s.pending := by unfold State.reservationEnd; simp

@[simp] theorem State.fetchLine_pending (s : State) (a : Access) (region top block skip : Nat) : (State.fetchLine s a region top block skip).pending = s.pending := by unfold State.fetchLine; simp

@[simp] theorem State.prefetch_pending (s : State) (a : Access) : (State.prefetch s a).pending = s.pending := by unfold State.prefetch; split <;> simp

@[simp] theorem State.pointed_pending (s : State) (a : Access) : (State.pointed s a).pending = s.pending := by unfold State.pointed; simp

@[simp] theorem State.dwlRead_pending (s : State) (a : Access) : (State.dwlRead s a).pending = s.pending := by unfold State.dwlRead; (repeat' split) <;> simp

@[simp] theorem State.tagTaken_pending (s : State) (a : Access) : (State.tagTaken s a).pending = s.pending := by unfold State.tagTaken; simp

@[simp] theorem State.entered_pending (s : State) (a : Access) : (State.entered s a).pending = s.pending := by unfold State.entered; simp

@[simp] theorem State.admitted_pending (s : State) (a : Access) : (State.admitted s a).pending = s.pending := by unfold State.admitted; simp

@[simp] theorem State.access_pending (s : State) (a : Access) : (State.access s a).pending = s.pending := by unfold State.access; simp

@[simp] theorem State.pcieAccess_pending (s : State) (f : Fin 16) (a : Access) : (State.pcieAccess s f a).pending = s.pending := by unfold State.pcieAccess; simp

@[simp] theorem State.fetchAccess_pending (s : State) (h : Nat) (a : Access) : (State.fetchAccess s h a).pending = s.pending := by unfold State.fetchAccess; simp

@[simp] theorem State.mitreOut_pending (s : State) (c addr size : Nat) (op : AccOp) (data : Nat) : (State.mitreOut s c addr size op data).pending = s.pending := by unfold State.mitreOut; simp

@[simp] theorem State.mitreIssue_pending (s : State) (c addr size : Nat) (op : AccOp) (data : Nat) : (State.mitreIssue s c addr size op data).pending = s.pending := by unfold State.mitreIssue; simp

@[simp] theorem State.issue_pending (s : State) (m : Master) (addr size : Nat) (op : AccOp) (data : Nat) : (State.issue s m addr size op data).pending = s.pending := by unfold State.issue; split <;> simp

@[simp] theorem State.regCmd_pending (s : State) (m : Master) (r : RegId) (view : Option (Fin 16)) (i w : Nat) (j : Nat) : (State.regCmd s m r view i w j).pending = s.pending := by unfold State.regCmd; simp

@[simp] theorem State.regAsk_pending (s : State) (m : Master) (r : RegId) (view : Option (Fin 16)) (i : Nat) (j : Nat) : (State.regAsk s m r view i j).pending = s.pending := by unfold State.regAsk; simp

@[simp] theorem State.islandDrained_pending (s : State) (n : Nat) : (State.islandDrained s n).pending = s.pending := by unfold State.islandDrained; simp

@[simp] theorem State.islandZero_pending (s : State) (n : Nat) : (State.islandZero s n).pending = s.pending := by unfold State.islandZero; simp

@[simp] theorem State.islandWiped_pending (s : State) (n : Nat) : (State.islandWiped s n).pending = s.pending := by unfold State.islandWiped; simp

@[simp] theorem State.wakeReset_pending (s : State) (n : Nat) (dv : List (Fin 16 × Nat)) : (State.wakeReset s n dv).pending = s.pending := by unfold State.wakeReset; simp

@[simp] theorem State.islandWoken_pending (s : State) (n : Nat) (dv : List (Fin 16 × Nat)) : (State.islandWoken s n dv).pending = s.pending := by unfold State.islandWoken; simp

@[simp] theorem State.idle_pending (s : State) : (State.idle s).pending = s.pending := by unfold State.idle; simp

end Sys2Proof.Machine
end

