-- ==== Sys2Proof/Laws/QueueRows.lean ====
section
/-! SUPPORT. What the operations of the command families leave of the queue of waiting commands (`pending`): no operation touches it. -/

set_option linter.unusedTactic false
set_option linter.unreachableTactic false

namespace Sys2Proof.Machine

@[simp] theorem State.rstn_pending (s : State) : (State.rstn s).pending = s.pending := by unfold State.rstn; simp

@[simp] theorem State.miTest_pending (s : State) (p : Nat) (pass : Bool) : (State.miTest s p pass).pending = s.pending := by unfold State.miTest; simp

@[simp] theorem State.coreSelfTest_pending (s : State) (c : Nat) (pass : Bool) : (State.coreSelfTest s c pass).pending = s.pending := by unfold State.coreSelfTest; simp

@[simp] theorem State.secureUpdate_pending (s : State) (e : CopyEnd) : (State.secureUpdate s e).pending = s.pending := by unfold State.secureUpdate; (repeat' split) <;> simp

@[simp] theorem State.perrAll_pending (s : State) : (State.perrAll s).pending = s.pending := by unfold State.perrAll; simp

@[simp] theorem State.perrOf_pending (s : State) (r : Nat) : (State.perrOf s r).pending = s.pending := by unfold State.perrOf; split <;> simp

@[simp] theorem State.ringFaults_pending (s : State) (r : Nat) (h : HostMem) : (State.ringFaults s r h).pending = s.pending := by unfold State.ringFaults; (repeat' split) <;> simp

@[simp] theorem State.walkEnds_pending (s : State) (d : Nat) (sec : Bool) (h : HostMem) (va : Nat) (wr : Bool) : (State.walkEnds s d sec h va wr).pending = s.pending := by unfold State.walkEnds; simp

@[simp] theorem State.dirtyDone_pending (s : State) (d : Nat) : (State.dirtyDone s d).pending = s.pending := by unfold State.dirtyDone; simp

@[simp] theorem State.onChan_pending (s : State) (c : Nat) (f : State → State) (hf : ∀ s0, (f s0).pending = s0.pending) : (State.onChan s c f).pending = s.pending := by
  unfold State.onChan
  first
    | with_reducible rfl
    | (simp; done)
    | (repeat'
        first
          | with_reducible rfl
          | (simp; done)
          | (simp_all; done)
          | (intro _)
          | (dsimp only)
          | split
          | (rename_i heq; obtain ⟨rfl, rfl⟩ := Prod.ext_iff.1 heq)
          | refine (State.each_pending _ _ _ ?_).trans ?_)

@[simp] theorem State.tripOf_pending (s : State) (c cause : Nat) : (State.tripOf s c cause).pending = s.pending := by unfold State.tripOf; simp

@[simp] theorem State.phaseTo_pending (s : State) (c old new : Nat) : (State.phaseTo s c old new).pending = s.pending := by unfold State.phaseTo; simp

@[simp] theorem State.edgeDone_pending (s : State) (c : Nat) : (State.edgeDone s c).pending = s.pending := by unfold State.edgeDone; simp

@[simp] theorem State.gapEnd_pending (s : State) (c : Nat) : (State.gapEnd s c).pending = s.pending := by unfold State.gapEnd; simp

@[simp] theorem State.pwmHoldsEnd_pending (s : State) (k : Nat) : (State.pwmHoldsEnd s k).pending = s.pending := by unfold State.pwmHoldsEnd; simp

@[simp] theorem State.pwmStart_pending (s : State) (k : Nat) : (State.pwmStart s k).pending = s.pending := by unfold State.pwmStart; simp

@[simp] theorem State.pwmEnd_pending (s : State) (k : Nat) : (State.pwmEnd s k).pending = s.pending := by unfold State.pwmEnd; simp

@[simp] theorem State.tempRelease_pending (s : State) (c : Nat) : (State.tempRelease s c).pending = s.pending := by unfold State.tempRelease; simp

@[simp] theorem State.offTick_pending (s : State) (b : Nat) (l : List (Fin 96)) : (State.offTick s b l).pending = s.pending := by unfold State.offTick; simp

@[simp] theorem State.offShort_pending (s : State) (c : Nat) (high : Bool) : (State.offShort s c high).pending = s.pending := by unfold State.offShort; simp

@[simp] theorem State.offOpen_pending (s : State) (c : Nat) (high : Bool) : (State.offOpen s c high).pending = s.pending := by unfold State.offOpen; simp

@[simp] theorem State.quietEnd_pending (s : State) (c : Nat) : (State.quietEnd s c).pending = s.pending := by unfold State.quietEnd; simp

@[simp] theorem State.feedMean_pending (s : State) (f mean : Nat) : (State.feedMean s f mean).pending = s.pending := by unfold State.feedMean; simp

@[simp] theorem State.shedStep_pending (s : State) (f : Nat) (means : List (Fin 96 × Nat)) : (State.shedStep s f means).pending = s.pending := by unfold State.shedStep; simp

@[simp] theorem State.restoreStep_pending (s : State) (f : Nat) : (State.restoreStep s f).pending = s.pending := by
  unfold State.restoreStep
  first
    | with_reducible rfl
    | (simp; done)
    | (repeat'
        first
          | with_reducible rfl
          | (simp; done)
          | (simp_all; done)
          | (intro _)
          | (dsimp only)
          | split
          | (rename_i heq; obtain ⟨rfl, rfl⟩ := Prod.ext_iff.1 heq)
          | refine (State.each_pending _ _ _ ?_).trans ?_)

@[simp] theorem State.ruleInput_pending (s : State) (r : Nat) (mv : PinMv) (v : Bool) : (State.ruleInput s r mv v).pending = s.pending := by unfold State.ruleInput; simp

@[simp] theorem State.miHeld_pending (s : State) (p mv : Nat) : (State.miHeld s p mv).pending = s.pending := by unfold State.miHeld; simp

@[simp] theorem State.onPin_pending (s : State) (p : Nat) (l : List Nat) (f : State → State) (hf : ∀ s0, (f s0).pending = s0.pending) : (State.onPin s p l f).pending = s.pending := by
  unfold State.onPin
  first
    | with_reducible rfl
    | (simp; done)
    | (repeat'
        first
          | with_reducible rfl
          | (simp; done)
          | (simp_all; done)
          | (intro _)
          | (dsimp only)
          | split
          | (rename_i heq; obtain ⟨rfl, rfl⟩ := Prod.ext_iff.1 heq)
          | refine (State.each_pending _ _ _ ?_).trans ?_)

@[simp] theorem State.taskRelease_pending (s : State) (k : Nat) : (State.taskRelease s k).pending = s.pending := by unfold State.taskRelease; simp

@[simp] theorem State.instanceLimit_pending (s : State) (l : Nat) : (State.instanceLimit s l).pending = s.pending := by unfold State.instanceLimit; split <;> simp

@[simp] theorem State.commitNext_pending (s : State) (resp : Nat) : (State.commitNext s resp).pending = s.pending := by unfold State.commitNext; split <;> simp

@[simp] theorem State.errorRelease_pending (s : State) : (State.errorRelease s).pending = s.pending := by unfold State.errorRelease; simp

@[simp] theorem State.initEnd_pending (s : State) : (State.initEnd s).pending = s.pending := by unfold State.initEnd; simp

@[simp] theorem State.saveDone_pending (s : State) : (State.saveDone s).pending = s.pending := by unfold State.saveDone; split <;> simp

@[simp] theorem State.onLane_pending (s : State) (l w : Nat) (f : State → Nat → State) (hf : ∀ s0 x1, (f s0 x1).pending = s0.pending) : (State.onLane s l w f).pending = s.pending := by
  unfold State.onLane
  first
    | with_reducible rfl
    | (simp; done)
    | (repeat'
        first
          | with_reducible rfl
          | (simp; done)
          | (simp_all; done)
          | (intro _)
          | (dsimp only)
          | split
          | (rename_i heq; obtain ⟨rfl, rfl⟩ := Prod.ext_iff.1 heq)
          | refine (State.each_pending _ _ _ ?_).trans ?_)

@[simp] theorem State.goto__pending (s : State) (k pc cost : Nat) : (State.goto_ s k pc cost).pending = s.pending := by unfold State.goto_; simp

@[simp] theorem State.setF_pending (s : State) (k : Nat) (b : Bool) : (State.setF s k b).pending = s.pending := by unfold State.setF; simp

@[simp] theorem State.laneOp_pending (s : State) (l w : Nat) (c : OpCond) (cost : Nat) (f : State → Nat → State) (hf : ∀ s0 x1, (f s0 x1).pending = s0.pending) : (State.laneOp s l w c cost f).pending = s.pending := by
  unfold State.laneOp
  first
    | with_reducible rfl
    | (simp; done)
    | (repeat'
        first
          | with_reducible rfl
          | (simp; done)
          | (simp_all; done)
          | (intro _)
          | (dsimp only)
          | split
          | (rename_i heq; obtain ⟨rfl, rfl⟩ := Prod.ext_iff.1 heq)
          | refine (State.each_pending _ _ _ ?_).trans ?_)

@[simp] theorem State.alu_pending (s : State) (l w : Nat) (c : OpCond) (cost : Nat) (d a : BitVec 14) (b : OpSrc) (g : Word → Word → Word) : (State.alu s l w c cost d a b g).pending = s.pending := by unfold State.alu; simp

@[simp] theorem State.alu1_pending (s : State) (l w : Nat) (c : OpCond) (cost : Nat) (d a : BitVec 14) (g : Word → Word) : (State.alu1 s l w c cost d a g).pending = s.pending := by unfold State.alu1; simp

@[simp] theorem State.cmp_pending (s : State) (l w : Nat) (c : OpCond) (a : BitVec 14) (b : OpSrc) (g : Word → Word → Bool) : (State.cmp s l w c a b g).pending = s.pending := by unfold State.cmp; simp

@[simp] theorem State.bitF_pending (s : State) (l w : Nat) (c : OpCond) (a : BitVec 14) (bit : BitVec 5) (g : Bool → Bool → Bool) : (State.bitF s l w c a bit g).pending = s.pending := by unfold State.bitF; simp

@[simp] theorem State.bitD_pending (s : State) (l w : Nat) (c : OpCond) (d : BitVec 14) (bit : BitVec 5) (g : Bool → Bool → Bool) : (State.bitD s l w c d bit g).pending = s.pending := by unfold State.bitD; simp

@[simp] theorem State.divide_pending (s : State) (l w : Nat) (c : OpCond) (d a : BitVec 14) (b : OpSrc) (g : Word → Word → Word) : (State.divide s l w c d a b g).pending = s.pending := by unfold State.divide; simp

@[simp] theorem State.edgeOp_pending (s : State) (l w : Nat) (d : BitVec 14) (g : Bool → Bool → Bool) : (State.edgeOp s l w d g).pending = s.pending := by unfold State.edgeOp; simp

@[simp] theorem State.writeIf_pending (s : State) (k n : Nat) (v : Option Word) : (State.writeIf s k n v).pending = s.pending := by unfold State.writeIf; split <;> simp

@[simp] theorem State.timerOp_pending (s : State) (l w : Nat) (d a : BitVec 14) (g : TimerBlk → Bool → Word → Word → TimerNew) : (State.timerOp s l w d a g).pending = s.pending := by unfold State.timerOp; simp

@[simp] theorem State.counterOp_pending (s : State) (l w : Nat) (d a : BitVec 14) (b : Nat) (step : Int → Int) (done : Int → Int → Bool) : (State.counterOp s l w d a b step done).pending = s.pending := by unfold State.counterOp; simp

@[simp] theorem State.jump_pending (s : State) (l w : Nat) (t : BitVec 16) (taken : Bool → Bool) : (State.jump s l w t taken).pending = s.pending := by unfold State.jump; simp

@[simp] theorem State.retOp_pending (s : State) (l w : Nat) : (State.retOp s l w).pending = s.pending := by
  unfold State.retOp
  refine State.onLane_pending _ _ _ _ ?_
  intro s k
  split <;> simp

@[simp] theorem State.stnAllowance_pending (s : State) (n : Nat) : (State.stnAllowance s n).pending = s.pending := by unfold State.stnAllowance; simp

@[simp] theorem State.stnTimeout_pending (s : State) (k : Nat) : (State.stnTimeout s k).pending = s.pending := by unfold State.stnTimeout; simp

@[simp] theorem State.changeTimeout_pending (s : State) (cp : Nat) : (State.changeTimeout s cp).pending = s.pending := by unfold State.changeTimeout; simp

@[simp] theorem State.queueRelease_pending (s : State) (l : List QEntry) : (State.queueRelease s l).pending = s.pending := by unfold State.queueRelease; simp

@[simp] theorem State.copyADone_pending (s : State) (r : CopyRec) : (State.copyADone s r).pending = s.pending := by unfold State.copyADone; simp

@[simp] theorem State.sliceDone_pending (s : State) (l : List QEntry) (odd : Nat) : (State.sliceDone s l odd).pending = s.pending := by unfold State.sliceDone; simp

@[simp] theorem State.copyBDone_pending (s : State) (r : CopyRec) : (State.copyBDone s r).pending = s.pending := by unfold State.copyBDone; split <;> simp

@[simp] theorem State.copyCDone_pending (s : State) (r : CopyRec) : (State.copyCDone s r).pending = s.pending := by unfold State.copyCDone; split <;> simp

@[simp] theorem State.resyncDone_pending (s : State) : (State.resyncDone s).pending = s.pending := by unfold State.resyncDone; simp

@[simp] theorem State.selfTestDone_pending (s : State) (lanes : Nat) (sigFail : Bool) : (State.selfTestDone s lanes sigFail).pending = s.pending := by unfold State.selfTestDone; simp

@[simp] theorem State.egressPick_pending (s : State) (p sent : Nat) (deferred : Bool) : (State.egressPick s p sent deferred).pending = s.pending := by unfold State.egressPick; simp

@[simp] theorem State.egressEnd_pending (s : State) (p c : Nat) : (State.egressEnd s p c).pending = s.pending := by unfold State.egressEnd; simp

@[simp] theorem State.onList_pending (s : State) (l : ListRef) (f : State → Nat → Nat → State) (hf : ∀ s0 x1 x2, (f s0 x1 x2).pending = s0.pending) : (State.onList s l f).pending = s.pending := by
  unfold State.onList
  first
    | with_reducible rfl
    | (simp; done)
    | (repeat'
        first
          | with_reducible rfl
          | (simp; done)
          | (simp_all; done)
          | (intro _)
          | (dsimp only)
          | split
          | (rename_i heq; obtain ⟨rfl, rfl⟩ := Prod.ext_iff.1 heq)
          | refine (State.each_pending _ _ _ ?_).trans ?_)

@[simp] theorem State.onPort_pending (s : State) (p : Nat) (f : State → State) (hf : ∀ s0, (f s0).pending = s0.pending) : (State.onPort s p f).pending = s.pending := by
  unfold State.onPort
  first
    | with_reducible rfl
    | (simp; done)
    | (repeat'
        first
          | with_reducible rfl
          | (simp; done)
          | (simp_all; done)
          | (intro _)
          | (dsimp only)
          | split
          | (rename_i heq; obtain ⟨rfl, rfl⟩ := Prod.ext_iff.1 heq)
          | refine (State.each_pending _ _ _ ?_).trans ?_)

@[simp] theorem State.ethWake_pending (s : State) (p : Nat) (l : List Nat) : (State.ethWake s p l).pending = s.pending := by unfold State.ethWake; (repeat' split) <;> simp

@[simp] theorem State.frameIn_pending (s : State) (p : Nat) (l : List Nat) (kind : RxKind) (frags : Nat) : (State.frameIn s p l kind frags).pending = s.pending := by unfold State.frameIn; simp

@[simp] theorem State.refMessage_pending (s : State) (data : List Nat) (ago : Nat) : (State.refMessage s data ago).pending = s.pending := by unfold State.refMessage; simp

@[simp] theorem State.onCan_pending (s : State) (k : Nat) (f : State → State) (hf : ∀ s0, (f s0).pending = s0.pending) : (State.onCan s k f).pending = s.pending := by
  unfold State.onCan
  first
    | with_reducible rfl
    | (simp; done)
    | (repeat'
        first
          | with_reducible rfl
          | (simp; done)
          | (simp_all; done)
          | (intro _)
          | (dsimp only)
          | split
          | (rename_i heq; obtain ⟨rfl, rfl⟩ := Prod.ext_iff.1 heq)
          | refine (State.each_pending _ _ _ ?_).trans ?_)

@[simp] theorem State.canWake_pending (s : State) (k : Nat) : (State.canWake s k).pending = s.pending := by unfold State.canWake; simp

@[simp] theorem State.failWrite_pending (s : State) (d : Nat) (src unit addr cause data : Nat) : (State.failWrite s d src unit addr cause data).pending = s.pending := by unfold State.failWrite; simp

@[simp] theorem State.squashHosts_pending (s : State) : (State.squashHosts s).pending = s.pending := by unfold State.squashHosts; simp

@[simp] theorem State.vfClear_pending (s : State) : (State.vfClear s).pending = s.pending := by unfold State.vfClear; simp

@[simp] theorem State.flr_pending (s : State) (f : Nat) : (State.flr s f).pending = s.pending := by unfold State.flr; simp

@[simp] theorem State.reserving_pending (s : State) (c : DbgTarget) (virt : Bool) (addr : Nat) (op : AccOp) (x : Nat) : (State.reserving s c virt addr op x).pending = s.pending := by unfold State.reserving; split <;> simp

@[simp] theorem State.lineExpire_pending (s : State) (i : Nat) : (State.lineExpire s i).pending = s.pending := by unfold State.lineExpire; split <;> simp

@[simp] theorem State.readFailure_pending (s : State) (r cause va : Nat) : (State.readFailure s r cause va).pending = s.pending := by unfold State.readFailure; split <;> simp

@[simp] theorem State.hartAt_pending (s : State) (h : Nat) (c : HartCtx) : (State.hartAt s h c).pending = s.pending := by unfold State.hartAt; simp

@[simp] theorem State.restartAt_pending (s : State) (c : HartCtx) : (State.restartAt s c).pending = s.pending := by unfold State.restartAt; simp

@[simp] theorem State.tillStep_pending (s : State) (op : Nat) (h : HostMem) : (State.tillStep s op h).pending = s.pending := by unfold State.tillStep; simp

@[simp] theorem State.updStep_pending (s : State) (op : Nat) (nandErr : Bool) : (State.updStep s op nandErr).pending = s.pending := by unfold State.updStep; simp

@[simp] theorem State.hardShortPassed_pending (s : State) (c : Nat) : (State.hardShortPassed s c).pending = s.pending := by unfold State.hardShortPassed; simp

@[simp] theorem State.scrub_pending (s : State) (u : Nat) (x : ScrubFind) : (State.scrub s u x).pending = s.pending := by unfold State.scrub; (repeat' split) <;> simp

@[simp] theorem State.lmemBad_pending (s : State) (m : Master) (addr : Nat) (op : AccOp) : (State.lmemBad s m addr op).pending = s.pending := by unfold State.lmemBad; split <;> simp

@[simp] theorem State.sramBad_pending (s : State) (m : Master) (addr size : Nat) (op : AccOp) (data : Nat) : (State.sramBad s m addr size op data).pending = s.pending := by unfold State.sramBad; simp

end Sys2Proof.Machine
end

