-- ==== Sys2Proof/Laws/Shared.lean ====
section
/-! SUPPORT. Everything the operations that all units share can do: the parts of the state each one changes, and the registers it leaves. -/

namespace Sys2Proof.Machine

/-- What every update of a fold leaves, the fold leaves. -/
theorem State.each_inv {α β : Type} (g : State → β) (l : List α) (f : State → α → State) (s : State) (h : ∀ s x, g (f s x) = g s) :
    g (s.each l f) = g s := by
  induction l generalizing s with
  | nil => rfl
  | cons x l ih => exact (ih (f s x)).trans (h s x)

theorem State.each_nil {α : Type} (s : State) (f : State → α → State) : s.each [] f = s := rfl
theorem State.each_cons {α : Type} (s : State) (x : α) (l : List α) (f : State → α → State) : s.each (x :: l) f = (f s x).each l f := rfl

/-! Plain counters and bits -/

theorem State.bump_get_ne (s : State) (x y : Fld) (n i j cp i' j' cp' : Nat) (h : y.reg.ctorIdx ≠ x.reg.ctorIdx) :
    (s.bump x n i j cp).get y i' j' cp' = s.get y i' j' cp' := State.get_put_reg _ _ _ _ _ _ _ _ _ _ h

theorem State.incr_get_ne (s : State) (x y : Fld) (i j cp i' j' cp' : Nat) (h : y.reg.ctorIdx ≠ x.reg.ctorIdx) :
    (s.incr x i j cp).get y i' j' cp' = s.get y i' j' cp' := State.get_put_reg _ _ _ _ _ _ _ _ _ _ h

/-- A write of one register leaves the others. -/
theorem State.store_get_ne (s : State) (r : RegId) (w i j cp : Nat) (y : Fld) (i' j' cp' : Nat) (h : y.reg.ctorIdx ≠ r.ctorIdx) :
    (s.store r w i j cp).get y i' j' cp' = s.get y i' j' cp' := by
  unfold State.get State.store
  rw [regGet_put_key _ _ _ _ _ _ _ _ _ _ (keyOf_ne _ _ _ _ _ _ _ _ h)]

/-- An answer leaves every register. -/
theorem State.answer_get (s : State) (ok : Bool) (d : Nat) (y : Fld) (i j cp : Nat) : (s.answer ok d).get y i j cp = s.get y i j cp := rfl

/-! `flushStart` -/

theorem State.flushStart_eq (s : State) : s.flushStart = { s with regs := (s.flushStart).regs } := by
  unfold State.flushStart; split <;> rfl

@[simp] theorem State.flushStart_img (s : State) : (s.flushStart).img = s.img := by rw [State.flushStart_eq]
@[simp] theorem State.flushStart_fab (s : State) : (s.flushStart).fab = s.fab := by rw [State.flushStart_eq]
@[simp] theorem State.flushStart_drw (s : State) : (s.flushStart).drw = s.drw := by rw [State.flushStart_eq]
@[simp] theorem State.flushStart_recd (s : State) : (s.flushStart).recd = s.recd := by rw [State.flushStart_eq]
@[simp] theorem State.flushStart_ztm (s : State) : (s.flushStart).ztm = s.ztm := by rw [State.flushStart_eq]
@[simp] theorem State.flushStart_load (s : State) : (s.flushStart).load = s.load := by rw [State.flushStart_eq]
@[simp] theorem State.flushStart_flt (s : State) : (s.flushStart).flt = s.flt := by rw [State.flushStart_eq]
@[simp] theorem State.flushStart_pins (s : State) : (s.flushStart).pins = s.pins := by rw [State.flushStart_eq]
@[simp] theorem State.flushStart_front (s : State) : (s.flushStart).front = s.front := by rw [State.flushStart_eq]
@[simp] theorem State.flushStart_latchedRules (s : State) : (s.flushStart).latchedRules = s.latchedRules := by rw [State.flushStart_eq]
@[simp] theorem State.flushStart_lth (s : State) : (s.flushStart).lth = s.lth := by rw [State.flushStart_eq]
@[simp] theorem State.flushStart_canLthQ (s : State) : (s.flushStart).canLthQ = s.canLthQ := by rw [State.flushStart_eq]
@[simp] theorem State.flushStart_can (s : State) : (s.flushStart).can = s.can := by rw [State.flushStart_eq]
@[simp] theorem State.flushStart_emitted (s : State) : (s.flushStart).emitted = s.emitted := by rw [State.flushStart_eq]
@[simp] theorem State.flushStart_mtr (s : State) : (s.flushStart).mtr = s.mtr := by rw [State.flushStart_eq]
@[simp] theorem State.flushStart_ring (s : State) : (s.flushStart).ring = s.ring := by rw [State.flushStart_eq]
@[simp] theorem State.flushStart_ringSig (s : State) : (s.flushStart).ringSig = s.ringSig := by rw [State.flushStart_eq]
@[simp] theorem State.flushStart_seqs (s : State) : (s.flushStart).seqs = s.seqs := by rw [State.flushStart_eq]
@[simp] theorem State.flushStart_iom (s : State) : (s.flushStart).iom = s.iom := by rw [State.flushStart_eq]
@[simp] theorem State.flushStart_dvt (s : State) : (s.flushStart).dvt = s.dvt := by rw [State.flushStart_eq]
@[simp] theorem State.flushStart_port (s : State) : (s.flushStart).port = s.port := by rw [State.flushStart_eq]
@[simp] theorem State.flushStart_saKey (s : State) : (s.flushStart).saKey = s.saKey := by rw [State.flushStart_eq]
@[simp] theorem State.flushStart_hart (s : State) : (s.flushStart).hart = s.hart := by rw [State.flushStart_eq]
@[simp] theorem State.flushStart_wld (s : State) : (s.flushStart).wld = s.wld := by rw [State.flushStart_eq]
@[simp] theorem State.flushStart_dwl (s : State) : (s.flushStart).dwl = s.dwl := by rw [State.flushStart_eq]
@[simp] theorem State.flushStart_til (s : State) : (s.flushStart).til = s.til := by rw [State.flushStart_eq]
@[simp] theorem State.flushStart_upd (s : State) : (s.flushStart).upd = s.upd := by rw [State.flushStart_eq]
@[simp] theorem State.flushStart_start (s : State) : (s.flushStart).start = s.start := by rw [State.flushStart_eq]
@[simp] theorem State.flushStart_resp (s : State) : (s.flushStart).resp = s.resp := by rw [State.flushStart_eq]
@[simp] theorem State.flushStart_freeIx (s : State) : (s.flushStart).freeIx = s.freeIx := by rw [State.flushStart_eq]

/-- The registers it leaves. -/
theorem State.flushStart_get (s : State) (y : Fld) (i j cp : Nat) (h : (regDef y.reg).win ≠ .recw) :
    (s.flushStart).get y i j cp = s.get y i j cp := by
  unfold State.flushStart
  split <;> exact State.get_put_reg _ _ _ _ _ _ _ _ _ _ (ctorIdx_win _ _ h)

/-! `alarm` -/

theorem State.alarm_eq (s : State) (code unit detail drawer : Nat) : s.alarm code unit detail drawer = { s with regs := (s.alarm code unit detail drawer).regs, recd := (s.alarm code unit detail drawer).recd } := by
  unfold State.alarm
  split
  · rfl
  · rw [State.flushStart_eq]; rfl

@[simp] theorem State.alarm_img (s : State) (code unit detail drawer : Nat) : (s.alarm code unit detail drawer).img = s.img := by rw [State.alarm_eq]
@[simp] theorem State.alarm_fab (s : State) (code unit detail drawer : Nat) : (s.alarm code unit detail drawer).fab = s.fab := by rw [State.alarm_eq]
@[simp] theorem State.alarm_drw (s : State) (code unit detail drawer : Nat) : (s.alarm code unit detail drawer).drw = s.drw := by rw [State.alarm_eq]
@[simp] theorem State.alarm_ztm (s : State) (code unit detail drawer : Nat) : (s.alarm code unit detail drawer).ztm = s.ztm := by rw [State.alarm_eq]
@[simp] theorem State.alarm_load (s : State) (code unit detail drawer : Nat) : (s.alarm code unit detail drawer).load = s.load := by rw [State.alarm_eq]
@[simp] theorem State.alarm_flt (s : State) (code unit detail drawer : Nat) : (s.alarm code unit detail drawer).flt = s.flt := by rw [State.alarm_eq]
@[simp] theorem State.alarm_pins (s : State) (code unit detail drawer : Nat) : (s.alarm code unit detail drawer).pins = s.pins := by rw [State.alarm_eq]
@[simp] theorem State.alarm_front (s : State) (code unit detail drawer : Nat) : (s.alarm code unit detail drawer).front = s.front := by rw [State.alarm_eq]
@[simp] theorem State.alarm_latchedRules (s : State) (code unit detail drawer : Nat) : (s.alarm code unit detail drawer).latchedRules = s.latchedRules := by rw [State.alarm_eq]
@[simp] theorem State.alarm_lth (s : State) (code unit detail drawer : Nat) : (s.alarm code unit detail drawer).lth = s.lth := by rw [State.alarm_eq]
@[simp] theorem State.alarm_canLthQ (s : State) (code unit detail drawer : Nat) : (s.alarm code unit detail drawer).canLthQ = s.canLthQ := by rw [State.alarm_eq]
@[simp] theorem State.alarm_can (s : State) (code unit detail drawer : Nat) : (s.alarm code unit detail drawer).can = s.can := by rw [State.alarm_eq]
@[simp] theorem State.alarm_emitted (s : State) (code unit detail drawer : Nat) : (s.alarm code unit detail drawer).emitted = s.emitted := by rw [State.alarm_eq]
@[simp] theorem State.alarm_mtr (s : State) (code unit detail drawer : Nat) : (s.alarm code unit detail drawer).mtr = s.mtr := by rw [State.alarm_eq]
@[simp] theorem State.alarm_ring (s : State) (code unit detail drawer : Nat) : (s.alarm code unit detail drawer).ring = s.ring := by rw [State.alarm_eq]
@[simp] theorem State.alarm_ringSig (s : State) (code unit detail drawer : Nat) : (s.alarm code unit detail drawer).ringSig = s.ringSig := by rw [State.alarm_eq]
@[simp] theorem State.alarm_seqs (s : State) (code unit detail drawer : Nat) : (s.alarm code unit detail drawer).seqs = s.seqs := by rw [State.alarm_eq]
@[simp] theorem State.alarm_iom (s : State) (code unit detail drawer : Nat) : (s.alarm code unit detail drawer).iom = s.iom := by rw [State.alarm_eq]
@[simp] theorem State.alarm_dvt (s : State) (code unit detail drawer : Nat) : (s.alarm code unit detail drawer).dvt = s.dvt := by rw [State.alarm_eq]
@[simp] theorem State.alarm_port (s : State) (code unit detail drawer : Nat) : (s.alarm code unit detail drawer).port = s.port := by rw [State.alarm_eq]
@[simp] theorem State.alarm_saKey (s : State) (code unit detail drawer : Nat) : (s.alarm code unit detail drawer).saKey = s.saKey := by rw [State.alarm_eq]
@[simp] theorem State.alarm_hart (s : State) (code unit detail drawer : Nat) : (s.alarm code unit detail drawer).hart = s.hart := by rw [State.alarm_eq]
@[simp] theorem State.alarm_wld (s : State) (code unit detail drawer : Nat) : (s.alarm code unit detail drawer).wld = s.wld := by rw [State.alarm_eq]
@[simp] theorem State.alarm_dwl (s : State) (code unit detail drawer : Nat) : (s.alarm code unit detail drawer).dwl = s.dwl := by rw [State.alarm_eq]
@[simp] theorem State.alarm_til (s : State) (code unit detail drawer : Nat) : (s.alarm code unit detail drawer).til = s.til := by rw [State.alarm_eq]
@[simp] theorem State.alarm_upd (s : State) (code unit detail drawer : Nat) : (s.alarm code unit detail drawer).upd = s.upd := by rw [State.alarm_eq]
@[simp] theorem State.alarm_start (s : State) (code unit detail drawer : Nat) : (s.alarm code unit detail drawer).start = s.start := by rw [State.alarm_eq]
@[simp] theorem State.alarm_resp (s : State) (code unit detail drawer : Nat) : (s.alarm code unit detail drawer).resp = s.resp := by rw [State.alarm_eq]
@[simp] theorem State.alarm_freeIx (s : State) (code unit detail drawer : Nat) : (s.alarm code unit detail drawer).freeIx = s.freeIx := by rw [State.alarm_eq]

/-- The registers it leaves. -/
theorem State.alarm_get (s : State) (code unit detail drawer : Nat) (y : Fld) (i j cp : Nat) (h : (regDef y.reg).win ≠ .recw) :
    (s.alarm code unit detail drawer).get y i j cp = s.get y i j cp := by
  unfold State.alarm
  split
  · rfl
  · rw [State.flushStart_get _ _ _ _ _ h]
    exact State.get_put_reg _ _ _ _ _ _ _ _ _ _ (ctorIdx_win _ _ h)

/-! `bumpFor` -/

theorem State.bumpFor_eq (s : State) (d : Nat) (x : Fld) : s.bumpFor d x = { s with regs := (s.bumpFor d x).regs } := by
  unfold State.bumpFor cpsOf; split <;> rfl

@[simp] theorem State.bumpFor_img (s : State) (d : Nat) (x : Fld) : (s.bumpFor d x).img = s.img := by rw [State.bumpFor_eq]
@[simp] theorem State.bumpFor_fab (s : State) (d : Nat) (x : Fld) : (s.bumpFor d x).fab = s.fab := by rw [State.bumpFor_eq]
@[simp] theorem State.bumpFor_drw (s : State) (d : Nat) (x : Fld) : (s.bumpFor d x).drw = s.drw := by rw [State.bumpFor_eq]
@[simp] theorem State.bumpFor_recd (s : State) (d : Nat) (x : Fld) : (s.bumpFor d x).recd = s.recd := by rw [State.bumpFor_eq]
@[simp] theorem State.bumpFor_ztm (s : State) (d : Nat) (x : Fld) : (s.bumpFor d x).ztm = s.ztm := by rw [State.bumpFor_eq]
@[simp] theorem State.bumpFor_load (s : State) (d : Nat) (x : Fld) : (s.bumpFor d x).load = s.load := by rw [State.bumpFor_eq]
@[simp] theorem State.bumpFor_flt (s : State) (d : Nat) (x : Fld) : (s.bumpFor d x).flt = s.flt := by rw [State.bumpFor_eq]
@[simp] theorem State.bumpFor_pins (s : State) (d : Nat) (x : Fld) : (s.bumpFor d x).pins = s.pins := by rw [State.bumpFor_eq]
@[simp] theorem State.bumpFor_front (s : State) (d : Nat) (x : Fld) : (s.bumpFor d x).front = s.front := by rw [State.bumpFor_eq]
@[simp] theorem State.bumpFor_latchedRules (s : State) (d : Nat) (x : Fld) : (s.bumpFor d x).latchedRules = s.latchedRules := by rw [State.bumpFor_eq]
@[simp] theorem State.bumpFor_lth (s : State) (d : Nat) (x : Fld) : (s.bumpFor d x).lth = s.lth := by rw [State.bumpFor_eq]
@[simp] theorem State.bumpFor_canLthQ (s : State) (d : Nat) (x : Fld) : (s.bumpFor d x).canLthQ = s.canLthQ := by rw [State.bumpFor_eq]
@[simp] theorem State.bumpFor_can (s : State) (d : Nat) (x : Fld) : (s.bumpFor d x).can = s.can := by rw [State.bumpFor_eq]
@[simp] theorem State.bumpFor_emitted (s : State) (d : Nat) (x : Fld) : (s.bumpFor d x).emitted = s.emitted := by rw [State.bumpFor_eq]
@[simp] theorem State.bumpFor_mtr (s : State) (d : Nat) (x : Fld) : (s.bumpFor d x).mtr = s.mtr := by rw [State.bumpFor_eq]
@[simp] theorem State.bumpFor_ring (s : State) (d : Nat) (x : Fld) : (s.bumpFor d x).ring = s.ring := by rw [State.bumpFor_eq]
@[simp] theorem State.bumpFor_ringSig (s : State) (d : Nat) (x : Fld) : (s.bumpFor d x).ringSig = s.ringSig := by rw [State.bumpFor_eq]
@[simp] theorem State.bumpFor_seqs (s : State) (d : Nat) (x : Fld) : (s.bumpFor d x).seqs = s.seqs := by rw [State.bumpFor_eq]
@[simp] theorem State.bumpFor_iom (s : State) (d : Nat) (x : Fld) : (s.bumpFor d x).iom = s.iom := by rw [State.bumpFor_eq]
@[simp] theorem State.bumpFor_dvt (s : State) (d : Nat) (x : Fld) : (s.bumpFor d x).dvt = s.dvt := by rw [State.bumpFor_eq]
@[simp] theorem State.bumpFor_port (s : State) (d : Nat) (x : Fld) : (s.bumpFor d x).port = s.port := by rw [State.bumpFor_eq]
@[simp] theorem State.bumpFor_saKey (s : State) (d : Nat) (x : Fld) : (s.bumpFor d x).saKey = s.saKey := by rw [State.bumpFor_eq]
@[simp] theorem State.bumpFor_hart (s : State) (d : Nat) (x : Fld) : (s.bumpFor d x).hart = s.hart := by rw [State.bumpFor_eq]
@[simp] theorem State.bumpFor_wld (s : State) (d : Nat) (x : Fld) : (s.bumpFor d x).wld = s.wld := by rw [State.bumpFor_eq]
@[simp] theorem State.bumpFor_dwl (s : State) (d : Nat) (x : Fld) : (s.bumpFor d x).dwl = s.dwl := by rw [State.bumpFor_eq]
@[simp] theorem State.bumpFor_til (s : State) (d : Nat) (x : Fld) : (s.bumpFor d x).til = s.til := by rw [State.bumpFor_eq]
@[simp] theorem State.bumpFor_upd (s : State) (d : Nat) (x : Fld) : (s.bumpFor d x).upd = s.upd := by rw [State.bumpFor_eq]
@[simp] theorem State.bumpFor_start (s : State) (d : Nat) (x : Fld) : (s.bumpFor d x).start = s.start := by rw [State.bumpFor_eq]
@[simp] theorem State.bumpFor_resp (s : State) (d : Nat) (x : Fld) : (s.bumpFor d x).resp = s.resp := by rw [State.bumpFor_eq]
@[simp] theorem State.bumpFor_freeIx (s : State) (d : Nat) (x : Fld) : (s.bumpFor d x).freeIx = s.freeIx := by rw [State.bumpFor_eq]

/-- The registers it leaves. -/
theorem State.bumpFor_get (s : State) (d : Nat) (x : Fld) (y : Fld) (i j cp : Nat) (h : y.reg.ctorIdx ≠ x.reg.ctorIdx) :
    (s.bumpFor d x).get y i j cp = s.get y i j cp := by
  unfold State.bumpFor
  exact State.each_inv (fun t => t.get y i j cp) _ _ _ fun t c => State.bump_get_ne _ _ _ _ _ _ _ _ _ _ h

/-! `putFor` -/

theorem State.putFor_eq (s : State) (d : Nat) (x : Fld) (v : Nat) : s.putFor d x v = { s with regs := (s.putFor d x v).regs } := by
  unfold State.putFor cpsOf; split <;> rfl

@[simp] theorem State.putFor_img (s : State) (d : Nat) (x : Fld) (v : Nat) : (s.putFor d x v).img = s.img := by rw [State.putFor_eq]
@[simp] theorem State.putFor_fab (s : State) (d : Nat) (x : Fld) (v : Nat) : (s.putFor d x v).fab = s.fab := by rw [State.putFor_eq]
@[simp] theorem State.putFor_drw (s : State) (d : Nat) (x : Fld) (v : Nat) : (s.putFor d x v).drw = s.drw := by rw [State.putFor_eq]
@[simp] theorem State.putFor_recd (s : State) (d : Nat) (x : Fld) (v : Nat) : (s.putFor d x v).recd = s.recd := by rw [State.putFor_eq]
@[simp] theorem State.putFor_ztm (s : State) (d : Nat) (x : Fld) (v : Nat) : (s.putFor d x v).ztm = s.ztm := by rw [State.putFor_eq]
@[simp] theorem State.putFor_load (s : State) (d : Nat) (x : Fld) (v : Nat) : (s.putFor d x v).load = s.load := by rw [State.putFor_eq]
@[simp] theorem State.putFor_flt (s : State) (d : Nat) (x : Fld) (v : Nat) : (s.putFor d x v).flt = s.flt := by rw [State.putFor_eq]
@[simp] theorem State.putFor_pins (s : State) (d : Nat) (x : Fld) (v : Nat) : (s.putFor d x v).pins = s.pins := by rw [State.putFor_eq]
@[simp] theorem State.putFor_front (s : State) (d : Nat) (x : Fld) (v : Nat) : (s.putFor d x v).front = s.front := by rw [State.putFor_eq]
@[simp] theorem State.putFor_latchedRules (s : State) (d : Nat) (x : Fld) (v : Nat) : (s.putFor d x v).latchedRules = s.latchedRules := by rw [State.putFor_eq]
@[simp] theorem State.putFor_lth (s : State) (d : Nat) (x : Fld) (v : Nat) : (s.putFor d x v).lth = s.lth := by rw [State.putFor_eq]
@[simp] theorem State.putFor_canLthQ (s : State) (d : Nat) (x : Fld) (v : Nat) : (s.putFor d x v).canLthQ = s.canLthQ := by rw [State.putFor_eq]
@[simp] theorem State.putFor_can (s : State) (d : Nat) (x : Fld) (v : Nat) : (s.putFor d x v).can = s.can := by rw [State.putFor_eq]
@[simp] theorem State.putFor_emitted (s : State) (d : Nat) (x : Fld) (v : Nat) : (s.putFor d x v).emitted = s.emitted := by rw [State.putFor_eq]
@[simp] theorem State.putFor_mtr (s : State) (d : Nat) (x : Fld) (v : Nat) : (s.putFor d x v).mtr = s.mtr := by rw [State.putFor_eq]
@[simp] theorem State.putFor_ring (s : State) (d : Nat) (x : Fld) (v : Nat) : (s.putFor d x v).ring = s.ring := by rw [State.putFor_eq]
@[simp] theorem State.putFor_ringSig (s : State) (d : Nat) (x : Fld) (v : Nat) : (s.putFor d x v).ringSig = s.ringSig := by rw [State.putFor_eq]
@[simp] theorem State.putFor_seqs (s : State) (d : Nat) (x : Fld) (v : Nat) : (s.putFor d x v).seqs = s.seqs := by rw [State.putFor_eq]
@[simp] theorem State.putFor_iom (s : State) (d : Nat) (x : Fld) (v : Nat) : (s.putFor d x v).iom = s.iom := by rw [State.putFor_eq]
@[simp] theorem State.putFor_dvt (s : State) (d : Nat) (x : Fld) (v : Nat) : (s.putFor d x v).dvt = s.dvt := by rw [State.putFor_eq]
@[simp] theorem State.putFor_port (s : State) (d : Nat) (x : Fld) (v : Nat) : (s.putFor d x v).port = s.port := by rw [State.putFor_eq]
@[simp] theorem State.putFor_saKey (s : State) (d : Nat) (x : Fld) (v : Nat) : (s.putFor d x v).saKey = s.saKey := by rw [State.putFor_eq]
@[simp] theorem State.putFor_hart (s : State) (d : Nat) (x : Fld) (v : Nat) : (s.putFor d x v).hart = s.hart := by rw [State.putFor_eq]
@[simp] theorem State.putFor_wld (s : State) (d : Nat) (x : Fld) (v : Nat) : (s.putFor d x v).wld = s.wld := by rw [State.putFor_eq]
@[simp] theorem State.putFor_dwl (s : State) (d : Nat) (x : Fld) (v : Nat) : (s.putFor d x v).dwl = s.dwl := by rw [State.putFor_eq]
@[simp] theorem State.putFor_til (s : State) (d : Nat) (x : Fld) (v : Nat) : (s.putFor d x v).til = s.til := by rw [State.putFor_eq]
@[simp] theorem State.putFor_upd (s : State) (d : Nat) (x : Fld) (v : Nat) : (s.putFor d x v).upd = s.upd := by rw [State.putFor_eq]
@[simp] theorem State.putFor_start (s : State) (d : Nat) (x : Fld) (v : Nat) : (s.putFor d x v).start = s.start := by rw [State.putFor_eq]
@[simp] theorem State.putFor_resp (s : State) (d : Nat) (x : Fld) (v : Nat) : (s.putFor d x v).resp = s.resp := by rw [State.putFor_eq]
@[simp] theorem State.putFor_freeIx (s : State) (d : Nat) (x : Fld) (v : Nat) : (s.putFor d x v).freeIx = s.freeIx := by rw [State.putFor_eq]

/-- The registers it leaves. -/
theorem State.putFor_get (s : State) (d : Nat) (x : Fld) (v : Nat) (y : Fld) (i j cp : Nat) (h : y.reg.ctorIdx ≠ x.reg.ctorIdx) :
    (s.putFor d x v).get y i j cp = s.get y i j cp := by
  unfold State.putFor
  exact State.each_inv (fun t => t.get y i j cp) _ _ _ fun t c => State.get_put_reg _ _ _ _ _ _ _ _ _ _ h

/-! `loseLog` -/

theorem State.loseLog_eq (s : State) (d n : Nat) : s.loseLog d n = { s with regs := (s.loseLog d n).regs, recd := (s.loseLog d n).recd } := by
  unfold State.loseLog; dsimp only; rw [State.bumpFor_eq]

@[simp] theorem State.loseLog_img (s : State) (d n : Nat) : (s.loseLog d n).img = s.img := by rw [State.loseLog_eq]
@[simp] theorem State.loseLog_fab (s : State) (d n : Nat) : (s.loseLog d n).fab = s.fab := by rw [State.loseLog_eq]
@[simp] theorem State.loseLog_drw (s : State) (d n : Nat) : (s.loseLog d n).drw = s.drw := by rw [State.loseLog_eq]
@[simp] theorem State.loseLog_ztm (s : State) (d n : Nat) : (s.loseLog d n).ztm = s.ztm := by rw [State.loseLog_eq]
@[simp] theorem State.loseLog_load (s : State) (d n : Nat) : (s.loseLog d n).load = s.load := by rw [State.loseLog_eq]
@[simp] theorem State.loseLog_flt (s : State) (d n : Nat) : (s.loseLog d n).flt = s.flt := by rw [State.loseLog_eq]
@[simp] theorem State.loseLog_pins (s : State) (d n : Nat) : (s.loseLog d n).pins = s.pins := by rw [State.loseLog_eq]
@[simp] theorem State.loseLog_front (s : State) (d n : Nat) : (s.loseLog d n).front = s.front := by rw [State.loseLog_eq]
@[simp] theorem State.loseLog_latchedRules (s : State) (d n : Nat) : (s.loseLog d n).latchedRules = s.latchedRules := by rw [State.loseLog_eq]
@[simp] theorem State.loseLog_lth (s : State) (d n : Nat) : (s.loseLog d n).lth = s.lth := by rw [State.loseLog_eq]
@[simp] theorem State.loseLog_canLthQ (s : State) (d n : Nat) : (s.loseLog d n).canLthQ = s.canLthQ := by rw [State.loseLog_eq]
@[simp] theorem State.loseLog_can (s : State) (d n : Nat) : (s.loseLog d n).can = s.can := by rw [State.loseLog_eq]
@[simp] theorem State.loseLog_emitted (s : State) (d n : Nat) : (s.loseLog d n).emitted = s.emitted := by rw [State.loseLog_eq]
@[simp] theorem State.loseLog_mtr (s : State) (d n : Nat) : (s.loseLog d n).mtr = s.mtr := by rw [State.loseLog_eq]
@[simp] theorem State.loseLog_ring (s : State) (d n : Nat) : (s.loseLog d n).ring = s.ring := by rw [State.loseLog_eq]
@[simp] theorem State.loseLog_ringSig (s : State) (d n : Nat) : (s.loseLog d n).ringSig = s.ringSig := by rw [State.loseLog_eq]
@[simp] theorem State.loseLog_seqs (s : State) (d n : Nat) : (s.loseLog d n).seqs = s.seqs := by rw [State.loseLog_eq]
@[simp] theorem State.loseLog_iom (s : State) (d n : Nat) : (s.loseLog d n).iom = s.iom := by rw [State.loseLog_eq]
@[simp] theorem State.loseLog_dvt (s : State) (d n : Nat) : (s.loseLog d n).dvt = s.dvt := by rw [State.loseLog_eq]
@[simp] theorem State.loseLog_port (s : State) (d n : Nat) : (s.loseLog d n).port = s.port := by rw [State.loseLog_eq]
@[simp] theorem State.loseLog_saKey (s : State) (d n : Nat) : (s.loseLog d n).saKey = s.saKey := by rw [State.loseLog_eq]
@[simp] theorem State.loseLog_hart (s : State) (d n : Nat) : (s.loseLog d n).hart = s.hart := by rw [State.loseLog_eq]
@[simp] theorem State.loseLog_wld (s : State) (d n : Nat) : (s.loseLog d n).wld = s.wld := by rw [State.loseLog_eq]
@[simp] theorem State.loseLog_dwl (s : State) (d n : Nat) : (s.loseLog d n).dwl = s.dwl := by rw [State.loseLog_eq]
@[simp] theorem State.loseLog_til (s : State) (d n : Nat) : (s.loseLog d n).til = s.til := by rw [State.loseLog_eq]
@[simp] theorem State.loseLog_upd (s : State) (d n : Nat) : (s.loseLog d n).upd = s.upd := by rw [State.loseLog_eq]
@[simp] theorem State.loseLog_start (s : State) (d n : Nat) : (s.loseLog d n).start = s.start := by rw [State.loseLog_eq]
@[simp] theorem State.loseLog_resp (s : State) (d n : Nat) : (s.loseLog d n).resp = s.resp := by rw [State.loseLog_eq]
@[simp] theorem State.loseLog_freeIx (s : State) (d n : Nat) : (s.loseLog d n).freeIx = s.freeIx := by rw [State.loseLog_eq]

/-- The registers it leaves. -/
theorem State.loseLog_get (s : State) (d n : Nat) (y : Fld) (i j cp : Nat) (h : (regDef y.reg).win ≠ .recw) :
    (s.loseLog d n).get y i j cp = s.get y i j cp := by
  unfold State.loseLog
  dsimp only
  rw [State.bumpFor_get _ _ _ _ _ _ _ (ctorIdx_win _ _ h)]
  rfl

/-! `stageLost` -/

theorem State.stageLost_eq (s : State) (d : Nat) : s.stageLost d = { s with recd := (s.stageLost d).recd } := by
  unfold State.stageLost; dsimp only; split <;> rfl

@[simp] theorem State.stageLost_regs (s : State) (d : Nat) : (s.stageLost d).regs = s.regs := by rw [State.stageLost_eq]
@[simp] theorem State.stageLost_img (s : State) (d : Nat) : (s.stageLost d).img = s.img := by rw [State.stageLost_eq]
@[simp] theorem State.stageLost_fab (s : State) (d : Nat) : (s.stageLost d).fab = s.fab := by rw [State.stageLost_eq]
@[simp] theorem State.stageLost_drw (s : State) (d : Nat) : (s.stageLost d).drw = s.drw := by rw [State.stageLost_eq]
@[simp] theorem State.stageLost_ztm (s : State) (d : Nat) : (s.stageLost d).ztm = s.ztm := by rw [State.stageLost_eq]
@[simp] theorem State.stageLost_load (s : State) (d : Nat) : (s.stageLost d).load = s.load := by rw [State.stageLost_eq]
@[simp] theorem State.stageLost_flt (s : State) (d : Nat) : (s.stageLost d).flt = s.flt := by rw [State.stageLost_eq]
@[simp] theorem State.stageLost_pins (s : State) (d : Nat) : (s.stageLost d).pins = s.pins := by rw [State.stageLost_eq]
@[simp] theorem State.stageLost_front (s : State) (d : Nat) : (s.stageLost d).front = s.front := by rw [State.stageLost_eq]
@[simp] theorem State.stageLost_latchedRules (s : State) (d : Nat) : (s.stageLost d).latchedRules = s.latchedRules := by rw [State.stageLost_eq]
@[simp] theorem State.stageLost_lth (s : State) (d : Nat) : (s.stageLost d).lth = s.lth := by rw [State.stageLost_eq]
@[simp] theorem State.stageLost_canLthQ (s : State) (d : Nat) : (s.stageLost d).canLthQ = s.canLthQ := by rw [State.stageLost_eq]
@[simp] theorem State.stageLost_can (s : State) (d : Nat) : (s.stageLost d).can = s.can := by rw [State.stageLost_eq]
@[simp] theorem State.stageLost_emitted (s : State) (d : Nat) : (s.stageLost d).emitted = s.emitted := by rw [State.stageLost_eq]
@[simp] theorem State.stageLost_mtr (s : State) (d : Nat) : (s.stageLost d).mtr = s.mtr := by rw [State.stageLost_eq]
@[simp] theorem State.stageLost_ring (s : State) (d : Nat) : (s.stageLost d).ring = s.ring := by rw [State.stageLost_eq]
@[simp] theorem State.stageLost_ringSig (s : State) (d : Nat) : (s.stageLost d).ringSig = s.ringSig := by rw [State.stageLost_eq]
@[simp] theorem State.stageLost_seqs (s : State) (d : Nat) : (s.stageLost d).seqs = s.seqs := by rw [State.stageLost_eq]
@[simp] theorem State.stageLost_iom (s : State) (d : Nat) : (s.stageLost d).iom = s.iom := by rw [State.stageLost_eq]
@[simp] theorem State.stageLost_dvt (s : State) (d : Nat) : (s.stageLost d).dvt = s.dvt := by rw [State.stageLost_eq]
@[simp] theorem State.stageLost_port (s : State) (d : Nat) : (s.stageLost d).port = s.port := by rw [State.stageLost_eq]
@[simp] theorem State.stageLost_saKey (s : State) (d : Nat) : (s.stageLost d).saKey = s.saKey := by rw [State.stageLost_eq]
@[simp] theorem State.stageLost_hart (s : State) (d : Nat) : (s.stageLost d).hart = s.hart := by rw [State.stageLost_eq]
@[simp] theorem State.stageLost_wld (s : State) (d : Nat) : (s.stageLost d).wld = s.wld := by rw [State.stageLost_eq]
@[simp] theorem State.stageLost_dwl (s : State) (d : Nat) : (s.stageLost d).dwl = s.dwl := by rw [State.stageLost_eq]
@[simp] theorem State.stageLost_til (s : State) (d : Nat) : (s.stageLost d).til = s.til := by rw [State.stageLost_eq]
@[simp] theorem State.stageLost_upd (s : State) (d : Nat) : (s.stageLost d).upd = s.upd := by rw [State.stageLost_eq]
@[simp] theorem State.stageLost_start (s : State) (d : Nat) : (s.stageLost d).start = s.start := by rw [State.stageLost_eq]
@[simp] theorem State.stageLost_resp (s : State) (d : Nat) : (s.stageLost d).resp = s.resp := by rw [State.stageLost_eq]
@[simp] theorem State.stageLost_freeIx (s : State) (d : Nat) : (s.stageLost d).freeIx = s.freeIx := by rw [State.stageLost_eq]

theorem State.stageLost_get (s : State) (d : Nat) (y : Fld) (i j cp : Nat) :
    (s.stageLost d).get y i j cp = s.get y i j cp := by
  refine State.get_congr _ _ ?_ _ _ _ _
  rw [State.stageLost_eq]

/-! `logEvent` -/

theorem State.logEvent_eq (s : State) (d src unit bits : Nat) : s.logEvent d src unit bits = { s with regs := (s.logEvent d src unit bits).regs, recd := (s.logEvent d src unit bits).recd } := by
  unfold State.logEvent State.nextSeq
  dsimp only
  split
  · split
    · rw [State.loseLog_eq]
    · split
      · rw [State.stageLost_eq]
      · rw [State.putFor_eq, State.loseLog_eq, State.stageLost_eq]
  · rfl

@[simp] theorem State.logEvent_img (s : State) (d src unit bits : Nat) : (s.logEvent d src unit bits).img = s.img := by rw [State.logEvent_eq]
@[simp] theorem State.logEvent_fab (s : State) (d src unit bits : Nat) : (s.logEvent d src unit bits).fab = s.fab := by rw [State.logEvent_eq]
@[simp] theorem State.logEvent_drw (s : State) (d src unit bits : Nat) : (s.logEvent d src unit bits).drw = s.drw := by rw [State.logEvent_eq]
@[simp] theorem State.logEvent_ztm (s : State) (d src unit bits : Nat) : (s.logEvent d src unit bits).ztm = s.ztm := by rw [State.logEvent_eq]
@[simp] theorem State.logEvent_load (s : State) (d src unit bits : Nat) : (s.logEvent d src unit bits).load = s.load := by rw [State.logEvent_eq]
@[simp] theorem State.logEvent_flt (s : State) (d src unit bits : Nat) : (s.logEvent d src unit bits).flt = s.flt := by rw [State.logEvent_eq]
@[simp] theorem State.logEvent_pins (s : State) (d src unit bits : Nat) : (s.logEvent d src unit bits).pins = s.pins := by rw [State.logEvent_eq]
@[simp] theorem State.logEvent_front (s : State) (d src unit bits : Nat) : (s.logEvent d src unit bits).front = s.front := by rw [State.logEvent_eq]
@[simp] theorem State.logEvent_latchedRules (s : State) (d src unit bits : Nat) : (s.logEvent d src unit bits).latchedRules = s.latchedRules := by rw [State.logEvent_eq]
@[simp] theorem State.logEvent_lth (s : State) (d src unit bits : Nat) : (s.logEvent d src unit bits).lth = s.lth := by rw [State.logEvent_eq]
@[simp] theorem State.logEvent_canLthQ (s : State) (d src unit bits : Nat) : (s.logEvent d src unit bits).canLthQ = s.canLthQ := by rw [State.logEvent_eq]
@[simp] theorem State.logEvent_can (s : State) (d src unit bits : Nat) : (s.logEvent d src unit bits).can = s.can := by rw [State.logEvent_eq]
@[simp] theorem State.logEvent_emitted (s : State) (d src unit bits : Nat) : (s.logEvent d src unit bits).emitted = s.emitted := by rw [State.logEvent_eq]
@[simp] theorem State.logEvent_mtr (s : State) (d src unit bits : Nat) : (s.logEvent d src unit bits).mtr = s.mtr := by rw [State.logEvent_eq]
@[simp] theorem State.logEvent_ring (s : State) (d src unit bits : Nat) : (s.logEvent d src unit bits).ring = s.ring := by rw [State.logEvent_eq]
@[simp] theorem State.logEvent_ringSig (s : State) (d src unit bits : Nat) : (s.logEvent d src unit bits).ringSig = s.ringSig := by rw [State.logEvent_eq]
@[simp] theorem State.logEvent_seqs (s : State) (d src unit bits : Nat) : (s.logEvent d src unit bits).seqs = s.seqs := by rw [State.logEvent_eq]
@[simp] theorem State.logEvent_iom (s : State) (d src unit bits : Nat) : (s.logEvent d src unit bits).iom = s.iom := by rw [State.logEvent_eq]
@[simp] theorem State.logEvent_dvt (s : State) (d src unit bits : Nat) : (s.logEvent d src unit bits).dvt = s.dvt := by rw [State.logEvent_eq]
@[simp] theorem State.logEvent_port (s : State) (d src unit bits : Nat) : (s.logEvent d src unit bits).port = s.port := by rw [State.logEvent_eq]
@[simp] theorem State.logEvent_saKey (s : State) (d src unit bits : Nat) : (s.logEvent d src unit bits).saKey = s.saKey := by rw [State.logEvent_eq]
@[simp] theorem State.logEvent_hart (s : State) (d src unit bits : Nat) : (s.logEvent d src unit bits).hart = s.hart := by rw [State.logEvent_eq]
@[simp] theorem State.logEvent_wld (s : State) (d src unit bits : Nat) : (s.logEvent d src unit bits).wld = s.wld := by rw [State.logEvent_eq]
@[simp] theorem State.logEvent_dwl (s : State) (d src unit bits : Nat) : (s.logEvent d src unit bits).dwl = s.dwl := by rw [State.logEvent_eq]
@[simp] theorem State.logEvent_til (s : State) (d src unit bits : Nat) : (s.logEvent d src unit bits).til = s.til := by rw [State.logEvent_eq]
@[simp] theorem State.logEvent_upd (s : State) (d src unit bits : Nat) : (s.logEvent d src unit bits).upd = s.upd := by rw [State.logEvent_eq]
@[simp] theorem State.logEvent_start (s : State) (d src unit bits : Nat) : (s.logEvent d src unit bits).start = s.start := by rw [State.logEvent_eq]
@[simp] theorem State.logEvent_resp (s : State) (d src unit bits : Nat) : (s.logEvent d src unit bits).resp = s.resp := by rw [State.logEvent_eq]
@[simp] theorem State.logEvent_freeIx (s : State) (d src unit bits : Nat) : (s.logEvent d src unit bits).freeIx = s.freeIx := by rw [State.logEvent_eq]

/-- The registers it leaves. -/
theorem State.logEvent_get (s : State) (d src unit bits : Nat) (y : Fld) (i j cp : Nat) (h : (regDef y.reg).win ≠ .recw) :
    (s.logEvent d src unit bits).get y i j cp = s.get y i j cp := by
  unfold State.logEvent State.nextSeq
  dsimp only
  split
  · split
    · rw [State.loseLog_get _ _ _ _ _ _ _ h]; rfl
    · split
      · refine Eq.trans ?_ (State.stageLost_get { s with recd := { s.recd with seq := storePut 0 s.recd.seq d ((storeGet 0 s.recd.seq d + 1) % 2 ^ 32) } } d y i j cp)
        rfl
      · rw [State.putFor_get _ _ _ _ _ _ _ _ (ctorIdx_win _ _ h), State.loseLog_get _ _ _ _ _ _ _ h, State.stageLost_get]; rfl
  · rfl

/-! `trace` -/

theorem State.trace_eq (s : State) (d src unit a0 a1 : Nat) : s.trace d src unit a0 a1 = { s with regs := (s.trace d src unit a0 a1).regs, recd := (s.trace d src unit a0 a1).recd } := by
  unfold State.trace State.nextSeq
  dsimp only
  split
  · split
    · rw [State.bumpFor_eq]
    · split
      · rw [State.bumpFor_eq]
      · rfl
  · rfl

@[simp] theorem State.trace_img (s : State) (d src unit a0 a1 : Nat) : (s.trace d src unit a0 a1).img = s.img := by rw [State.trace_eq]
@[simp] theorem State.trace_fab (s : State) (d src unit a0 a1 : Nat) : (s.trace d src unit a0 a1).fab = s.fab := by rw [State.trace_eq]
@[simp] theorem State.trace_drw (s : State) (d src unit a0 a1 : Nat) : (s.trace d src unit a0 a1).drw = s.drw := by rw [State.trace_eq]
@[simp] theorem State.trace_ztm (s : State) (d src unit a0 a1 : Nat) : (s.trace d src unit a0 a1).ztm = s.ztm := by rw [State.trace_eq]
@[simp] theorem State.trace_load (s : State) (d src unit a0 a1 : Nat) : (s.trace d src unit a0 a1).load = s.load := by rw [State.trace_eq]
@[simp] theorem State.trace_flt (s : State) (d src unit a0 a1 : Nat) : (s.trace d src unit a0 a1).flt = s.flt := by rw [State.trace_eq]
@[simp] theorem State.trace_pins (s : State) (d src unit a0 a1 : Nat) : (s.trace d src unit a0 a1).pins = s.pins := by rw [State.trace_eq]
@[simp] theorem State.trace_front (s : State) (d src unit a0 a1 : Nat) : (s.trace d src unit a0 a1).front = s.front := by rw [State.trace_eq]
@[simp] theorem State.trace_latchedRules (s : State) (d src unit a0 a1 : Nat) : (s.trace d src unit a0 a1).latchedRules = s.latchedRules := by rw [State.trace_eq]
@[simp] theorem State.trace_lth (s : State) (d src unit a0 a1 : Nat) : (s.trace d src unit a0 a1).lth = s.lth := by rw [State.trace_eq]
@[simp] theorem State.trace_canLthQ (s : State) (d src unit a0 a1 : Nat) : (s.trace d src unit a0 a1).canLthQ = s.canLthQ := by rw [State.trace_eq]
@[simp] theorem State.trace_can (s : State) (d src unit a0 a1 : Nat) : (s.trace d src unit a0 a1).can = s.can := by rw [State.trace_eq]
@[simp] theorem State.trace_emitted (s : State) (d src unit a0 a1 : Nat) : (s.trace d src unit a0 a1).emitted = s.emitted := by rw [State.trace_eq]
@[simp] theorem State.trace_mtr (s : State) (d src unit a0 a1 : Nat) : (s.trace d src unit a0 a1).mtr = s.mtr := by rw [State.trace_eq]
@[simp] theorem State.trace_ring (s : State) (d src unit a0 a1 : Nat) : (s.trace d src unit a0 a1).ring = s.ring := by rw [State.trace_eq]
@[simp] theorem State.trace_ringSig (s : State) (d src unit a0 a1 : Nat) : (s.trace d src unit a0 a1).ringSig = s.ringSig := by rw [State.trace_eq]
@[simp] theorem State.trace_seqs (s : State) (d src unit a0 a1 : Nat) : (s.trace d src unit a0 a1).seqs = s.seqs := by rw [State.trace_eq]
@[simp] theorem State.trace_iom (s : State) (d src unit a0 a1 : Nat) : (s.trace d src unit a0 a1).iom = s.iom := by rw [State.trace_eq]
@[simp] theorem State.trace_dvt (s : State) (d src unit a0 a1 : Nat) : (s.trace d src unit a0 a1).dvt = s.dvt := by rw [State.trace_eq]
@[simp] theorem State.trace_port (s : State) (d src unit a0 a1 : Nat) : (s.trace d src unit a0 a1).port = s.port := by rw [State.trace_eq]
@[simp] theorem State.trace_saKey (s : State) (d src unit a0 a1 : Nat) : (s.trace d src unit a0 a1).saKey = s.saKey := by rw [State.trace_eq]
@[simp] theorem State.trace_hart (s : State) (d src unit a0 a1 : Nat) : (s.trace d src unit a0 a1).hart = s.hart := by rw [State.trace_eq]
@[simp] theorem State.trace_wld (s : State) (d src unit a0 a1 : Nat) : (s.trace d src unit a0 a1).wld = s.wld := by rw [State.trace_eq]
@[simp] theorem State.trace_dwl (s : State) (d src unit a0 a1 : Nat) : (s.trace d src unit a0 a1).dwl = s.dwl := by rw [State.trace_eq]
@[simp] theorem State.trace_til (s : State) (d src unit a0 a1 : Nat) : (s.trace d src unit a0 a1).til = s.til := by rw [State.trace_eq]
@[simp] theorem State.trace_upd (s : State) (d src unit a0 a1 : Nat) : (s.trace d src unit a0 a1).upd = s.upd := by rw [State.trace_eq]
@[simp] theorem State.trace_start (s : State) (d src unit a0 a1 : Nat) : (s.trace d src unit a0 a1).start = s.start := by rw [State.trace_eq]
@[simp] theorem State.trace_resp (s : State) (d src unit a0 a1 : Nat) : (s.trace d src unit a0 a1).resp = s.resp := by rw [State.trace_eq]
@[simp] theorem State.trace_freeIx (s : State) (d src unit a0 a1 : Nat) : (s.trace d src unit a0 a1).freeIx = s.freeIx := by rw [State.trace_eq]

/-- The registers it leaves. -/
theorem State.trace_get (s : State) (d src unit a0 a1 : Nat) (y : Fld) (i j cp : Nat) (h : (regDef y.reg).win ≠ .recw) :
    (s.trace d src unit a0 a1).get y i j cp = s.get y i j cp := by
  unfold State.trace State.nextSeq
  dsimp only
  split
  · split
    · rw [State.bumpFor_get _ _ _ _ _ _ _ (ctorIdx_win _ _ h)]; rfl
    · split
      · rw [State.bumpFor_get _ _ _ _ _ _ _ (ctorIdx_win _ _ h)]; rfl
      · rfl
  · rfl

/-! `raise` -/

theorem State.raise_eq (s : State) (x : Fld) (mask i0 j0 cp0 : Nat) (owner : Option Nat) (src unit : Nat) : s.raise x mask i0 j0 cp0 owner src unit = { s with regs := (s.raise x mask i0 j0 cp0 owner src unit).regs, recd := (s.raise x mask i0 j0 cp0 owner src unit).recd } := by
  unfold State.raise
  dsimp only
  split
  · rfl
  · split
    · rw [State.logEvent_eq]; rfl
    · rfl

@[simp] theorem State.raise_img (s : State) (x : Fld) (mask i0 j0 cp0 : Nat) (owner : Option Nat) (src unit : Nat) : (s.raise x mask i0 j0 cp0 owner src unit).img = s.img := by rw [State.raise_eq]
@[simp] theorem State.raise_fab (s : State) (x : Fld) (mask i0 j0 cp0 : Nat) (owner : Option Nat) (src unit : Nat) : (s.raise x mask i0 j0 cp0 owner src unit).fab = s.fab := by rw [State.raise_eq]
@[simp] theorem State.raise_drw (s : State) (x : Fld) (mask i0 j0 cp0 : Nat) (owner : Option Nat) (src unit : Nat) : (s.raise x mask i0 j0 cp0 owner src unit).drw = s.drw := by rw [State.raise_eq]
@[simp] theorem State.raise_ztm (s : State) (x : Fld) (mask i0 j0 cp0 : Nat) (owner : Option Nat) (src unit : Nat) : (s.raise x mask i0 j0 cp0 owner src unit).ztm = s.ztm := by rw [State.raise_eq]
@[simp] theorem State.raise_load (s : State) (x : Fld) (mask i0 j0 cp0 : Nat) (owner : Option Nat) (src unit : Nat) : (s.raise x mask i0 j0 cp0 owner src unit).load = s.load := by rw [State.raise_eq]
@[simp] theorem State.raise_flt (s : State) (x : Fld) (mask i0 j0 cp0 : Nat) (owner : Option Nat) (src unit : Nat) : (s.raise x mask i0 j0 cp0 owner src unit).flt = s.flt := by rw [State.raise_eq]
@[simp] theorem State.raise_pins (s : State) (x : Fld) (mask i0 j0 cp0 : Nat) (owner : Option Nat) (src unit : Nat) : (s.raise x mask i0 j0 cp0 owner src unit).pins = s.pins := by rw [State.raise_eq]
@[simp] theorem State.raise_front (s : State) (x : Fld) (mask i0 j0 cp0 : Nat) (owner : Option Nat) (src unit : Nat) : (s.raise x mask i0 j0 cp0 owner src unit).front = s.front := by rw [State.raise_eq]
@[simp] theorem State.raise_latchedRules (s : State) (x : Fld) (mask i0 j0 cp0 : Nat) (owner : Option Nat) (src unit : Nat) : (s.raise x mask i0 j0 cp0 owner src unit).latchedRules = s.latchedRules := by rw [State.raise_eq]
@[simp] theorem State.raise_lth (s : State) (x : Fld) (mask i0 j0 cp0 : Nat) (owner : Option Nat) (src unit : Nat) : (s.raise x mask i0 j0 cp0 owner src unit).lth = s.lth := by rw [State.raise_eq]
@[simp] theorem State.raise_canLthQ (s : State) (x : Fld) (mask i0 j0 cp0 : Nat) (owner : Option Nat) (src unit : Nat) : (s.raise x mask i0 j0 cp0 owner src unit).canLthQ = s.canLthQ := by rw [State.raise_eq]
@[simp] theorem State.raise_can (s : State) (x : Fld) (mask i0 j0 cp0 : Nat) (owner : Option Nat) (src unit : Nat) : (s.raise x mask i0 j0 cp0 owner src unit).can = s.can := by rw [State.raise_eq]
@[simp] theorem State.raise_emitted (s : State) (x : Fld) (mask i0 j0 cp0 : Nat) (owner : Option Nat) (src unit : Nat) : (s.raise x mask i0 j0 cp0 owner src unit).emitted = s.emitted := by rw [State.raise_eq]
@[simp] theorem State.raise_mtr (s : State) (x : Fld) (mask i0 j0 cp0 : Nat) (owner : Option Nat) (src unit : Nat) : (s.raise x mask i0 j0 cp0 owner src unit).mtr = s.mtr := by rw [State.raise_eq]
@[simp] theorem State.raise_ring (s : State) (x : Fld) (mask i0 j0 cp0 : Nat) (owner : Option Nat) (src unit : Nat) : (s.raise x mask i0 j0 cp0 owner src unit).ring = s.ring := by rw [State.raise_eq]
@[simp] theorem State.raise_ringSig (s : State) (x : Fld) (mask i0 j0 cp0 : Nat) (owner : Option Nat) (src unit : Nat) : (s.raise x mask i0 j0 cp0 owner src unit).ringSig = s.ringSig := by rw [State.raise_eq]
@[simp] theorem State.raise_seqs (s : State) (x : Fld) (mask i0 j0 cp0 : Nat) (owner : Option Nat) (src unit : Nat) : (s.raise x mask i0 j0 cp0 owner src unit).seqs = s.seqs := by rw [State.raise_eq]
@[simp] theorem State.raise_iom (s : State) (x : Fld) (mask i0 j0 cp0 : Nat) (owner : Option Nat) (src unit : Nat) : (s.raise x mask i0 j0 cp0 owner src unit).iom = s.iom := by rw [State.raise_eq]
@[simp] theorem State.raise_dvt (s : State) (x : Fld) (mask i0 j0 cp0 : Nat) (owner : Option Nat) (src unit : Nat) : (s.raise x mask i0 j0 cp0 owner src unit).dvt = s.dvt := by rw [State.raise_eq]
@[simp] theorem State.raise_port (s : State) (x : Fld) (mask i0 j0 cp0 : Nat) (owner : Option Nat) (src unit : Nat) : (s.raise x mask i0 j0 cp0 owner src unit).port = s.port := by rw [State.raise_eq]
@[simp] theorem State.raise_saKey (s : State) (x : Fld) (mask i0 j0 cp0 : Nat) (owner : Option Nat) (src unit : Nat) : (s.raise x mask i0 j0 cp0 owner src unit).saKey = s.saKey := by rw [State.raise_eq]
@[simp] theorem State.raise_hart (s : State) (x : Fld) (mask i0 j0 cp0 : Nat) (owner : Option Nat) (src unit : Nat) : (s.raise x mask i0 j0 cp0 owner src unit).hart = s.hart := by rw [State.raise_eq]
@[simp] theorem State.raise_wld (s : State) (x : Fld) (mask i0 j0 cp0 : Nat) (owner : Option Nat) (src unit : Nat) : (s.raise x mask i0 j0 cp0 owner src unit).wld = s.wld := by rw [State.raise_eq]
@[simp] theorem State.raise_dwl (s : State) (x : Fld) (mask i0 j0 cp0 : Nat) (owner : Option Nat) (src unit : Nat) : (s.raise x mask i0 j0 cp0 owner src unit).dwl = s.dwl := by rw [State.raise_eq]
@[simp] theorem State.raise_til (s : State) (x : Fld) (mask i0 j0 cp0 : Nat) (owner : Option Nat) (src unit : Nat) : (s.raise x mask i0 j0 cp0 owner src unit).til = s.til := by rw [State.raise_eq]
@[simp] theorem State.raise_upd (s : State) (x : Fld) (mask i0 j0 cp0 : Nat) (owner : Option Nat) (src unit : Nat) : (s.raise x mask i0 j0 cp0 owner src unit).upd = s.upd := by rw [State.raise_eq]
@[simp] theorem State.raise_start (s : State) (x : Fld) (mask i0 j0 cp0 : Nat) (owner : Option Nat) (src unit : Nat) : (s.raise x mask i0 j0 cp0 owner src unit).start = s.start := by rw [State.raise_eq]
@[simp] theorem State.raise_resp (s : State) (x : Fld) (mask i0 j0 cp0 : Nat) (owner : Option Nat) (src unit : Nat) : (s.raise x mask i0 j0 cp0 owner src unit).resp = s.resp := by rw [State.raise_eq]
@[simp] theorem State.raise_freeIx (s : State) (x : Fld) (mask i0 j0 cp0 : Nat) (owner : Option Nat) (src unit : Nat) : (s.raise x mask i0 j0 cp0 owner src unit).freeIx = s.freeIx := by rw [State.raise_eq]

/-- The registers it leaves. -/
theorem State.raise_get (s : State) (x : Fld) (mask i0 j0 cp0 : Nat) (owner : Option Nat) (src unit : Nat) (y : Fld) (i j cp : Nat) (h : (regDef y.reg).win ≠ .recw) (h2 : y.reg.ctorIdx ≠ x.reg.ctorIdx) :
    (s.raise x mask i0 j0 cp0 owner src unit).get y i j cp = s.get y i j cp := by
  unfold State.raise
  dsimp only
  split
  · rfl
  · split
    · rw [State.logEvent_get _ _ _ _ _ _ _ _ _ h]; exact State.get_put_reg _ _ _ _ _ _ _ _ _ _ h2
    · exact State.get_put_reg _ _ _ _ _ _ _ _ _ _ h2

/-! `mitreLine` -/

theorem State.mitreLine_eq (s : State) (n : Nat) : s.mitreLine n = { s with regs := (s.mitreLine n).regs } := by
  rfl

@[simp] theorem State.mitreLine_img (s : State) (n : Nat) : (s.mitreLine n).img = s.img := by rw [State.mitreLine_eq]
@[simp] theorem State.mitreLine_fab (s : State) (n : Nat) : (s.mitreLine n).fab = s.fab := by rw [State.mitreLine_eq]
@[simp] theorem State.mitreLine_drw (s : State) (n : Nat) : (s.mitreLine n).drw = s.drw := by rw [State.mitreLine_eq]
@[simp] theorem State.mitreLine_recd (s : State) (n : Nat) : (s.mitreLine n).recd = s.recd := by rw [State.mitreLine_eq]
@[simp] theorem State.mitreLine_ztm (s : State) (n : Nat) : (s.mitreLine n).ztm = s.ztm := by rw [State.mitreLine_eq]
@[simp] theorem State.mitreLine_load (s : State) (n : Nat) : (s.mitreLine n).load = s.load := by rw [State.mitreLine_eq]
@[simp] theorem State.mitreLine_flt (s : State) (n : Nat) : (s.mitreLine n).flt = s.flt := by rw [State.mitreLine_eq]
@[simp] theorem State.mitreLine_pins (s : State) (n : Nat) : (s.mitreLine n).pins = s.pins := by rw [State.mitreLine_eq]
@[simp] theorem State.mitreLine_front (s : State) (n : Nat) : (s.mitreLine n).front = s.front := by rw [State.mitreLine_eq]
@[simp] theorem State.mitreLine_latchedRules (s : State) (n : Nat) : (s.mitreLine n).latchedRules = s.latchedRules := by rw [State.mitreLine_eq]
@[simp] theorem State.mitreLine_lth (s : State) (n : Nat) : (s.mitreLine n).lth = s.lth := by rw [State.mitreLine_eq]
@[simp] theorem State.mitreLine_canLthQ (s : State) (n : Nat) : (s.mitreLine n).canLthQ = s.canLthQ := by rw [State.mitreLine_eq]
@[simp] theorem State.mitreLine_can (s : State) (n : Nat) : (s.mitreLine n).can = s.can := by rw [State.mitreLine_eq]
@[simp] theorem State.mitreLine_emitted (s : State) (n : Nat) : (s.mitreLine n).emitted = s.emitted := by rw [State.mitreLine_eq]
@[simp] theorem State.mitreLine_mtr (s : State) (n : Nat) : (s.mitreLine n).mtr = s.mtr := by rw [State.mitreLine_eq]
@[simp] theorem State.mitreLine_ring (s : State) (n : Nat) : (s.mitreLine n).ring = s.ring := by rw [State.mitreLine_eq]
@[simp] theorem State.mitreLine_ringSig (s : State) (n : Nat) : (s.mitreLine n).ringSig = s.ringSig := by rw [State.mitreLine_eq]
@[simp] theorem State.mitreLine_seqs (s : State) (n : Nat) : (s.mitreLine n).seqs = s.seqs := by rw [State.mitreLine_eq]
@[simp] theorem State.mitreLine_iom (s : State) (n : Nat) : (s.mitreLine n).iom = s.iom := by rw [State.mitreLine_eq]
@[simp] theorem State.mitreLine_dvt (s : State) (n : Nat) : (s.mitreLine n).dvt = s.dvt := by rw [State.mitreLine_eq]
@[simp] theorem State.mitreLine_port (s : State) (n : Nat) : (s.mitreLine n).port = s.port := by rw [State.mitreLine_eq]
@[simp] theorem State.mitreLine_saKey (s : State) (n : Nat) : (s.mitreLine n).saKey = s.saKey := by rw [State.mitreLine_eq]
@[simp] theorem State.mitreLine_hart (s : State) (n : Nat) : (s.mitreLine n).hart = s.hart := by rw [State.mitreLine_eq]
@[simp] theorem State.mitreLine_wld (s : State) (n : Nat) : (s.mitreLine n).wld = s.wld := by rw [State.mitreLine_eq]
@[simp] theorem State.mitreLine_dwl (s : State) (n : Nat) : (s.mitreLine n).dwl = s.dwl := by rw [State.mitreLine_eq]
@[simp] theorem State.mitreLine_til (s : State) (n : Nat) : (s.mitreLine n).til = s.til := by rw [State.mitreLine_eq]
@[simp] theorem State.mitreLine_upd (s : State) (n : Nat) : (s.mitreLine n).upd = s.upd := by rw [State.mitreLine_eq]
@[simp] theorem State.mitreLine_start (s : State) (n : Nat) : (s.mitreLine n).start = s.start := by rw [State.mitreLine_eq]
@[simp] theorem State.mitreLine_resp (s : State) (n : Nat) : (s.mitreLine n).resp = s.resp := by rw [State.mitreLine_eq]
@[simp] theorem State.mitreLine_freeIx (s : State) (n : Nat) : (s.mitreLine n).freeIx = s.freeIx := by rw [State.mitreLine_eq]

/-- The registers it leaves. -/
theorem State.mitreLine_get (s : State) (n : Nat) (y : Fld) (i j cp : Nat) (h : y.reg.ctorIdx ≠ RegId.MTR_INT_ACK.ctorIdx) :
    (s.mitreLine n).get y i j cp = s.get y i j cp := by
  exact State.get_put_reg _ _ _ _ _ _ _ _ _ _ h

/-! `safenSet` -/

theorem State.safenSet_eq (s : State) (b : Nat) : s.safenSet b = { s with regs := (s.safenSet b).regs } := by
  unfold State.safenSet; split <;> rfl

@[simp] theorem State.safenSet_img (s : State) (b : Nat) : (s.safenSet b).img = s.img := by rw [State.safenSet_eq]
@[simp] theorem State.safenSet_fab (s : State) (b : Nat) : (s.safenSet b).fab = s.fab := by rw [State.safenSet_eq]
@[simp] theorem State.safenSet_drw (s : State) (b : Nat) : (s.safenSet b).drw = s.drw := by rw [State.safenSet_eq]
@[simp] theorem State.safenSet_recd (s : State) (b : Nat) : (s.safenSet b).recd = s.recd := by rw [State.safenSet_eq]
@[simp] theorem State.safenSet_ztm (s : State) (b : Nat) : (s.safenSet b).ztm = s.ztm := by rw [State.safenSet_eq]
@[simp] theorem State.safenSet_load (s : State) (b : Nat) : (s.safenSet b).load = s.load := by rw [State.safenSet_eq]
@[simp] theorem State.safenSet_flt (s : State) (b : Nat) : (s.safenSet b).flt = s.flt := by rw [State.safenSet_eq]
@[simp] theorem State.safenSet_pins (s : State) (b : Nat) : (s.safenSet b).pins = s.pins := by rw [State.safenSet_eq]
@[simp] theorem State.safenSet_front (s : State) (b : Nat) : (s.safenSet b).front = s.front := by rw [State.safenSet_eq]
@[simp] theorem State.safenSet_latchedRules (s : State) (b : Nat) : (s.safenSet b).latchedRules = s.latchedRules := by rw [State.safenSet_eq]
@[simp] theorem State.safenSet_lth (s : State) (b : Nat) : (s.safenSet b).lth = s.lth := by rw [State.safenSet_eq]
@[simp] theorem State.safenSet_canLthQ (s : State) (b : Nat) : (s.safenSet b).canLthQ = s.canLthQ := by rw [State.safenSet_eq]
@[simp] theorem State.safenSet_can (s : State) (b : Nat) : (s.safenSet b).can = s.can := by rw [State.safenSet_eq]
@[simp] theorem State.safenSet_emitted (s : State) (b : Nat) : (s.safenSet b).emitted = s.emitted := by rw [State.safenSet_eq]
@[simp] theorem State.safenSet_mtr (s : State) (b : Nat) : (s.safenSet b).mtr = s.mtr := by rw [State.safenSet_eq]
@[simp] theorem State.safenSet_ring (s : State) (b : Nat) : (s.safenSet b).ring = s.ring := by rw [State.safenSet_eq]
@[simp] theorem State.safenSet_ringSig (s : State) (b : Nat) : (s.safenSet b).ringSig = s.ringSig := by rw [State.safenSet_eq]
@[simp] theorem State.safenSet_seqs (s : State) (b : Nat) : (s.safenSet b).seqs = s.seqs := by rw [State.safenSet_eq]
@[simp] theorem State.safenSet_iom (s : State) (b : Nat) : (s.safenSet b).iom = s.iom := by rw [State.safenSet_eq]
@[simp] theorem State.safenSet_dvt (s : State) (b : Nat) : (s.safenSet b).dvt = s.dvt := by rw [State.safenSet_eq]
@[simp] theorem State.safenSet_port (s : State) (b : Nat) : (s.safenSet b).port = s.port := by rw [State.safenSet_eq]
@[simp] theorem State.safenSet_saKey (s : State) (b : Nat) : (s.safenSet b).saKey = s.saKey := by rw [State.safenSet_eq]
@[simp] theorem State.safenSet_hart (s : State) (b : Nat) : (s.safenSet b).hart = s.hart := by rw [State.safenSet_eq]
@[simp] theorem State.safenSet_wld (s : State) (b : Nat) : (s.safenSet b).wld = s.wld := by rw [State.safenSet_eq]
@[simp] theorem State.safenSet_dwl (s : State) (b : Nat) : (s.safenSet b).dwl = s.dwl := by rw [State.safenSet_eq]
@[simp] theorem State.safenSet_til (s : State) (b : Nat) : (s.safenSet b).til = s.til := by rw [State.safenSet_eq]
@[simp] theorem State.safenSet_upd (s : State) (b : Nat) : (s.safenSet b).upd = s.upd := by rw [State.safenSet_eq]
@[simp] theorem State.safenSet_start (s : State) (b : Nat) : (s.safenSet b).start = s.start := by rw [State.safenSet_eq]
@[simp] theorem State.safenSet_resp (s : State) (b : Nat) : (s.safenSet b).resp = s.resp := by rw [State.safenSet_eq]
@[simp] theorem State.safenSet_freeIx (s : State) (b : Nat) : (s.safenSet b).freeIx = s.freeIx := by rw [State.safenSet_eq]

/-- The registers it leaves. -/
theorem State.safenSet_get (s : State) (b : Nat) (y : Fld) (i j cp : Nat) (h : y.reg.ctorIdx ≠ RegId.FAB_SAFEN.ctorIdx) :
    (s.safenSet b).get y i j cp = s.get y i j cp := by
  unfold State.safenSet
  split
  · exact State.get_put_reg _ _ _ _ _ _ _ _ _ _ h
  · rfl

/-! `retireUnit` -/

theorem State.retireUnit_eq (s : State) (kind unit code drawer detail : Nat) : s.retireUnit kind unit code drawer detail = { s with regs := (s.retireUnit kind unit code drawer detail).regs, recd := (s.retireUnit kind unit code drawer detail).recd, flt := (s.retireUnit kind unit code drawer detail).flt } := by
  unfold State.retireUnit; dsimp only; rw [State.safenSet_eq, State.alarm_eq]

@[simp] theorem State.retireUnit_img (s : State) (kind unit code drawer detail : Nat) : (s.retireUnit kind unit code drawer detail).img = s.img := by rw [State.retireUnit_eq]
@[simp] theorem State.retireUnit_fab (s : State) (kind unit code drawer detail : Nat) : (s.retireUnit kind unit code drawer detail).fab = s.fab := by rw [State.retireUnit_eq]
@[simp] theorem State.retireUnit_drw (s : State) (kind unit code drawer detail : Nat) : (s.retireUnit kind unit code drawer detail).drw = s.drw := by rw [State.retireUnit_eq]
@[simp] theorem State.retireUnit_ztm (s : State) (kind unit code drawer detail : Nat) : (s.retireUnit kind unit code drawer detail).ztm = s.ztm := by rw [State.retireUnit_eq]
@[simp] theorem State.retireUnit_load (s : State) (kind unit code drawer detail : Nat) : (s.retireUnit kind unit code drawer detail).load = s.load := by rw [State.retireUnit_eq]
@[simp] theorem State.retireUnit_pins (s : State) (kind unit code drawer detail : Nat) : (s.retireUnit kind unit code drawer detail).pins = s.pins := by rw [State.retireUnit_eq]
@[simp] theorem State.retireUnit_front (s : State) (kind unit code drawer detail : Nat) : (s.retireUnit kind unit code drawer detail).front = s.front := by rw [State.retireUnit_eq]
@[simp] theorem State.retireUnit_latchedRules (s : State) (kind unit code drawer detail : Nat) : (s.retireUnit kind unit code drawer detail).latchedRules = s.latchedRules := by rw [State.retireUnit_eq]
@[simp] theorem State.retireUnit_lth (s : State) (kind unit code drawer detail : Nat) : (s.retireUnit kind unit code drawer detail).lth = s.lth := by rw [State.retireUnit_eq]
@[simp] theorem State.retireUnit_canLthQ (s : State) (kind unit code drawer detail : Nat) : (s.retireUnit kind unit code drawer detail).canLthQ = s.canLthQ := by rw [State.retireUnit_eq]
@[simp] theorem State.retireUnit_can (s : State) (kind unit code drawer detail : Nat) : (s.retireUnit kind unit code drawer detail).can = s.can := by rw [State.retireUnit_eq]
@[simp] theorem State.retireUnit_emitted (s : State) (kind unit code drawer detail : Nat) : (s.retireUnit kind unit code drawer detail).emitted = s.emitted := by rw [State.retireUnit_eq]
@[simp] theorem State.retireUnit_mtr (s : State) (kind unit code drawer detail : Nat) : (s.retireUnit kind unit code drawer detail).mtr = s.mtr := by rw [State.retireUnit_eq]
@[simp] theorem State.retireUnit_ring (s : State) (kind unit code drawer detail : Nat) : (s.retireUnit kind unit code drawer detail).ring = s.ring := by rw [State.retireUnit_eq]
@[simp] theorem State.retireUnit_ringSig (s : State) (kind unit code drawer detail : Nat) : (s.retireUnit kind unit code drawer detail).ringSig = s.ringSig := by rw [State.retireUnit_eq]
@[simp] theorem State.retireUnit_seqs (s : State) (kind unit code drawer detail : Nat) : (s.retireUnit kind unit code drawer detail).seqs = s.seqs := by rw [State.retireUnit_eq]
@[simp] theorem State.retireUnit_iom (s : State) (kind unit code drawer detail : Nat) : (s.retireUnit kind unit code drawer detail).iom = s.iom := by rw [State.retireUnit_eq]
@[simp] theorem State.retireUnit_dvt (s : State) (kind unit code drawer detail : Nat) : (s.retireUnit kind unit code drawer detail).dvt = s.dvt := by rw [State.retireUnit_eq]
@[simp] theorem State.retireUnit_port (s : State) (kind unit code drawer detail : Nat) : (s.retireUnit kind unit code drawer detail).port = s.port := by rw [State.retireUnit_eq]
@[simp] theorem State.retireUnit_saKey (s : State) (kind unit code drawer detail : Nat) : (s.retireUnit kind unit code drawer detail).saKey = s.saKey := by rw [State.retireUnit_eq]
@[simp] theorem State.retireUnit_hart (s : State) (kind unit code drawer detail : Nat) : (s.retireUnit kind unit code drawer detail).hart = s.hart := by rw [State.retireUnit_eq]
@[simp] theorem State.retireUnit_wld (s : State) (kind unit code drawer detail : Nat) : (s.retireUnit kind unit code drawer detail).wld = s.wld := by rw [State.retireUnit_eq]
@[simp] theorem State.retireUnit_dwl (s : State) (kind unit code drawer detail : Nat) : (s.retireUnit kind unit code drawer detail).dwl = s.dwl := by rw [State.retireUnit_eq]
@[simp] theorem State.retireUnit_til (s : State) (kind unit code drawer detail : Nat) : (s.retireUnit kind unit code drawer detail).til = s.til := by rw [State.retireUnit_eq]
@[simp] theorem State.retireUnit_upd (s : State) (kind unit code drawer detail : Nat) : (s.retireUnit kind unit code drawer detail).upd = s.upd := by rw [State.retireUnit_eq]
@[simp] theorem State.retireUnit_start (s : State) (kind unit code drawer detail : Nat) : (s.retireUnit kind unit code drawer detail).start = s.start := by rw [State.retireUnit_eq]
@[simp] theorem State.retireUnit_resp (s : State) (kind unit code drawer detail : Nat) : (s.retireUnit kind unit code drawer detail).resp = s.resp := by rw [State.retireUnit_eq]
@[simp] theorem State.retireUnit_freeIx (s : State) (kind unit code drawer detail : Nat) : (s.retireUnit kind unit code drawer detail).freeIx = s.freeIx := by rw [State.retireUnit_eq]

/-- The registers it leaves. -/
theorem State.retireUnit_get (s : State) (kind unit code drawer detail : Nat) (y : Fld) (i j cp : Nat) (h : (regDef y.reg).win ≠ .recw) (h2 : y.reg.ctorIdx ≠ RegId.FAB_SAFEN.ctorIdx) :
    (s.retireUnit kind unit code drawer detail).get y i j cp = s.get y i j cp := by
  unfold State.retireUnit
  dsimp only
  rw [State.safenSet_get _ _ _ _ _ _ h2, State.alarm_get _ _ _ _ _ _ _ _ _ h]
  rfl

/-! `faultRecord` -/

theorem State.faultRecord_eq (s : State) (d cause source : Nat) (write : Bool) (addr unit detail : Nat) : s.faultRecord d cause source write addr unit detail = { s with regs := (s.faultRecord d cause source write addr unit detail).regs, drw := (s.faultRecord d cause source write addr unit detail).drw } := by
  unfold State.faultRecord; extract_lets l s1 same; split
  · rfl
  · split <;> rfl

@[simp] theorem State.faultRecord_img (s : State) (d cause source : Nat) (write : Bool) (addr unit detail : Nat) : (s.faultRecord d cause source write addr unit detail).img = s.img := by rw [State.faultRecord_eq]
@[simp] theorem State.faultRecord_fab (s : State) (d cause source : Nat) (write : Bool) (addr unit detail : Nat) : (s.faultRecord d cause source write addr unit detail).fab = s.fab := by rw [State.faultRecord_eq]
@[simp] theorem State.faultRecord_recd (s : State) (d cause source : Nat) (write : Bool) (addr unit detail : Nat) : (s.faultRecord d cause source write addr unit detail).recd = s.recd := by rw [State.faultRecord_eq]
@[simp] theorem State.faultRecord_ztm (s : State) (d cause source : Nat) (write : Bool) (addr unit detail : Nat) : (s.faultRecord d cause source write addr unit detail).ztm = s.ztm := by rw [State.faultRecord_eq]
@[simp] theorem State.faultRecord_load (s : State) (d cause source : Nat) (write : Bool) (addr unit detail : Nat) : (s.faultRecord d cause source write addr unit detail).load = s.load := by rw [State.faultRecord_eq]
@[simp] theorem State.faultRecord_flt (s : State) (d cause source : Nat) (write : Bool) (addr unit detail : Nat) : (s.faultRecord d cause source write addr unit detail).flt = s.flt := by rw [State.faultRecord_eq]
@[simp] theorem State.faultRecord_pins (s : State) (d cause source : Nat) (write : Bool) (addr unit detail : Nat) : (s.faultRecord d cause source write addr unit detail).pins = s.pins := by rw [State.faultRecord_eq]
@[simp] theorem State.faultRecord_front (s : State) (d cause source : Nat) (write : Bool) (addr unit detail : Nat) : (s.faultRecord d cause source write addr unit detail).front = s.front := by rw [State.faultRecord_eq]
@[simp] theorem State.faultRecord_latchedRules (s : State) (d cause source : Nat) (write : Bool) (addr unit detail : Nat) : (s.faultRecord d cause source write addr unit detail).latchedRules = s.latchedRules := by rw [State.faultRecord_eq]
@[simp] theorem State.faultRecord_lth (s : State) (d cause source : Nat) (write : Bool) (addr unit detail : Nat) : (s.faultRecord d cause source write addr unit detail).lth = s.lth := by rw [State.faultRecord_eq]
@[simp] theorem State.faultRecord_canLthQ (s : State) (d cause source : Nat) (write : Bool) (addr unit detail : Nat) : (s.faultRecord d cause source write addr unit detail).canLthQ = s.canLthQ := by rw [State.faultRecord_eq]
@[simp] theorem State.faultRecord_can (s : State) (d cause source : Nat) (write : Bool) (addr unit detail : Nat) : (s.faultRecord d cause source write addr unit detail).can = s.can := by rw [State.faultRecord_eq]
@[simp] theorem State.faultRecord_emitted (s : State) (d cause source : Nat) (write : Bool) (addr unit detail : Nat) : (s.faultRecord d cause source write addr unit detail).emitted = s.emitted := by rw [State.faultRecord_eq]
@[simp] theorem State.faultRecord_mtr (s : State) (d cause source : Nat) (write : Bool) (addr unit detail : Nat) : (s.faultRecord d cause source write addr unit detail).mtr = s.mtr := by rw [State.faultRecord_eq]
@[simp] theorem State.faultRecord_ring (s : State) (d cause source : Nat) (write : Bool) (addr unit detail : Nat) : (s.faultRecord d cause source write addr unit detail).ring = s.ring := by rw [State.faultRecord_eq]
@[simp] theorem State.faultRecord_ringSig (s : State) (d cause source : Nat) (write : Bool) (addr unit detail : Nat) : (s.faultRecord d cause source write addr unit detail).ringSig = s.ringSig := by rw [State.faultRecord_eq]
@[simp] theorem State.faultRecord_seqs (s : State) (d cause source : Nat) (write : Bool) (addr unit detail : Nat) : (s.faultRecord d cause source write addr unit detail).seqs = s.seqs := by rw [State.faultRecord_eq]
@[simp] theorem State.faultRecord_iom (s : State) (d cause source : Nat) (write : Bool) (addr unit detail : Nat) : (s.faultRecord d cause source write addr unit detail).iom = s.iom := by rw [State.faultRecord_eq]
@[simp] theorem State.faultRecord_dvt (s : State) (d cause source : Nat) (write : Bool) (addr unit detail : Nat) : (s.faultRecord d cause source write addr unit detail).dvt = s.dvt := by rw [State.faultRecord_eq]
@[simp] theorem State.faultRecord_port (s : State) (d cause source : Nat) (write : Bool) (addr unit detail : Nat) : (s.faultRecord d cause source write addr unit detail).port = s.port := by rw [State.faultRecord_eq]
@[simp] theorem State.faultRecord_saKey (s : State) (d cause source : Nat) (write : Bool) (addr unit detail : Nat) : (s.faultRecord d cause source write addr unit detail).saKey = s.saKey := by rw [State.faultRecord_eq]
@[simp] theorem State.faultRecord_hart (s : State) (d cause source : Nat) (write : Bool) (addr unit detail : Nat) : (s.faultRecord d cause source write addr unit detail).hart = s.hart := by rw [State.faultRecord_eq]
@[simp] theorem State.faultRecord_wld (s : State) (d cause source : Nat) (write : Bool) (addr unit detail : Nat) : (s.faultRecord d cause source write addr unit detail).wld = s.wld := by rw [State.faultRecord_eq]
@[simp] theorem State.faultRecord_dwl (s : State) (d cause source : Nat) (write : Bool) (addr unit detail : Nat) : (s.faultRecord d cause source write addr unit detail).dwl = s.dwl := by rw [State.faultRecord_eq]
@[simp] theorem State.faultRecord_til (s : State) (d cause source : Nat) (write : Bool) (addr unit detail : Nat) : (s.faultRecord d cause source write addr unit detail).til = s.til := by rw [State.faultRecord_eq]
@[simp] theorem State.faultRecord_upd (s : State) (d cause source : Nat) (write : Bool) (addr unit detail : Nat) : (s.faultRecord d cause source write addr unit detail).upd = s.upd := by rw [State.faultRecord_eq]
@[simp] theorem State.faultRecord_start (s : State) (d cause source : Nat) (write : Bool) (addr unit detail : Nat) : (s.faultRecord d cause source write addr unit detail).start = s.start := by rw [State.faultRecord_eq]
@[simp] theorem State.faultRecord_resp (s : State) (d cause source : Nat) (write : Bool) (addr unit detail : Nat) : (s.faultRecord d cause source write addr unit detail).resp = s.resp := by rw [State.faultRecord_eq]
@[simp] theorem State.faultRecord_freeIx (s : State) (d cause source : Nat) (write : Bool) (addr unit detail : Nat) : (s.faultRecord d cause source write addr unit detail).freeIx = s.freeIx := by rw [State.faultRecord_eq]

/-- The registers it leaves. -/
theorem State.faultRecord_get (s : State) (d cause source : Nat) (write : Bool) (addr unit detail : Nat) (y : Fld) (i j cp : Nat) (h : y.reg.ctorIdx ≠ RegId.DRW_IRQ_STATUS.ctorIdx) (h2 : y.reg.ctorIdx ≠ RegId.DRW_FAULT_STAT.ctorIdx) :
    (s.faultRecord d cause source write addr unit detail).get y i j cp = s.get y i j cp := by
  unfold State.faultRecord
  extract_lets l s1 same
  split
  · exact State.get_put_reg _ _ _ _ _ _ _ _ _ _ h
  · split
    · exact State.get_put_reg _ _ _ _ _ _ _ _ _ _ h
    · rw [State.bump_get_ne _ _ _ _ _ _ _ _ _ _ h2]; exact State.get_put_reg _ _ _ _ _ _ _ _ _ _ h

/-! `setFlag` -/

theorem State.setFlag_eq (s : State) (c b : Nat) : s.setFlag c b = { s with regs := (s.setFlag c b).regs, recd := (s.setFlag c b).recd } := by
  unfold State.setFlag
  dsimp only
  split
  · rfl
  · split
    · rw [State.mitreLine_eq, State.raise_eq]; rfl
    · rw [State.raise_eq]; rfl

@[simp] theorem State.setFlag_img (s : State) (c b : Nat) : (s.setFlag c b).img = s.img := by rw [State.setFlag_eq]
@[simp] theorem State.setFlag_fab (s : State) (c b : Nat) : (s.setFlag c b).fab = s.fab := by rw [State.setFlag_eq]
@[simp] theorem State.setFlag_drw (s : State) (c b : Nat) : (s.setFlag c b).drw = s.drw := by rw [State.setFlag_eq]
@[simp] theorem State.setFlag_ztm (s : State) (c b : Nat) : (s.setFlag c b).ztm = s.ztm := by rw [State.setFlag_eq]
@[simp] theorem State.setFlag_load (s : State) (c b : Nat) : (s.setFlag c b).load = s.load := by rw [State.setFlag_eq]
@[simp] theorem State.setFlag_flt (s : State) (c b : Nat) : (s.setFlag c b).flt = s.flt := by rw [State.setFlag_eq]
@[simp] theorem State.setFlag_pins (s : State) (c b : Nat) : (s.setFlag c b).pins = s.pins := by rw [State.setFlag_eq]
@[simp] theorem State.setFlag_front (s : State) (c b : Nat) : (s.setFlag c b).front = s.front := by rw [State.setFlag_eq]
@[simp] theorem State.setFlag_latchedRules (s : State) (c b : Nat) : (s.setFlag c b).latchedRules = s.latchedRules := by rw [State.setFlag_eq]
@[simp] theorem State.setFlag_lth (s : State) (c b : Nat) : (s.setFlag c b).lth = s.lth := by rw [State.setFlag_eq]
@[simp] theorem State.setFlag_canLthQ (s : State) (c b : Nat) : (s.setFlag c b).canLthQ = s.canLthQ := by rw [State.setFlag_eq]
@[simp] theorem State.setFlag_can (s : State) (c b : Nat) : (s.setFlag c b).can = s.can := by rw [State.setFlag_eq]
@[simp] theorem State.setFlag_emitted (s : State) (c b : Nat) : (s.setFlag c b).emitted = s.emitted := by rw [State.setFlag_eq]
@[simp] theorem State.setFlag_mtr (s : State) (c b : Nat) : (s.setFlag c b).mtr = s.mtr := by rw [State.setFlag_eq]
@[simp] theorem State.setFlag_ring (s : State) (c b : Nat) : (s.setFlag c b).ring = s.ring := by rw [State.setFlag_eq]
@[simp] theorem State.setFlag_ringSig (s : State) (c b : Nat) : (s.setFlag c b).ringSig = s.ringSig := by rw [State.setFlag_eq]
@[simp] theorem State.setFlag_seqs (s : State) (c b : Nat) : (s.setFlag c b).seqs = s.seqs := by rw [State.setFlag_eq]
@[simp] theorem State.setFlag_iom (s : State) (c b : Nat) : (s.setFlag c b).iom = s.iom := by rw [State.setFlag_eq]
@[simp] theorem State.setFlag_dvt (s : State) (c b : Nat) : (s.setFlag c b).dvt = s.dvt := by rw [State.setFlag_eq]
@[simp] theorem State.setFlag_port (s : State) (c b : Nat) : (s.setFlag c b).port = s.port := by rw [State.setFlag_eq]
@[simp] theorem State.setFlag_saKey (s : State) (c b : Nat) : (s.setFlag c b).saKey = s.saKey := by rw [State.setFlag_eq]
@[simp] theorem State.setFlag_hart (s : State) (c b : Nat) : (s.setFlag c b).hart = s.hart := by rw [State.setFlag_eq]
@[simp] theorem State.setFlag_wld (s : State) (c b : Nat) : (s.setFlag c b).wld = s.wld := by rw [State.setFlag_eq]
@[simp] theorem State.setFlag_dwl (s : State) (c b : Nat) : (s.setFlag c b).dwl = s.dwl := by rw [State.setFlag_eq]
@[simp] theorem State.setFlag_til (s : State) (c b : Nat) : (s.setFlag c b).til = s.til := by rw [State.setFlag_eq]
@[simp] theorem State.setFlag_upd (s : State) (c b : Nat) : (s.setFlag c b).upd = s.upd := by rw [State.setFlag_eq]
@[simp] theorem State.setFlag_start (s : State) (c b : Nat) : (s.setFlag c b).start = s.start := by rw [State.setFlag_eq]
@[simp] theorem State.setFlag_resp (s : State) (c b : Nat) : (s.setFlag c b).resp = s.resp := by rw [State.setFlag_eq]
@[simp] theorem State.setFlag_freeIx (s : State) (c b : Nat) : (s.setFlag c b).freeIx = s.freeIx := by rw [State.setFlag_eq]

/-- The registers it leaves. -/
theorem State.setFlag_get (s : State) (c b : Nat) (y : Fld) (i j cp : Nat) (h : (regDef y.reg).win ≠ .recw) (h2 : y.reg.ctorIdx ≠ RegId.LCH_FLAGS.ctorIdx) (h3 : y.reg.ctorIdx ≠ RegId.LCH_EVENTS.ctorIdx)
    (h4 : y.reg.ctorIdx ≠ RegId.MTR_INT_ACK.ctorIdx) :
    (s.setFlag c b).get y i j cp = s.get y i j cp := by
  have hr : ∀ t : State, (t.raise F.LCH_EVENTS_EVENTS (2 ^ b) c 0 0 (s.chanOwner c) 0 c).get y i j cp = t.get y i j cp :=
    fun t => State.raise_get _ _ _ _ _ _ _ _ _ _ _ _ _ h h3
  unfold State.setFlag
  dsimp only
  split
  · rfl
  · split
    · rw [State.mitreLine_get _ _ _ _ _ _ h4]
      exact (hr _).trans (State.get_put_reg _ _ _ _ _ _ _ _ _ _ h2)
    · exact (hr _).trans (State.get_put_reg _ _ _ _ _ _ _ _ _ _ h2)

/-! `putMk` -/

theorem State.putMk_eq (s : State) (n : Nat) (x : MarkSt) : s.putMk n x = { s with start := (s.putMk n x).start } := by
  rfl

@[simp] theorem State.putMk_regs (s : State) (n : Nat) (x : MarkSt) : (s.putMk n x).regs = s.regs := by rw [State.putMk_eq]
@[simp] theorem State.putMk_img (s : State) (n : Nat) (x : MarkSt) : (s.putMk n x).img = s.img := by rw [State.putMk_eq]
@[simp] theorem State.putMk_fab (s : State) (n : Nat) (x : MarkSt) : (s.putMk n x).fab = s.fab := by rw [State.putMk_eq]
@[simp] theorem State.putMk_drw (s : State) (n : Nat) (x : MarkSt) : (s.putMk n x).drw = s.drw := by rw [State.putMk_eq]
@[simp] theorem State.putMk_recd (s : State) (n : Nat) (x : MarkSt) : (s.putMk n x).recd = s.recd := by rw [State.putMk_eq]
@[simp] theorem State.putMk_ztm (s : State) (n : Nat) (x : MarkSt) : (s.putMk n x).ztm = s.ztm := by rw [State.putMk_eq]
@[simp] theorem State.putMk_load (s : State) (n : Nat) (x : MarkSt) : (s.putMk n x).load = s.load := by rw [State.putMk_eq]
@[simp] theorem State.putMk_flt (s : State) (n : Nat) (x : MarkSt) : (s.putMk n x).flt = s.flt := by rw [State.putMk_eq]
@[simp] theorem State.putMk_pins (s : State) (n : Nat) (x : MarkSt) : (s.putMk n x).pins = s.pins := by rw [State.putMk_eq]
@[simp] theorem State.putMk_front (s : State) (n : Nat) (x : MarkSt) : (s.putMk n x).front = s.front := by rw [State.putMk_eq]
@[simp] theorem State.putMk_latchedRules (s : State) (n : Nat) (x : MarkSt) : (s.putMk n x).latchedRules = s.latchedRules := by rw [State.putMk_eq]
@[simp] theorem State.putMk_lth (s : State) (n : Nat) (x : MarkSt) : (s.putMk n x).lth = s.lth := by rw [State.putMk_eq]
@[simp] theorem State.putMk_canLthQ (s : State) (n : Nat) (x : MarkSt) : (s.putMk n x).canLthQ = s.canLthQ := by rw [State.putMk_eq]
@[simp] theorem State.putMk_can (s : State) (n : Nat) (x : MarkSt) : (s.putMk n x).can = s.can := by rw [State.putMk_eq]
@[simp] theorem State.putMk_emitted (s : State) (n : Nat) (x : MarkSt) : (s.putMk n x).emitted = s.emitted := by rw [State.putMk_eq]
@[simp] theorem State.putMk_mtr (s : State) (n : Nat) (x : MarkSt) : (s.putMk n x).mtr = s.mtr := by rw [State.putMk_eq]
@[simp] theorem State.putMk_ring (s : State) (n : Nat) (x : MarkSt) : (s.putMk n x).ring = s.ring := by rw [State.putMk_eq]
@[simp] theorem State.putMk_ringSig (s : State) (n : Nat) (x : MarkSt) : (s.putMk n x).ringSig = s.ringSig := by rw [State.putMk_eq]
@[simp] theorem State.putMk_seqs (s : State) (n : Nat) (x : MarkSt) : (s.putMk n x).seqs = s.seqs := by rw [State.putMk_eq]
@[simp] theorem State.putMk_iom (s : State) (n : Nat) (x : MarkSt) : (s.putMk n x).iom = s.iom := by rw [State.putMk_eq]
@[simp] theorem State.putMk_dvt (s : State) (n : Nat) (x : MarkSt) : (s.putMk n x).dvt = s.dvt := by rw [State.putMk_eq]
@[simp] theorem State.putMk_port (s : State) (n : Nat) (x : MarkSt) : (s.putMk n x).port = s.port := by rw [State.putMk_eq]
@[simp] theorem State.putMk_saKey (s : State) (n : Nat) (x : MarkSt) : (s.putMk n x).saKey = s.saKey := by rw [State.putMk_eq]
@[simp] theorem State.putMk_hart (s : State) (n : Nat) (x : MarkSt) : (s.putMk n x).hart = s.hart := by rw [State.putMk_eq]
@[simp] theorem State.putMk_wld (s : State) (n : Nat) (x : MarkSt) : (s.putMk n x).wld = s.wld := by rw [State.putMk_eq]
@[simp] theorem State.putMk_dwl (s : State) (n : Nat) (x : MarkSt) : (s.putMk n x).dwl = s.dwl := by rw [State.putMk_eq]
@[simp] theorem State.putMk_til (s : State) (n : Nat) (x : MarkSt) : (s.putMk n x).til = s.til := by rw [State.putMk_eq]
@[simp] theorem State.putMk_upd (s : State) (n : Nat) (x : MarkSt) : (s.putMk n x).upd = s.upd := by rw [State.putMk_eq]
@[simp] theorem State.putMk_resp (s : State) (n : Nat) (x : MarkSt) : (s.putMk n x).resp = s.resp := by rw [State.putMk_eq]
@[simp] theorem State.putMk_freeIx (s : State) (n : Nat) (x : MarkSt) : (s.putMk n x).freeIx = s.freeIx := by rw [State.putMk_eq]

theorem State.putMk_get (s : State) (n : Nat) (x : MarkSt) (y : Fld) (i j cp : Nat) :
    (s.putMk n x).get y i j cp = s.get y i j cp := by
  rfl

/-! `putFd` -/

theorem State.putFd_eq (s : State) (f : Nat) (x : FeedSt) : s.putFd f x = { s with load := (s.putFd f x).load } := by
  rfl

@[simp] theorem State.putFd_regs (s : State) (f : Nat) (x : FeedSt) : (s.putFd f x).regs = s.regs := by rw [State.putFd_eq]
@[simp] theorem State.putFd_img (s : State) (f : Nat) (x : FeedSt) : (s.putFd f x).img = s.img := by rw [State.putFd_eq]
@[simp] theorem State.putFd_fab (s : State) (f : Nat) (x : FeedSt) : (s.putFd f x).fab = s.fab := by rw [State.putFd_eq]
@[simp] theorem State.putFd_drw (s : State) (f : Nat) (x : FeedSt) : (s.putFd f x).drw = s.drw := by rw [State.putFd_eq]
@[simp] theorem State.putFd_recd (s : State) (f : Nat) (x : FeedSt) : (s.putFd f x).recd = s.recd := by rw [State.putFd_eq]
@[simp] theorem State.putFd_ztm (s : State) (f : Nat) (x : FeedSt) : (s.putFd f x).ztm = s.ztm := by rw [State.putFd_eq]
@[simp] theorem State.putFd_flt (s : State) (f : Nat) (x : FeedSt) : (s.putFd f x).flt = s.flt := by rw [State.putFd_eq]
@[simp] theorem State.putFd_pins (s : State) (f : Nat) (x : FeedSt) : (s.putFd f x).pins = s.pins := by rw [State.putFd_eq]
@[simp] theorem State.putFd_front (s : State) (f : Nat) (x : FeedSt) : (s.putFd f x).front = s.front := by rw [State.putFd_eq]
@[simp] theorem State.putFd_latchedRules (s : State) (f : Nat) (x : FeedSt) : (s.putFd f x).latchedRules = s.latchedRules := by rw [State.putFd_eq]
@[simp] theorem State.putFd_lth (s : State) (f : Nat) (x : FeedSt) : (s.putFd f x).lth = s.lth := by rw [State.putFd_eq]
@[simp] theorem State.putFd_canLthQ (s : State) (f : Nat) (x : FeedSt) : (s.putFd f x).canLthQ = s.canLthQ := by rw [State.putFd_eq]
@[simp] theorem State.putFd_can (s : State) (f : Nat) (x : FeedSt) : (s.putFd f x).can = s.can := by rw [State.putFd_eq]
@[simp] theorem State.putFd_emitted (s : State) (f : Nat) (x : FeedSt) : (s.putFd f x).emitted = s.emitted := by rw [State.putFd_eq]
@[simp] theorem State.putFd_mtr (s : State) (f : Nat) (x : FeedSt) : (s.putFd f x).mtr = s.mtr := by rw [State.putFd_eq]
@[simp] theorem State.putFd_ring (s : State) (f : Nat) (x : FeedSt) : (s.putFd f x).ring = s.ring := by rw [State.putFd_eq]
@[simp] theorem State.putFd_ringSig (s : State) (f : Nat) (x : FeedSt) : (s.putFd f x).ringSig = s.ringSig := by rw [State.putFd_eq]
@[simp] theorem State.putFd_seqs (s : State) (f : Nat) (x : FeedSt) : (s.putFd f x).seqs = s.seqs := by rw [State.putFd_eq]
@[simp] theorem State.putFd_iom (s : State) (f : Nat) (x : FeedSt) : (s.putFd f x).iom = s.iom := by rw [State.putFd_eq]
@[simp] theorem State.putFd_dvt (s : State) (f : Nat) (x : FeedSt) : (s.putFd f x).dvt = s.dvt := by rw [State.putFd_eq]
@[simp] theorem State.putFd_port (s : State) (f : Nat) (x : FeedSt) : (s.putFd f x).port = s.port := by rw [State.putFd_eq]
@[simp] theorem State.putFd_saKey (s : State) (f : Nat) (x : FeedSt) : (s.putFd f x).saKey = s.saKey := by rw [State.putFd_eq]
@[simp] theorem State.putFd_hart (s : State) (f : Nat) (x : FeedSt) : (s.putFd f x).hart = s.hart := by rw [State.putFd_eq]
@[simp] theorem State.putFd_wld (s : State) (f : Nat) (x : FeedSt) : (s.putFd f x).wld = s.wld := by rw [State.putFd_eq]
@[simp] theorem State.putFd_dwl (s : State) (f : Nat) (x : FeedSt) : (s.putFd f x).dwl = s.dwl := by rw [State.putFd_eq]
@[simp] theorem State.putFd_til (s : State) (f : Nat) (x : FeedSt) : (s.putFd f x).til = s.til := by rw [State.putFd_eq]
@[simp] theorem State.putFd_upd (s : State) (f : Nat) (x : FeedSt) : (s.putFd f x).upd = s.upd := by rw [State.putFd_eq]
@[simp] theorem State.putFd_start (s : State) (f : Nat) (x : FeedSt) : (s.putFd f x).start = s.start := by rw [State.putFd_eq]
@[simp] theorem State.putFd_resp (s : State) (f : Nat) (x : FeedSt) : (s.putFd f x).resp = s.resp := by rw [State.putFd_eq]
@[simp] theorem State.putFd_freeIx (s : State) (f : Nat) (x : FeedSt) : (s.putFd f x).freeIx = s.freeIx := by rw [State.putFd_eq]

theorem State.putFd_get (s : State) (f : Nat) (x : FeedSt) (y : Fld) (i j cp : Nat) :
    (s.putFd f x).get y i j cp = s.get y i j cp := by
  rfl

/-! `putLc` -/

theorem State.putLc_get (s : State) (c : Nat) (x : LoadCh) (y : Fld) (i j cp : Nat) :
    (s.putLc c x).get y i j cp = s.get y i j cp := by
  rfl

/-! `putTk` -/

theorem State.putTk_get (s : State) (k : Nat) (x : TaskSt) (y : Fld) (i j cp : Nat) :
    (s.putTk k x).get y i j cp = s.get y i j cp := by
  rfl

/-! `putPin` -/

theorem State.putPin_eq (s : State) (p : Nat) (x : PinSt) : s.putPin p x = { s with pins := (s.putPin p x).pins } := by
  rfl

@[simp] theorem State.putPin_regs (s : State) (p : Nat) (x : PinSt) : (s.putPin p x).regs = s.regs := by rw [State.putPin_eq]
@[simp] theorem State.putPin_img (s : State) (p : Nat) (x : PinSt) : (s.putPin p x).img = s.img := by rw [State.putPin_eq]
@[simp] theorem State.putPin_fab (s : State) (p : Nat) (x : PinSt) : (s.putPin p x).fab = s.fab := by rw [State.putPin_eq]
@[simp] theorem State.putPin_drw (s : State) (p : Nat) (x : PinSt) : (s.putPin p x).drw = s.drw := by rw [State.putPin_eq]
@[simp] theorem State.putPin_recd (s : State) (p : Nat) (x : PinSt) : (s.putPin p x).recd = s.recd := by rw [State.putPin_eq]
@[simp] theorem State.putPin_ztm (s : State) (p : Nat) (x : PinSt) : (s.putPin p x).ztm = s.ztm := by rw [State.putPin_eq]
@[simp] theorem State.putPin_load (s : State) (p : Nat) (x : PinSt) : (s.putPin p x).load = s.load := by rw [State.putPin_eq]
@[simp] theorem State.putPin_flt (s : State) (p : Nat) (x : PinSt) : (s.putPin p x).flt = s.flt := by rw [State.putPin_eq]
@[simp] theorem State.putPin_front (s : State) (p : Nat) (x : PinSt) : (s.putPin p x).front = s.front := by rw [State.putPin_eq]
@[simp] theorem State.putPin_latchedRules (s : State) (p : Nat) (x : PinSt) : (s.putPin p x).latchedRules = s.latchedRules := by rw [State.putPin_eq]
@[simp] theorem State.putPin_lth (s : State) (p : Nat) (x : PinSt) : (s.putPin p x).lth = s.lth := by rw [State.putPin_eq]
@[simp] theorem State.putPin_canLthQ (s : State) (p : Nat) (x : PinSt) : (s.putPin p x).canLthQ = s.canLthQ := by rw [State.putPin_eq]
@[simp] theorem State.putPin_can (s : State) (p : Nat) (x : PinSt) : (s.putPin p x).can = s.can := by rw [State.putPin_eq]
@[simp] theorem State.putPin_emitted (s : State) (p : Nat) (x : PinSt) : (s.putPin p x).emitted = s.emitted := by rw [State.putPin_eq]
@[simp] theorem State.putPin_mtr (s : State) (p : Nat) (x : PinSt) : (s.putPin p x).mtr = s.mtr := by rw [State.putPin_eq]
@[simp] theorem State.putPin_ring (s : State) (p : Nat) (x : PinSt) : (s.putPin p x).ring = s.ring := by rw [State.putPin_eq]
@[simp] theorem State.putPin_ringSig (s : State) (p : Nat) (x : PinSt) : (s.putPin p x).ringSig = s.ringSig := by rw [State.putPin_eq]
@[simp] theorem State.putPin_seqs (s : State) (p : Nat) (x : PinSt) : (s.putPin p x).seqs = s.seqs := by rw [State.putPin_eq]
@[simp] theorem State.putPin_iom (s : State) (p : Nat) (x : PinSt) : (s.putPin p x).iom = s.iom := by rw [State.putPin_eq]
@[simp] theorem State.putPin_dvt (s : State) (p : Nat) (x : PinSt) : (s.putPin p x).dvt = s.dvt := by rw [State.putPin_eq]
@[simp] theorem State.putPin_port (s : State) (p : Nat) (x : PinSt) : (s.putPin p x).port = s.port := by rw [State.putPin_eq]
@[simp] theorem State.putPin_saKey (s : State) (p : Nat) (x : PinSt) : (s.putPin p x).saKey = s.saKey := by rw [State.putPin_eq]
@[simp] theorem State.putPin_hart (s : State) (p : Nat) (x : PinSt) : (s.putPin p x).hart = s.hart := by rw [State.putPin_eq]
@[simp] theorem State.putPin_wld (s : State) (p : Nat) (x : PinSt) : (s.putPin p x).wld = s.wld := by rw [State.putPin_eq]
@[simp] theorem State.putPin_dwl (s : State) (p : Nat) (x : PinSt) : (s.putPin p x).dwl = s.dwl := by rw [State.putPin_eq]
@[simp] theorem State.putPin_til (s : State) (p : Nat) (x : PinSt) : (s.putPin p x).til = s.til := by rw [State.putPin_eq]
@[simp] theorem State.putPin_upd (s : State) (p : Nat) (x : PinSt) : (s.putPin p x).upd = s.upd := by rw [State.putPin_eq]
@[simp] theorem State.putPin_start (s : State) (p : Nat) (x : PinSt) : (s.putPin p x).start = s.start := by rw [State.putPin_eq]
@[simp] theorem State.putPin_resp (s : State) (p : Nat) (x : PinSt) : (s.putPin p x).resp = s.resp := by rw [State.putPin_eq]
@[simp] theorem State.putPin_freeIx (s : State) (p : Nat) (x : PinSt) : (s.putPin p x).freeIx = s.freeIx := by rw [State.putPin_eq]

theorem State.putPin_get (s : State) (p : Nat) (x : PinSt) (y : Fld) (i j cp : Nat) :
    (s.putPin p x).get y i j cp = s.get y i j cp := by
  rfl

/-! `putPhase` -/

theorem State.putPhase_eq (s : State) (p : Nat) : s.putPhase p = { s with start := (s.putPhase p).start } := by
  rfl

@[simp] theorem State.putPhase_regs (s : State) (p : Nat) : (s.putPhase p).regs = s.regs := by rw [State.putPhase_eq]
@[simp] theorem State.putPhase_img (s : State) (p : Nat) : (s.putPhase p).img = s.img := by rw [State.putPhase_eq]
@[simp] theorem State.putPhase_fab (s : State) (p : Nat) : (s.putPhase p).fab = s.fab := by rw [State.putPhase_eq]
@[simp] theorem State.putPhase_drw (s : State) (p : Nat) : (s.putPhase p).drw = s.drw := by rw [State.putPhase_eq]
@[simp] theorem State.putPhase_recd (s : State) (p : Nat) : (s.putPhase p).recd = s.recd := by rw [State.putPhase_eq]
@[simp] theorem State.putPhase_ztm (s : State) (p : Nat) : (s.putPhase p).ztm = s.ztm := by rw [State.putPhase_eq]
@[simp] theorem State.putPhase_load (s : State) (p : Nat) : (s.putPhase p).load = s.load := by rw [State.putPhase_eq]
@[simp] theorem State.putPhase_flt (s : State) (p : Nat) : (s.putPhase p).flt = s.flt := by rw [State.putPhase_eq]
@[simp] theorem State.putPhase_pins (s : State) (p : Nat) : (s.putPhase p).pins = s.pins := by rw [State.putPhase_eq]
@[simp] theorem State.putPhase_front (s : State) (p : Nat) : (s.putPhase p).front = s.front := by rw [State.putPhase_eq]
@[simp] theorem State.putPhase_latchedRules (s : State) (p : Nat) : (s.putPhase p).latchedRules = s.latchedRules := by rw [State.putPhase_eq]
@[simp] theorem State.putPhase_lth (s : State) (p : Nat) : (s.putPhase p).lth = s.lth := by rw [State.putPhase_eq]
@[simp] theorem State.putPhase_canLthQ (s : State) (p : Nat) : (s.putPhase p).canLthQ = s.canLthQ := by rw [State.putPhase_eq]
@[simp] theorem State.putPhase_can (s : State) (p : Nat) : (s.putPhase p).can = s.can := by rw [State.putPhase_eq]
@[simp] theorem State.putPhase_emitted (s : State) (p : Nat) : (s.putPhase p).emitted = s.emitted := by rw [State.putPhase_eq]
@[simp] theorem State.putPhase_mtr (s : State) (p : Nat) : (s.putPhase p).mtr = s.mtr := by rw [State.putPhase_eq]
@[simp] theorem State.putPhase_ring (s : State) (p : Nat) : (s.putPhase p).ring = s.ring := by rw [State.putPhase_eq]
@[simp] theorem State.putPhase_ringSig (s : State) (p : Nat) : (s.putPhase p).ringSig = s.ringSig := by rw [State.putPhase_eq]
@[simp] theorem State.putPhase_seqs (s : State) (p : Nat) : (s.putPhase p).seqs = s.seqs := by rw [State.putPhase_eq]
@[simp] theorem State.putPhase_iom (s : State) (p : Nat) : (s.putPhase p).iom = s.iom := by rw [State.putPhase_eq]
@[simp] theorem State.putPhase_dvt (s : State) (p : Nat) : (s.putPhase p).dvt = s.dvt := by rw [State.putPhase_eq]
@[simp] theorem State.putPhase_port (s : State) (p : Nat) : (s.putPhase p).port = s.port := by rw [State.putPhase_eq]
@[simp] theorem State.putPhase_saKey (s : State) (p : Nat) : (s.putPhase p).saKey = s.saKey := by rw [State.putPhase_eq]
@[simp] theorem State.putPhase_hart (s : State) (p : Nat) : (s.putPhase p).hart = s.hart := by rw [State.putPhase_eq]
@[simp] theorem State.putPhase_wld (s : State) (p : Nat) : (s.putPhase p).wld = s.wld := by rw [State.putPhase_eq]
@[simp] theorem State.putPhase_dwl (s : State) (p : Nat) : (s.putPhase p).dwl = s.dwl := by rw [State.putPhase_eq]
@[simp] theorem State.putPhase_til (s : State) (p : Nat) : (s.putPhase p).til = s.til := by rw [State.putPhase_eq]
@[simp] theorem State.putPhase_upd (s : State) (p : Nat) : (s.putPhase p).upd = s.upd := by rw [State.putPhase_eq]
@[simp] theorem State.putPhase_resp (s : State) (p : Nat) : (s.putPhase p).resp = s.resp := by rw [State.putPhase_eq]
@[simp] theorem State.putPhase_freeIx (s : State) (p : Nat) : (s.putPhase p).freeIx = s.freeIx := by rw [State.putPhase_eq]

theorem State.putPhase_get (s : State) (p : Nat) (y : Fld) (i j cp : Nat) :
    (s.putPhase p).get y i j cp = s.get y i j cp := by
  rfl

/-! `clearFlag` -/

theorem State.clearFlag_eq (s : State) (c b : Nat) : s.clearFlag c b = { s with regs := (s.clearFlag c b).regs } := by
  rfl

@[simp] theorem State.clearFlag_img (s : State) (c b : Nat) : (s.clearFlag c b).img = s.img := by rw [State.clearFlag_eq]
@[simp] theorem State.clearFlag_fab (s : State) (c b : Nat) : (s.clearFlag c b).fab = s.fab := by rw [State.clearFlag_eq]
@[simp] theorem State.clearFlag_drw (s : State) (c b : Nat) : (s.clearFlag c b).drw = s.drw := by rw [State.clearFlag_eq]
@[simp] theorem State.clearFlag_recd (s : State) (c b : Nat) : (s.clearFlag c b).recd = s.recd := by rw [State.clearFlag_eq]
@[simp] theorem State.clearFlag_ztm (s : State) (c b : Nat) : (s.clearFlag c b).ztm = s.ztm := by rw [State.clearFlag_eq]
@[simp] theorem State.clearFlag_load (s : State) (c b : Nat) : (s.clearFlag c b).load = s.load := by rw [State.clearFlag_eq]
@[simp] theorem State.clearFlag_flt (s : State) (c b : Nat) : (s.clearFlag c b).flt = s.flt := by rw [State.clearFlag_eq]
@[simp] theorem State.clearFlag_pins (s : State) (c b : Nat) : (s.clearFlag c b).pins = s.pins := by rw [State.clearFlag_eq]
@[simp] theorem State.clearFlag_front (s : State) (c b : Nat) : (s.clearFlag c b).front = s.front := by rw [State.clearFlag_eq]
@[simp] theorem State.clearFlag_latchedRules (s : State) (c b : Nat) : (s.clearFlag c b).latchedRules = s.latchedRules := by rw [State.clearFlag_eq]
@[simp] theorem State.clearFlag_lth (s : State) (c b : Nat) : (s.clearFlag c b).lth = s.lth := by rw [State.clearFlag_eq]
@[simp] theorem State.clearFlag_canLthQ (s : State) (c b : Nat) : (s.clearFlag c b).canLthQ = s.canLthQ := by rw [State.clearFlag_eq]
@[simp] theorem State.clearFlag_can (s : State) (c b : Nat) : (s.clearFlag c b).can = s.can := by rw [State.clearFlag_eq]
@[simp] theorem State.clearFlag_emitted (s : State) (c b : Nat) : (s.clearFlag c b).emitted = s.emitted := by rw [State.clearFlag_eq]
@[simp] theorem State.clearFlag_mtr (s : State) (c b : Nat) : (s.clearFlag c b).mtr = s.mtr := by rw [State.clearFlag_eq]
@[simp] theorem State.clearFlag_ring (s : State) (c b : Nat) : (s.clearFlag c b).ring = s.ring := by rw [State.clearFlag_eq]
@[simp] theorem State.clearFlag_ringSig (s : State) (c b : Nat) : (s.clearFlag c b).ringSig = s.ringSig := by rw [State.clearFlag_eq]
@[simp] theorem State.clearFlag_seqs (s : State) (c b : Nat) : (s.clearFlag c b).seqs = s.seqs := by rw [State.clearFlag_eq]
@[simp] theorem State.clearFlag_iom (s : State) (c b : Nat) : (s.clearFlag c b).iom = s.iom := by rw [State.clearFlag_eq]
@[simp] theorem State.clearFlag_dvt (s : State) (c b : Nat) : (s.clearFlag c b).dvt = s.dvt := by rw [State.clearFlag_eq]
@[simp] theorem State.clearFlag_port (s : State) (c b : Nat) : (s.clearFlag c b).port = s.port := by rw [State.clearFlag_eq]
@[simp] theorem State.clearFlag_saKey (s : State) (c b : Nat) : (s.clearFlag c b).saKey = s.saKey := by rw [State.clearFlag_eq]
@[simp] theorem State.clearFlag_hart (s : State) (c b : Nat) : (s.clearFlag c b).hart = s.hart := by rw [State.clearFlag_eq]
@[simp] theorem State.clearFlag_wld (s : State) (c b : Nat) : (s.clearFlag c b).wld = s.wld := by rw [State.clearFlag_eq]
@[simp] theorem State.clearFlag_dwl (s : State) (c b : Nat) : (s.clearFlag c b).dwl = s.dwl := by rw [State.clearFlag_eq]
@[simp] theorem State.clearFlag_til (s : State) (c b : Nat) : (s.clearFlag c b).til = s.til := by rw [State.clearFlag_eq]
@[simp] theorem State.clearFlag_upd (s : State) (c b : Nat) : (s.clearFlag c b).upd = s.upd := by rw [State.clearFlag_eq]
@[simp] theorem State.clearFlag_start (s : State) (c b : Nat) : (s.clearFlag c b).start = s.start := by rw [State.clearFlag_eq]
@[simp] theorem State.clearFlag_resp (s : State) (c b : Nat) : (s.clearFlag c b).resp = s.resp := by rw [State.clearFlag_eq]
@[simp] theorem State.clearFlag_freeIx (s : State) (c b : Nat) : (s.clearFlag c b).freeIx = s.freeIx := by rw [State.clearFlag_eq]

/-- The registers it leaves. -/
theorem State.clearFlag_get (s : State) (c b : Nat) (y : Fld) (i j cp : Nat) (h : y.reg.ctorIdx ≠ RegId.LCH_FLAGS.ctorIdx) :
    (s.clearFlag c b).get y i j cp = s.get y i j cp := by
  exact State.get_put_reg _ _ _ _ _ _ _ _ _ _ h

/-! `offDone` -/

theorem State.offDone_eq (s : State) (c : Nat) : s.offDone c = { s with regs := (s.offDone c).regs, load := (s.offDone c).load } := by
  unfold State.offDone
  dsimp only
  generalize (if (s.decide_ c).2 = 2 then 2 else 0) = v
  split <;> rfl

@[simp] theorem State.offDone_img (s : State) (c : Nat) : (s.offDone c).img = s.img := by rw [State.offDone_eq]
@[simp] theorem State.offDone_fab (s : State) (c : Nat) : (s.offDone c).fab = s.fab := by rw [State.offDone_eq]
@[simp] theorem State.offDone_drw (s : State) (c : Nat) : (s.offDone c).drw = s.drw := by rw [State.offDone_eq]
@[simp] theorem State.offDone_recd (s : State) (c : Nat) : (s.offDone c).recd = s.recd := by rw [State.offDone_eq]
@[simp] theorem State.offDone_ztm (s : State) (c : Nat) : (s.offDone c).ztm = s.ztm := by rw [State.offDone_eq]
@[simp] theorem State.offDone_flt (s : State) (c : Nat) : (s.offDone c).flt = s.flt := by rw [State.offDone_eq]
@[simp] theorem State.offDone_pins (s : State) (c : Nat) : (s.offDone c).pins = s.pins := by rw [State.offDone_eq]
@[simp] theorem State.offDone_front (s : State) (c : Nat) : (s.offDone c).front = s.front := by rw [State.offDone_eq]
@[simp] theorem State.offDone_latchedRules (s : State) (c : Nat) : (s.offDone c).latchedRules = s.latchedRules := by rw [State.offDone_eq]
@[simp] theorem State.offDone_lth (s : State) (c : Nat) : (s.offDone c).lth = s.lth := by rw [State.offDone_eq]
@[simp] theorem State.offDone_canLthQ (s : State) (c : Nat) : (s.offDone c).canLthQ = s.canLthQ := by rw [State.offDone_eq]
@[simp] theorem State.offDone_can (s : State) (c : Nat) : (s.offDone c).can = s.can := by rw [State.offDone_eq]
@[simp] theorem State.offDone_emitted (s : State) (c : Nat) : (s.offDone c).emitted = s.emitted := by rw [State.offDone_eq]
@[simp] theorem State.offDone_mtr (s : State) (c : Nat) : (s.offDone c).mtr = s.mtr := by rw [State.offDone_eq]
@[simp] theorem State.offDone_ring (s : State) (c : Nat) : (s.offDone c).ring = s.ring := by rw [State.offDone_eq]
@[simp] theorem State.offDone_ringSig (s : State) (c : Nat) : (s.offDone c).ringSig = s.ringSig := by rw [State.offDone_eq]
@[simp] theorem State.offDone_seqs (s : State) (c : Nat) : (s.offDone c).seqs = s.seqs := by rw [State.offDone_eq]
@[simp] theorem State.offDone_iom (s : State) (c : Nat) : (s.offDone c).iom = s.iom := by rw [State.offDone_eq]
@[simp] theorem State.offDone_dvt (s : State) (c : Nat) : (s.offDone c).dvt = s.dvt := by rw [State.offDone_eq]
@[simp] theorem State.offDone_port (s : State) (c : Nat) : (s.offDone c).port = s.port := by rw [State.offDone_eq]
@[simp] theorem State.offDone_saKey (s : State) (c : Nat) : (s.offDone c).saKey = s.saKey := by rw [State.offDone_eq]
@[simp] theorem State.offDone_hart (s : State) (c : Nat) : (s.offDone c).hart = s.hart := by rw [State.offDone_eq]
@[simp] theorem State.offDone_wld (s : State) (c : Nat) : (s.offDone c).wld = s.wld := by rw [State.offDone_eq]
@[simp] theorem State.offDone_dwl (s : State) (c : Nat) : (s.offDone c).dwl = s.dwl := by rw [State.offDone_eq]
@[simp] theorem State.offDone_til (s : State) (c : Nat) : (s.offDone c).til = s.til := by rw [State.offDone_eq]
@[simp] theorem State.offDone_upd (s : State) (c : Nat) : (s.offDone c).upd = s.upd := by rw [State.offDone_eq]
@[simp] theorem State.offDone_start (s : State) (c : Nat) : (s.offDone c).start = s.start := by rw [State.offDone_eq]
@[simp] theorem State.offDone_resp (s : State) (c : Nat) : (s.offDone c).resp = s.resp := by rw [State.offDone_eq]
@[simp] theorem State.offDone_freeIx (s : State) (c : Nat) : (s.offDone c).freeIx = s.freeIx := by rw [State.offDone_eq]

/-- The registers it leaves. -/
theorem State.offDone_get (s : State) (c : Nat) (y : Fld) (i j cp : Nat) (h1 : y.reg.ctorIdx ≠ RegId.LCH_STATE.ctorIdx) (h2 : y.reg.ctorIdx ≠ RegId.LCH_FLAGS.ctorIdx) :
    (s.offDone c).get y i j cp = s.get y i j cp := by
  unfold State.offDone
  dsimp only
  generalize (if (s.decide_ c).2 = 2 then 2 else 0) = v
  split
  · exact State.get_put_reg _ _ _ _ _ _ _ _ _ _ h1
  · rw [State.get_put_reg _ _ _ _ _ _ _ _ _ _ h1, State.clearFlag_get _ _ _ _ _ _ _ h2]; exact State.get_put_reg _ _ _ _ _ _ _ _ _ _ h1

/-! `turnOn` -/

theorem State.turnOn_eq (s : State) (c : Nat) : s.turnOn c = { s with regs := (s.turnOn c).regs, load := (s.turnOn c).load, recd := (s.turnOn c).recd, freeIx := (s.turnOn c).freeIx } := by
  unfold State.turnOn State.free
  dsimp only
  split
  · rfl
  · split
    · rw [State.trace_eq]; unfold State.put; dsimp only; rw [State.setFlag_eq]; rfl
    · unfold State.put; dsimp only; rw [State.setFlag_eq]; rfl

@[simp] theorem State.turnOn_img (s : State) (c : Nat) : (s.turnOn c).img = s.img := by rw [State.turnOn_eq]
@[simp] theorem State.turnOn_fab (s : State) (c : Nat) : (s.turnOn c).fab = s.fab := by rw [State.turnOn_eq]
@[simp] theorem State.turnOn_drw (s : State) (c : Nat) : (s.turnOn c).drw = s.drw := by rw [State.turnOn_eq]
@[simp] theorem State.turnOn_ztm (s : State) (c : Nat) : (s.turnOn c).ztm = s.ztm := by rw [State.turnOn_eq]
@[simp] theorem State.turnOn_flt (s : State) (c : Nat) : (s.turnOn c).flt = s.flt := by rw [State.turnOn_eq]
@[simp] theorem State.turnOn_pins (s : State) (c : Nat) : (s.turnOn c).pins = s.pins := by rw [State.turnOn_eq]
@[simp] theorem State.turnOn_front (s : State) (c : Nat) : (s.turnOn c).front = s.front := by rw [State.turnOn_eq]
@[simp] theorem State.turnOn_latchedRules (s : State) (c : Nat) : (s.turnOn c).latchedRules = s.latchedRules := by rw [State.turnOn_eq]
@[simp] theorem State.turnOn_lth (s : State) (c : Nat) : (s.turnOn c).lth = s.lth := by rw [State.turnOn_eq]
@[simp] theorem State.turnOn_canLthQ (s : State) (c : Nat) : (s.turnOn c).canLthQ = s.canLthQ := by rw [State.turnOn_eq]
@[simp] theorem State.turnOn_can (s : State) (c : Nat) : (s.turnOn c).can = s.can := by rw [State.turnOn_eq]
@[simp] theorem State.turnOn_emitted (s : State) (c : Nat) : (s.turnOn c).emitted = s.emitted := by rw [State.turnOn_eq]
@[simp] theorem State.turnOn_mtr (s : State) (c : Nat) : (s.turnOn c).mtr = s.mtr := by rw [State.turnOn_eq]
@[simp] theorem State.turnOn_ring (s : State) (c : Nat) : (s.turnOn c).ring = s.ring := by rw [State.turnOn_eq]
@[simp] theorem State.turnOn_ringSig (s : State) (c : Nat) : (s.turnOn c).ringSig = s.ringSig := by rw [State.turnOn_eq]
@[simp] theorem State.turnOn_seqs (s : State) (c : Nat) : (s.turnOn c).seqs = s.seqs := by rw [State.turnOn_eq]
@[simp] theorem State.turnOn_iom (s : State) (c : Nat) : (s.turnOn c).iom = s.iom := by rw [State.turnOn_eq]
@[simp] theorem State.turnOn_dvt (s : State) (c : Nat) : (s.turnOn c).dvt = s.dvt := by rw [State.turnOn_eq]
@[simp] theorem State.turnOn_port (s : State) (c : Nat) : (s.turnOn c).port = s.port := by rw [State.turnOn_eq]
@[simp] theorem State.turnOn_saKey (s : State) (c : Nat) : (s.turnOn c).saKey = s.saKey := by rw [State.turnOn_eq]
@[simp] theorem State.turnOn_hart (s : State) (c : Nat) : (s.turnOn c).hart = s.hart := by rw [State.turnOn_eq]
@[simp] theorem State.turnOn_wld (s : State) (c : Nat) : (s.turnOn c).wld = s.wld := by rw [State.turnOn_eq]
@[simp] theorem State.turnOn_dwl (s : State) (c : Nat) : (s.turnOn c).dwl = s.dwl := by rw [State.turnOn_eq]
@[simp] theorem State.turnOn_til (s : State) (c : Nat) : (s.turnOn c).til = s.til := by rw [State.turnOn_eq]
@[simp] theorem State.turnOn_upd (s : State) (c : Nat) : (s.turnOn c).upd = s.upd := by rw [State.turnOn_eq]
@[simp] theorem State.turnOn_start (s : State) (c : Nat) : (s.turnOn c).start = s.start := by rw [State.turnOn_eq]
@[simp] theorem State.turnOn_resp (s : State) (c : Nat) : (s.turnOn c).resp = s.resp := by rw [State.turnOn_eq]

/-- The registers it leaves. -/
theorem State.turnOn_get (s : State) (c : Nat) (y : Fld) (i j cp : Nat) (h : (regDef y.reg).win ≠ .recw) (h1 : y.reg.ctorIdx ≠ RegId.LCH_STATE.ctorIdx)
    (h2 : y.reg.ctorIdx ≠ RegId.LCH_FLAGS.ctorIdx) (h3 : y.reg.ctorIdx ≠ RegId.LCH_EVENTS.ctorIdx)
    (h4 : y.reg.ctorIdx ≠ RegId.MTR_INT_ACK.ctorIdx) :
    (s.turnOn c).get y i j cp = s.get y i j cp := by
  have hs : ∀ t : State, ((t.setFlag c Flag.onState).put F.LCH_STATE_PHASE 1 c).get y i j cp = t.get y i j cp := fun t => by
    rw [State.get_put_reg _ _ _ _ _ _ _ _ _ _ h1, State.setFlag_get _ _ _ _ _ _ _ h h2 h3 h4]
  unfold State.turnOn State.free
  dsimp only
  split
  · exact State.get_put_reg _ _ _ _ _ _ _ _ _ _ h1
  · split
    · rw [State.trace_get _ _ _ _ _ _ _ _ _ _ h, hs]; exact State.get_put_reg _ _ _ _ _ _ _ _ _ _ h1
    · rw [hs]; exact State.get_put_reg _ _ _ _ _ _ _ _ _ _ h1

/-! `applyCmd` -/

theorem State.applyCmd_eq (s : State) (c cmd : Nat) (fast : Bool) : s.applyCmd c cmd fast = { s with regs := (s.applyCmd c cmd fast).regs, load := (s.applyCmd c cmd fast).load, recd := (s.applyCmd c cmd fast).recd, freeIx := (s.applyCmd c cmd fast).freeIx } := by
  unfold State.applyCmd
  dsimp only
  split
  · split
    · split <;> rfl
    · rw [State.turnOn_eq]
  · split
    · split
      · rw [State.offDone_eq]
      · split <;> rfl
    · split <;> rfl

@[simp] theorem State.applyCmd_img (s : State) (c cmd : Nat) (fast : Bool) : (s.applyCmd c cmd fast).img = s.img := by rw [State.applyCmd_eq]
@[simp] theorem State.applyCmd_fab (s : State) (c cmd : Nat) (fast : Bool) : (s.applyCmd c cmd fast).fab = s.fab := by rw [State.applyCmd_eq]
@[simp] theorem State.applyCmd_drw (s : State) (c cmd : Nat) (fast : Bool) : (s.applyCmd c cmd fast).drw = s.drw := by rw [State.applyCmd_eq]
@[simp] theorem State.applyCmd_ztm (s : State) (c cmd : Nat) (fast : Bool) : (s.applyCmd c cmd fast).ztm = s.ztm := by rw [State.applyCmd_eq]
@[simp] theorem State.applyCmd_flt (s : State) (c cmd : Nat) (fast : Bool) : (s.applyCmd c cmd fast).flt = s.flt := by rw [State.applyCmd_eq]
@[simp] theorem State.applyCmd_pins (s : State) (c cmd : Nat) (fast : Bool) : (s.applyCmd c cmd fast).pins = s.pins := by rw [State.applyCmd_eq]
@[simp] theorem State.applyCmd_front (s : State) (c cmd : Nat) (fast : Bool) : (s.applyCmd c cmd fast).front = s.front := by rw [State.applyCmd_eq]
@[simp] theorem State.applyCmd_latchedRules (s : State) (c cmd : Nat) (fast : Bool) : (s.applyCmd c cmd fast).latchedRules = s.latchedRules := by rw [State.applyCmd_eq]
@[simp] theorem State.applyCmd_lth (s : State) (c cmd : Nat) (fast : Bool) : (s.applyCmd c cmd fast).lth = s.lth := by rw [State.applyCmd_eq]
@[simp] theorem State.applyCmd_canLthQ (s : State) (c cmd : Nat) (fast : Bool) : (s.applyCmd c cmd fast).canLthQ = s.canLthQ := by rw [State.applyCmd_eq]
@[simp] theorem State.applyCmd_can (s : State) (c cmd : Nat) (fast : Bool) : (s.applyCmd c cmd fast).can = s.can := by rw [State.applyCmd_eq]
@[simp] theorem State.applyCmd_emitted (s : State) (c cmd : Nat) (fast : Bool) : (s.applyCmd c cmd fast).emitted = s.emitted := by rw [State.applyCmd_eq]
@[simp] theorem State.applyCmd_mtr (s : State) (c cmd : Nat) (fast : Bool) : (s.applyCmd c cmd fast).mtr = s.mtr := by rw [State.applyCmd_eq]
@[simp] theorem State.applyCmd_ring (s : State) (c cmd : Nat) (fast : Bool) : (s.applyCmd c cmd fast).ring = s.ring := by rw [State.applyCmd_eq]
@[simp] theorem State.applyCmd_ringSig (s : State) (c cmd : Nat) (fast : Bool) : (s.applyCmd c cmd fast).ringSig = s.ringSig := by rw [State.applyCmd_eq]
@[simp] theorem State.applyCmd_seqs (s : State) (c cmd : Nat) (fast : Bool) : (s.applyCmd c cmd fast).seqs = s.seqs := by rw [State.applyCmd_eq]
@[simp] theorem State.applyCmd_iom (s : State) (c cmd : Nat) (fast : Bool) : (s.applyCmd c cmd fast).iom = s.iom := by rw [State.applyCmd_eq]
@[simp] theorem State.applyCmd_dvt (s : State) (c cmd : Nat) (fast : Bool) : (s.applyCmd c cmd fast).dvt = s.dvt := by rw [State.applyCmd_eq]
@[simp] theorem State.applyCmd_port (s : State) (c cmd : Nat) (fast : Bool) : (s.applyCmd c cmd fast).port = s.port := by rw [State.applyCmd_eq]
@[simp] theorem State.applyCmd_saKey (s : State) (c cmd : Nat) (fast : Bool) : (s.applyCmd c cmd fast).saKey = s.saKey := by rw [State.applyCmd_eq]
@[simp] theorem State.applyCmd_hart (s : State) (c cmd : Nat) (fast : Bool) : (s.applyCmd c cmd fast).hart = s.hart := by rw [State.applyCmd_eq]
@[simp] theorem State.applyCmd_wld (s : State) (c cmd : Nat) (fast : Bool) : (s.applyCmd c cmd fast).wld = s.wld := by rw [State.applyCmd_eq]
@[simp] theorem State.applyCmd_dwl (s : State) (c cmd : Nat) (fast : Bool) : (s.applyCmd c cmd fast).dwl = s.dwl := by rw [State.applyCmd_eq]
@[simp] theorem State.applyCmd_til (s : State) (c cmd : Nat) (fast : Bool) : (s.applyCmd c cmd fast).til = s.til := by rw [State.applyCmd_eq]
@[simp] theorem State.applyCmd_upd (s : State) (c cmd : Nat) (fast : Bool) : (s.applyCmd c cmd fast).upd = s.upd := by rw [State.applyCmd_eq]
@[simp] theorem State.applyCmd_start (s : State) (c cmd : Nat) (fast : Bool) : (s.applyCmd c cmd fast).start = s.start := by rw [State.applyCmd_eq]
@[simp] theorem State.applyCmd_resp (s : State) (c cmd : Nat) (fast : Bool) : (s.applyCmd c cmd fast).resp = s.resp := by rw [State.applyCmd_eq]

/-- The registers it leaves. -/
theorem State.applyCmd_get (s : State) (c cmd : Nat) (fast : Bool) (y : Fld) (i j cp : Nat) (h : (regDef y.reg).win ≠ .recw) (h1 : y.reg.ctorIdx ≠ RegId.LCH_STATE.ctorIdx)
    (h2 : y.reg.ctorIdx ≠ RegId.LCH_FLAGS.ctorIdx) (h3 : y.reg.ctorIdx ≠ RegId.LCH_EVENTS.ctorIdx)
    (h4 : y.reg.ctorIdx ≠ RegId.MTR_INT_ACK.ctorIdx) :
    (s.applyCmd c cmd fast).get y i j cp = s.get y i j cp := by
  unfold State.applyCmd
  dsimp only
  split
  · split
    · split <;> rfl
    · exact State.turnOn_get _ _ _ _ _ _ h h1 h2 h3 h4
  · split
    · split
      · exact State.offDone_get _ _ _ _ _ _ h1 h2
      · split <;> rfl
    · split <;> exact State.get_put_reg _ _ _ _ _ _ _ _ _ _ h1

/-! `resolve` -/

theorem State.resolve_eq (s : State) (c : Nat) : s.resolve c = { s with regs := (s.resolve c).regs, load := (s.resolve c).load, recd := (s.resolve c).recd, freeIx := (s.resolve c).freeIx } := by
  unfold State.resolve
  split
  · rfl
  · dsimp only; rw [State.applyCmd_eq]; rfl

@[simp] theorem State.resolve_img (s : State) (c : Nat) : (s.resolve c).img = s.img := by rw [State.resolve_eq]
@[simp] theorem State.resolve_fab (s : State) (c : Nat) : (s.resolve c).fab = s.fab := by rw [State.resolve_eq]
@[simp] theorem State.resolve_drw (s : State) (c : Nat) : (s.resolve c).drw = s.drw := by rw [State.resolve_eq]
@[simp] theorem State.resolve_ztm (s : State) (c : Nat) : (s.resolve c).ztm = s.ztm := by rw [State.resolve_eq]
@[simp] theorem State.resolve_flt (s : State) (c : Nat) : (s.resolve c).flt = s.flt := by rw [State.resolve_eq]
@[simp] theorem State.resolve_pins (s : State) (c : Nat) : (s.resolve c).pins = s.pins := by rw [State.resolve_eq]
@[simp] theorem State.resolve_front (s : State) (c : Nat) : (s.resolve c).front = s.front := by rw [State.resolve_eq]
@[simp] theorem State.resolve_latchedRules (s : State) (c : Nat) : (s.resolve c).latchedRules = s.latchedRules := by rw [State.resolve_eq]
@[simp] theorem State.resolve_lth (s : State) (c : Nat) : (s.resolve c).lth = s.lth := by rw [State.resolve_eq]
@[simp] theorem State.resolve_canLthQ (s : State) (c : Nat) : (s.resolve c).canLthQ = s.canLthQ := by rw [State.resolve_eq]
@[simp] theorem State.resolve_can (s : State) (c : Nat) : (s.resolve c).can = s.can := by rw [State.resolve_eq]
@[simp] theorem State.resolve_emitted (s : State) (c : Nat) : (s.resolve c).emitted = s.emitted := by rw [State.resolve_eq]
@[simp] theorem State.resolve_mtr (s : State) (c : Nat) : (s.resolve c).mtr = s.mtr := by rw [State.resolve_eq]
@[simp] theorem State.resolve_ring (s : State) (c : Nat) : (s.resolve c).ring = s.ring := by rw [State.resolve_eq]
@[simp] theorem State.resolve_ringSig (s : State) (c : Nat) : (s.resolve c).ringSig = s.ringSig := by rw [State.resolve_eq]
@[simp] theorem State.resolve_seqs (s : State) (c : Nat) : (s.resolve c).seqs = s.seqs := by rw [State.resolve_eq]
@[simp] theorem State.resolve_iom (s : State) (c : Nat) : (s.resolve c).iom = s.iom := by rw [State.resolve_eq]
@[simp] theorem State.resolve_dvt (s : State) (c : Nat) : (s.resolve c).dvt = s.dvt := by rw [State.resolve_eq]
@[simp] theorem State.resolve_port (s : State) (c : Nat) : (s.resolve c).port = s.port := by rw [State.resolve_eq]
@[simp] theorem State.resolve_saKey (s : State) (c : Nat) : (s.resolve c).saKey = s.saKey := by rw [State.resolve_eq]
@[simp] theorem State.resolve_hart (s : State) (c : Nat) : (s.resolve c).hart = s.hart := by rw [State.resolve_eq]
@[simp] theorem State.resolve_wld (s : State) (c : Nat) : (s.resolve c).wld = s.wld := by rw [State.resolve_eq]
@[simp] theorem State.resolve_dwl (s : State) (c : Nat) : (s.resolve c).dwl = s.dwl := by rw [State.resolve_eq]
@[simp] theorem State.resolve_til (s : State) (c : Nat) : (s.resolve c).til = s.til := by rw [State.resolve_eq]
@[simp] theorem State.resolve_upd (s : State) (c : Nat) : (s.resolve c).upd = s.upd := by rw [State.resolve_eq]
@[simp] theorem State.resolve_start (s : State) (c : Nat) : (s.resolve c).start = s.start := by rw [State.resolve_eq]
@[simp] theorem State.resolve_resp (s : State) (c : Nat) : (s.resolve c).resp = s.resp := by rw [State.resolve_eq]

/-- The registers it leaves. -/
theorem State.resolve_get (s : State) (c : Nat) (y : Fld) (i j cp : Nat) (h : (regDef y.reg).win ≠ .recw) (h1 : y.reg.ctorIdx ≠ RegId.LCH_STATE.ctorIdx)
    (h2 : y.reg.ctorIdx ≠ RegId.LCH_FLAGS.ctorIdx) (h3 : y.reg.ctorIdx ≠ RegId.LCH_EVENTS.ctorIdx)
    (h4 : y.reg.ctorIdx ≠ RegId.MTR_INT_ACK.ctorIdx) :
    (s.resolve c).get y i j cp = s.get y i j cp := by
  unfold State.resolve
  split
  · rfl
  · dsimp only
    rw [State.applyCmd_get _ _ _ _ _ _ _ _ h h1 h2 h3 h4]; exact State.get_put_reg _ _ _ _ _ _ _ _ _ _ h1

/-! `setDrive` -/

theorem State.setDrive_eq (s : State) (c : Nat) (v : Bool) : s.setDrive c v = { s with regs := (s.setDrive c v).regs } := by
  unfold State.setDrive; split <;> rfl

@[simp] theorem State.setDrive_img (s : State) (c : Nat) (v : Bool) : (s.setDrive c v).img = s.img := by rw [State.setDrive_eq]
@[simp] theorem State.setDrive_fab (s : State) (c : Nat) (v : Bool) : (s.setDrive c v).fab = s.fab := by rw [State.setDrive_eq]
@[simp] theorem State.setDrive_drw (s : State) (c : Nat) (v : Bool) : (s.setDrive c v).drw = s.drw := by rw [State.setDrive_eq]
@[simp] theorem State.setDrive_recd (s : State) (c : Nat) (v : Bool) : (s.setDrive c v).recd = s.recd := by rw [State.setDrive_eq]
@[simp] theorem State.setDrive_ztm (s : State) (c : Nat) (v : Bool) : (s.setDrive c v).ztm = s.ztm := by rw [State.setDrive_eq]
@[simp] theorem State.setDrive_load (s : State) (c : Nat) (v : Bool) : (s.setDrive c v).load = s.load := by rw [State.setDrive_eq]
@[simp] theorem State.setDrive_flt (s : State) (c : Nat) (v : Bool) : (s.setDrive c v).flt = s.flt := by rw [State.setDrive_eq]
@[simp] theorem State.setDrive_pins (s : State) (c : Nat) (v : Bool) : (s.setDrive c v).pins = s.pins := by rw [State.setDrive_eq]
@[simp] theorem State.setDrive_front (s : State) (c : Nat) (v : Bool) : (s.setDrive c v).front = s.front := by rw [State.setDrive_eq]
@[simp] theorem State.setDrive_latchedRules (s : State) (c : Nat) (v : Bool) : (s.setDrive c v).latchedRules = s.latchedRules := by rw [State.setDrive_eq]
@[simp] theorem State.setDrive_lth (s : State) (c : Nat) (v : Bool) : (s.setDrive c v).lth = s.lth := by rw [State.setDrive_eq]
@[simp] theorem State.setDrive_canLthQ (s : State) (c : Nat) (v : Bool) : (s.setDrive c v).canLthQ = s.canLthQ := by rw [State.setDrive_eq]
@[simp] theorem State.setDrive_can (s : State) (c : Nat) (v : Bool) : (s.setDrive c v).can = s.can := by rw [State.setDrive_eq]
@[simp] theorem State.setDrive_emitted (s : State) (c : Nat) (v : Bool) : (s.setDrive c v).emitted = s.emitted := by rw [State.setDrive_eq]
@[simp] theorem State.setDrive_mtr (s : State) (c : Nat) (v : Bool) : (s.setDrive c v).mtr = s.mtr := by rw [State.setDrive_eq]
@[simp] theorem State.setDrive_ring (s : State) (c : Nat) (v : Bool) : (s.setDrive c v).ring = s.ring := by rw [State.setDrive_eq]
@[simp] theorem State.setDrive_ringSig (s : State) (c : Nat) (v : Bool) : (s.setDrive c v).ringSig = s.ringSig := by rw [State.setDrive_eq]
@[simp] theorem State.setDrive_seqs (s : State) (c : Nat) (v : Bool) : (s.setDrive c v).seqs = s.seqs := by rw [State.setDrive_eq]
@[simp] theorem State.setDrive_iom (s : State) (c : Nat) (v : Bool) : (s.setDrive c v).iom = s.iom := by rw [State.setDrive_eq]
@[simp] theorem State.setDrive_dvt (s : State) (c : Nat) (v : Bool) : (s.setDrive c v).dvt = s.dvt := by rw [State.setDrive_eq]
@[simp] theorem State.setDrive_port (s : State) (c : Nat) (v : Bool) : (s.setDrive c v).port = s.port := by rw [State.setDrive_eq]
@[simp] theorem State.setDrive_saKey (s : State) (c : Nat) (v : Bool) : (s.setDrive c v).saKey = s.saKey := by rw [State.setDrive_eq]
@[simp] theorem State.setDrive_hart (s : State) (c : Nat) (v : Bool) : (s.setDrive c v).hart = s.hart := by rw [State.setDrive_eq]
@[simp] theorem State.setDrive_wld (s : State) (c : Nat) (v : Bool) : (s.setDrive c v).wld = s.wld := by rw [State.setDrive_eq]
@[simp] theorem State.setDrive_dwl (s : State) (c : Nat) (v : Bool) : (s.setDrive c v).dwl = s.dwl := by rw [State.setDrive_eq]
@[simp] theorem State.setDrive_til (s : State) (c : Nat) (v : Bool) : (s.setDrive c v).til = s.til := by rw [State.setDrive_eq]
@[simp] theorem State.setDrive_upd (s : State) (c : Nat) (v : Bool) : (s.setDrive c v).upd = s.upd := by rw [State.setDrive_eq]
@[simp] theorem State.setDrive_start (s : State) (c : Nat) (v : Bool) : (s.setDrive c v).start = s.start := by rw [State.setDrive_eq]
@[simp] theorem State.setDrive_resp (s : State) (c : Nat) (v : Bool) : (s.setDrive c v).resp = s.resp := by rw [State.setDrive_eq]
@[simp] theorem State.setDrive_freeIx (s : State) (c : Nat) (v : Bool) : (s.setDrive c v).freeIx = s.freeIx := by rw [State.setDrive_eq]

/-- The registers it leaves. -/
theorem State.setDrive_get (s : State) (c : Nat) (v : Bool) (y : Fld) (i j cp : Nat) (h1 : y.reg.ctorIdx ≠ RegId.LCH_STATE.ctorIdx) :
    (s.setDrive c v).get y i j cp = s.get y i j cp := by
  unfold State.setDrive
  split
  · exact State.get_put_reg _ _ _ _ _ _ _ _ _ _ h1
  · rfl

/-! `drive` -/

theorem State.drive_eq (s : State) (c : Nat) (v : Bool) : s.drive c v = { s with regs := (s.drive c v).regs, load := (s.drive c v).load, recd := (s.drive c v).recd, freeIx := (s.drive c v).freeIx } := by
  unfold State.drive; rw [State.resolve_eq, State.setDrive_eq]

@[simp] theorem State.drive_img (s : State) (c : Nat) (v : Bool) : (s.drive c v).img = s.img := by rw [State.drive_eq]
@[simp] theorem State.drive_fab (s : State) (c : Nat) (v : Bool) : (s.drive c v).fab = s.fab := by rw [State.drive_eq]
@[simp] theorem State.drive_drw (s : State) (c : Nat) (v : Bool) : (s.drive c v).drw = s.drw := by rw [State.drive_eq]
@[simp] theorem State.drive_ztm (s : State) (c : Nat) (v : Bool) : (s.drive c v).ztm = s.ztm := by rw [State.drive_eq]
@[simp] theorem State.drive_flt (s : State) (c : Nat) (v : Bool) : (s.drive c v).flt = s.flt := by rw [State.drive_eq]
@[simp] theorem State.drive_pins (s : State) (c : Nat) (v : Bool) : (s.drive c v).pins = s.pins := by rw [State.drive_eq]
@[simp] theorem State.drive_front (s : State) (c : Nat) (v : Bool) : (s.drive c v).front = s.front := by rw [State.drive_eq]
@[simp] theorem State.drive_latchedRules (s : State) (c : Nat) (v : Bool) : (s.drive c v).latchedRules = s.latchedRules := by rw [State.drive_eq]
@[simp] theorem State.drive_lth (s : State) (c : Nat) (v : Bool) : (s.drive c v).lth = s.lth := by rw [State.drive_eq]
@[simp] theorem State.drive_canLthQ (s : State) (c : Nat) (v : Bool) : (s.drive c v).canLthQ = s.canLthQ := by rw [State.drive_eq]
@[simp] theorem State.drive_can (s : State) (c : Nat) (v : Bool) : (s.drive c v).can = s.can := by rw [State.drive_eq]
@[simp] theorem State.drive_emitted (s : State) (c : Nat) (v : Bool) : (s.drive c v).emitted = s.emitted := by rw [State.drive_eq]
@[simp] theorem State.drive_mtr (s : State) (c : Nat) (v : Bool) : (s.drive c v).mtr = s.mtr := by rw [State.drive_eq]
@[simp] theorem State.drive_ring (s : State) (c : Nat) (v : Bool) : (s.drive c v).ring = s.ring := by rw [State.drive_eq]
@[simp] theorem State.drive_ringSig (s : State) (c : Nat) (v : Bool) : (s.drive c v).ringSig = s.ringSig := by rw [State.drive_eq]
@[simp] theorem State.drive_seqs (s : State) (c : Nat) (v : Bool) : (s.drive c v).seqs = s.seqs := by rw [State.drive_eq]
@[simp] theorem State.drive_iom (s : State) (c : Nat) (v : Bool) : (s.drive c v).iom = s.iom := by rw [State.drive_eq]
@[simp] theorem State.drive_dvt (s : State) (c : Nat) (v : Bool) : (s.drive c v).dvt = s.dvt := by rw [State.drive_eq]
@[simp] theorem State.drive_port (s : State) (c : Nat) (v : Bool) : (s.drive c v).port = s.port := by rw [State.drive_eq]
@[simp] theorem State.drive_saKey (s : State) (c : Nat) (v : Bool) : (s.drive c v).saKey = s.saKey := by rw [State.drive_eq]
@[simp] theorem State.drive_hart (s : State) (c : Nat) (v : Bool) : (s.drive c v).hart = s.hart := by rw [State.drive_eq]
@[simp] theorem State.drive_wld (s : State) (c : Nat) (v : Bool) : (s.drive c v).wld = s.wld := by rw [State.drive_eq]
@[simp] theorem State.drive_dwl (s : State) (c : Nat) (v : Bool) : (s.drive c v).dwl = s.dwl := by rw [State.drive_eq]
@[simp] theorem State.drive_til (s : State) (c : Nat) (v : Bool) : (s.drive c v).til = s.til := by rw [State.drive_eq]
@[simp] theorem State.drive_upd (s : State) (c : Nat) (v : Bool) : (s.drive c v).upd = s.upd := by rw [State.drive_eq]
@[simp] theorem State.drive_start (s : State) (c : Nat) (v : Bool) : (s.drive c v).start = s.start := by rw [State.drive_eq]
@[simp] theorem State.drive_resp (s : State) (c : Nat) (v : Bool) : (s.drive c v).resp = s.resp := by rw [State.drive_eq]

/-- The registers it leaves. -/
theorem State.drive_get (s : State) (c : Nat) (v : Bool) (y : Fld) (i j cp : Nat) (h : (regDef y.reg).win ≠ .recw) (h1 : y.reg.ctorIdx ≠ RegId.LCH_STATE.ctorIdx)
    (h2 : y.reg.ctorIdx ≠ RegId.LCH_FLAGS.ctorIdx) (h3 : y.reg.ctorIdx ≠ RegId.LCH_EVENTS.ctorIdx)
    (h4 : y.reg.ctorIdx ≠ RegId.MTR_INT_ACK.ctorIdx) :
    (s.drive c v).get y i j cp = s.get y i j cp := by
  unfold State.drive
  rw [State.resolve_get _ _ _ _ _ _ h h1 h2 h3 h4, State.setDrive_get _ _ _ _ _ _ _ h1]

/-! `clampChan` -/

theorem State.clampChan_eq (s : State) (c : Nat) : s.clampChan c = { s with regs := (s.clampChan c).regs, load := (s.clampChan c).load, recd := (s.clampChan c).recd, freeIx := (s.clampChan c).freeIx } := by
  unfold State.clampChan
  dsimp only
  rw [State.resolve_eq]; rfl

@[simp] theorem State.clampChan_img (s : State) (c : Nat) : (s.clampChan c).img = s.img := by rw [State.clampChan_eq]
@[simp] theorem State.clampChan_fab (s : State) (c : Nat) : (s.clampChan c).fab = s.fab := by rw [State.clampChan_eq]
@[simp] theorem State.clampChan_drw (s : State) (c : Nat) : (s.clampChan c).drw = s.drw := by rw [State.clampChan_eq]
@[simp] theorem State.clampChan_ztm (s : State) (c : Nat) : (s.clampChan c).ztm = s.ztm := by rw [State.clampChan_eq]
@[simp] theorem State.clampChan_flt (s : State) (c : Nat) : (s.clampChan c).flt = s.flt := by rw [State.clampChan_eq]
@[simp] theorem State.clampChan_pins (s : State) (c : Nat) : (s.clampChan c).pins = s.pins := by rw [State.clampChan_eq]
@[simp] theorem State.clampChan_front (s : State) (c : Nat) : (s.clampChan c).front = s.front := by rw [State.clampChan_eq]
@[simp] theorem State.clampChan_latchedRules (s : State) (c : Nat) : (s.clampChan c).latchedRules = s.latchedRules := by rw [State.clampChan_eq]
@[simp] theorem State.clampChan_lth (s : State) (c : Nat) : (s.clampChan c).lth = s.lth := by rw [State.clampChan_eq]
@[simp] theorem State.clampChan_canLthQ (s : State) (c : Nat) : (s.clampChan c).canLthQ = s.canLthQ := by rw [State.clampChan_eq]
@[simp] theorem State.clampChan_can (s : State) (c : Nat) : (s.clampChan c).can = s.can := by rw [State.clampChan_eq]
@[simp] theorem State.clampChan_emitted (s : State) (c : Nat) : (s.clampChan c).emitted = s.emitted := by rw [State.clampChan_eq]
@[simp] theorem State.clampChan_mtr (s : State) (c : Nat) : (s.clampChan c).mtr = s.mtr := by rw [State.clampChan_eq]
@[simp] theorem State.clampChan_ring (s : State) (c : Nat) : (s.clampChan c).ring = s.ring := by rw [State.clampChan_eq]
@[simp] theorem State.clampChan_ringSig (s : State) (c : Nat) : (s.clampChan c).ringSig = s.ringSig := by rw [State.clampChan_eq]
@[simp] theorem State.clampChan_seqs (s : State) (c : Nat) : (s.clampChan c).seqs = s.seqs := by rw [State.clampChan_eq]
@[simp] theorem State.clampChan_iom (s : State) (c : Nat) : (s.clampChan c).iom = s.iom := by rw [State.clampChan_eq]
@[simp] theorem State.clampChan_dvt (s : State) (c : Nat) : (s.clampChan c).dvt = s.dvt := by rw [State.clampChan_eq]
@[simp] theorem State.clampChan_port (s : State) (c : Nat) : (s.clampChan c).port = s.port := by rw [State.clampChan_eq]
@[simp] theorem State.clampChan_saKey (s : State) (c : Nat) : (s.clampChan c).saKey = s.saKey := by rw [State.clampChan_eq]
@[simp] theorem State.clampChan_hart (s : State) (c : Nat) : (s.clampChan c).hart = s.hart := by rw [State.clampChan_eq]
@[simp] theorem State.clampChan_wld (s : State) (c : Nat) : (s.clampChan c).wld = s.wld := by rw [State.clampChan_eq]
@[simp] theorem State.clampChan_dwl (s : State) (c : Nat) : (s.clampChan c).dwl = s.dwl := by rw [State.clampChan_eq]
@[simp] theorem State.clampChan_til (s : State) (c : Nat) : (s.clampChan c).til = s.til := by rw [State.clampChan_eq]
@[simp] theorem State.clampChan_upd (s : State) (c : Nat) : (s.clampChan c).upd = s.upd := by rw [State.clampChan_eq]
@[simp] theorem State.clampChan_start (s : State) (c : Nat) : (s.clampChan c).start = s.start := by rw [State.clampChan_eq]
@[simp] theorem State.clampChan_resp (s : State) (c : Nat) : (s.clampChan c).resp = s.resp := by rw [State.clampChan_eq]

/-- The registers it leaves. -/
theorem State.clampChan_get (s : State) (c : Nat) (y : Fld) (i j cp : Nat) (h : (regDef y.reg).win ≠ .recw) (h1 : y.reg.ctorIdx ≠ RegId.LCH_STATE.ctorIdx)
    (h2 : y.reg.ctorIdx ≠ RegId.LCH_FLAGS.ctorIdx) (h3 : y.reg.ctorIdx ≠ RegId.LCH_EVENTS.ctorIdx)
    (h4 : y.reg.ctorIdx ≠ RegId.MTR_INT_ACK.ctorIdx) (h5 : y.reg.ctorIdx ≠ RegId.CLP_CHAN.ctorIdx) :
    (s.clampChan c).get y i j cp = s.get y i j cp := by
  unfold State.clampChan
  dsimp only
  rw [State.resolve_get _ _ _ _ _ _ h h1 h2 h3 h4, State.putLc_get]
  rw [State.get_put_reg _ _ _ _ _ _ _ _ _ _ h5, State.get_put_reg _ _ _ _ _ _ _ _ _ _ h5, State.get_put_reg _ _ _ _ _ _ _ _ _ _ h5]; exact State.get_put_reg _ _ _ _ _ _ _ _ _ _ h5

end Sys2Proof.Machine
end

