-- ==== Sys2Proof/Tests/Slice0.lean ====
section
/-! SUPPORT. Small tests of the model: for each statement, states and operands that meet its hypotheses, clause by clause; values of
operations worked by hand from the spec; and ill-formed commands that the checks refuse. -/

namespace Sys2Proof.Tests
set_option Elab.async false
open Sys2Proof.Machine

/-- A write of a register position reaches it at once. -/
def can (s : State) (m : Master) (r : RegId) (i j w : Nat) (v : Option (Fin 16) := none) : Bool :=
  match s.presents m (regAddr r v i j) 4 .write w with
  | some a => s.awake && (s.tagTaken a).cause (s.tagGiven a) == 0 && !(s.tagTaken a).semBlocks (s.tagGiven a) &&
    ((s.tagTaken a).waitKey (s.tagGiven a)).isNone
  | none => false

/-- A read of a register position reaches it at once. -/
def sees (s : State) (m : Master) (r : RegId) (i j : Nat) (v : Option (Fin 16) := none) : Bool :=
  match s.presents m (regAddr r v i j) 4 .read 0 with
  | some a => s.awake && (s.tagTaken a).cause (s.tagGiven a) == 0 && !(s.tagTaken a).semBlocks (s.tagGiven a) &&
    ((s.tagTaken a).waitKey (s.tagGiven a)).isNone && (s.lineServe a.tag a.num a.addr).isNone
  | none => false

/-- An access opens at an address. -/
def enters (s : State) (m : Master) (addr size : Nat) (op : AccOp) (data : Nat) : Bool :=
  match s.presents m addr size op data with
  | some a => s.awake && (s.tagTaken a).cause (s.tagGiven a) == 0 && !(s.tagTaken a).semBlocks (s.tagGiven a) &&
    ((s.tagTaken a).waitKey (s.tagGiven a)).isNone
  | none => false

/-- `can` is what the statements' hypothesis asks. -/
theorem can_writes {s : State} {m : Master} {r : RegId} {i j w : Nat} {v : Option (Fin 16)} (h : can s m r i j w v = true) :
    ∃ a, s.writes m r v i j w a := by
  unfold can at h
  split at h
  · next a ha =>
    simp only [Bool.and_eq_true, Bool.not_eq_true', beq_iff_eq, Option.isNone_iff_eq_none] at h
    exact ⟨a, ha, h.1.1.1, h.1.1.2, h.1.2, h.2⟩
  · cases h

/-- `sees` is what the statements' hypothesis asks. -/
theorem sees_reads {s : State} {m : Master} {r : RegId} {i j : Nat} {v : Option (Fin 16)} (h : sees s m r i j v = true) :
    ∃ a, s.reads m r v i j a := by
  unfold sees at h
  split at h
  · next a ha =>
    simp only [Bool.and_eq_true, Bool.not_eq_true', beq_iff_eq, Option.isNone_iff_eq_none] at h
    exact ⟨a, ha, ⟨h.1.1.1.1, h.1.1.1.2, h.1.1.2, h.1.2⟩, h.2⟩
  · cases h

/-- An image: channel 0 of two segments by register, channel 2 by PWM 0, channel 50 by DRV 0; pins of every mode; one rule that latches and one
that does not; drawer 3 with CAN 0, task 0 and host queue 0, and a program of four operations, whose words are given. -/
def imW (ops : List Nat) : Image :=
  ⟨[(1, [0x30100, 3, 0, 0, 3, 0, 0, 100, 0x30002, 1, 0, 0, 0, 0x80000, 0, 100, 0x30032, 2, 0, 0, 0, 0, 0, 0]), (2, [100, 0, 200, 0]),
    (3, [32868]), (4, [0x39, 0x640000, 0x3A, 0x640000, 0x3B, 0x640000, 0x3C, 0x6403E8, 0x3D, 0, 0x38, 0]), (5, [1, 0]),
    (6, [1, 0x80, 0x80, 0, 5, 0x80, 0x80, 0]),
    (7, List.replicate 36 0 ++ [0, 0, 0, 0, 0, 0, 1, 1, 1, 0, 0, 0]), (9, [16, 1, 1, 0, 0, 0, 0, 0]),
    (11, [1, 0] ++ (List.replicate 37 [0x1001, 0]).flatten ++ List.replicate 296 0x00200100 ++ [0x00030001, 0, 0, 0]),
    (12, [0, 8]), (13, [1, 7, 0, 0]),
    (14, [0, 0, 4, 8] ++ List.replicate 12 0 ++ [1] ++ List.replicate 71 0 ++ [0, 0x0F102020, 100, 101, 102, 103, 104, 105, 106, 107] ++
      List.replicate 8 0 ++ ops)], 1, 1, []⟩
/-- The image whose operations are NOP. -/
def im : Image := imW (List.replicate 8 0)

/-- The machine running with that image: every die loaded, hart 0 in the normal world, hart 1 speaking for drawer 3. -/
def up : State :=
  { State.reset with
    img := some im
    start := { State.reset.start with phase := Ph.run, recUp := true, checked := true }
    drw := { State.reset.drw with count := 16, ringOwner := [(0, 4)] }
    load := ⟨[], [], [], []⟩
    hart := [(0, { HartSt.rst with w := false, inReset := false }), (1, { HartSt.rst with w := false, inReset := false, hdrawer := 3 }),
      (2, { HartSt.rst with inReset := false })] }

/-- The keeper, drawer 3 and the secure world, each by a hart. -/
def h0 : Master := .hart 0 false
def h3 : Master := .hart 1 true
def hs : Master := .hart 2 false

/-- A state in another phase. -/
def phased (s : State) (n : Nat) : State := { s with start := { s.start with phase := n } }


/-! Witnesses: the whole machine -/

theorem wit_EveryStepKeepsTheInvariant :
    ({ up with pending := [.registerRead h0 0x30000000 4, .choldOkReached] }).Inv ∧ State.reset.Inv := by
  unfold State.Inv
  and_intros <;> decide +kernel

theorem wit_RegisterFieldsFollowTheirAccessCodes :
    ∀ a ∈ ([.rw, .w1c, .ro, .wo, .rc] : List Acc), ∃ r ∈ ([.REC_CURSOR, .REC_EVT, .FAB_AERR_COUNT, .FAB_CLAIM, .REC_FLUSH, .REC_WIN,
      .DRW_IRQ_STATUS, .EPT_CNT, .INP_MI_STAT, .TIL_CMD, .DVT_FDB_CTRL, .LTH_STATE] : List RegId),
      ((regDef r).fields.any fun f => f.acc == a) = true := by
  and_intros <;> decide +kernel

theorem wit_RegisterAddressesNameOnePosition :
    (regDef .REC_FLUSH).kind ≠ .view ∧ 0 < (regDef .REC_FLUSH).n1 ∧ (regDef .LCH_STATE).kind ≠ .glob ∧ 95 < (regDef .LCH_STATE).n1 := by
  and_intros <;> decide +kernel

theorem wit_GrantedAccessesArePerformed :
    hitAt (regAddr .REC_CURSOR (some 15) 0 0) = some (hitOf .REC_CURSOR (some 15) 0 0) ∧
      up.posLive (hitOf .REC_CURSOR none 0 0) = true ∧ can up h0 .REC_CURSOR 0 0 4095 = true ∧ sees up h0 .REC_CURSOR 0 0 = true ∧
      isWindow (regAddr .REC_CURSOR none 0 0) = true ∧
      (∀ x ∈ [AccOp.read, .write, .amo .add, .cas 1, .lr], enters up hs 0x10000000 4 x 7 = true) ∧ isWindow 0x10000000 = false := by
  and_intros <;> decide +kernel

theorem wit_RefusedAccessesChangeNothing :
    up.presents h3 (regAddr .REC_CURSOR none 0 0) 4 .write 5 ≠ none ∧ up.awake = true ∧
      enters up h3 (regAddr .REC_CURSOR none 0 0) 4 .write 5 = false ∧ enters up h0 0x3F000000 4 .read 0 = false := by
  and_intros <;> decide +kernel

/-- Granule 100 of DRAM belongs to drawer 3. -/
def owned : State := (up.put F.IOM_DGRAN_VALID 1 100).put F.IOM_DGRAN_OWNER 3 100

theorem wit_DrawerStoresStayInTheirGranules :
    enters owned h3 (0x100000000 + 100 * 0x200000) 8 .write 0xFF = true ∧ (owned.hartTag 1 true).drawer = 3 ∧
      (owned.hartTag 1 true).secure = false ∧
      (∃ t, exec (.memoryAccess h3 (0x100000000 + 100 * 0x200000) 8 .write 0xFF) owned = .next t ∧
        memByte t.mem (0x100000000 + 100 * 0x200000) ≠ memByte owned.mem (0x100000000 + 100 * 0x200000)) := by
  refine ⟨by decide +kernel, by decide +kernel, by decide +kernel, _, rfl, by decide +kernel⟩

theorem wit_OtherCommandsLeaveMemory : mayStore .choldOkReached = false ∧ mayStore (.opEnd 0) = false := by decide

/-! Witnesses: the fabric, starts and power -/

/-- Island 13 claimed once, and claimed 255 times. -/
def claimed (n : Nat) : State := up.put F.FAB_ISL_STATE_CLAIM n 13
/-- Island n in a power state. -/
def island (s : State) (n st : Nat) : State := s.put F.FAB_ISL_STATE_STATE st n

theorem wit_IslandPowerFollowsItsTable :
    (can up h0 .FAB_ISL_REQ 13 0 1 = true ∧ up.islState 13 = Isl.on ∧ gateOk 13 = true ∧ offOk 13 = true ∧ up.islandIdle 13 = true ∧
      up.get F.FAB_ISL_STATE_CLAIM 13 = 0) ∧
    (can (claimed 1) hs .FAB_ISL_REQ 13 0 1 = true ∧ can (claimed 1) h0 .FAB_ISL_REQ 13 0 1 = true ∧
      (claimed 1).get F.FAB_ISL_STATE_CLAIM 13 ≠ 0) ∧
    (can up h0 .FAB_ISL_REQ 40 0 1 = true ∧ can up h0 .FAB_ISL_REQ 40 0 2 = true ∧ gateOk 40 = false ∧ offOk 40 = false) ∧
    (can up h0 .FAB_ISL_REQ 13 0 2 = true) ∧
    (∀ st ∈ [Isl.on, Isl.draining, Isl.hold, Isl.gated, Isl.off], can (island up 13 st) h0 .FAB_ISL_REQ 13 0 0 = true) ∧
    (can (claimed 254) hs .FAB_CLAIM 13 0 1 = true ∧ can (claimed 255) hs .FAB_CLAIM 13 0 1 = true ∧
      can (island (claimed 1) 13 Isl.hold) hs .FAB_CLAIM 13 0 2 = true ∧ can (claimed 1) hs .FAB_CLAIM 13 0 2 = true) ∧
    ((island (claimed 1) 13 Isl.hold).islState 13 = Isl.hold ∧ (island up 13 Isl.wiping).islState 13 = Isl.wiping ∧
      (island up 13 Isl.draining).fab.waiting = [] ∧ up.islandIdle 12 = true ∧ (island up 27 Isl.wiping).islState 27 = Isl.wiping ∧
      (island up 5 Isl.wiping).islState 5 = Isl.wiping ∧ memIsland 0x10000000 = some 5 ∧ up.secureAddr 0x10000000 = true ∧ storeGet false (island up 13 Isl.waking).fab.fromOff 13 = false ∧
      (island up 13 Isl.waking).get F.FAB_ISL_STATE_PENDING 13 = 0) := by
  and_intros <;> decide +kernel

theorem wit_GrantsRotateThePointer :
    (11 : Fin 12) ≠ 4 ∧ ([⟨0, 15, .pcie, 1⟩, ⟨0, 0, .core, 3⟩] : List Claim).filter (up.mayClaim 11) ≠ [] ∧
      ([⟨0, 15, .device, 1⟩] : List Claim).filter (up.mayClaim 2) = [] := by and_intros <;> decide +kernel

theorem wit_ResetTriggersBeginAStart :
    up.phase = Ph.run ∧ can up h0 .FAB_RST_REQ 0 0 (keyed 0x7A3C 1) = true ∧ can up h0 .FAB_RST_REQ 0 0 (keyed 0x7A3C 2) = true ∧
      (up.hartTag 0 false).drawer = 0 ∧ (phased up Ph.off).phase = Ph.off ∧
      (regDef .FAB_ISL_STATE).fields ≠ [] ∧ (regDef .FAB_ISL_STATE).win ∉ [Win.lch, .clp, .til, .ept, .recw, .lth, .mtr] := by
  and_intros <;> decide +kernel

/-- A start with its image taken, mark line 0 at a stage. -/
def marked (st : Nat) : State :=
  { phased up Ph.taken with start := { up.start with phase := Ph.taken, checked := false, marks := [(0, ⟨st, false, [], []⟩)] } }

theorem wit_StartRunsToItsEnd :
    (State.reset.phase = Ph.began ∧ (phased up Ph.banks).phase = Ph.banks) ∧
    ((phased up Ph.taken).miMode 0 ≠ 0 ∧ (phased up Ph.taken).unitOut 2 0 = false ∧ (phased up Ph.taken).unitSuspect 3 0 = false ∧
      ((phased up Ph.taken).canOwner 0).isSome = true ∧ (phased up Ph.taken).unitOut 5 5 = false ∧
      (phased up Ph.taken).unitOut 6 47 = false) ∧
    ((marked 1).phase = Ph.taken ∧ ((marked 1).markOf 0).stage = 1 ∧ ((marked 2).markOf 0).stage = 2 ∧
      ((marked 2).markOf 0).again = false ∧ ((marked 3).markOf 0).stage = 3 ∧ ((marked 6).markOf 0).stage = 6 ∧
      crc16 (List.replicate 16 0) < 65536 ∧ ((marked 4).markOf 0).stage = 4 ∧
      (marked 2).start.checked = false ∧ (marked 2).get F.INP_MK_STATUS_VERDICT 0 ≠ 2 ∧ (marked 2).get F.INP_MK_STATUS_VERDICT 0 ≠ 3) ∧
    ((phased up Ph.taken).start.checked = true ∧ up.get F.WLD_SVC_STATE = 0) := by
  and_intros <;> decide +kernel

theorem wit_PowerSleepAndIslandResets :
    (up.phase = Ph.run ∧ (phased up Ph.fail).start.vlogBack = false ∧ (phased up Ph.fail).mtrStill = true ∧
      (phased up Ph.toSleep).latheStill = true ∧ (phased up Ph.toSleep).mtrStill = true ∧ up.img.isSome = true ∧ up.awake = true ∧ up.feedOk 0 = false) ∧
    (State.reset.dieLost 3 = true ∧ ({ (up.put F.FAB_PWR_STATUS_FEEDB_OK 1) with load := State.reset.load }).feedOk 1 = true) ∧
    (can { up with start := { up.start with wakeNow := true } } h0 .FAB_SLEEP_CTRL 0 0 (keyed 0x6B19 1) = true) ∧
    (let s := phased up Ph.toSleep;
      ({ s with start := { s.start with wakeHeld := some (2, 3, s.ztm.zone) } }).start.wakeHeld = some (2, 3, s.ztm.zone)) ∧
    ((phased up Ph.toSleep).start.wakeHeld = none ∧ (phased up Ph.sleep).anyLost = false) ∧
    ((phased up Ph.sleep).mi 0 0 3 3 = 1 ∧ (phased up Ph.sleep).miLive 0 = true ∧ ((phased up Ph.sleep).pin 0).wakeRef = false ∧
      ((phased up Ph.sleep).pin 0).wakeSeen = false) ∧
    (up.expected.contains 0 = true ∧ up.get F.INP_MK_STATUS_VERDICT 0 ≠ 2 ∧ up.get F.INP_MK_STATUS_VERDICT 0 ≠ 3 ∧
      up.is F.INP_MK_STATUS_LOST 0 = false ∧ up.dieLost 0 = false) ∧
    (up.live 35 = true ∧ up.live 37 = true ∧ up.live 40 = true ∧ up.live 0 = true ∧ Ph.taken < up.phase) := by
  and_intros <;> decide +kernel


/-! Witnesses: drawers, rings and translation -/

/-- Ring 0 belongs to drawer 3, in a state, with what it holds. -/
def ringed (st : Nat) (x : RingSt) : State := { up.put F.RING_STATE_STATE st 0 with ring := [(0, x)] }
def d0 : Desc := ⟨0x100000000, 64, 0, 0, 0, 0, 0⟩
/-- Drawer 3 in a state. -/
def drawer (s : State) (st : Nat) : State := s.put F.DRW_G_STATE_STATE st 3
def mv (c : Bool) : MoveSt := ⟨1, 0, 3, 5, 1, c, []⟩
/-- An access that waits. -/
def waits : Access := ⟨⟨3, false, .core⟩, 1, 0x10000000, 4, .read, 0, 0⟩

theorem wit_MovesAndFeatureCommits :
    (can up h0 .DRW_MOVE_CTRL 0 0 (2 ^ 31 + 3 * 4096 + 16 * 16 + 1) = true ∧ up.get F.DRW_MOVE_STATUS_STATE ≠ 1) ∧
    (can (up.put F.DRW_MOVE_STATUS_STATE 1) h0 .DRW_MOVE_CTRL 0 0 (2 ^ 31 + 3 * 4096 + 16 * 16 + 1) = true) ∧
    (({ (up.put F.DRW_G_HOLD_AMOUNT 1 0 0) with drw := { up.drw with move := some (mv false) } }).drw.move = some (mv false) ∧
      (mv false).count ≤ (up.put F.DRW_G_HOLD_AMOUNT 1 0 0).holding 0 1 ∧
      (up.put F.DRW_G_HOLD_AMOUNT 1 0 0).holding 3 1 + 1 < 2 ^ 16) ∧
    (({ up with drw := { up.drw with move := some (mv true) } }).drw.move = some (mv true)) ∧
    (let s := { up with drw := { up.drw with move := some { mv true with left := [waits] } }, fab := { up.fab with waiting := [(5, waits)] } };
      ∃ a ∈ [waits], ∃ w ∈ s.fab.waiting, w.2 = a) ∧
    (can up h3 .DRW_FEAT_CTRL 0 0 1 (some 3) = true ∧ up.drwState 3 = 0 ∧ up.badBit 3 = none ∧
      bitOf (up.get F.DRW_FEAT_ACCEPT_ACCEPT 0 0 4) 0 = false) ∧
    (can (drawer up 1) h3 .DRW_FEAT_CTRL 0 0 1 (some 3) = true ∧ (drawer up 1).drwState 3 ≠ 0) ∧
    (can (up.put F.DRW_FEAT_ACCEPT_ACCEPT 2 0 0 4) h3 .DRW_FEAT_CTRL 0 0 1 (some 3) = true ∧
      (up.put F.DRW_FEAT_ACCEPT_ACCEPT 2 0 0 4).badBit 3 = some 1) ∧
    (let s := (up.put F.DRW_FEAT_ACCEPT_ACCEPT 1 0 0 4).put F.DRW_FEAT_OFFER_OFFER 1 0 0 4;
      can s h3 .DRW_FEAT_CTRL 0 0 1 (some 3) = true ∧ s.badBit 3 = none ∧ bitOf (s.get F.DRW_FEAT_ACCEPT_ACCEPT 0 0 4) 0 = true) := by
  and_intros <;> decide +kernel

theorem wit_DrawerResetRunsToIdle :
    (can up h0 .DRW_RST_REQ 0 0 (keyed 0x5C3D 3) = true ∧ up.drwState 3 ≤ 1 ∧ (3 : Nat) < up.drw.count) ∧
    (can (drawer up 2) h0 .DRW_RST_REQ 0 0 (keyed 0x5C3D 3) = true ∧ can (drawer up 2) h0 .DRW_RST_REQ 0 0 (keyed 0x5C3D 19) = true ∧
      can (drawer up 3) h0 .DRW_RST_REQ 0 0 (keyed 0x5C3D 19) = true) ∧
    (can up h3 .DRW_RST 0 0 (keyed 0x5C3D 0) (some 3) = true ∧ can up h3 .DRW_RST 0 0 (keyed 0x5C3D 1) (some 3) = true) ∧
    ((drawer up 2).drwState 3 = 2 ∧ (drawer up 3).drwState 3 = 3 ∧ (drawer up 3).nothingLeft 3 = true) ∧
    (can up h3 .DRW_FAULT_STAT 0 0 256 (some 3) = true ∧ sees up h3 .DRW_FAULT_HEAD 0 0 (some 3) = true) ∧
    (storeGet [] (up.faultRecord 3 0x12 5 true 0 0 0).drw.faults 3 ≠ []) := by and_intros <;> decide +kernel

theorem wit_RingsRunTheirDescriptors :
    (can up h3 .RING_CTRL 0 0 1 (some 3) = true ∧ up.ringState 0 = Rst.disabled ∧ up.ringOwner 0 = some 3 ∧ up.enableErr 0 3 ≠ 0) ∧
    (let s := ((drawer up 1).put F.RING_CFG_KIND 4 0).put F.RING_CFG_SIZE_LOG2 8 0;
      can s h3 .RING_CTRL 0 0 1 (some 3) = true ∧ s.enableErr 0 3 = 0) ∧
    (can (ringed Rst.running { RingSt.idle with desc := some d0 }) h3 .RING_CTRL 0 0 0 (some 3) = true ∧
      (ringed Rst.running { RingSt.idle with desc := some d0 }).ringIdle 0 = false ∧
      ((ringed Rst.running { RingSt.idle with desc := some d0 }).put F.RING_CFG_KIND 2 0).ringIdle 0 = true ∧
      can (ringed Rst.running RingSt.idle) h3 .RING_CTRL 0 0 0 (some 3) = true) ∧
    (let s := (drawer (ringed Rst.faulted RingSt.idle) 1).put F.DRW_FEAT_ACCEPT_ACCEPT 4 0 0 4;
      can s h3 .RING_CTRL 0 0 3 (some 3) = true ∧ s.feat 3 2 = true ∧ (s.rg 0).side = 0) ∧
    (can up h3 .RING_TAIL 0 0 1 (some 3) = true ∧ (1 + 65536 - up.ringHead 0) % 65536 ≤ up.ringSize 0 ∧
      up.ringSize 0 < (65535 + 65536 - up.ringHead 0) % 65536) ∧
    (up.live 38 = true ∧ (drawer (ringed Rst.running RingSt.idle) 1).ringState 0 = Rst.running ∧
      ((drawer (ringed Rst.running RingSt.idle) 1).rg 0).desc = none ∧
      ((drawer (ringed Rst.running RingSt.idle) 1).put F.RING_TAIL_INDEX 1 0).ringHeld 0 ≠ 0 ∧
      (drawer (ringed Rst.running RingSt.idle) 1).drwState 3 = 1) ∧
    (let s := ((ringed Rst.running { RingSt.idle with desc := some d0 }).put F.RING_CFG_KIND 4 0);
      0 < s.unitLen 0 ∧ s.txRoom 0 = true ∧ s.slotWins 0 = true) ∧
    (((ringed Rst.running { RingSt.idle with desc := some d0, ready := true }).rg 0).ready = true) ∧
    (let s := ((drawer (ringed Rst.running RingSt.idle) 1).put F.RING_TAIL_INDEX 1 0).put F.DRW_BIND_MODE 1 3;
      let t := (((s.put F.IOM_DGRAN_VALID 1 100).put F.IOM_DGRAN_OWNER 3 100).put F.RING_BASE_HI_BASE 1 0).put F.RING_BASE_LO_BASE 0xC800000 0;
      (s.firstFault 0 3 []).isSome = true ∧ t.descAddr 0 = 0x100000000 + 100 * 0x200000 ∧
        t.readPieces 3 false [] (pieces (t.descAddr 0) 32) = some (List.replicate 32 0)) ∧
    (let s := ((drawer (ringed Rst.faulted RingSt.idle) 1).put F.RING_CFG_KIND Kind.ethRx 0).put F.DRW_FEAT_ACCEPT_ACCEPT 8 0 0 4;
      s.ringState 0 = Rst.faulted ∧ s.ringKind 0 = Kind.ethRx ∧ s.feat 3 3 = true ∧ (s.rg 0).expired = false) ∧
    (let s := ((ringed Rst.running { RingSt.idle with desc := some d0 }).put F.RING_CFG_KIND Kind.ethTx 0).put F.DRW_G_HOLD_AMOUNT 1 3 2;
      (s.rg 0).desc ≠ none ∧ (s.rg 0).ready = false ∧ 256 * (s.rg 0).txCells < (s.rg 0).tx.length + s.unitLen 0 ∧
        s.get F.DVT_CHARGE_CELLS 3 < s.get F.DRW_G_HOLD_AMOUNT 3 2) := by
  and_intros <;> decide +kernel

theorem wit_TranslationTablesAndCaches :
    (can up hs .IOM_DGRAN 0 0 0x10 = true ∧ (0 : Nat) < up.imgF 9 8 0 2 12 0 ∧ can up h0 .IOM_DGRAN 4095 0 3 = true) ∧
    (can up h0 .IOM_SGRAN 767 0 0x13 = true ∧ up.imgF 9 8 0 0 9 0 ≤ 767 ∧ up.unitOut 6 47 = false ∧
      ({ up with flt := ⟨[(unitKey 6 47, true)], [], false⟩ }).unitOut 6 47 = true) ∧
    (up.is F.IOM_INVAL_STAT_BUSY = false ∧ (∀ w ∈ [2 ^ 31, 2 ^ 31 + 49, 2 ^ 31 + 50, 2 ^ 31 + 51], can up h0 .IOM_INVAL 0 0 w = true)) ∧
    (can up h3 .IOM_S1INVAL 0 0 1 (some 3) = true ∧ up.live 37 = true) ∧
    (({ up with iom := ⟨[⟨3, false, 5, true, true, false, 6⟩], some (1, 3, 0)⟩ }).iom.inval = some (1, 3, 0)) ∧
    ((up.put F.IOM_S1INVAL_BUSY 1 0 0 4).is F.IOM_S1INVAL_BUSY 0 0 4 = true) ∧
    (can up h0 .IOM_DIRTY_CTRL 3 0 1 = true ∧ up.is F.IOM_DIRTY_STAT_BUSY 3 = false) ∧
    (let s := up.put F.IOM_S1CFG_MODE 1 0 0 4;
      s.paged 3 = true ∧ (3 : Fin 16).val < s.drw.count ∧ s.tlbFind 3 false 0x5000 true = none ∧
        ({ s with iom := ⟨[⟨3, false, 5, true, true, false, 6⟩], none⟩ }).tlbFind 3 false 0x5000 true ≠ none) := by and_intros <;> decide +kernel

/-! Witnesses: loads, the Clamp and the inputs -/

/-- Channel 0 in a protection state. -/
def protSt (st : Nat) : State := up.put F.LCH_PROT_STATE st 0

theorem wit_TripsMoveTheProtectionState :
    (up.phase = Ph.run ∧ up.isChan 0 = true ∧ up.dieLost (bankOf 0) = false ∧ up.prot 0 = Prot.armed ∧
      (up.put F.LCH_STATE_OUT 1 0).get F.LCH_STATE_OUT 0 ≠ 0 ∧ ¬(up.chKind 0 = 4 ∧ up.get F.LCH_STATE_PHASE 0 = 2) ∧ up.ch 0 0 9 8 ≠ 0) ∧
    ((up.put F.LCH_PROT_RETRY_LEFT 1 0).get F.LCH_PROT_RETRY_LEFT 0 ≠ 0 ∧ up.get F.LCH_PROT_RETRY_LEFT 2 = 0 ∧ up.ch 2 4 3 0 = 0 ∧
      ((up.putLc 0 { up.lc 0 with hsWin := true }).lc 0).hsWin = true ∧
      (up.put F.LCH_PROT_HARD_SHORT 1 0).is F.LCH_PROT_HARD_SHORT 0 = true) ∧
    ((protSt Prot.waiting).prot 0 = Prot.waiting ∧ (protSt Prot.waiting).flag 0 Flag.tempLatch = false ∧
      (protSt Prot.waiting).wireGate 0 = false) ∧
    (can (up.put F.LCH_PROT_STATE Prot.exhausted 2) h3 .LCH_CMD 2 0 2 (some 3) = true ∧ up.chSrc 2 ≠ 3 ∧
      can up h3 .LCH_CMD 2 0 2 (some 3) = true ∧ up.prot 2 ≠ Prot.exhausted) := by and_intros <;> decide +kernel

theorem wit_DriveValuesAndActivationPhases :
    (can up h3 .LCH_CMD 0 0 0 (some 3) = true ∧ can up h3 .LCH_CMD 0 0 1 (some 3) = true ∧ up.chSrc 0 = 3 ∧ up.onBlocked 0 = false ∧
      can up h3 .LCH_CMD 2 0 1 (some 3) = true ∧ up.chSrc 2 ≠ 3) ∧
    ((up.put F.LCH_STATE_PHASE 1 0).get F.LCH_STATE_PHASE 0 = 1 ∧ (up.put F.LCH_STATE_PHASE 2 0).get F.LCH_STATE_PHASE 0 = 2 ∧
      ((up.putLc 0 { up.lc 0 with edge := 1 }).lc 0).edge = 1 ∧ ((up.putLc 0 { up.lc 0 with edge := 2 }).lc 0).edge = 2 ∧
      up.get F.LCH_STATE_OUT 0 ≠ 1) ∧
    (up.startDone = true ∧ up.pwmEnabled 0 = true ∧ (up.pw 0).fresh = false ∧ ((up.putPw 0 { up.pw 0 with out := true }).pw 0).out = true ∧
      up.pwmOnTicks 0 < up.pwmPeriod 0) ∧
    (up.live 19 = true ∧ up.drvUsed 0 = true) := by and_intros <;> decide +kernel

theorem wit_DieWatchesSetFlags :
    (up.isChan 0 = true ∧ up.dieLost (bankOf 0) = false) ∧
    ((up.setFlag 0 Flag.tempLatch).flag 0 Flag.tempLatch = true ∧ (protSt Prot.latched).prot 0 = Prot.latched ∧ up.prot 0 ≠ Prot.latched) ∧
    (up.ch 0 7 15 0 ≠ 0 ∧ (up.put F.LCH_STATE_PHASE 3 0).get F.LCH_STATE_PHASE 0 = 3 ∧ up.get F.LCH_STATE_OUT 0 = 0 ∧ bankOf 0 = 0) ∧
    (((up.putLc 0 { up.lc 0 with chk := 1 }).lc 0).chk = 1 ∧ ((up.putLc 0 { up.lc 0 with chk := 2 }).lc 0).chk = 2) ∧
    ((up.put F.LCH_PROT_EPISODE 1 0).is F.LCH_PROT_EPISODE 0 = true ∧ up.prot 0 = Prot.armed ∧ up.flag 0 Flag.tempLatch = false) ∧
    (up.phase = Ph.run) := by and_intros <;> decide +kernel

theorem wit_FeedsShedAndRestore :
    (up.dieLost 0 = false ∧ up.dieLost 2 = false ∧ ((up.putFd 0 ⟨10, 2000, 20, 5000⟩).fd 0).overs = 20 ∧
      ((up.putFd 0 ⟨10, 2000, 0, 5000⟩).fd 0).restore = 5000 ∧
      ((up.putFd 0 ⟨10, 500, 0, 5000⟩).setFlag 0 Flag.budgetShed).restoreNext 0 = some 0) ∧
    ((up.setFlag 0 Flag.holding).flag 0 Flag.holding = true ∧ ((up.putLc 0 { up.lc 0 with holdPol := 2 }).lc 0).holdPol = 2) ∧
    (((6 : Fin 7).val, (47 : Fin 128).val) ∈ ({ up with flt := ⟨[], [(6, 47)], false⟩ }).flt.pend) := by and_intros <;> decide +kernel

theorem wit_ClampRuleFollowsItsStates :
    (up.awake = true ∧ up.start.wasOff = false ∧ up.ruleOn 0 = true ∧ up.ruleOn 1 = true ∧ up.ruleLatches 0 = false ∧
      up.ruleLatches 1 = true) ∧
    (∀ r < 2, (up.sensePins []).ruleResult r ((up.sensePins []).ruleCmp r) = true ∧
      (up.sensePins [(0, 5000)]).ruleResult r ((up.sensePins [(0, 5000)]).ruleCmp r) = false) ∧
    (∀ st ∈ [Rule.idle, Rule.active, Rule.latched], (up.put F.CLP_STAT_STATE st 1).get F.CLP_STAT_STATE 1 = st) := by
  and_intros <;> decide +kernel

theorem wit_ClampAcknowledgementIsJudged :
    (∀ st ∈ [Rule.disabled, Rule.idle, Rule.active, Rule.latched],
      can ((up.put F.CLP_STAT_STATE st 63).sensePins [(0, 5000)]) h0 .CLP_ACK 0 0 (2 ^ 31 + 63) = true ∧
        (up.put F.CLP_STAT_STATE st 63).get F.CLP_STAT_STATE 63 = st) ∧
      ((up.put F.CLP_STAT_STATE Rule.latched 63).sensePins [(0, 5000)]).ruleNow 63 = true ∧
      ((up.put F.CLP_STAT_STATE Rule.latched 63).sensePins [(0, 0)]).ruleNow 63 = false := by and_intros <;> decide +kernel

theorem wit_InputPinsReport :
    up.live 19 = true ∧ (∀ p < 5, up.unitOut 2 p = false ∧ up.miMode p = p + 1) ∧
      ((up.putPin 4 { up.pin 4 with hasEdge := true }).pin 4).hasEdge = true := by and_intros <;> decide +kernel


/-! Witnesses: the Lathe -/

/-- The engine in a state; task 0 in a phase, on lane 0 when it executes. -/
def lathe (st ph : Nat) : State :=
  { up.put F.LTH_STATE_STATE st with
    lth := { up.lth with
      task := [(0, { TaskSt.idle with phase := ph, stack := if ph = 3 then [7] else [] })]
      lane := if ph = 3 then [(0, 1)] else [] } }

theorem wit_TasksRunThroughTheirPhases :
    ((lathe Eng.running 0).latheRuns = true ∧ ((lathe Eng.running 0).put F.LTH_TASK_STAT_STATE Task.idle 0).taskState 0 = Task.idle ∧
      ((lathe Eng.running 0).put F.LTH_TASK_STAT_STATE Task.busy 0).taskState 0 = Task.busy) ∧
    ((lathe Eng.running 0).phase ≠ Ph.toSleep ∧ (lathe Eng.running 0).releaseDue 0 = true ∧
      ((lathe Eng.running 0).putTk 0 { TaskSt.idle with made := some 0 }).releaseDue 0 = false) ∧
    (({ lathe Eng.running 0 with lth := { (lathe Eng.running 0).lth with errs := [⟨1, 0, 0, 0⟩], commitQ := [0] } }).latheRuns = true ∧
      ((lathe Eng.running 0).put F.LTH_TASK_STAT_STATE Task.idle 8).taskState 8 = Task.idle) ∧
    ((lathe Eng.running 1).latchReady 0 = true ∧ (lathe Eng.running 1).laneTask ((lathe Eng.running 1).taskLane 0) = none) ∧
    ((lathe Eng.running 3).laneTask 0 = some 0 ∧
      32768 ≤ (((lathe Eng.running 3).putTk 0 { TaskSt.idle with cycles := 32768 }).tk 0).cycles) ∧
    (2 ≤ (up.put F.LTH_TASK_STAT_FAULT_RUN 2 0).get F.LTH_TASK_STAT_FAULT_RUN 0 ∧ up.get F.LTH_TASK_STAT_FAULT_RUN 0 < 2) ∧
    ((lathe Eng.running 3).slotCount = 8 ∧ (lathe Eng.running 3).slotTask 4 = 0 ∧ (lathe Eng.running 3).slotArea 4 = Area.output ∧
      (lathe Eng.running 3).slotShadowed 4 = true) := by and_intros <;> decide +kernel

theorem wit_LatheEngineCommands :
    (can (lathe Eng.running 0) h0 .LTH_CTRL 0 0 (keyed 0x3E71 1) = true ∧ (lathe Eng.running 0).engine = Eng.running ∧
      (lathe Eng.running 0).lth.reloading = false) ∧
    (can (lathe Eng.stopped 0) h0 .LTH_CTRL 0 0 (keyed 0x3E71 1) = true ∧ can (lathe Eng.stopped 0) h0 .LTH_CTRL 0 0 (keyed 0x3E71 2) = true ∧
      can (lathe Eng.stopped 0) h0 .LTH_CTRL 0 0 (keyed 0x3E71 3) = true ∧ (lathe Eng.stopped 0).engine = Eng.stopped) ∧
    (can (lathe Eng.running 0) h0 .LTH_CTRL 0 0 (keyed 0x3E71 3) = true) ∧
    (can ((lathe Eng.running 0).put F.LTH_TASK_STAT_STATE Task.stopped 0) h3 .LTH_TASK_CTRL 0 0 1 (some 3) = true ∧
      ((lathe Eng.running 0).put F.LTH_TASK_STAT_STATE Task.stopped 0).taskState 0 = Task.stopped ∧
      can (lathe Eng.running 0) h3 .LTH_TASK_CTRL 0 0 1 (some 3) = true) ∧
    (can up h0 .LTH_ERR_STAT 0 0 256 = true) ∧
    ((lathe Eng.starting 0).latheLive = true ∧ (lathe Eng.starting 0).phase = Ph.run ∧ (lathe Eng.starting 0).engine = Eng.starting) ∧
    (({ up with lth := { up.lth with saving := some ⟨[], [], [], 0⟩, reloading := true } }).lth.saving = some ⟨[], [], [], 0⟩ ∧
      ({ up with lth := { up.lth with reloading := true } }).live 13 = true) ∧
    (sees (lathe Eng.running 0) h3 .LTH_SLOT_DATA 0 0 (some 3) = true ∧ sees (lathe Eng.running 0) h0 .LTH_SLOT_DATA 0 0 = true ∧
      ((lathe Eng.running 0).put F.LTH_SLOT_IDX_AUTO 1).is F.LTH_SLOT_IDX_AUTO = true) := by and_intros <;> decide +kernel

/-- Task 0 on lane 0, at an operation of its program, with its flag as given and slot 0 holding a block word. -/
def at_ (o : Instr) (flag : Bool := false) (w : Nat := 0) : State :=
  { lathe Eng.running 3 with
    img := some (imW ([laneWord o % 2 ^ 32, laneWord o / 2 ^ 32] ++ List.replicate 6 0))
    lth := { (lathe Eng.running 3).lth with
      task := [(0, { TaskSt.idle with phase := 3, flag := flag, relTb := 9000 * 2 ^ 32, stack := [7] })], slots := [(0, BitVec.ofNat 32 w)] } }

theorem wit_LaneMoveAndFlowOperations :
    (∀ o ∈ [Instr.opNop 0, .opMov 0 .always 4 (.slot 3), .opLdb 0 .p 1 31, .opLdbn 0 .pn 1 0, .opAndb 0 .always 1 5,
        .opAndbn 0 .always 1 5, .opOrb 0 .always 1 5, .opOrbn 0 .always 1 5, .opXorb 0 .always 1 5, .opNotf 0 .always, .opLdf 0 .always 2,
        .opStf 0 .always 4, .opSel 0 .always 4 1 (.imm 3), .opRdtb 0 .always 4, .opRdzt 0 .always 4, .opTrap 0 .always (.imm 9),
        .opCload 0 4 1, .opStb 0 .always 4 31, .opStbn 0 .always 4 0, .opSetb 0 .always 4 7, .opRstb 0 .always 4 7, .opRedge 0 4,
        .opFedge 0 4, .opJmp 0 65535, .opJf 0 1, .opJnf 0 1, .opCall 0 2, .opRet 0, .opEnd 0],
      (at_ o).executes 0 0 ∧ (at_ o).opAt 0 = laneWord o) ∧
    ((lathe Eng.running 3).ownSlot 0 0 ∧ (lathe Eng.running 3).ownSlot 0 5 ∧ ¬(lathe Eng.running 3).ownSlot 0 6 ∧
      (lathe Eng.running 3).slotShadowed 4 = true) ∧
    (((at_ (.opRet 0)).tk 0).stack = 7 :: [] ∧ ((at_ (.opCall 0 2)).tk 0).stack.length < 8 ∧
      (({ at_ (.opRet 0) with lth := { (at_ (.opRet 0)).lth with task := [(0, { TaskSt.idle with phase := 3 })] } }).tk 0).stack = []) := by
  unfold State.executes State.ownSlot
  and_intros <;> decide +kernel

theorem wit_LaneIntegerOperations :
    (∀ o ∈ [Instr.opAdd 0 .always 4 1 (.imm 0x1FFF), .opSub 0 .always 4 1 (.slot 2), .opMul 0 .always 4 1 (.slot 2), .opMin 0 .always 4 1 (.slot 2),
        .opMax 0 .always 4 1 (.slot 2), .opLimit 0 .always 4 1 (.slot 2), .opShl 0 .always 4 1 (.slot 2), .opShr 0 .always 4 1 (.slot 2),
        .opSar 0 .always 4 1 (.slot 2), .opRol 0 .always 4 1 (.slot 2), .opAnd 0 .always 4 1 (.slot 2), .opOr 0 .always 4 1 (.slot 2),
        .opXor 0 .always 4 1 (.slot 2), .opNot 0 .always 4 1, .opDiv 0 .always 4 1 (.imm 5), .opMod 0 .always 4 1 (.imm 0), .opEq 0 .p 1 (.slot 2),
        .opLt 0 .pn 1 (.slot 2), .opGeu 0 .always 1 (.slot 2)],
      (at_ o).executes 0 0 ∧ (at_ o).opAt 0 = laneWord o) ∧
    (lathe Eng.running 3).opB 0 (.imm 0) = 0#32 ∧ (lathe Eng.running 3).opB 0 (.imm 5) ≠ 0#32 := by
  unfold State.executes
  and_intros <;> decide +kernel

theorem wit_LaneFloatOperations :
    (∀ o ∈ [Instr.opFadd 0 .always 4 1 (.slot 2), .opFdiv 0 .p 4 1 (.slot 2), .opFsqrt 0 .always 4 1, .opItof 0 .always 4 1, .opFtoi 0 .always 4 1,
        .opFlt 0 .always 1 (.slot 2)], (at_ o).executes 0 0 ∧ (at_ o).opAt 0 = laneWord o) ∧
    fpIsNan 0xFFC00001#32 = true ∧ fpIsNan 0x3F800000#32 = false ∧ fpIsInf 0x7F800000#32 = true ∧ fpIsInf 0xFF800000#32 = true ∧
      fpSign 0x7F800000#32 ≠ fpSign 0xFF800000#32 ∧ fpIsZero 0x80000000#32 = true ∧ fpIsZero 0xBF800000#32 = false ∧
      fpSign 0xBF800000#32 = true := by
  unfold State.executes
  and_intros <;> decide +kernel

theorem wit_LaneBlockOperations :
    (let s := at_ (.opLdx 0 .always 4 1 (.imm 1));
      s.executes 0 0 ∧ s.opAt 0 = laneWord (.opLdx 0 .always 4 1 (.imm 1)) ∧ (2 : Nat) < s.slotCount ∧
      ((2 : Nat) : Int) = 1 + (s.opB 0 (.imm 1)).toInt ∧ s.slotTask 2 = s.slotTask 1 ∧ s.slotArea 2 = s.slotArea 1 ∧ s.slotArea 6 ≠ s.slotArea 1) ∧
    ((lathe Eng.running 3).ownSlot 0 0 ∧ (lathe Eng.running 3).ownSlot 0 1 ∧ (lathe Eng.running 3).ownSlot 0 2) ∧
    (∀ o ∈ [Instr.opTon 0 0 3, .opTof 0 0 3, .opTp 0 0 3, .opCtu 0 0 3, .opCtd 0 0 3], ∀ f ∈ [true, false], ∀ w ∈ [0, 2, 4, 5],
      (at_ o f w).executes 0 0 ∧ (at_ o f w).opAt 0 = laneWord o ∧ (at_ o f w).flagF 0 = f ∧ (at_ o f w).readSlot 0 0 = BitVec.ofNat 32 w) := by
  unfold State.executes State.ownSlot
  and_intros <;> decide +kernel

/-! Witnesses: online change and forces -/

/-- Drawer 3 has item 100 staged, and has force 100 ready. -/
def staged : State :=
  (((((lathe Eng.running 0).put F.LTH_TASK_STAT_STATE Task.idle 0).put F.LTH_FRC_SID_WORD 100 0 0 4).put F.LTH_FRC_MASK_WORD 1 0 0 4).put F.DRW_G_STATE_STATE 1 3).put
    F.DRW_FEAT_ACCEPT_ACCEPT 0x600 0 0 4

theorem wit_ChangesAndForcesActAtOneInstant :
    (can up h0 .LTH_CHG_ITEM 0 0 100 = true ∧ up.lth.waiting.contains 0 = false ∧ (up.items 0).length < 256 ∧
      can up h0 .LTH_CHG_CTRL 0 0 2 = true ∧ can up h0 .LTH_CHG_CTRL 0 0 1 = true ∧ up.engine = Eng.idle) ∧
    (can staged h3 .LTH_CHG_CTRL 0 0 1 (some 3) = true ∧ staged.engine = Eng.running ∧ staged.feat 3 9 = true ∧ up.feat 3 9 = false ∧
      staged.items 4 = []) ∧
    (let s := { staged with lth := { staged.lth with staged := [(4, [(100, 5#32)])] } };
      s.items 4 ≠ [] ∧ s.itemCheck 4 100 = 0 ∧ s.itemCheck 4 999 ≠ 0) ∧
    (let s := { staged with lth := { staged.lth with staged := [(4, [(100, 5#32)])], waiting := [4] } };
      s.latheLive = true ∧ s.latheRuns = true ∧ s.lth.forceReqs = [] ∧ s.instant (s.itemSlots 4) = true ∧ s.slotOfSid 100 = some 0 ∧
        s.slotSid 0 = 100) ∧
    (can staged h3 .LTH_FRC_CTRL 0 0 1 (some 3) = true ∧ can staged h3 .LTH_FRC_CTRL 0 0 2 (some 3) = true ∧
      can staged h3 .LTH_FRC_CTRL 0 0 3 (some 3) = true ∧ staged.feat 3 10 = true ∧
      staged.slotOfSid (staged.get F.LTH_FRC_SID_WORD 0 0 4) = some 0 ∧ staged.maySlot 4 0 = true ∧ staged.lth.forces = []) ∧
    (staged.instant [0] = true) := by and_intros <;> decide +kernel

/-! Witnesses: the Mitre unit -/

/-- The unit in a state, with the copy under way. -/
def mitre (st cp : Nat) : State :=
  { (up.put F.MTR_STATE_STATE st).put F.MTR_STATE_COPY cp with mtr := { up.mtr with ckLen := 4096 } }
/-- The record of a slice with no store. -/
def slice0 (n : Nat) (w : Word) : CopyRec := ⟨[], List.replicate 72 w, n, .count⟩
/-- The record of a slice with one store. -/
def slice1 : CopyRec := { slice0 4096 0 with evs := [.store ⟨0, 1, 15⟩] }

theorem wit_MitreCommandsFollowTheStates :
    (∀ st ∈ [Mtr.halted, Mtr.running, Mtr.resolving, Mtr.safeFault, Mtr.failed],
      (∀ w ∈ [1, 2, 3, 4], can (mitre st 0) h0 .MTR_CTRL 0 0 (keyed 0x4D17 w) = true) ∧ (mitre st 0).mtrState = st) ∧
    (up.mtrSplit = false ∧ up.bare = false ∧ (phased up Ph.bare).bare = true ∧ up.live 12 = true ∧ (mitre Mtr.testing 0).mtrState = Mtr.testing) ∧
    (can up h0 .MTR_DOORBELL 0 0 1 = true) ∧
    (can (mitre Mtr.halted 0) h0 .MTR_LMEM_DATA 0 0 5 = true ∧ sees (mitre Mtr.halted 0) h0 .MTR_LMEM_DATA 0 0 = true) := by
  and_intros <;> decide +kernel

theorem wit_BracedSlicesAreCompared :
    ((mitre Mtr.running 1).live 12 = true ∧ (mitre Mtr.running 1).mtrSplit = false ∧ (mitre Mtr.running 1).sliceFits (slice0 4096 0) = true ∧
      (mitre Mtr.running 1).endOk (slice0 4096 0) = true ∧ (slice0 4096 0).loads = (mitre Mtr.running 1).mtr.loads ∧
      (mitre Mtr.running 1).get F.MTR_STATE_COPY = 1) ∧
    (({ mitre Mtr.running 2 with mtr := { (mitre Mtr.running 2).mtr with recA := some (slice0 4096 0) } }).mtr.recA = some (slice0 4096 0) ∧
      (mitre Mtr.running 2).sliceFits ((slice0 4096 0).logged (slice0 4096 0)) = true ∧
      queuesAgree (slice0 4096 0) (slice0 4096 0) = true ∧ queuesAgree (slice0 4096 0) slice1 = false ∧
      (slice0 4096 0).signature ≠ (slice0 4096 1).signature ∧ (slice0 4096 0).queue = [] ∧
      rateMet [] 2 0 = false ∧ rateMet [0, 0, 0] 2 0 = true ∧ up.mtr.haltReq = false ∧ bitOf up.mtr.dbgReq 0 = false) ∧
    (copiesAgree (slice0 4096 0) (slice0 4096 0) = true ∧ copiesAgree slice1 (slice0 4096 0) = false ∧
      (slice0 4096 0).logged slice1 = slice0 4096 0 ∧ rateMet [] 6 0 = false) ∧
    (({ mitre Mtr.running 0 with mtr := { up.mtr with odd := 2 } }).mtr.odd = 2) := by and_intros <;> decide +kernel


/-! Witnesses: the switch and the ports -/

/-- An untagged frame of 64 bytes with its FCS, and the same frame at a port, in a queue and on its way out. -/
def fr : List Nat := List.replicate 12 0x22 ++ [8, 0] ++ List.replicate 46 0
def atPort (p : Nat) : InFrame := ⟨p, fr, ⟨0, 0⟩, none, none, 0, false, 0, none⟩
def copy : QCopy := ⟨0, fr, 0, 0, 1, 0, ⟨0, 0⟩, none, none, none, none, 1, false, false, 0, 0, false, false, 0, 0⟩
/-- Ports 0 and 1 are up, and a frame waits at port 0. -/
def sw : State :=
  { (up.put F.EPT_LINK_STATE 2 0).put F.EPT_LINK_STATE 2 1 with dvt := { DvtSt.rst with ingress := [atPort 0] } }
/-- The switch with a queue, and what is sent. -/
def queued (l : Store (List QCopy)) (x : Store (Option QCopy)) : State := { sw with dvt := { sw.dvt with queue := l, sending := x } }
/-- An ETH_RX ring of host port 30's class 0, running. -/
def hostRing (s : State) : State :=
  { (((s.put F.DRW_G_STATE_STATE 1 3).put F.RING_STATE_STATE Rst.running 0).put F.RING_CFG_KIND Kind.ethRx 0).put F.RING_CFG_ENDPOINT 0 0 with
    ring := [(0, { RingSt.idle with desc := some d0 })] }

theorem wit_ForwardingDatabaseFollowsItsOperations :
    (∀ w ∈ [1, 2, 3, 4, 5], can up h0 .DVT_FDB_CTRL 0 0 w = true ∧ can (up.put F.DVT_FDB_STAT_BUSY 1) h0 .DVT_FDB_CTRL 0 0 w = true) ∧
    (up.is F.DVT_FDB_STAT_BUSY = false ∧ up.fdbFind 0 0 = none ∧ up.get F.DVT_FDB_DEST_LO_DEST = 0 ∧ (up.bucket (fdbBucket 0 0)).length < 4) ∧
    (let s := { (up.put F.DVT_FDB_DEST_LO_DEST 2).put F.DVT_FDB_MAC_HI_MAC_VID 65536 with
        dvt := { DvtSt.rst with fdb := [(fdbBucket 0 1, [⟨0, 1, 2, false, 4⟩])] } };
      s.fdbFind 0 1 = some ⟨0, 1, 2, false, 4⟩ ∧ (s.dvt.fdb.map (·.1)).Nodup ∧ can s h0 .DVT_FDB_CTRL 0 0 1 = true) ∧
    (let full := (List.range 4).map fun i => (⟨i + 5, 1, 2, true, 0⟩ : FdbE);
      let s := { up with dvt := { DvtSt.rst with fdb := [(fdbBucket 0 1, full)] } };
      s.fdbFind 0 1 = none ∧ ¬(s.bucket (fdbBucket 0 1)).length < 4) ∧
    (up.get F.DVT_AGE_AGE_S ≠ 0 ∧ (up.put F.DVT_AGE_AGE_S 0).get F.DVT_AGE_AGE_S = 0) ∧
    (up.live 20 = true ∧ (up.put F.DVT_FDB_STAT_BUSY 1).is F.DVT_FDB_STAT_BUSY = true) := by and_intros <;> decide +kernel

theorem wit_SwitchMovesFrames :
    (sw.live 20 = true ∧ sw.dvt.ingress.find? (fun x => x.port == 0) = some (atPort 0) ∧ sw.portEnabled 0 = true ∧
      State.reset.portEnabled 0 = false ∧ isLinkLocal fr = false ∧ (∀ k < 4, sw.get F.DVT_CAP_CFG_N k = 0) ∧ sw.vlanIdx 1 = some 0 ∧
      sw.vlanIdx 2 = none ∧ sw.vlanMember 0 0 = true ∧ sw.vlanMember 0 2 = false) ∧
    ((sw.put F.DVT_PORT_LEARN 0 0).is F.DVT_PORT_LEARN 0 = false ∧ sw.handleOf (dstOf fr) 1 = none ∧ sw.portCut 0 = false ∧
      sw.destPorts (atPort 0) (dstOf (untag fr)) 0 1 = [1] ∧ sw.portUp 1 = true ∧ sw.unitOut 3 1 = false ∧
      sw.occ 8 + cellsOf fr.length ≤ sw.qLimit 8 ∧ sw.sharedUse ≤ sw.sharedCap ∧
      ({ sw with dvt := { sw.dvt with fdb := [(fdbBucket (dstOf fr) 1, [⟨dstOf fr, 1, 1, true, 0⟩])] } }).destPorts
        (atPort 0) (dstOf (untag fr)) 0 1 = []) ∧
    (sw.live (portIsland 1) = true ∧ sw.mayBegin 1 = true ∧ sw.sendingAt 1 = none ∧ sw.suspendedAt 1 = none ∧ sw.mscOn 1 = false ∧
      (∀ c < 8, sw.cbsOn (8 + c) = false ∧ sw.queueOf (8 + c) = []) ∧ sw.listAt Tbl.qbv 1 = none ∧
      (queued [(8, [copy])] []).queueOf 8 = copy :: [] ∧ ptpAt fr = none) ∧
    ((hostRing (queued [(240, [copy])] [])).queueOf 240 = copy :: [] ∧ sw.live 26 = true ∧
      (∀ k < 16, sw.is F.CAN_ACF_CFG_EN k = false) ∧ (hostRing sw).ringOn Kind.ethRx 0 = some 0 ∧ (hostRing sw).ringReady 0 = true ∧
      ((hostRing sw).rg 0).src = [] ∧ (hostRing sw).sendingAt 64 = none ∧
      ∀ q < 56, q ≠ 0 → (hostRing (queued [(240, [copy])] [])).hostReady q = false) ∧
    (2048 < (fr ++ List.replicate 1985 0).length + 4 ∧ (fr ++ List.replicate 1984 0).length + 4 ≤ 2048 ∧ fr.length + 4 ≤ 2048 ∧
      (sw.pt 1).backoff = false) ∧
    ((queued [] [(1, some copy)]).sendingAt 1 = some copy ∧ (queued [] [(64, some copy)]).sendingAt 64 = some copy) ∧
    (let x := { copy with launch := some ⟨5, 0⟩, ring := some 0 };
      (queued [(8, [x])] []).queueOf 8 = x :: [] ∧ launchPassed sw.now.ns 5 = false ∧ launchPassed 6 5 = true ∧
      (hostRing sw).rg 0 ≠ RingSt.idle) ∧
    (let s := ({ hostRing sw with ring := [(0, { RingSt.idle with desc := some d0, src := [1] })] }).put F.RING_CFG_KIND Kind.capture 0;
      s.live 38 = true ∧ s.ringKind 0 = Kind.capture ∧ (s.rg 0).src ≠ [] ∧ (s.rg 0).desc ≠ none ∧ (s.rg 0).ready = false) := by
  and_intros <;> decide +kernel

theorem wit_SwitchTablesAndListsFollowTheirRules :
    (can up h0 .DVT_TBL_CTRL 0 0 1 = true ∧ can up h0 .DVT_TBL_CTRL 0 0 2 = true ∧ can up h0 .DVT_TBL_DATA 0 0 7 = true ∧
      sees up h0 .DVT_TBL_DATA 0 0 = true) ∧
    (0 < tblEntries Tbl.sid ∧ tblEntries Tbl.meter ≤ 255 ∧
      up.tblOk Tbl.gate 0 [3, 1000, 0, 0, 0x100] = true) ∧
    (let s := { up with
        dvt := { DvtSt.rst with
          pendingLists := [(listKey Tbl.gate 0, [5, 1000, 0, 0, 256, 256])]
          lists := [(listKey Tbl.gate 0, some ⟨[5, 1000, 0, 0, 256, 256], 0, 0, 0⟩)] } };
      s.live 20 = true ∧ storeGet [] s.dvt.pendingLists (listKey Tbl.gate 0) ≠ [] ∧
      s.listAt Tbl.gate 0 = some ⟨[5, 1000, 0, 0, 256, 256], 0, 0, 0⟩ ∧ 0 + 1 < listLen Tbl.gate [5, 1000, 0, 0, 256, 256]) ∧
    (can up h0 .DVT_QCBS 175 0 75000 = true ∧ can up h0 .DVT_QCBS 176 0 1 = true ∧ (0 + 75000) * 100 ≤ portRate 21 * 1000 * 75 ∧
      (0 + 75001) * 100 > portRate 21 * 1000 * 75) := by and_intros <;> decide +kernel

/-- Port 1 in a link state. -/
def linked (st : Nat) : State := up.put F.EPT_LINK_STATE st 1

theorem wit_LinksFollowTheirStates :
    (up.portEnabled 1 = true ∧ up.unitOut 3 1 = false ∧ up.live (portIsland 1) = true ∧ (up.pt 1).slave ≠ true) ∧
    (∀ st ∈ [Link.disabled, Link.training, Link.up], (linked st).linkState 1 = st ∧ can (linked st) h0 .EPT_PCFG 1 0 1 = true ∧
      can (linked st) h0 .EPT_PCFG 1 0 0 = true ∧ can (linked st) h0 .EPT_PCFG 1 0 0x10001 = true) ∧
    ((linked Link.up).is F.EPT_LINK_PHY_FAULT 1 = false ∧ ((linked Link.up).put F.EPT_LINK_PHY_FAULT 1 1).is F.EPT_LINK_PHY_FAULT 1 = true) ∧
    ((linked Link.retired).portShut 1 = true ∧ can (linked Link.retired) h0 .EPT_PCFG 1 0 1 = true ∧
      can (linked Link.retired) h0 .EPT_PMAC 1 0 1 = true) := by and_intros <;> decide +kernel

theorem wit_PortsReceiveFramesAndPauses :
    (up.phase ≠ Ph.sleep ∧ up.phase ≠ Ph.toSleep ∧ up.live (portIsland 1) = true ∧ up.portEnabled 1 = true ∧ up.linkState 1 ≠ Link.up) ∧
    ((linked Link.up).linkState 1 = Link.up ∧ (linked Link.up).mscOn 1 = false ∧ (linked Link.up).stationPort 1 = false ∧
      64 ≤ fr.length + 4 ∧ (linked Link.up).get F.EPT_WAKE_PAT_EN 1 = 0 ∧ beNat (slice fr 12 2) ≠ etherPtp ∧
      beNat (slice fr 12 2) ≠ etherMacControl ∧ (linked Link.up).portCut 1 = false) ∧
    (((linked Link.up).put F.EPT_LINK_PAUSED 1 1).is F.EPT_LINK_PAUSED 1 = true ∧ (linked Link.up).is F.EPT_LINK_PAUSED 1 = false) := by
  and_intros <;> decide +kernel

/-- A slot of drawer 3 with an AES-128 key, usable by MACsec, with one use left. -/
def aes : SlotSt := ⟨0x10030011 + 0xFF00, 0x10008, 1, List.replicate 16 1⟩
/-- Port 0 with MACsec for drawer 3. -/
def secured (lo : Nat) (x : SlotSt) : State :=
  { (((up.put F.MSC_CFG_OWNER 3 0).put F.MSC_SA_PN_LO_VALUE lo 0 0).put F.DRW_G_STATE_STATE 1 3).put F.DRW_FEAT_ACCEPT_ACCEPT 0x40 0 0 4 with
    til := { up.til with slots := [(9, x)] } }

theorem wit_VerificationCollisionsAndAssociations :
    (can up h0 .EPT_PMAC 22 0 1 = true ∧ can up h0 .EPT_PMAC 21 0 1 = true ∧ up.portShut 22 = false ∧ up.portShut 21 = false ∧
      (up.put F.EPT_PSTAT_VERIFY Ver.verifying 1).get F.EPT_PSTAT_VERIFY 1 = Ver.verifying ∧ (up.pt 1).verifySent < 3 ∧
      3 ≤ ((up.putPt 1 { up.pt 1 with verifySent := 3 }).pt 1).verifySent) ∧
    (up.live (portIsland 22) = true ∧ (queued [] [(22, some copy)]).sendingAt 22 = some copy ∧
      (queued [] [(22, some copy)]).linkState 22 ≠ Link.retired ∧ copy.cols < 15) ∧
    (can (secured 1 aes) h3 .MSC_SA_CTRL 0 0 265 (some 3) = true ∧ can (secured 1 aes) h3 .MSC_SA_CTRL 0 0 512 (some 3) = true ∧
      (secured 1 aes).saJudge ⟨3, false, .core⟩ 0 0 9 = 1 ∧ (secured 0 aes).saJudge ⟨3, false, .core⟩ 0 0 9 = 5 ∧
      (secured 1 SlotSt.empty).saJudge ⟨3, false, .core⟩ 0 0 9 = 4 ∧ up.saJudge ⟨3, false, .core⟩ 0 0 9 = 2 ∧
      ((secured 1 aes).put F.MSC_SA_CTRL_VALID 1 0 0).saJudge ⟨3, false, .core⟩ 0 0 9 = 6 ∧
      ((secured 1 aes).put F.DRW_G_STATE_STATE 0 3).saJudge ⟨3, false, .core⟩ 0 0 9 = 3) := by and_intros <;> decide +kernel


/-! Witnesses: stations -/

/-- An image whose task 0 has one Ethernet station with one input point. -/
def stnIm : Image :=
  { im with sections := im.sections.map fun x =>
      if x.1 = 14 then (14, (x.2.take 5 ++ [40] ++ x.2.drop 6) ++ [1, 0, 0, 0] ++ [0x103, 0, 0, 0, 0, 0]) else x }
/-- The engine runs with that station in a state; its task waits for IN messages when it is synchronous. -/
def station (st run : Nat) (sync : Bool) : State :=
  ({ lathe Eng.running 1 with
    img := some stnIm
    lth := { (lathe Eng.running 1).lth with
      task := [(0, { TaskSt.idle with phase := 1, sync := sync })]
      stn := [(0, { StnSt.fresh with run := run, lastSeq := if run = 0 then none else some 7 })] } } : State).put F.LTH_STN_STAT_STATE st 0
/-- An IN message of station 0: SEQ 8, no flags, one value. -/
def inPdu : List Nat := stnPdu 0x13 0 8 0 0 [5, 0, 0, 0]

theorem wit_StationsFollowTheirStates :
    ((station 1 0 false).stnAt true 0 0 = true ∧ (station 1 0 false).stnSource 0 = 0 ∧ ∀ n < 64, (station 1 0 false).stnAt true 0 n = true →
      (station 1 0 false).stnSource n ≠ 1) ∧
    ((station 1 0 false).latheRuns = true ∧ (station 1 0 false).stnEn 0 = true ∧ (station 1 0 false).stnIn 0 = 1 ∧
      at0 inPdu 0 = 0x13 ∧ at0 inPdu 1 = 0 ∧ leNat (slice inPdu 8 2) = 4 ∧ inPdu.length = 20 ∧
      leNat (slice inPdu 16 4) = crc32 (inPdu.take 16) ∧ leNat (slice inPdu 2 2) = 8 ∧
      ((station 1 0 false).tk ((station 1 0 false).stnTask 0)).sync = false) ∧
    (((station 1 0 false).stn 0).lastSeq = none ∧ ((station 1 0 false).stn 0).run = 0 ∧ (station 1 0 false).stnState 0 ≠ Stn.active) ∧
    (((station 1 1 false).stn 0).lastSeq = some 7 ∧ 1 ≤ ((station 1 1 false).stn 0).run ∧ (8 + 65536 - 7) % 65536 = 1) ∧
    ((station 3 0 false).stnState 0 = Stn.dropped ∧ (station 2 0 false).stnState 0 ≠ Stn.dropped) ∧
    (((station 2 0 true).tk 0).phase = 1 ∧ ((station 2 0 true).tk 0).sync = true ∧ 0 ∈ (station 2 0 true).taskStations 0 ∧
      ((station 2 0 true).stn 0).answered = false) := by and_intros <;> decide +kernel

/-! Witnesses: zone time -/

/-- The fallback in a state and a role. -/
def fallback (st role : Nat) : State := (up.put F.ZTM_FB_STAT_STATE st).put F.ZTM_FB_CFG_ROLE role

theorem wit_IncrementIsStagedAppliedAndClamped :
    can up h0 .ZTM_INCR_FRAC 0 0 0xFFFFFFFF = true ∧ can up h0 .ZTM_INCR_INT 0 0 0 = true ∧ can up h0 .ZTM_INCR_INT 0 0 255 = true := by
  and_intros <;> decide +kernel

theorem wit_ZoneTimeRunsOnOpensEpochsAndIsCaptured :
    (∀ w ∈ [1, 2, 3], can up h0 .ZTM_CTRL 0 0 (keyed 0x2E5A w) = true) ∧
    (up.pending = [] ∧ up.live 34 = true ∧ up.ztm.zone < 2 ^ 64 ∧ 0 < up.incrVal ∧ up.incrVal < 2 ^ 63 ∧
      (up.put F.FAB_ISL_STATE_STATE 4 34).live 34 = false) ∧
    (can up h0 .ZTM_PAIR_CTRL 0 0 1 = true ∧ can up h3 .ZTM_PAIR_CTRL 0 0 1 (some 3) = true ∧ sees up h0 .ZTM_NOW 0 0 = true ∧
      sees up h3 .ZTM_NOW 0 0 (some 3) = true) := by and_intros <;> decide +kernel

theorem wit_FallbackFollowsItsTableAndMessages :
    (∀ st ∈ [0, 1, 2], (fallback st 0).get F.ZTM_FB_STAT_STATE = st ∧ ∀ e ∈ [true, false],
      can (fallback st 0) h0 .ZTM_FB_CFG 0 0 (setBitTo 0x10000 5 e) = true) ∧
    ((fallback 2 0).live 34 = true ∧ (fallback 2 0).is F.ZTM_FB_CFG_ROLE = false ∧ (fallback 2 0).mbState 0 63 = Mb.empty ∧
      ((fallback 2 0).put F.CAN_MB_CMD_STATE Mb.pending 0 63).mbState 0 63 ≠ Mb.empty) ∧
    (let s := { fallback 2 1 with ztm := { up.ztm with fbLastOwn := some ⟨9, 0⟩, fbLastSeq := some 255 } };
      s.is F.ZTM_FB_CFG_ROLE = true ∧ s.ztm.fbLastOwn = some ⟨9, 0⟩ ∧ s.ztm.fbLastSeq = some 255 ∧
        at0 (natsOf [1, 0, 0, 0, 0, 0, 0, 1]) 6 = (255 + 1) % 256 ∧ bitOf (at0 (natsOf [1, 0, 0, 0, 0, 0, 0, 1]) 7) 0 = true) := by
  and_intros <;> decide +kernel

/-! Witnesses: the CAN controllers -/

/-- Controller 0 of drawer 3 in a state and a MODE, with an attempt. -/
def ctrl (st mode : Nat) (x : Option CanTry) : State :=
  { (((up.put F.CAN_STAT_STATE st 0).put F.DRW_G_STATE_STATE 1 3).put F.DRW_FEAT_ACCEPT_ACCEPT 0x180 0 0 4) with
    can := [(0, { CanSt.rst with mode := mode, att := x })] }
/-- An empty classical data frame, and the attempt at it. -/
def empty (id : Nat) : CanFrame := ⟨id, false, false, false, false, false, false, 0, 0, false, 0, 0, []⟩
def try_ (mb : Nat) : CanTry := ⟨mb, empty 5, 7, ⟨0, 0⟩⟩
/-- Mailbox m of controller 0 in a state. -/
def boxed (s : State) (m st : Nat) : State := s.put F.CAN_MB_CMD_STATE st 0 m

theorem wit_CanControllersFollowTheirStates :
    (∀ st ∈ [Can.config, Can.active, Can.passive, Can.syncing, Can.busOff, Can.recovering, Can.retired],
      (ctrl st 1 none).canState 0 = st ∧ ((ctrl st 1 none).cn 0).att = none ∧
        ∀ n ∈ [0, 1, 2, 3], can (ctrl st 1 none) h3 .CAN_CTRL 0 0 (canMode 0 n) (some 3) = true) ∧
    (timingOk ((ctrl 0 0 none).timing .CAN_NBT 0) 32 256 128 160 1280 = true ∧ timingOk ((up.put F.CAN_NBT_TSEG1 0 0).timing .CAN_NBT 0) 32 256 128 160 1280 = false) ∧
    ((ctrl 2 1 none).rsvLathe 0 = false ∧ (ctrl 2 1 none).rsvTime 0 = false ∧ (ctrl 2 1 none).bare = false ∧
      (phased (ctrl 0 0 none) Ph.bare).bare = true ∧ can (phased (ctrl 0 0 none) Ph.bare) h0 .CAN_CTRL 0 0 1 = true) ∧
    (can (ctrl Can.busOff 1 none) h3 .CAN_RECOVER 0 0 (keyed 0x0C4B 1) (some 3) = true ∧
      can (ctrl Can.active 1 none) h3 .CAN_RECOVER 0 0 (keyed 0x0C4B 1) (some 3) = true) ∧
    ((ctrl Can.syncing 1 none).live (canIsland 0) = true ∧ ((ctrl Can.syncing 1 none).cn 0).hot = false ∧
      (ctrl Can.syncing 1 none).get F.CAN_ERRC_TEC 0 ≤ 127 ∧ 127 < ((ctrl Can.syncing 1 none).put F.CAN_ERRC_TEC 128 0).get F.CAN_ERRC_TEC 0) ∧
    ((ctrl Can.active 1 none).canOn 0 = true ∧ ((ctrl Can.active 1 none).cn 0).mode = 1 ∧ ((ctrl Can.active 1 none).cn 0).modeNext = none) := by
  and_intros <;> decide +kernel

theorem wit_MailboxesAreRequestedSelectedAndSent :
    (can (ctrl 2 1 none) h3 .CAN_MB_CMD 0 5 1 (some 3) = true ∧ can (ctrl 2 1 none) h3 .CAN_MB_CMD 0 5 2 (some 3) = true ∧
      (ctrl 2 1 none).mbReserved 0 5 = false ∧ (ctrl 2 1 none).mbState 0 5 = Mb.empty ∧ (ctrl 2 1 none).canState 0 ≠ Can.config ∧
      (ctrl 0 0 none).canState 0 = Can.config ∧ can (ctrl 0 0 none) h3 .CAN_MB_CMD 0 5 1 (some 3) = true) ∧
    (∀ st ∈ [Mb.pending, Mb.active, Mb.committed], (boxed (ctrl 2 1 none) 5 st).mbState 0 5 = st ∧
      can (boxed (ctrl 2 1 none) 5 st) h3 .CAN_MB_CMD 0 5 2 (some 3) = true) ∧
    ((boxed (ctrl 2 1 none) 5 1).live (canIsland 0) = true ∧ (boxed (ctrl 2 1 none) 5 1).canOn 0 = true ∧
      ∀ n : Fin 64, n ≠ 5 → (boxed (ctrl 2 1 none) 5 1).mbState 0 n ≠ Mb.pending) ∧
    (∀ st ∈ [Mb.active, Mb.committed], ((boxed (ctrl 2 1 (some (try_ 5))) 5 st).cn 0).att = some (try_ 5) ∧ (try_ 5).mb = 5 ∧
      (boxed (ctrl 2 1 (some (try_ 5))) 5 st).mbDevice 0 5 = false ∧ ((boxed (ctrl 2 1 (some (try_ 5))) 5 st).cn 0).modeNext = none ∧
      (boxed (ctrl 2 1 (some (try_ 5))) 5 st).mbReserved 0 5 = false ∧ (boxed (ctrl 2 1 (some (try_ 5))) 5 st).mbState 0 5 = st ∧
      (boxed (ctrl 2 1 (some (try_ 5))) 5 st).is F.CAN_RXCFG_SELF_RX 0 = false ∧
      ∀ f ∈ [F.CAN_MB_CTL_ONE_SHOT, F.CAN_MB_CMD_ABORT_REQ], ((boxed (ctrl 2 1 (some (try_ 5))) 5 st).put f 1 0 5).is f 0 5 = true) := by
  and_intros <;> decide +kernel

/-- Controller 0 with filter 3 for every identifier of classical frames. -/
def filtered (s : State) : State := (s.put F.CAN_FLT_CTL_EN 1 0 3).put F.CAN_FLT_CTL_FMT 1 0 3
/-- A CAN_RX ring of controller 0, running. -/
def canRing (s : State) : State :=
  { ((s.put F.RING_STATE_STATE Rst.running 0).put F.RING_CFG_KIND Kind.canRx 0).put F.RING_CFG_ENDPOINT 0 0 with
    ring := [(0, { RingSt.idle with desc := some d0 })] }
/-- The tunnel of controller 0 and host queue 0 with stream_id 0 and two bytes of messages, on its way in. -/
def acfFrame : List Nat := List.replicate 12 0x22 ++ [0x22, 0xF0, 0x82, 0x80, 0, 0] ++ List.replicate 40 0

theorem wit_CanReceptionTunnelAndRam :
    ((filtered (ctrl 2 1 none)).live (canIsland 0) = true ∧ (filtered (ctrl 2 1 none)).canOn 0 = true ∧ (empty 5).fdf = false ∧
      (∀ n < 64, (filtered (ctrl 2 1 none)).stnEn n = false) ∧ (filtered (ctrl 2 1 none)).is F.ZTM_FB_CFG_EN = false ∧
      (∀ i < 32, (ctrl 2 1 none).filterHits 0 (empty 5) i = false) ∧ (ctrl 2 1 none).is F.CAN_RXCFG_DEFAULT 0 = false) ∧
    ((filtered (ctrl 2 1 none)).filterHits 0 (empty 5) 3 = true ∧ (∀ j < 3, (filtered (ctrl 2 1 none)).filterHits 0 (empty 5) j = false) ∧
      (filtered (ctrl 2 1 none)).get F.CAN_FLT_CTL_ACTION 0 3 = 0 ∧ (filtered (ctrl 2 1 none)).ringOn Kind.canRx 0 = none ∧
      (canRing (filtered (ctrl 2 1 none))).ringOn Kind.canRx 0 = some 0) ∧
    (let x : CanRx := ⟨empty 5, 7, 3, false⟩;
      let s := { canRing (ctrl 2 1 none) with can := [(0, { CanSt.rst with rx := [x] })] };
      (s.cn 0).rx = [x] ∧ s.ringOn Kind.canRx 0 = some 0 ∧ s.ringReady 0 = true ∧ (s.rg 0).src = []) ∧
    (can (ctrl 2 1 none) h3 .CAN_MRAM_DATA 0 0 7 (some 3) = true ∧ sees (ctrl 2 1 none) h3 .CAN_MRAM_DATA 0 0 (some 3) = true ∧
      can (ctrl 2 1 none) h3 .CAN_ACF_CFG 0 0 1 (some 3) = true ∧ (ctrl 2 1 none).acfDenied 0 ⟨3, false, .core⟩ = false ∧
      (ctrl 2 1 none).canOwner 0 = some 3 ∧ (ctrl 2 1 none).ownsHostQ 3 0 = true ∧ (ctrl 2 1 none).ownsHostQ 3 1 = false) ∧
    (let s := { (ctrl 2 1 none).put F.DRW_G_HOLD_AMOUNT 9 3 2 with can := [(0, { CanSt.rst with tunTx := [acfFrame] })] };
      (s.cn 0).tunTx = acfFrame :: [] ∧ s.get F.DVT_CHARGE_CELLS 3 < s.get F.DRW_G_HOLD_AMOUNT 3 2) ∧
    (let x : QCopy := { copy with data := acfFrame };
      let s := { ((ctrl 2 1 none).put F.CAN_ACF_CFG_EN 1 0).put F.CAN_ACF_CFG_DIR_RX 1 0 with
        dvt := { DvtSt.rst with queue := [(240, [x])] } };
      s.queueOf 240 = x :: [] ∧ s.tunnelOf 0 acfFrame = some 0) ∧
    (((ctrl 2 1 none).put F.CAN_WAKE_ARM 1 0).is F.CAN_WAKE_ARM 0 = true ∧ (ctrl 2 1 none).is F.CAN_WAKE_ARM 0 = false ∧
      (let s := { (phased (ctrl 2 1 none) Ph.began).put F.FAB_SLEEP_STATUS_KIND 4 with start := { up.start with phase := Ph.began, cause := 7 } };
        s.sameCycle = true ∧ wakeBefore 3 0 (s.get F.FAB_SLEEP_STATUS_KIND) (s.get F.FAB_SLEEP_STATUS_INDEX) = true) ∧ up.sameCycle = false ∧
      up.start.wakeHeld = none ∧ (phased up Ph.sleep).phase = Ph.sleep ∧ (phased up Ph.toSleep).phase = Ph.toSleep) := by
  and_intros <;> decide +kernel


/-! Witnesses: the bridge -/

theorem wit_AtomicsAndReservations :
    (enters up h0 0x10300000 4 (.amo .swap) 7 = true ∧ (0x40000 : Nat) ≤ 0x10300000 ∧ isWindow 0x10300000 = false) ∧
    (let s := { up.put F.DWL_LINK_DL_UP 1 with dwl := { up.dwl with fn := [(0, { FnSt.rst with mse := true })] } };
      enters s (.pcie 0) 0x10300000 4 (.amo .add) 7 = true ∧ enters s (.pcie 0) 0x10300000 4 (.amo .swap) 7 = true ∧
        enters s (.pcie 0) 0x10300000 4 (.cas 0) 7 = true) ∧
    (up.mtrSplit = false ∧ up.mtrRuns 0 = false ∧ (mitre Mtr.running 1).mtrSplit = false ∧ (mitre Mtr.running 1).mtrRuns 0 = true ∧
      (mitre Mtr.running 1).inLmem 0x10300000 4 = false) ∧
    (enters up h0 (regAddr .MTR_LMEM_ADDR none 0 0) 4 (.amo .add) 4 = true ∧
      hitAt (regAddr .MTR_LMEM_ADDR none 0 0) = some (hitOf .MTR_LMEM_ADDR none 0 0) ∧
      up.posLive (hitOf .MTR_LMEM_ADDR none 0 0) = true ∧ isWindow (regAddr .MTR_LMEM_ADDR none 0 0) = true) ∧
    (enters up h0 0x08F80000 4 .lr 0 = true ∧ enters up h0 0x08F80000 4 .sc 7 = true ∧ emulated 0x08F80000 = true ∧
      isWindow 0x08F80000 = false ∧ up.fab.waiting = []) ∧
    (let s := { up with dwl := { up.dwl with resv := [(0, 0x08F80001)] } };
      s.live 35 = true ∧ storeGet 0 s.dwl.resv 0 = 0x08F80000 + 1 ∧ enters s h0 0x08F80000 4 .sc 7 = true) ∧
    (∀ served ∈ [true, false], let x : PLine := ⟨⟨0, false, .core⟩, 0, 3, 0, [], 0, served⟩
      [x].Nodup ∧ [x][0]? = some x ∧ x.region < 32) := by and_intros <;> decide +kernel

/-- The link is up, and function 0 may send. -/
def linkUp : State :=
  { up.put F.DWL_LINK_DL_UP 1 with
    dwl := { up.dwl with fn := [(0, { FnSt.rst with bme := true, mse := true, msix := true })], msix := [(5, 0xFEE00000, 7, false)] } }

theorem wit_LinkFunctionsAndPostedFailures :
    (linkUp.live 35 = true ∧ linkUp.is F.DWL_LINK_DL_UP = true ∧ up.is F.DWL_LINK_DL_UP = false ∧ linkUp.fnExists 0 = true ∧
      (0 : Nat) < linkUp.drw.count) ∧
    (let s := { linkUp with dwl := { linkUp.dwl with vfEn := true } };
      s.dwl.vfEn = true ∧ s.hostBound 4 = true ∧ s.fnExists 4 = true ∧ linkUp.dwl.vfEn = false) ∧
    (up.feat 3 11 = false ∧ storeGet [] up.drw.faults 3 = [] ∧ (drawer up 1).ringOf 3 Kind.postedErr = none ∧
      ((drawer up 1).put F.DRW_FEAT_ACCEPT_ACCEPT 0x800 0 0 4).feat 3 11 = true) ∧
    ((ringed Rst.running { RingSt.idle with desc := some d0 }).live 38 = true ∧ up.ringOwner 0 = some 3 ∧ up.hostBound 3 = true ∧
      (ringed Rst.running { RingSt.idle with desc := some d0 }).ringState 0 = Rst.running) ∧
    (sees up h3 .DWL_FENCE 0 0 (some 3) = true ∧ can up h3 .DWL_FENCE_ACK 0 0 9 (some 3) = true ∧
      (let s := { up with dwl := { up.dwl with unacked := [(24, [(9, 11)])] } };
        storeGet [] s.dwl.unacked (8 * 3 + 0) = (9, 11) :: [] ∧ sees s h3 .DWL_FENCE 0 0 (some 3) = true)) := by
  and_intros <;> decide +kernel

theorem wit_InterruptScanDeliversVectors :
    (up.live 35 = true ∧ up.drw.count ≤ 16 ∧ up.vecMasked 0 5 = false ∧ (up.put F.DRW_IRQ_MASK_MASK 32 0 0 1).vecMasked 0 5 = true ∧
      ({ linkUp with dwl := { linkUp.dwl with held := [(5, true)] } }).hostBound 0 = true ∧ linkUp.msixOpen 0 5 = true ∧
      linkUp.msixOpen 0 6 = false) ∧
    (can up h3 .DWL_EOI 0 0 5 (some 3) = true) ∧
    (storeGet false ({ linkUp with dwl := { linkUp.dwl with pba := [(5, true)] } }).dwl.pba (64 * 0 + 5) = true) ∧
    (let s := (up.put F.DRW_BIND_MODE 1 3).put F.IOM_GIRQ_GFILE 1 3;
      s.hostBound 3 = false ∧ 1 ≤ s.get F.DRW_BIND_EIID_BASE 3 + 5 ∧ s.get F.DRW_BIND_EIID_BASE 3 + 5 ≤ 255 ∧
        s.get F.IOM_GIRQ_GFILE 3 = 1 ∧ s.get F.IOM_GIRQ_HART 3 < 6 ∧ (s.ht (s.get F.IOM_GIRQ_HART 3)).imsic.length = 9 ∧
        s.unitOut 5 (s.get F.IOM_GIRQ_HART 3) = false) := by and_intros <;> decide +kernel

/-! Witnesses: worlds and debug -/

/-- The hart's own state at a command: privilege mode and V. -/
def ctx (p : Fin 4) (v : Bool) : HartCtx := ⟨0x1000#64, p, v, List.replicate 32 0x20#64, List.replicate 32 0#64, 0#8, 0, 0x2000#64, 0#64, 0#64, 0#64, List.replicate 9 ImsicFile.rst⟩
/-- Hart 0 in gateway style, with one gate entry. -/
def gated : State :=
  { up with
    img := some { im with
      sections := (im.sections.map fun x => if x.1 = 9 then (9, x.2.take 3 ++ [1] ++ x.2.drop 4) else x) ++ [(10, [0x100, 0x80000000])] } }
/-- Hart 0 in the secure world. -/
def inside (s : State) : State := { s with hart := [(0, { HartSt.rst with inReset := false, timing := true, mwepc := 0x2000 })] }

theorem wit_CallsChangeTheWorldInOneStep :
    (up.awake = true ∧ up.unitOut 5 0 = false ∧ (up.ht 0).halted = false ∧ (up.ht 0).w = false ∧ (ctx 1 true).virt = true ∧
      (ctx 1 false).virt = false ∧ (ctx 0 false).priv = 0) ∧
    (up.gateway 0 = false ∧ gated.gateway 0 = true ∧ up.svcOk = false ∧ (up.put F.WLD_SVC_STATE 1).svcOk = true ∧
      up.secureAddr up.monVec = true ∧ up.secureAddr up.secVec = true) ∧
    (gated.gateEntry 0x100 = true ∧ gated.gateEntry 0x200 = false) ∧
    (((inside up).ht 0).w = true ∧ ((inside up).ht 0).haltReq = false ∧ (inside gated).gateway 0 = true ∧ (ctx 3 false).priv = 3) := by
  and_intros <;> decide +kernel

theorem wit_ServicesRestartAtMostThreeTimes :
    ((inside up).awake = true ∧ ((inside up).ht 0).w = true ∧ ((inside up).ht 0).timing = true ∧ (inside up).get F.WLD_SVC_RESTARTS = 0 ∧
      ((inside up).put F.WLD_SVC_RESTARTS 3).get F.WLD_SVC_RESTARTS = 3 ∧ ((inside up).ht 0).inReset = false ∧ (up.ht 0).w = false) ∧
    ((up.put F.WLD_SVC_STATE 2).get F.WLD_SVC_STATE = 2 ∧ up.wld.wiping = false ∧ up.get F.WLD_SVC_STATE ≠ 2) ∧
    (let s := { up.put F.WLD_SVC_STATE 2 with wld := ⟨true⟩ };
      s.wld.wiping = true ∧ s.get F.WLD_SVC_STATE = 2 ∧ s.awake = true ∧ (s.ht s.restartHart).inReset = false) ∧
    (can up hs .WLD_SVC 0 0 (2 ^ 16) = true ∧ can up hs .WLD_SVC 0 0 (2 ^ 17) = true ∧ can up hs .WLD_RING_SEC 0 0 5 = true ∧
      can up hs .WLD_MTR_WORLD 0 0 1 = true ∧ up.mtrState = Mtr.halted ∧ (mitre Mtr.running 0).mtrState ≠ Mtr.halted) := by
  and_intros <;> decide +kernel

/-- No debug enable is in force. -/
def closed : State := up.put F.TIL_LC_STATE 2
/-- The Mitre unit is split. -/
def split : State :=
  { up with img := some { im with sections := im.sections.map fun (x : Section) => if x.1 = 12 then (12, [1, 8]) else x } }

theorem wit_DebugActsUnderItsEnables :
    (up.awake = true ∧ (up.ht 0).inReset = false ∧ up.dbgAct (up.ht 0).w = true ∧ (up.ht 0).halted = false ∧
      (inside up).dbgAct ((inside up).ht 0).w = true) ∧
    (closed.dbgAct (closed.ht 0).w = false ∧ (inside closed).dbgAct ((inside closed).ht 0).w = false ∧ ((inside closed).ht 0).w = true) ∧
    (split.mtrSplit = true ∧ split.dbgAct (split.mtrSecure 1) = true) ∧
    (enters up .debug 0x10300000 4 .read 0 = true ∧ isWindow 0x10300000 = false ∧ enters up .debug 0x10300000 4 .write 7 = true) ∧
    (closed.dbgSee true = false ∧ closed.dbgSee false = false ∧ closed.dbgAct true = false) := by and_intros <;> decide +kernel

/-! Witnesses: the Till -/

/-- The secure set has run up to an operation, with its parameters, a source length and a destination length. -/
def till (op p src dst : Nat) (x : SlotSt) (lc : Nat := 0) : State :=
  { ((((((up.put F.TIL_CMD_OP op 0 0 17).put F.TIL_PARAM_VALUE p 0 0 17).put F.TIL_SRC_LEN_VALUE src 0 0 17).put F.TIL_DST_LEN_VALUE dst 0 0 17).put
      F.TIL_CMD_DSLOT 1 0 0 17).put F.TIL_LC_STATE lc).put F.TIL_ENT_HEALTH_OK 1 with til := { up.til with busy := some 17, slots := [(0, x)] } }
/-- A key of a type and a length that may be used for everything. -/
def key (ty n : Nat) : SlotSt := ⟨ty + n * 2 ^ 24 + 0xFF1F10, 0xFFFF, 0, List.replicate n 1⟩
/-- The same with attributes for a new key of a type and a length, and a destination in SRAM. -/
def made (s : State) (ty n : Nat) : State :=
  (s.put F.TIL_NEW_VALUE (ty + n * 2 ^ 24 + 0x100) 0 0 17).put F.TIL_DST_LO_VALUE 0x10300000 0 0 17

theorem wit_TillCommandsAreCheckedAndRunToTheirEnd :
    ((till 8 0 32 32 (key 1 16)).live 32 = true ∧ (till 8 0 32 32 (key 1 16)).til.busy = some 17 ∧
      (till 8 0 32 32 (key 1 16)).til.result = none ∧ (till 8 0 32 32 (key 1 16)).tOp 17 = 8) ∧
    ((till 8 2 32 32 (key 1 16)).tillCheck 17 = 2 ∧ (till 8 0 32 32 SlotSt.empty).tillCheck 17 = 5) ∧
    (∀ s ∈ [made (till 1 0 0 0 SlotSt.empty) 1 16, made (till 2 0 16 0 SlotSt.empty) 1 16, made (till 3 0 56 0 (key 1 16)) 1 16,
        till 4 0 0 56 (key 1 16), till 5 0 0 0 (key 1 16), till 6 0 0 64 (key 5 32), till 8 0 32 32 (key 1 16), till 8 1 32 48 (key 1 16),
        till 9 0 32 32 (key 1 16), till 9 1 32 32 (key 1 16), till 0xA 0 8 32 (key 3 32), till 0xB 0 40 0 (key 3 32),
        till 0xC 1 8 48 SlotSt.empty, till 0xD 0 8 64 (key 5 32), till 0xE 0 72 0 (key 8 64), made (till 0xF 0 64 0 (key 5 32)) 4 32,
        made (till 0x10 0 8 0 (key 4 32)) 1 16, till 0x11 0 0 16 SlotSt.empty, till 0x12 0 32 360 (key 1 16), till 0x13 0 0 32 SlotSt.empty,
        till 0x14 0 248 0 SlotSt.empty, till 0x15 0 248 0 SlotSt.empty 1, till 0x16 0 96 0 SlotSt.empty],
      s.tillCheck 17 = 0 ∧ s.get F.TIL_ENT_HEALTH_OK = 1 ∧
        s.bufRead 17 [] (splitAt_ 4096 18 (s.tSrc 17) (s.tillSrcLen 17)) = (some (List.replicate (s.tillSrcLen 17) 0), s)) ∧
    ((till 8 0 32 32 (key 1 16) 4).get F.TIL_LC_STATE = 4 ∧
      ((till 8 0 32 32 (key 1 16)).put F.TIL_ENT_HEALTH_OK 0).get F.TIL_ENT_HEALTH_OK = 0 ∧ (key 1 16).export_ = false ∧
      (key 1 16).imported = false ∧ (⟨(key 1 16).w0 + 0x40, 0, 0, []⟩ : SlotSt).export_ = true ∧
      (till 0x14 0 248 0 SlotSt.empty).lcAllowed 4 = true ∧ (till 0x14 0 248 0 SlotSt.empty).lcAllowed 3 = false ∧
      up.is F.TIL_LC_OWNER_SET = false ∧ cryptLen 8 1 (List.replicate 32 0) = some 16) ∧
    (∀ i < 360, (made up 1 16).memCause 0 true true ((made up 1 16).tDst 17 + i) = 0 ∧ (made up 1 16).memHeld ((made up 1 16).tDst 17 + i) = none) := by
  and_intros <;> decide +kernel

theorem wit_TillCommandsCompleteAndEntropyIsTested :
    (let s := { till 8 0 32 32 (key 1 16) with til := { (till 8 0 32 32 (key 1 16)).til with result := some (1, 5) } };
      s.live 32 = true ∧ s.til.busy = some 17 ∧ s.til.result = some (1, 5) ∧ s.til.wrldPend = false ∧ s.til.intent = none ∧
        ({ s with til := { s.til with intent := some 2 } }).til.intent = some 2) ∧
    (up.til.busy = none ∧ up.live 32 = true) ∧
    ((till 8 0 32 32 (key 1 16)).til.busy = some 17 ∧ (till 8 0 32 32 (key 1 16)).til.result = none) := by
  and_intros <;> decide +kernel

/-! Witnesses: the recorder -/

theorem wit_RecorderItemsFollowTheirRules :
    (up.live 33 = true ∧ RecItem.blank.bins.length = 32) ∧
    ((let x := { RecItem.blank with width := 10, lo := 0 };
      x.mode = 0 ∧ 0 < x.width ∧ x.bin 25 = 2 ∧ x.bin (-1) = 0 ∧ x.bin 99999 = 31) ∧
     (let x := { RecItem.blank with mode := 1, shift := 2 };
      x.mode = 1 ∧ x.bin 3 = 0 ∧ x.bin 4 = 1 ∧ x.bin 8 = 2 ∧ x.bin (2 ^ 32) = 31)) ∧
    (can up h0 .REC_CFG_CMD 0 0 1 = true ∧ can up h0 .REC_CLEAR 0 0 (2 ^ 31 + 5) = true ∧ can up h0 .REC_CLEAR 0 0 (2 ^ 31 + 2 ^ 30) = true ∧
      (up.tagGiven ⟨up.hartTag 0 false, 0, 0, 4, .write, 0, 0⟩).tag.drawer = 0 ∧ sourceOk 9 8 = true ∧ sourceOk 9 9 = false ∧
      up.recHolder 0 = none) ∧
    (sees up h0 .REC_WIN 0 0 = true ∧ sees up h0 .REC_WIN 63 0 = true ∧ sees { (up.put F.DRW_G_STATE_STATE 1 3).put F.DRW_FEAT_ACCEPT_ACCEPT 0x2000 0 0 4 with drw := { up.drw with recOwner := [(0, 4)] } } h3 .REC_WIN 63 0 (some 3) = true ∧
      (up.put F.REC_CURSOR_AUTO 1 0 0 4).is F.REC_CURSOR_AUTO 0 0 4 = true ∧
      ({ up with drw := { up.drw with recOwner := [(2, 4)] } }).recHolder ((0 + 1 + 1) % 4096) = some 3) := by
  and_intros <;> decide +kernel

/-- A LOG ring of drawer 3, running, with a large buffer, and what the drawer has to deliver. -/
def logs (src : List Nat) (l : List LogRec) : State :=
  { ((up.put F.RING_STATE_STATE Rst.running 0).put F.RING_CFG_KIND 5 0).put F.DRW_G_STATE_STATE 1 3 with
    ring := [(0, { RingSt.idle with desc := some { d0 with len := 4096 }, src := src })]
    recd := { up.recd with staging := [(3, l)] } }

theorem wit_RecorderFlushesAndDelivers :
    (up.live 33 = true ∧ up.is F.REC_FLUSH_BUSY = false ∧ (up.put F.REC_FLUSH_BUSY 1).is F.REC_FLUSH_BUSY = true) ∧
    (can up h0 .REC_FLUSH 0 0 1 = true ∧ sees up h0 .REC_ALM_HEAD 0 0 = true ∧ can up h0 .REC_ALM_STAT 0 0 (2 ^ 16) = true ∧
      up.recd.alarms = []) ∧
    (let s := logs [] [⟨1, 2, 0, 0, ⟨0, 0⟩, 0, 0, 0⟩];
      s.live 38 = true ∧ s.ringOf 3 5 = some 0 ∧ s.ringReady 0 = true ∧ (s.rg 0).close = false ∧
        (s.rg 0).desc = some { d0 with len := 4096 } ∧ s.ringKind 0 = 5 ∧ storeGet 0 s.recd.lostLogs 3 = 0 ∧
        storeGet [] s.recd.staging 3 ≠ [] ∧ 0 + 32 * 1 + 32 ≤ 4096 ∧ up.ringOf 3 5 = none) ∧
    (((logs [1] []).rg 0).src ≠ [] ∧ ((logs [1] []).rg 0).ready = false ∧ ((logs [1] []).rg 0).desc.isSome = true) := by
  and_intros <;> decide +kernel

/-! Witnesses: image update -/

/-- A BEGIN of a Carcass session of 8,192 bytes, and the END of a session, by the mailbox. -/
def cmd (op : Nat) : UpdCmd := ⟨256, op, leBytes 4 0x4B425A4C ++ [2, 0, 0, 0] ++ leBytes 4 8192 ++ leBytes 4 0, []⟩
/-- The engine with a command at the front and a status, if it has run. -/
def queuedCmd (op : Nat) (r : Option Nat) : State := { up with upd := { up.upd with cmds := [cmd op], ran := r } }

theorem wit_UpdateCommandsFollowTheirTable :
    (∀ op ∈ [1, 2, 3, 4], (queuedCmd op none).live 39 = true ∧ (queuedCmd op none).upd.cmds = cmd op :: [] ∧
      (queuedCmd op none).upd.ran = none ∧ (cmd op).kind = 2 ∧ (cmd op).op = op ∧ 16 ≤ (cmd op).head.length ∧
      fieldLe (cmd op).head 0 4 = 0x4B425A4C ∧ (cmd op).offset = 8192) ∧
    ((queuedCmd 1 (some 0)).upd.ran = some 0 ∧ (cmd 1).ring = 256) ∧
    (can up h0 .UPD_CONFIRM 0 0 (keyed 0x9A51 2) = true ∧ (up.tookBank 2).1 = 0) ∧
    (let s := { up with upd := { up.upd with took := [(2, (1, 5))] } };
      s.tookBank 2 = (0 + 1, 5) ∧ 0 = s.prefBank 2 ∧ s.get F.UPD_ARB_COUNTER 1 < 5 ∧ can s h0 .UPD_CONFIRM 0 0 (keyed 0x9A51 2) = true) := by
  and_intros <;> decide +kernel

/-! Witnesses: retirement and SAFEN -/

theorem wit_UnitsRetireAndAreCleared :
    (up.awake = true ∧ up.unitOut 5 0 = false ∧ up.get F.FAB_CORE_STAT_RUN_ERR / 2 ^ 0 % 2 = 0 ∧
      (up.put F.FAB_CORE_STAT_RUN_ERR 1).get F.FAB_CORE_STAT_RUN_ERR / 2 ^ 0 % 2 = 1 ∧ (up.ht 0).w = false) ∧
    (up.unitOut 6 3 = false ∧ up.get F.FAB_SRAM_CE_WINDOW 3 < 63 ∧ 63 ≤ (up.put F.FAB_SRAM_CE_WINDOW 63 3).get F.FAB_SRAM_CE_WINDOW 3 ∧
      ({ up with flt := { up.flt with out := [(256 * 6 + 3, true)] } }).unitOut 6 3 = true) ∧
    (enters up h0 0x10300000 4 .read 0 = true ∧ isSram 0x10300000 = true ∧ (0x10300000 - 0x10000000) / 0x100000 = 3 ∧
      up.is F.FAB_AERR_INFO_VALID = false) ∧
    (can up h0 .FAB_RET_CLR 0 0 (keyed 0x3D9E (5 * 256 + 3)) = true ∧ up.get F.TIL_LC_STATE ≠ 3 ∧
      can (up.put F.TIL_LC_STATE 3) h0 .FAB_RET_CLR 0 0 (keyed 0x3D9E (5 * 256 + 3)) = true ∧ (up.put F.TIL_LC_STATE 3).get F.TIL_LC_STATE = 3 ∧ 5 < unitCount 3 ∧
      unitCount 3 ≤ 120 ∧ closed.countsRetired 3 5 = false ∧
      ({ closed with flt := { closed.flt with pend := [(3, 5)] } }).countsRetired 3 5 = true) ∧
    (up.isChan 0 = true ∧ up.dieLost (bankOf 0) = false ∧ (up.lc 0).hsWin = false ∧
      ((up.putLc 0 { up.lc 0 with hsWin := true }).lc 0).hsWin = true) := by and_intros <;> decide +kernel

theorem wit_SafenFollowsItsReasons :
    (∀ w ∈ [0, 1, 2, 3], can up h0 .FAB_SAFEN_CTRL 0 0 (keyed 0x5A4F w) = true) ∧
    (can up h0 .FAB_SAFEN_MASK 0 0 0x70 = true) ∧
    (up.startDone = true ∧ State.reset.startDone = false ∧ up.get F.MTR_STATE_STATE ≠ 4 ∧
      ({ up with lth := { up.lth with task := [(0, { TaskSt.idle with faultStop := true })] } }).tk 0 = { TaskSt.idle with faultStop := true }) ∧
    (up.phase = Ph.run ∧ State.reset.phase = Ph.began ∧ (phased up Ph.sleep).phase = Ph.sleep) := by and_intros <;> decide +kernel


/-! The worked examples of the spec -/

/-- What a command leaves; the state itself when it does not complete. -/
def after (s : State) (c : Instr) : State :=
  match exec c s with
  | .next t => t
  | _ => s

/-- `n` records of `k` words, all zero but record `i`. -/
def oneRec (n k i : Nat) (r : List Nat) : List Nat := (List.range n).flatMap fun j => if j = i then r else List.replicate k 0
/-- The complete small image of spec/01_carcass.md, with word 0 of its Clamp rule and its DRAWERS section. -/
def example01 (rule : Nat) (drawers : List Nat) : Image :=
  ⟨[(1, [0x04600000, 3, 0x0007028A, 0x00140014, 0x006403C3, 0, 0x0002004B, 0x14,
      0x00A01348, 3, 0x00010BB8, 0x003200C8, 0x01F401E2, 0, 0x00020258, 0x32]),
    (2, [0x4B0, 0, 0x000103E8, 0]), (4, oneRec 128 2 5 [0x02580001, 0x32]), (6, [rule, 0x85, 0xC8, 0]), (7, drawers),
    (9, [128, 96, 512, 0, 0, 0, 0, 0]),
    (11, [1, 0] ++ ((List.range 37).flatMap fun p => if p = 0 ∨ p = 30 then [0x1001, 0] else [0, 0]) ++
      ((List.range 296).map fun q => if q / 8 = 0 ∨ q / 8 = 30 then 0x00100010 else 0) ++ [0x10001, 0x4000, 0, 0]),
    (12, [0, 1])], 1, 1, []⟩
/-- Its DRAWERS record of the keeper, and a second record. -/
def keeperRec : List Nat := [16 + 256 * 65536, 512 + 8192 * 65536, 32768 * 65536, 256 * 65536, 100 * 256, 4096 * 65536, 0, 0, 0, 0, 3, 0]
def secondRec : List Nat := [0, 0, 0, 0, 0, 0, 0, 0, 0, 0, 3, 0]

/-- spec/01_carcass.md: the image passes every check of sections, and the changed one fails with CLAMP_TARGET in rule 0. -/
theorem test_example_image :
    (∀ ty ∈ [1, 2, 4, 6, 7, 9, 11, 12], (State.reset.withImage (example01 5 keeperRec)).ownCheck ty = none ∧
      (State.reset.withImage (example01 5 keeperRec)).crossCheck ty = none) ∧
    (State.reset.withImage (example01 0x15 (keeperRec ++ secondRec))).crossCheck 6 = some (0x31, 0) := by
  constructor <;> decide +kernel

/-- A claim of drawer d. -/
def claimOf (d : Fin 16) : Claim := ⟨0, d, .core, 0⟩
/-- Point 1 after a handshake with the pointer at p: the pointer, and the drawer granted. -/
def handshake (p : Nat) (l : List (Fin 16)) : Nat × Nat :=
  let t := after (up.put F.FAB_ARB_PTR_PTR p 1) (.arbitrationGrant 1 (l.map claimOf))
  (t.get F.FAB_ARB_PTR_PTR 1, storeGet 0 t.fab.granted 1 - 1)

/-- spec/02_fabric.md: the four handshakes of point 1. -/
theorem test_example_arbitration :
    handshake 4 [2, 5, 9] = (6, 5) ∧ handshake 6 [2, 9, 7] = (8, 7) ∧ handshake 8 [2, 9] = (10, 9) ∧ handshake 10 [2] = (3, 2) := by
  decide +kernel

/-- Three drawers with the ring bounds of spec/04_drawers.md, allocated. -/
def three : State :=
  ({ up with
    drw := { up.drw with count := 3, ringOwner := [] }
    img := some ⟨[(7, [16 + 64 * 65536] ++ List.replicate 11 0 ++ [32 + 96 * 65536] ++ List.replicate 11 0 ++ [8 + 128 * 65536] ++
      List.replicate 11 0)], 1, 1, []⟩ } : State).allocate 1

/-- spec/04_drawers.md: the rings each drawer holds after the two passes. -/
theorem test_example_allocation :
    (three.holding 0 1 = 64 ∧ three.holding 1 1 = 32 ∧ three.holding 2 1 = 8 ∧ three.partyHolds 16 1 = 152) ∧
    [0, 15, 16, 47, 48, 55, 56, 103, 104, 255].map three.ringOwner =
      [some 0, some 0, some 1, some 1, some 2, some 2, some 0, some 0, none, none] := by decide +kernel

/-- Drawer 2 of spec/04_drawers.md with a set it accepts. -/
def accepting (w : Nat) : State :=
  ({ up with
    hart := [(1, { HartSt.rst with w := false, inReset := false, hdrawer := 2 })]
    img := some { im with sections := im.sections.map fun (x : Section) =>
      if x.1 = 7 then (7, oneRec 16 12 2 [0, 0, 0, 8 * 65536, 0, 64 * 65536, 8, 0, 0x100, 0, 0, 0]) else x } } : State).offerAll.put
    F.DRW_FEAT_ACCEPT_ACCEPT w 0 0 3

/-- spec/04_drawers.md: the offer, the commit that is refused for F9, and the one that is accepted. -/
theorem test_example_features :
    ((accepting 0).issue h3 (regAddr .DRW_FEAT_OFFER (some 2) 0 0) 4 .read 0).resp = ⟨true, 0x79FF⟩ ∧
      ((after (accepting 0xA2D) (.featureCommit h3 2)).issue h3 (regAddr .DRW_FEAT_STATUS (some 2) 0 0) 4 .read 0).resp = ⟨true, 0x902⟩ ∧
      (after (accepting 0x82D) (.featureCommit h3 2)).drwState 2 = 1 := by
  and_intros <;> decide +kernel

/-- The lamp of spec/06_load_faults.md at its last trip: no retry left, its episode open for some time. -/
def lampTrip (ms : Nat) : State :=
  let s : State := { up with img := some { im with sections := im.sections.map fun (x : Section) =>
    if x.1 = 1 then (1, [0x04600000, 3, 0x0007028A, 0x00140014, 0x006403C3, 0, 0x0002004B, 0x14]) else x } }
  let s := (((s.put F.LCH_PROT_EPISODE 1 0).put F.LCH_STATE_SRC_VAL 1 0).putLc 0 { s.lc 0 with episodeMs := ms }).resolve 0
  after s (.ocTrip 0)

/-- spec/06_load_faults.md: 52 s after the episode opened the trip is permanent with cause WINDOW (1); after 61 s the channel is EXHAUSTED. -/
theorem test_example_retirement :
    ((lampTrip 52000).prot 0 = Prot.retired ∧ (lampTrip 52000).get F.LCH_PROT_RETIRE_CAUSE 0 = 1) ∧
      (lampTrip 61000).prot 0 = Prot.exhausted := by decide +kernel

/-- Six channels of FEEDA, on, over the budget of 120 A, as in spec/06_load_faults.md. -/
def overBudget : State :=
  let rec_ := fun (c prio : Nat) => ([c + prio * 2 ^ 21, 3, 100, 0, 0, 0, 0, 0] : List Nat)
  let s : State := { up with img := some ⟨[(1, rec_ 2 1 ++ rec_ 6 1 ++ rec_ 10 3 ++ rec_ 24 4 ++ rec_ 28 5 ++ rec_ 40 7), (2, [1200, 0, 0, 0])], 1, 1, []⟩ }
  (([2, 6, 10, 24, 28, 40].foldl (fun s c => (s.put F.LCH_STATE_SRC_VAL 1 c).resolve c) s).putFd 0 ⟨1200, 152000, 20, 0⟩)

/-- spec/06_load_faults.md: the shed step takes channels 6, 2 and 10, and the restore step brings back channel 10. -/
theorem test_example_shedding :
    let t := after overBudget (.shedStep 0 [(2, 15000), (6, 15000), (10, 12000), (24, 30000), (28, 55000), (40, 25000)])
    [2, 6, 10, 24, 28, 40].map (fun c => t.flag c Flag.budgetShed) = [true, true, true, false, false, false] ∧
      t.get F.FEED_STATUS_SHORTFALL 0 = 0 ∧
      let u := after (t.putFd 0 { t.fd 0 with restore := 5000, mean := 85000 }) (.restore 0)
      [2, 6, 10].map (fun c => u.flag c Flag.budgetShed) = [true, true, false] := by decide +kernel

/-- spec/07_inputs_clamp.md: 1,500 Ω at 2 mA reads CODE 614, and INP_MI_VAL 14,990. -/
theorem test_example_resistive :
    let s : State := { up with
      img := some ⟨[(4, oneRec 128 2 20 [4, 2])], 1, 1, []⟩
      pins := [(20, { PinSt.rst with codes := List.replicate 15 614 })] }
    (after s (.analogConversion 20 614#12 false)).get F.INP_MI_VAL_VALUE 20 = 14990 := by decide +kernel

/-- spec/15_can.md: the three timing words are valid; the nominal bit takes 320 cycles, the XL bit 16. -/
theorem test_example_can_timing :
    timingOk (timingOf 0x1F1F7E01) 32 256 128 160 1280 = true ∧ timingOk (timingOf 0x0F0F3E00) 4 128 64 20 320 = true ∧
      timingOk (timingOf 0x03030A00) 4 128 64 8 320 = true ∧ bitCycles (timingOf 0x1F1F7E01) = 320 ∧ bitCycles (timingOf 0x03030A00) = 16 := by
  decide

/-- spec/13_ethernet_ports.md: the CRC-32 of "123456789". -/
theorem test_crc32_check_value : crc32 [0x31, 0x32, 0x33, 0x34, 0x35, 0x36, 0x37, 0x38, 0x39] = 0xCBF43926 := by decide +kernel

/-- The machine with prefetching on over the LCH window, at a raw time, as in spec/16_dowel.md. -/
def prefetching : State :=
  { up with img := some { im with sections := im.sections ++ [(8, (List.range 32).flatMap fun k => if k = 3 then [0x21000, 0x10, 3, 0] else [0, 0, 0, 0])] } }
def atRaw (s : State) (ns : Nat) : State := { s with ztm := { s.ztm with raw := ns } }

/-- spec/16_dowel.md: the second read is served from the first line, and the write discards both, one of which served nothing. -/
theorem test_example_prefetch :
    let a := after (atRaw prefetching 0) (.registerRead h0 0x21000004#40 4)
    let b := after (atRaw a 90) (.registerRead h0 0x21000030#40 4)
    let c := after (atRaw b 120) (.registerWrite h0 0x21000040#40 4 1#64)
    a.dwl.lines.length = 2 ∧ b.get F.DWL_REGION_HITS_COUNT 3 = 1 ∧ c.dwl.lines = [] ∧ c.get F.DWL_REGION_DISC_COUNT 3 = 1 := by decide +kernel

/-- spec/10_mitre.md: four latent divergences within 999 slices, and not within 1,000. -/
theorem test_example_latent_rate : rateMet [10650, 10300, 10000] 2 10999 = true ∧ rateMet [10650, 10300, 10000] 2 11000 = false := by decide

/-- spec/21_faults_degradation.md: SRAM unit 20 is RETIRED, asserts SAFEN and raises alarm 9; its record reads 0x0010_0000. -/
theorem test_example_sram :
    let a := after ((up.put F.FAB_SAFEN_MASK_ARM 1).put F.FAB_SAFEN_REASON 0) (.scrubRead 20 .again)
    let b := after a (.retirementRecord 6 20)
    a.get F.FAB_SAFEN_REASON = 0x10 ∧ a.safenPin = 1 ∧ a.recd.alarms.map (fun r => (r.code, r.unit)) = [(9, 20)] ∧
      (b.issue h0 (regAddr .FAB_RET none 5 0) 4 .read 0).resp = ⟨true, 0x00100000⟩ := by decide +kernel

/-- spec/19_recorder.md: means of 5,400 and 31,200 mA fall in bins 5 and 31 of width 1,000. -/
theorem test_example_bins : { RecItem.blank with width := 1000 }.bin 5400 = 5 ∧ { RecItem.blank with width := 1000 }.bin 31200 = 31 := by decide

/-- spec/00_scope.md: the identity register of revision A1. -/
theorem test_example_identity : (up.issue hs (regAddr .CARC_ID none 0 0) 4 .read 0).resp = ⟨true, 0x96400A01⟩ := by decide +kernel

/-! Operations of a lane, worked by hand from R165 to R167 -/

/-- A task at its operation `c`, whose slots 0 and 1 hold A and B. -/
def operands (a b : Word) (c : Instr) : State :=
  { lathe Eng.running 3 with
    img := some (imW ([laneWord c % 2 ^ 32, laneWord c / 2 ^ 32] ++ List.replicate 6 0))
    lth := { (lathe Eng.running 3).lth with
      task := [(0, { TaskSt.idle with phase := 3 })]
      slots := [(0, a), (1, b)].filter (·.2 ≠ 0#32) } }
/-- What an operation leaves in slot 2, and in F. -/
def inD (a b : Word) (c : Instr) : Word := (after (operands a b c) c).readSlot 0 2
def inF (a b : Word) (c : Instr) : Bool := (after (operands a b c) c).flagF 0

theorem test_add_wraps : inD 0xFFFFFFFF#32 2#32 (.opAdd 0 .always 2 0 (.slot 1)) = 1#32 := by decide +kernel
theorem test_sub_immediate : inD 5#32 0#32 (.opSub 0 .always 2 0 (.imm (-1))) = 6#32 := by decide +kernel
theorem test_div_truncates : inD (-7) 2#32 (.opDiv 0 .always 2 0 (.slot 1)) = -3 := by decide +kernel
theorem test_div_overflow : inD 0x80000000#32 (-1) (.opDiv 0 .always 2 0 (.slot 1)) = 0x80000000#32 := by decide +kernel
theorem test_mod_sign_of_a : inD (-7) 2#32 (.opMod 0 .always 2 0 (.slot 1)) = -1 := by decide +kernel
theorem test_sar_modulo_32 : inD 0x80000000#32 33#32 (.opSar 0 .always 2 0 (.slot 1)) = 0xC0000000#32 := by decide +kernel
theorem test_lt_signed : inF (-1) 1#32 (.opLt 0 .always 0 (.slot 1)) = true ∧ inF (-1) 1#32 (.opLtu 0 .always 0 (.slot 1)) = false := by
  decide +kernel
theorem test_fadd : inD 0x3FC00000#32 0x40100000#32 (.opFadd 0 .always 2 0 (.slot 1)) = 0x40700000#32 := by decide +kernel
theorem test_fmul_flushes : inD 0x00800000#32 0x3F000000#32 (.opFmul 0 .always 2 0 (.slot 1)) = 0#32 := by decide +kernel
theorem test_fdiv_nan : inD 0#32 0#32 (.opFdiv 0 .always 2 0 (.slot 1)) = 0x7FC00000#32 := by decide +kernel
theorem test_fsqrt : inD 0x40800000#32 0#32 (.opFsqrt 0 .always 2 0) = 0x40000000#32 := by decide +kernel
theorem test_ftoi_ties_to_even : inD 0x40200000#32 0#32 (.opFtoi 0 .always 2 0) = 2#32 := by decide +kernel
theorem test_ftoi_saturates : inD 0x4F800000#32 0#32 (.opFtoi 0 .always 2 0) = 0x7FFFFFFF#32 := by decide +kernel
theorem test_condition_fails : inD 5#32 6#32 (.opAdd 0 .p 2 0 (.slot 1)) = 0#32 := by decide +kernel

/-! The step, the decoder and the checks -/

/-- With no command waiting, a step of a running machine is one 2 ns tick of the raw counter. -/
theorem test_idle_tick : step up = .next up.idle ∧ up.idle.ztm.raw = 2 := ⟨rfl, by decide +kernel⟩

/-- No word spells a command: the opcode table gives its rows no bits. -/
theorem test_decode_none : decodeTableWord 32 0 = none ∧ State.reset.withFetchWord 32 0xFFFFFFFF = State.reset := by
  constructor <;> rfl

/-- A CAN frame whose identifier its format cannot hold. -/
def wideFrame : CanFrame := ⟨0x800, false, false, false, false, false, false, 0, 0, false, 0, 0, []⟩
/-- A hart's state with too few registers. -/
def shortCtx : HartCtx := ⟨0#64, 1, false, [], [], 0#8, 0, 0#64, 0#64, 0#64, 0#64, []⟩

/-- Each check refuses an ill-formed command. -/
theorem test_ill_formed_refused :
    ∀ c ∈ ([.registerRead h0 0#40 0, .feedMean 0 (2 ^ 32), .offStateCheckTick 0 [3, 3], .shedStep 0 [(2, 2 ^ 32)], .shedStep 0 [(2, 1), (2, 1)],
        .stationIn ⟨true, 0, 0#48⟩ (List.replicate 2101 0#8), .copyAEnd ⟨[], [], 0, .count⟩, .macRxFrame 0 [] .good (2 ^ 32), .canRxFrame 0 wideFrame 0#32 0 0,
        .referenceMessageRx [] 0#32, .amoW .debug .add 0#40 0#32, .wcall 0 shortCtx, .debugStep 0 (.plain (2 ^ 64)), .tillWrap [(5, 0), (5, 0)],
        .bootRomRun (.cut 4096) .whole .whole, .pcieConfigWrite 0 (.msixEntry 0 (2 ^ 64) 0 false),
        .memoryAccess h0 0#40 4 (.cas (2 ^ 64)) 0#64, .sampleMerge [⟨16, 0, 0#32, ⟨0, 0⟩⟩], .arbitrationGrant 0 [⟨0, 0, .debug, 0⟩],
        .markAnswer 0 (List.replicate 4097 0#8) 0#16] : List Instr), ¬c.WellFormed := by decide +kernel

/-- Commands of several families are well formed. -/
theorem test_well_formed :
    ∀ c ∈ ([.registerRead h0 0#40 4, .feedMean 0 5, .shedStep 0 [(2, 1), (3, 1)], .opAdd 0 .p 2 0 (.imm (-1)), .tillWrap [(5, 0), (6, 0)],
        .memoryAccess h0 0#40 4 (.cas 7) 0#64] : List Instr), c.WellFormed := by decide +kernel

end Sys2Proof.Tests
end

/-! SUPPORT. Register words field by field: what a fold over the fields of a register table leaves in each field, and so what a write, a read
and a reset leave (R7, R8, R11). -/

namespace Sys2Proof.Machine

/-! Numbers bit by bit -/

/-- Numbers with no common bit add up to their union. -/
theorem or_eq_add_of_and_eq_zero (a b : Nat) (h : a &&& b = 0) : a ||| b = a + b := by
  induction a using Nat.strongRecOn generalizing b with
  | ind a ih =>
    by_cases ha : a = 0
    · simp [ha]
    · have hhalf : (a / 2) &&& (b / 2) = 0 := by rw [← Nat.and_div_two, h]
      have hrec := ih (a / 2) (by omega) (b / 2) hhalf
      have hdiv : (a ||| b) / 2 = a / 2 ||| b / 2 := Nat.or_div_two
      have hor : (a ||| b) % 2 = 1 ↔ a % 2 = 1 ∨ b % 2 = 1 := Nat.or_mod_two_eq_one
      have hand : (a &&& b) % 2 = 1 ↔ a % 2 = 1 ∧ b % 2 = 1 := Nat.and_mod_two_eq_one
      rw [h] at hand
      omega

/-- The bits of `g` that `d` does not have are `g` less the bits they share. -/
theorem eq_sub_and_of_testBit (v g d : Nat) (h : ∀ k, v.testBit k = (g.testBit k && !d.testBit k)) : v = g - (g &&& d) := by
  have hdisj : v &&& (g &&& d) = 0 := Nat.eq_of_testBit_eq fun k => by
    simp only [Nat.testBit_and, h, Nat.zero_testBit]
    cases g.testBit k <;> cases d.testBit k <;> rfl
  have hunion : v ||| (g &&& d) = g := Nat.eq_of_testBit_eq fun k => by
    simp only [Nat.testBit_or, Nat.testBit_and, h]
    cases g.testBit k <;> cases d.testBit k <;> rfl
  have hsum := or_eq_add_of_and_eq_zero v (g &&& d) hdisj
  omega

/-! Fields of a word -/

theorem fieldGet_lt (w : Word) (hi lo : Nat) : fieldGet w hi lo < 2 ^ (hi + 1 - lo) := Nat.mod_lt _ (Nat.two_pow_pos _)

/-- A bit as a field of its own. -/
theorem getLsbD_eq_fieldGet (w : Word) (b : Nat) : w.getLsbD b = (fieldGet w b b).testBit 0 := by
  rw [testBit_fieldGet]; simp

@[simp] theorem fieldGet_zero (hi lo : Nat) : fieldGet 0#32 hi lo = 0 := by simp [fieldGet, bitsOf]

/-- A field written with the value it has is unchanged. -/
theorem fieldSet_self (w : Word) (hi lo v : Nat) (h : hi < 32) (hv : fieldGet w hi lo = v) : fieldSet w hi lo v = w := by
  refine BitVec.eq_of_getLsbD_eq fun k _ => ?_
  rw [getLsbD_fieldSet _ _ _ _ _ h, ← hv]
  split
  · next hk =>
    rw [testBit_fieldGet, Nat.add_sub_cancel' hk.1]
    simp [show k - lo < hi + 1 - lo by omega]
  · rfl

/-- The bits of a field that are 1 in `d` cleared (W1C). -/
theorem fieldGet_clear_same (w d : Word) (hi lo : Nat) (h : hi < 32) :
    fieldGet (w &&& ~~~(d &&& maskOf hi lo)) hi lo = fieldGet w hi lo - (fieldGet w hi lo &&& fieldGet d hi lo) := by
  refine eq_sub_and_of_testBit _ _ _ fun k => ?_
  simp only [testBit_fieldGet, BitVec.getLsbD_and, BitVec.getLsbD_not, getLsbD_maskOf _ _ _ h]
  by_cases hk : k < hi + 1 - lo
  · simp [hk, show lo + k ≤ hi by omega, show lo + k < 32 by omega]
  · simp [hk]

theorem fieldGet_clear_ne (w d : Word) (hi lo hi' lo' : Nat) (h : hi < 32) (hd : hi' < lo ∨ hi < lo') :
    fieldGet (w &&& ~~~(d &&& maskOf hi lo)) hi' lo' = fieldGet w hi' lo' := by
  refine Nat.eq_of_testBit_eq fun k => ?_
  simp only [testBit_fieldGet, BitVec.getLsbD_and, BitVec.getLsbD_not, getLsbD_maskOf _ _ _ h]
  by_cases hk : k < hi' + 1 - lo'
  · have hout : ¬(lo ≤ lo' + k ∧ lo' + k ≤ hi) := by omega
    rcases Nat.lt_or_ge (lo' + k) 32 with h32 | h32
    · have hm : (decide (lo ≤ lo' + k) && decide (lo' + k ≤ hi)) = false := by simpa using hout
      rw [hm]
      simp [h32]
    · simp [BitVec.getLsbD_of_ge w _ h32]
  · simp [hk]

/-- The bits of a field that are 1 in `d` set (W1S). -/
theorem fieldGet_raise_same (w d : Word) (hi lo : Nat) (h : hi < 32) :
    fieldGet (w ||| (d &&& maskOf hi lo)) hi lo = fieldGet w hi lo ||| fieldGet d hi lo := by
  refine Nat.eq_of_testBit_eq fun k => ?_
  simp only [Nat.testBit_or, testBit_fieldGet, BitVec.getLsbD_and, BitVec.getLsbD_or, getLsbD_maskOf _ _ _ h]
  by_cases hk : k < hi + 1 - lo
  · simp [hk, show lo + k ≤ hi by omega]
  · simp [hk]

theorem fieldGet_raise_ne (w d : Word) (hi lo hi' lo' : Nat) (h : hi < 32) (hd : hi' < lo ∨ hi < lo') :
    fieldGet (w ||| (d &&& maskOf hi lo)) hi' lo' = fieldGet w hi' lo' := by
  refine Nat.eq_of_testBit_eq fun k => ?_
  simp only [testBit_fieldGet, BitVec.getLsbD_and, BitVec.getLsbD_or, getLsbD_maskOf _ _ _ h]
  by_cases hk : k < hi' + 1 - lo'
  · have hout : ¬(lo ≤ lo' + k ∧ lo' + k ≤ hi) := by omega
    have hm : (decide (lo ≤ lo' + k) && decide (lo' + k ≤ hi)) = false := by simpa using hout
    rw [hm]
    simp
  · simp [hk]

/-! Folds over the fields of a register -/

/-- Two fields of one register have no common bit. -/
def FieldDef.apart (f g : FieldDef) : Bool := decide (f.hi < g.lo) || decide (g.hi < f.lo)

/-- The fields of a table lie within the word and apart from each other, and hold their reset values. -/
def fieldsOk : List FieldDef → Bool
  | [] => true
  | f :: l => decide (f.hi < 32) && decide (f.rst < 2 ^ (f.hi + 1 - f.lo)) && l.all f.apart && fieldsOk l

theorem regTable_fieldsOk : regTable.all (fun r => fieldsOk (regDef r).fields) = true := by decide +kernel

/-- Every register table of the spec is in order. -/
theorem regDef_fieldsOk (r : RegId) : fieldsOk (regDef r).fields = true := List.all_eq_true.1 regTable_fieldsOk r (mem_regTable r)

theorem fieldsOk_cons (f : FieldDef) (l : List FieldDef) (h : fieldsOk (f :: l) = true) :
    f.hi < 32 ∧ f.rst < 2 ^ (f.hi + 1 - f.lo) ∧ (∀ g ∈ l, f.hi < g.lo ∨ g.hi < f.lo) ∧ fieldsOk l = true := by
  simpa [fieldsOk, FieldDef.apart, and_assoc] using h

theorem fieldsOk_mem (l : List FieldDef) (h : fieldsOk l = true) (f : FieldDef) (hf : f ∈ l) :
    f.hi < 32 ∧ f.rst < 2 ^ (f.hi + 1 - f.lo) := by
  induction l with
  | nil => cases hf
  | cons g l ih =>
    obtain ⟨hhi, hrst, _, hl⟩ := fieldsOk_cons g l h
    rcases List.mem_cons.1 hf with rfl | hf
    · exact ⟨hhi, hrst⟩
    · exact ih hl hf

/-- An update of one field of a word: it leaves every field apart from its own, and its own value changes by `φ`. -/
structure FieldUpdate (st : Word → FieldDef → Word) (φ : FieldDef → Nat → Nat) : Prop where
  other : ∀ (w : Word) (f : FieldDef) (hi lo : Nat), f.hi < 32 → hi < f.lo ∨ f.hi < lo → fieldGet (st w f) hi lo = fieldGet w hi lo
  own : ∀ (w : Word) (f : FieldDef), f.hi < 32 → f.rst < 2 ^ (f.hi + 1 - f.lo) → fieldGet (st w f) f.hi f.lo = φ f (fieldGet w f.hi f.lo)

/-- A fold of updates leaves the bits outside its fields. -/
theorem FieldUpdate.fold_other {st : Word → FieldDef → Word} {φ : FieldDef → Nat → Nat} (hst : FieldUpdate st φ) (l : List FieldDef)
    (hl : fieldsOk l = true) (w : Word) (hi lo : Nat) (h : ∀ g ∈ l, hi < g.lo ∨ g.hi < lo) :
    fieldGet (l.foldl st w) hi lo = fieldGet w hi lo := by
  induction l generalizing w with
  | nil => rfl
  | cons g l ih =>
    obtain ⟨hhi, _, _, hl⟩ := fieldsOk_cons g l hl
    rw [List.foldl_cons, ih hl _ fun f hf => h f (List.mem_cons_of_mem _ hf), hst.other _ _ _ _ hhi (h g List.mem_cons_self)]

/-- A fold of updates changes each field by its own update alone. -/
theorem FieldUpdate.fold_own {st : Word → FieldDef → Word} {φ : FieldDef → Nat → Nat} (hst : FieldUpdate st φ) (l : List FieldDef)
    (hl : fieldsOk l = true) (w : Word) (f : FieldDef) (hf : f ∈ l) :
    fieldGet (l.foldl st w) f.hi f.lo = φ f (fieldGet w f.hi f.lo) := by
  induction l generalizing w with
  | nil => cases hf
  | cons g l ih =>
    obtain ⟨hhi, hrst, hapart, hl'⟩ := fieldsOk_cons g l hl
    rw [List.foldl_cons]
    rcases List.mem_cons.1 hf with rfl | hf
    · rw [hst.fold_other l hl' _ _ _ hapart, hst.own _ _ hhi hrst]
    · rw [ih hl' _ hf, hst.other _ _ _ _ hhi (hapart f hf).symm]

/-- Writing a value into the fields that `P` selects. -/
theorem fieldUpdate_set (P : FieldDef → Prop) [DecidablePred P] (v : FieldDef → Nat)
    (hv : ∀ f, P f → f.rst < 2 ^ (f.hi + 1 - f.lo) → v f < 2 ^ (f.hi + 1 - f.lo)) :
    FieldUpdate (fun w f => if P f then fieldSet w f.hi f.lo (v f) else w) (fun f x => if P f then v f else x) where
  other w f hi lo hhi h := by
    split
    · exact fieldGet_fieldSet_ne _ _ _ _ _ _ hhi h
    · rfl
  own w f hhi hrst := by
    split
    · next hp => rw [fieldGet_fieldSet_same _ _ _ _ hhi, Nat.mod_eq_of_lt (hv f hp hrst)]
    · rfl

/-! The register file's words: reset values, reads, writes -/

/-- A field of the reset word holds its reset value. -/
theorem fieldGet_resetWord (r : RegId) (f : FieldDef) (hf : f ∈ (regDef r).fields) : fieldGet (resetWord r) f.hi f.lo = f.rst := by
  have hst := fieldUpdate_set (fun _ => True) (·.rst) fun _ _ h => h
  simpa [resetWord] using hst.fold_own _ (regDef_fieldsOk r) 0#32 f hf

/-- What a read sees of a field (R8). -/
theorem fieldGet_readable (r : RegId) (w : Word) (f : FieldDef) (hf : f ∈ (regDef r).fields) :
    fieldGet (readable r w) f.hi f.lo = if f.acc = .wo then 0 else fieldGet w f.hi f.lo := by
  have hst := fieldUpdate_set (fun f => f.acc ≠ .wo) (fun f => fieldGet w f.hi f.lo) fun f _ _ => fieldGet_lt w f.hi f.lo
  simpa [readable] using hst.fold_own _ (regDef_fieldsOk r) 0#32 f hf

/-- A reserved bit reads zero (R7). -/
theorem getLsbD_readable_reserved (r : RegId) (w : Word) (b : Nat) (hb : ∀ g ∈ (regDef r).fields, b < g.lo ∨ g.hi < b) :
    (readable r w).getLsbD b = false := by
  have hst := fieldUpdate_set (fun f => f.acc ≠ .wo) (fun f => fieldGet w f.hi f.lo) fun f _ _ => fieldGet_lt w f.hi f.lo
  have hbit : fieldGet (readable r w) b b = 0 := by
    simpa [readable] using hst.fold_other _ (regDef_fieldsOk r) 0#32 b b hb
  rw [getLsbD_eq_fieldGet, hbit, Nat.zero_testBit]

/-- What a read leaves of a field (R8). -/
theorem fieldGet_afterRead (r : RegId) (w : Word) (f : FieldDef) (hf : f ∈ (regDef r).fields) :
    fieldGet (afterRead r w) f.hi f.lo = if f.acc = .rc then 0 else fieldGet w f.hi f.lo :=
  (fieldUpdate_set (fun f => f.acc = .rc) (fun _ => 0) fun _ _ _ => Nat.two_pow_pos _).fold_own _ (regDef_fieldsOk r) w f hf

/-- What a write of data leaves of a field that held `x`, when its bits of the data are `d` (R8). -/
def Acc.written (a : Acc) (x d : Nat) : Nat :=
  match a with
  | .rw => d
  | .w1c => x - (x &&& d)
  | .w1s => x ||| d
  | .ro => x
  | .wo => x
  | .rc => x

/-- One field of a register written by its access code. -/
def writeField (data w : Word) (f : FieldDef) : Word :=
  match f.acc with
  | .rw => fieldSet w f.hi f.lo (fieldGet data f.hi f.lo)
  | .w1c => w &&& ~~~ (data &&& maskOf f.hi f.lo)
  | .w1s => w ||| (data &&& maskOf f.hi f.lo)
  | .ro => w
  | .wo => w
  | .rc => w

theorem fieldUpdate_writeField (data : Word) :
    FieldUpdate (writeField data) (fun f x => f.acc.written x (fieldGet data f.hi f.lo)) where
  other w f hi lo hhi h := by
    unfold writeField
    split
    · exact fieldGet_fieldSet_ne _ _ _ _ _ _ hhi h
    · exact fieldGet_clear_ne _ _ _ _ _ _ hhi h
    · exact fieldGet_raise_ne _ _ _ _ _ _ hhi h
    all_goals rfl
  own w f hhi _ := by
    unfold writeField Acc.written
    split
    · rw [fieldGet_fieldSet_same _ _ _ _ hhi, Nat.mod_eq_of_lt (fieldGet_lt _ _ _)]
    · exact fieldGet_clear_same _ _ _ _ hhi
    · exact fieldGet_raise_same _ _ _ _ hhi
    all_goals rfl

theorem fieldGet_afterWrite (r : RegId) (old data : Word) (f : FieldDef) (hf : f ∈ (regDef r).fields) :
    fieldGet (afterWrite r old data) f.hi f.lo = f.acc.written (fieldGet old f.hi f.lo) (fieldGet data f.hi f.lo) :=
  (fieldUpdate_writeField data).fold_own _ (regDef_fieldsOk r) old f hf

/-- A plain write of a register changes each of its fields by its access code (R8). -/
theorem State.get_store_same (s : State) (r : RegId) (w i j cp : Nat) (f : FieldDef) (hf : f ∈ (regDef r).fields) :
    (s.store r w i j cp).get ⟨r, f.hi, f.lo⟩ i j cp =
      f.acc.written (s.get ⟨r, f.hi, f.lo⟩ i j cp) (fieldGet (BitVec.ofNat 32 w) f.hi f.lo) := by
  unfold State.get State.store
  rw [regGet_put_same, fieldGet_afterWrite _ _ _ _ hf]

/-- A plain write of a register position leaves every other position. -/
theorem State.get_store_key (s : State) (r : RegId) (w i j cp : Nat) (y : Fld) (i' j' cp' : Nat)
    (h : keyOf y.reg cp' i' j' ≠ keyOf r cp i j) : (s.store r w i j cp).get y i' j' cp' = s.get y i' j' cp' := by
  unfold State.get State.store
  rw [regGet_put_key _ _ _ _ _ _ _ _ _ _ h]

/-- Settles O4: the fold over the register's fields changes each one by its own access code. -/
theorem registerFieldsFollowTheirAccessCodes : Obligations.RegisterFieldsFollowTheirAccessCodes := by
  unfold Obligations.RegisterFieldsFollowTheirAccessCodes
  intro s r w i j cp f hf
  refine ⟨(State.get_store_same s r w i j cp f hf).trans ?_, fun v => fieldGet_readable r v f hf, fun v => fieldGet_afterRead r v f hf,
    fun v b hb => getLsbD_readable_reserved r v b hb, fun y i2 j2 cp2 h => State.get_store_key s r w i j cp y i2 j2 cp2 h⟩
  unfold Acc.written
  cases f.acc <;> rfl

end Sys2Proof.Machine

/-! SUPPORT. What a POR or SYS does, stage by stage (R10, R11, R55 to R58): the registers and the units each stage leaves. -/

namespace Sys2Proof.Machine

/-! The clearing of registers (R11) -/

/-- A rewrite that fixes a key's default rewrites what the key reads. -/
theorem storeGet_map {α : Type} [DecidableEq α] (d : Nat → α) (f : Nat → α → α) (l : Store α) (k : Nat) (hfix : f k (d k) = d k) :
    storeGet (d k) (storeMap d f l) k = f k (storeGet (d k) l k) := by
  induction l with
  | nil => exact hfix.symm
  | cons p l ih =>
    obtain ⟨k', v⟩ := p
    rw [storeMap, storeGet]
    by_cases hk : k' = k
    · subst hk
      rw [if_pos rfl]
      split
      · next hd => rw [storeGet_erase_same, hd]
      · rw [storeGet, if_pos rfl]
    · rw [if_neg hk]
      split
      · rw [storeGet_erase_ne _ _ _ _ (Ne.symm hk), ih]
      · rw [storeGet, if_neg hk, ih]

theorem regOfKey_keyOf (r : RegId) (cp i j : Nat) : regOfKey (keyOf r cp i j) = r := by
  have hk : keyOf r cp i j / 8388608 = r.ctorIdx := by unfold keyOf; omega
  rw [regOfKey, hk, List.getD_eq_getElem?_getD, regTable_get, Option.getD_some]

/-- The reset word keeps its value when some of its fields are reset. -/
theorem resetFields_resetWord (p : FieldDef → Bool) (r : RegId) : resetFields p r (resetWord r) = resetWord r := by
  unfold resetFields
  refine List.foldlRecOn (motive := (· = resetWord r)) _ _ rfl fun w hw f hf => ?_
  subst hw
  obtain ⟨hhi, _⟩ := fieldsOk_mem _ (regDef_fieldsOk r) f hf
  split
  · exact fieldSet_self _ _ _ _ hhi (fieldGet_resetWord r f hf)
  · rfl

/-- A reset of fields resets those of each position. -/
theorem regGet_resetBy (p : RegId → Nat → Nat → FieldDef → Bool) (l : RegFile) (r : RegId) (i j cp : Nat) :
    regGet (regResetBy p l) r i j cp =
      resetFields (p r (cpOfKey (keyOf r cp i j)) (idxOfKey (keyOf r cp i j))) r (regGet l r i j cp) := by
  have hd : keyReset (keyOf r cp i j) = resetWord r := by rw [keyReset, regOfKey_keyOf]
  have hmap := storeGet_map keyReset (fun k w => resetFields (p (regOfKey k) (cpOfKey k) (idxOfKey k)) (regOfKey k) w) l
    (keyOf r cp i j) (by rw [regOfKey_keyOf, hd, resetFields_resetWord])
  rwa [hd, regOfKey_keyOf] at hmap

/-- A field that is reset takes its reset value, and another keeps its own. -/
theorem fieldGet_resetFields (p : FieldDef → Bool) (r : RegId) (w : Word) (f : FieldDef) (hf : f ∈ (regDef r).fields) :
    fieldGet (resetFields p r w) f.hi f.lo = if p f = true then f.rst else fieldGet w f.hi f.lo :=
  (fieldUpdate_set (fun f => p f = true) (·.rst) fun _ _ h => h).fold_own _ (regDef_fieldsOk r) w f hf

/-! Channels, whose operations write the windows LCH and REC -/

section channels
variable (s : State) (y : Fld) (i j cp : Nat) (hl : (regDef y.reg).win ≠ .lch) (hr : (regDef y.reg).win ≠ .recw)
include hl

theorem State.put_lch_get (s : State) (x : Fld) (v a b c : Nat) (hx : (regDef x.reg).win = .lch) :
    (s.put x v a b c).get y i j cp = s.get y i j cp :=
  State.get_put_reg _ _ _ _ _ _ _ _ _ _ (ctorIdx_win _ _ (hx ▸ hl))

include hr

/-- A flag that is no trip raises no line of the Mitre unit. -/
theorem State.setFlag_get_window (c b : Nat) (hb : ¬(b = Flag.ocTrip ∨ b = Flag.wireTrip ∨ b = Flag.tempLatch)) :
    (s.setFlag c b).get y i j cp = s.get y i j cp := by
  unfold State.setFlag
  dsimp only
  split
  · rfl
  · exact (State.raise_get _ _ _ _ _ _ _ _ _ _ _ _ _ hr (ctorIdx_win _ RegId.LCH_EVENTS hl)).trans (State.put_lch_get y i j cp hl _ _ _ _ _ _ rfl)

theorem State.turnOn_get_window (c : Nat) : (s.turnOn c).get y i j cp = s.get y i j cp := by
  have hput : ∀ (t : State) (x : Fld) (v : Nat), (regDef x.reg).win = .lch → (t.put x v c).get y i j cp = t.get y i j cp :=
    fun t x v hx => State.put_lch_get y i j cp hl t x v c 0 0 hx
  have hon : ∀ t : State, (t.setFlag c Flag.onState).get y i j cp = t.get y i j cp :=
    fun t => State.setFlag_get_window t y i j cp hl hr c _ (by decide)
  unfold State.turnOn State.free
  dsimp only
  split
  · rw [State.putLc_get, hput _ _ _ rfl]
  · split
    · rw [State.trace_get _ _ _ _ _ _ _ _ _ _ hr, hput _ _ _ rfl, hon, State.putLc_get]
      exact hput _ _ _ rfl
    · rw [hput _ _ _ rfl, hon, State.putLc_get]
      exact hput _ _ _ rfl

theorem State.applyCmd_get_window (c cmd : Nat) (fast : Bool) : (s.applyCmd c cmd fast).get y i j cp = s.get y i j cp := by
  have hput : ∀ (t : State) (x : Fld) (v : Nat), (regDef x.reg).win = .lch → (t.put x v c).get y i j cp = t.get y i j cp :=
    fun t x v hx => State.put_lch_get y i j cp hl t x v c 0 0 hx
  unfold State.applyCmd
  dsimp only
  split
  · split
    · split
      · exact State.putLc_get ..
      · rfl
    · exact State.turnOn_get_window s y i j cp hl hr c
  · split
    · split
      · exact State.offDone_get _ _ _ _ _ _ (ctorIdx_win _ _ hl) (ctorIdx_win _ _ hl)
      · split
        · rfl
        · exact State.putLc_get ..
    · split
      · rw [State.putLc_get, hput _ _ _ rfl]
      · exact hput _ _ _ rfl

/-- What resolving a channel leaves. -/
theorem State.resolve_get_window (c : Nat) : (s.resolve c).get y i j cp = s.get y i j cp := by
  unfold State.resolve
  split
  · rfl
  · dsimp only
    rw [State.applyCmd_get_window _ y i j cp hl hr, State.put_lch_get y i j cp hl _ _ _ _ _ _ rfl]

theorem State.holdBegin_get (by_ c : Nat) : (s.holdBegin by_ c).get y i j cp = s.get y i j cp := by
  have hexp : ∀ t : State, (t.put F.LCH_PROT_HOLD_EXPIRED 0 c).get y i j cp = t.get y i j cp :=
    fun t => State.put_lch_get y i j cp hl t _ _ _ _ _ rfl
  unfold State.holdBegin
  dsimp only
  split
  · split
    · rw [State.resolve_get_window _ y i j cp hl hr, State.putLc_get, hexp]
    · split <;> exact State.putLc_get ..
  · rw [State.resolve_get_window _ y i j cp hl hr, State.setFlag_get_window _ y i j cp hl hr _ _ (by decide), State.putLc_get, hexp]

theorem State.sleepLift_get (c : Nat) : (s.sleepLift c).get y i j cp = s.get y i j cp := by
  unfold State.sleepLift
  split
  · rw [State.resolve_get_window _ y i j cp hl hr, State.putLc_get]
  · rfl

end channels

/-! The stages of a reset -/

/-- Channels whose die stands begin a hold at a SYS (R130). -/
def State.resetHolds (s : State) (por : Bool) : State :=
  if por then s else s.each (s.chans.filter fun c => !s.dieLost (bankOf c)) fun s c => s.holdBegin 2 c

/-- Which Cleared by entries a reset clears (R11). -/
def Clr.onReset (c : Clr) (por : Bool) : Bool := if por then c.onPor else c.onSys

/-- The fields that a reset clears take their reset values (R11). -/
def State.regsCleared (s : State) (por : Bool) : State := { s with regs := regResetBy (fun _ _ _ f => f.clr.onReset por) s.regs }

/-- A POR resets the power-stage dies; over a SYS a channel's source starts at 0 and sleep is lifted. -/
def State.diesRestart (s : State) (por : Bool) : State :=
  if por then s.porUnits else (s.each s.chans fun s c => s.put F.LCH_STATE_SRC_VAL 0 c).each s.chans State.sleepLift

/-- Volatile slots go, the Clamp network shows its rules, and VLOG is valid. -/
def State.networkShown (s : State) : State := (s.volatileLost.ruleResults).ruleConditions.put F.FAB_PWR_STATUS_VLOG_OK 1

/-- Changes that waited end ABORTED. -/
def State.waitsAborted (s : State) (l : List Nat) : State := s.each l fun s cp => s.put F.LTH_CHG_STATUS_RESULT 8 0 0 cp

/-- A reset up to the clearing of registers. -/
def State.untilCleared (s : State) (por : Bool) (cause : Nat) : State := ((s.resetSaves cause).resetHolds por).sysUnits

/-- A reset from the clearing of registers on, but for the state of the start. -/
def State.afterCleared (s : State) (por : Bool) (waits : List Nat) : State := ((s.regsCleared por).diesRestart por).networkShown.waitsAborted waits

/-- A reset is its stages, and begins a start of its kind and cause. -/
theorem State.doReset_stages (s : State) (por : Bool) (cause flush : Nat) :
    ∃ x : StartSt, s.doReset por cause flush =
        { (s.untilCleared por cause).afterCleared por (s.resetSaves cause).lth.waiting with start := x } ∧
      x.phase = Ph.began ∧ x.cause = cause ∧ x.por = por ∧ x.flush = flush := ⟨_, rfl, rfl, rfl, rfl, rfl⟩

/-! The registers each stage leaves -/

section registers
variable (s : State) (y : Fld) (i j cp : Nat)

theorem State.resetSaves_get (cause : Nat) (h : (regDef y.reg).win ≠ .lth) : (s.resetSaves cause).get y i j cp = s.get y i j cp := by
  have hret : s.retSave.get y i j cp = s.get y i j cp := by
    unfold State.retSave State.retCommit
    split
    · exact State.get_put_reg _ _ _ _ _ _ _ _ _ _ (ctorIdx_win _ _ h)
    · rfl
  have halarm : ∀ t : State, t.alarmSave.get y i j cp = t.get y i j cp := fun t => State.get_congr _ _ rfl _ _ _ _
  unfold State.resetSaves
  split
  · rw [halarm]
    split
    · exact hret
    · exact (State.get_congr _ _ rfl _ _ _ _).trans hret
  · rfl

theorem State.resetHolds_get (por : Bool) (hl : (regDef y.reg).win ≠ .lch) (hr : (regDef y.reg).win ≠ .recw) :
    (s.resetHolds por).get y i j cp = s.get y i j cp := by
  unfold State.resetHolds
  split
  · rfl
  · exact State.each_inv (·.get y i j cp) _ _ _ fun t c => State.holdBegin_get t y i j cp hl hr 2 c

/-- Until the clearing, registers outside the windows of channels, the recorder and the Lathe are left. -/
theorem State.untilCleared_get (por : Bool) (cause : Nat) (hl : (regDef y.reg).win ≠ .lch) (hr : (regDef y.reg).win ≠ .recw)
    (ht : (regDef y.reg).win ≠ .lth) : (s.untilCleared por cause).get y i j cp = s.get y i j cp :=
  (State.get_congr _ _ rfl _ _ _ _).trans
    ((State.resetHolds_get _ y i j cp por hl hr).trans (State.resetSaves_get s y i j cp cause ht))

/-- The clearing gives the fields it clears their reset values, and leaves the others (R11). -/
theorem State.regsCleared_get (por : Bool) (r : RegId) (f : FieldDef) (hf : f ∈ (regDef r).fields) :
    (s.regsCleared por).get ⟨r, f.hi, f.lo⟩ i j cp =
      if f.clr.onReset por = true then f.rst else s.get ⟨r, f.hi, f.lo⟩ i j cp := by
  unfold State.get State.regsCleared
  rw [regGet_resetBy, fieldGet_resetFields _ _ _ _ hf]

theorem State.diesRestart_get (por : Bool) (hl : (regDef y.reg).win ≠ .lch) (hr : (regDef y.reg).win ≠ .recw) :
    (s.diesRestart por).get y i j cp = s.get y i j cp := by
  unfold State.diesRestart
  split
  · exact State.get_congr _ _ rfl _ _ _ _
  · rw [State.each_inv (·.get y i j cp) _ _ _ fun t c => State.sleepLift_get t y i j cp hl hr c,
      State.each_inv (·.get y i j cp) _ _ _ fun t c => State.put_lch_get y i j cp hl t _ _ _ _ _ rfl]

/-- The loss of volatile slots unbinds the associations that use them, and writes no other register. -/
theorem State.volatileLost_get (h : (regDef y.reg).win ≠ .ept) : s.volatileLost.get y i j cp = s.get y i j cp := by
  have hunbind : ∀ (t : State) (k : Nat), (t.saUnbind k).get y i j cp = t.get y i j cp := fun t k =>
    State.each_inv (·.get y i j cp) _ _ _ fun u n => by
      dsimp only
      split
      · exact State.get_put_reg _ _ _ _ _ _ _ _ _ _ (ctorIdx_win _ _ h)
      · rfl
  exact State.each_inv (·.get y i j cp) _ _ _ fun t k => (hunbind (t.putTil k SlotSt.empty) k).trans (State.get_congr _ _ rfl _ _ _ _)

theorem State.networkShown_get (he : (regDef y.reg).win ≠ .ept) (hc : (regDef y.reg).win ≠ .clp) (hp : y.reg ≠ .FAB_PWR_STATUS) :
    s.networkShown.get y i j cp = s.get y i j cp := by
  have hshow : ∀ t : State, t.ruleConditions.get y i j cp = t.get y i j cp := fun t => by
    unfold State.ruleConditions
    split
    · rfl
    · exact State.each_inv (·.get y i j cp) _ _ _ fun u r => State.get_put_reg _ _ _ _ _ _ _ _ _ _ (ctorIdx_win _ _ hc)
  have hres : ∀ t : State, t.ruleResults.get y i j cp = t.get y i j cp := fun t =>
    State.each_inv (·.get y i j cp) _ _ _ fun u r => State.get_put_reg _ _ _ _ _ _ _ _ _ _ (ctorIdx_win _ _ hc)
  unfold State.networkShown
  rw [State.get_put_reg _ _ _ _ _ _ _ _ _ _ fun e => hp (ctorIdx_inj _ _ e), hshow, hres, State.volatileLost_get _ y i j cp he]

theorem State.waitsAborted_get (l : List Nat) (h : y.reg ≠ .LTH_CHG_STATUS) : (s.waitsAborted l).get y i j cp = s.get y i j cp :=
  State.each_inv (·.get y i j cp) _ _ _ fun _ _ => State.get_put_reg _ _ _ _ _ _ _ _ _ _ fun e => h (ctorIdx_inj _ _ e)

/-- From the clearing on, registers outside the windows whose units act during a reset are left. -/
theorem State.afterCleared_get (por : Bool) (l : List Nat) (hl : (regDef y.reg).win ≠ .lch) (hr : (regDef y.reg).win ≠ .recw)
    (he : (regDef y.reg).win ≠ .ept) (hc : (regDef y.reg).win ≠ .clp) (hp : y.reg ≠ .FAB_PWR_STATUS) (hg : y.reg ≠ .LTH_CHG_STATUS) :
    (s.afterCleared por l).get y i j cp = (s.regsCleared por).get y i j cp := by
  unfold State.afterCleared
  rw [State.waitsAborted_get _ y i j cp l hg, State.networkShown_get _ y i j cp he hc hp, State.diesRestart_get _ y i j cp por hl hr]

end registers

/-- What a reset leaves of a field outside the windows whose units act after the clearing (R11). -/
theorem State.doReset_get (s : State) (por : Bool) (cause flush : Nat) (r : RegId) (f : FieldDef) (i j cp : Nat) (hf : f ∈ (regDef r).fields)
    (hw : (regDef r).win ∉ [Win.lch, .clp, .til, .ept, .recw]) (hp : r ≠ .FAB_PWR_STATUS) (hg : r ≠ .LTH_CHG_STATUS) :
    (s.doReset por cause flush).get ⟨r, f.hi, f.lo⟩ i j cp =
      if f.clr.onReset por = true then f.rst else (s.untilCleared por cause).get ⟨r, f.hi, f.lo⟩ i j cp := by
  simp only [List.mem_cons, List.not_mem_nil, or_false, not_or] at hw
  obtain ⟨hl, hc, _, he, hr⟩ := hw
  obtain ⟨x, hx, _⟩ := State.doReset_stages s por cause flush
  rw [← State.regsCleared_get _ _ _ _ _ _ _ hf, hx, ← State.afterCleared_get _ ⟨r, f.hi, f.lo⟩ i j cp por
    (s.resetSaves cause).lth.waiting hl hr he hc hp hg]
  rfl

/-! The units each stage leaves -/

/-- What the compute die's units hold beside registers, with the image and what was sent: what only the reset of the units changes. -/
def State.unitView (s : State) :=
  (s.img, s.pins, s.ring, s.can, s.port, s.hart, s.dvt, s.dwl, s.til.queue, s.til.busy, s.ztm, s.fab, s.emitted)

section units
variable (s : State)

theorem State.put_unitView (x : Fld) (v i j cp : Nat) : (s.put x v i j cp).unitView = s.unitView := rfl

theorem State.putLc_unitView (c : Nat) (x : LoadCh) : (s.putLc c x).unitView = s.unitView := rfl

theorem State.setFlag_unitView (c b : Nat) : (s.setFlag c b).unitView = s.unitView := by simp [State.unitView]

theorem State.resolve_unitView (c : Nat) : (s.resolve c).unitView = s.unitView := by simp [State.unitView]

theorem State.holdBegin_unitView (by_ c : Nat) : (s.holdBegin by_ c).unitView = s.unitView := by
  unfold State.holdBegin
  dsimp only
  split
  · split
    · rw [State.resolve_unitView, State.putLc_unitView, State.put_unitView]
    · split <;> rfl
  · rw [State.resolve_unitView, State.setFlag_unitView, State.putLc_unitView, State.put_unitView]

theorem State.sleepLift_unitView (c : Nat) : (s.sleepLift c).unitView = s.unitView := by
  unfold State.sleepLift
  split
  · rw [State.resolve_unitView, State.putLc_unitView]
  · rfl

theorem State.retSave_unitView : s.retSave.unitView = s.unitView := by
  unfold State.retSave
  split <;> rfl

theorem State.alarmSave_unitView : s.alarmSave.unitView = s.unitView := rfl

theorem State.recRestore_unitView : s.recRestore.unitView = s.unitView := rfl

theorem State.resetSaves_unitView (cause : Nat) : (s.resetSaves cause).unitView = s.unitView := by
  unfold State.resetSaves
  split
  · rw [State.alarmSave_unitView]
    split
    · exact s.retSave_unitView
    · rw [State.recRestore_unitView, State.retSave_unitView]
  · rfl

theorem State.resetHolds_unitView (por : Bool) : (s.resetHolds por).unitView = s.unitView := by
  unfold State.resetHolds
  split
  · rfl
  · exact State.each_inv State.unitView _ _ _ fun t c => t.holdBegin_unitView 2 c

/-- The reset of the units leaves them empty, and the image and what was sent as they are (R10, R58). -/
theorem State.untilCleared_unitView (por : Bool) (cause : Nat) : (s.untilCleared por cause).unitView =
    (s.img, [], [], [], [], [], DvtSt.rst, DwlSt.rst, [], none, ⟨0, 0, 0, 0, 0, none, none, none, none⟩, ⟨[], [], [], [], []⟩, s.emitted) := by
  have hkept : ((s.resetSaves cause).resetHolds por).unitView = s.unitView := by
    rw [State.resetHolds_unitView, State.resetSaves_unitView]
  simp only [State.unitView, Prod.mk.injEq] at hkept
  obtain ⟨himg, _, _, _, _, _, _, _, _, _, _, _, hemitted⟩ := hkept
  rw [← himg, ← hemitted]
  rfl

theorem State.volatileLost_unitView : s.volatileLost.unitView = s.unitView := by
  have hunbind : ∀ (t : State) (k : Nat), (t.saUnbind k).unitView = t.unitView := fun t k =>
    State.each_inv State.unitView _ _ _ fun u n => by
      dsimp only
      split <;> rfl
  exact State.each_inv State.unitView _ _ _ fun t k => hunbind (t.putTil k SlotSt.empty) k

theorem State.networkShown_unitView : s.networkShown.unitView = s.unitView := by
  have hshow : ∀ t : State, t.ruleConditions.unitView = t.unitView := fun t => by
    unfold State.ruleConditions
    split
    · rfl
    · exact State.each_inv State.unitView _ _ _ fun _ _ => rfl
  have hres : ∀ t : State, t.ruleResults.unitView = t.unitView := fun t => State.each_inv State.unitView _ _ _ fun _ _ => rfl
  unfold State.networkShown
  rw [State.put_unitView, hshow, hres, State.volatileLost_unitView]

theorem State.diesRestart_unitView (por : Bool) :
    (s.diesRestart por).unitView = (if por then none else s.img, s.unitView.2) := by
  unfold State.diesRestart
  cases por with
  | true => rfl
  | false =>
    exact (State.each_inv State.unitView _ _ _ fun t c => t.sleepLift_unitView c).trans
      (State.each_inv State.unitView _ _ _ fun _ _ => rfl)

/-- From the clearing on, only a POR changes what the view shows: no image is in force (R16). -/
theorem State.afterCleared_unitView (por : Bool) (l : List Nat) :
    (s.afterCleared por l).unitView = (if por then none else s.img, s.unitView.2) := by
  have hwaits : ∀ t : State, (t.waitsAborted l).unitView = t.unitView := fun t => State.each_inv State.unitView _ _ _ fun _ _ => rfl
  unfold State.afterCleared
  rw [hwaits, State.networkShown_unitView, State.diesRestart_unitView]
  rfl

end units

/-- What a reset leaves of the units: nothing; the image goes with a POR alone (R10, R16, R58). -/
theorem State.doReset_unitView (s : State) (por : Bool) (cause flush : Nat) : (s.doReset por cause flush).unitView =
    (if por then none else s.img, [], [], [], [], [], DvtSt.rst, DwlSt.rst, [], none, ⟨0, 0, 0, 0, 0, none, none, none, none⟩,
      ⟨[], [], [], [], []⟩, s.emitted) := by
  obtain ⟨x, hx, _⟩ := State.doReset_stages s por cause flush
  have hu := s.untilCleared_unitView por cause
  have himg : (s.untilCleared por cause).img = s.img := congrArg Prod.fst hu
  rw [hx]
  refine ((s.untilCleared por cause).afterCleared_unitView por _).trans ?_
  rw [hu, himg]

/-! Memory over a reset -/

/-- Entries left out of a store are those of the keys left out. -/
theorem storeGet_filter {α : Type} (d : α) (l : Store α) (p : Nat → Bool) (k : Nat) (hk : p k = true) :
    storeGet d (l.filter fun c => p c.1) k = storeGet d l k := by
  induction l with
  | nil => rfl
  | cons q l ih =>
    obtain ⟨k', v⟩ := q
    by_cases hp : p k' = true
    · rw [List.filter_cons_of_pos (by exact hp), storeGet, storeGet, ih]
    · rw [List.filter_cons_of_neg (by exact hp), ih, storeGet, if_neg fun e : k' = k => hp (e ▸ hk)]

theorem State.resetHolds_mem (s : State) (por : Bool) : (s.resetHolds por).mem = s.mem := by unfold State.resetHolds; simp

theorem State.diesRestart_mem (s : State) (por : Bool) : (s.diesRestart por).mem = s.mem := by
  unfold State.diesRestart
  split
  · rfl
  · simp

theorem State.afterCleared_mem (s : State) (por : Bool) (l : List Nat) : (s.afterCleared por l).mem = s.mem := by
  unfold State.afterCleared State.waitsAborted State.networkShown
  simp only [State.each_mem, State.put_mem, State.ruleConditions_mem, State.ruleResults_mem, State.volatileLost_mem, State.diesRestart_mem,
    State.regsCleared, implies_true]

/-- A reset forgets SRAM and DRAM, and no other memory (R10). -/
theorem State.doReset_mem (s : State) (por : Bool) (cause flush : Nat) :
    (s.doReset por cause flush).mem = s.mem.filter fun c => !(isSram c.1 || isDram c.1) := by
  obtain ⟨x, hx, _⟩ := State.doReset_stages s por cause flush
  have hkept : ((s.resetSaves cause).resetHolds por).mem = s.mem := by rw [State.resetHolds_mem, State.resetSaves_mem]
  rw [hx, ← hkept]
  exact State.afterCleared_mem _ por _

/-! The commands that begin a reset (R55 to R58) -/

/-- A trigger while the device runs begins its reset (R57). -/
theorem State.trigger_run (s : State) (por : Bool) (cause : Nat) (h : s.phase = Ph.run) : s.trigger por cause = s.doReset por cause 0 := by
  unfold State.trigger
  simp [h]

theorem execRstnAssert_run (s : State) (h : s.phase = Ph.run) : exec .rstnAssert s = .next (s.doReset false 3 0) := by
  have hrstn : s.rstn = s.trigger false 3 := by unfold State.rstn; simp [h]
  exact congrArg Host.Outcome.next (hrstn.trans (s.trigger_run false 3 h))

theorem execPllLoss_run (s : State) (h : s.phase = Ph.run) : exec .pllLoss s = .next (s.doReset false 6 0) :=
  congrArg Host.Outcome.next (s.trigger_run false 6 h)

theorem State.taken_phase (s : State) (a : Access) : (s.taken a).phase = s.phase := by
  rw [State.taken_eq]
  rfl

/-- A keeper's write of FAB_RST_REQ that reaches it, with data that ask for a trigger, begins that reset (R55). -/
theorem State.regCmd_rstReq (s : State) (m : Master) (a : Access) (w : Nat) (por : Bool) (cause : Nat) (hp : s.phase = Ph.run)
    (hd : a.tag.drawer = 0) (hreq : ∀ t : State, t.rstReq w = t.trigger por cause) (h : s.writes m .FAB_RST_REQ none 0 0 w a) :
    s.regCmd m .FAB_RST_REQ none 0 w = ((s.taken a).doReset por cause 0).answer true 0 := by
  have hkeeper : (a.tag.drawer == 0) = true := beq_iff_eq.2 hd
  rw [State.regCmd_writes_ne s m .FAB_RST_REQ none 0 w 0 a (by unfold hasPos; decide) h rfl (by decide),
    ← (s.taken a).trigger_run por cause ((s.taken_phase a).trans hp), ← hreq]
  exact congrArg (State.answer · true 0) (if_pos hkeeper)

theorem execRstReqSys_run (s : State) (m : Master) (a : Access) (hp : s.phase = Ph.run) (hd : a.tag.drawer = 0)
    (h : s.writes m .FAB_RST_REQ none 0 0 (keyed 0x7A3C 1) a) :
    exec (.rstReqSys m) s = .next (((s.taken a).doReset false 4 0).answer true 0) :=
  congrArg Host.Outcome.next (s.regCmd_rstReq m a _ false 4 hp hd (fun _ => rfl) h)

theorem execRstReqPor_run (s : State) (m : Master) (a : Access) (hp : s.phase = Ph.run) (hd : a.tag.drawer = 0)
    (h : s.writes m .FAB_RST_REQ none 0 0 (keyed 0x7A3C 2) a) :
    exec (.rstReqPor m) s = .next (((s.taken a).doReset true 5 0).answer true 0) :=
  congrArg Host.Outcome.next (s.regCmd_rstReq m a _ true 5 hp hd (fun _ => rfl) h)

/-- VLOG valid with the compute die off: a POR when a die has lost its state, else a SYS (R49, R56). -/
theorem execVlogValid_off (s : State) (cut : Bool) (h : s.phase = Ph.off) : exec (.vlogValid cut) s =
    .next (if s.anyLost then s.doReset true 1 s.start.flushNext else s.doReset false 2 s.start.flushNext) := by
  have hstart : s.vlogValid cut = s.vlogStart s.start.flushNext := by unfold State.vlogValid; rw [if_pos h]
  exact congrArg Host.Outcome.next hstart

/-! What the state shows after a reset -/

theorem State.doReset_start (s : State) (por : Bool) (cause flush : Nat) :
    (s.doReset por cause flush).phase = Ph.began ∧ (s.doReset por cause flush).start.cause = cause ∧
      (s.doReset por cause flush).start.por = por ∧ (s.doReset por cause flush).start.flush = flush := by
  obtain ⟨x, hx, hphase, hcause, hpor, hflush⟩ := State.doReset_stages s por cause flush
  rw [hx]
  exact ⟨hphase, hcause, hpor, hflush⟩

/-- Settles O12: each trigger is `doReset` of its kind and cause, whose stages clear the registers between the saves and holds, which write no
field that it keeps outside the named windows, and the restart of the dies and the network, which write none that it clears. -/
theorem resetTriggersBeginAStart : Obligations.ResetTriggersBeginAStart := by
  unfold Obligations.ResetTriggersBeginAStart
  refine ⟨fun s h => ⟨execRstnAssert_run s h, execPllLoss_run s h⟩,
    fun s m a hp hd => ⟨execRstReqSys_run s m a hp hd, execRstReqPor_run s m a hp hd⟩, execVlogValid_off, fun s por cause flush => ?_⟩
  have hunits := s.doReset_unitView por cause flush
  simp only [State.unitView, Prod.mk.injEq] at hunits
  obtain ⟨himg, hpins, hring, hcan, hport, hhart, hdvt, hdwl, hqueue, hbusy, hztm, hfab, hemitted⟩ := hunits
  intro t
  refine ⟨s.doReset_start por cause flush, himg,
    ⟨hpins, hring, hcan, hport, hhart, hdvt, hdwl, hqueue, hbusy, congrArg ZtmSt.zone hztm, congrArg ZtmSt.raw hztm, congrArg FabSt.waiting hfab⟩,
    ⟨s.doReset_pending por cause flush, hemitted⟩, fun x hsram hdram => ?_, fun r f i j cp hf _ _ _ hpwr => ⟨?_, ?_⟩⟩
  · rw [s.doReset_mem por cause flush]
    exact storeGet_filter blankByte s.mem (fun a => !(isSram a || isDram a)) x (by rw [hsram, hdram]; rfl)
  · intro hclr hchg hwin
    rw [s.doReset_get por cause flush r f i j cp hf hwin hpwr hchg]
    exact if_pos hclr
  · intro hclr hwin
    simp only [List.mem_cons, List.not_mem_nil, or_false, not_or] at hwin
    obtain ⟨hlch, hclp, htil, hept, hrec, hlth, _⟩ := hwin
    have hchg : r ≠ .LTH_CHG_STATUS := fun e => hlth (e ▸ rfl)
    rw [s.doReset_get por cause flush r f i j cp hf (by simp [hlch, hclp, htil, hept, hrec]) hpwr hchg,
      ← s.untilCleared_get ⟨r, f.hi, f.lo⟩ i j cp por cause hlch hrec hlth]
    exact if_neg (by rw [Clr.onReset, hclr]; decide)

end Sys2Proof.Machine

/-! SUPPORT. The parts of a start (R15, R16, R59, R60, R67, R70, R413): what its stages keep once an image is taken, and what each row leaves. -/

namespace Sys2Proof.Machine

/-! What the stages of a start keep -/

/-- The registers in which a start shows the image it took and the verdicts of its mark lines. -/
def startRegs : List RegId := [.CARC_STATUS, .CARC_REJ, .INP_MK_STATUS]

/-- What the later stages of a start keep: the image in force, the phase, zone time and the registers above. -/
def State.startView (s : State) : Option Image × Nat × ZtmSt × ({y : Fld // y.reg ∈ startRegs} → Nat → Nat → Nat → Nat) :=
  (s.img, s.phase, s.ztm, fun y i j cp => s.get y.1 i j cp)

theorem startRegs_win : ∀ r ∈ startRegs, (regDef r).win ≠ .lch ∧ (regDef r).win ≠ .recw := by decide

/-- A Clamp rule with its latches loaded anew, or as it was when power was lost (R155). -/
def State.ruleReloaded (s : State) (changed : Bool) (was r : Nat) : State :=
  if changed then s.ruleLoad r else if bitOf was r then s.put F.CLP_STAT_STATE Rule.latched r else s

/-- A Clamp rule when an image is taken (R150, R155). -/
def State.ruleRestart (s : State) (changed : Bool) (was r : Nat) : State :=
  let t := s.ruleReloaded changed was r
  if t.ruleOn r then (t.ruleShow r).ruleStep r (t.ruleNow r) else t

/-- The front end and the Clamp rules when an image is taken, before the channels follow (R140, R141, R150, R155). -/
def State.rulesRestart (s : State) (changed : Bool) (l : PinMv) : State :=
  ((if changed then s.pinsReload else s).frontStart l).each (List.range 64) fun t r => t.ruleRestart changed s.latchedRules r

theorem State.clampStart_stages (s : State) (changed : Bool) (l : PinMv) : s.clampStart changed l =
    if !changed && !s.start.wasOff then s
    else
      let t := s.rulesRestart changed l
      { t.each t.chans State.clampChan with latchedRules := 0, start := { t.start with wasOff := false } } := rfl

section startView
variable (s : State)

theorem State.startView_ext (s t : State) (himg : t.img = s.img) (hphase : t.start.phase = s.start.phase) (hztm : t.ztm = s.ztm)
    (hget : ∀ y i j cp, y.reg ∈ startRegs → t.get y i j cp = s.get y i j cp) : t.startView = s.startView := by
  unfold State.startView State.phase
  rw [himg, hphase, hztm]
  congr 3
  funext y i j cp
  exact hget y.1 i j cp y.2

theorem State.startView_get {s t : State} (h : t.startView = s.startView) (y : Fld) (i j cp : Nat) (hy : y.reg ∈ startRegs) :
    t.get y i j cp = s.get y i j cp := congrFun (congrFun (congrFun (congrFun (congrArg (·.2.2.2) h) ⟨y, hy⟩) i) j) cp

theorem State.startView_img {s t : State} (h : t.startView = s.startView) : t.img = s.img := congrArg (·.1) h
theorem State.startView_phase {s t : State} (h : t.startView = s.startView) : t.phase = s.phase := congrArg (·.2.1) h
theorem State.startView_ztm {s t : State} (h : t.startView = s.startView) : t.ztm = s.ztm := congrArg (·.2.2.1) h

/-- A change of the state of the start that keeps its phase. -/
theorem State.withStart_startView {s t : State} (h : t.startView = s.startView) (rules : Nat) (x : StartSt) (hx : x.phase = s.start.phase) :
    { t with latchedRules := rules, start := x }.startView = s.startView := by
  rw [← h]
  exact State.startView_ext t _ rfl (hx.trans (State.startView_phase h).symm) rfl fun _ _ _ _ _ => rfl

@[simp] theorem State.put_startView (x : Fld) (v i j cp : Nat) (hx : x.reg ∉ startRegs) : (s.put x v i j cp).startView = s.startView :=
  State.startView_ext s _ rfl rfl rfl fun _ _ _ _ hy => State.get_put_reg _ _ _ _ _ _ _ _ _ _ fun e => hx (ctorIdx_inj _ _ e ▸ hy)

@[simp] theorem State.putLc_startView (c : Nat) (x : LoadCh) : (s.putLc c x).startView = s.startView := rfl
@[simp] theorem State.putFd_startView (f : Nat) (x : FeedSt) : (s.putFd f x).startView = s.startView := rfl
@[simp] theorem State.putHt_startView (h : Nat) (x : HartSt) : (s.putHt h x).startView = s.startView := rfl
@[simp] theorem State.putMk_startView (n : Nat) (x : MarkSt) : (s.putMk n x).startView = s.startView := rfl
@[simp] theorem State.putSlot_startView (n : Nat) (x : Word) : (s.putSlot n x).startView = s.startView := rfl

@[simp] theorem State.resolve_startView (c : Nat) : (s.resolve c).startView = s.startView :=
  State.startView_ext s _ (by simp) (by simp) (by simp) fun y i j cp hy =>
    State.resolve_get_window s y i j cp (startRegs_win _ hy).1 (startRegs_win _ hy).2 c

@[simp] theorem State.applyCmd_startView (c cmd : Nat) (fast : Bool) : (s.applyCmd c cmd fast).startView = s.startView :=
  State.startView_ext s _ (by simp) (by simp) (by simp) fun y i j cp hy =>
    State.applyCmd_get_window s y i j cp (startRegs_win _ hy).1 (startRegs_win _ hy).2 c cmd fast

@[simp] theorem State.raise_startView (x : Fld) (mask i j cp : Nat) (owner : Option Nat) (src unit : Nat) (hx : x.reg ∉ startRegs) :
    (s.raise x mask i j cp owner src unit).startView = s.startView :=
  State.startView_ext s _ (by simp) (by simp) (by simp) fun _ _ _ _ hy =>
    State.raise_get _ _ _ _ _ _ _ _ _ _ _ _ _ (startRegs_win _ hy).2 fun e => hx (ctorIdx_inj _ _ e ▸ hy)

@[simp] theorem State.alarm_startView (code unit detail drawer : Nat) : (s.alarm code unit detail drawer).startView = s.startView :=
  State.startView_ext s _ (by simp) (by simp) (by simp) fun _ _ _ _ hy => State.alarm_get _ _ _ _ _ _ _ _ _ (startRegs_win _ hy).2

@[simp] theorem State.mitreLine_startView (n : Nat) : (s.mitreLine n).startView = s.startView := s.put_startView _ _ _ _ _ (by decide)

@[simp] theorem State.setFlag_startView (c b : Nat) : (s.setFlag c b).startView = s.startView := by
  unfold State.setFlag
  split
  · rfl
  · dsimp only
    split
    · rw [State.mitreLine_startView]
      simp (disch := decide)
    · simp (disch := decide)

@[simp] theorem State.clearFlag_startView (c b : Nat) : (s.clearFlag c b).startView = s.startView := s.put_startView _ _ _ _ _ (by decide)

@[simp] theorem State.blockChan_startView (c : Nat) : (s.blockChan c).startView = s.startView := by
  unfold State.blockChan
  simp

@[simp] theorem State.clampChan_startView (c : Nat) : (s.clampChan c).startView = s.startView := by
  unfold State.clampChan
  simp (disch := decide)


/-! The stages in which an image is taken -/

@[simp] theorem State.showRetired_startView : s.showRetired.startView = s.startView := by
  unfold State.showRetired
  rw [State.each_inv State.startView _ _ _ fun t k => t.put_startView _ _ _ _ _ (by decide),
    State.each_inv State.startView _ _ _ fun t p => t.put_startView _ _ _ _ _ (by decide),
    State.each_inv State.startView _ _ _ fun t p => t.put_startView _ _ _ _ _ (by decide)]

@[simp] theorem State.coreZero_startView : s.coreZero.startView = s.startView := by
  unfold State.coreZero
  split
  · rfl
  · exact s.putHt_startView _ _

@[simp] theorem State.holdsDropped_startView : s.holdsDropped.startView = s.startView :=
  State.each_inv State.startView _ _ _ fun t c => by simp

@[simp] theorem State.imageEngines_startView : s.imageEngines.startView = s.startView := by
  unfold State.imageEngines
  dsimp only
  rw [State.put_startView _ _ _ _ _ _ (by decide), State.put_startView _ _ _ _ _ _ (by decide)]
  split <;> rfl

@[simp] theorem State.freshProt_startView (c : Nat) : (s.freshProt c).startView = s.startView := by
  unfold State.freshProt
  simp (disch := decide)

@[simp] theorem State.channelsRenewed_startView : s.channelsRenewed.startView = s.startView :=
  State.each_inv State.startView _ _ _ fun t c => by simp (disch := decide)

@[simp] theorem State.imageChannels_startView (changed : Bool) : (s.imageChannels changed).startView = s.startView := by
  unfold State.imageChannels
  split
  · rw [State.each_inv State.startView _ _ _ fun t f => t.putFd_startView _ _]
    exact State.each_inv State.startView _ _ _ fun t c => by simp
  · split
    · exact s.channelsRenewed_startView
    · rfl

@[simp] theorem State.retiredBy_startView (c cause : Nat) : (s.retiredBy c cause).startView = s.startView := by
  unfold State.retiredBy
  simp (disch := decide)

@[simp] theorem State.retireStart_startView (old : List (Nat × Nat)) (power : Bool) : (s.retireStart old power).startView = s.startView :=
  State.each_inv State.startView _ _ _ fun t c => by
    dsimp only
    split
    · simp
    · split <;> simp (disch := decide)

@[simp] theorem State.sensePins_startView (l : PinMv) : (s.sensePins l).startView = s.startView :=
  State.each_inv State.startView _ _ _ fun _ _ => rfl

@[simp] theorem State.frontStart_startView (l : PinMv) : (s.frontStart l).startView = s.startView := State.sensePins_startView _ l

@[simp] theorem State.pinsReload_startView : s.pinsReload.startView = s.startView :=
  State.each_inv State.startView _ _ _ fun t p => by simp (disch := decide)

@[simp] theorem State.ruleFire_startView (r : Nat) : (s.ruleFire r).startView = s.startView := by
  unfold State.ruleFire State.bump
  dsimp only
  split <;> simp (disch := decide)

@[simp] theorem State.ruleStep_startView (r : Nat) (v : Bool) : (s.ruleStep r v).startView = s.startView := by
  unfold State.ruleStep
  dsimp only
  (repeat' split) <;> simp (disch := decide)

@[simp] theorem State.ruleLoad_startView (r : Nat) : (s.ruleLoad r).startView = s.startView := by
  unfold State.ruleLoad
  simp (disch := decide)

@[simp] theorem State.ruleShow_startView (r : Nat) : (s.ruleShow r).startView = s.startView := s.put_startView _ _ _ _ _ (by decide)

@[simp] theorem State.ruleRestart_startView (changed : Bool) (was r : Nat) : (s.ruleRestart changed was r).startView = s.startView := by
  have hloaded : (s.ruleReloaded changed was r).startView = s.startView := by
    unfold State.ruleReloaded
    (repeat' split) <;> simp (disch := decide)
  unfold State.ruleRestart
  dsimp only
  split
  · rw [State.ruleStep_startView, State.ruleShow_startView, hloaded]
  · exact hloaded

@[simp] theorem State.rulesRestart_startView (changed : Bool) (l : PinMv) : (s.rulesRestart changed l).startView = s.startView := by
  unfold State.rulesRestart
  rw [State.each_inv State.startView _ _ _ fun t r => t.ruleRestart_startView changed _ r, State.frontStart_startView]
  split
  · exact s.pinsReload_startView
  · rfl

@[simp] theorem State.clampStart_startView (changed : Bool) (l : PinMv) : (s.clampStart changed l).startView = s.startView := by
  rw [State.clampStart_stages]
  split
  · rfl
  · have hchans := State.each_inv State.startView (s.rulesRestart changed l).chans State.clampChan (s.rulesRestart changed l)
      fun t c => t.clampChan_startView c
    rw [← s.rulesRestart_startView changed l]
    exact State.withStart_startView hchans _ _ rfl

@[simp] theorem State.marksBegin_startView : s.marksBegin.startView = s.startView :=
  State.each_inv State.startView _ _ _ fun _ _ => rfl

@[simp] theorem State.wireStart_startView (c : Nat) : (s.wireStart c).startView = s.startView := by
  have hwire : ∀ t : State, (t.wireOf c).startView = t.startView := fun _ => rfl
  unfold State.wireStart
  dsimp only
  rw [hwire]
  split <;> simp (disch := decide)

@[simp] theorem State.harnessEnd_startView : s.harnessEnd.startView = s.startView := by
  unfold State.harnessEnd
  split
  · rfl
  · dsimp only
    refine (State.each_inv State.startView _ _ _ fun t c => ?_).trans rfl
    split
    · exact t.wireStart_startView c
    · rw [State.resolve_startView]
      split <;> simp

/-! The stages that end a start -/

@[simp] theorem State.imageFields_startView : s.imageFields.startView = s.startView := by
  unfold State.imageFields
  rw [State.each_inv State.startView _ _ _ fun t d => t.put_startView _ _ _ _ _ (by decide)]
  exact State.each_inv State.startView _ _ _ fun t f => by simp (disch := decide)

@[simp] theorem State.putUnitMap_startView (c : Nat) (l : Store Nat) : (s.putUnitMap c l).startView = s.startView := rfl

@[simp] theorem State.giveUnits_startView (c first n o : Nat) : (s.giveUnits c first n o).startView = s.startView := rfl

@[simp] theorem State.putHolding_startView (d c n : Nat) : (s.putHolding d c n).startView = s.startView :=
  s.put_startView _ _ _ _ _ (by decide)

@[simp] theorem State.allocate_startView (c : Nat) : (s.allocate c).startView = s.startView := by
  unfold State.allocate
  dsimp only
  split
  · rw [State.giveUnits_startView, State.putHolding_startView]
    exact State.each_inv State.startView _ _ (s.putUnitMap c []) fun t d =>
      (State.giveUnits_startView _ _ _ _ _).trans (t.putHolding_startView _ _ _)
  · rw [State.putHolding_startView]
    exact State.each_inv State.startView _ _ s fun t d => t.putHolding_startView _ _ _

@[simp] theorem State.allocateAll_startView : s.allocateAll.startView = s.startView :=
  State.each_inv State.startView _ _ _ fun t c => t.allocate_startView c

@[simp] theorem State.offerAll_startView : s.offerAll.startView = s.startView :=
  State.each_inv State.startView _ _ _ fun t d => t.put_startView _ _ _ _ _ (by decide)

@[simp] theorem State.recRestore_startView : s.recRestore.startView = s.startView := rfl

@[simp] theorem State.initSlots_startView (warm : Bool) : (s.initSlots warm).startView = s.startView := by
  unfold State.initSlots
  dsimp only
  split
  · exact State.each_inv State.startView _ _ _ fun t p => t.putSlot_startView _ _
  · rfl

@[simp] theorem State.adoptBits_startView (warm fresh : Bool) : (s.adoptBits warm fresh).startView = s.startView :=
  State.each_inv State.startView _ _ _ fun t _ => t.putSlot_startView _ _

@[simp] theorem State.restartForces_startView (warm load : Bool) : (s.restartForces warm load).startView = s.startView :=
  State.put_startView _ _ _ _ _ _ (by decide)

@[simp] theorem State.fixTimers_startView : s.fixTimers.startView = s.startView :=
  State.each_inv State.startView _ _ _ fun t p => by
    dsimp only
    split
    · exact t.putSlot_startView _ _
    · rfl

@[simp] theorem State.latheInit_startView (load : Bool) : (s.latheInit load).startView = s.startView := by
  have hslots : ∀ t : State, (if s.warmOk = true then t.fixTimers else t).startView = t.startView := fun t => by split <;> simp
  refine (hslots _).trans ?_
  rw [State.restartForces_startView, State.adoptBits_startView, State.initSlots_startView]
  simp (disch := decide)

@[simp] theorem State.lthErr_startView (task cause op arg : Nat) : (s.lthErr task cause op arg).startView = s.startView := by
  have hqueue : ∀ (t : State) (l : LthSt), { t with lth := l }.startView = t.startView := fun _ _ => rfl
  unfold State.lthErr State.bump
  dsimp only
  split
  · exact s.put_startView _ _ _ _ _ (by decide)
  · split
    · rw [hqueue]
      split <;> simp (disch := decide)
    · exact s.put_startView _ _ _ _ _ (by decide)

@[simp] theorem State.tellDropped_startView : s.tellDropped.startView = s.startView := by
  unfold State.tellDropped
  split
  · exact s.lthErr_startView _ _ _ _
  · rfl

@[simp] theorem State.enterRunning_startView : s.enterRunning.startView = s.startView := by
  have htask : ∀ (t : State) (k : Nat) (x : TaskSt), (t.putTk k x).startView = t.startView := fun _ _ _ => rfl
  unfold State.enterRunning
  rw [State.tellDropped_startView, State.each_inv State.startView _ _ _ fun t n => t.put_startView _ _ _ _ _ (by decide)]
  refine (State.each_inv State.startView _ _ _ fun t k => ?_).trans (s.put_startView F.LTH_STATE_STATE Eng.running 0 0 0 (by decide))
  dsimp only
  rw [apply_ite State.startView, htask, ite_self]
  simp (disch := decide)

@[simp] theorem State.holdEnd_startView (c : Nat) : (s.holdEnd c).startView = s.startView := by
  unfold State.holdEnd
  dsimp only
  split <;> simp (disch := decide)

@[simp] theorem State.holdsEnd_startView : s.holdsEnd.startView = s.startView :=
  State.each_inv State.startView _ _ _ fun t c => t.holdEnd_startView c

end startView

theorem State.putPhase_startView_congr {s t : State} (h : t.startView = s.startView) (p : Nat) :
    (t.putPhase p).startView = (s.putPhase p).startView :=
  State.startView_ext _ _ (by simpa using State.startView_img h) rfl (by simpa using State.startView_ztm h) fun y i j cp hy => by
    rw [State.putPhase_get, State.putPhase_get, State.startView_get h y i j cp hy]

theorem State.putPhase_phase (s : State) (p : Nat) : (s.putPhase p).phase = p := rfl

/-! The Boot ROM and the banks (R15, R16, R59) -/

theorem State.bootRom_began (s : State) (ends : Nat → CopyEnd) (h : s.phase = Ph.began) : s.bootRom ends =
    if (s.bootCause.restoreUnits.lcComplete.bootImages ends).upd.journal.isSome then s.bootCause.restoreUnits.lcComplete.bootImages ends
    else (s.bootCause.restoreUnits.lcComplete.bootImages ends).bootBanks := by
  unfold State.bootRom
  rw [if_neg (not_not_intro h)]

/-- The image of a bank in force is what the registers of the Carcass say (R15). -/
theorem State.imageRegs_startView (s : State) (b : Nat) (im : Image) : (s.imageRegs b im).startView =
    (((s.put F.CARC_STATUS_STATE 1).put F.CARC_STATUS_BANK b).put F.CARC_STATUS_FALLBACK (b2n (b != s.prefBank 2))).startView := by
  unfold State.imageRegs
  rw [State.each_inv State.startView _ _ _ fun t i => t.put_startView _ _ _ _ _ (by decide),
    State.each_inv State.startView _ _ _ fun t i => t.put_startView _ _ _ _ _ (by decide)]
  simp (disch := decide) only [State.put_startView]

theorem State.imageRegs_img (s : State) (b : Nat) (im : Image) : (s.imageRegs b im).img = s.img :=
  (State.startView_img (s.imageRegs_startView b im)).trans (by simp)

theorem State.imageRegs_taken (s : State) (b : Nat) (im : Image) : (s.imageRegs b im).get F.CARC_STATUS_STATE = 1 := by
  rw [State.startView_get (s.imageRegs_startView b im) _ _ _ _ (by decide), State.get_put_fld _ _ _ _ _ _ _ _ _ _ (by decide) (by decide),
    State.get_put_fld _ _ _ _ _ _ _ _ _ _ (by decide) (by decide), State.get_put_same _ _ _ _ _ _ (by decide)]
  rfl

theorem State.imageRegs_rej (s : State) (b : Nat) (im : Image) (i : Nat) :
    (s.imageRegs b im).get F.CARC_REJ_CODE i = s.get F.CARC_REJ_CODE i := by
  rw [State.startView_get (s.imageRegs_startView b im) _ _ _ _ (by decide)]
  rw [State.get_put_reg _ _ _ _ _ _ _ _ _ _ (by decide), State.get_put_reg _ _ _ _ _ _ _ _ _ _ (by decide),
    State.get_put_reg _ _ _ _ _ _ _ _ _ _ (by decide)]

theorem State.withUpd_startView (s : State) (u : UpdSt) : { s with upd := u }.startView = s.startView := rfl

/-- The image under check in place of the one in force changes no register. -/
theorem State.withImage_get (s : State) (im : Image) (y : Fld) (i j cp : Nat) : (s.withImage im).get y i j cp = s.get y i j cp := rfl

/-- Holds dropped for a changed structure, the image, and the registers that report it. -/
theorem State.imageInForce_startView (s : State) (b : Nat) (im : Image) (changed : Bool) : (s.imageInForce b im changed).startView =
    (((if changed then s.holdsDropped else s).withImage im).imageRegs b im).startView := State.withUpd_startView _ _

/-- What an image in force shows, whatever it replaces (R15, R134). -/
theorem State.imageInForce_shows (s : State) (b : Nat) (im : Image) (changed : Bool) :
    (s.imageInForce b im changed).img = some im ∧ (s.imageInForce b im changed).get F.CARC_STATUS_STATE = 1 ∧
      ∀ i, (s.imageInForce b im changed).get F.CARC_REJ_CODE i = s.get F.CARC_REJ_CODE i := by
  have hheld : (if changed then s.holdsDropped else s).startView = s.startView := by split <;> simp
  have hview := s.imageInForce_startView b im changed
  refine ⟨(State.startView_img hview).trans (State.imageRegs_img _ b im),
    (State.startView_get hview _ _ _ _ (by decide)).trans (State.imageRegs_taken _ b im), fun i => ?_⟩
  rw [State.startView_get hview _ _ _ _ (by decide), State.imageRegs_rej, State.withImage_get]
  exact State.startView_get hheld _ _ _ _ (by decide)

/-- The state with an image in force, and the engines and channels as it sets them. -/
def State.imageSet (s : State) (b : Nat) (im : Image) (changed : Bool) : State :=
  ((s.imageInForce b im changed).imageEngines).imageChannels changed

/-- Whether the structure was renewed is noted for the restart of the Lathe. -/
def State.noteRenewed (s : State) (changed : Bool) : State := { s with start := { s.start with renewed := changed } }

theorem State.noteRenewed_startView (s : State) (changed : Bool) : (s.noteRenewed changed).startView = s.startView := rfl

theorem State.imageTaken_stages (s : State) (b : Nat) (l : PinMv) (im : Image) : s.imageTaken b l im =
    ((((((s.imageSet b im (s.structChanges im)).noteRenewed (s.structChanges im)).retireStart s.retiredNow
      (s.start.cause == 1 || s.start.cause == 5)).showRetired.clampStart (s.structChanges im) l).coreZero.marksBegin).putPhase
        Ph.taken).harnessEnd := by
  unfold State.imageTaken State.noteRenewed State.imageSet
  rfl

/-- The stages after an image has come into force keep what it shows. -/
theorem State.imageTaken_startView (s : State) (b : Nat) (l : PinMv) (im : Image) :
    (s.imageTaken b l im).startView = ((s.imageInForce b im (s.structChanges im)).putPhase Ph.taken).startView := by
  have hset : (s.imageSet b im (s.structChanges im)).startView = (s.imageInForce b im (s.structChanges im)).startView := by
    unfold State.imageSet
    rw [State.imageChannels_startView, State.imageEngines_startView]
  rw [State.imageTaken_stages, State.harnessEnd_startView]
  refine State.putPhase_startView_congr ?_ _
  rw [State.marksBegin_startView, State.coreZero_startView, State.clampStart_startView, State.showRetired_startView,
    State.retireStart_startView, State.noteRenewed_startView, hset]

theorem State.imageTaken_shows (s : State) (b : Nat) (l : PinMv) (im : Image) :
    (s.imageTaken b l im).phase = Ph.taken ∧ (s.imageTaken b l im).img = some im ∧ (s.imageTaken b l im).get F.CARC_STATUS_STATE = 1 ∧
      ∀ i, (s.imageTaken b l im).get F.CARC_REJ_CODE i = s.get F.CARC_REJ_CODE i := by
  have hview := s.imageTaken_startView b l im
  obtain ⟨himg, hstate, hrej⟩ := s.imageInForce_shows b im (s.structChanges im)
  refine ⟨(State.startView_phase hview).trans (State.putPhase_phase _ _), ?_, ?_, fun i => ?_⟩
  · rw [State.startView_img hview, State.putPhase_img, himg]
  · rw [State.startView_get hview _ _ _ _ (by decide), State.putPhase_get, hstate]
  · rw [State.startView_get hview _ _ _ _ (by decide), State.putPhase_get, hrej]

theorem State.bankRejected_code (s : State) (b : Nat) (e : ImgFail) : (s.bankRejected b e).get F.CARC_REJ_CODE b = e.code % 256 := by
  unfold State.bankRejected
  rw [State.get_put_reg _ _ _ _ _ _ _ _ _ _ (by decide), State.get_put_reg _ _ _ _ _ _ _ _ _ _ (by decide),
    State.get_put_fld _ _ _ _ _ _ _ _ _ _ (by decide) (by decide), State.get_put_fld _ _ _ _ _ _ _ _ _ _ (by decide) (by decide),
    State.get_put_same _ _ _ _ _ _ (by decide)]
  rfl

/-- A channel in the bare state: off, with no hold and no command (R16, R133). -/
def State.channelBare (s : State) (c : Nat) : State :=
  let t := (s.put F.LCH_STATE_OUT 0 c).put F.LCH_STATE_PHASE 0 c
  let t := ((t.put F.LCH_STATE_WINNER 0 c).clearFlag c Flag.onState).clearFlag c Flag.holding
  t.putLc c { t.lc c with
    edge := 0, hsWin := false, holdBy := 0, holdPol := 0, holdVal := false, clamp := 0, frozen := false, asleep := false, renew := false }

/-- Channels and the Clamp network in the bare state (R16). -/
def State.networkBare (s : State) : State :=
  ((s.each s.chans.reverse State.channelBare).each (List.range 64) fun t r =>
    (t.put F.CLP_STAT_STATE Rule.disabled r).put F.CLP_STAT_RESULT 0 r).each (List.range 96) fun t c =>
      ((t.put F.CLP_CHAN_HELD 0 c).put F.CLP_CHAN_CMD 0 c).put F.CLP_CHAN_FROZEN 0 c

/-- No image is in force (R16). -/
def State.imageDropped (s : State) : State :=
  { s with img := none, drw := { s.drw with count := 1 }, latchedRules := 0, front := ⟨0, 0⟩ }

theorem State.imageDropped_img (s : State) : s.imageDropped.img = none := rfl
theorem State.imageDropped_get (s : State) (y : Fld) (i j cp : Nat) : s.imageDropped.get y i j cp = s.get y i j cp := rfl

theorem State.enterBare_stages (s : State) : s.enterBare =
    ((((s.networkBare.imageDropped.put F.CARC_STATUS_STATE 2).put F.CARC_STATUS_BANK 0).setBit F.FAB_SAFEN_REASON
      1).showRetired.coreZero).putPhase Ph.bare := by
  unfold State.enterBare State.imageDropped State.networkBare
  rfl

theorem State.channelBare_startView (s : State) (c : Nat) : (s.channelBare c).startView = s.startView := by
  unfold State.channelBare
  simp (disch := decide)

theorem State.networkBare_startView (s : State) : s.networkBare.startView = s.startView := by
  unfold State.networkBare
  rw [State.each_inv State.startView _ _ _ fun t c => by simp (disch := decide),
    State.each_inv State.startView _ _ _ fun t r => by simp (disch := decide),
    State.each_inv State.startView _ _ _ State.channelBare_startView]

/-- Before the bare state is entered, its registers already show it. -/
theorem State.enterBare_startView (s : State) : s.enterBare.startView =
    (((s.networkBare.imageDropped.put F.CARC_STATUS_STATE 2).put F.CARC_STATUS_BANK 0).putPhase Ph.bare).startView := by
  rw [State.enterBare_stages]
  refine State.putPhase_startView_congr ?_ _
  rw [State.coreZero_startView, State.showRetired_startView]
  exact State.put_startView _ _ _ _ _ _ (by decide)

/-- The bare state stands without an image, and keeps what the banks' checks found (R16). -/
theorem State.enterBare_shows (s : State) : s.enterBare.phase = Ph.bare ∧ s.enterBare.img = none ∧ s.enterBare.get F.CARC_STATUS_STATE = 2 ∧
    ∀ i, s.enterBare.get F.CARC_REJ_CODE i = s.get F.CARC_REJ_CODE i := by
  have hview := s.enterBare_startView
  refine ⟨(State.startView_phase hview).trans (State.putPhase_phase _ _), ?_, ?_, fun i => ?_⟩
  · rw [State.startView_img hview, State.putPhase_img, State.put_img, State.put_img, State.imageDropped_img]
  · rw [State.startView_get hview _ _ _ _ (by decide), State.putPhase_get, State.get_put_fld _ _ _ _ _ _ _ _ _ _ (by decide) (by decide),
      State.get_put_same _ _ _ _ _ _ (by decide)]
    rfl
  · rw [State.startView_get hview _ _ _ _ (by decide), State.putPhase_get, State.get_put_reg _ _ _ _ _ _ _ _ _ _ (by decide),
      State.get_put_reg _ _ _ _ _ _ _ _ _ _ (by decide), State.imageDropped_get,
      State.startView_get s.networkBare_startView _ _ _ _ (by decide)]

theorem execCarcassBankChecked_banks (s : State) (mv : PinMv) (h : s.phase = Ph.banks) :
    exec (.carcassBankChecked mv) s = .next (s.bankJudged s.bankNext mv (s.carcassCheck (s.bankImage s.bankNext))) := by
  have hcheck : s.bankChecked mv = s.bankJudged s.bankNext mv (s.carcassCheck (s.bankImage s.bankNext)) := if_neg (not_not_intro h)
  exact congrArg Host.Outcome.next hcheck

/-- A bank whose check finds nothing is taken (R15). -/
theorem execCarcassBankChecked_passed (s : State) (mv : PinMv) (h : s.phase = Ph.banks) (hok : s.carcassCheck (s.bankImage s.bankNext) = none) :
    Gives (.carcassBankChecked mv) s fun t => t.phase = Ph.taken ∧ t.img = some (imageOf (s.bankImage s.bankNext)) ∧
      t.get F.CARC_STATUS_STATE = 1 ∧ t.get F.CARC_REJ_CODE s.bankNext = 0 := by
  obtain ⟨hphase, himg, hstate, hrej⟩ :=
    (s.put F.CARC_REJ_CODE 0 s.bankNext).imageTaken_shows s.bankNext mv (imageOf (s.bankImage s.bankNext))
  refine ⟨_, execCarcassBankChecked_banks s mv h, ?_⟩
  rw [hok]
  exact ⟨hphase, himg, hstate, (hrej _).trans (State.get_put_same _ _ _ _ _ _ (by decide))⟩

/-- A preferred bank that fails is only recorded as rejected (R15). -/
theorem execCarcassBankChecked_preferred (s : State) (mv : PinMv) (e : ImgFail) (h : s.phase = Ph.banks)
    (hbad : s.carcassCheck (s.bankImage s.bankNext) = some e) (hpref : s.bankNext = s.prefBank 2) :
    exec (.carcassBankChecked mv) s = .next (s.bankRejected s.bankNext e) := by
  rw [execCarcassBankChecked_banks s mv h, hbad]
  exact congrArg Host.Outcome.next (if_pos hpref)

/-- A second bank that fails leads to the bare state (R16). -/
theorem execCarcassBankChecked_second (s : State) (mv : PinMv) (e : ImgFail) (h : s.phase = Ph.banks)
    (hbad : s.carcassCheck (s.bankImage s.bankNext) = some e) (hpref : s.bankNext ≠ s.prefBank 2) :
    Gives (.carcassBankChecked mv) s fun t => t.phase = Ph.bare ∧ t.img = none ∧ t.get F.CARC_STATUS_STATE = 2 ∧
      t.get F.CARC_REJ_CODE s.bankNext = e.code % 256 := by
  have hjudged : s.bankJudged s.bankNext mv (some e) = (s.bankRejected s.bankNext e).enterBare := if_neg hpref
  obtain ⟨hphase, himg, hstate, hrej⟩ := (s.bankRejected s.bankNext e).enterBare_shows
  refine ⟨_, execCarcassBankChecked_banks s mv h, ?_⟩
  rw [hbad, hjudged]
  exact ⟨hphase, himg, hstate, (hrej _).trans (s.bankRejected_code _ e)⟩

theorem execBootRomRun_began (s : State) (boot carcass secure : CopyEnd) (h : s.phase = Ph.began) :
    let t := s.bootCause.restoreUnits.lcComplete.bootImages fun k => if k = 1 then boot else if k = 2 then carcass else secure
    (t.upd.journal = none → exec (.bootRomRun boot carcass secure) s =
      .next (((t.takeBank 1).put F.CARC_STATUS_PREFERRED (t.prefBank 2)).putPhase Ph.banks)) ∧
    (t.upd.journal ≠ none → exec (.bootRomRun boot carcass secure) s = .next t) := by
  intro t
  have hrun : exec (.bootRomRun boot carcass secure) s = .next (if t.upd.journal.isSome then t else t.bootBanks) :=
    congrArg Host.Outcome.next (s.bootRom_began _ h)
  refine ⟨fun hnone => ?_, fun hcut => ?_⟩
  · rw [hrun, hnone]
    rfl
  · rw [hrun, if_pos (Option.isSome_iff_ne_none.2 hcut)]

/-! Start tests (R147, R289, R331, R413 to R415) -/

/-- The test of a unit in service that passes, or fails for the first time, sets SUSPECT alone (R415). -/
theorem State.startTest_suspect (s : State) (kind unit code drawer : Nat) (pass : Bool) (hin : s.unitOut kind unit = false)
    (hok : pass = true ∨ s.unitSuspect kind unit = false) :
    s.startTest kind unit code drawer pass = s.putSuspect kind unit (!pass) := by
  unfold State.startTest
  rw [if_neg (by simp [hin])]
  cases pass with
  | true => rfl
  | false =>
    have hsus : s.unitSuspect kind unit = false := hok.resolve_left (by decide)
    simp [hsus]

@[simp] theorem State.put_unitOut (s : State) (x : Fld) (v i j cp kind unit : Nat) :
    (s.put x v i j cp).unitOut kind unit = s.unitOut kind unit := rfl

@[simp] theorem State.putSuspect_unitOut (s : State) (k u kind unit : Nat) (b : Bool) :
    (s.putSuspect k u b).unitOut kind unit = s.unitOut kind unit := rfl

/-- SUSPECT is kept in its own register. -/
theorem State.put_unitSuspect (s : State) (x : Fld) (v i j cp kind unit : Nat) (hx : RegId.FAB_SUS.ctorIdx ≠ x.reg.ctorIdx) :
    (s.put x v i j cp).unitSuspect kind unit = s.unitSuspect kind unit := by
  unfold State.unitSuspect
  rw [State.get_put_reg _ _ _ _ _ _ _ _ _ _ hx]

theorem execMiStartTest_taken (s : State) (p : Fin 128) (pass : Bool) (h : s.phase = Ph.taken) (hmode : s.miMode p ≠ 0)
    (hin : s.unitOut 2 p = false) :
    let u := (s.put F.INP_MI_STAT_TEST_FAIL (b2n !pass) p).startTest 2 p 0x07 (s.miOwner p) pass
    exec (.miStartTest p pass) s = .next (u.put F.INP_MI_STAT_RETIRED (b2n (u.unitOut 2 p)) p) := by
  have hskip : ¬((!s.testing || s.miMode p == 0 || s.unitOut 2 p) = true) := by simp [State.testing, h, hmode, hin]
  exact congrArg Host.Outcome.next (if_neg hskip)

theorem execPortStartTest_taken (s : State) (p : Fin 30) (pass : Bool) (h : s.phase = Ph.taken) (hon : s.portEnabled p = true)
    (hin : s.unitOut 3 p = false) (hok : pass = true ∨ s.unitSuspect 3 p = false) :
    exec (.portStartTest p pass) s = .next ((s.put F.EPT_LINK_TEST_FAIL (b2n !pass) p).putSuspect 3 p (!pass)) := by
  have htest : (s.put F.EPT_LINK_TEST_FAIL (b2n !pass) p).startTest 3 p 0x05 0 pass =
      (s.put F.EPT_LINK_TEST_FAIL (b2n !pass) p).putSuspect 3 p (!pass) :=
    State.startTest_suspect _ _ _ _ _ _ hin (by rwa [State.put_unitSuspect _ _ _ _ _ _ _ _ (by decide)])
  have hport : s.portTest p pass = (s.put F.EPT_LINK_TEST_FAIL (b2n !pass) p).putSuspect 3 p (!pass) := by
    unfold State.portTest
    rw [htest]
    simp [hon, hin]
  exact congrArg Host.Outcome.next ((if_pos (by simp [State.testing, h])).trans hport)

theorem execCanStartTest_taken (s : State) (k : Fin 16) (pass : Bool) (h : s.phase = Ph.taken) (hown : (s.canOwner k).isSome = true)
    (hin : s.unitOut 4 k = false) (hok : pass = true ∨ s.unitSuspect 4 k = false) :
    exec (.canStartTest k pass) s = .next ((s.put F.CAN_STAT_TEST_FAIL (b2n !pass) k).putSuspect 4 k (!pass)) := by
  have htest : ∀ d, (s.put F.CAN_STAT_TEST_FAIL (b2n !pass) k).startTest 4 k 0x06 d pass =
      (s.put F.CAN_STAT_TEST_FAIL (b2n !pass) k).putSuspect 4 k (!pass) := fun d =>
    State.startTest_suspect _ _ _ _ _ _ hin (by rwa [State.put_unitSuspect _ _ _ _ _ _ _ _ (by decide)])
  have hcan : s.canTest k pass = (s.put F.CAN_STAT_TEST_FAIL (b2n !pass) k).putSuspect 4 k (!pass) := by
    unfold State.canTest
    dsimp only
    rw [htest]
    simp [hown, hin]
  exact congrArg Host.Outcome.next ((if_pos (by simp [State.testing, h])).trans hcan)

theorem execCoreSelfTest_taken (s : State) (c : Fin 6) (pass : Bool) (h : s.phase = Ph.taken) (hin : s.unitOut 5 c = false)
    (hok : pass = true ∨ s.unitSuspect 5 c = false) :
    exec (.coreSelfTest c pass) s = .next ((if pass then s else s.setBit F.FAB_CORE_STAT_TEST_FAIL c).putSuspect 5 c (!pass)) := by
  have hcore : s.coreTest c pass = (if pass then s else s.setBit F.FAB_CORE_STAT_TEST_FAIL c).putSuspect 5 c (!pass) := by
    unfold State.coreTest
    cases pass with
    | true => exact s.startTest_suspect _ _ _ _ _ hin hok
    | false =>
      have hsus : (s.setBit F.FAB_CORE_STAT_TEST_FAIL c).unitSuspect 5 c = s.unitSuspect 5 c :=
        State.put_unitSuspect _ _ _ _ _ _ _ _ (by decide)
      exact State.startTest_suspect _ _ _ _ _ _ hin (hsus ▸ hok)
  have hstays : ((if pass then s else s.setBit F.FAB_CORE_STAT_TEST_FAIL c).putSuspect 5 c (!pass)).unitOut 5 c = false := by
    cases pass <;> exact hin
  have hself : s.coreSelfTest c pass = (if pass then s else s.setBit F.FAB_CORE_STAT_TEST_FAIL c).putSuspect 5 c (!pass) := by
    have hrun : ¬((!s.starting || s.unitOut 5 c) = true) := by simp [State.starting, h, hin]
    unfold State.coreSelfTest
    rw [if_neg hrun, hcore]
    exact if_neg (by rw [hstays]; decide)
  exact congrArg Host.Outcome.next hself

theorem execSramSelfTest_taken (s : State) (u : Fin 48) (pass : Bool) (h : s.phase = Ph.taken) (hin : s.unitOut 6 u = false)
    (hok : pass = true ∨ s.unitSuspect 6 u = false) : exec (.sramSelfTest u pass) s = .next (s.putSuspect 6 u (!pass)) :=
  congrArg Host.Outcome.next ((if_pos (by simp [State.starting, h])).trans (s.startTest_suspect 6 u 0x09 0 pass hin hok))

/-! Mark lines (R67, R70) -/

/-- A verdict shows in INP_MK_STATUS; the harness check that may end with it keeps it (R70). -/
theorem State.verdict_get (s : State) (n v : Nat) : (s.verdict n v).get F.INP_MK_STATUS_VERDICT n = v % 8 := by
  unfold State.verdict
  dsimp only
  rw [State.startView_get (State.harnessEnd_startView _) _ _ _ _ (by decide), State.get_put_fld _ _ _ _ _ _ _ _ _ _ (by decide) (by decide),
    State.get_put_fld _ _ _ _ _ _ _ _ _ _ (by decide) (by decide), State.get_put_same _ _ _ _ _ _ (by decide)]
  rfl

/-- A line whose memory is ready gets the header READ; one that is absent or short its verdict (R70). -/
theorem execMarkMemoryReady_waiting (s : State) (n : Fin 8) (h : s.phase = Ph.taken) (hstage : (s.markOf n).stage = 1) :
    exec (.markMemoryReady n .ok) s = .next ((s.putMk n { s.markOf n with stage := 2 }).markRead n 0 16) ∧
      Gives (.markMemoryReady n .absent) s (fun t => t.get F.INP_MK_STATUS_VERDICT n = 2) ∧
      Gives (.markMemoryReady n .short) s (fun t => t.get F.INP_MK_STATUS_VERDICT n = 3) := by
  have hwaits : ¬(s.phase ≠ Ph.taken ∨ (s.markOf n).stage ≠ 1) := by simp [h, hstage]
  have hok : s.markReady n .ok = s.markSend n { s.markOf n with stage := 2 } := if_neg hwaits
  have habsent : s.markReady n .absent = s.verdict n 2 := if_neg hwaits
  have hshort : s.markReady n .short = s.verdict n 3 := if_neg hwaits
  exact ⟨congrArg Host.Outcome.next hok, ⟨_, congrArg Host.Outcome.next habsent, s.verdict_get n 2⟩,
    ⟨_, congrArg Host.Outcome.next hshort, s.verdict_get n 3⟩⟩

theorem State.markAnswer_header (s : State) (n : Nat) (l : List Nat) (crc : Nat) (h : s.phase = Ph.taken) (hstage : (s.markOf n).stage = 2) :
    s.markAnswer n l crc = if l.length ≠ 16 ∨ crc16 l ≠ crc then s.markFail n else s.markHeader n l := by
  unfold State.markAnswer
  simp [h, hstage]

theorem length_natsOf (l : List (BitVec 8)) : (natsOf l).length = l.length := List.length_map _

theorem execMarkAnswer_header (s : State) (n : Fin 8) (h : s.phase = Ph.taken) (hstage : (s.markOf n).stage = 2)
    (l : List (BitVec 8)) (crc : BitVec 16) (hlen : l.length = 16) (hcrc : crc16 (natsOf l) = crc.toNat) :
    exec (.markAnswer n l crc) s = .next (s.markHeader n (natsOf l)) :=
  congrArg Host.Outcome.next ((s.markAnswer_header n _ _ h hstage).trans (if_neg (by simp [length_natsOf, hlen, hcrc])))

theorem execMarkAnswer_bad (s : State) (n : Fin 8) (h : s.phase = Ph.taken) (hstage : (s.markOf n).stage = 2)
    (l : List (BitVec 8)) (crc : BitVec 16) (hbad : l.length ≠ 16 ∨ crc16 (natsOf l) ≠ crc.toNat) :
    exec (.markAnswer n l crc) s = .next (s.markFail n) :=
  congrArg Host.Outcome.next ((s.markAnswer_header n _ _ h hstage).trans (if_pos (by rwa [length_natsOf])))

theorem execMarkPreambleTimeout_reading (s : State) (n : Fin 8) (h : s.phase = Ph.taken) (hstage : (s.markOf n).stage = 2) :
    exec (.markPreambleTimeout n) s = .next (s.markFail n) :=
  congrArg Host.Outcome.next (if_neg (by simp [h, hstage]))

/-- A header that fails is read once more (R67). -/
theorem State.markFail_first (s : State) (n : Nat) (hstage : (s.markOf n).stage = 2) (h : (s.markOf n).again = false) :
    s.markFail n = (s.putMk n { s.markOf n with stage := 3, again := true }).put F.INP_MK_STATUS_REREAD 1 n := by
  unfold State.markFail
  simp [h, hstage]

/-- A second failure is READ_FAIL (R67). -/
theorem State.markFail_second (s : State) (n : Nat) (h : (s.markOf n).again = true) : (s.markFail n).get F.INP_MK_STATUS_VERDICT n = 4 := by
  have hfail : s.markFail n = s.verdict n 4 := if_pos h
  rw [hfail, State.verdict_get]

theorem execMarkIdleGapEnd_header (s : State) (n : Fin 8) (h : s.phase = Ph.taken) (hstage : (s.markOf n).stage = 3) :
    exec (.markIdleGapEnd n) s = .next ((s.putMk n { s.markOf n with stage := 2 }).markRead n 0 16) := by
  have hgap : s.markGap n = s.markSend n { s.markOf n with stage := 2 } := by
    unfold State.markGap
    simp [h, hstage]
  exact congrArg Host.Outcome.next hgap

theorem execMarkIdleGapEnd_body (s : State) (n : Fin 8) (h : s.phase = Ph.taken) (hstage : (s.markOf n).stage = 4 ∨ (s.markOf n).stage = 6) :
    exec (.markIdleGapEnd n) s =
      .next ((s.putMk n { s.markOf n with stage := 5 }).markRead n 16 (4 * at0 (s.markOf n).hdr 3 + 4)) := by
  have hgap : s.markGap n = s.markSend n { s.markOf n with stage := 5 } := by
    have hthree : (s.markOf n).stage ≠ 3 := by omega
    unfold State.markGap
    dsimp only
    rw [if_neg (not_not_intro h), if_neg hthree, if_pos hstage]
  exact congrArg Host.Outcome.next hgap

theorem execMarkLineShort_reading (s : State) (n : Fin 8) (h : s.phase = Ph.taken) (hcheck : s.start.checked = false)
    (hstage : 2 ≤ (s.markOf n).stage) (habsent : s.get F.INP_MK_STATUS_VERDICT n ≠ 2) (hshort : s.get F.INP_MK_STATUS_VERDICT n ≠ 3) :
    Gives (.markLineShort n) s fun t => t.get F.INP_MK_STATUS_VERDICT n = 3 := by
  have hmark : s.markShort n = s.verdict n 3 :=
    if_neg (by simp [h, hcheck, habsent, hshort]; omega)
  exact ⟨_, congrArg Host.Outcome.next hmark, s.verdict_get n 3⟩

/-! The end of a start (R60) and the SECURE image (R408, R409) -/

/-- Zone time starts from 0 (R60). -/
def State.zoneZero (s : State) : State := { s with ztm := { s.ztm with zone := 0, raw := 0, tb := 0, steps := 0 } }

/-- The start's last stages, in which the Lathe of an image with a program begins to run (R60). -/
def State.startRuns (s : State) : State :=
  let t := s.zoneZero.imageFields.allocateAll.offerAll.recRestore
  State.holdsEnd (if t.engine = Eng.starting then (t.latheInit true).enterRunning else t)

theorem State.startRuns_startView (s : State) : s.startRuns.startView = s.zoneZero.startView := by
  unfold State.startRuns
  dsimp only
  rw [State.holdsEnd_startView]
  split <;> simp

theorem State.startEnd_stages (s : State) (h : s.phase = Ph.taken) (hcheck : s.start.checked = true) :
    s.startEnd = { s.startRuns with start := { s.startRuns.start with phase := Ph.run, recUp := true } } := by
  unfold State.startEnd
  rw [if_neg (by simp [h, hcheck])]
  rfl

theorem execStartEnd_checked (s : State) (h : s.phase = Ph.taken) (hcheck : s.start.checked = true) :
    Gives .startEnd s fun t => t.phase = Ph.run ∧ t.start.recUp = true ∧ t.ztm.zone = 0 ∧ t.ztm.raw = 0 ∧ t.ztm.tb = 0 := by
  have hztm : s.startRuns.ztm = s.zoneZero.ztm := State.startView_ztm s.startRuns_startView
  refine ⟨_, congrArg Host.Outcome.next (s.startEnd_stages h hcheck), rfl, rfl, ?_⟩
  dsimp only
  rw [hztm]
  exact ⟨rfl, rfl, rfl⟩

theorem execSecureImageUpdate_run (s : State) (e : CopyEnd) (h : s.phase = Ph.run) (hsvc : s.get F.WLD_SVC_STATE = 0) :
    let u := match s.upd.journal with | some (3, b, p) => s.copyRun 3 b p e true | _ => s.stagedImage 3 e
    exec (.secureImageUpdate e) s = .next (if u.upd.journal.isSome then u else u.takeBank 3) :=
  congrArg Host.Outcome.next (if_neg (by simp [State.startDone, h, hsvc]))

/-- Settles O13: each row of a start is its branch of the model's operation; the stages after an image, a verdict or the end of a start keep
`startView`, so what they show last is what the row wrote. -/
theorem startRunsToItsEnd : Obligations.StartRunsToItsEnd := by
  unfold Obligations.StartRunsToItsEnd
  exact ⟨execBootRomRun_began, fun s mv h => ⟨execCarcassBankChecked_passed s mv h, fun e hbad =>
      ⟨execCarcassBankChecked_preferred s mv e h hbad, execCarcassBankChecked_second s mv e h hbad⟩⟩,
    fun s pass h => ⟨fun p => execMiStartTest_taken s p pass h, fun p => execPortStartTest_taken s p pass h,
      fun k => execCanStartTest_taken s k pass h, fun c => execCoreSelfTest_taken s c pass h, fun u => execSramSelfTest_taken s u pass h⟩,
    fun s n h => ⟨execMarkMemoryReady_waiting s n h,
      fun hstage => ⟨execMarkAnswer_header s n h hstage, execMarkAnswer_bad s n h hstage, execMarkPreambleTimeout_reading s n h hstage,
        s.markFail_first n hstage, s.markFail_second n⟩,
      execMarkIdleGapEnd_header s n h, execMarkIdleGapEnd_body s n h, execMarkLineShort_reading s n h⟩,
    execStartEnd_checked, execSecureImageUpdate_run⟩

end Sys2Proof.Machine

/-! SUPPORT. The fabric (ch. 2): the addresses of the register map (R33, R34) and what an arbitration point grants (R40 to R42). -/

namespace Sys2Proof.Machine

/-! Addresses (R33, R34) -/

/-- A position exists in the global window of a register that has one, and in a view of a register that views show. -/
theorem hasPos_of_kind (r : RegId) (view : Option (Fin 16)) (i j : Nat) (hglobal : view = none → (regDef r).kind ≠ .view)
    (hview : view ≠ none → (regDef r).kind ≠ .glob) (hi : i < (regDef r).n1) (hj : j < (regDef r).n2) : hasPos r view i j := by
  refine ⟨?_, hi, hj⟩
  cases view with
  | none => exact hglobal rfl
  | some n => exact hview (Option.some_ne_none n)

/-- Two positions with one address are one position: the address names each of them, and it names one alone. -/
theorem hitOf_eq_of_regAddr_eq (r r2 : RegId) (v v2 : Option (Fin 16)) (i j i2 j2 : Nat) (h : hasPos r v i j) (h2 : hasPos r2 v2 i2 j2)
    (heq : regAddr r v i j = regAddr r2 v2 i2 j2) : hitOf r v i j = hitOf r2 v2 i2 j2 :=
  Option.some.inj <|
    calc some (hitOf r v i j)
      _ = hitAt (regAddr r v i j) := (hitAt_hitOf r v i j h).symm
      _ = hitAt (regAddr r2 v2 i2 j2) := congrArg hitAt heq
      _ = some (hitOf r2 v2 i2 j2) := hitAt_hitOf r2 v2 i2 j2 h2

/-- Settles O5: the address map names every position that exists, and `hitAt` is a function of the address. -/
theorem registerAddressesNameOnePosition : Obligations.RegisterAddressesNameOnePosition := by
  unfold Obligations.RegisterAddressesNameOnePosition
  intro r r2 v v2 i j i2 j2 hglobal hview hi hj hglobal2 hview2 hi2 hj2
  have h := hasPos_of_kind r v i j hglobal hview hi hj
  have h2 := hasPos_of_kind r2 v2 i2 j2 hglobal2 hview2 hi2 hj2
  exact ⟨hitAt_hitOf r v i j h, hitOf_eq_of_regAddr_eq r r2 v v2 i j i2 j2 h h2⟩

/-! Arbitration (R40 to R42) -/

/-- Claim `b` does not stand before `a`: `a` has the lower rank, or its rank and a drawer at most as far above the pointer. -/
def Claim.notAfter (p : Nat) (rank : Claim → Nat) (a b : Claim) : Prop :=
  rank a < rank b ∨ (rank a = rank b ∧ ptrDist p a.drawer ≤ ptrDist p b.drawer)

theorem Claim.notAfter_refl (p : Nat) (rank : Claim → Nat) (a : Claim) : a.notAfter p rank a := .inr ⟨rfl, le_rfl⟩

theorem Claim.notAfter_trans {p : Nat} {rank : Claim → Nat} {a b c : Claim} (hab : a.notAfter p rank b) (hbc : b.notAfter p rank c) :
    a.notAfter p rank c := by
  unfold Claim.notAfter at *
  omega

/-- A claim that goes before another does not stand after it. -/
theorem Claim.notAfter_of_before {p : Nat} {rank : Claim → Nat} {a b : Claim} (h : a.before p (rank a) (rank b) b = true) :
    a.notAfter p rank b := by
  unfold Claim.before at h
  unfold Claim.notAfter
  by_cases hrank : rank a = rank b
  · by_cases hdrawer : a.drawer = b.drawer
    · exact .inr ⟨hrank, hdrawer ▸ le_rfl⟩
    · rw [if_neg (not_not_intro hrank), if_pos hdrawer, decide_eq_true_eq] at h
      exact .inr ⟨hrank, h.le⟩
  · rw [if_pos hrank, decide_eq_true_eq] at h
    exact .inl h

/-- Of two claims, one that does not go before the other does not stand before it. -/
theorem Claim.notAfter_of_not_before {p : Nat} {rank : Claim → Nat} {a b : Claim} (h : ¬b.before p (rank b) (rank a) a = true) :
    a.notAfter p rank b := by
  unfold Claim.before at h
  unfold Claim.notAfter
  by_cases hrank : rank b = rank a
  · by_cases hdrawer : b.drawer = a.drawer
    · exact .inr ⟨hrank.symm, hdrawer ▸ le_rfl⟩
    · rw [if_neg (not_not_intro hrank), if_pos hdrawer, decide_eq_true_eq, not_lt] at h
      exact .inr ⟨hrank.symm, h⟩
  · rw [if_pos hrank, decide_eq_true_eq] at h
    omega

/-- Among claims a pick is one of them, and no other stands before it. -/
theorem claimPick_first (p : Nat) (rank : Claim → Nat) (l : List Claim) (hl : l ≠ []) :
    ∃ c ∈ l, claimPick p rank l = some c ∧ ∀ b ∈ l, c.notAfter p rank b := by
  induction l with
  | nil => exact absurd rfl hl
  | cons a l ih =>
    by_cases hne : l = []
    · subst hne
      exact ⟨a, List.mem_singleton_self a, rfl, fun b hb => List.mem_singleton.1 hb ▸ a.notAfter_refl p rank⟩
    obtain ⟨c, hc, hpick, hfirst⟩ := ih hne
    have hcons : claimPick p rank (a :: l) = if c.before p (rank c) (rank a) a then some c else some a := by rw [claimPick, hpick]
    by_cases hbefore : c.before p (rank c) (rank a) a = true
    · refine ⟨c, List.mem_cons_of_mem a hc, by rw [hcons, if_pos hbefore], List.forall_mem_cons.2 ⟨?_, hfirst⟩⟩
      exact Claim.notAfter_of_before hbefore
    · refine ⟨a, List.mem_cons_self, by rw [hcons, if_neg hbefore], List.forall_mem_cons.2 ⟨a.notAfter_refl p rank, fun b hb => ?_⟩⟩
      exact Claim.notAfter_trans (Claim.notAfter_of_not_before hbefore) (hfirst b hb)

/-- A grant moves the pointer past the granted drawer (R41). -/
theorem State.arbMove_ptr (s : State) (k : Nat) (d : Fin 16) : (s.arbMove k d).get F.FAB_ARB_PTR_PTR k = (d.val + 1) % 16 := by
  unfold State.arbMove
  rw [State.get_put_same _ _ _ _ _ _ (by decide)]
  exact Nat.mod_mod _ _

theorem execArbitrationGrant_eq (s : State) (k : Fin 12) (l : List Claim) (hk : k ≠ 4) :
    exec (.arbitrationGrant k l) s = .next (s.arbGrant k l) := congrArg Host.Outcome.next (if_neg hk)

theorem State.arbGrant_none (s : State) (k : Nat) (l : List Claim) (h : l.filter (s.mayClaim k) = []) : s.arbGrant k l = s := by
  unfold State.arbGrant
  rw [h]
  rfl

theorem State.arbGrant_some (s : State) (k : Nat) (l : List Claim) (c : Claim)
    (h : claimPick (s.get F.FAB_ARB_PTR_PTR k) (s.claimRank k) (l.filter (s.mayClaim k)) = some c) : s.arbGrant k l = s.arbMove k c.drawer := by
  unfold State.arbGrant
  rw [h]

/-- Settles O11: the pick over the list of claims keeps one that no claim seen so far stands before. -/
theorem grantsRotateThePointer : Obligations.GrantsRotateThePointer := by
  unfold Obligations.GrantsRotateThePointer
  intro s k l hk cs
  rw [execArbitrationGrant_eq s k l hk]
  refine ⟨fun hnone => by rw [s.arbGrant_none k l hnone], fun hsome => ?_⟩
  obtain ⟨c, hc, hpick, hfirst⟩ := claimPick_first (s.get F.FAB_ARB_PTR_PTR k) (s.claimRank k) cs hsome
  exact ⟨c, hc, hfirst, by rw [s.arbGrant_some k l c hpick], s.arbMove_ptr k c.drawer⟩

end Sys2Proof.Machine

/-! SUPPORT. What an access that fails its check leaves (R37, R48). -/

namespace Sys2Proof.Machine

/-! The parts of the state that a refusal changes -/

theorem State.aerr_eq (s : State) (tag : Tag) (addr : Nat) (write : Bool) (cause : Nat) :
    s.aerr tag addr write cause = { s with regs := (s.aerr tag addr write cause).regs, drw := (s.aerr tag addr write cause).drw } := by
  unfold State.aerr
  rw [State.faultRecord_eq]
  split <;> rfl

theorem State.addFailure_eq (s : State) (d src tag cause : Nat) :
    s.addFailure d src tag cause = { s with dwl := (s.addFailure d src tag cause).dwl } := by
  unfold State.addFailure
  extract_lets
  repeat' split
  all_goals rfl

theorem State.hartTrap_eq (s : State) (h code : Nat) : s.hartTrap h code = { s with hart := (s.hartTrap h code).hart } := by
  unfold State.hartTrap
  extract_lets
  split <;> rfl

theorem State.accessTrap_eq (s : State) (a : Access) (cause : Nat) :
    s.accessTrap a cause = { s with hart := (s.accessTrap a cause).hart } := by
  unfold State.accessTrap
  split_ifs
  · rfl
  · exact State.hartTrap_eq _ _ _
  · exact State.hartTrap_eq _ _ _
  · exact State.hartTrap_eq _ _ _
  · rfl

theorem State.mtrLogged_eq (s : State) (a : Access) : s.mtrLogged a = { s with mtr := (s.mtrLogged a).mtr } := by
  unfold State.mtrLogged
  split <;> rfl

/-- Beyond its record, a refusal changes only the failures listed, the hart that traps and copy A's log, and the answer is a failure with
zero data. -/
theorem State.denied_changes (s : State) (a : Access) (cause : Nat) : ∃ dwl hart mtr,
    s.denied a cause = { s.aerr a.tag a.addr a.op.writes cause with dwl := dwl, hart := hart, mtr := mtr, resp := ⟨false, 0⟩ } := by
  unfold State.denied
  generalize s.aerr a.tag a.addr a.op.writes cause = t
  have hlist : ∃ dwl, (if a.seq = 0 then t else t.addFailure a.tag.drawer a.tag.src.code a.seq cause) = { t with dwl := dwl } := by
    split
    · exact ⟨t.dwl, rfl⟩
    · exact ⟨_, State.addFailure_eq _ _ _ _ _⟩
  obtain ⟨dwl, hdwl⟩ := hlist
  dsimp only
  rw [hdwl, State.mtrLogged_eq, State.accessTrap_eq]
  exact ⟨_, _, _, rfl⟩

/-! The error record (R48) -/

section record
variable (s : State) (tag : Tag) (addr : Nat) (write : Bool) (cause : Nat)

/-- FAB_AERR_ADDR and FAB_AERR_INFO as the first error fills them. -/
def State.aerrFill : State :=
  (((((((s.put F.FAB_AERR_ADDR_LO_ADDR addr).put F.FAB_AERR_ADDR_HI_ADDR (addr / 2 ^ 32)).put F.FAB_AERR_INFO_CAUSE cause).put
    F.FAB_AERR_INFO_WRITE (b2n write)).put F.FAB_AERR_INFO_WORLD (b2n tag.secure)).put F.FAB_AERR_INFO_DRAWER tag.drawer.val).put
    F.FAB_AERR_INFO_SOURCE tag.src.code).put F.FAB_AERR_INFO_VALID 1

/-- An access error: the first one fills the record, each one counts, and the drawer of its tag gets a fault record. -/
theorem State.aerr_record : s.aerr tag addr write cause =
    ((if s.is F.FAB_AERR_INFO_VALID then s else s.aerrFill tag addr write cause).bump F.FAB_AERR_COUNT_COUNT 1).faultRecord
      tag.drawer.val cause tag.src.code write addr 0 0 := rfl

theorem State.aerrFill_valid : (s.aerrFill tag addr write cause).get F.FAB_AERR_INFO_VALID = 1 :=
  State.get_put_same _ _ _ _ _ _ (by decide)

theorem State.aerrFill_cause : (s.aerrFill tag addr write cause).get F.FAB_AERR_INFO_CAUSE = cause % 16 := by
  unfold State.aerrFill
  iterate 5 rw [State.get_put_fld _ _ _ _ _ _ _ _ _ _ (by decide) (by decide)]
  exact State.get_put_same _ _ _ _ _ _ (by decide)

theorem State.aerrFill_count : (s.aerrFill tag addr write cause).get F.FAB_AERR_COUNT_COUNT = s.get F.FAB_AERR_COUNT_COUNT := by
  unfold State.aerrFill
  iterate 8 rw [State.get_put_reg _ _ _ _ _ _ _ _ _ _ (by decide)]

/-- FAB_AERR_INFO after an error is the record of the first error since it was last cleared. -/
theorem State.aerr_get_info (y : Fld) (hy : y.reg = .FAB_AERR_INFO) :
    (s.aerr tag addr write cause).get y = (if s.is F.FAB_AERR_INFO_VALID then s else s.aerrFill tag addr write cause).get y := by
  rw [State.aerr_record, State.faultRecord_get _ _ _ _ _ _ _ _ _ _ _ _ (by rw [hy]; decide) (by rw [hy]; decide),
    State.bump_get_ne _ _ _ _ _ _ _ _ _ _ (by rw [hy]; decide)]

/-- An error leaves FAB_AERR_INFO valid. -/
theorem State.aerr_valid : (s.aerr tag addr write cause).is F.FAB_AERR_INFO_VALID = true := by
  unfold State.is
  rw [State.aerr_get_info _ _ _ _ _ _ rfl]
  split
  · assumption
  · rw [State.aerrFill_valid]; rfl

/-- The first error gives FAB_AERR_INFO its cause. -/
theorem State.aerr_cause (h : s.is F.FAB_AERR_INFO_VALID = false) : (s.aerr tag addr write cause).get F.FAB_AERR_INFO_CAUSE = cause % 16 := by
  rw [State.aerr_get_info _ _ _ _ _ _ rfl, h]
  exact s.aerrFill_cause tag addr write cause

/-- Every error counts, up to the largest value. -/
theorem State.aerr_count :
    (s.aerr tag addr write cause).get F.FAB_AERR_COUNT_COUNT = min (s.get F.FAB_AERR_COUNT_COUNT + 1) (2 ^ 32 - 1) := by
  have hkept : (if s.is F.FAB_AERR_INFO_VALID then s else s.aerrFill tag addr write cause).get F.FAB_AERR_COUNT_COUNT =
      s.get F.FAB_AERR_COUNT_COUNT := by
    split
    · rfl
    · exact s.aerrFill_count tag addr write cause
  rw [State.aerr_record, State.faultRecord_get _ _ _ _ _ _ _ _ _ _ _ _ (by decide) (by decide)]
  unfold State.bump
  rw [State.get_put_same _ _ _ _ _ _ (by decide), hkept]
  exact Nat.mod_eq_of_lt (lt_of_le_of_lt (Nat.min_le_right _ _) (by decide))

end record

/-- What a refusal leaves and what it records (R37, R48). -/
theorem State.denied_spec (s : State) (a : Access) (cause : Nat) :
    let t := s.denied a cause
    t.mem = s.mem ∧ t.resp = ⟨false, 0⟩ ∧ t.lth = s.lth ∧ t.dvt = s.dvt ∧ t.til = s.til ∧ t.ring = s.ring ∧
      t.is F.FAB_AERR_INFO_VALID = true ∧ (s.is F.FAB_AERR_INFO_VALID = false → t.get F.FAB_AERR_INFO_CAUSE = cause % 16) ∧
      t.get F.FAB_AERR_COUNT_COUNT = min (s.get F.FAB_AERR_COUNT_COUNT + 1) (2 ^ 32 - 1) := by
  have hvalid := s.aerr_valid a.tag a.addr a.op.writes cause
  have hcause := s.aerr_cause a.tag a.addr a.op.writes cause
  have hcount := s.aerr_count a.tag a.addr a.op.writes cause
  have hkept := s.aerr_eq a.tag a.addr a.op.writes cause
  obtain ⟨dwl, hart, mtr, hdenied⟩ := s.denied_changes a cause
  generalize s.aerr a.tag a.addr a.op.writes cause = u at *
  rw [hdenied]
  refine ⟨?_, rfl, ?_, ?_, ?_, ?_, hvalid, hcause, hcount⟩ <;> rw [hkept]

/-- An access that a check refuses is denied with the first failing check's cause, its sequence tag used up (R36, R345). -/
theorem State.access_denied (s : State) (a : Access) (hawake : s.awake = true) (h : (s.tagTaken a).cause (s.tagGiven a) ≠ 0) :
    s.access a = (s.tagTaken a).denied (s.tagGiven a) ((s.tagTaken a).cause (s.tagGiven a)) := by
  unfold State.access
  rw [hawake, if_neg (by decide), if_neg h]

/-- Settles O7: what a master presents is denied on the state that has used its sequence tag, and a tag changes `seqs` alone. -/
theorem refusedAccessesChangeNothing : Obligations.RefusedAccessesChangeNothing := by
  unfold Obligations.RefusedAccessesChangeNothing
  intro s m addr size op data a hpresents hawake hcause
  have hissue : s.issue m addr.toNat size op data.toNat = _ :=
    (s.issue_presents m addr.toNat size op data.toNat a hpresents).trans (s.access_denied a hawake hcause)
  refine ⟨_, congrArg Host.Outcome.next hissue, ?_⟩
  have hspec := (s.tagTaken a).denied_spec (s.tagGiven a) ((s.tagTaken a).cause (s.tagGiven a))
  generalize (s.tagTaken a).denied _ _ = t at hspec ⊢
  generalize (s.tagTaken a).cause _ = n at hspec ⊢
  rwa [s.tagTaken_eq a] at hspec

end Sys2Proof.Machine

/-! SUPPORT. The frame of every command over memory (R33, R229): one that may not store leaves memory as it was. -/

namespace Sys2Proof.Machine

/-- What a command that completes leaves of memory is what its operation leaves. -/
theorem mem_of_next {s t u : State} (hexec : (Host.Outcome.next u : Out) = .next t) (h : u.mem = s.mem) : t.mem = s.mem := by
  cases hexec
  exact h

/-- A command outside `mayStore` is built of operations that leave memory: each family has its own, and their laws are the `_mem` lemmas. -/
theorem exec_mem_of_not_mayStore (c : Instr) (s t : State) (h : mayStore c = false) (hexec : exec c s = .next t) : t.mem = s.mem := by
  cases c
  -- starts and supplies (ch. 3)
  case carcassBankChecked | miStartTest | portStartTest | canStartTest | coreSelfTest | sramSelfTest | markMemoryReady | markAnswer |
      markPreambleTimeout | markIdleGapEnd | markLineShort | markLineLost | startEnd | vlogFail | choldOkReached | feedLoss |
      feedReturn | dieReloadDone =>
    exact mem_of_next hexec (by simp)
  -- arbitration and claims (ch. 2)
  case arbitrationGrant | claimBoundExpiry =>
    exact mem_of_next hexec (by simp)
  -- drawers, rings and dirty logging (ch. 4, 11)
  case moveCommit | moveDone | drainEscalation | drawerResetComplete | descriptorFetch | ringFault | rxHoldExpiry | ethTxCellRead |
      dirtySwapDone =>
    exact mem_of_next hexec (by simp)
  case invalDone who =>
    cases who with
    | none => exact mem_of_next hexec (by simp)
    | some d => exact mem_of_next hexec (by simp)
  -- channels, holds and feeds (ch. 5, 6)
  case slewEnd | inrushWindowEnd | edgeComplete | activationGapEnd | pwmPeriodStart | pwmDutyEnd | drvLevelChange | ocWarnChange |
      tempWarnChange | tempLatchRelease | openLoadOnstate | offStateCheckTick | offStateShortSample | offStateOpenSample | restart |
      episodeClose | retirementRecord | holdMsExpiry | feedMean | shedStep | restore =>
    exact mem_of_next hexec (by simp)
  -- inputs and Clamp rules (ch. 7)
  case clampResultTrue | clampResultFalse | miLevelChange | analogConversion | freqRisingEdge | freqStall =>
    exact mem_of_next hexec (by simp)
  -- the Lathe's tasks and commits (ch. 8)
  case taskRelease | latchComplete | instanceLimit | commit | errorTaskRelease | latheInitEnd | retentiveSaveDone | latheReloadDone =>
    exact mem_of_next hexec (by simp)
  -- operations of a lane, which write slots and the task's flag (R164 to R170)
  case opNop | opMov | opLdb | opLdbn | opAndb | opAndbn | opOrb | opOrbn | opXorb | opStb | opStbn | opSetb | opRstb | opNotf | opLdf |
      opStf | opAdd | opSub | opMul | opDiv | opMod | opAnd | opOr | opXor | opNot | opShl | opShr | opSar | opRol | opMin | opMax |
      opLimit | opEq | opNe | opLt | opLe | opGt | opGe | opLtu | opGeu | opFadd | opFsub | opFmul | opFdiv | opFsqrt | opFmin |
      opFmax | opFabs | opFneg | opFlt | opFle | opFeq | opItof | opFtoi | opSel | opRedge | opFedge | opTon | opTof | opTp | opCtu |
      opCtd | opCload | opJmp | opJf | opJnf | opCall | opRet | opEnd | opRdtb | opRdzt | opTrap =>
    exact mem_of_next hexec (by simp)
  case opLdx l c d a b =>
    refine mem_of_next hexec (State.laneOp_mem _ _ _ _ _ _ fun u k => ?_)
    cases u.indexed k a b with
    | none => simp
    | some n => simp
  case opStx l c d a b =>
    refine mem_of_next hexec (State.laneOp_mem _ _ _ _ _ _ fun u k => ?_)
    cases u.indexed k a b with
    | none => simp
    | some n => simp
  -- stations, online change and forces (ch. 9)
  case stationIn | stationAllowanceExpiry | stationSyncTimeout | changeApply | changeTimeout | forceApply =>
    exact mem_of_next hexec (by simp)
  -- the Mitre unit (ch. 10)
  case mitreSelfTest | copyAEnd | resyncEnd =>
    exact mem_of_next hexec (by simp)
  -- the switch (ch. 12)
  case switchFrameArrival | egressSelect | egressDone | launchTime | fdbAgingScan | gateCycleStart | gateEntryEnd | frerResetTimeout |
      captureBufferTimeout | fdbOperationDone =>
    exact mem_of_next hexec (by simp)
  -- ports (ch. 13)
  case trainingComplete | trainingTimeLimit | linkLoss | pauseExpiry | pauseWatchdog | verifyTimer | respondMpacket | collision |
      backoffExpiry | phyFault =>
    exact mem_of_next hexec (by simp)
  -- zone time (ch. 14)
  case zoneHalf | fallbackLossTimeout | referencePeriod | referenceMessageRx =>
    exact mem_of_next hexec (by simp)
  -- CAN controllers (ch. 15)
  case canBusIntegrated | canRecoveryDone | canError | canProtocolException | canOvertemp | canFrameStart | canArbLost | canArbWon |
      canTxComplete | canRxFrame | canRxDeliver | tunnelTxRelease | acfRx =>
    exact mem_of_next hexec (by simp)
  -- the bridge (ch. 16)
  case pciePoisonedWrite | functionLevelReset | vfEnableClear | pcieLinkDown | prefetchLineExpiry | postedWriteFailure |
      hostReadFailure | interruptScan | msixPendingSend | pcieLinkUp | pcieConfigWrite =>
    exact mem_of_next hexec (by simp)
  -- worlds and debug (ch. 17)
  case wcall | gate | wret | wrldWipeEnd | debugHalt | debugStep | debugResume | hdrawerWrite =>
    exact mem_of_next hexec (by simp)
  -- the Till (ch. 18)
  case tillCommandDone | entropyHealthFail | entropyRestartPass =>
    exact mem_of_next hexec (by simp)
  -- the recorder (ch. 19)
  case sampleMerge | flushPeriodic | flushDone | logDeliver | logBufferTimeout | traceLevelUpdate =>
    exact mem_of_next hexec (by simp)
  -- image update (ch. 20)
  case updateBegin | updateBlock | updateEnd | updateAbort | updateCommandDone =>
    exact mem_of_next hexec (by simp)
  -- faults at run time (ch. 21, R127)
  case scrubRead | sramCorrectableError | hardShortWindowEnd | ceWindowEnd =>
    exact mem_of_next hexec (by simp)
  -- what is left may store
  all_goals exact Bool.noConfusion h

/-- Settles O9: a command that may not store leaves memory itself, and so each of its bytes. -/
theorem otherCommandsLeaveMemory : Obligations.OtherCommandsLeaveMemory := by
  unfold Obligations.OtherCommandsLeaveMemory
  intro c s t h hexec x
  rw [exec_mem_of_not_mayStore c s t h hexec]

end Sys2Proof.Machine

/-! SUPPORT. Supplies (R50 to R52, R454): what a power failure, a feed and a die's reload leave of the units they do not reach. -/

namespace Sys2Proof.Machine

/-! Dies, and what the operations of a channel leave of the list of dies without state -/

section lost
variable (s : State)

theorem State.putLost_dieLost_same (b : Nat) (v : Bool) : (s.putLost b v).dieLost b = v := storeGet_put_same _ _ _ _

theorem State.putLost_dieLost_ne (b d : Nat) (v : Bool) (h : d ≠ b) : (s.putLost b v).dieLost d = s.dieLost d :=
  storeGet_put_ne _ _ _ _ _ _ h

theorem State.dieLost_congr {s t : State} (h : t.load.lost = s.load.lost) (b : Nat) : t.dieLost b = s.dieLost b := by
  unfold State.dieLost
  rw [h]

@[simp] theorem State.putLc_lost (c : Nat) (x : LoadCh) : (s.putLc c x).load.lost = s.load.lost := rfl
@[simp] theorem State.wireOf_lost (c : Nat) : (s.wireOf c).load.lost = s.load.lost := rfl
@[simp] theorem State.freshProt_lost (c : Nat) : (s.freshProt c).load.lost = s.load.lost := rfl

@[simp] theorem State.offDone_lost (c : Nat) : (s.offDone c).load.lost = s.load.lost := by
  unfold State.offDone
  dsimp only
  generalize (if (s.decide_ c).2 = 2 then 2 else 0) = out
  split <;> rfl

@[simp] theorem State.turnOn_lost (c : Nat) : (s.turnOn c).load.lost = s.load.lost := by
  unfold State.turnOn State.free
  dsimp only
  split
  · simp
  · split <;> simp

@[simp] theorem State.applyCmd_lost (c cmd : Nat) (fast : Bool) : (s.applyCmd c cmd fast).load.lost = s.load.lost := by
  unfold State.applyCmd
  dsimp only
  (repeat' split) <;> simp

@[simp] theorem State.resolve_lost (c : Nat) : (s.resolve c).load.lost = s.load.lost := by
  unfold State.resolve
  split
  · rfl
  · simp

@[simp] theorem State.clampChan_lost (c : Nat) : (s.clampChan c).load.lost = s.load.lost := by
  unfold State.clampChan
  simp

@[simp] theorem State.retiredBy_lost (c cause : Nat) : (s.retiredBy c cause).load.lost = s.load.lost := by
  unfold State.retiredBy
  simp

@[simp] theorem State.dieClear_lost (b : Nat) : (s.dieClear b).load.lost = s.load.lost :=
  (State.each_inv (·.load.lost) _ _ _ fun t c => by simp).trans rfl

end lost

/-! What the clearing of a die leaves of the registers (R51, R454) -/

/-- A reset that selects no field of a register leaves it. -/
theorem regGet_resetBy_none (p : RegId → Nat → Nat → FieldDef → Bool) (l : RegFile) (r : RegId) (i j cp : Nat)
    (h : ∀ a b f, p r a b f = false) : regGet (regResetBy p l) r i j cp = regGet l r i j cp := by
  have hnone : p r (cpOfKey (keyOf r cp i j)) (idxOfKey (keyOf r cp i j)) = fun _ => false := funext fun f => h _ _ f
  rw [regGet_resetBy, hnone]
  exact List.foldl_fixed' (fun _ => if_neg Bool.false_ne_true) _

/-- The clearing of a die writes registers of the window LCH alone. -/
theorem State.dieClear_get (s : State) (b : Nat) (y : Fld) (i j cp : Nat) (hl : (regDef y.reg).win ≠ .lch) :
    (s.dieClear b).get y i j cp = s.get y i j cp := by
  have hput : ∀ (t : State) (x : Fld) (v c : Nat), (regDef x.reg).win = .lch → (t.put x v c).get y i j cp = t.get y i j cp :=
    fun t x v c hx => State.put_lch_get y i j cp hl t x v c 0 0 hx
  have hfresh : ∀ (t : State) (c : Nat) (x : LoadCh), ((t.freshProt c).putLc c x).get y i j cp = t.get y i j cp := fun t c x => by
    unfold State.freshProt
    dsimp only
    rw [State.putLc_get, State.putLc_get, hput _ _ _ _ rfl, hput _ _ _ _ rfl, hput _ _ _ _ rfl, hput _ _ _ _ rfl]
  have hout : ∀ q ∈ [RegId.LCH_FLAGS, .LCH_STATE, .LCH_PROT], (y.reg == q) = false := fun q hq =>
    beq_eq_false_iff_ne.2 fun e => hl (by
      rw [e]
      exact (by decide : ∀ q ∈ [RegId.LCH_FLAGS, .LCH_STATE, .LCH_PROT], (regDef q).win = Win.lch) q hq)
  refine (State.each_inv (·.get y i j cp) _ _ _ fun t c => hfresh t c _).trans ?_
  unfold State.get
  dsimp only
  rw [regGet_resetBy_none]
  intro a c f
  simp [hout]

/-! Feeds (R51, R136, R454) -/

/-- The field of FAB_PWR_STATUS that shows a feed. -/
def feedFld (f : Nat) : Fld := if f = 0 then F.FAB_PWR_STATUS_FEEDA_OK else F.FAB_PWR_STATUS_FEEDB_OK

theorem feedFld_reg (f : Nat) : (feedFld f).reg = .FAB_PWR_STATUS := by
  unfold feedFld
  split <;> rfl

theorem feedFld_bit (f : Nat) : (feedFld f).hi < 32 ∧ (feedFld f).hi = (feedFld f).lo := by
  unfold feedFld
  split <;> decide

theorem State.feedOk_eq (s : State) (f : Nat) : s.feedOk f = s.is (feedFld f) := by
  unfold State.feedOk feedFld
  split <;> rfl

theorem State.is_of_get {s : State} {x : Fld} {i j cp v : Nat} (h : s.get x i j cp = v) : s.is x i j cp = (v == 1) := by
  unfold State.is
  rw [h]

theorem State.feedOk_of_get {s t : State} (f : Nat) (h : ∀ y : Fld, y.reg = .FAB_PWR_STATUS → t.get y = s.get y) : t.feedOk f = s.feedOk f := by
  rw [State.feedOk_eq, State.feedOk_eq, State.is_of_get (h _ (feedFld_reg f)), State.is]

/-- A feed shows what its comparator was put to. -/
theorem State.put_feedFld_feedOk (s : State) (f v : Nat) : (s.put (feedFld f) v).feedOk f = (v % 2 == 1) := by
  obtain ⟨hhi, hbit⟩ := feedFld_bit f
  have hwidth : (feedFld f).hi + 1 - (feedFld f).lo = 1 := by omega
  rw [State.feedOk_eq, State.is_of_get (State.get_put_same _ _ _ _ _ _ hhi), hwidth, Nat.pow_one]

/-- The loss of a feed takes the state of its dies. -/
def State.feedDies (s : State) (f : Nat) : State := s.each (diesOf f) fun s b => (s.dieClear b).putLost b true

theorem State.feedLoss_stages (s : State) (f : Nat) : s.feedLoss f =
    (((s.put (feedFld f) 0).feedDies f).putFd f { FeedSt.por with limit := (((s.put (feedFld f) 0).feedDies f).fd f).limit }).put
      F.FEED_STATUS_OVER 0 f := rfl

theorem State.feedDies_get (s : State) (f : Nat) (y : Fld) (i j cp : Nat) (hl : (regDef y.reg).win ≠ .lch) :
    (s.feedDies f).get y i j cp = s.get y i j cp :=
  State.each_inv (·.get y i j cp) _ _ _ fun t b => (State.get_congr _ _ rfl _ _ _ _).trans (t.dieClear_get b y i j cp hl)

/-- Both dies of a lost feed are without state. -/
theorem State.feedDies_dieLost (s : State) (f : Nat) :
    (s.feedDies f).dieLost (2 * f) = true ∧ (s.feedDies f).dieLost (2 * f + 1) = true := by
  have hfirst : ((s.dieClear (2 * f)).putLost (2 * f) true).dieLost (2 * f) = true := State.putLost_dieLost_same _ _ _
  refine ⟨?_, State.putLost_dieLost_same _ _ _⟩
  refine (State.putLost_dieLost_ne _ (2 * f + 1) (2 * f) _ (by omega)).trans ?_
  rw [State.dieLost_congr (State.dieClear_lost _ _), hfirst]

theorem execFeedLoss_gives (s : State) (f : Fin 2) : Gives (.feedLoss f) s fun t =>
    t.feedOk f = false ∧ t.dieLost (2 * f) = true ∧ t.dieLost (2 * f + 1) = true ∧ t.is F.FEED_STATUS_OVER f = false := by
  obtain ⟨hlow, hhigh⟩ := (s.put (feedFld f) 0).feedDies_dieLost f
  refine ⟨_, congrArg Host.Outcome.next (s.feedLoss_stages f), ?_, hlow, hhigh, ?_⟩
  · refine (State.feedOk_of_get f fun y hy => ?_).trans (s.put_feedFld_feedOk f 0)
    rw [State.get_put_reg _ _ _ _ _ _ _ _ _ _ (by rw [hy]; decide), State.putFd_get, State.feedDies_get _ _ _ _ _ _ (by rw [hy]; decide)]
  · exact State.is_of_get (State.get_put_same _ _ _ _ _ _ (by decide))

theorem State.putFd_fd (s : State) (f : Nat) (x : FeedSt) : (s.putFd f x).fd f = x := storeGet_put_same _ _ _ _

/-- The return of a feed puts its logic into the POR state under the limit in force; its dies stay without theirs (R51, R136). -/
theorem execFeedReturn_gives (s : State) (f : Fin 2) (h : s.feedOk f = false) : Gives (.feedReturn f) s fun t =>
    t.feedOk f = true ∧ t.load.lost = s.load.lost ∧ (t.fd f).limit = (s.fd f).limit := by
  have hback : s.feedReturn f = (s.put (feedFld f) 1).putFd f { FeedSt.por with limit := ((s.put (feedFld f) 1).fd f).limit } :=
    if_neg (by rw [h]; decide)
  refine ⟨_, congrArg Host.Outcome.next hback, ?_, rfl, ?_⟩
  · exact (State.feedOk_of_get f fun y _ => State.putFd_get _ _ _ _ _ _ _).trans (s.put_feedFld_feedOk f 1)
  · rw [State.putFd_fd]
    rfl

/-! A die's reload (R454) -/

/-- One channel of a die that is reloaded. -/
def State.chanReload (s : State) (c : Nat) : State :=
  let t := (s.wireOf c).setDrive c (s.driveNow c)
  let t := if t.segRetired c then t.retiredBy c 3 else t.put F.LCH_PROT_RETIRE_CAUSE 0 c
  (if t.start.blocked.contains c then t.setFlag c Flag.harnessBlock else t).clampChan c

@[simp] theorem State.chanReload_lost (s : State) (c : Nat) : (s.chanReload c).load.lost = s.load.lost := by
  unfold State.chanReload
  dsimp only
  rw [State.clampChan_lost]
  (repeat' split) <;> simp

theorem State.dieReload_stages (s : State) (b : Nat) (hlost : s.dieLost b = true) (hfeed : s.feedOk (b / 2) = true) (hawake : s.awake = true)
    (himg : s.img.isSome = true) :
    s.dieReload b = ((s.dieClear b).putLost b false).each (s.chans.filter fun c => bankOf c == b) State.chanReload :=
  if_neg (by simp [hlost, hfeed, hawake, himg])

theorem execDieReloadDone_gives (s : State) (b : Fin 4) (hlost : s.dieLost b = true) (hfeed : s.feedOk (b / 2) = true)
    (hawake : s.awake = true) (himg : s.img.isSome = true) :
    Gives (.dieReloadDone b) s fun t => t.dieLost b = false ∧ ∀ d, d ≠ b.val → t.dieLost d = s.dieLost d := by
  have hkept : ∀ d, (((s.dieClear b).putLost b false).each (s.chans.filter fun c => bankOf c == b.val) State.chanReload).dieLost d =
      ((s.dieClear b).putLost b false).dieLost d :=
    State.dieLost_congr (State.each_inv (·.load.lost) _ _ _ State.chanReload_lost)
  refine ⟨_, congrArg Host.Outcome.next (s.dieReload_stages b hlost hfeed hawake himg), ?_, fun d hd => ?_⟩
  · rw [hkept, State.putLost_dieLost_same]
  · rw [hkept, State.putLost_dieLost_ne _ _ _ _ hd, State.dieLost_congr (s.dieClear_lost b)]

end Sys2Proof.Machine

/-! SUPPORT. The loss of VLOG (R50, R52, R155, R181): what stops in RUN, and what the saves before power goes leave. -/

namespace Sys2Proof.Machine

/-! The end of the Lathe's and the Mitre unit's work (R52) -/

section stops
variable (s : State)

/-- What a lane takes next changes the Lathe alone (R172). -/
theorem State.laneNext_eq (l : Nat) : s.laneNext l = { s with lth := (s.laneNext l).lth } := by
  unfold State.laneNext
  split
  · split <;> rfl
  · rfl

/-- The abandonment of a run changes the Lathe alone (R159). -/
theorem State.abandon_eq (k : Nat) : s.abandon k = { s with lth := (s.abandon k).lth } := by
  unfold State.abandon
  dsimp only
  split
  · rw [State.laneNext_eq]
    rfl
  · rfl

theorem State.abandon_get (k : Nat) (y : Fld) (i j cp : Nat) : (s.abandon k).get y i j cp = s.get y i j cp := by
  rw [State.abandon_eq]
  rfl

/-- A stop request changes the Mitre unit and its state register alone (R222). -/
theorem State.mtrStopReq_eq : s.mtrStopReq = { s with regs := s.mtrStopReq.regs, mtr := s.mtrStopReq.mtr } := by
  unfold State.mtrStopReq
  (repeat' split) <;> rfl

theorem State.mtrStopReq_get (y : Fld) (i j cp : Nat) (h : y.reg ≠ .MTR_STATE) : s.mtrStopReq.get y i j cp = s.get y i j cp := by
  have hput : ∀ (t : State) (x : Fld) (v : Nat), x.reg = .MTR_STATE → (t.put x v).get y i j cp = t.get y i j cp := fun t x v hx =>
    State.get_put_reg _ _ _ _ _ _ _ _ _ _ fun e => h ((ctorIdx_inj _ _ e).trans hx)
  unfold State.mtrStopReq
  split
  · rw [hput _ _ _ rfl, hput _ _ _ rfl]
  · split <;> rfl

theorem State.holdBegin_lth (by_ c : Nat) : (s.holdBegin by_ c).lth = s.lth := by
  unfold State.holdBegin
  dsimp only
  (repeat' split) <;> simp

theorem State.holdBegin_start (by_ c : Nat) : (s.holdBegin by_ c).start = s.start := by
  unfold State.holdBegin
  dsimp only
  (repeat' split) <;> simp

/-- The lanes stop, and nothing more commits (R52). -/
def State.lanesStopped (s : State) : State := { s with lth := { s.lth with lane := [], commitQ := [] } }

/-- A power failure stops the lanes and the Mitre unit, and the charging of CHOLD (R50, R52). -/
def State.failStops (s : State) : State :=
  let t := ((s.put F.FAB_PWR_STATUS_VLOG_OK 0).each (List.range 9) State.abandon).lanesStopped.mtrStopReq
  { t with start := { t.start with charging := false } }

/-- Every channel whose die stands begins a hold (R130). -/
def State.failHolds (s : State) : State := s.each (s.chans.filter fun c => !s.dieLost (bankOf c)) fun s c => s.holdBegin 2 c

theorem State.vlogFail_run (h : s.phase = Ph.run) : s.vlogFail = s.failStops.failHolds.putPhase Ph.fail := by
  unfold State.vlogFail
  rw [if_neg (by rw [h]; decide), if_neg (by rw [h]; decide), if_neg (by rw [h]; decide)]
  rfl

theorem State.failStops_lth : s.failStops.lth.lane = [] ∧ s.failStops.lth.commitQ = [] := by
  unfold State.failStops
  rw [State.mtrStopReq_eq]
  exact ⟨rfl, rfl⟩

theorem State.lanesStopped_get (y : Fld) (i j cp : Nat) : s.lanesStopped.get y i j cp = s.get y i j cp := rfl

theorem State.failStops_get (y : Fld) (i j cp : Nat) (h : y.reg ≠ .MTR_STATE) :
    s.failStops.get y i j cp = (s.put F.FAB_PWR_STATUS_VLOG_OK 0).get y i j cp := by
  refine (State.mtrStopReq_get _ y i j cp h).trans ?_
  rw [State.lanesStopped_get]
  exact State.each_inv (·.get y i j cp) _ _ _ fun t k => t.abandon_get k y i j cp

theorem State.failHolds_get (y : Fld) (i j cp : Nat) (hl : (regDef y.reg).win ≠ .lch) (hr : (regDef y.reg).win ≠ .recw) :
    s.failHolds.get y i j cp = s.get y i j cp :=
  State.each_inv (·.get y i j cp) _ _ _ fun t c => t.holdBegin_get y i j cp hl hr 2 c

end stops

theorem execVlogFail_run (s : State) (h : s.phase = Ph.run) : Gives .vlogFail s fun t =>
    t.phase = Ph.fail ∧ t.is F.FAB_PWR_STATUS_VLOG_OK = false ∧ t.lth.lane = [] ∧ t.lth.commitQ = [] ∧ t.start.charging = false := by
  have hlth : s.failStops.failHolds.lth = s.failStops.lth := State.each_inv (·.lth) _ _ _ fun t c => t.holdBegin_lth 2 c
  have hstart : s.failStops.failHolds.start = s.failStops.start := State.each_inv (·.start) _ _ _ fun t c => t.holdBegin_start 2 c
  obtain ⟨hlane, hcommit⟩ := s.failStops_lth
  refine ⟨_, congrArg Host.Outcome.next (s.vlogFail_run h), State.putPhase_phase _ _, State.is_of_get (v := 0) ?_, ?_, ?_, ?_⟩
  · rw [State.putPhase_get, State.failHolds_get _ _ _ _ _ (by decide) (by decide), State.failStops_get _ _ _ _ _ (by decide),
      State.get_put_same _ _ _ _ _ _ (by decide)]
    rfl
  · rw [State.putPhase_lth, hlth, hlane]
  · rw [State.putPhase_lth, hlth, hcommit]
  · exact congrArg StartSt.charging hstart

theorem execCholdOkReached_awake (s : State) (h : s.awake = true) :
    exec .choldOkReached s = .next (if s.start.charging then s.put F.FAB_PWR_STATUS_CHOLD_OK 1 else s) :=
  congrArg Host.Outcome.next (if_pos h)

/-! What is saved before power goes (R155, R181, R393, R416) -/

/-- The writes of a power-fail sequence and of sleep entry: the retentive image, retirements, the rules in LATCHED and the recorder. -/
def State.powerSaves (s : State) : State := s.retSave.recordAll.saveLatched.recSave

/-- A retirement that is written waits no longer; one that does not wait is left (R416). -/
theorem State.recordRetirement_pend (s : State) (kind unit : Nat) :
    (s.recordRetirement kind unit).flt.pend = s.flt.pend.filter (· != (kind, unit)) := by
  unfold State.recordRetirement
  split
  · rfl
  · next h =>
    refine (List.filter_eq_self.2 fun u hu => bne_iff_ne.2 fun e => h ?_).symm
    exact List.contains_iff_mem.2 (e ▸ hu)

theorem State.each_recordRetirement_pend (s : State) (l : List (Nat × Nat)) :
    (s.each l fun s u => s.recordRetirement u.1 u.2).flt.pend = s.flt.pend.filter fun u => !l.contains u := by
  induction l generalizing s with
  | nil => exact (List.filter_true _).symm
  | cons x l ih =>
    rw [State.each_cons, ih, State.recordRetirement_pend, List.filter_filter]
    congr 1
    funext u
    rw [List.contains_cons, Bool.not_or, Bool.and_comm]
    rfl

/-- Every retirement that waited is written. -/
theorem State.recordAll_pend (s : State) : s.recordAll.flt.pend = [] := by
  refine (s.each_recordRetirement_pend s.flt.pend).trans (List.filter_eq_nil_iff.2 fun u hu => ?_)
  simpa using hu

theorem State.recSave_flt (s : State) : s.recSave.flt = s.flt := by
  unfold State.recSave
  split <;> rfl

theorem State.powerSaves_pend (s : State) : s.powerSaves.flt.pend = [] := by
  unfold State.powerSaves
  rw [State.recSave_flt]
  exact s.retSave.recordAll_pend

/-- The loss of power writes the registers of Clamp channels alone (R155). -/
theorem State.powerOff_get (s : State) (ph : Nat) (y : Fld) (i j cp : Nat) (h : y.reg ≠ .CLP_CHAN) :
    (s.powerOff ph).get y i j cp = s.get y i j cp := by
  have hput : ∀ (t : State) (x : Fld) (v c : Nat), x.reg = .CLP_CHAN → (t.put x v c).get y i j cp = t.get y i j cp := fun t x v c hx =>
    State.get_put_reg _ _ _ _ _ _ _ _ _ _ fun e => h ((ctorIdx_inj _ _ e).trans hx)
  refine (State.get_congr _ _ rfl _ _ _ _).trans (State.each_inv (·.get y i j cp) _ _ _ fun t c => ?_)
  rw [hput _ _ _ _ rfl, hput _ _ _ _ rfl, State.putLc_get]

theorem State.powerOff_flt (s : State) (ph : Nat) : (s.powerOff ph).flt = s.flt :=
  State.each_inv (·.flt) _ _ s fun _ _ => rfl

theorem State.powerFailDone_fail (s : State) (h : s.phase = Ph.fail) (hstill : s.mtrStill = true) (hback : s.start.vlogBack = false) :
    s.powerFailDone =
      { s.powerSaves.powerOff Ph.off with start := { (s.powerSaves.powerOff Ph.off).start with flushNext := 1, vlogBack := false } } := by
  unfold State.powerFailDone
  rw [if_neg (by simp [h, hstill]), hback]
  rfl

theorem execPowerFailDone_fail (s : State) (h : s.phase = Ph.fail) (hstill : s.mtrStill = true) (hback : s.start.vlogBack = false) :
    Gives .powerFailDone s fun t => t.phase = Ph.off ∧ t.start.flushNext = 1 ∧ t.start.wasOff = true ∧ (∀ k u, (k, u) ∉ t.flt.pend) := by
  refine ⟨_, congrArg Host.Outcome.next (s.powerFailDone_fail h hstill hback), rfl, rfl, rfl, fun k u => ?_⟩
  dsimp only
  rw [State.powerOff_flt, State.powerSaves_pend]
  exact List.not_mem_nil

end Sys2Proof.Machine

/-! SUPPORT. Sleep and wake (R61 to R63, R135, R146): the sleep request, the end of sleep entry, and what a wake source does in each phase. -/

namespace Sys2Proof.Machine

/-! The sleep request (R61) -/

/-- Sleep entry up to the request that the Mitre unit stops: the references of wake pins, and what becomes of the channels (R61, R135, R146). -/
def State.sleepChannels (s : State) : State :=
  let t := s.wakeRefs
  let live := t.chans.filter fun c => !t.dieLost (bankOf c)
  let t' := t.each (live.filter fun c => !(t.ch c 0 24 24 == 1)).reverse State.sleepDrop
  t'.each (live.filter fun c => t.ch c 0 24 24 == 1) fun s c => s.holdBegin 3 c

/-- No wake is held when sleep entry begins. -/
def State.wakeForgotten (s : State) : State := { s with start := { s.start with wakeHeld := none } }

/-- A keyed request in RUN: refused while a wake source is active, else sleep entry begins (R61). -/
theorem State.sleepEnter_run (s : State) (h : s.phase = Ph.run) : s.sleepEnter (keyed 0x6B19 1) =
    if s.start.wakeNow then s.put F.FAB_SLEEP_STATUS_RESULT 2
    else (s.sleepChannels.mtrStopReq.wakeForgotten.put F.REC_FLUSH_BUSY 1).putPhase Ph.toSleep := by
  have hkey : bitsOf (keyed 0x6B19 1) 31 16 = 0x6B19 ∧ bitOf (keyed 0x6B19 1) 0 = true := by decide
  unfold State.sleepEnter
  rw [if_neg (by simp [h, hkey])]
  rfl

/-- The state a sleep request is judged in: whether a wake source is active is an input of the command. -/
def State.withWakeNow (s : State) (w : Bool) : State := { s with start := { s.start with wakeNow := w } }

/-- A keeper's write of FAB_SLEEP_CTRL that reaches it is a sleep request (R61). -/
theorem execSleepEnter_writes (s : State) (m : Master) (w : Bool) (a : Access) (hd : a.tag.drawer = 0)
    (h : (s.withWakeNow w).writes m .FAB_SLEEP_CTRL none 0 0 (keyed 0x6B19 1) a) :
    exec (.sleepEnter m w) s =
      .next (((((s.withWakeNow w).taken a).sleepEnter (keyed 0x6B19 1)).answer true 0).withWakeNow false) := by
  have hkeeper : (a.tag.drawer == 0) = true := beq_iff_eq.2 hd
  have hwrite : ((s.withWakeNow w).taken a).regWrite (hitOf .FAB_SLEEP_CTRL none 0 0) a.tag (keyed 0x6B19 1) =
      ((s.withWakeNow w).taken a).sleepEnter (keyed 0x6B19 1) := if_pos hkeeper
  have hcmd := State.regCmd_writes_ne (s.withWakeNow w) m .FAB_SLEEP_CTRL none 0 (keyed 0x6B19 1) 0 a (by unfold hasPos; decide) h rfl
    (by decide)
  rw [hwrite] at hcmd
  exact congrArg (fun t => Host.Outcome.next (t.withWakeNow false)) hcmd

theorem State.withWakeNow_phase (s : State) (w : Bool) : (s.withWakeNow w).phase = s.phase := rfl
theorem State.withWakeNow_get (s : State) (w : Bool) (y : Fld) (i j cp : Nat) : (s.withWakeNow w).get y i j cp = s.get y i j cp := rfl
theorem State.answer_phase (s : State) (ok : Bool) (d : Nat) : (s.answer ok d).phase = s.phase := rfl
theorem State.put_phase (s : State) (x : Fld) (v i j cp : Nat) : (s.put x v i j cp).phase = s.phase := rfl

theorem execSleepEnter_refused (s : State) (m : Master) (a : Access) (hp : s.phase = Ph.run) (hd : a.tag.drawer = 0)
    (h : (s.withWakeNow true).writes m .FAB_SLEEP_CTRL none 0 0 (keyed 0x6B19 1) a) :
    Gives (.sleepEnter m true) s fun t => t.phase = Ph.run ∧ t.get F.FAB_SLEEP_STATUS_RESULT = 2 := by
  have hrun : ((s.withWakeNow true).taken a).phase = Ph.run := ((s.withWakeNow true).taken_phase a).trans hp
  have hactive : ((s.withWakeNow true).taken a).start.wakeNow = true := congrArg StartSt.wakeNow ((s.withWakeNow true).taken_start a)
  refine ⟨_, execSleepEnter_writes s m true a hd h, ?_, ?_⟩
  · rw [State.sleepEnter_run _ hrun, if_pos hactive, State.withWakeNow_phase, State.answer_phase, State.put_phase, hrun]
  · rw [State.sleepEnter_run _ hrun, if_pos hactive, State.withWakeNow_get, State.answer_get, State.get_put_same _ _ _ _ _ _ (by decide)]
    rfl

/-- What the last writes of a sleep request show, whatever came before. -/
theorem State.sleepBegun_shows (t : State) :
    let u := (((t.wakeForgotten.put F.REC_FLUSH_BUSY 1).putPhase Ph.toSleep).answer true 0).withWakeNow false
    u.phase = Ph.toSleep ∧ u.is F.REC_FLUSH_BUSY = true ∧ u.start.wakeHeld = none :=
  ⟨rfl, State.is_of_get (State.get_put_same t.wakeForgotten F.REC_FLUSH_BUSY 1 0 0 0 (by decide)), rfl⟩

theorem execSleepEnter_begins (s : State) (m : Master) (a : Access) (hp : s.phase = Ph.run) (hd : a.tag.drawer = 0)
    (h : (s.withWakeNow false).writes m .FAB_SLEEP_CTRL none 0 0 (keyed 0x6B19 1) a) :
    Gives (.sleepEnter m false) s fun t => t.phase = Ph.toSleep ∧ t.is F.REC_FLUSH_BUSY = true ∧ t.start.wakeHeld = none := by
  have hrun : ((s.withWakeNow false).taken a).phase = Ph.run := ((s.withWakeNow false).taken_phase a).trans hp
  have hidle : ((s.withWakeNow false).taken a).start.wakeNow = false := congrArg StartSt.wakeNow ((s.withWakeNow false).taken_start a)
  refine ⟨_, execSleepEnter_writes s m false a hd h, ?_⟩
  rw [State.sleepEnter_run _ hrun, if_neg (by rw [hidle]; decide)]
  exact State.sleepBegun_shows _

/-- A keyed request in RUN is refused while a wake source is active, and else begins sleep entry with a flush (R61). -/
theorem execSleepEnter_run (s : State) (m : Master) (w : Bool) (a : Access) (hp : s.phase = Ph.run) (hd : a.tag.drawer = 0)
    (h : (s.withWakeNow w).writes m .FAB_SLEEP_CTRL none 0 0 (keyed 0x6B19 1) a) :
    (w = true → Gives (.sleepEnter m w) s fun t => t.phase = Ph.run ∧ t.get F.FAB_SLEEP_STATUS_RESULT = 2) ∧
    (w = false → Gives (.sleepEnter m w) s fun t =>
      t.phase = Ph.toSleep ∧ t.is F.REC_FLUSH_BUSY = true ∧ t.start.wakeHeld = none) := by
  cases w with
  | true => exact ⟨fun _ => execSleepEnter_refused s m a hp hd h, fun hidle => Bool.noConfusion hidle⟩
  | false => exact ⟨fun hactive => Bool.noConfusion hactive, fun _ => execSleepEnter_begins s m a hp hd h⟩

/-! The end of sleep entry (R61, R62) -/

/-- The saves, and FAB_SLEEP_STATUS as sleep leaves it: sleep was entered, and nothing has woken the device (R62, R63). -/
def State.sleepSaves (s : State) : State :=
  ((s.powerSaves.put F.FAB_SLEEP_STATUS_RESULT 1).put F.FAB_SLEEP_STATUS_KIND 0).put F.FAB_SLEEP_STATUS_INDEX 0

/-- With the Lathe and the Mitre unit standing and no wake held, power goes. -/
theorem State.sleepOff_still (s : State) (h : s.phase = Ph.toSleep) (hlathe : s.latheStill = true) (hmitre : s.mtrStill = true)
    (hheld : s.start.wakeHeld = none) : s.sleepOff =
      { s.sleepSaves.powerOff Ph.sleep with start := { (s.sleepSaves.powerOff Ph.sleep).start with flushNext := 1, wakeHeld := none } } := by
  unfold State.sleepOff
  rw [if_neg (by simp [h, hlathe, hmitre]), hheld]
  rfl

theorem State.sleepSaves_status (s : State) :
    s.sleepSaves.get F.FAB_SLEEP_STATUS_RESULT = 1 ∧ s.sleepSaves.get F.FAB_SLEEP_STATUS_KIND = 0 := by
  unfold State.sleepSaves
  constructor
  · rw [State.get_put_fld _ _ _ _ _ _ _ _ _ _ (by decide) (by decide), State.get_put_fld _ _ _ _ _ _ _ _ _ _ (by decide) (by decide),
      State.get_put_same _ _ _ _ _ _ (by decide)]
    rfl
  · rw [State.get_put_fld _ _ _ _ _ _ _ _ _ _ (by decide) (by decide), State.get_put_same _ _ _ _ _ _ (by decide)]
    rfl

/-- The state of the start is apart from the registers. -/
theorem State.withStart_get (s : State) (x : StartSt) (y : Fld) (i j cp : Nat) : { s with start := x }.get y i j cp = s.get y i j cp := rfl

theorem execSleepPowerOff_still (s : State) (h : s.phase = Ph.toSleep) (hlathe : s.latheStill = true) (hmitre : s.mtrStill = true)
    (hheld : s.start.wakeHeld = none) : Gives .sleepPowerOff s fun t =>
      t.phase = Ph.sleep ∧ t.get F.FAB_SLEEP_STATUS_RESULT = 1 ∧ t.get F.FAB_SLEEP_STATUS_KIND = 0 := by
  obtain ⟨hresult, hkind⟩ := s.sleepSaves_status
  refine ⟨_, congrArg Host.Outcome.next (s.sleepOff_still h hlathe hmitre hheld), rfl, ?_, ?_⟩
  · rw [State.withStart_get, State.powerOff_get _ _ _ _ _ _ (by decide), hresult]
  · rw [State.withStart_get, State.powerOff_get _ _ _ _ _ _ (by decide), hkind]

/-! Wake sources (R62, R63) -/

section wake
variable (s : State)

/-- With every die's state kept, a wake in sleep begins a SYS of cause 7 (R63). -/
theorem State.wake_sleep (kind ix : Nat) (h : s.phase = Ph.sleep) (hkept : s.anyLost = false) :
    (s.wake kind ix).phase = Ph.began ∧ (s.wake kind ix).start.cause = 7 ∧ (s.wake kind ix).start.por = false := by
  have hwake : s.wake kind ix = ((s.put F.FAB_SLEEP_STATUS_KIND kind).put F.FAB_SLEEP_STATUS_INDEX ix).doReset false 7 0 := by
    unfold State.wake
    rw [if_pos h]
    exact if_neg (show ¬s.anyLost = true by rw [hkept]; decide)
  obtain ⟨hphase, hcause, hpor, _⟩ :=
    ((s.put F.FAB_SLEEP_STATUS_KIND kind).put F.FAB_SLEEP_STATUS_INDEX ix).doReset_start false 7 0
  rw [hwake]
  exact ⟨hphase, hcause, hpor⟩

theorem wakeBefore_iff (k x k' x' : Nat) : wakeBefore k x k' x' = true ↔ k < k' ∨ (k = k' ∧ x < x') := decide_eq_true_iff

/-- The first wake during sleep entry is held (R62). -/
theorem State.wake_first (kind ix : Nat) (h : s.phase = Ph.toSleep) (hheld : s.start.wakeHeld = none) :
    s.wake kind ix = { s with start := { s.start with wakeHeld := some (kind, ix, s.ztm.zone) } } := by
  unfold State.wake
  rw [if_neg (by rw [h]; decide), if_pos h, hheld]

/-- A further wake takes its place only within the same tick, and only when it goes before it (R62; log entry 124). -/
theorem State.wake_further (kind ix k x z : Nat) (h : s.phase = Ph.toSleep) (hheld : s.start.wakeHeld = some (k, x, z)) :
    s.wake kind ix = if z = s.ztm.zone ∧ (kind < k ∨ (kind = k ∧ ix < x)) then
      { s with start := { s.start with wakeHeld := some (kind, ix, z) } } else s := by
  unfold State.wake
  rw [if_neg (by rw [h]; decide), if_pos h, hheld]
  simp only [wakeBefore_iff]

/-- Whether a wake pin stands above its threshold (R146). -/
def State.wakeLevel (p mv : Nat) : Bool := if s.miMode p = 1 then decide (s.miHigh p < mv) else decide (mv < 2000)

/-- A sample of a wake pin in sleep is compared with its reference; a second one that differs wakes (R63, R146). -/
theorem State.miWake_sleep (p mv : Nat) (h : s.phase = Ph.sleep) (harmed : s.mi p 0 3 3 = 1) (hlive : s.miLive p = true) :
    s.miWake p mv =
      let t := s.putPin p { s.pin p with wakeSeen := s.wakeLevel p mv != (s.pin p).wakeRef }
      if (s.wakeLevel p mv != (s.pin p).wakeRef) && (s.pin p).wakeSeen then t.wake 1 p else t :=
  if_neg (by simp [h, harmed, hlive])

theorem State.miWake_same (p mv : Nat) (h : s.phase = Ph.sleep) (harmed : s.mi p 0 3 3 = 1) (hlive : s.miLive p = true)
    (hsame : s.wakeLevel p mv = (s.pin p).wakeRef) : s.miWake p mv = s.putPin p { s.pin p with wakeSeen := false } := by
  rw [s.miWake_sleep p mv h harmed hlive, bne_eq_false_iff_eq.2 hsame]
  rfl

theorem State.miWake_seen (p mv : Nat) (h : s.phase = Ph.sleep) (harmed : s.mi p 0 3 3 = 1) (hlive : s.miLive p = true)
    (hdiff : s.wakeLevel p mv ≠ (s.pin p).wakeRef) : s.miWake p mv =
      let t := s.putPin p { s.pin p with wakeSeen := true }
      if (s.pin p).wakeSeen then t.wake 1 p else t := by
  rw [s.miWake_sleep p mv h harmed hlive, bne_iff_ne.2 hdiff, Bool.true_and]

end wake

/-- A sample at the reference, a first that differs, and a second (R63, R146). -/
theorem execMiWakeSample_sleep (s : State) (p : Fin 128) (mv : Nat) (h : s.phase = Ph.sleep) (harmed : s.mi p 0 3 3 = 1)
    (hlive : s.miLive p = true) :
    (s.wakeLevel p mv = (s.pin p).wakeRef → exec (.miWakeSample p mv) s = .next (s.putPin p { s.pin p with wakeSeen := false })) ∧
    (s.wakeLevel p mv ≠ (s.pin p).wakeRef → (s.pin p).wakeSeen = false →
      exec (.miWakeSample p mv) s = .next (s.putPin p { s.pin p with wakeSeen := true })) ∧
    (s.wakeLevel p mv ≠ (s.pin p).wakeRef → (s.pin p).wakeSeen = true → s.anyLost = false →
      Gives (.miWakeSample p mv) s fun t => t.phase = Ph.began ∧ t.start.cause = 7) := by
  refine ⟨fun hsame => congrArg Host.Outcome.next (s.miWake_same p mv h harmed hlive hsame), fun hdiff hseen => ?_,
    fun hdiff hseen hkept => ?_⟩
  · exact congrArg Host.Outcome.next ((s.miWake_seen p mv h harmed hlive hdiff).trans (if_neg (by rw [hseen]; decide)))
  · have hwake := (s.miWake_seen p mv h harmed hlive hdiff).trans (if_pos hseen)
    obtain ⟨hphase, hcause, _⟩ := (s.putPin p { s.pin p with wakeSeen := true }).wake_sleep 1 p h hkept
    exact ⟨_, congrArg Host.Outcome.next hwake, hphase, hcause⟩

theorem execWakePin_sleep (s : State) (n : Fin 4) (h : s.phase = Ph.sleep) (hkept : s.anyLost = false) :
    Gives (.wakePin n) s fun t => t.phase = Ph.began ∧ t.start.cause = 7 ∧ t.start.por = false :=
  ⟨_, rfl, s.wake_sleep 2 n h hkept⟩

end Sys2Proof.Machine

/-! SUPPORT. A monitored mark line that is lost (R72): the flags of a channel that other operations leave set. -/

namespace Sys2Proof.Machine

/-! Flags of a channel (R117) -/

/-- A bit set or cleared leaves the others. -/
theorem setBitTo_testBit_ne (w i k : Nat) (b : Bool) (h : k ≠ i) : (setBitTo w i b).testBit k = w.testBit k := by
  have hbit : (2 ^ i).testBit k = false := Nat.testBit_two_pow_of_ne h.symm
  unfold setBitTo
  split
  · rw [Nat.testBit_or, hbit, Bool.or_false]
  · split
    · next hset =>
      have hsplit : (w ^^^ 2 ^ i) ||| 2 ^ i = w := Nat.eq_of_testBit_eq fun n => by
        rw [Nat.testBit_or, Nat.testBit_xor, Nat.testBit_two_pow]
        by_cases hn : i = n
        · simp [← hn, hset]
        · simp [hn]
      have hdisj : (w ^^^ 2 ^ i) &&& 2 ^ i = 0 := Nat.eq_of_testBit_eq fun n => by
        rw [Nat.testBit_and, Nat.testBit_xor, Nat.testBit_two_pow, Nat.zero_testBit]
        by_cases hn : i = n
        · simp [← hn, hset]
        · simp [hn]
      have hsub : w - 2 ^ i = w ^^^ 2 ^ i := by
        have hsum := or_eq_add_of_and_eq_zero _ _ hdisj
        omega
      rw [hsub, Nat.testBit_xor, hbit, Bool.xor_false]
    · rfl

theorem setBitTo_testBit_same (w i : Nat) : (setBitTo w i true).testBit i = true := by
  unfold setBitTo
  rw [if_pos rfl, Nat.testBit_or, Nat.testBit_two_pow_self, Bool.or_true]

section flags
variable (s : State)

/-- FLAGS put at a position shows there. -/
theorem State.flag_putFlags_same (v c b : Nat) (hb : b < 14) : (s.put F.LCH_FLAGS_FLAGS v c).flag c b = v.testBit b := by
  unfold State.flag bitOf
  rw [State.get_put_same _ _ _ _ _ _ (by decide), Nat.testBit_mod_two_pow]
  simp [hb]

/-- FLAGS put for one channel shows its bit at the channels of that position, and leaves the flags of the others. -/
theorem State.flag_putFlags_cases (v c' c b : Nat) (hb : b < 14) :
    ((s.put F.LCH_FLAGS_FLAGS v c').flag c b = v.testBit b ∧ s.flag c b = s.flag c' b) ∨
      (s.put F.LCH_FLAGS_FLAGS v c').flag c b = s.flag c b := by
  by_cases hk : keyOf .LCH_FLAGS 0 c 0 = keyOf .LCH_FLAGS 0 c' 0
  · have hpos : ∀ t : State, t.flag c b = t.flag c' b := fun t => by
      unfold State.flag State.get
      rw [regGet_key _ _ _ _ _ _ _ _ hk]
    exact .inl ⟨(hpos _).trans (s.flag_putFlags_same _ _ _ hb), hpos s⟩
  · refine .inr ?_
    unfold State.flag State.get State.put
    rw [regGet_put_key _ _ _ _ _ _ _ _ _ _ hk]

/-- FLAGS of a channel put with a bit as it was leaves that flag of every channel. -/
theorem State.flag_putFlags (v c' c b : Nat) (hb : b < 14) (h : v.testBit b = s.flag c' b) :
    (s.put F.LCH_FLAGS_FLAGS v c').flag c b = s.flag c b := by
  rcases s.flag_putFlags_cases v c' c b hb with ⟨hput, hpos⟩ | hkept
  · rw [hput, h, hpos]
  · exact hkept

theorem State.flag_of_get {s t : State} (c b : Nat) (h : t.get F.LCH_FLAGS_FLAGS c = s.get F.LCH_FLAGS_FLAGS c) : t.flag c b = s.flag c b := by
  unfold State.flag
  rw [h]

theorem State.put_flag (x : Fld) (v i j cp c b : Nat) (h : x.reg ≠ .LCH_FLAGS) : (s.put x v i j cp).flag c b = s.flag c b :=
  State.flag_of_get c b (State.get_put_reg _ _ _ _ _ _ _ _ _ _ fun e => h (ctorIdx_inj _ _ e).symm)

theorem State.putLc_flag (k : Nat) (x : LoadCh) (c b : Nat) : (s.putLc k x).flag c b = s.flag c b := rfl

/-- Setting a flag writes FLAGS, and then registers that show no flag. -/
theorem State.setFlag_flags (c' b' c b : Nat) (h : s.flag c' b' = false) :
    (s.setFlag c' b').flag c b = (s.put F.LCH_FLAGS_FLAGS (setBitTo (s.get F.LCH_FLAGS_FLAGS c') b' true) c').flag c b := by
  have hraise : ∀ t : State, (t.raise F.LCH_EVENTS_EVENTS (2 ^ b') c' 0 0 (t.chanOwner c') 0 c').flag c b = t.flag c b := fun t =>
    State.flag_of_get c b (State.raise_get _ _ _ _ _ _ _ _ _ _ _ _ _ (by decide) (by decide))
  unfold State.setFlag
  rw [if_neg (by rw [h]; decide)]
  dsimp only
  split
  · exact (State.put_flag _ _ _ _ _ _ _ _ (by decide)).trans (hraise _)
  · exact hraise _

theorem State.setFlag_flag_same (c b : Nat) (hb : b < 14) : (s.setFlag c b).flag c b = true := by
  by_cases h : s.flag c b = true
  · rwa [State.setFlag, if_pos h]
  · rw [State.setFlag_flags _ _ _ _ _ (Bool.eq_false_of_not_eq_true h), State.flag_putFlags_same _ _ _ _ hb, setBitTo_testBit_same]

/-- Setting a flag clears none. -/
theorem State.setFlag_flag_true (c' b' c b : Nat) (hb : b < 14) (h : s.flag c b = true) : (s.setFlag c' b').flag c b = true := by
  by_cases hset : s.flag c' b' = true
  · rwa [State.setFlag, if_pos hset]
  · rw [State.setFlag_flags _ _ _ _ _ (Bool.eq_false_of_not_eq_true hset)]
    rcases s.flag_putFlags_cases (setBitTo (s.get F.LCH_FLAGS_FLAGS c') b' true) c' c b hb with ⟨hput, hpos⟩ | hkept
    · rw [hput]
      by_cases hbb : b = b'
      · rw [hbb, setBitTo_testBit_same]
      · rw [setBitTo_testBit_ne _ _ _ _ hbb]
        exact hpos.symm.trans h
    · rw [hkept, h]

theorem State.setFlag_flag_ne (c' b' c b : Nat) (hb : b < 14) (h : b ≠ b') : (s.setFlag c' b').flag c b = s.flag c b := by
  by_cases hset : s.flag c' b' = true
  · rw [State.setFlag, if_pos hset]
  · rw [State.setFlag_flags _ _ _ _ _ (Bool.eq_false_of_not_eq_true hset)]
    exact s.flag_putFlags _ _ _ _ hb (setBitTo_testBit_ne _ _ _ _ h)

theorem State.clearFlag_flag_ne (c' b' c b : Nat) (hb : b < 14) (h : b ≠ b') : (s.clearFlag c' b').flag c b = s.flag c b :=
  s.flag_putFlags _ _ _ _ hb (setBitTo_testBit_ne _ _ _ _ h)

/-! An output that resolves changes no flag but ON_STATE (R101, R103) -/

variable (c b : Nat) (hb : b < 14) (hon : b ≠ Flag.onState)
include hb hon

theorem State.turnOn_flag (k : Nat) : (s.turnOn k).flag c b = s.flag c b := by
  have htrace : ∀ (t : State) (d u x y : Nat), (t.trace d 1 u x y).flag c b = t.flag c b := fun t d u x y =>
    State.flag_of_get c b (State.trace_get _ _ _ _ _ _ _ _ _ _ (by decide))
  have hout : ∀ t : State, (t.put F.LCH_STATE_OUT 1 k).flag c b = t.flag c b := fun t => t.put_flag _ _ _ _ _ _ _ (by decide)
  have hset : ∀ t : State, ((t.setFlag k Flag.onState).put F.LCH_STATE_PHASE 1 k).flag c b = t.flag c b := fun t =>
    ((t.setFlag k Flag.onState).put_flag _ _ _ _ _ _ _ (by decide)).trans (t.setFlag_flag_ne _ _ _ _ hb hon)
  unfold State.turnOn State.free
  dsimp only
  split
  · rw [State.putLc_flag, hout]
  · split
    · rw [htrace, hset, State.putLc_flag]
      exact hout s
    · rw [hset, State.putLc_flag]
      exact hout s

theorem State.offDone_flag (k : Nat) : (s.offDone k).flag c b = s.flag c b := by
  have hput : ∀ (t : State) (x : Fld) (v : Nat), x.reg = .LCH_STATE → (t.put x v k).flag c b = t.flag c b := fun t x v hx =>
    t.put_flag _ _ _ _ _ _ _ (by rw [hx]; decide)
  unfold State.offDone
  dsimp only
  generalize (if (s.decide_ k).2 = 2 then 2 else 0) = out
  split
  · rw [hput _ _ _ rfl, State.putLc_flag]
  · rw [hput _ _ _ rfl, State.clearFlag_flag_ne _ _ _ _ _ hb hon, hput _ _ _ rfl, State.putLc_flag]

theorem State.applyCmd_flag (k cmd : Nat) (fast : Bool) : (s.applyCmd k cmd fast).flag c b = s.flag c b := by
  have hput : ∀ (t : State) (v : Nat), (t.put F.LCH_STATE_OUT v k).flag c b = t.flag c b := fun t v =>
    t.put_flag _ _ _ _ _ _ _ (by decide)
  unfold State.applyCmd
  dsimp only
  split
  · split
    · split <;> rfl
    · exact s.turnOn_flag c b hb hon k
  · split
    · split
      · exact s.offDone_flag c b hb hon k
      · split <;> rfl
    · split
      · rw [State.putLc_flag, hput]
      · exact hput s 0

theorem State.resolve_flag (k : Nat) : (s.resolve k).flag c b = s.flag c b := by
  unfold State.resolve
  split
  · rfl
  · dsimp only
    rw [State.applyCmd_flag _ _ _ hb hon]
    exact s.put_flag _ _ _ _ _ _ _ (by decide)

end flags

/-! The loss of a line (R72) -/

/-- A channel of a lost line is blocked, and its output resolves. -/
def State.chanBlocked (s : State) (c : Nat) : State := (s.blockChan c).resolve c

/-- The line shows LOST and raises its alarm, and its channels are blocked over the next reload of their dies too (R72, R454). -/
def State.lineLost (s : State) (n : Nat) : State :=
  let t := (s.put F.INP_MK_STATUS_LOST 1 n).alarm 0x01 n 0 0
  { t with start := { t.start with
    blocked := t.start.blocked ++ (s.connChans n).filter fun c => !t.start.blocked.contains c } }

theorem State.markLost_run (s : State) (n : Nat) (h : s.phase = Ph.run) (hline : s.expected.contains n = true)
    (habsent : s.get F.INP_MK_STATUS_VERDICT n ≠ 2) (hshort : s.get F.INP_MK_STATUS_VERDICT n ≠ 3)
    (hnew : s.is F.INP_MK_STATUS_LOST n = false) : s.markLost n =
      (s.lineLost n).each ((s.connChans n).filter fun c => !(s.lineLost n).dieLost (bankOf c)) State.chanBlocked := by
  unfold State.markLost
  dsimp only
  rw [if_neg (by simp [State.startDone, h, hline, habsent, hshort, hnew, -List.contains_eq_mem])]
  rfl

theorem State.chanBlocked_flag_same (s : State) (c : Nat) : (s.chanBlocked c).flag c Flag.harnessBlock = true := by
  unfold State.chanBlocked State.blockChan
  rw [State.resolve_flag _ _ _ (by decide) (by decide), State.clearFlag_flag_ne _ _ _ _ _ (by decide) (by decide),
    State.setFlag_flag_same _ _ _ (by decide)]

/-- Blocking one channel unblocks no other. -/
theorem State.chanBlocked_flag (s : State) (k c : Nat) (h : s.flag c Flag.harnessBlock = true) :
    (s.chanBlocked k).flag c Flag.harnessBlock = true := by
  unfold State.chanBlocked State.blockChan
  rw [State.resolve_flag _ _ _ (by decide) (by decide), State.clearFlag_flag_ne _ _ _ _ _ (by decide) (by decide),
    State.setFlag_flag_true _ _ _ _ _ (by decide) h]

theorem State.chanBlocked_start (s : State) (c : Nat) : (s.chanBlocked c).start = s.start := by
  unfold State.chanBlocked State.blockChan
  simp

theorem State.chanBlocked_startView (s : State) (c : Nat) : (s.chanBlocked c).startView = s.startView := by
  unfold State.chanBlocked
  simp

/-- What every update of a fold keeps, the fold keeps. -/
theorem State.each_keeps {α : Type} (P : State → Prop) (l : List α) (f : State → α → State) (s : State) (h : P s)
    (hkeep : ∀ s x, P s → P (f s x)) : P (s.each l f) := by
  induction l generalizing s with
  | nil => exact h
  | cons x l ih => exact ih _ (hkeep s x h)

/-- What each update of a fold establishes for its own member, and every other keeps, the fold establishes for all of them. -/
theorem State.each_establishes {α : Type} (P : α → State → Prop) (l : List α) (f : State → α → State) (s : State)
    (hown : ∀ s x, P x (f s x)) (hkeep : ∀ s x y, P y s → P y (f s x)) : ∀ x ∈ l, P x (s.each l f) := by
  induction l generalizing s with
  | nil => exact fun x hx => absurd hx List.not_mem_nil
  | cons y l ih =>
    intro x hx
    rcases List.mem_cons.1 hx with rfl | hx
    · exact State.each_keeps (P x) l f _ (hown s x) fun t z => hkeep t z x
    · exact ih (f s y) x hx

theorem State.lineLost_dieLost (s : State) (n b : Nat) : (s.lineLost n).dieLost b = s.dieLost b :=
  State.dieLost_congr (congrArg LoadSt.lost (State.alarm_load _ _ _ _ _)) b

/-- Every channel of the line is among those that are blocked. -/
theorem State.lineLost_blocked (s : State) (n : Nat) : ∀ c ∈ s.connChans n, c ∈ (s.lineLost n).start.blocked := by
  intro c hc
  refine List.mem_append.2 ?_
  by_cases h : c ∈ ((s.put F.INP_MK_STATUS_LOST 1 n).alarm 0x01 n 0 0).start.blocked
  · exact .inl h
  · exact .inr (List.mem_filter.2 ⟨hc, by simpa using h⟩)

theorem State.lineLost_lost (s : State) (n : Nat) : (s.lineLost n).get F.INP_MK_STATUS_LOST n = 1 := by
  refine (State.alarm_get (s.put F.INP_MK_STATUS_LOST 1 n) 0x01 n 0 0 F.INP_MK_STATUS_LOST n 0 0 (by decide)).trans ?_
  rw [State.get_put_same _ _ _ _ _ _ (by decide)]
  rfl

theorem execMarkLineLost_run (s : State) (n : Fin 8) (h : s.phase = Ph.run) (hline : s.expected.contains n.val = true)
    (habsent : s.get F.INP_MK_STATUS_VERDICT n ≠ 2) (hshort : s.get F.INP_MK_STATUS_VERDICT n ≠ 3)
    (hnew : s.is F.INP_MK_STATUS_LOST n = false) : Gives (.markLineLost n) s fun t =>
      t.is F.INP_MK_STATUS_LOST n = true ∧ (∀ c ∈ s.connChans n, c ∈ t.start.blocked) ∧
        ∀ c ∈ s.connChans n, s.dieLost (bankOf c) = false → t.flag c Flag.harnessBlock = true := by
  refine ⟨_, congrArg Host.Outcome.next (s.markLost_run n h hline habsent hshort hnew), ?_, fun c hc => ?_, fun c hc hdie => ?_⟩
  · refine State.is_of_get (v := 1) ((State.startView_get ?_ _ _ _ _ (by decide)).trans (s.lineLost_lost n))
    exact State.each_inv State.startView _ _ _ State.chanBlocked_startView
  · rw [State.each_inv (·.start) _ _ _ State.chanBlocked_start]
    exact s.lineLost_blocked n c hc
  · refine State.each_establishes (fun c t => t.flag c Flag.harnessBlock = true) _ _ _ State.chanBlocked_flag_same
      State.chanBlocked_flag c (List.mem_filter.2 ⟨hc, ?_⟩)
    rw [State.lineLost_dieLost, hdie]
    rfl

end Sys2Proof.Machine

/-! SUPPORT. The ISL reset of an island (R10, R11, R55): its chapter's part leaves the fabric's records as they are, so of the accesses that
wait only those for the island itself go. -/

namespace Sys2Proof.Machine

section fabric
variable (s : State)

@[simp] theorem State.each_fab {α : Type} (l : List α) (f : State → α → State) (h : ∀ t x, (f t x).fab = t.fab) : (s.each l f).fab = s.fab :=
  State.each_inv (·.fab) l f s h

@[simp] theorem State.each_put_fab {α : Type} (l : List α) (x : Fld) (v : State → α → Nat) (i j cp : α → Nat) :
    (s.each l fun t a => t.put x (v t a) (i a) (j a) (cp a)).fab = s.fab := State.each_fab s l _ fun _ _ => rfl

/-! Failures of waiting writes, and CAN controllers -/

@[simp] theorem State.addFailure_fab (d src tag cause : Nat) : (s.addFailure d src tag cause).fab = s.fab := by
  unfold State.addFailure
  dsimp only
  (repeat' split) <;> rfl

@[simp] theorem State.farFailure_fab (d src unit addr tag cause data : Nat) : (s.farFailure d src unit addr tag cause data).fab = s.fab := by
  unfold State.farFailure
  dsimp only
  (repeat' split) <;> simp

@[simp] theorem State.putCn_fab (k : Nat) (x : CanSt) : (s.putCn k x).fab = s.fab := rfl

@[simp] theorem State.mbEnd_fab (k m res : Nat) : (s.mbEnd k m res).fab = s.fab := by
  unfold State.mbEnd
  dsimp only
  (repeat' split) <;> rfl

@[simp] theorem State.canIslReset_fab (k : Nat) : (s.canIslReset k).fab = s.fab := by
  unfold State.canIslReset
  simp

@[simp] theorem State.islCan_fab (g : Nat) : (s.islCan g).fab = s.fab := by
  unfold State.islCan
  simp

@[simp] theorem State.islRegs_fab (n : Nat) : (s.islRegs n).fab = s.fab := rfl

/-! The Mitre unit, the Lathe, the Clamp network and the banks -/

@[simp] theorem State.coreTrap_fab (c : Nat) (cause tval : Word) : (s.coreTrap c cause tval).fab = s.fab := by
  unfold State.coreTrap
  dsimp only
  (repeat' split) <;> rfl

@[simp] theorem State.coreIrq_fab (c lines : Nat) : (s.coreIrq c lines).fab = s.fab := by
  unfold State.coreIrq
  split <;> simp

@[simp] theorem State.checkpoint_fab : s.checkpoint.fab = s.fab := by
  unfold State.checkpoint
  simp

theorem State.islMtr_fab : s.islMtr.fab = s.fab := by
  unfold State.islMtr
  dsimp only
  split
  · exact s.mtrZero.checkpoint_fab
  · rfl

@[simp] theorem State.abortChanges_fab : s.abortChanges.fab = s.fab :=
  State.each_fab s s.lth.waiting _ fun _ _ => rfl

theorem State.islLth_fab : s.islLth.fab = s.fab := by
  unfold State.islLth
  split
  · rfl
  · exact s.abortChanges_fab

theorem State.islClp_fab : s.islClp.fab = s.fab := by
  have hshow : ∀ t : State, t.ruleConditions.fab = t.fab := fun t => by
    unfold State.ruleConditions
    split
    · rfl
    · exact State.each_fab t _ _ fun _ _ => rfl
  exact (hshow _).trans (State.each_fab s _ _ fun _ _ => rfl)

@[simp] theorem State.holdBegin_fab (by_ c : Nat) : (s.holdBegin by_ c).fab = s.fab := by
  unfold State.holdBegin
  dsimp only
  (repeat' split) <;> simp

@[simp] theorem State.holdEnd_fab (c : Nat) : (s.holdEnd c).fab = s.fab := by
  unfold State.holdEnd
  dsimp only
  split <;> simp

theorem State.islBank_fab (b : Nat) : (s.islBank b).fab = s.fab := by
  unfold State.islBank
  simp

/-! Inputs -/

@[simp] theorem State.drvLevel_fab (p : Nat) (high : Bool) : (s.drvLevel p high).fab = s.fab := by
  unfold State.drvLevel
  dsimp only
  split
  · split <;> simp
  · rfl

theorem State.islInp_fab (dv : List (Fin 16 × Nat)) : (s.islInp dv).fab = s.fab := by
  unfold State.islInp
  simp

/-! The switch and its ports -/

@[simp] theorem State.putQueue_fab (q : Nat) (l : List QCopy) : (s.putQueue q l).fab = s.fab := rfl
@[simp] theorem State.putSending_fab (k : Nat) (x : Option QCopy) : (s.putSending k x).fab = s.fab := rfl
@[simp] theorem State.putSuspended_fab (p : Nat) (x : Option QCopy) : (s.putSuspended p x).fab = s.fab := rfl
@[simp] theorem State.putOcc_fab (q n : Nat) : (s.putOcc q n).fab = s.fab := rfl
@[simp] theorem State.uncharge_fab (d n : Nat) : (s.uncharge d n).fab = s.fab := rfl

@[simp] theorem State.frameRelease_fab (fid : Nat) : (s.frameRelease fid).fab = s.fab := by
  unfold State.frameRelease
  dsimp only
  (repeat' split) <;> rfl

@[simp] theorem State.release_fab (q : Nat) (x : QCopy) : (s.release_ q x).fab = s.fab := by
  unfold State.release_
  dsimp only
  split <;> simp

@[simp] theorem State.dropQ_fab (q r : Nat) : (s.dropQ q r).fab = s.fab := by
  unfold State.dropQ
  dsimp only
  (repeat' split) <;> simp

@[simp] theorem State.txResult_fab (r res : Nat) : (s.txResult r res).fab = s.fab := by
  unfold State.txResult
  dsimp only
  split <;> rfl

@[simp] theorem State.copyDrop_fab (q reason : Nat) (x : QCopy) : (s.copyDrop q reason x).fab = s.fab := by
  unfold State.copyDrop
  dsimp only
  (repeat' split) <;> simp

@[simp] theorem State.dropQueue_fab (q reason : Nat) : (s.dropQueue q reason).1.fab = s.fab := by
  have hqueue : (((s.putQueue q []).each (s.queueOf q) fun s x => s.copyDrop q reason x)).fab = s.fab := by simp
  unfold State.dropQueue
  dsimp only
  split
  · exact hqueue
  · split <;> simp

@[simp] theorem State.dropPort_fab (p : Nat) : (s.dropPort p).fab = s.fab := by
  unfold State.dropPort
  dsimp only
  split <;> split <;> simp

theorem State.islDvt_fab : s.islDvt.fab = s.fab := by
  unfold State.islDvt
  simp

@[simp] theorem State.portEvt_fab (p b : Nat) : (s.portEvt p b).fab = s.fab := by
  unfold State.portEvt
  simp

@[simp] theorem State.verifyStart_fab (p : Nat) : (s.verifyStart p).fab = s.fab := by
  unfold State.verifyStart
  dsimp only
  (repeat' split) <;> rfl

@[simp] theorem State.leaveUp_fab (p st : Nat) : (s.leaveUp p st).fab = s.fab := by
  unfold State.leaveUp State.when
  dsimp only
  split <;> simp

@[simp] theorem State.groupDown_fab (n : Nat) : (s.groupDown n).fab = s.fab :=
  State.each_fab s _ _ fun t p => by
    (repeat' split) <;> simp

@[simp] theorem State.linkEnable_fab (p : Nat) : (s.linkEnable p).fab = s.fab := by
  unfold State.linkEnable
  split <;> rfl

@[simp] theorem State.groupUp_fab (n : Nat) : (s.groupUp n).fab = s.fab :=
  State.each_fab s _ _ fun t p => by
    split <;> simp

/-! The Till, the bridge's link and the rings -/

theorem State.islTil_fab : s.islTil.fab = s.fab := by
  have hlost : s.volatileLost.fab = s.fab := by
    have hview := s.volatileLost_unitView
    simp only [State.unitView, Prod.mk.injEq] at hview
    obtain ⟨_, _, _, _, _, _, _, _, _, _, _, hfab, _⟩ := hview
    exact hfab
  unfold State.islTil
  dsimp only
  rw [State.each_put_fab]
  exact hlost

theorem State.linkIsDown_cfgReset_fab : s.linkIsDown.cfgReset.fab = s.fab := by
  unfold State.linkIsDown
  split <;> rfl

@[simp] theorem State.rxRequeue_fab (r : Nat) : (s.rxRequeue r).fab = s.fab := by
  unfold State.rxRequeue
  dsimp only
  (repeat' split) <;> rfl

@[simp] theorem State.txFree_fab (r : Nat) : (s.txFree r).fab = s.fab := by
  unfold State.txFree
  split <;> rfl

@[simp] theorem State.updOrphan_fab (r : Nat) : (s.updOrphan r).fab = s.fab := rfl

theorem State.islRge_fab : s.islRge.fab = s.fab := by
  unfold State.islRge
  simp

theorem State.islClu_fab (c : Nat) : (s.islClu c).fab = s.fab :=
  State.each_fab s _ _ fun _ _ => rfl

/-! The reset of an island -/

theorem State.forget_fab (p : Nat → Bool) : (s.forget p).fab = s.fab := rfl

/-- An island's own chapter leaves the fabric's records; only the bridge's forgets accesses that wait. -/
theorem State.islReset_fab (n : Nat) (dv : List (Fin 16 × Nat)) (h : n ≠ 35) : (s.islReset n dv).fab = (s.islFields n).fab := by
  unfold State.islReset
  simp only [apply_ite State.fab, State.islClu_fab, State.forget_fab, State.islMtr_fab, State.islLth_fab, State.islClp_fab, State.islBank_fab,
    State.islInp_fab, State.islDvt_fab, State.groupUp_fab, State.groupDown_fab, State.islTil_fab, State.linkIsDown_cfgReset_fab,
    State.islRge_fab, if_neg h, ite_self]

/-- The writes that wait for the island fail, and nothing that waits for it stays (R346). -/
theorem State.islWaiting_waiting (n : Nat) : (s.islWaiting n).fab.waiting = s.fab.waiting.filter fun w => w.1 != n := by
  have hfab := State.each_fab { s with fab := { s.fab with waiting := s.fab.waiting.filter fun w => w.1 != n } }
    (s.fab.waiting.filter fun w => w.1 == n) (fun t w => if w.2.op = AccOp.write then
      t.farFailure w.2.tag.drawer w.2.tag.src.code w.2.num w.2.addr w.2.seq 9 w.2.data else t.answer true 0) fun t w => by
    split <;> simp
  exact congrArg FabSt.waiting hfab

theorem State.islFields_waiting (n : Nat) : (s.islFields n).fab.waiting = s.fab.waiting.filter fun w => w.1 != n := by
  rw [← s.islWaiting_waiting n]
  unfold State.islFields
  dsimp only
  split
  · rw [State.each_put_fab, State.each_put_fab, State.islRegs_fab, State.islCan_fab]
  · rw [State.islRegs_fab]

theorem State.islReset_waiting (n : Nat) (dv : List (Fin 16 × Nat)) (h : n ≠ 35) :
    (s.islReset n dv).fab.waiting = s.fab.waiting.filter fun w => w.1 != n := by
  rw [State.islReset_fab _ _ _ h, State.islFields_waiting]

/-- The bridge's reset ends reservations and prefetched lines, and accesses that wait for itself or for a semaphore (R10). -/
theorem State.islReset_bridge (dv : List (Fin 16 × Nat)) : (s.islReset 35 dv).dwl.resv = [] ∧ (s.islReset 35 dv).dwl.lines = [] ∧
    ∀ w ∈ (s.islReset 35 dv).fab.waiting, w.1 < 64 ∧ w.1 ≠ 35 := by
  have hbridge : s.islReset 35 dv = (s.islFields 35).islDwl := rfl
  refine ⟨rfl, rfl, fun w hw => ?_⟩
  rw [hbridge] at hw
  obtain ⟨hwaits, hlow⟩ := List.mem_filter.1 hw
  rw [State.islFields_waiting] at hwaits
  exact ⟨of_decide_eq_true hlow, bne_iff_ne.1 (List.mem_filter.1 hwaits).2⟩

end fabric

theorem State.sensePins_eq (s : State) (l : PinMv) : s.sensePins l = { s with front := (s.sensePins l).front } := by
  unfold State.sensePins State.each
  induction l generalizing s with
  | nil => rfl
  | cons x l ih =>
    rw [List.foldl_cons, ih]
    rfl

theorem State.sensePins_fab (s : State) (l : PinMv) : (s.sensePins l).fab = s.fab := by rw [State.sensePins_eq]

theorem State.not_starting (s : State) (h : Ph.taken < s.phase) : s.starting = false := by
  have hne : ∀ p, p ≤ Ph.taken → (s.phase == p) = false := fun p hp => beq_eq_false_iff_ne.2 fun e => absurd hp (by omega)
  unfold State.starting
  rw [hne Ph.began (by decide), hne Ph.banks (by decide), hne Ph.taken (by decide)]
  rfl

/-- An island that works is reset outside a start, and records of posted errors that wait are then delivered (R10, R55, R57, R347). -/
theorem execIslandReset_live (s : State) (n : Fin 41) (mv : PinMv) (dv : List (Fin 16 × Nat)) (h : s.live n = true) (hp : Ph.taken < s.phase) :
    exec (.islandReset n mv dv) s = .next (((s.sensePins mv).islReset n dv).each (List.range 16) State.perrDeliver) := by
  have hawake : s.awake = true := (Bool.and_eq_true_iff.1 h).1
  have hworks : ((s.sensePins mv).live n && !(s.sensePins mv).starting) = true := by
    rw [State.sensePins_eq]
    exact Bool.and_eq_true_iff.2 ⟨h, congrArg not (s.not_starting hp)⟩
  have hrun : execIslandReset n mv dv s =
      .next (if (s.sensePins mv).live n && !(s.sensePins mv).starting then ((s.sensePins mv).islReset n dv).perrAll else s.sensePins mv) := by
    unfold execIslandReset
    rw [if_pos hawake]
  exact hrun.trans (congrArg Host.Outcome.next (if_pos hworks))

/-- What the reset of an island leaves of the accesses that waited, of the bridge, of translations and of MACsec keys (R10, R55). -/
theorem State.islReset_leaves (s : State) (n : Nat) (dv : List (Fin 16 × Nat)) :
    (n ≠ 35 → (s.islReset n dv).fab.waiting = s.fab.waiting.filter fun w => w.1 != n) ∧
    (n = 35 → (s.islReset n dv).dwl.resv = [] ∧ (s.islReset n dv).dwl.lines = [] ∧
      ∀ w ∈ (s.islReset n dv).fab.waiting, w.1 < 64 ∧ w.1 ≠ 35) ∧
    (n = 37 → (s.islReset n dv).iom.tlb = []) ∧ (n = 27 → (s.islReset n dv).saKey = []) := by
  refine ⟨s.islReset_waiting n dv, ?_, ?_, ?_⟩
  · rintro rfl
    exact s.islReset_bridge dv
  · rintro rfl
    rfl
  · rintro rfl
    rfl

theorem execIslandReset_leaves (s : State) (n : Fin 41) (mv : PinMv) (dv : List (Fin 16 × Nat)) (h : s.live n = true) (hp : Ph.taken < s.phase) :
    let u := (s.sensePins mv).islReset n dv
    exec (.islandReset n mv dv) s = .next (u.each (List.range 16) State.perrDeliver) ∧
    (n.val ≠ 35 → u.fab.waiting = s.fab.waiting.filter fun w => w.1 != n.val) ∧
    (n.val = 35 → u.dwl.resv = [] ∧ u.dwl.lines = [] ∧ ∀ w ∈ u.fab.waiting, w.1 < 64 ∧ w.1 ≠ 35) ∧
    (n.val = 37 → u.iom.tlb = []) ∧ (n.val = 27 → u.saKey = []) := by
  rw [← s.sensePins_fab mv]
  exact ⟨execIslandReset_live s n mv dv h hp, (s.sensePins mv).islReset_leaves n dv⟩

/-! Power failure, feeds, sleep and wake, and the reset of an island together -/

/-- Settles O14: each event is its branch of the model's operation, cut into stages, and what a stage does not write is carried past it: dies
without state past the operations of channels, registers past the stops, holds and saves, HARNESS_BLOCK past the outputs that resolve, and the
accesses that wait past every part of an island's reset but the bridge's. -/
theorem powerSleepAndIslandResets : Obligations.PowerSleepAndIslandResets := by
  unfold Obligations.PowerSleepAndIslandResets
  exact ⟨execVlogFail_run, execPowerFailDone_fail, execCholdOkReached_awake,
    fun s f => ⟨execFeedLoss_gives s f, execFeedReturn_gives s f⟩, execDieReloadDone_gives, execSleepEnter_run, execSleepPowerOff_still,
    fun s n => ⟨execWakePin_sleep s n, fun h hheld => congrArg Host.Outcome.next (s.wake_first 2 n h hheld),
      fun k x z h hheld => congrArg Host.Outcome.next (s.wake_further 2 n k x z h hheld)⟩,
    execMiWakeSample_sleep, execMarkLineLost_run, execIslandReset_leaves⟩

end Sys2Proof.Machine

/-! SUPPORT. Steps of a channel in its power-stage die (R94, R106 to R128): what a trip, a retirement and an output that resolves leave of
the channel's LCH_PROT fields, of its model temperature and of the start. -/

namespace Sys2Proof.Machine

/-! A channel whose die has its state -/

theorem State.onChan_live (s : State) (c : Nat) (f : State → State) (hc : s.isChan c = true) (hdie : s.dieLost (bankOf c) = false) :
    s.onChan c f = f s := by
  unfold State.onChan
  rw [hc, hdie]
  rfl

/-- In RUN nothing wakes: no sleep is under way, and the cycle of a wake is over (R63). -/
theorem State.wake_run (s : State) (kind ix : Nat) (h : s.phase = Ph.run) : s.wake kind ix = s := by
  have hcycle : s.sameCycle = false := by
    unfold State.sameCycle
    rw [h]
    rfl
  unfold State.wake
  rw [h, hcycle]
  rfl

theorem State.tripWakes_run (old s : State) (c : Nat) (h : s.phase = Ph.run) : State.tripWakes old s c = s := by
  unfold State.tripWakes
  split
  · exact s.wake_run 5 c h
  · rfl

/-! What the phase, the image and the dies' stores are read from -/

theorem State.phase_congr {s t : State} (h : t.start = s.start) : t.phase = s.phase := by
  unfold State.phase
  rw [h]

theorem State.ch_congr {s t : State} (h : t.img = s.img) (c w hi lo : Nat) : t.ch c w hi lo = s.ch c w hi lo := by
  simp only [State.ch, State.chanIdx, State.imgF, State.sec, h]

theorem State.isChan_congr {s t : State} (h : t.img = s.img) (c : Nat) : t.isChan c = s.isChan c := by
  simp only [State.isChan, State.chanIdx, State.imgF, State.sec, h]

theorem State.lc_congr {s t : State} (h : t.load = s.load) (c : Nat) : t.lc c = s.lc c := by
  unfold State.lc
  rw [h]

@[simp] theorem State.putLc_lc_same (s : State) (c : Nat) (x : LoadCh) : (s.putLc c x).lc c = x := storeGet_put_same _ _ _ _

@[simp] theorem State.put_lc (s : State) (x : Fld) (v i j cp c : Nat) : (s.put x v i j cp).lc c = s.lc c := rfl
@[simp] theorem State.setFlag_lc (s : State) (k b c : Nat) : (s.setFlag k b).lc c = s.lc c := State.lc_congr (s.setFlag_load k b) c
@[simp] theorem State.clearFlag_lc (s : State) (k b c : Nat) : (s.clearFlag k b).lc c = s.lc c := rfl

theorem State.wireGate_congr {s t : State} (c : Nat) (hflag : t.flag c Flag.wireTrip = s.flag c Flag.wireTrip) (hlc : t.lc c = s.lc c) :
    t.wireGate c = s.wireGate c := by
  unfold State.wireGate
  rw [hflag, hlc]

/-! LCH_PROT, which flags and outputs do not write -/

section protection
variable (s : State) (y : Fld) (i j cp : Nat) (hy : y.reg = .LCH_PROT)
include hy

theorem State.setFlag_prot_get (c b : Nat) : (s.setFlag c b).get y i j cp = s.get y i j cp :=
  State.setFlag_get _ _ _ _ _ _ _ (hy ▸ by decide) (hy ▸ by decide) (hy ▸ by decide) (hy ▸ by decide)

theorem State.clearFlag_prot_get (c b : Nat) : (s.clearFlag c b).get y i j cp = s.get y i j cp :=
  State.clearFlag_get _ _ _ _ _ _ _ (hy ▸ by decide)

theorem State.resolve_prot_get (c : Nat) : (s.resolve c).get y i j cp = s.get y i j cp :=
  State.resolve_get _ _ _ _ _ _ (hy ▸ by decide) (hy ▸ by decide) (hy ▸ by decide) (hy ▸ by decide) (hy ▸ by decide)

/-- A retirement writes the protection state and its cause (R128). -/
theorem State.retireChan_prot_get (c cause : Nat) : (s.retireChan c cause).get y i j cp =
    ((s.put F.LCH_PROT_STATE Prot.retired c).put F.LCH_PROT_RETIRE_CAUSE cause c).get y i j cp := by
  unfold State.retireChan
  dsimp only
  rw [State.resolve_prot_get _ _ _ _ _ hy, State.safenSet_get _ _ _ _ _ _ (hy ▸ by decide),
    State.alarm_get _ _ _ _ _ _ _ _ _ (hy ▸ by decide)]
  exact (State.clearFlag_prot_get _ _ _ _ _ hy _ _).trans (State.setFlag_prot_get _ _ _ _ _ hy _ _)

end protection

/-! The model temperature of a channel, which its output leaves -/

section temperature
variable (s : State) (c : Nat)

theorem State.turnOn_temp : ((s.turnOn c).lc c).temp = (s.lc c).temp := by
  have hon : ∀ (t : State) (x : LoadCh), ((((t.putLc c x).setFlag c Flag.onState).put F.LCH_STATE_PHASE 1 c).lc c).temp = x.temp :=
    fun t x => by simp
  have htrace : ∀ (t : State) (d v : Nat), (t.trace d 1 c c v).lc c = t.lc c := fun t d v => by rw [State.trace_eq]; rfl
  unfold State.turnOn State.free
  dsimp only
  split
  · rw [State.putLc_lc_same, State.put_lc]
  · split
    · rw [htrace, hon]
      rfl
    · rw [hon]
      rfl

theorem State.offDone_temp : ((s.offDone c).lc c).temp = (s.lc c).temp := by
  unfold State.offDone
  dsimp only
  generalize (if (s.decide_ c).2 = 2 then 2 else 0) = out
  split <;> simp

theorem State.applyCmd_temp (cmd : Nat) (fast : Bool) : ((s.applyCmd c cmd fast).lc c).temp = (s.lc c).temp := by
  unfold State.applyCmd
  dsimp only
  split
  · split
    · split <;> simp
    · exact s.turnOn_temp c
  · split
    · split
      · exact s.offDone_temp c
      · split <;> simp
    · split <;> simp

theorem State.resolve_temp : ((s.resolve c).lc c).temp = (s.lc c).temp := by
  unfold State.resolve
  split
  · rfl
  · exact State.applyCmd_temp _ c _ _

theorem State.retireChan_temp (cause : Nat) : ((s.retireChan c cause).lc c).temp = (s.lc c).temp := by
  have halarm : ∀ (t : State) (code u x d : Nat), ((t.alarm code u x d).safenSet 4).lc c = t.lc c := fun t code u x d =>
    State.lc_congr ((State.safenSet_load _ _).trans (t.alarm_load _ _ _ _)) c
  have hflt : ∀ (t : State) (f : FltSt), { t with flt := f }.lc c = t.lc c := fun _ _ => rfl
  unfold State.retireChan
  dsimp only
  rw [State.resolve_temp, halarm, hflt, State.clearFlag_lc, State.setFlag_lc, State.put_lc, State.put_lc]

end temperature

/-! A trip (R121, R127) -/

/-- The episode's time at a trip, which begins one when none runs (R121). -/
def State.episodeTime (s : State) (c : Nat) : Nat := if !s.is F.LCH_PROT_EPISODE c then 0 else (s.lc c).episodeMs

/-- The flag and the cause of a trip. -/
def State.tripMarked (s : State) (c cause : Nat) : State := (s.setFlag c (tripFlag cause)).put F.LCH_STATE_TRIP_CAUSE cause c

/-- A trip with its flag, its cause and its episode. -/
def State.tripEpisode (s : State) (c cause : Nat) : State :=
  ((s.tripMarked c cause).put F.LCH_PROT_EPISODE 1 c).putLc c { s.lc c with episodeMs := s.episodeTime c, quietMs := 0 }

/-- A short within the high-side window (R127). -/
def State.windowShort (s : State) (c cause : Nat) : Bool := cause == Trip.shortFast && (s.lc c).hsWin

/-- All that a trip shows before it is classified: a short within the high-side window is remembered. -/
def State.tripShown (s : State) (c cause : Nat) : State :=
  if s.windowShort c cause then (s.tripEpisode c cause).put F.LCH_PROT_HARD_SHORT 1 c else s.tripEpisode c cause

/-- A second short within the high-side window (R127). -/
def State.hardShort (s : State) (c cause : Nat) : Bool := s.windowShort c cause && s.is F.LCH_PROT_HARD_SHORT c

/-- The retries of the episode are used up within RETRY_WINDOW (R127). -/
def State.retriesSpent (s : State) (c : Nat) : Bool :=
  s.get F.LCH_PROT_RETRY_LEFT c == 0 && decide (1 ≤ s.ch c 4 3 0) && decide (s.episodeTime c < s.ch c 4 15 4 * 1000)

section trip
variable (s : State) (c cause : Nat)

theorem State.tripEpisode_img : (s.tripEpisode c cause).img = s.img := s.setFlag_img c (tripFlag cause)
theorem State.tripEpisode_start : (s.tripEpisode c cause).start = s.start := s.setFlag_start c (tripFlag cause)

theorem State.tripShown_start : (s.tripShown c cause).start = s.start := by
  unfold State.tripShown
  split
  · exact s.tripEpisode_start c cause
  · exact s.tripEpisode_start c cause

theorem State.tripShown_temp : ((s.tripShown c cause).lc c).temp = (s.lc c).temp := by
  unfold State.tripShown State.tripEpisode
  split
  · rw [State.put_lc, State.putLc_lc_same]
  · rw [State.putLc_lc_same]

theorem State.tripMarked_prot_get (y : Fld) (i j cp : Nat) (hy : y.reg = .LCH_PROT) :
    (s.tripMarked c cause).get y i j cp = s.get y i j cp :=
  (State.get_put_reg _ _ _ _ _ _ _ _ _ _ (hy ▸ by decide)).trans (State.setFlag_prot_get _ _ _ _ _ hy _ _)

/-- Of LCH_PROT the episode is written alone. -/
theorem State.tripEpisode_prot_get (y : Fld) (i j cp : Nat) (hy : y.reg = .LCH_PROT) (hne : y.hi < 8 ∨ 8 < y.lo) :
    (s.tripEpisode c cause).get y i j cp = s.get y i j cp :=
  (State.get_put_fld _ _ _ _ _ _ _ _ _ _ (by decide) hne).trans (s.tripMarked_prot_get c cause y i j cp hy)

theorem State.tripShown_retryLeft : (s.tripShown c cause).get F.LCH_PROT_RETRY_LEFT c = s.get F.LCH_PROT_RETRY_LEFT c := by
  have hepisode := s.tripEpisode_prot_get c cause F.LCH_PROT_RETRY_LEFT c 0 0 rfl (by decide)
  unfold State.tripShown
  split
  · exact (State.get_put_fld _ _ _ _ _ _ _ _ _ _ (by decide) (by decide)).trans hepisode
  · exact hepisode

/-- A trip in ARMED, by its classification (R121, R126 to R128). -/
theorem State.trip_armed (h : s.prot c = Prot.armed) : s.trip c cause =
    if s.hardShort c cause || s.retriesSpent c then (s.tripShown c cause).retireChan c (if s.hardShort c cause then 2 else 1)
    else if s.get F.LCH_PROT_RETRY_LEFT c = 0 then
      (((s.tripShown c cause).put F.LCH_PROT_STATE Prot.exhausted c).setFlag c Flag.retryExh).resolve c
    else ((s.tripShown c cause).put F.LCH_PROT_STATE (if cause = Trip.temp then Prot.latched else Prot.waiting) c).resolve c := by
  have htime : (if !(s.tripMarked c cause).is F.LCH_PROT_EPISODE c then 0 else (s.lc c).episodeMs) = s.episodeTime c := by
    unfold State.episodeTime State.is
    rw [s.tripMarked_prot_get c cause _ _ _ _ rfl]
  have hshort : (s.tripEpisode c cause).is F.LCH_PROT_HARD_SHORT c = s.is F.LCH_PROT_HARD_SHORT c := by
    unfold State.is
    rw [s.tripEpisode_prot_get c cause _ _ _ _ rfl (by decide)]
  have hleft := s.tripEpisode_prot_get c cause F.LCH_PROT_RETRY_LEFT c 0 0 rfl (by decide)
  have hch : ∀ w hi lo, (s.tripEpisode c cause).ch c w hi lo = s.ch c w hi lo := State.ch_congr (s.tripEpisode_img c cause) c
  unfold State.trip
  rw [if_neg (by rw [h]; decide)]
  dsimp only
  rw [← State.tripMarked, htime, ← State.tripEpisode, ← State.windowShort, hshort, hleft, hch, hch, ← State.hardShort,
    ← State.retriesSpent, ← State.tripShown, s.tripShown_retryLeft]

/-- A trip is none outside ARMED (R120). -/
theorem State.trip_not_armed (h : s.prot c ≠ Prot.armed) : s.trip c cause = s := by
  unfold State.trip
  rw [if_pos (bne_iff_ne.2 h)]

theorem State.retireChan_start : (s.retireChan c cause).start = s.start := by
  unfold State.retireChan
  simp

/-- What every end of a trip keeps, when what it shows keeps it, the trip keeps. -/
theorem State.trip_keeps {β : Type} (g : State → β) (hshown : g (s.tripShown c cause) = g s)
    (hretire : ∀ (t : State) (k : Nat), g (t.retireChan c k) = g t) (hresolve : ∀ t : State, g (t.resolve c) = g t)
    (hput : ∀ (t : State) (v : Nat), g (t.put F.LCH_PROT_STATE v c) = g t) (hflag : ∀ t : State, g (t.setFlag c Flag.retryExh) = g t) :
    g (s.trip c cause) = g s := by
  by_cases h : s.prot c = Prot.armed
  · rw [s.trip_armed c cause h]
    split
    · rw [hretire, hshown]
    · split
      · rw [hresolve, hflag, hput, hshown]
      · rw [hresolve, hput, hshown]
  · rw [s.trip_not_armed c cause h]

theorem State.trip_start : (s.trip c cause).start = s.start :=
  s.trip_keeps c cause (·.start) (s.tripShown_start c cause) (fun t k => t.retireChan_start c k) (fun t => t.resolve_start c)
    (fun _ _ => rfl) fun t => t.setFlag_start c _

theorem State.trip_temp : ((s.trip c cause).lc c).temp = (s.lc c).temp :=
  s.trip_keeps c cause (fun t => (t.lc c).temp) (s.tripShown_temp c cause) (fun t k => t.retireChan_temp c k) (fun t => t.resolve_temp c)
    (fun _ _ => rfl) fun t => congrArg LoadCh.temp (t.setFlag_lc c _ c)

section armed
variable (h : s.prot c = Prot.armed)
include h

/-- A trip with retries left waits for its restart, or for the temperature (R120, R121). -/
theorem State.trip_waits (hhard : s.hardShort c cause = false) (hleft : s.get F.LCH_PROT_RETRY_LEFT c ≠ 0) :
    (s.trip c cause).prot c = (if cause = Trip.temp then Prot.latched else Prot.waiting) ∧
      (s.trip c cause).get F.LCH_PROT_RETRY_LEFT c = s.get F.LCH_PROT_RETRY_LEFT c := by
  have hspent : s.retriesSpent c = false := by
    unfold State.retriesSpent
    rw [beq_eq_false_iff_ne.2 hleft, Bool.false_and, Bool.false_and]
  rw [s.trip_armed c cause h, hhard, hspent, if_neg (by decide), if_neg hleft]
  constructor
  · refine (State.resolve_prot_get _ _ _ _ _ rfl c).trans ((State.get_put_same _ _ _ _ _ _ (by decide)).trans ?_)
    split <;> rfl
  · rw [State.resolve_prot_get _ _ _ _ _ rfl, State.get_put_fld _ _ _ _ _ _ _ _ _ _ (by decide) (by decide), s.tripShown_retryLeft]

/-- A trip of a channel without retries exhausts it (R126). -/
theorem State.trip_exhausts (hhard : s.hardShort c cause = false) (hleft : s.get F.LCH_PROT_RETRY_LEFT c = 0) (hnone : s.ch c 4 3 0 = 0) :
    (s.trip c cause).prot c = Prot.exhausted := by
  have hspent : s.retriesSpent c = false := by
    unfold State.retriesSpent
    rw [hnone, decide_eq_false (by decide), Bool.and_false, Bool.false_and]
  rw [s.trip_armed c cause h, hhard, hspent, if_neg (by decide), if_pos hleft]
  refine (State.resolve_prot_get _ _ _ _ _ rfl c).trans ((State.setFlag_prot_get _ _ _ _ _ rfl _ _).trans ?_)
  exact State.get_put_same _ _ _ _ _ _ (by decide)

/-- A second short within the high-side window retires the channel (R127, R128). -/
theorem State.trip_retires (hhard : s.hardShort c cause = true) :
    (s.trip c cause).prot c = Prot.retired ∧ (s.trip c cause).get F.LCH_PROT_RETIRE_CAUSE c = 2 := by
  rw [s.trip_armed c cause h, hhard, Bool.true_or, if_pos rfl, if_pos rfl]
  constructor
  · refine (State.retireChan_prot_get _ _ _ _ _ rfl _ _).trans ?_
    rw [State.get_put_fld _ _ _ _ _ _ _ _ _ _ (by decide) (by decide)]
    exact State.get_put_same _ _ _ _ _ _ (by decide)
  · refine (State.retireChan_prot_get _ _ _ _ _ rfl _ _).trans ?_
    exact State.get_put_same _ _ _ _ _ _ (by decide)

end armed

theorem State.hardShort_iff : s.hardShort c cause = true ↔
    cause = Trip.shortFast ∧ (s.lc c).hsWin = true ∧ s.is F.LCH_PROT_HARD_SHORT c = true := by
  unfold State.hardShort State.windowShort
  rw [Bool.and_eq_true, Bool.and_eq_true, beq_iff_eq, and_assoc]

end trip

/-! The rows that trip a channel (R106 to R111) -/

/-- A trip in RUN wakes nothing (R63). -/
theorem State.tripOf_run (s : State) (c cause : Nat) (hp : s.phase = Ph.run) (hc : s.isChan c = true) (hdie : s.dieLost (bankOf c) = false) :
    s.tripOf c cause = s.trip c cause := by
  unfold State.tripOf
  rw [s.onChan_live c _ hc hdie]
  exact State.tripWakes_run _ _ c ((State.phase_congr (s.trip_start c cause)).trans hp)

section rows
variable (s : State) (c : Fin 96) (hp : s.phase = Ph.run) (hc : s.isChan c = true) (hdie : s.dieLost (bankOf c) = false)
include hp hc hdie

theorem execTempLatch_armed (harmed : s.prot c = Prot.armed) : exec (.tempLatch c) s = .next (s.trip c Trip.temp) := by
  have hlatch : s.tempLatch c = s.trip c Trip.temp := if_pos harmed
  refine congrArg Host.Outcome.next ((s.onChan_live c _ hc hdie).trans ?_)
  rw [hlatch]
  exact State.tripWakes_run _ _ c ((State.phase_congr (s.trip_start c _)).trans hp)

variable (hon : s.get F.LCH_STATE_OUT c ≠ 0)
include hon

theorem execOcTrip_conducts (hreg : ¬(s.chKind c = 4 ∧ s.get F.LCH_STATE_PHASE c = 2)) : exec (.ocTrip c) s =
    .next (s.trip c (if s.get F.LCH_STATE_OUT c = 2 then Trip.lowSide else Trip.oc)) := by
  have htrips : (s.conducts c && !s.regulates c) = true := by
    simpa [State.conducts, State.regulates, hon] using not_and_or.1 hreg
  exact congrArg Host.Outcome.next ((if_pos htrips).trans (s.tripOf_run c _ hp hc hdie))

theorem execShortFast_conducts : exec (.shortFast c) s =
    .next (s.trip c (if s.get F.LCH_STATE_OUT c = 2 then Trip.lowSide else Trip.shortFast)) := by
  have htrips : s.conducts c = true := bne_iff_ne.2 hon
  exact congrArg Host.Outcome.next ((if_pos htrips).trans (s.tripOf_run c _ hp hc hdie))

theorem execSegShareTrip_conducts (hgang : s.ch c 0 9 8 ≠ 0) : exec (.segShareTrip c) s = .next (s.trip c Trip.segShare) := by
  have htrips : (s.conducts c && decide (s.ch c 0 9 8 ≠ 0)) = true :=
    Bool.and_eq_true_iff.2 ⟨bne_iff_ne.2 hon, decide_eq_true hgang⟩
  exact congrArg Host.Outcome.next ((if_pos htrips).trans (s.tripOf_run c _ hp hc hdie))

end rows

/-- The driver of a CAPFEED channel regulates its inrush current (R97). -/
theorem execOcTrip_regulates (s : State) (c : Fin 96) (hkind : s.chKind c = 4) (hphase : s.get F.LCH_STATE_PHASE c = 2) :
    exec (.ocTrip c) s = .next s := by
  have hquiet : ¬(s.conducts c && !s.regulates c) = true := by simp [State.regulates, hkind, hphase]
  exact congrArg Host.Outcome.next (if_neg hquiet)

/-! Restart and REARM (R123, R126) -/

/-- A restart uses one retry, and the channel is ARMED (R123). -/
theorem State.restart_waiting (s : State) (c : Nat) (h : s.prot c = Prot.waiting) (hcool : s.flag c Flag.tempLatch = false)
    (hwire : s.wireGate c = false) :
    (s.restart c).prot c = Prot.armed ∧ (s.restart c).get F.LCH_PROT_RETRY_LEFT c = s.get F.LCH_PROT_RETRY_LEFT c - 1 := by
  have hcleared : ((s.clearFlag c Flag.ocTrip).clearFlag c Flag.wireTrip).get F.LCH_PROT_RETRY_LEFT c = s.get F.LCH_PROT_RETRY_LEFT c :=
    (State.clearFlag_prot_get _ _ _ _ _ rfl _ _).trans (State.clearFlag_prot_get _ _ _ _ _ rfl _ _)
  have hfits : s.get F.LCH_PROT_RETRY_LEFT c < 2 ^ 4 := fieldGet_lt _ _ _
  unfold State.restart
  rw [if_pos (by rw [h, hcool, hwire]; rfl)]
  dsimp only
  constructor
  · exact (State.resolve_prot_get _ _ _ _ _ rfl c).trans (State.get_put_same _ _ _ _ _ _ (by decide))
  · rw [State.resolve_prot_get _ _ _ _ _ rfl, State.get_put_fld _ _ _ _ _ _ _ _ _ _ (by decide) (by decide), State.putLc_get,
      State.get_put_same _ _ _ _ _ _ (by decide), hcleared]
    exact Nat.mod_eq_of_lt (lt_of_le_of_lt (Nat.sub_le _ _) hfits)

theorem execRestart_waiting (s : State) (c : Fin 96) (hc : s.isChan c = true) (hdie : s.dieLost (bankOf c) = false)
    (h : s.prot c = Prot.waiting) (hcool : s.flag c Flag.tempLatch = false) (hwire : s.wireGate c = false) :
    Gives (.restart c) s fun t =>
      t.prot c = Prot.armed ∧ t.get F.LCH_PROT_RETRY_LEFT c = s.get F.LCH_PROT_RETRY_LEFT c - 1 :=
  ⟨_, congrArg Host.Outcome.next (s.onChan_live c _ hc hdie), s.restart_waiting c h hcool hwire⟩

/-- A REARM in EXHAUSTED gives the full budget and ends the episode (R126). -/
theorem State.rearm_exhausted (s : State) (c : Nat) (h : s.prot c = Prot.exhausted) (hcool : s.flag c Flag.tempLatch = false)
    (hwire : s.wireGate c = false) :
    (s.rearm c).prot c = Prot.armed ∧ (s.rearm c).get F.LCH_PROT_RETRY_LEFT c = s.ch c 4 3 0 % 16 ∧
      (s.rearm c).get F.LCH_PROT_EPISODE c = 0 := by
  unfold State.rearm
  rw [if_pos (by rw [h, hcool, hwire]; rfl)]
  dsimp only
  refine ⟨(State.resolve_prot_get _ _ _ _ _ rfl c).trans (State.get_put_same _ _ _ _ _ _ (by decide)), ?_, ?_⟩
  · rw [State.resolve_prot_get _ _ _ _ _ rfl, State.get_put_fld _ _ _ _ _ _ _ _ _ _ (by decide) (by decide), State.putLc_get,
      State.get_put_fld _ _ _ _ _ _ _ _ _ _ (by decide) (by decide), State.get_put_fld _ _ _ _ _ _ _ _ _ _ (by decide) (by decide)]
    exact State.get_put_same _ _ _ _ _ _ (by decide)
  · rw [State.resolve_prot_get _ _ _ _ _ rfl, State.get_put_fld _ _ _ _ _ _ _ _ _ _ (by decide) (by decide), State.putLc_get,
      State.get_put_fld _ _ _ _ _ _ _ _ _ _ (by decide) (by decide)]
    exact State.get_put_same _ _ _ _ _ _ (by decide)

/-- Elsewhere a REARM is rejected, and says so (R126). -/
theorem State.rearm_rejected (s : State) (c : Nat) (h : s.prot c ≠ Prot.exhausted) :
    (s.rearm c).prot c = s.prot c ∧ (s.rearm c).get F.LCH_PROT_REARM_REJ c = 1 := by
  unfold State.rearm
  rw [if_neg (by simp [beq_false_of_ne h])]
  exact ⟨State.get_put_fld _ _ _ _ _ _ _ _ _ _ (by decide) (by decide), State.get_put_same _ _ _ _ _ _ (by decide)⟩

section command
variable (s : State) (m : Master) (v : Option (Fin 16)) (c : Fin 96)

/-- LCH_CMD of a channel stands in the global window and in the views (R34). -/
theorem hasPos_lchCmd : hasPos .LCH_CMD v c 0 :=
  hasPos_of_kind _ _ _ _ (fun _ => by decide) (fun _ => by decide) c.isLt (by decide)

variable (w : Nat) (a : Access) (h : s.writes m .LCH_CMD v c 0 w a) (hc : s.isChan c = true)
include h hc

/-- A write of LCH_CMD that reaches a channel is the channel's command (R98, R126). -/
theorem State.regCmd_lchCmd : s.regCmd m .LCH_CMD v c w = ((s.taken a).chCmd c w).answer true 0 := by
  have hlive : s.posLive (hitOf .LCH_CMD v c 0) = true := by
    unfold State.posLive
    cases v <;> exact (congrArg (_ || ·) hc).trans (Bool.or_true _)
  have hreg : (hitOf .LCH_CMD v c 0).reg = .LCH_CMD := by cases v <;> rfl
  have hwrite : (s.taken a).regWrite (hitOf .LCH_CMD v c 0) a.tag w = (s.taken a).chCmd c w := by cases v <;> rfl
  rw [State.regCmd_writes_ne s m .LCH_CMD v c w 0 a (hasPos_lchCmd v c) h hlive (by rw [hreg]; decide),
    hwrite]

end command

/-- The state in which a REARM write without ON judges the channel: the write has passed, and ON is 0. -/
def State.rearmSeen (s : State) (c : Nat) (a : Access) : State := (s.taken a).put F.LCH_CMD_ON 0 c

section rearm
variable (s : State) (c : Nat) (a : Access)

theorem State.rearmSeen_prot_get (y : Fld) (i j cp : Nat) (hy : y.reg = .LCH_PROT) : (s.rearmSeen c a).get y i j cp = s.get y i j cp :=
  (State.get_put_reg _ _ _ _ _ _ _ _ _ _ (hy ▸ by decide)).trans (s.taken_get a y i j cp (hy ▸ by decide) (hy ▸ by decide))

theorem State.rearmSeen_flag (b : Nat) : (s.rearmSeen c a).flag c b = s.flag c b :=
  State.flag_of_get c b ((State.get_put_reg _ _ _ _ _ _ _ _ _ _ (by decide)).trans (s.taken_get a _ _ _ _ (by decide) (by decide)))

theorem State.rearmSeen_ch (w hi lo : Nat) : (s.rearmSeen c a).ch c w hi lo = s.ch c w hi lo := State.ch_congr (s.taken_img a) c w hi lo

theorem State.rearmSeen_wireGate : (s.rearmSeen c a).wireGate c = s.wireGate c :=
  State.wireGate_congr c (s.rearmSeen_flag c a _) (State.lc_congr (s.taken_load a) c)

end rearm

theorem execRearm_writes (s : State) (m : Master) (v : Option (Fin 16)) (c : Fin 96) (a : Access) (h : s.writes m .LCH_CMD v c 0 2 a)
    (hc : s.isChan c = true) (hsrc : s.chSrc c ≠ 3) :
    exec (.rearm m v c false) s = .next (((s.rearmSeen c a).rearm c).answer true 0) := by
  have hc' : (s.taken a).isChan c = true := (State.isChan_congr (s.taken_img a) c).trans hc
  have hsrc' : (s.taken a).chSrc c ≠ 3 := fun e => hsrc ((State.ch_congr (s.taken_img a) c 1 1 0).symm.trans e)
  have hcmd : (s.taken a).chCmd c 2 = (s.rearmSeen c a).rearm c := by
    unfold State.chCmd
    rw [hc']
    dsimp only
    rw [if_neg hsrc']
    rfl
  refine congrArg Host.Outcome.next ((s.regCmd_lchCmd m v c 2 a h hc).trans ?_)
  rw [hcmd]

/-- Settles O19: a row on a channel in its die is the trip, the restart or the REARM of the model; a trip is classified after its flag,
cause and episode, and outputs that resolve write no field of LCH_PROT. -/
theorem tripsMoveTheProtectionState : Obligations.TripsMoveTheProtectionState := by
  unfold Obligations.TripsMoveTheProtectionState
  refine ⟨fun s c hp hc hdie harmed => ⟨fun hon => ⟨execOcTrip_conducts s c hp hc hdie hon, execOcTrip_regulates s c,
    execShortFast_conducts s c hp hc hdie hon, execSegShareTrip_conducts s c hp hc hdie hon⟩, execTempLatch_armed s c hp hc hdie harmed⟩,
    fun s c cause harmed => ?_, execRestart_waiting, fun s m v c a h hc hsrc => ⟨fun hrearm => ?_, fun hother => ?_⟩⟩
  · dsimp only
    rw [← s.hardShort_iff, Bool.not_eq_true]
    exact ⟨s.trip_waits c cause harmed, s.trip_exhausts c cause harmed, s.trip_retires c cause harmed⟩
  · obtain ⟨hprot, hcool, hwire⟩ := hrearm
    rw [← s.rearmSeen_ch c a]
    exact ⟨_, execRearm_writes s m v c a h hc hsrc, (s.rearmSeen c a).rearm_exhausted c
      ((s.rearmSeen_prot_get c a _ _ _ _ rfl).trans hprot) ((s.rearmSeen_flag c a _).trans hcool) ((s.rearmSeen_wireGate c a).trans hwire)⟩
  · have hseen : (s.rearmSeen c a).prot c = s.prot c := s.rearmSeen_prot_get c a _ _ _ _ rfl
    rw [← hseen]
    exact ⟨_, execRearm_writes s m v c a h hc hsrc, (s.rearmSeen c a).rearm_rejected c (hseen ▸ hother)⟩

end Sys2Proof.Machine

/-! SUPPORT. What the dies watch (R106, R111 to R116, R122): flags that follow their rows, the off-state check, the end of an episode and
the wire model's step. -/

namespace Sys2Proof.Machine

/-! Flags that follow a row -/

theorem setBitTo_testBit_cleared (w i : Nat) : (setBitTo w i false).testBit i = false := by
  unfold setBitTo
  rw [if_neg (by decide)]
  split
  · next hset =>
    have hodd : w / 2 ^ i % 2 = 1 := by simpa [Nat.testBit_eq_decide_div_mod_eq] using hset
    have hless : (w - 2 ^ i) / 2 ^ i = w / 2 ^ i - 1 := by simpa using Nat.sub_mul_div w (2 ^ i) 1
    rw [Nat.testBit_eq_decide_div_mod_eq, hless]
    exact decide_eq_false (by omega)
  · next hclear => exact Bool.eq_false_of_not_eq_true hclear

theorem State.clearFlag_flag_same (s : State) (c b : Nat) (hb : b < 14) : (s.clearFlag c b).flag c b = false :=
  (s.flag_putFlags_same _ _ _ hb).trans (setBitTo_testBit_cleared _ _)

theorem State.flagTo_flag_same (s : State) (c b : Nat) (v : Bool) (hb : b < 14) : (s.flagTo c b v).flag c b = v := by
  cases v with
  | true => exact s.setFlag_flag_same c b hb
  | false => exact s.clearFlag_flag_same c b hb

section die
variable (s : State) (c : Fin 96) (hc : s.isChan c = true) (hdie : s.dieLost (bankOf c) = false)
include hc hdie

theorem execOcWarnChange_live (above : Bool) : exec (.ocWarnChange c above) s = .next (s.flagTo c Flag.ocWarn above) :=
  congrArg Host.Outcome.next (s.onChan_live c _ hc hdie)

theorem execTempWarnChange_live (hot : Bool) : exec (.tempWarnChange c hot) s = .next (s.flagTo c Flag.tempWarn hot) :=
  congrArg Host.Outcome.next (s.onChan_live c _ hc hdie)

theorem execOpenLoadOnstate_steady (hopen : s.ch c 7 15 0 ≠ 0) (hsteady : s.get F.LCH_STATE_PHASE c = 3) (below : Bool) :
    exec (.openLoadOnstate c below) s = .next (s.flagTo c Flag.openLoad below) :=
  congrArg Host.Outcome.next ((s.onChan_live c _ hc hdie).trans (if_pos ⟨hopen, hsteady⟩))

/-! The release of TEMP_LATCH (R111, R120) -/

theorem State.tempRelease_set (hset : s.flag c Flag.tempLatch = true) : s.tempRelease c =
    if s.prot c = Prot.latched then (s.clearFlag c Flag.tempLatch).put F.LCH_PROT_STATE Prot.waiting c
    else (s.clearFlag c Flag.tempLatch).resolve c := by
  have hprot : (s.clearFlag c Flag.tempLatch).prot c = s.prot c := State.clearFlag_prot_get _ _ _ _ _ rfl _ _
  refine (s.onChan_live c _ hc hdie).trans ?_
  rw [if_neg (by rw [hset]; decide)]
  dsimp only
  rw [hprot]

theorem execTempLatchRelease_latched (hset : s.flag c Flag.tempLatch = true) (hlatched : s.prot c = Prot.latched) :
    exec (.tempLatchRelease c) s = .next ((s.clearFlag c Flag.tempLatch).put F.LCH_PROT_STATE Prot.waiting c) :=
  congrArg Host.Outcome.next ((s.tempRelease_set c hc hdie hset).trans (if_pos hlatched))

theorem execTempLatchRelease_other (hset : s.flag c Flag.tempLatch = true) (hother : s.prot c ≠ Prot.latched) :
    exec (.tempLatchRelease c) s = .next ((s.clearFlag c Flag.tempLatch).resolve c) :=
  congrArg Host.Outcome.next ((s.tempRelease_set c hc hdie hset).trans (if_neg hother))

/-! The off-state check (R116) -/

theorem execOffStateCheckTick_starts (hopen : s.ch c 7 15 0 ≠ 0) (hoff : s.get F.LCH_STATE_OUT c = 0) (b : Fin 4) (hb : bankOf c = b) :
    exec (.offStateCheckTick b [c]) s = .next (s.putLc c { s.lc c with chk := 1 }) := by
  have hstill : (!s.conducts c) = true := by
    unfold State.conducts
    rw [hoff]
    rfl
  exact congrArg Host.Outcome.next ((if_pos hb).trans ((s.onChan_live c _ hc hdie).trans (if_pos ⟨hopen, hstill⟩)))

theorem execOffStateShortSample_step (hstep : (s.lc c).chk = 1) (high : Bool) : Gives (.offStateShortSample c high) s fun t =>
    t.flag c Flag.shortBat = high ∧ (t.lc c).chk = if high then 0 else 2 := by
  refine ⟨_, congrArg Host.Outcome.next ((s.onChan_live c _ hc hdie).trans (if_pos hstep)), ?_, ?_⟩
  · exact s.flagTo_flag_same c _ high (by decide)
  · rw [State.putLc_lc_same]

theorem execOffStateOpenSample_step (hstep : (s.lc c).chk = 2) (high : Bool) : Gives (.offStateOpenSample c high) s fun t =>
    t.flag c Flag.openLoad = high ∧ (t.lc c).chk = 0 := by
  refine ⟨_, congrArg Host.Outcome.next ((s.onChan_live c _ hc hdie).trans (if_pos hstep)), ?_, ?_⟩
  · exact s.flagTo_flag_same c _ high (by decide)
  · rw [State.putLc_lc_same]

/-! The end of an episode (R122) -/

theorem execEpisodeClose_quiet (hopen : s.is F.LCH_PROT_EPISODE c = true) (harmed : s.prot c = Prot.armed)
    (hcool : s.flag c Flag.tempLatch = false) : Gives (.episodeClose c) s fun t =>
      t.get F.LCH_PROT_EPISODE c = 0 ∧ t.get F.LCH_PROT_RETRY_LEFT c = s.ch c 4 3 0 % 16 ∧ (t.lc c).quietMs = 0 := by
  have hcloses : (s.is F.LCH_PROT_EPISODE c && s.prot c == Prot.armed && !s.flag c Flag.tempLatch) = true := by
    rw [hopen, harmed, hcool]
    rfl
  refine ⟨_, congrArg Host.Outcome.next ((s.onChan_live c _ hc hdie).trans (if_pos hcloses)), ?_, ?_, ?_⟩
  · exact State.get_put_same _ _ _ _ _ _ (by decide)
  · exact (State.get_put_fld _ _ _ _ _ _ _ _ _ _ (by decide) (by decide)).trans (State.get_put_same _ _ _ _ _ _ (by decide))
  · exact congrArg LoadCh.quietMs (State.putLc_lc_same _ _ _)

end die

/-! The wire model (R112, R113) -/

/-- The channel's temperature and episode clocks a millisecond later (R112, R121). -/
def State.wireStepped (s : State) (c meanI2 : Nat) : LoadCh :=
  let x := s.lc c
  let run := !s.flag c Flag.tempLatch && s.is F.LCH_PROT_EPISODE c
  { x with
    temp := wireStep s.ambient x.temp x.csa x.insul meanI2
    episodeMs := if run then x.episodeMs + 1 else x.episodeMs
    quietMs := if run && s.prot c == Prot.armed then x.quietMs + 1 else x.quietMs }

/-- WIRE_WARN at a temperature: set from 10 K below the rating, and clear below 15 K (R113). -/
def State.wireWarned (s : State) (c : Nat) (t tr : Rat) : State :=
  if t ≥ tr - 10 then s.setFlag c Flag.wireWarn else if t < tr - 15 then s.clearFlag c Flag.wireWarn else s

/-- A step of the model before its trip. -/
def State.wireSeen (s : State) (c meanI2 : Nat) : State :=
  (s.putLc c (s.wireStepped c meanI2)).wireWarned c (s.wireStepped c meanI2).temp (insulTemp (s.lc c).insul)

section wire
variable (s : State) (c meanI2 : Nat)

theorem State.wireStepped_temp :
    (s.wireStepped c meanI2).temp = wireStep s.ambient (s.lc c).temp (s.lc c).csa (s.lc c).insul meanI2 := by
  unfold State.wireStepped
  dsimp only

/-- A step of the model, with the trip from the rated temperature on (R113). -/
theorem State.wireModel_eq : s.wireModel c meanI2 =
    if (s.wireStepped c meanI2).temp ≥ insulTemp (s.lc c).insul then (s.wireSeen c meanI2).trip c Trip.wire
    else s.wireSeen c meanI2 := by
  unfold State.wireModel State.wireSeen State.wireWarned State.wireStepped
  dsimp only

theorem State.wireWarned_lc (t tr : Rat) : (s.wireWarned c t tr).lc c = s.lc c := by
  unfold State.wireWarned
  split
  · exact s.setFlag_lc c _ c
  · split <;> rfl

theorem State.wireWarned_start (t tr : Rat) : (s.wireWarned c t tr).start = s.start := by
  unfold State.wireWarned
  split
  · exact s.setFlag_start c _
  · split <;> rfl

theorem State.wireSeen_temp : ((s.wireSeen c meanI2).lc c).temp = (s.wireStepped c meanI2).temp := by
  unfold State.wireSeen
  rw [State.wireWarned_lc, State.putLc_lc_same]

theorem State.wireSeen_start : (s.wireSeen c meanI2).start = s.start := by
  unfold State.wireSeen
  rw [State.wireWarned_start, State.putLc_start]

theorem State.wireModel_temp : ((s.wireModel c meanI2).lc c).temp =
    wireStep s.ambient (s.lc c).temp (s.lc c).csa (s.lc c).insul meanI2 := by
  rw [State.wireModel_eq, ← State.wireStepped_temp, ← State.wireSeen_temp]
  split
  · exact State.trip_temp _ c _
  · rfl

theorem State.wireModel_start : (s.wireModel c meanI2).start = s.start := by
  rw [State.wireModel_eq, ← s.wireSeen_start c meanI2]
  split
  · exact State.trip_start _ c _
  · rfl

end wire

theorem execWireModelStep_run (s : State) (c : Fin 96) (hc : s.isChan c = true) (hdie : s.dieLost (bankOf c) = false)
    (hp : s.phase = Ph.run) (meanI2 : Nat) : Gives (.wireModelStep c meanI2) s fun t =>
      (t.lc c).temp = wireStep s.ambient (s.lc c).temp (s.lc c).csa (s.lc c).insul meanI2 := by
  have hrun : (s.wireModel c meanI2).phase = Ph.run := (State.phase_congr (s.wireModel_start c meanI2)).trans hp
  exact ⟨_, congrArg Host.Outcome.next ((s.onChan_live c _ hc hdie).trans (State.tripWakes_run _ _ c hrun)), s.wireModel_temp c meanI2⟩

/-- Settles O21: each row on a channel in its die is its branch of the model's operation; the wire model's step writes the temperature
before its flag and its trip, which leave it. -/
theorem dieWatchesSetFlags : Obligations.DieWatchesSetFlags := by
  unfold Obligations.DieWatchesSetFlags
  intro s c hc hdie
  exact ⟨execOcWarnChange_live s c hc hdie, execTempWarnChange_live s c hc hdie, execTempLatchRelease_latched s c hc hdie,
    execTempLatchRelease_other s c hc hdie, execOpenLoadOnstate_steady s c hc hdie, execOffStateCheckTick_starts s c hc hdie,
    execOffStateShortSample_step s c hc hdie, execOffStateOpenSample_step s c hc hdie, execEpisodeClose_quiet s c hc hdie,
    execWireModelStep_run s c hc hdie⟩

end Sys2Proof.Machine

/-! SUPPORT. Feeds, holds and records (R130, R136 to R138, R416): each row on a feed or a channel whose die has its state. -/

namespace Sys2Proof.Machine

/-! A feed's mean (R136) -/

theorem b2n_beq_one (b : Bool) : (b2n b == 1) = b := by cases b <;> rfl

/-- A one-bit field shows the truth value that was put there. -/
theorem State.is_put_b2n (s : State) (x : Fld) (b : Bool) (i j cp : Nat) (hhi : x.hi < 32) (hbit : x.hi = x.lo) :
    (s.put x (b2n b) i j cp).is x i j cp = b := by
  have hwidth : x.hi + 1 - x.lo = 1 := by omega
  have hfits : b2n b % 2 ^ 1 = b2n b := Nat.mod_eq_of_lt (by cases b <;> decide)
  rw [State.is_of_get (State.get_put_same _ _ _ _ _ _ hhi), hwidth, hfits, b2n_beq_one]

section feed
variable (s : State) (f : Nat)

theorem State.feedLive_of_die (hdie : s.dieLost (2 * f) = false) : s.feedLive f = true := by
  unfold State.feedLive
  rw [hdie]
  rfl

/-- Whether a mean exceeds the limit in force (R136). -/
def State.overLimit (mean : Nat) : Bool := (s.fd f).limit != 0 && decide (mean > 100 * (s.fd f).limit)

/-- What the feed logic holds after a mean: its counts toward a shed step and a restore (R136, R138). -/
def State.feedMeasured (mean : Nat) : FeedSt :=
  let x := s.fd f
  let shed := (s.feedChans f).any fun c => s.flag c Flag.budgetShed
  let under := decide (10 * mean < 9 * 100 * x.limit)
  { x with
    mean := mean
    overs := if s.overLimit f mean then min (x.overs + 1) 20 else 0
    restore := if shed && under then min (x.restore + 1) 5000 else 0 }

theorem State.feedMean_live (hlive : s.feedLive f = true) (mean : Nat) : s.feedMean f mean =
    ((s.sample 4 f mean).put F.FEED_STATUS_OVER (b2n (s.overLimit f mean)) f).putFd f (s.feedMeasured f mean) :=
  if_neg (by rw [hlive]; decide)

theorem State.feedMeasured_mean (mean : Nat) : (s.feedMeasured f mean).mean = mean := rfl

theorem State.feedMeasured_overs (mean : Nat) :
    (s.feedMeasured f mean).overs = if s.overLimit f mean then min ((s.fd f).overs + 1) 20 else 0 := rfl

theorem State.overLimit_of_gt (mean : Nat) (hset : (s.fd f).limit ≠ 0) (hgt : 100 * (s.fd f).limit < mean) : s.overLimit f mean = true := by
  simp [State.overLimit, hset, hgt]

theorem State.overLimit_of_le (mean : Nat) (hle : mean ≤ 100 * (s.fd f).limit) : s.overLimit f mean = false := by
  simp [State.overLimit, hle]

end feed

theorem execFeedMean_live (s : State) (f : Fin 2) (mean : Nat) (hdie : s.dieLost (2 * f) = false) : Gives (.feedMean f mean) s fun t =>
    (t.fd f).mean = mean ∧ t.is F.FEED_STATUS_OVER f = ((s.fd f).limit != 0 && decide (mean > 100 * (s.fd f).limit)) ∧
      ((s.fd f).limit ≠ 0 → 100 * (s.fd f).limit < mean → (t.fd f).overs = min ((s.fd f).overs + 1) 20) ∧
      (mean ≤ 100 * (s.fd f).limit → (t.fd f).overs = 0) := by
  refine ⟨_, congrArg Host.Outcome.next (s.feedMean_live f (s.feedLive_of_die f hdie) mean), ?_, ?_, ?_, ?_⟩
  · rw [State.putFd_fd, State.feedMeasured_mean]
  · exact (State.is_of_get (State.putFd_get _ _ _ _ _ _ _)).trans (State.is_put_b2n _ _ _ _ _ _ (by decide) rfl)
  · intro hset hgt
    rw [State.putFd_fd, State.feedMeasured_overs, s.overLimit_of_gt f mean hset hgt, if_pos rfl]
  · intro hle
    rw [State.putFd_fd, State.feedMeasured_overs, s.overLimit_of_le f mean hle, if_neg Bool.false_ne_true]

/-! A shed step (R137) and a restore (R138) -/

/-- The channels a shed step takes, and whether their means reach the excess. -/
def State.shedTaken (s : State) (f : Nat) (means : List (Fin 96 × Nat)) : List Nat × Bool :=
  shedTake (meanOf means) ((s.fd f).mean - 100 * (s.fd f).limit) (s.shedOrder f)

/-- A shed step before its shortfall: the channels taken are shed, the counts start again and SHED is raised. -/
def State.shedDone (s : State) (f : Nat) (l : List Nat) : State :=
  ((s.each l State.shedChan).putFd f { s.fd f with overs := 0, restore := 0 }).put F.FEED_EVENTS_SHED 1 f

theorem State.shedStep_due (s : State) (f : Nat) (means : List (Fin 96 × Nat)) (hlive : s.feedLive f = true) (hdue : (s.fd f).overs = 20) :
    s.shedStep f means =
      if (s.shedTaken f means).2 then s.shedDone f (s.shedTaken f means).1
      else ((s.shedDone f (s.shedTaken f means).1).put F.FEED_EVENTS_SHORTFALL 1 f).put F.FEED_STATUS_SHORTFALL 1 f :=
  if_neg (by rw [hlive, hdue]; decide)

theorem execShedStep_due (s : State) (f : Fin 2) (means : List (Fin 96 × Nat)) (hdie : s.dieLost (2 * f) = false)
    (hdue : (s.fd f).overs = 20) :
    let q := s.shedTaken f means
    let u := s.shedDone f q.1
    (q.2 = true → exec (.shedStep f means) s = .next u) ∧
    (q.2 = false →
      exec (.shedStep f means) s = .next ((u.put F.FEED_EVENTS_SHORTFALL 1 f).put F.FEED_STATUS_SHORTFALL 1 f)) := by
  have hstep := s.shedStep_due f means (s.feedLive_of_die f hdie) hdue
  exact ⟨fun hreached => congrArg Host.Outcome.next (hstep.trans (if_pos hreached)),
    fun hshort => congrArg Host.Outcome.next (hstep.trans (if_neg (Bool.eq_false_iff.1 hshort)))⟩

/-- The channel a restore takes is the one that was next before the counts started again: the counts are not looked at. -/
theorem State.putFd_restoreNext (s : State) (f g : Nat) (x : FeedSt) : (s.putFd f x).restoreNext g = s.restoreNext g := rfl

theorem execRestore_next (s : State) (f : Fin 2) (c : Nat) (hdie : s.dieLost (2 * f) = false) (hdue : (s.fd f).restore = 5000)
    (hnext : s.restoreNext f = some c) : exec (.restore f) s =
      .next ((((s.putFd f { s.fd f with restore := 0 }).clearFlag c Flag.budgetShed).resolve c).put F.FEED_EVENTS_RESTORE 1 f) := by
  have hruns : ¬(!s.feedLive f || (s.fd f).restore != 5000) = true := by
    rw [s.feedLive_of_die f hdie, hdue]
    decide
  refine congrArg Host.Outcome.next ((if_neg hruns).trans ?_)
  rw [State.putFd_restoreNext, hnext]

/-! A KEEP_FOR hold that runs out (R130) -/

theorem execHoldMsExpiry_keepFor (s : State) (c : Fin 96) (hc : s.isChan c = true) (hdie : s.dieLost (bankOf c) = false)
    (hholds : s.flag c Flag.holding = true) (hkeepFor : (s.lc c).holdPol = 2) : exec (.holdMsExpiry c) s =
      .next (((s.put F.LCH_PROT_HOLD_EXPIRED 1 c).putLc c { s.lc c with holdVal := false }).resolve c) :=
  congrArg Host.Outcome.next ((s.onChan_live c _ hc hdie).trans (if_pos (by rw [hholds, hkeepFor]; rfl)))

/-! A retirement's record (R416) -/

theorem State.putRetired_unitRetired (s : State) (kind unit : Nat) : (s.putRetired kind unit true).unitRetired kind unit = true := by
  have hbit : unit % 32 < 32 := Nat.mod_lt _ (by decide)
  unfold State.putRetired State.unitRetired bitOf
  rw [State.get_put_same _ _ _ _ _ _ (by decide), Nat.testBit_mod_two_pow, setBitTo_testBit_same]
  exact (Bool.and_true _).trans (decide_eq_true hbit)

theorem State.recordRetirement_unitRetired (s : State) (kind unit : Nat) (hpend : (kind, unit) ∈ s.flt.pend) :
    (s.recordRetirement kind unit).unitRetired kind unit = true := by
  unfold State.recordRetirement
  rw [if_pos (List.contains_iff_mem.2 hpend)]
  exact State.putRetired_unitRetired _ _ _

theorem execRetirementRecord_pending (s : State) (kind : Fin 7) (unit : Fin 128) (hawake : s.awake = true)
    (hpend : (kind.val, unit.val) ∈ s.flt.pend) : Gives (.retirementRecord kind unit) s fun t =>
      t.unitRetired kind unit = true ∧ (kind.val, unit.val) ∉ t.flt.pend := by
  refine ⟨_, congrArg Host.Outcome.next (if_pos hawake), s.recordRetirement_unitRetired kind unit hpend, ?_⟩
  rw [State.recordRetirement_pend]
  simp

/-- Settles O22: each row is its branch of the model's operation. A mean replaces what the feed logic holds after OVER is put; a shed step takes
the leading candidates and forks on whether they suffice; a restore takes the next channel, which the counts do not decide; a record
clears SUSPECT and the entry that waits before it sets RETIRED. -/
theorem feedsShedAndRestore : Obligations.FeedsShedAndRestore := by
  unfold Obligations.FeedsShedAndRestore
  exact ⟨execFeedMean_live, execShedStep_due, execRestore_next, execHoldMsExpiry_keepFor,
    fun s kind unit hawake hpend _ => execRetirementRecord_pending s kind unit hawake hpend⟩

end Sys2Proof.Machine

/-! SUPPORT. The events that an operation raises, the acknowledgement of a Clamp rule (R150, R151) and what the input pins report (R141 to
R145). -/

namespace Sys2Proof.Machine

/-! A W1C field that an operation raises -/

section raised
variable (s : State) (x : Fld) (i j cp : Nat) (owner : Option Nat) (src unit : Nat)

/-- Raising an event leaves the other fields of its register; its log entry stands in the recorder's window (R118, R400). -/
theorem State.raise_get_fld (mask : Nat) (y : Fld) (i' j' cp' : Nat) (hwin : (regDef y.reg).win ≠ .recw) (hx : x.hi < 32)
    (hapart : y.hi < x.lo ∨ x.hi < y.lo) : (s.raise x mask i j cp owner src unit).get y i' j' cp' = s.get y i' j' cp' := by
  have hput : (s.put x (s.get x i j cp ||| mask) i j cp).get y i' j' cp' = s.get y i' j' cp' := s.get_put_fld _ _ _ _ _ _ _ _ _ hx hapart
  unfold State.raise
  dsimp only
  split
  · rfl
  · split
    · exact (State.logEvent_get _ _ _ _ _ _ _ _ _ hwin).trans hput
    · exact hput

/-- An event bit that is raised is set: it rises, or was set before. -/
theorem State.raise_is_same (hwin : (regDef x.reg).win ≠ .recw) (hx : x.hi < 32) (hbit : x.hi = x.lo) :
    (s.raise x 1 i j cp owner src unit).is x i j cp = true := by
  have hwidth : x.hi + 1 - x.lo = 1 := by omega
  have hold : s.get x i j cp < 2 := lt_of_lt_of_eq (fieldGet_lt _ _ _) (by rw [hwidth]; rfl)
  have hput : (s.put x (s.get x i j cp ||| 1) i j cp).get x i j cp = 1 := by
    rw [State.get_put_same _ _ _ _ _ _ hx, hwidth]
    interval_cases s.get x i j cp <;> rfl
  refine beq_iff_eq.2 ?_
  unfold State.raise
  dsimp only
  split
  · next hsame =>
    interval_cases hval : s.get x i j cp
    · exact absurd hsame (by decide)
    · rfl
  · split
    · exact (State.logEvent_get _ _ _ _ _ _ _ _ _ hwin).trans hput
    · exact hput

end raised

/-! What an acknowledgement is judged by (R149, R150) -/

theorem State.rule_congr {s t : State} (h : t.img = s.img) (r w hi lo : Nat) : t.rule r w hi lo = s.rule r w hi lo := by
  simp only [State.rule, State.imgF, State.sec, h]

/-- The result of a rule is of the image, the units out of service and the comparators. -/
theorem State.ruleNow_congr {s t : State} (himg : t.img = s.img) (hflt : t.flt = s.flt) (hfront : t.front = s.front) (r : Nat) :
    t.ruleNow r = s.ruleNow r := by
  have hcmp : t.ruleCmp r = s.ruleCmp r := by simp only [State.ruleCmp, State.cmpOut, State.rule_congr himg, hfront]
  have hcond : ∀ k cmp, t.ruleCond r k cmp = s.ruleCond r k cmp := fun k cmp => by
    unfold State.ruleCond State.ruleForcesOn State.unitOut
    rw [hflt, State.rule_congr himg r 1 (8 * k + 6), State.rule_congr himg r 1 (8 * k + 7), State.rule_congr himg r 0 3]
  unfold State.ruleNow State.ruleResult
  rw [hcmp, State.rule_congr himg r 0 1 1, State.rule_congr himg r 0 9 8]
  simp only [hcond]

/-- The registers in which the answer to an acknowledgement is seen. -/
def ackRegs : List RegId := [.CLP_STAT, .CLP_ACK_STATUS]

theorem ackRegs_win : ∀ r ∈ ackRegs, (regDef r).win ≠ .recw := by decide

theorem ackRegs_apart : ∀ r ∈ ackRegs, r.ctorIdx ≠ RegId.MTR_INT_ACK.ctorIdx ∧ r.ctorIdx ≠ RegId.CLP_FIRES.ctorIdx ∧
    r.ctorIdx ≠ RegId.CLP_CHAN.ctorIdx ∧ r.ctorIdx ≠ RegId.LCH_STATE.ctorIdx ∧ r.ctorIdx ≠ RegId.LCH_FLAGS.ctorIdx ∧
    r.ctorIdx ≠ RegId.LCH_EVENTS.ctorIdx := by decide

section shown
variable (s : State) (r : Nat) (y : Fld) (i j cp : Nat) (hy : y.reg ∈ ackRegs)
include hy

/-- Targets brought up to date leave the rules (R152). -/
theorem State.clampTargets_get : (s.clampTargets r).get y i j cp = s.get y i j cp := by
  obtain ⟨hline, -, hchan, hstate, hflags, hevents⟩ := ackRegs_apart _ hy
  exact State.each_inv (fun t => t.get y i j cp) _ _ _ fun t c =>
    t.clampChan_get c y i j cp (ackRegs_win _ hy) hstate hflags hevents hline hchan

/-- A fire leaves every field of them but FIRED (R150). -/
theorem State.ruleFire_get (hapart : y.hi < 16 ∨ 16 < y.lo) : (s.ruleFire r).get y i j cp = s.get y i j cp := by
  obtain ⟨hline, hfires, -⟩ := ackRegs_apart _ hy
  have hwin := ackRegs_win _ hy
  have hfired : ∀ d, (((s.bump F.CLP_FIRES_COUNT 1 r).raise F.CLP_STAT_FIRED 1 r 0 0 (some d) 2 r).mitreLine 8).get y i j cp =
      s.get y i j cp := fun d =>
    (State.mitreLine_get _ _ _ _ _ _ hline).trans <|
      (State.raise_get_fld _ _ _ _ _ _ _ _ _ _ _ _ _ hwin (by decide) hapart).trans (s.bump_get_ne _ _ _ _ _ _ _ _ _ hfires)
  unfold State.ruleFire
  dsimp only
  split
  · exact (State.alarm_get _ _ _ _ _ _ _ _ _ hwin).trans (hfired _)
  · exact hfired _

end shown

/-! An acknowledgement in each state of its rule (R151) -/

/-- An acknowledged rule before its targets: RESULT 1, IDLE, and RELEASED raised. -/
def State.ruleReleased (s : State) (r : Nat) : State :=
  (((s.put F.CLP_ACK_STATUS_RULE r).put F.CLP_ACK_STATUS_RESULT 1).put F.CLP_STAT_STATE Rule.idle r).raise F.CLP_STAT_RELEASED 1 r 0 0
    (some (s.rule r 0 7 4)) 2 r

/-- A released rule whose result is true again, before its targets: ACTIVE, and fired (R150, R151). -/
def State.ruleRefired (s : State) (r : Nat) : State :=
  ((((s.ruleReleased r).ruleShow r).put F.CLP_STAT_RESULT 1 r).put F.CLP_STAT_STATE Rule.active r).ruleFire r

section acknowledged
variable (s : State) (r : Nat)

theorem State.ruleReleased_ruleNow : (s.ruleReleased r).ruleNow r = s.ruleNow r :=
  State.ruleNow_congr (State.raise_img _ _ _ _ _ _ _ _ _) (State.raise_flt _ _ _ _ _ _ _ _ _) (State.raise_front _ _ _ _ _ _ _ _ _) r

theorem State.ruleReleased_state : (s.ruleReleased r).get F.CLP_STAT_STATE r = Rule.idle :=
  (State.raise_get_fld _ _ _ _ _ _ _ _ _ _ _ _ _ (by decide) (by decide) (by decide)).trans (State.get_put_same _ _ _ _ _ _ (by decide))

theorem State.ruleReleased_result : (s.ruleReleased r).get F.CLP_ACK_STATUS_RESULT = 1 :=
  (State.raise_get _ _ _ _ _ _ _ _ _ _ _ _ _ (by decide) (by decide)).trans <|
    (State.get_put_reg _ _ _ _ _ _ _ _ _ _ (by decide)).trans (State.get_put_same _ _ _ _ _ _ (by decide))

/-- A result that goes true in IDLE activates its rule, which fires (R150). -/
theorem State.ruleStep_idle (h : s.get F.CLP_STAT_STATE r = Rule.idle) :
    s.ruleStep r true = ((s.put F.CLP_STAT_RESULT 1 r).put F.CLP_STAT_STATE Rule.active r).ruleFire r := by
  unfold State.ruleStep
  exact if_pos h

theorem State.ruleAck_latched (h : s.get F.CLP_STAT_STATE r = Rule.latched) : s.ruleAck r =
    if s.ruleNow r then (s.ruleRefired r).clampTargets r else (s.ruleReleased r).clampTargets r := by
  have hshown : ((s.ruleReleased r).ruleShow r).get F.CLP_STAT_STATE r = Rule.idle :=
    (State.get_put_fld _ _ _ _ _ _ _ _ _ _ (by decide) (by decide)).trans (s.ruleReleased_state r)
  have hack : s.ruleAck r = if (s.ruleReleased r).ruleNow r then ((s.ruleReleased r).ruleShow r).ruleMove r true
      else (s.ruleReleased r).clampTargets r := by
    unfold State.ruleAck
    exact if_pos h
  rw [hack, s.ruleReleased_ruleNow, State.ruleMove, State.ruleStep_idle _ _ hshown]
  rfl

theorem State.ruleAck_active (h : s.get F.CLP_STAT_STATE r = Rule.active) :
    s.ruleAck r = (s.put F.CLP_ACK_STATUS_RULE r).put F.CLP_ACK_STATUS_RESULT 3 := by
  simp [State.ruleAck, h]

theorem State.ruleAck_unheld (h : s.get F.CLP_STAT_STATE r = Rule.idle ∨ s.get F.CLP_STAT_STATE r = Rule.disabled) :
    s.ruleAck r = (s.put F.CLP_ACK_STATUS_RULE r).put F.CLP_ACK_STATUS_RESULT 2 := by
  rcases h with h | h <;> simp [State.ruleAck, h]

theorem State.ruleRefired_state : ((s.ruleRefired r).clampTargets r).get F.CLP_STAT_STATE r = Rule.active :=
  (State.clampTargets_get _ _ _ _ _ _ (by decide)).trans <|
    (State.ruleFire_get _ _ _ _ _ _ (by decide) (by decide)).trans (State.get_put_same _ _ _ _ _ _ (by decide))

theorem State.ruleRefired_result : ((s.ruleRefired r).clampTargets r).get F.CLP_ACK_STATUS_RESULT = 1 := by
  refine (State.clampTargets_get _ _ _ _ _ _ (by decide)).trans ((State.ruleFire_get _ _ _ _ _ _ (by decide) (by decide)).trans ?_)
  rw [State.get_put_reg _ _ _ _ _ _ _ _ _ _ (by decide), State.get_put_reg _ _ _ _ _ _ _ _ _ _ (by decide), State.ruleShow,
    State.get_put_reg _ _ _ _ _ _ _ _ _ _ (by decide), State.ruleReleased_result]

end acknowledged

/-! The write that acknowledges -/

theorem ackWord_fields (r : Fin 64) : bitOf (2 ^ 31 + r) 31 = true ∧ bitsOf (2 ^ 31 + r) 5 0 = r := by
  have hr := r.isLt
  constructor
  · unfold bitOf
    rw [Nat.testBit_eq_decide_div_mod_eq]
    exact decide_eq_true (by omega)
  · unfold bitsOf
    omega

theorem State.sensePins_img (s : State) (l : PinMv) : (s.sensePins l).img = s.img := by rw [State.sensePins_eq]

theorem State.sensePins_awake (s : State) (l : PinMv) : (s.sensePins l).awake = s.awake := by rw [State.sensePins_eq]; rfl

theorem State.sensePins_get (s : State) (l : PinMv) (y : Fld) (i j cp : Nat) : (s.sensePins l).get y i j cp = s.get y i j cp := by
  rw [State.sensePins_eq]
  rfl

section write
variable (s : State) (m : Master) (r : Fin 64) (mv : PinMv) (a : Access)

theorem execClampAck_writes (h : (s.sensePins mv).writes m .CLP_ACK none 0 0 (2 ^ 31 + r) a) :
    exec (.clampAck m ⟨r, mv⟩) s = .next ((((s.sensePins mv).taken a).ruleAck r).answer true 0) := by
  have ⟨_, hopen, _⟩ := h
  have hawake : s.awake = true := (s.sensePins_awake mv).symm.trans hopen
  obtain ⟨hack, hrule⟩ := ackWord_fields r
  have hwrite : ((s.sensePins mv).taken a).ackWrite (2 ^ 31 + r) = ((s.sensePins mv).taken a).ruleAck r := by
    unfold State.ackWrite
    rw [if_pos hack, hrule]
  have hcmd := State.regCmd_writes_ne _ m .CLP_ACK none 0 (2 ^ 31 + r) 0 a (by unfold hasPos; decide) h rfl (by decide)
  have hrun : exec (.clampAck m ⟨r, mv⟩) s =
      .next ((if s.awake then s.sensePins mv else s).regCmd m .CLP_ACK none 0 (2 ^ 31 + r)) := rfl
  rw [hrun, if_pos hawake, hcmd, ← hwrite]
  rfl

theorem State.taken_ruleNow : (s.taken a).ruleNow r = s.ruleNow r :=
  State.ruleNow_congr (s.taken_img a) (s.taken_flt a) (s.taken_front a) r

theorem State.sensePins_taken_ruleState : ((s.sensePins mv).taken a).get F.CLP_STAT_STATE r = s.get F.CLP_STAT_STATE r :=
  (State.taken_get _ a _ _ _ _ (by decide) (by decide)).trans (s.sensePins_get mv _ _ _ _)

theorem State.sensePins_taken_rule (w hi lo : Nat) : ((s.sensePins mv).taken a).rule r w hi lo = s.rule r w hi lo :=
  State.rule_congr ((State.taken_img _ a).trans (s.sensePins_img mv)) r w hi lo

end write

/-- Settles O24: the write that opens is the model's acknowledgement, judged by the rule's state, which neither the pins nor the access
change; a released rule is IDLE with the result it had, so a true one is the fire of an idle rule. -/
theorem clampAcknowledgementIsJudged : Obligations.ClampAcknowledgementIsJudged := by
  unfold Obligations.ClampAcknowledgementIsJudged
  intro s m r mv a p hwrite u st w
  have hexec := execClampAck_writes s m r mv a hwrite
  have hstate : (p.taken a).get F.CLP_STAT_STATE r = st := s.sensePins_taken_ruleState r mv a
  have hnow : (p.taken a).ruleNow r = p.ruleNow r := p.taken_ruleNow r a
  have hreleased : (p.taken a).ruleReleased r = w := by
    unfold State.ruleReleased
    rw [s.sensePins_taken_rule r mv a]
  refine ⟨fun hlatched hfalse => ?_, fun hlatched htrue => ?_, fun hactive => ?_, fun hunheld => ?_⟩
  · rw [hexec, State.ruleAck_latched _ _ (hstate.trans hlatched), hnow, hfalse, if_neg Bool.false_ne_true, hreleased]
  · have hrefired : exec (.clampAck m ⟨r, mv⟩) s = .next ((((p.taken a).ruleRefired r).clampTargets r).answer true 0) := by
      rw [hexec, State.ruleAck_latched _ _ (hstate.trans hlatched), hnow, htrue, if_pos rfl]
    refine ⟨_, hrefired, State.ruleRefired_state _ _, State.ruleRefired_result _ _, ?_⟩
    rw [hrefired, State.ruleRefired, hreleased]
  · rw [hexec, State.ruleAck_active _ _ (hstate.trans hactive)]
  · rw [hexec, State.ruleAck_unheld _ _ (by rwa [hstate])]

end Sys2Proof.Machine

/-! SUPPORT. What the input pins report (R141 to R145): each row on a pin in service. -/

namespace Sys2Proof.Machine

theorem State.onPin_inService (s : State) (p : Nat) (l : List Nat) (f : State → State) (hlive : s.live 19 = true)
    (hin : s.unitOut 2 p = false) (hmode : s.miMode p ∈ l) (hused : s.miMode p ≠ 0) : s.onPin p l f = f s := by
  unfold State.onPin State.miLive
  rw [hlive, hin, List.contains_iff_mem.2 hmode, bne_iff_ne.2 hused]
  rfl

/-! A pin's events -/

section event
variable (s : State) (p : Nat) (x y : Fld) (i j cp : Nat)

theorem State.miEvent_get (hwin : (regDef y.reg).win ≠ .recw) (hreg : y.reg.ctorIdx ≠ x.reg.ctorIdx) :
    (s.miEvent p x).get y i j cp = s.get y i j cp := State.raise_get _ _ _ _ _ _ _ _ _ _ _ _ _ hwin hreg

@[simp] theorem State.miEvent_cmpOut (q : Nat) : (s.miEvent p x).cmpOut q = s.cmpOut q := by
  unfold State.miEvent State.cmpOut
  rw [State.raise_front]

@[simp] theorem State.miEvent_pin (q : Nat) : (s.miEvent p x).pin q = s.pin q :=
  congrArg (storeGet PinSt.rst · q) (State.raise_pins _ _ _ _ _ _ _ _ _)

/-- The event of a value out of its range, when there is one (R143 to R145). -/
def State.rangeEvent (due : Bool) : State := if due then s.miEvent p F.INP_MI_STAT_RANGE_EV else s

variable (due : Bool)

theorem State.rangeEvent_get (hwin : (regDef y.reg).win ≠ .recw) (hapart : y.reg.ctorIdx ≠ RegId.INP_MI_STAT.ctorIdx ∨ y.hi < 10) :
    (s.rangeEvent p due).get y i j cp = s.get y i j cp := by
  unfold State.rangeEvent
  split
  · rcases hapart with hreg | hlow
    · exact State.miEvent_get _ _ _ _ _ _ _ hwin hreg
    · exact State.raise_get_fld _ _ _ _ _ _ _ _ _ _ _ _ _ hwin (by decide) (.inl hlow)
  · rfl

theorem State.rangeEvent_is (hwin : (regDef y.reg).win ≠ .recw) (hapart : y.reg.ctorIdx ≠ RegId.INP_MI_STAT.ctorIdx ∨ y.hi < 10) :
    (s.rangeEvent p due).is y i j cp = s.is y i j cp := State.is_of_get (s.rangeEvent_get p y i j cp due hwin hapart)

theorem State.rangeEvent_pin (q : Nat) : (s.rangeEvent p due).pin q = s.pin q := by
  unfold State.rangeEvent
  split
  · exact s.miEvent_pin p _ q
  · rfl

end event

@[simp] theorem State.put_pin (s : State) (x : Fld) (v i j cp q : Nat) : (s.put x v i j cp).pin q = s.pin q := rfl

@[simp] theorem State.putPin_pin (s : State) (p : Nat) (x : PinSt) : (s.putPin p x).pin p = x := storeGet_put_same _ _ _ _

/-! A DIGITAL pin (R141, R142) -/

theorem setBitTo_testBit (w i : Nat) (b : Bool) : (setBitTo w i b).testBit i = b := by
  cases b with
  | true => exact setBitTo_testBit_same w i
  | false => exact setBitTo_testBit_cleared w i

section digital
variable (s : State) (p : Nat)

theorem State.sense_cmpOut (mv : Nat) : (s.sense p mv).cmpOut p = s.compare p mv := setBitTo_testBit _ _ _

theorem State.compare_digital (mv : Nat) (h : s.miMode p = 1) : s.compare p mv =
    (decide (10 * s.mi p 0 31 16 < mv) || (s.cmpOut p && decide (10 * (s.mi p 0 31 16 - s.mi p 1 15 0) ≤ mv))) := by
  simp [State.compare, State.miCompares, State.miHigh, State.miLow, h]

variable (v : Bool)

theorem State.miLevel_value : (s.miLevel p v).get F.INP_MI_VAL_VALUE p = b2n v := by
  have hput : (s.put F.INP_MI_VAL_VALUE (b2n v) p).get F.INP_MI_VAL_VALUE p = b2n v :=
    (State.get_put_same _ _ _ _ _ _ (by decide)).trans (by cases v <;> rfl)
  unfold State.miLevel
  dsimp only
  split
  · exact hput
  · exact (State.miEvent_get _ _ _ _ _ _ _ (by decide) (by cases v <;> decide)).trans hput

theorem State.miLevel_cmpOut (q : Nat) : (s.miLevel p v).cmpOut q = s.cmpOut q := by
  unfold State.miLevel
  dsimp only
  split
  · rfl
  · exact State.miEvent_cmpOut _ _ _ _

theorem State.miLevel_changed (h : bitOf (s.get F.INP_MI_VAL_VALUE p) 0 ≠ v) :
    (s.miLevel p v).is (if v then F.INP_MI_STAT_RISE else F.INP_MI_STAT_FALL) p = true := by
  unfold State.miLevel
  dsimp only
  rw [if_neg h]
  cases v <;> exact State.raise_is_same _ _ _ _ _ _ _ _ (by decide) (by decide) rfl

end digital

theorem execMiLevelChange_digital (s : State) (p : Fin 128) (mv : Nat) (hlive : s.live 19 = true) (hin : s.unitOut 2 p = false)
    (hmode : s.miMode p = 1) : exec (.miLevelChange p mv) s = .next ((s.sense p mv).miLevel p (s.compare p mv)) := by
  have hheld : s.miHeld p mv = (s.sense p mv).miLevel p (s.compare p mv) := congrArg (State.miLevel _ p) (s.sense_cmpOut p mv)
  exact congrArg Host.Outcome.next ((s.onPin_inService p _ _ hlive hin (by simp [hmode]) (by simp [hmode])).trans hheld)

/-! Analog and resistive pins (R143, R144) -/

/-- A pin's conversions with a further one, and the value that they give. -/
def State.miReported (s : State) (p : Nat) (codes : List Nat) (v : Nat) : State :=
  (s.putPin p { s.pin p with codes := codes }).put F.INP_MI_VAL_VALUE v p

/-- The conversions that the filter of pin p averages after a further one (R143): FILTER / 10 of them, by the choice of log entry 8. -/
def State.miCodes (s : State) (p code : Nat) : List Nat := (code :: (s.pin p).codes).take (s.miDepth p)

/-- What a resistive pin reports: the resistance of the mean, or the largest value at the compliance voltage (R144); a half is rounded up,
by the choice of log entry 104. -/
def State.miOhms (s : State) (p : Nat) (codes : List Nat) (comp : Bool) : Nat :=
  if comp then 0xFFFFF else min 0xFFFFF (divRound (meanCode codes * 200000) (4096 * s.mi p 1 15 0))

section conversion
variable (s : State) (p : Nat)

theorem State.miConvert_analog (code : Nat) (comp : Bool) (hcode : code ≤ 4095) (hmode : s.miMode p ≠ 4) : s.miConvert p code comp =
    ((s.miReported p (s.miCodes p code) (meanCode (s.miCodes p code))).put F.INP_MI_STAT_OVERRANGE (b2n (code == 4095)) p).rangeEvent p
      (code == 4095 && !s.is F.INP_MI_STAT_OVERRANGE p) := by
  unfold State.miConvert
  rw [Nat.min_eq_left hcode]
  exact if_neg hmode

theorem State.miConvert_resistive (code : Nat) (comp : Bool) (hcode : code ≤ 4095) (hmode : s.miMode p = 4) : s.miConvert p code comp =
    let t := s.miReported p (s.miCodes p code) (s.miOhms p (s.miCodes p code) comp)
    (t.put F.INP_MI_STAT_OPEN (b2n comp) p).rangeEvent p (comp && !t.is F.INP_MI_STAT_OPEN p) := by
  unfold State.miConvert
  rw [Nat.min_eq_left hcode]
  exact if_pos hmode

/-- A conversion that is reported with its flag in INP_MI_STAT shows the value and the flag, and keeps the conversions. -/
theorem State.miReported_shows (codes : List Nat) (v : Nat) (x : Fld) (flag due : Bool) (hreg : x.reg = .INP_MI_STAT) (hlow : x.hi < 10)
    (hbit : x.hi = x.lo) :
    let t := ((s.miReported p codes v).put x (b2n flag) p).rangeEvent p due
    t.get F.INP_MI_VAL_VALUE p = v % 2 ^ 28 ∧ t.is x p = flag ∧ (t.pin p).codes = codes := by
  refine ⟨?_, ?_, ?_⟩
  · rw [State.rangeEvent_get _ _ F.INP_MI_VAL_VALUE _ _ _ _ (by decide) (.inl (by decide)),
      State.get_put_reg _ _ _ _ _ _ _ _ _ _ (by rw [hreg]; decide), State.miReported]
    exact State.get_put_same _ _ _ _ _ _ (by decide)
  · rw [State.rangeEvent_is _ _ _ _ _ _ _ (by rw [hreg]; decide) (.inr hlow), State.is_put_b2n _ _ _ _ _ _ (by omega) hbit]
  · rw [State.rangeEvent_pin, State.put_pin, State.miReported, State.put_pin, State.putPin_pin]

theorem State.miOhms_lt (codes : List Nat) (comp : Bool) : s.miOhms p codes comp < 2 ^ 28 := by
  unfold State.miOhms
  split <;> omega

end conversion

theorem execAnalogConversion_analog (s : State) (p : Fin 128) (code : BitVec 12) (comp : Bool) (hlive : s.live 19 = true)
    (hin : s.unitOut 2 p = false) (hmode : s.miMode p = 2 ∨ s.miMode p = 3) : Gives (.analogConversion p code comp) s fun t =>
      t.get F.INP_MI_VAL_VALUE p = meanCode (s.miCodes p code.toNat) % 2 ^ 28 ∧ t.is F.INP_MI_STAT_OVERRANGE p = (code.toNat == 4095) ∧
        (t.pin p).codes = s.miCodes p code.toNat := by
  have hmem : s.miMode p ∈ [2, 3, 4] := by rcases hmode with h | h <;> simp [h]
  have hrun := (s.onPin_inService p _ (fun s => s.miConvert p code.toNat comp) hlive hin hmem (by omega)).trans
    (s.miConvert_analog p code.toNat comp (Nat.le_of_lt_succ code.isLt) (by omega))
  exact ⟨_, congrArg Host.Outcome.next hrun, s.miReported_shows p _ _ _ _ _ rfl (by decide) rfl⟩

theorem execAnalogConversion_resistive (s : State) (p : Fin 128) (code : BitVec 12) (comp : Bool) (hlive : s.live 19 = true)
    (hin : s.unitOut 2 p = false) (hmode : s.miMode p = 4) : Gives (.analogConversion p code comp) s fun t =>
      t.get F.INP_MI_VAL_VALUE p = s.miOhms p (s.miCodes p code.toNat) comp ∧ t.is F.INP_MI_STAT_OPEN p = comp ∧
        (t.pin p).codes = s.miCodes p code.toNat := by
  have hrun := (s.onPin_inService p [2, 3, 4] (fun s => s.miConvert p code.toNat comp) hlive hin (by simp [hmode]) (by omega)).trans
    (s.miConvert_resistive p code.toNat comp (Nat.le_of_lt_succ code.isLt) hmode)
  obtain ⟨hvalue, hopen, hcodes⟩ := s.miReported_shows p (s.miCodes p code.toNat) (s.miOhms p (s.miCodes p code.toNat) comp)
    F.INP_MI_STAT_OPEN comp _ rfl (by decide) rfl
  exact ⟨_, congrArg Host.Outcome.next hrun, hvalue.trans (Nat.mod_eq_of_lt (s.miOhms_lt p _ comp)), hopen, hcodes⟩

/-! A FREQUENCY pin (R145) -/

section frequency
variable (s : State) (p : Nat)

/-- The edge after an edge forms a period, and ends a stall. -/
theorem State.miEdge_second (ticks : Nat) (h : (s.pin p).hasEdge = true) : s.miEdge p ticks =
    ((s.incr F.INP_MI_EDGES_EDGES p).put F.INP_MI_VAL_VALUE ticks p).put F.INP_MI_STAT_STALLED 0 p := if_pos h

theorem State.miEdge_first (ticks : Nat) (h : (s.pin p).hasEdge = false) : s.miEdge p ticks =
    (s.incr F.INP_MI_EDGES_EDGES p).putPin p { s.pin p with hasEdge := true } := if_neg (ne_true_of_eq_false h)

theorem State.miEdge_edges (ticks : Nat) : (s.miEdge p ticks).get F.INP_MI_EDGES_EDGES p = (s.get F.INP_MI_EDGES_EDGES p + 1) % 2 ^ 32 := by
  have hincr : (s.incr F.INP_MI_EDGES_EDGES p).get F.INP_MI_EDGES_EDGES p = (s.get F.INP_MI_EDGES_EDGES p + 1) % 2 ^ 32 :=
    (State.get_put_same _ _ _ _ _ _ (by decide)).trans (Nat.mod_mod _ _)
  cases h : (s.pin p).hasEdge with
  | true =>
    rw [s.miEdge_second p ticks h, State.get_put_reg _ _ _ _ _ _ _ _ _ _ (by decide), State.get_put_reg _ _ _ _ _ _ _ _ _ _ (by decide),
      hincr]
  | false => rw [s.miEdge_first p ticks h, State.putPin_get, hincr]

theorem State.miEdge_period (ticks : Nat) (h : (s.pin p).hasEdge = true) :
    (s.miEdge p ticks).get F.INP_MI_VAL_VALUE p = ticks % 2 ^ 28 ∧ (s.miEdge p ticks).is F.INP_MI_STAT_STALLED p = false := by
  rw [s.miEdge_second p ticks h]
  exact ⟨(State.get_put_reg _ _ _ _ _ _ _ _ _ _ (by decide)).trans (State.get_put_same _ _ _ _ _ _ (by decide)),
    State.is_put_b2n _ _ false _ _ _ (by decide) rfl⟩

theorem State.miEdge_hasEdge (ticks : Nat) : ((s.miEdge p ticks).pin p).hasEdge = true := by
  cases h : (s.pin p).hasEdge with
  | true => rw [s.miEdge_second p ticks h]; exact h
  | false => rw [s.miEdge_first p ticks h, State.putPin_pin]

theorem State.miStall_eq : s.miStall p =
    (((s.putPin p { s.pin p with hasEdge := false }).put F.INP_MI_VAL_VALUE 0 p).put F.INP_MI_STAT_STALLED 1 p).rangeEvent p
      (!s.is F.INP_MI_STAT_STALLED p) := by
  unfold State.miStall State.rangeEvent
  cases s.is F.INP_MI_STAT_STALLED p <;> rfl

theorem State.miStall_shows : (s.miStall p).get F.INP_MI_VAL_VALUE p = 0 ∧ (s.miStall p).is F.INP_MI_STAT_STALLED p = true ∧
    ((s.miStall p).pin p).hasEdge = false := by
  rw [s.miStall_eq p]
  refine ⟨?_, ?_, ?_⟩
  · rw [State.rangeEvent_get _ _ F.INP_MI_VAL_VALUE _ _ _ _ (by decide) (.inl (by decide)),
      State.get_put_reg _ _ _ _ _ _ _ _ _ _ (by decide), State.get_put_same _ _ _ _ _ _ (by decide), Nat.zero_mod]
  · rw [State.rangeEvent_is _ _ _ _ _ _ _ (by decide) (.inr (by decide))]
    exact State.is_put_b2n _ _ true _ _ _ (by decide) rfl
  · rw [State.rangeEvent_pin, State.put_pin, State.put_pin, State.putPin_pin]

end frequency

/-- Settles O25: on a pin in service each row is the model's step of its mode. An event that the step raises leaves the value, the lower
flags of INP_MI_STAT, the comparators and the conversions, so the pin shows what the step put there. -/
theorem inputPinsReport : Obligations.InputPinsReport := by
  unfold Obligations.InputPinsReport
  intro s p hlive hin
  refine ⟨?_, fun code comp => ⟨execAnalogConversion_analog s p code comp hlive hin,
    execAnalogConversion_resistive s p code comp hlive hin⟩, fun hmode => ⟨fun ticks => ?_, ?_⟩⟩
  · intro hmode mv high
    have hhigh : s.compare p mv = high := s.compare_digital p mv hmode
    rw [← hhigh]
    exact ⟨_, execMiLevelChange_digital s p mv hlive hin hmode, State.miLevel_value _ _ _,
      (State.miLevel_cmpOut _ _ _ _).trans (s.sense_cmpOut p mv), State.miLevel_changed (s.sense p mv) p _⟩
  · exact ⟨_, congrArg Host.Outcome.next (s.onPin_inService p _ _ hlive hin (by simp [hmode]) (by simp [hmode])), s.miEdge_edges p _,
      s.miEdge_period p _, s.miEdge_hasEdge p _⟩
  · exact ⟨_, congrArg Host.Outcome.next (s.onPin_inService p _ _ hlive hin (by simp [hmode]) (by simp [hmode])), s.miStall_shows p⟩

end Sys2Proof.Machine

/-! SUPPORT. Operations of a lane (R164 to R167, R172): what one comes to where its task stands at its word. -/

namespace Sys2Proof.Machine

/-- An operation that ends at the next one: the effect `t` and its cycles when its condition holds, else one cycle (R165). -/
def State.opEnds (s : State) (k : Nat) (c : OpCond) (cost : Nat) (t : State) : Out :=
  .next (if c.holds (s.flagF k) then t.goto_ k ((s.tk k).pc + 1) cost else s.goto_ k ((s.tk k).pc + 1) 1)

section lane
variable {s : State} {l k : Nat} (h : s.executes l k)
include h

theorem State.onLane_executes {w : Nat} (hat : s.opAt k = w) (f : State → Nat → State) : s.onLane l w f = f s k := by
  obtain ⟨hlane, hruns, hphase, hbelow⟩ := h
  unfold State.onLane
  rw [hlane]
  dsimp only
  rw [if_pos (by rw [hruns, hphase]; rfl), if_neg (Nat.not_le_of_lt hbelow), if_pos hat]

/-- An operation comes to what its lane does with it. -/
theorem State.op_onLane (i : Instr) (f : State → Nat → State) (hexec : exec i s = .next (s.onLane l (laneWord i) f)) :
    s.op k i (.next (f s k)) := fun hat =>
  hexec.trans (congrArg Host.Outcome.next (State.onLane_executes h hat f))

theorem State.op_laneOp (i : Instr) (c : OpCond) (cost : Nat) (f : State → Nat → State)
    (hexec : exec i s = .next (s.laneOp l (laneWord i) c cost f)) : s.op k i (s.opEnds k c cost (f s k)) :=
  State.op_onLane h i _ hexec

/-- D ← the value of the table. -/
theorem State.op_alu (i : Instr) (c : OpCond) (cost : Nat) (d a : BitVec 14) (b : OpSrc) (g : Word → Word → Word)
    (hexec : exec i s = .next (s.alu l (laneWord i) c cost d a b g)) {v : Word} (hv : g (s.readSlot k a.toNat) (s.opB k b) = v) :
    s.op k i (s.opEnds k c cost (s.writeSlot k d.toNat v)) := by
  subst hv
  exact State.op_laneOp h i c cost _ hexec

theorem State.op_alu1 (i : Instr) (c : OpCond) (cost : Nat) (d a : BitVec 14) (g : Word → Word)
    (hexec : exec i s = .next (s.alu1 l (laneWord i) c cost d a g)) :
    s.op k i (s.opEnds k c cost (s.writeSlot k d.toNat (g (s.readSlot k a.toNat)))) :=
  State.op_laneOp h i c cost _ hexec

/-- F ← the truth value of the table. -/
theorem State.op_cmp (i : Instr) (c : OpCond) (a : BitVec 14) (b : OpSrc) (g : Word → Word → Bool)
    (hexec : exec i s = .next (s.cmp l (laneWord i) c a b g)) {v : Bool} (hv : g (s.readSlot k a.toNat) (s.opB k b) = v) :
    s.op k i (s.opEnds k c 1 (s.setF k v)) := by
  subst hv
  exact State.op_laneOp h i c 1 _ hexec

/-- A division by a number but 0 writes its result (R167). -/
theorem State.op_divide (i : Instr) (c : OpCond) (d a : BitVec 14) (b : OpSrc) (g : Word → Word → Word)
    (hexec : exec i s = .next (s.divide l (laneWord i) c d a b g)) (hb : s.opB k b ≠ 0#32) {v : Word}
    (hv : g (s.readSlot k a.toNat) (s.opB k b) = v) : s.op k i (s.opEnds k c 16 (s.writeSlot k d.toNat v)) := by
  have hop := State.op_laneOp h i c 16 _ hexec
  rwa [if_neg hb, hv] at hop

/-- A division by 0 writes 0 and queues ARITH (R167). -/
theorem State.op_divide_zero (i : Instr) (c : OpCond) (d a : BitVec 14) (b : OpSrc) (g : Word → Word → Word)
    (hexec : exec i s = .next (s.divide l (laneWord i) c d a b g)) (hb : s.opB k b = 0#32) :
    s.op k i (s.opEnds k c 16 ((s.writeSlot k d.toNat 0#32).lthErr k 0x04 (s.tk k).pc 0)) := by
  have hop := State.op_laneOp h i c 16 _ hexec
  rwa [if_pos hb] at hop

end lane

end Sys2Proof.Machine

/-! SUPPORT. Integer operations (R165 to R167): each word as a whole number narrowed to 32 bits. -/

namespace Sys2Proof.Machine

section word
variable (x y : Word)

theorem add_eq_ofInt : x + y = BitVec.ofInt 32 (x.toInt + y.toInt) := by
  rw [BitVec.ofInt_add, BitVec.ofInt_toInt, BitVec.ofInt_toInt]

theorem sub_eq_ofInt : x - y = BitVec.ofInt 32 (x.toInt - y.toInt) := by
  rw [sub_eq_add_neg, sub_eq_add_neg, BitVec.ofInt_add, BitVec.ofInt_neg, BitVec.ofInt_toInt, BitVec.ofInt_toInt]

theorem mul_eq_ofInt : x * y = BitVec.ofInt 32 (x.toInt * y.toInt) := by
  rw [BitVec.ofInt_mul, BitVec.ofInt_toInt, BitVec.ofInt_toInt]

theorem minWord_eq_ofInt : (if x.toInt ≤ y.toInt then x else y) = BitVec.ofInt 32 (min x.toInt y.toInt) := by
  rw [min_def]
  split <;> exact BitVec.ofInt_toInt.symm

theorem maxWord_eq_ofInt : (if x.toInt ≤ y.toInt then y else x) = BitVec.ofInt 32 (max x.toInt y.toInt) := by
  rw [max_def]
  split <;> exact BitVec.ofInt_toInt.symm

theorem toInt_maxWord : (if x.toInt ≤ y.toInt then y else x).toInt = max x.toInt y.toInt := by
  rw [max_def]
  split <;> rfl

/-- LIMIT as the model computes it: the maximum of D and A, then the minimum with B. -/
theorem limitWord_eq_ofInt (z : Word) :
    (if (if x.toInt ≤ y.toInt then y else x).toInt ≤ z.toInt then (if x.toInt ≤ y.toInt then y else x) else z) =
      BitVec.ofInt 32 (min (max x.toInt y.toInt) z.toInt) := by
  rw [minWord_eq_ofInt, toInt_maxWord]

theorem shiftLeft_eq_ofInt (n : Nat) : x <<< n = BitVec.ofInt 32 ((x.toNat : Int) * 2 ^ n) := by
  have hcast : (x.toNat : Int) * 2 ^ n = ((x.toNat * 2 ^ n : Nat) : Int) := by push_cast; rfl
  apply BitVec.eq_of_toNat_eq
  rw [hcast, BitVec.ofInt_natCast, BitVec.toNat_shiftLeft, BitVec.toNat_ofNat, Nat.shiftLeft_eq]

theorem ushiftRight_eq_ofInt (n : Nat) : x >>> n = BitVec.ofInt 32 ((x.toNat : Int) / 2 ^ n) := by
  have hcast : (x.toNat : Int) / 2 ^ n = ((x.toNat / 2 ^ n : Nat) : Int) := by push_cast; rfl
  apply BitVec.eq_of_toNat_eq
  rw [hcast, BitVec.ofInt_natCast, BitVec.toNat_ushiftRight, BitVec.toNat_ofNat, Nat.shiftRight_eq_div_pow,
    Nat.mod_eq_of_lt (lt_of_le_of_lt (Nat.div_le_self _ _) x.isLt)]

theorem sshiftRight_eq_ofInt (n : Nat) : x.sshiftRight n = BitVec.ofInt 32 (x.toInt / 2 ^ n) := by
  have hshift : (x.sshiftRight n).toInt = x.toInt / 2 ^ n := by
    rw [BitVec.toInt_sshiftRight, Int.shiftRight_eq_div_pow]
    push_cast
    rfl
  rw [← hshift, BitVec.ofInt_toInt]

/-- The bits that a rotation moves out at the top enter at the bottom, where the shifted word has zeros: the two parts add. -/
theorem rotateLeft_eq_ofInt (n : Nat) (hn : n < 32) :
    x.rotateLeft n = BitVec.ofInt 32 ((x.toNat : Int) * 2 ^ n + (x.toNat : Int) / 2 ^ (32 - n)) := by
  have hdisjoint : x <<< n &&& x >>> (32 - n) = 0#32 := by
    apply BitVec.eq_of_getLsbD_eq
    intro i hi
    by_cases hlow : i < n
    · simp [hlow]
    · simp only [BitVec.getLsbD_and, BitVec.getLsbD_ushiftRight, BitVec.getLsbD_of_ge x (32 - n + i) (by omega), Bool.and_false]
      simp
  rw [BitVec.rotateLeft_def, Nat.mod_eq_of_lt hn, ← BitVec.add_eq_or_of_and_eq_zero _ _ hdisjoint, BitVec.ofInt_add,
    ← shiftLeft_eq_ofInt, ← ushiftRight_eq_ofInt]

theorem sdiv_eq_ofInt : x.sdiv y = BitVec.ofInt 32 (x.toInt.tdiv y.toInt) := by
  apply BitVec.eq_of_toInt_eq
  rw [BitVec.toInt_sdiv, BitVec.toInt_ofInt]

theorem srem_eq_ofInt : x.srem y = BitVec.ofInt 32 (x.toInt - x.toInt.tdiv y.toInt * y.toInt) := by
  rw [Int.mul_comm, ← Int.tmod_def, ← BitVec.toInt_srem, BitVec.ofInt_toInt]

theorem beq_eq_decide_toNat : (x == y) = decide (x.toNat = y.toNat) := by
  rw [beq_eq_decide, decide_eq_decide]
  exact BitVec.toNat_eq

end word

theorem bne_eq_decide_toNat (x y : Word) : (x != y) = decide (x.toNat ≠ y.toNat) := by
  rw [bne, beq_eq_decide_toNat, decide_not]

/-- LIMIT writes D between A and B. -/
theorem State.op_opLimit {s : State} {l : Fin 2} {k : Nat} (h : s.executes l k) (c : OpCond) (d a : BitVec 14) (b : OpSrc) :
    s.op k (.opLimit l c d a b) (s.opEnds k c 1 (s.writeSlot k d.toNat (BitVec.ofInt 32
      (min (max (s.readSlot k d.toNat).toInt (s.readSlot k a.toNat).toInt) (s.opB k b).toInt)))) := by
  rw [← limitWord_eq_ofInt]
  exact State.op_laneOp h (.opLimit l c d a b) c 1 _ rfl

/-- Settles O29: an operation whose task stands at its word writes what the model's function makes of its operands, and that function is the
whole number of the table, narrowed. -/
theorem laneIntegerOperations : Obligations.LaneIntegerOperations := by
  unfold Obligations.LaneIntegerOperations
  intro s l k c d a b h pc done A B D n
  have hn : n < 32 := Nat.mod_lt _ (by decide)
  refine ⟨?_, ?_, fun hb => ⟨?_, ?_⟩, fun hb => ⟨?_, ?_⟩, ?_⟩
  · simp only [List.forall_mem_cons]
    exact ⟨State.op_alu h _ c 1 d a b _ rfl (add_eq_ofInt _ _), State.op_alu h _ c 1 d a b _ rfl (sub_eq_ofInt _ _),
      State.op_alu h _ c 2 d a b _ rfl (mul_eq_ofInt _ _),
      State.op_alu h _ c 1 d a b (fun x y => if x.toInt ≤ y.toInt then x else y) rfl (minWord_eq_ofInt _ _),
      State.op_alu h _ c 1 d a b (fun x y => if x.toInt ≤ y.toInt then y else x) rfl (maxWord_eq_ofInt _ _), State.op_opLimit h c d a b,
      State.op_alu h _ c 1 d a b _ rfl (shiftLeft_eq_ofInt _ _), State.op_alu h _ c 1 d a b _ rfl (ushiftRight_eq_ofInt _ _),
      State.op_alu h _ c 1 d a b _ rfl (sshiftRight_eq_ofInt _ _), State.op_alu h _ c 1 d a b _ rfl (rotateLeft_eq_ofInt _ _ hn),
      List.forall_mem_nil _⟩
  · simp only [List.forall_mem_cons]
    exact ⟨State.op_alu h _ c 1 d a b _ rfl rfl, State.op_alu h _ c 1 d a b _ rfl rfl, State.op_alu h _ c 1 d a b _ rfl rfl,
      State.op_alu1 h _ c 1 d a _ rfl, List.forall_mem_nil _⟩
  · exact State.op_divide h _ c d a b _ rfl hb (sdiv_eq_ofInt _ _)
  · exact State.op_divide h _ c d a b _ rfl hb (srem_eq_ofInt _ _)
  · exact State.op_divide_zero h _ c d a b _ rfl hb
  · exact State.op_divide_zero h _ c d a b _ rfl hb
  · simp only [List.forall_mem_cons]
    exact ⟨State.op_cmp h _ c a b _ rfl (beq_eq_decide_toNat _ _), State.op_cmp h _ c a b _ rfl (bne_eq_decide_toNat _ _),
      State.op_cmp h _ c a b _ rfl rfl, State.op_cmp h _ c a b _ rfl rfl, State.op_cmp h _ c a b _ rfl rfl,
      State.op_cmp h _ c a b _ rfl rfl, State.op_cmp h _ c a b _ rfl rfl, State.op_cmp h _ c a b _ rfl rfl, List.forall_mem_nil _⟩

end Sys2Proof.Machine

/-! SUPPORT. What a task holds (R158, R165): its lane's record, its slots beneath any force, and a write to one of them. -/

namespace Sys2Proof.Machine

/-! A store written twice at one key -/

section store
variable {α : Type}

theorem storeErase_eq_self (l : Store α) (k : Nat) (h : ∀ p ∈ l, p.1 ≠ k) : storeErase l k = l := by
  induction l with
  | nil => rfl
  | cons p l ih =>
    rw [List.forall_mem_cons] at h
    rw [storeErase, if_neg h.1, ih h.2]

theorem storeErase_erase (l : Store α) (k : Nat) : storeErase (storeErase l k) k = storeErase l k :=
  storeErase_eq_self _ k fun p hp => ((mem_storeErase l k p).1 hp).2

theorem storeErase_insert (l : Store α) (k : Nat) (v : α) (h : ∀ p ∈ l, p.1 ≠ k) : storeErase (storeInsert l k v) k = l := by
  induction l with
  | nil => simp [storeInsert, storeErase]
  | cons p l ih =>
    have hself := storeErase_eq_self _ k h
    rw [List.forall_mem_cons] at h
    rw [storeInsert]
    split
    · rw [storeErase, if_pos rfl, hself]
    · rw [storeErase, if_neg h.1, ih h.2]

variable [DecidableEq α]

theorem storeErase_put (d : α) (l : Store α) (k : Nat) (v : α) : storeErase (storePut d l k v) k = storeErase l k := by
  unfold storePut
  split
  · exact storeErase_erase l k
  · exact storeErase_insert _ k v fun p hp => ((mem_storeErase l k p).1 hp).2

/-- The later of two writes at a key stands. -/
theorem storePut_put (d : α) (l : Store α) (k : Nat) (v w : α) : storePut d (storePut d l k v) k w = storePut d l k w := by
  rw [storePut, storeErase_put]
  rfl

end store

/-! What the lanes hold for a task, and the image -/

section task
variable (s : State) (k : Nat)

@[simp] theorem State.putTk_tk (x : TaskSt) : (s.putTk k x).tk k = x := storeGet_put_same _ _ _ _

theorem State.putTk_tk_ne (x : TaskSt) (j : Nat) (h : j ≠ k) : (s.putTk k x).tk j = s.tk j := storeGet_put_ne _ _ _ _ _ _ h

theorem State.putTk_putTk (x y : TaskSt) : (s.putTk k x).putTk k y = s.putTk k y := by
  unfold State.putTk
  dsimp only
  rw [storePut_put]

theorem State.goto_eq_putTk (pc cost : Nat) :
    s.goto_ k pc cost = s.putTk k { s.tk k with pc := pc, cycles := (s.tk k).cycles + cost } := rfl

/-- A task's record that is replaced, then moved on. -/
theorem State.putTk_goto (x : TaskSt) (pc cost : Nat) :
    (s.putTk k x).goto_ k pc cost = s.putTk k { x with pc := pc, cycles := x.cycles + cost } := by
  rw [State.goto_eq_putTk, State.putTk_putTk, State.putTk_tk]

variable (n : Nat) (v : Word)

@[simp] theorem State.putSlot_slot_same : (s.putSlot n v).slot n = v := storeGet_put_same _ _ _ _

theorem State.putSlot_slot_ne (m : Nat) (h : m ≠ n) : (s.putSlot n v).slot m = s.slot m := storeGet_put_ne _ _ _ _ _ _ h

end task

/-! The program, which only an image changes (R160, R161) -/

section program
variable {s t : State} (h : t.img = s.img)
include h

theorem State.lw_congr : t.lw = s.lw := by
  funext i
  unfold State.lw State.sec
  rw [h]

theorem State.slotCount_congr : t.slotCount = s.slotCount := congrFun (State.lw_congr h) 3

theorem State.slotAttr_congr : t.slotAttr = s.slotAttr := by
  funext n
  unfold State.slotAttr
  rw [State.lw_congr h]

theorem State.slotTask_congr : t.slotTask = s.slotTask := by
  funext n
  unfold State.slotTask
  rw [State.slotAttr_congr h]

theorem State.slotArea_congr : t.slotArea = s.slotArea := by
  funext n
  unfold State.slotArea
  rw [State.slotAttr_congr h]

theorem State.slotShadowed_congr : t.slotShadowed = s.slotShadowed := by
  funext n
  unfold State.slotShadowed State.slotRetain
  rw [State.slotArea_congr h, State.slotAttr_congr h]

end program

/-! A write to a slot (R158) -/

section slot
variable (s : State) (k n : Nat)

/-- A slot that is shadowed for its task is one the task writes. -/
theorem State.ownSlot_of_shadowed (hin : n < s.slotCount) (htask : s.slotTask n = k) (h : s.slotShadowed n = true) : s.ownSlot k n := by
  unfold State.slotShadowed at h
  simp only [Bool.or_eq_true, Bool.and_eq_true, beq_iff_eq] at h
  exact ⟨hin, htask, h.imp id And.left⟩

/-- An own slot without a shadow is MEMORY. -/
theorem State.area_of_own (hown : s.ownSlot k n) (h : s.slotShadowed n = false) : s.slotArea n = Area.memory := by
  obtain ⟨-, -, houtput | hmemory⟩ := hown
  · rw [State.slotShadowed, houtput] at h
    exact absurd h (by simp)
  · exact hmemory

theorem State.writeSlot_shadowed (v : Word) (hown : s.ownSlot k n) (h : s.slotShadowed n = true) :
    s.writeSlot k n v = s.putTk k { s.tk k with shadow := storePut 0#32 (s.tk k).shadow n v } := by
  obtain ⟨hin, htask, -⟩ := hown
  simp [State.writeSlot, hin, htask, h]

theorem State.writeSlot_memory (v : Word) (hown : s.ownSlot k n) (h : s.slotShadowed n = false) : s.writeSlot k n v = s.putSlot n v := by
  have harea := s.area_of_own k n hown h
  obtain ⟨hin, htask, -⟩ := hown
  simp [State.writeSlot, hin, htask, h, harea]

theorem State.writeSlot_other (v : Word) (h : ¬s.ownSlot k n) : s.writeSlot k n v = s := by
  unfold State.writeSlot
  split
  · next hslot =>
    obtain ⟨hin, htask⟩ : n < s.slotCount ∧ s.slotTask n = k := by simpa using hslot
    split
    · next hshadowed => exact absurd (s.ownSlot_of_shadowed k n hin htask hshadowed) h
    · split
      · next harea => exact absurd ⟨hin, htask, .inr (beq_iff_eq.1 harea)⟩ h
      · rfl
  · rfl

/-- Everything a write to a slot can do: the shadow of an own one that has it, the image of own MEMORY, nothing elsewhere. -/
theorem State.writeSlot_cases (v : Word) :
    (s.ownSlot k n ∧ s.slotShadowed n = true ∧
      s.writeSlot k n v = s.putTk k { s.tk k with shadow := storePut 0#32 (s.tk k).shadow n v }) ∨
    (s.ownSlot k n ∧ s.slotShadowed n = false ∧ s.writeSlot k n v = s.putSlot n v) ∨
    (¬s.ownSlot k n ∧ s.writeSlot k n v = s) := by
  by_cases hown : s.ownSlot k n
  · cases h : s.slotShadowed n with
    | true => exact .inl ⟨hown, rfl, s.writeSlot_shadowed k n v hown h⟩
    | false => exact .inr (.inl ⟨hown, rfl, s.writeSlot_memory k n v hown h⟩)
  · exact .inr (.inr ⟨hown, s.writeSlot_other k n v hown⟩)

/-- A write to a slot changes the Lathe alone. -/
theorem State.writeSlot_eq (v : Word) : s.writeSlot k n v = { s with lth := (s.writeSlot k n v).lth } := by
  rcases s.writeSlot_cases k n v with ⟨-, -, h⟩ | ⟨-, -, h⟩ | ⟨-, h⟩ <;> rw [h] <;> rfl

/-- A task's value of its own shadowed slot. -/
theorem State.beneath_shadowed (hown : s.ownSlot k n) (h : s.slotShadowed n = true) : s.beneath k n = storeGet 0#32 (s.tk k).shadow n := by
  obtain ⟨hin, htask, -⟩ := hown
  simp [State.beneath, hin, htask, h]

theorem State.beneath_memory (hown : s.ownSlot k n) (h : s.slotShadowed n = false) : s.beneath k n = s.slot n := by
  obtain ⟨hin, htask, -⟩ := hown
  simp [State.beneath, hin, h]

/-- What is written to an own slot is what the task then holds there. -/
theorem State.writeSlot_beneath_same (v : Word) (hown : s.ownSlot k n) : (s.writeSlot k n v).beneath k n = v := by
  cases h : s.slotShadowed n with
  | true =>
    rw [s.writeSlot_shadowed k n v hown h]
    refine (State.beneath_shadowed (s.putTk k _) k n hown h).trans ?_
    rw [State.putTk_tk]
    exact storeGet_put_same _ _ _ _
  | false =>
    rw [s.writeSlot_memory k n v hown h]
    exact (State.beneath_memory (s.putSlot n v) k n hown h).trans (s.putSlot_slot_same n v)

/-- What a task holds in a slot is of the program, its shadow and the image there. -/
theorem State.beneath_congr {s t : State} (himg : t.img = s.img) (k n : Nat)
    (hshadow : storeGet 0#32 (t.tk k).shadow n = storeGet 0#32 (s.tk k).shadow n) (hslot : t.slot n = s.slot n) :
    t.beneath k n = s.beneath k n := by
  unfold State.beneath
  rw [State.slotCount_congr himg, State.slotTask_congr himg, State.slotShadowed_congr himg, hshadow, hslot]

theorem State.writeSlot_beneath_ne (v : Word) (m : Nat) (hne : m ≠ n) : (s.writeSlot k n v).beneath k m = s.beneath k m := by
  rcases s.writeSlot_cases k n v with ⟨-, -, h⟩ | ⟨-, -, h⟩ | ⟨-, h⟩ <;> rw [h]
  · refine State.beneath_congr (by rfl) k m ?_ (by rfl)
    rw [State.putTk_tk]
    exact storeGet_put_ne _ _ _ _ _ _ hne
  · exact State.beneath_congr (by rfl) k m rfl (s.putSlot_slot_ne n v m hne)

/-- A shadowed slot is not written in the image. -/
theorem State.writeSlot_slots (v : Word) (hshadowed : s.slotShadowed n = true) : (s.writeSlot k n v).lth.slots = s.lth.slots := by
  rcases s.writeSlot_cases k n v with ⟨-, -, h⟩ | ⟨-, hplain, -⟩ | ⟨-, h⟩
  · rw [h]; rfl
  · exact absurd (hshadowed.symm.trans hplain) (by decide)
  · rw [h]

end slot

end Sys2Proof.Machine

/-! SUPPORT. Moves, bits, edges, jumps and the end of the execute phase (R166 to R168, R174). -/

namespace Sys2Proof.Machine

theorem ofBool_word (b : Bool) : (if b then 1#32 else 0#32) = BitVec.ofNat 32 (b2n b) := by cases b <;> rfl

/-- A word with one bit set to a value. -/
theorem getLsbD_setBitTo (v : Word) (j : Nat) (b : Bool) (i : Nat) (hi : i < 32) :
    (BitVec.ofNat 32 (setBitTo v.toNat j b)).getLsbD i = if i = j then b else v.getLsbD i := by
  rw [BitVec.getLsbD_ofNat, decide_eq_true hi, Bool.true_and]
  split
  · next heq => rw [heq, setBitTo_testBit]
  · next hne => rw [setBitTo_testBit_ne _ _ _ _ hne]; rfl

section lane
variable {s : State} {l k : Nat} (h : s.executes l k)
include h

/-- An operation without a condition. -/
theorem State.op_always (i : Instr) (cost : Nat) (f : State → Nat → State)
    (hexec : exec i s = .next (s.laneOp l (laneWord i) .always cost f)) :
    s.op k i (.next ((f s k).goto_ k ((s.tk k).pc + 1) cost)) := State.op_laneOp h i .always cost f hexec

/-- A bit operation on D writes the one bit of the value beneath any force (R158, R199). -/
theorem State.op_bitD (i : Instr) (c : OpCond) (d : BitVec 14) (bit : BitVec 5) (g : Bool → Bool → Bool)
    (hexec : exec i s = .next (s.bitD l (laneWord i) c d bit g)) :
    ∃ w : Word, s.op k i (s.opEnds k c 1 (s.writeSlot k d.toNat w)) ∧ ∀ j, j < 32 → w.getLsbD j =
      if j = bit.toNat then g (s.flagF k) ((s.beneath k d.toNat).getLsbD bit.toNat) else (s.beneath k d.toNat).getLsbD j :=
  ⟨_, State.op_laneOp h i c 1 _ hexec, getLsbD_setBitTo _ _ _⟩

theorem State.op_edge (i : Instr) (d : BitVec 14) (g : Bool → Bool → Bool) (hexec : exec i s = .next (s.edgeOp l (laneWord i) d g)) :
    s.op k i (.next (((s.writeSlot k d.toNat (BitVec.ofNat 32 (b2n (s.flagF k)))).setF k
      (g (s.flagF k) ((s.readSlot k d.toNat).getLsbD 0))).goto_ k ((s.tk k).pc + 1) 1)) := by
  rw [← ofBool_word]
  exact State.op_always h i 1 _ hexec

end lane

/-! Lanes (R172) -/

section lanes
variable (s : State) (l k : Nat)

@[simp] theorem State.putLane_laneTask (x : Option Nat) : (s.putLane l x).laneTask l = x := by
  unfold State.laneTask State.putLane
  dsimp only
  rw [storeGet_put_same]
  cases x <;> rfl

/-- Everything a lane's next work can be: a task that waits or was preempted, or none. -/
theorem State.laneNext_cases :
    (∃ j x, ((s.tk j).phase = 2 ∨ (s.tk j).phase = 4) ∧ s.laneNext l = (s.putTk j x).putLane l (some j)) ∨
      s.laneNext l = s.putLane l none := by
  unfold State.laneNext
  split
  · next j hfind =>
    obtain ⟨hlane, hphase⟩ : s.taskLane j = l ∧ ((s.tk j).phase = 2 ∨ (s.tk j).phase = 4) := by simpa using List.find?_some hfind
    refine .inl ⟨j, ?_⟩
    split
    · exact ⟨_, hphase, by rw [← hlane]; rfl⟩
    · exact ⟨_, hphase, rfl⟩
  · exact .inr rfl

/-- What a lane takes next leaves the slots and the commits that wait. -/
theorem State.laneNext_slots : (s.laneNext l).lth.slots = s.lth.slots ∧ (s.laneNext l).lth.commitQ = s.lth.commitQ := by
  rcases s.laneNext_cases l with ⟨j, x, -, h⟩ | h <;> rw [h] <;> exact ⟨rfl, rfl⟩

/-- A task that neither waits for a lane nor was preempted is not taken. -/
theorem State.laneNext_leaves (h2 : (s.tk k).phase ≠ 2) (h4 : (s.tk k).phase ≠ 4) :
    (s.laneNext l).tk k = s.tk k ∧ (s.laneNext l).laneTask l ≠ some k := by
  rcases s.laneNext_cases l with ⟨j, x, hphase, h⟩ | h <;> rw [h, State.putLane_laneTask]
  · have hne : k ≠ j := fun e => by rw [← e] at hphase; exact hphase.elim h2 h4
    exact ⟨s.putTk_tk_ne j x k hne, fun e => hne (Option.some.inj e).symm⟩
  · exact ⟨rfl, (Option.some_ne_none k).symm⟩

end lanes

/-! The end of the execute phase (R174) -/

/-- A task whose execute phase has ended, before its lane takes its next work. -/
def State.commitAsked (s : State) (k : Nat) : State :=
  let t := s.putTk k { s.tk k with phase := 5 }
  { t with lth := { t.lth with commitQ := t.lth.commitQ ++ [k] } }

theorem State.execEnd_eq (s : State) (l k : Nat) (h : s.laneTask l = some k) : s.execEnd l = (s.commitAsked k).laneNext l := by
  unfold State.execEnd
  rw [h]
  rfl

theorem State.execEnd_shows (s : State) (l k : Nat) (h : s.laneTask l = some k) :
    s.execEnd l = { s with lth := (s.execEnd l).lth } ∧ ((s.execEnd l).tk k).phase = 5 ∧ k ∈ (s.execEnd l).lth.commitQ ∧
      (s.execEnd l).lth.slots = s.lth.slots ∧ ((s.execEnd l).tk k).shadow = (s.tk k).shadow ∧ (s.execEnd l).laneTask l ≠ some k := by
  have hasked : (s.commitAsked k).tk k = { s.tk k with phase := 5 } := s.putTk_tk k { s.tk k with phase := 5 }
  have hphase : ((s.commitAsked k).tk k).phase = 5 := by rw [hasked]
  obtain ⟨htask, hlane⟩ := (s.commitAsked k).laneNext_leaves l k (by omega) (by omega)
  obtain ⟨hslots, hqueue⟩ := (s.commitAsked k).laneNext_slots l
  rw [s.execEnd_eq l k h, htask, hasked, hslots, hqueue]
  refine ⟨?_, rfl, by simp [State.commitAsked], rfl, rfl, hlane⟩
  rw [State.laneNext_eq]
  rfl

section lane
variable {s : State} {l k : Nat} (h : s.executes l k)
include h

/-- An operation that ends the execute phase after its cycles (R166, R167). -/
theorem State.op_execEnd (i : Instr) (cost : Nat) (f : State → Nat → State) (hexec : exec i s = .next (s.onLane l (laneWord i) f))
    (hends : f s k = (s.goto_ k (s.tk k).pc cost).execEnd l) (hat : s.opAt k = laneWord i) : Gives i s fun u =>
      u = { s with lth := u.lth } ∧ (u.tk k).phase = 5 ∧ k ∈ u.lth.commitQ ∧ u.lth.slots = s.lth.slots ∧
        (u.tk k).shadow = (s.tk k).shadow ∧ u.laneTask l ≠ some k := by
  obtain ⟨hstate, hphase, hqueue, hslots, hshadow, hlane⟩ := (s.goto_ k (s.tk k).pc cost).execEnd_shows l k h.1
  have hrun := (State.op_onLane h i f hexec hat).trans (congrArg Host.Outcome.next hends)
  refine ⟨_, hrun, hstate, hphase, hqueue, hslots, hshadow.trans ?_, hlane⟩
  rw [State.goto_eq_putTk, State.putTk_tk]

end lane

/-! Jumps, calls and returns (R166, R167) -/

section flow
variable {s : State} {l : Fin 2} {k : Nat} (h : s.executes l k)
include h

theorem State.op_opJf (t : BitVec 16) : s.op k (.opJf l t)
    (.next (if s.flagF k then s.goto_ k t.toNat 2 else s.goto_ k ((s.tk k).pc + 1) 1)) := State.op_onLane h (.opJf l t) _ rfl

/-- JNF is taken where F is clear. -/
theorem State.op_opJnf (t : BitVec 16) : s.op k (.opJnf l t)
    (.next (if s.flagF k then s.goto_ k ((s.tk k).pc + 1) 1 else s.goto_ k t.toNat 2)) := by
  have hop := State.op_onLane h (.opJnf l t) _ rfl
  cases hflag : s.flagF k <;> simpa [hflag] using hop

/-- With fewer than eight entries a push drops none. -/
theorem State.op_opCall (t : BitVec 16) (hroom : (s.tk k).stack.length < 8) : s.op k (.opCall l t)
    (.next (s.putTk k { s.tk k with
      stack := ((s.tk k).pc + 1) :: (s.tk k).stack, pc := t.toNat, cycles := (s.tk k).cycles + 2 })) := by
  have hop := State.op_onLane h (.opCall l t) _ rfl
  rwa [State.putTk_goto, List.take_of_length_le hroom] at hop

theorem State.op_opRet (r : Nat) (rest : List Nat) (hstack : (s.tk k).stack = r :: rest) : s.op k (.opRet l)
    (.next (s.putTk k { s.tk k with stack := rest, pc := r, cycles := (s.tk k).cycles + 2 })) := by
  have hop := State.op_onLane h (.opRet l) _ rfl
  rw [hstack] at hop
  dsimp only at hop
  rwa [State.putTk_goto] at hop

/-- END, and RET on an empty stack, end the execute phase. -/
theorem State.op_ends (c : Instr) (hc : c ∈ [Instr.opEnd l, .opRet l]) (hstack : c = .opRet l → (s.tk k).stack = [])
    (hat : s.opAt k = laneWord c) : Gives c s fun u =>
      u = { s with lth := u.lth } ∧ (u.tk k).phase = 5 ∧ k ∈ u.lth.commitQ ∧ u.lth.slots = s.lth.slots ∧
        (u.tk k).shadow = (s.tk k).shadow ∧ u.laneTask l ≠ some k := by
  rcases List.mem_pair.1 hc with rfl | rfl
  · exact State.op_execEnd h (.opEnd l) 1 _ rfl rfl hat
  · exact State.op_execEnd h (.opRet l) 2 _ rfl (by rw [hstack rfl]) hat

end flow

/-! Settling the family -/

theorem bne_eq_decide_ne (x : Word) : (x != 0#32) = decide (x ≠ 0#32) := by
  rw [bne, beq_eq_decide, decide_not]

/-- Settles O28: an operation whose task stands at its word does on its lane what the table says, and then goes on. A write to a slot is one
of its three cases; the end of the execute phase asks for the commit, and the lane then takes another task or none. -/
theorem laneMoveAndFlowOperations : Obligations.LaneMoveAndFlowOperations := by
  unfold Obligations.LaneMoveAndFlowOperations
  refine ⟨⟨?_, ?_⟩, ?_⟩
  · intro s l k c d a b bit h pc F done always A B x D
    have hstf := State.op_laneOp h (.opStf l c d) c 1 _ rfl
    rw [ofBool_word] at hstf
    have hldf := State.op_laneOp h (.opLdf l c a) c 1 _ rfl
    rw [bne_eq_decide_ne] at hldf
    refine ⟨?_, ?_, State.op_edge h (.opRedge l d) d (fun f old => f && !old) rfl,
      State.op_edge h (.opFedge l d) d (fun f old => !f && old) rfl⟩
    · exact ⟨State.op_always h (.opNop l) 1 _ rfl, State.op_laneOp h (.opMov l c d b) c 1 _ rfl,
        State.op_laneOp h (.opLdb l c a bit) c 1 _ rfl, State.op_laneOp h (.opLdbn l c a bit) c 1 _ rfl,
        State.op_laneOp h (.opAndb l c a bit) c 1 _ rfl, State.op_laneOp h (.opAndbn l c a bit) c 1 _ rfl,
        State.op_laneOp h (.opOrb l c a bit) c 1 _ rfl, State.op_laneOp h (.opOrbn l c a bit) c 1 _ rfl,
        State.op_laneOp h (.opXorb l c a bit) c 1 _ rfl, State.op_laneOp h (.opNotf l c) c 1 _ rfl, hldf, hstf,
        State.op_laneOp h (.opSel l c d a b) c 1 _ rfl, State.op_laneOp h (.opRdtb l c d) c 1 _ rfl,
        State.op_laneOp h (.opRdzt l c d) c 1 _ rfl, State.op_laneOp h (.opTrap l c b) c 1 _ rfl,
        State.op_always h (.opCload l d a) 1 _ rfl⟩
    · simp only [List.forall_mem_cons]
      exact ⟨State.op_bitD h (.opStb l c d bit) c d bit _ rfl, State.op_bitD h (.opStbn l c d bit) c d bit _ rfl,
        State.op_bitD h (.opSetb l c d bit) c d bit _ rfl, State.op_bitD h (.opRstb l c d bit) c d bit _ rfl, List.forall_mem_nil _⟩
  · intro s k n m v t
    exact ⟨s.writeSlot_eq k n v, s.writeSlot_beneath_same k n v, s.writeSlot_beneath_ne k n v m, s.writeSlot_other k n v,
      s.writeSlot_slots k n v⟩
  · intro s l k t h x
    exact ⟨State.op_onLane h (.opJmp l t) _ rfl, State.op_opJf h t, State.op_opJnf h t, State.op_opCall h t, State.op_opRet h,
      State.op_ends h, s.goto_eq_putTk k⟩

end Sys2Proof.Machine

/-! SUPPORT. Indexed access, timers and counters (R167, R169, R170). -/

namespace Sys2Proof.Machine

/-! Indexed access (R167) -/

section index
variable (s : State) (k : Nat) (a : BitVec 14) (b : OpSrc)

theorem State.indexed_some (n : Nat) (hin : n < s.slotCount) (hsum : (n : Int) = a.toNat + (s.opB k b).toInt)
    (htask : s.slotTask n = s.slotTask a.toNat) (harea : s.slotArea n = s.slotArea a.toNat) : s.indexed k a b = some n := by
  unfold State.indexed
  dsimp only
  rw [← hsum, if_neg (by omega), Int.toNat_natCast, htask, harea, beq_self_eq_true, beq_self_eq_true]
  rfl

/-- No slot of the task and area of slot A stands at A + B. -/
theorem State.indexed_none (h : ∀ n : Nat, n < s.slotCount → (n : Int) = a.toNat + (s.opB k b).toInt →
    s.slotTask n = s.slotTask a.toNat → s.slotArea n ≠ s.slotArea a.toNat) : s.indexed k a b = none := by
  unfold State.indexed
  dsimp only
  split
  · rfl
  · next hin =>
    obtain ⟨n, hn⟩ := Int.eq_ofNat_of_zero_le (not_lt.1 (not_or.1 hin).1)
    rw [hn, Int.toNat_natCast, if_neg]
    intro hsame
    rw [Bool.and_eq_true, beq_iff_eq, beq_iff_eq] at hsame
    exact h n (by omega) hn.symm hsame.1 hsame.2

end index

section indexed
variable {s : State} {l : Fin 2} {k : Nat} (h : s.executes l k) (c : OpCond) (d a : BitVec 14) (b : OpSrc)
include h

theorem State.op_opLdx_some (n : Nat) (hn : s.indexed k a b = some n) :
    s.op k (.opLdx l c d a b) (s.opEnds k c 2 (s.writeSlot k d.toNat (s.readSlot k n))) := by
  have hop := State.op_laneOp h (.opLdx l c d a b) c 2 _ rfl
  rwa [hn] at hop

theorem State.op_opStx_some (n : Nat) (hn : s.indexed k a b = some n) :
    s.op k (.opStx l c d a b) (s.opEnds k c 2 (s.writeSlot k n (s.readSlot k d.toNat))) := by
  have hop := State.op_laneOp h (.opStx l c d a b) c 2 _ rfl
  rwa [hn] at hop

theorem State.op_opLdx_none (hnone : s.indexed k a b = none) :
    s.op k (.opLdx l c d a b) (s.opEnds k c 2 ((s.writeSlot k d.toNat 0#32).lthErr k 0x05 (s.tk k).pc 0)) := by
  have hop := State.op_laneOp h (.opLdx l c d a b) c 2 _ rfl
  rwa [hnone] at hop

theorem State.op_opStx_none (hnone : s.indexed k a b = none) :
    s.op k (.opStx l c d a b) (s.opEnds k c 2 (s.lthErr k 0x05 (s.tk k).pc 0)) := by
  have hop := State.op_laneOp h (.opStx l c d a b) c 2 _ rfl
  rwa [hnone] at hop

end indexed

/-! What a block's writes leave -/

theorem State.ownSlot_congr {s t : State} (himg : t.img = s.img) (k n : Nat) : t.ownSlot k n ↔ s.ownSlot k n := by
  unfold State.ownSlot
  rw [State.slotCount_congr himg, State.slotTask_congr himg, State.slotArea_congr himg]

section writes
variable (s : State) (k n : Nat)

theorem State.writeSlot_img (v : Word) : (s.writeSlot k n v).img = s.img := by rw [State.writeSlot_eq]

theorem State.writeIf_img (v : Option Word) : (s.writeIf k n v).img = s.img := by
  cases v with
  | none => rfl
  | some v => exact s.writeSlot_img k n v

theorem State.writeIf_beneath_same (v : Option Word) (hown : s.ownSlot k n) : (s.writeIf k n v).beneath k n = v.getD (s.beneath k n) := by
  cases v with
  | none => rfl
  | some v => exact s.writeSlot_beneath_same k n v hown

theorem State.writeIf_beneath_ne (v : Option Word) (m : Nat) (h : m ≠ n) : (s.writeIf k n v).beneath k m = s.beneath k m := by
  cases v with
  | none => rfl
  | some v => exact s.writeSlot_beneath_ne k n v m h

/-- The flag and the place in the program are no slots. -/
theorem State.setF_goto_beneath (f : Bool) (pc cost m : Nat) : ((s.setF k f).goto_ k pc cost).beneath k m = s.beneath k m := by
  rw [State.setF, State.putTk_goto]
  refine State.beneath_congr (by rfl) k m ?_ rfl
  rw [State.putTk_tk]

theorem State.setF_goto_flagF (f : Bool) (pc cost : Nat) : ((s.setF k f).goto_ k pc cost).flagF k = f := by
  rw [State.setF, State.putTk_goto, State.flagF, State.putTk_tk]

end writes

/-! Timers (R169) -/

/-- A timer's block as its operation reads it. -/
def State.timerBlk (s : State) (k n : Nat) : TimerBlk :=
  let w := s.readSlot k n
  ⟨w.getLsbD 0, w.getLsbD 1, w.getLsbD 2, s.readSlot k (n + 1), s.readSlot k (n + 2)⟩

/-- The block with what a timer operation writes. -/
def State.timerWritten (s : State) (k n : Nat) (y : TimerNew) : State :=
  ((s.writeSlot k n (BitVec.ofNat 32 (y.flags (s.beneath k n).toNat))).writeIf k (n + 1) y.et).writeIf k (n + 2) y.start

theorem TimerNew.flags_bits (y : TimerNew) (v : Word) : (BitVec.ofNat 32 (y.flags v.toNat)).getLsbD 0 = y.q ∧
    (BitVec.ofNat 32 (y.flags v.toNat)).getLsbD 1 = y.run.getD (v.getLsbD 1) ∧
    (BitVec.ofNat 32 (y.flags v.toNat)).getLsbD 2 = y.prev := by
  have hbit : ∀ i, i < 32 → (BitVec.ofNat 32 (y.flags v.toNat)).getLsbD i = (y.flags v.toNat).testBit i := fun i hi => by
    rw [BitVec.getLsbD_ofNat, decide_eq_true hi, Bool.true_and]
  rw [hbit 0 (by decide), hbit 1 (by decide), hbit 2 (by decide), TimerNew.flags]
  cases hrun : y.run <;> simp [setBitTo_testBit, setBitTo_testBit_ne, BitVec.getLsbD, -Nat.testBit_zero]

section timer
variable {s : State} {k n : Nat} (hflags : s.ownSlot k n) (het : s.ownSlot k (n + 1)) (hstart : s.ownSlot k (n + 2))
include hflags het hstart

theorem State.timerWritten_shows (y : TimerNew) :
    ((s.timerWritten k n y).beneath k n).getLsbD 0 = y.q ∧
      ((s.timerWritten k n y).beneath k n).getLsbD 1 = y.run.getD ((s.beneath k n).getLsbD 1) ∧
      ((s.timerWritten k n y).beneath k n).getLsbD 2 = y.prev ∧
      (s.timerWritten k n y).beneath k (n + 1) = y.et.getD (s.beneath k (n + 1)) ∧
      (s.timerWritten k n y).beneath k (n + 2) = y.start.getD (s.beneath k (n + 2)) := by
  unfold State.timerWritten
  have himg := s.writeSlot_img k n (BitVec.ofNat 32 (y.flags (s.beneath k n).toNat))
  obtain ⟨hq, hrun, hprev⟩ := y.flags_bits (s.beneath k n)
  rw [State.writeIf_beneath_ne _ _ _ _ n (by omega), State.writeIf_beneath_ne _ _ _ _ n (by omega),
    State.writeSlot_beneath_same _ _ _ _ hflags]
  refine ⟨hq, hrun, hprev, ?_, ?_⟩
  · rw [State.writeIf_beneath_ne _ _ _ _ (n + 1) (by omega), State.writeIf_beneath_same _ _ _ _ ((State.ownSlot_congr himg k _).2 het),
      State.writeSlot_beneath_ne _ _ _ _ (n + 1) (by omega)]
  · have hown := (State.ownSlot_congr ((State.writeIf_img _ k (n + 1) y.et).trans himg) k _).2 hstart
    rw [State.writeIf_beneath_same _ _ _ _ hown, State.writeIf_beneath_ne _ _ _ _ (n + 2) (by omega),
      State.writeSlot_beneath_ne _ _ _ _ (n + 2) (by omega)]

/-- A timer operation leaves what its function makes of the block, the flag, the release and PT. -/
theorem State.op_timer {l : Nat} (h : s.executes l k) (i : Instr) (d a : BitVec 14) (g : TimerBlk → Bool → Word → Word → TimerNew)
    (hd : d.toNat = n) (hexec : exec i s = .next (s.timerOp l (laneWord i) d a g)) {y : TimerNew}
    (hy : g (s.timerBlk k n) (s.flagF k) (BitVec.ofNat 32 (s.tk k).relUs) (s.readSlot k a.toNat) = y) (hat : s.opAt k = laneWord i) :
    Gives i s fun t => t.flagF k = y.q ∧ (t.beneath k n).getLsbD 0 = y.q ∧
      (t.beneath k n).getLsbD 1 = y.run.getD ((s.beneath k n).getLsbD 1) ∧ (t.beneath k n).getLsbD 2 = y.prev ∧
      t.beneath k (n + 1) = y.et.getD (s.beneath k (n + 1)) ∧ t.beneath k (n + 2) = y.start.getD (s.beneath k (n + 2)) := by
  subst hd hy
  refine ⟨_, State.op_always h i 2 _ hexec hat, State.setF_goto_flagF _ _ _ _ _, ?_⟩
  simp only [State.setF_goto_beneath]
  exact State.timerWritten_shows hflags het hstart _

end timer

/-! The rows of TON, TOF and TP (R169) -/

theorem minU_zero (x : Word) : minU 0#32 x = 0#32 := if_pos (Nat.zero_le _)

theorem minU_of_lt {x y : Word} (h : x.toNat < y.toNat) : minU x y = x := if_pos h.le

theorem minU_of_ge {x y : Word} (h : y.toNat ≤ x.toNat) : minU x y = y := by
  unfold minU
  split
  · next hle => exact BitVec.eq_of_toNat_eq (hle.antisymm h)
  · rfl

theorem minU_lt_iff (x y : Word) : (minU x y).toNat < y.toNat ↔ x.toNat < y.toNat := by
  unfold minU
  split <;> omega

theorem minU_ne_iff (x y : Word) : minU x y ≠ y ↔ x.toNat < y.toNat := by
  rcases Nat.lt_or_ge x.toNat y.toNat with hlt | hge
  · rw [minU_of_lt hlt]
    exact iff_of_true (fun e => absurd (congrArg BitVec.toNat e) hlt.ne) hlt
  · rw [minU_of_ge hge]
    exact iff_of_false (fun hne => hne rfl) (Nat.not_lt.2 hge)

section rows
variable (x : TimerBlk) {inp : Bool} (now pt : Word)

theorem timerTon_off (hin : inp = false) : timerTon x inp now pt = ⟨false, inp, none, some 0#32, none⟩ := by
  subst hin
  rfl

theorem timerTon_starts (hin : inp = true) (hprev : x.prev = false) :
    timerTon x inp now pt = ⟨decide (pt = 0#32), inp, none, some 0#32, some now⟩ := by
  have hzero : decide ((0#32).toNat ≥ pt.toNat) = decide (pt = 0#32) := by
    rw [decide_eq_decide, BitVec.toNat_eq]
    exact Nat.le_zero
  simp [timerTon, hin, hprev, minU_zero, ← hzero]

theorem timerTon_done (hin : inp = true) (hprev : x.prev = true) (hq : x.q = true) :
    timerTon x inp now pt = ⟨true, inp, none, some pt, none⟩ := by
  simp [timerTon, hin, hprev, hq]

theorem timerTon_runs (hin : inp = true) (hprev : x.prev = true) (hq : x.q = false) :
    timerTon x inp now pt = ⟨decide (pt.toNat ≤ (now - x.start).toNat), inp, none, some (minU (now - x.start) pt), none⟩ := by
  have hreached : decide ((minU (now - x.start) pt).toNat ≥ pt.toNat) = decide (pt.toNat ≤ (now - x.start).toNat) := by
    rw [decide_eq_decide, ge_iff_le, ← not_lt, minU_lt_iff, not_lt]
  rw [← hreached]
  simp [timerTon, hin, hprev, hq]

theorem timerTof_on (hin : inp = true) : timerTof x inp now pt = ⟨true, inp, some false, some 0#32, none⟩ := by
  subst hin
  rfl

theorem timerTof_starts (hin : inp = false) (hprev : x.prev = true) : timerTof x inp now pt =
    ⟨decide (0 < pt.toNat), inp, some (decide (pt ≠ 0#32)), some 0#32, some now⟩ := by
  simp [timerTof, hin, hprev, minU_zero, eq_comm (a := 0#32) (b := pt)]

theorem timerTof_runs (hin : inp = false) (hprev : x.prev = false) (hrun : x.run = true) : timerTof x inp now pt =
    ⟨decide ((now - x.start).toNat < pt.toNat), inp, some (decide ((now - x.start).toNat < pt.toNat)),
      some (minU (now - x.start) pt), none⟩ := by
  simp only [timerTof, hin, hprev, hrun, Bool.or_true, Bool.false_eq_true, if_false, if_true, minU_ne_iff, minU_lt_iff]

theorem timerTof_idle (hin : inp = false) (hprev : x.prev = false) (hrun : x.run = false) :
    timerTof x inp now pt = ⟨false, inp, none, none, none⟩ := by
  simp [timerTof, hin, hprev, hrun]

theorem timerTp_starts (hin : inp = true) (hprev : x.prev = false) (hrun : x.run = false) : timerTp x inp now pt =
    ⟨decide (pt ≠ 0#32), inp, some (decide (pt ≠ 0#32)), some 0#32, some now⟩ := by
  simp [timerTp, hin, hprev, hrun, minU_zero, eq_comm (a := 0#32) (b := pt)]

/-- A pulse that lasts. -/
theorem timerTp_runs (hrun : x.run = true) (hlasts : (now - x.start).toNat < pt.toNat) : timerTp x inp now pt =
    ⟨true, inp, some true, some (now - x.start), none⟩ := by
  have hne := (minU_ne_iff _ _).2 hlasts
  rw [minU_of_lt hlasts] at hne
  simp [timerTp, hrun, minU_of_lt hlasts, hne]

/-- A pulse that has reached its time. -/
theorem timerTp_ends (hrun : x.run = true) (hover : pt.toNat ≤ (now - x.start).toNat) : timerTp x inp now pt =
    ⟨false, inp, some false, some (if inp then pt else 0#32), none⟩ := by
  cases inp <;> simp [timerTp, hrun, minU_of_ge hover]

theorem timerTp_done (hin : inp = true) (hprev : x.prev = true) (hrun : x.run = false) :
    timerTp x inp now pt = ⟨false, inp, none, none, none⟩ := by
  simp [timerTp, hin, hprev, hrun]

theorem timerTp_idle (hin : inp = false) (hrun : x.run = false) : timerTp x inp now pt = ⟨false, inp, none, some 0#32, none⟩ := by
  simp [timerTp, hin, hrun]

end rows

/-! Counters (R170) -/

/-- A counter operation leaves CV stepped on a rising input, the input in its bit of D, and its comparison in F. -/
theorem State.op_counter {s : State} {k n l : Nat} (h : s.executes l k) (i : Instr) (d a : BitVec 14) (b : Nat) (step : Int → Int)
    (done : Int → Int → Bool) (hb : b < 32) (hd : d.toNat = n) (hexec : exec i s = .next (s.counterOp l (laneWord i) d a b step done))
    (hflags : s.ownSlot k n) (hcv : s.ownSlot k (n + 1)) {next : Int}
    (hnext : (if s.flagF k = true ∧ (s.readSlot k n).getLsbD b = false then step (s.readSlot k (n + 1)).toInt
      else (s.readSlot k (n + 1)).toInt) = next) (hat : s.opAt k = laneWord i) :
    Gives i s fun t => (next ≠ (s.readSlot k (n + 1)).toInt → t.beneath k (n + 1) = BitVec.ofInt 32 next) ∧
      (t.beneath k n).getLsbD b = s.flagF k ∧ t.flagF k = done next (s.readSlot k a.toNat).toInt := by
  subst hd
  have hrise : (s.flagF k && !(s.readSlot k d.toNat).getLsbD b) = true ↔
      s.flagF k = true ∧ (s.readSlot k d.toNat).getLsbD b = false := by simp
  simp only [← hrise] at hnext
  refine ⟨_, State.op_always h i 1 _ hexec hat, fun hne => ?_, ?_, ?_⟩
  · have hrises : (s.flagF k && !(s.readSlot k d.toNat).getLsbD b) = true := by
      by_contra hsteady
      exact hne (by rw [← hnext, if_neg hsteady])
    rw [if_pos hrises] at hnext
    simp only [State.setF_goto_beneath]
    rw [State.writeSlot_beneath_ne _ _ _ _ _ (by omega), State.writeIf_beneath_same _ _ _ _ hcv, if_pos hrises, hnext]
    rfl
  · simp only [State.setF_goto_beneath]
    rw [State.writeSlot_beneath_same _ _ _ _ ((State.ownSlot_congr (s.writeIf_img k _ _) k _).2 hflags),
      getLsbD_setBitTo _ _ _ _ hb, if_pos rfl]
  · rw [State.setF_goto_flagF, hnext]

/-- Settles O31: LDX and STX fork on whether their slot exists; a timer writes what its row makes of the block it reads, and a counter steps
where its input rises. -/
theorem laneBlockOperations : Obligations.LaneBlockOperations := by
  unfold Obligations.LaneBlockOperations
  refine ⟨?_, ?_⟩
  · intro s l k c d a b h pc done
    refine ⟨fun n hin hsum htask harea => ?_, fun hnone => ?_⟩
    · have hsome := s.indexed_some k a b n hin hsum htask harea
      exact ⟨State.op_opLdx_some h c d a b n hsome, State.op_opStx_some h c d a b n hsome⟩
    · have hnone' := s.indexed_none k a b hnone
      exact ⟨State.op_opLdx_none h c d a b hnone', State.op_opStx_none h c d a b hnone'⟩
  · intro s l k d a h hflags hnext F w q run prev et start now pt least
    refine ⟨?_, ?_⟩
    · intro hstart leaves keptRun keptEt kept
      have hton := fun y => State.op_timer hflags hnext hstart h (.opTon l d a) d a timerTon rfl rfl (y := y)
      have htof := fun y => State.op_timer hflags hnext hstart h (.opTof l d a) d a timerTof rfl rfl (y := y)
      have htp := fun y => State.op_timer hflags hnext hstart h (.opTp l d a) d a timerTp rfl rfl (y := y)
      let x := s.timerBlk k d.toNat
      exact ⟨fun hF => hton _ (timerTon_off x now pt hF), fun hF hprev => hton _ (timerTon_starts x now pt hF hprev),
        fun hF hprev hq => hton _ (timerTon_done x now pt hF hprev hq), fun hF hprev hq => hton _ (timerTon_runs x now pt hF hprev hq),
        fun hF => htof _ (timerTof_on x now pt hF), fun hF hprev => htof _ (timerTof_starts x now pt hF hprev),
        fun hF hprev hrun => htof _ (timerTof_runs x now pt hF hprev hrun),
        fun hF hprev hrun => htof _ (timerTof_idle x now pt hF hprev hrun),
        fun hF hprev hrun => htp _ (timerTp_starts x now pt hF hprev hrun), fun hrun hlasts => htp _ (timerTp_runs x now pt hrun hlasts),
        fun hrun hover => htp _ (timerTp_ends x now pt hrun hover), fun hF hprev hrun => htp _ (timerTp_done x now pt hF hprev hrun),
        fun hF hrun => htp _ (timerTp_idle x now pt hF hrun)⟩
    · intro cv up down
      exact ⟨State.op_counter h (.opCtu l d a) d a 1 _ _ (by decide) rfl rfl hflags hnext (next := up) rfl,
        State.op_counter h (.opCtd l d a) d a 2 _ _ (by decide) rfl rfl hflags hnext (next := down) rfl⟩

end Sys2Proof.Machine

/-! SUPPORT. binary32 (R166, R167): a result is the one NaN or none, and zero or no subnormal. -/

namespace Sys2Proof.Machine

/-! The fields of a packed number -/

section pack
variable (sign : Bool) {ex frac : Nat} (hex : ex < 256) (hfrac : frac < 2 ^ 23)
include hex hfrac

theorem toNat_fpPack : (fpPack sign ex frac).toNat = b2n sign * 2 ^ 31 + ex * 2 ^ 23 + frac := by
  have hsign : b2n sign ≤ 1 := by cases sign <;> decide
  rw [fpPack, BitVec.toNat_ofNat]
  omega

theorem fpExp_pack : fpExp (fpPack sign ex frac) = ex := by
  rw [fpExp, toNat_fpPack sign hex hfrac, bitsOf]
  omega

end pack

/-! Results -/

/-- What R167 lets a result be: no NaN but the one, and no subnormal. -/
def fpClean (w : Word) : Prop := (fpIsNan w = true → w = fpNan) ∧ (fpExp w = 0 → fpFrac w = 0)

@[simp] theorem fpClean_nan : fpClean fpNan := ⟨fun _ => rfl, by decide⟩

theorem fpClean_of_number {w : Word} (hnumber : fpIsNan w = false) (hnormal : fpExp w = 0 → fpFrac w = 0) : fpClean w :=
  ⟨fun hnan => absurd (hnan.symm.trans hnumber) (by decide), hnormal⟩

@[simp] theorem fpClean_zero (sign : Bool) : fpClean (fpZero sign) := by cases sign <;> exact fpClean_of_number (by decide) (by decide)

@[simp] theorem fpClean_inf (sign : Bool) : fpClean (fpInf sign) := by cases sign <;> exact fpClean_of_number (by decide) (by decide)

theorem fpClean_normal (sign : Bool) (ex frac : Nat) (hlow : 1 ≤ ex) (hhigh : ex < 255) (hfrac : frac < 2 ^ 23) :
    fpClean (fpPack sign ex frac) := by
  have hexp := fpExp_pack sign (ex := ex) (by omega) hfrac
  refine fpClean_of_number ?_ fun hzero => by omega
  rw [fpIsNan, hexp, beq_false_of_ne (by omega), Bool.false_and]

/-! Rounding -/

/-- The weight of the last bit that a rounded significand keeps. -/
def fpRoundWeight (m : Nat) (e : Int) : Int := max ((Nat.log2 m : Int) + e - 23) (-149)

/-- The significand at that weight, to nearest even. -/
def fpRoundMant (m : Nat) (e : Int) (sticky : Bool) : Nat :=
  let sh := fpRoundWeight m e - e
  if sh ≤ 0 then m * 2 ^ (-sh).toNat
  else
    let k := sh.toNat
    let r := m / 2 ^ k
    let rem := m % 2 ^ k
    let half := 2 ^ (k - 1)
    if rem > half || (rem == half && (sticky || r % 2 == 1)) then r + 1 else r

/-- A rounded significand and its weight as binary32. -/
def fpAssemble (sign : Bool) (mant : Nat) (q : Int) : Word :=
  let p := if mant ≥ 2 ^ 24 then (mant / 2, q + 1) else (mant, q)
  if p.1 < 2 ^ 23 then fpZero sign
  else if p.2 + 150 ≥ 255 then fpInf sign else fpPack sign (p.2 + 150).toNat (p.1 - 2 ^ 23)

theorem fpRound_eq (sign : Bool) (m : Nat) (e : Int) (sticky : Bool) : fpRound sign m e sticky =
    if m = 0 then fpZero sign else fpAssemble sign (fpRoundMant m e sticky) (fpRoundWeight m e) := rfl

/-- A rounded significand has at most 24 bits, or is the power of two above them. -/
theorem fpRoundMant_le (m : Nat) (e : Int) (sticky : Bool) : fpRoundMant m e sticky ≤ 2 ^ 24 := by
  have hweight : (Nat.log2 m : Int) + e - 23 ≤ fpRoundWeight m e := le_max_left _ _
  have hbits : m < 2 ^ (Nat.log2 m + 1) := Nat.lt_log2_self
  unfold fpRoundMant
  dsimp only
  split
  · calc m * 2 ^ (-(fpRoundWeight m e - e)).toNat
      _ ≤ 2 ^ (Nat.log2 m + 1) * 2 ^ (-(fpRoundWeight m e - e)).toNat := Nat.mul_le_mul_right _ hbits.le
      _ = 2 ^ (Nat.log2 m + 1 + (-(fpRoundWeight m e - e)).toNat) := (Nat.pow_add _ _ _).symm
      _ ≤ 2 ^ 24 := Nat.pow_le_pow_right (by decide) (by omega)
  · have hquotient : m / 2 ^ (fpRoundWeight m e - e).toNat < 2 ^ 24 := by
      apply Nat.div_lt_of_lt_mul
      calc m
        _ < 2 ^ (Nat.log2 m + 1) := hbits
        _ ≤ 2 ^ ((fpRoundWeight m e - e).toNat + 24) := Nat.pow_le_pow_right (by decide) (by omega)
        _ = 2 ^ (fpRoundWeight m e - e).toNat * 2 ^ 24 := Nat.pow_add _ _ _
    split <;> omega

theorem fpClean_assemble (sign : Bool) (mant : Nat) (q : Int) (hmant : mant ≤ 2 ^ 24) (hq : -149 ≤ q) :
    fpClean (fpAssemble sign mant q) := by
  obtain ⟨mant', q', hp, hmant', hq'⟩ : ∃ mant' q', (if mant ≥ 2 ^ 24 then (mant / 2, q + 1) else (mant, q)) = (mant', q') ∧
      mant' < 2 ^ 24 ∧ -149 ≤ q' := by
    split
    · exact ⟨_, _, rfl, by omega, by omega⟩
    · exact ⟨_, _, rfl, by omega, hq⟩
  unfold fpAssemble
  rw [hp]
  dsimp only
  split
  · exact fpClean_zero sign
  · split
    · exact fpClean_inf sign
    · exact fpClean_normal _ _ _ (by omega) (by omega) (by omega)

@[simp] theorem fpClean_round (sign : Bool) (m : Nat) (e : Int) (sticky : Bool) : fpClean (fpRound sign m e sticky) := by
  rw [fpRound_eq]
  split
  · exact fpClean_zero sign
  · exact fpClean_assemble _ _ _ (fpRoundMant_le m e sticky) (le_max_right _ _)

/-! Operands that are flushed or change their sign -/

theorem fieldGet_congr {u w : Word} (hi lo : Nat) (h : ∀ i, i ≤ hi → u.getLsbD i = w.getLsbD i) :
    fieldGet u hi lo = fieldGet w hi lo := by
  apply Nat.eq_of_testBit_eq
  intro i
  rw [testBit_fieldGet, testBit_fieldGet]
  by_cases hi' : i < hi + 1 - lo
  · rw [h (lo + i) (by omega)]
  · rw [decide_eq_false hi', Bool.false_and, Bool.false_and]

theorem getLsbD_fpFlip (w : Word) (i : Nat) (hi : i ≤ 30) : (fpFlip w).getLsbD i = w.getLsbD i := by
  have hlow : ∀ j, j < 31 → (0x80000000#32).getLsbD j = false := by decide
  rw [fpFlip, BitVec.getLsbD_xor, hlow i (by omega), Bool.xor_false]

theorem getLsbD_fpMagnitude (w : Word) (i : Nat) (hi : i ≤ 30) : (w &&& 0x7FFFFFFF#32).getLsbD i = w.getLsbD i := by
  have hlow : ∀ j, j < 31 → (0x7FFFFFFF#32).getLsbD j = true := by decide
  rw [BitVec.getLsbD_and, hlow i (by omega), Bool.and_true]

/-- Whether a number is clean does not depend on its sign. -/
theorem fpClean_of_bits {u w : Word} (h : ∀ i, i ≤ 30 → u.getLsbD i = w.getLsbD i) (hnumber : fpIsNan w = false) (hclean : fpClean w) :
    fpClean u := by
  have hexp : fpExp u = fpExp w := fieldGet_congr 30 23 h
  have hfrac : fpFrac u = fpFrac w := fieldGet_congr 22 0 fun i hi => h i (by omega)
  refine fpClean_of_number ?_ ?_
  · rw [← hnumber, fpIsNan, fpIsNan, hexp, hfrac]
  · rw [hexp, hfrac]
    exact hclean.2

theorem fpIsNan_zero (sign : Bool) : fpIsNan (fpZero sign) = false := by cases sign <;> decide

section number
variable {w : Word} (h : fpIsNan w = false)
include h

theorem fpIsNan_flush : fpIsNan (fpFlush w) = false := by
  unfold fpFlush
  split
  · exact fpIsNan_zero _
  · exact h

theorem fpClean_flush : fpClean (fpFlush w) := by
  unfold fpFlush
  split
  · exact fpClean_zero _
  · next hnormal => exact fpClean_of_number h fun hzero => absurd (beq_iff_eq.2 hzero) hnormal

end number

/-! The results of the operations -/

section operations
variable (a b : Word)

theorem fpClean_add : fpClean (fpAdd a b) := by
  unfold fpAdd
  dsimp only
  split_ifs <;> simp

theorem fpClean_sub : fpClean (fpSub a b) := by
  unfold fpSub
  split
  · exact fpClean_nan
  · exact fpClean_add _ _

theorem fpClean_mul : fpClean (fpMul a b) := by
  unfold fpMul
  dsimp only
  split_ifs <;> simp

theorem fpClean_div : fpClean (fpDiv a b) := by
  unfold fpDiv
  dsimp only
  split_ifs <;> simp

theorem fpClean_sqrt : fpClean (fpSqrt a) := by
  unfold fpSqrt
  dsimp only
  split_ifs <;> simp

/-- The two operations that choose an operand give it flushed, and the one NaN when both are NaN. -/
theorem fpClean_choice (p : Prop) [Decidable p] :
    fpClean (if fpIsNan a then (if fpIsNan b then fpNan else fpFlush b) else if fpIsNan b then fpFlush a
      else if p then fpFlush b else fpFlush a) := by
  cases ha : fpIsNan a <;> cases hb : fpIsNan b
  · by_cases hp : p
    · simpa [hp] using fpClean_flush hb
    · simpa [hp] using fpClean_flush ha
  · simpa using fpClean_flush ha
  · simpa using fpClean_flush hb
  · simp

theorem fpClean_abs : fpClean (fpAbs a) := by
  unfold fpAbs
  split
  · exact fpClean_nan
  · next h =>
    have hnumber := Bool.eq_false_iff.2 h
    exact fpClean_of_bits (getLsbD_fpMagnitude _) (fpIsNan_flush hnumber) (fpClean_flush hnumber)

theorem fpClean_neg : fpClean (fpNeg a) := by
  unfold fpNeg
  split
  · exact fpClean_nan
  · next h =>
    have hnumber := Bool.eq_false_iff.2 h
    exact fpClean_of_bits (getLsbD_fpFlip _) (fpIsNan_flush hnumber) (fpClean_flush hnumber)

/-! Special operands (R167) -/

theorem fp_nan_operand (h : fpIsNan a = true ∨ fpIsNan b = true) :
    (fpAdd a b = fpNan ∧ fpSub a b = fpNan ∧ fpMul a b = fpNan ∧ fpDiv a b = fpNan) ∧
      fpLt a b = false ∧ fpLe a b = false ∧ fpEq a b = false := by
  rcases h with h | h <;> simp [fpAdd, fpSub, fpMul, fpDiv, fpLt, fpLe, fpEq, h]

theorem fpIsNan_of_inf (h : fpIsInf a = true) : fpIsNan a = false := by
  rw [fpIsInf, Bool.and_eq_true, beq_iff_eq, beq_iff_eq] at h
  rw [fpIsNan, h.2]
  exact Bool.and_false _

theorem not_nan_inf_of_zero (h : fpIsZero a = true) : fpIsNan a = false ∧ fpIsInf a = false := by
  rw [fpIsZero, beq_iff_eq] at h
  rw [fpIsNan, fpIsInf, h]
  exact ⟨rfl, rfl⟩

theorem fpAdd_opposite_inf (ha : fpIsInf a = true) (hb : fpIsInf b = true) (hsign : fpSign a ≠ fpSign b) : fpAdd a b = fpNan := by
  simp [fpAdd, fpIsNan_of_inf a ha, fpIsNan_of_inf b hb, ha, hb, hsign]

theorem fpDiv_zero_zero (ha : fpIsZero a = true) (hb : fpIsZero b = true) : fpDiv a b = fpNan := by
  obtain ⟨hna, hia⟩ := not_nan_inf_of_zero a ha
  obtain ⟨hnb, hib⟩ := not_nan_inf_of_zero b hb
  simp [fpDiv, hna, hia, hnb, hib, ha, hb]

/-- The two zeros have one value. -/
theorem fpVal_zero (h : fpIsZero a = true) : fpVal a = 0 := by
  unfold fpVal fpFlush
  rw [if_pos h]
  cases fpSign a <;> decide

theorem fpEq_zero_zero (ha : fpIsZero a = true) (hb : fpIsZero b = true) : fpEq a b = true := by
  rw [fpEq, (not_nan_inf_of_zero a ha).1, (not_nan_inf_of_zero b hb).1, fpVal_zero a ha, fpVal_zero b hb]
  rfl

theorem fpSqrt_negative (hzero : fpIsZero a = false) (hsign : fpSign a = true) : fpSqrt a = fpNan := by
  simp [fpSqrt, hzero, hsign]

theorem fpToInt_inf (h : fpIsInf a = true) : fpToInt a = if fpSign a then 0x80000000#32 else 0x7FFFFFFF#32 := by
  unfold fpToInt
  rw [fpIsNan_of_inf a h, if_neg Bool.false_ne_true, if_pos h]

end operations

/-- Settles O30: each operation writes its function's result. A rounded number has its hidden bit and an exponent field from 1 to 254, or is
an infinity or a zero, so it is neither another NaN nor a subnormal; the special operands are the first branches of each function. -/
theorem laneFloatOperations : Obligations.LaneFloatOperations := by
  unfold Obligations.LaneFloatOperations
  refine ⟨fun s l k c d a b h => ?_, fun x y => ⟨?_, ?_, ?_, fpAdd_opposite_inf x y, ?_, fpSqrt_negative x, ?_, fpToInt_inf x⟩⟩
  · intro pc done A B
    simp only [List.forall_mem_cons]
    exact ⟨⟨State.op_alu h _ c 2 d a b fpAdd rfl rfl, State.op_alu h _ c 2 d a b fpSub rfl rfl, State.op_alu h _ c 2 d a b fpMul rfl rfl,
      State.op_alu h _ c 8 d a b fpDiv rfl rfl, State.op_alu1 h _ c 8 d a fpSqrt rfl, State.op_alu h _ c 1 d a b fpMin rfl rfl,
      State.op_alu h _ c 1 d a b fpMax rfl rfl, State.op_alu1 h _ c 1 d a fpAbs rfl, State.op_alu1 h _ c 1 d a fpNeg rfl,
      State.op_alu1 h _ c 2 d a (fun x => fpOfInt x.toInt) rfl, State.op_alu1 h _ c 2 d a fpToInt rfl, List.forall_mem_nil _⟩,
      State.op_cmp h _ c a b fpLt rfl rfl, State.op_cmp h _ c a b fpLe rfl rfl, State.op_cmp h _ c a b fpEq rfl rfl,
      List.forall_mem_nil _⟩
  · simp only [List.forall_mem_cons]
    exact ⟨fpClean_add x y, fpClean_sub x y, fpClean_mul x y, fpClean_div x y, fpClean_sqrt x, fpClean_choice x y _, fpClean_choice x y _,
      fpClean_abs x, fpClean_neg x, fpClean_round _ _ _ _, List.forall_mem_nil _⟩
  · intro hnan
    obtain ⟨⟨hadd, hsub, hmul, hdiv⟩, hlt, hle, heq⟩ := fp_nan_operand x y hnan
    simp only [List.forall_mem_cons]
    exact ⟨⟨hadd, hsub, hmul, hdiv, List.forall_mem_nil _⟩, hlt, hle, heq, List.forall_mem_nil _⟩
  · intro hx hy
    simp [fpMin, fpMax, hx, hy]
  · exact fun hx hy => ⟨fpDiv_zero_zero x y hx hy, fpEq_zero_zero x y hx hy⟩
  · intro hx
    rw [fpToInt, if_pos hx]

end Sys2Proof.Machine

/-! SUPPORT. What a run of a task stands in (R158, R174 to R178): the image of slots, the task's record and the fields that show it;
what publishing, stations, errors and records leave of them. -/

namespace Sys2Proof.Machine

/-- The fields that show a run: STATE and FAULT_RUN of a task, and its response time. -/
def taskField (y : Fld) : Prop := y.reg = .LTH_TASK_STAT ∧ y.hi < 8 ∨ y.reg = .LTH_TASK_RESP

/-- A field that shows no run: of another register, or an event bit of LTH_TASK_STAT. -/
abbrev taskApart (x : Fld) : Prop := x.hi < 32 ∧ (x.reg = .LTH_TASK_STAT → 8 ≤ x.lo) ∧ x.reg ≠ .LTH_TASK_RESP

/-- What a run stands in: the program, the Lathe without its stations, errors and first commit, and the fields above. -/
def State.taskView (s : State) : Option Image × LthSt × ({y : Fld // taskField y} → Nat → Nat → Nat → Nat) :=
  (s.img, { s.lth with stn := [], errs := [], firstCommit := false }, fun y i j cp => s.get y.1 i j cp)

theorem taskField_win {y : Fld} (h : taskField y) : (regDef y.reg).win = .lth := by
  rcases h with ⟨h, -⟩ | h <;> rw [h] <;> rfl

section view
variable {s t : State}

theorem State.taskView_ext (himg : t.img = s.img)
    (hlth : { t.lth with stn := [], errs := [], firstCommit := false } = { s.lth with stn := [], errs := [], firstCommit := false })
    (hget : ∀ y i j cp, taskField y → t.get y i j cp = s.get y i j cp) : t.taskView = s.taskView := by
  unfold State.taskView
  rw [himg, hlth]
  congr 2
  funext y i j cp
  exact hget y.1 i j cp y.2

variable (h : t.taskView = s.taskView)
include h

theorem State.taskView_img : t.img = s.img := congrArg (·.1) h
theorem State.taskView_slots : t.lth.slots = s.lth.slots := congrArg (·.2.1.slots) h
theorem State.taskView_commitQ : t.lth.commitQ = s.lth.commitQ := congrArg (·.2.1.commitQ) h
theorem State.taskView_task : t.lth.task = s.lth.task := congrArg (·.2.1.task) h
theorem State.taskView_tk (k : Nat) : t.tk k = s.tk k := congrArg (storeGet TaskSt.idle · k) (State.taskView_task h)
theorem State.taskView_slot (n : Nat) : t.slot n = s.slot n := congrArg (storeGet 0#32 · n) (State.taskView_slots h)

theorem State.taskView_get (y : Fld) (i j cp : Nat) (hy : taskField y) : t.get y i j cp = s.get y i j cp :=
  congrFun (congrFun (congrFun (congrFun (congrArg (·.2.2) h) ⟨y, hy⟩) i) j) cp

theorem State.taskView_taskState (k : Nat) : t.taskState k = s.taskState k := State.taskView_get h _ _ _ _ (.inl ⟨rfl, by decide⟩)

end view

section keeps
variable (s : State)

/-- A change of registers outside the window of the Lathe, and of units, keeps the view. -/
theorem State.taskView_of_window {s t : State} (himg : t.img = s.img) (hlth : t.lth = s.lth)
    (hget : ∀ y i j cp, (regDef y.reg).win = .lth → t.get y i j cp = s.get y i j cp) : t.taskView = s.taskView :=
  State.taskView_ext himg (by rw [hlth]) fun y i j cp hy => hget y i j cp (taskField_win hy)

theorem taskField_apart {x y : Fld} (hx : taskApart x) (hy : taskField y) : y.reg.ctorIdx ≠ x.reg.ctorIdx ∨ y.hi < x.lo := by
  by_cases hreg : y.reg.ctorIdx = x.reg.ctorIdx
  · have hsame := ctorIdx_inj _ _ hreg
    rcases hy with ⟨hstat, hhi⟩ | hresp
    · exact .inr (lt_of_lt_of_le hhi (hx.2.1 (hsame.symm.trans hstat)))
    · exact absurd (hsame.symm.trans hresp) hx.2.2
  · exact .inl hreg

theorem State.put_taskView (x : Fld) (v i j cp : Nat) (hx : taskApart x) : (s.put x v i j cp).taskView = s.taskView :=
  State.taskView_ext rfl rfl fun _ _ _ _ hy => (taskField_apart hx hy).elim (fun h => s.get_put_reg _ _ _ _ _ _ _ _ _ h)
    fun h => s.get_put_fld _ _ _ _ _ _ _ _ _ hx.1 (.inl h)

theorem State.raise_taskView (x : Fld) (mask i j cp : Nat) (owner : Option Nat) (src unit : Nat) (hx : taskApart x) :
    (s.raise x mask i j cp owner src unit).taskView = s.taskView :=
  State.taskView_ext (by simp) (by simp) fun y _ _ _ hy =>
    have hwin : (regDef y.reg).win ≠ .recw := by rw [taskField_win hy]; decide
    (taskField_apart hx hy).elim (fun h => s.raise_get _ _ _ _ _ _ _ _ _ _ _ _ hwin h)
      fun h => s.raise_get_fld _ _ _ _ _ _ _ _ _ _ _ _ hwin hx.1 (.inl h)

theorem State.putStn_taskView (n : Nat) (x : StnSt) : (s.putStn n x).taskView = s.taskView := rfl
theorem State.putLc_taskView (c : Nat) (x : LoadCh) : (s.putLc c x).taskView = s.taskView := rfl
theorem State.putPw_taskView (k : Nat) (x : PwmSt) : (s.putPw k x).taskView = s.taskView := rfl
theorem State.emit_taskView (kind unit dest : Nat) (data : List Nat) : (s.emit kind unit dest data).taskView = s.taskView := rfl
theorem State.sample_taskView (k i v : Nat) : (s.sample k i v).taskView = s.taskView := rfl

theorem State.mitreLine_taskView (n : Nat) : (s.mitreLine n).taskView = s.taskView :=
  s.put_taskView _ _ _ _ _ (by decide)

theorem State.trace_taskView (d src unit a0 a1 : Nat) : (s.trace d src unit a0 a1).taskView = s.taskView :=
  State.taskView_of_window (by simp) (by simp) fun _ _ _ _ hy => s.trace_get _ _ _ _ _ _ _ _ _ (by rw [hy]; decide)

theorem State.safenSet_taskView (b : Nat) : (s.safenSet b).taskView = s.taskView :=
  State.taskView_of_window (by simp) (by simp) fun _ _ _ _ hy => s.safenSet_get _ _ _ _ _ (ctorIdx_win _ _ (by rw [hy]; decide))

/-! Publishing (R175) -/

theorem State.resolve_taskView (c : Nat) : (s.resolve c).taskView = s.taskView :=
  State.taskView_of_window (by simp) (by simp) fun y i j cp hy =>
    s.resolve_get_window y i j cp (by rw [hy]; decide) (by rw [hy]; decide) c

theorem State.clearFlag_taskView (c b : Nat) : (s.clearFlag c b).taskView = s.taskView :=
  s.put_taskView _ _ _ _ _ (by decide)

theorem State.setDrive_taskView (c : Nat) (v : Bool) : (s.setDrive c v).taskView = s.taskView := by
  unfold State.setDrive
  split
  · exact s.put_taskView _ _ _ _ _ (by decide)
  · rfl

theorem State.holdEnd_taskView (c : Nat) : (s.holdEnd c).taskView = s.taskView := by
  unfold State.holdEnd
  dsimp only
  rw [State.putLc_taskView, State.resolve_taskView, State.clearFlag_taskView, State.putLc_taskView]
  split
  · rw [State.put_taskView _ _ _ _ _ _ (by decide), State.put_taskView _ _ _ _ _ _ (by decide)]
  · rfl

theorem State.publish_taskView (slots : List Nat) (ends : Bool) : (s.publish slots ends).taskView = s.taskView := by
  unfold State.publish
  dsimp only
  refine (State.each_inv State.taskView _ _ _ fun t c => ?_).trans <|
    (State.each_inv State.taskView _ _ _ fun t c => t.setDrive_taskView c _).trans (State.each_inv State.taskView _ _ _ fun t m => ?_)
  · split
    · exact t.holdEnd_taskView c
    · exact t.resolve_taskView c
  · split
    · exact t.putPw_taskView _ _
    · rfl

theorem State.firstCommit_taskView : s.firstCommit.taskView = s.taskView := by
  unfold State.firstCommit
  split
  · exact s.put_taskView F.LTH_STATE_RET_VALID 0 0 0 0 (by decide)
  · rfl

/-! Stations (R187, R188, R194) -/

theorem State.cnt_taskView (p i n : Nat) : (s.cnt p i n).taskView = s.taskView := by
  unfold State.cnt
  dsimp only
  split
  · rfl
  · split
    · exact s.put_taskView _ _ _ _ _ (by decide)
    · rw [State.raise_taskView _ _ _ _ _ _ _ _ _ (by decide)]
      split <;> rw [State.put_taskView _ _ _ _ _ _ (by decide),
        State.put_taskView _ _ _ _ _ _ (by decide)]

theorem State.cntTx_taskView (p : Nat) (data : List Nat) : (s.cntTx p data).taskView = s.taskView := by
  unfold State.cntTx
  rw [State.cnt_taskView, State.cnt_taskView, State.cnt_taskView, State.cnt_taskView]

theorem State.stnSend_taskView (e dest : Nat) (pdu : List Nat) : (s.stnSend e dest pdu).taskView = s.taskView := by
  unfold State.stnSend
  dsimp only
  split
  · rw [State.emit_taskView, State.cntTx_taskView]
  · rfl

theorem State.canQueue_taskView (k id : Nat) (ide : Bool) (pdu : List Nat) : (s.canQueue k id ide pdu).taskView = s.taskView := by
  unfold State.canQueue
  dsimp only
  split
  · split
    · exact State.put_taskView _ _ _ _ _ _ (by decide)
    · rfl
  · exact s.put_taskView _ _ _ _ _ (by decide)

theorem State.sendOut_taskView (n : Nat) : (s.sendOut n).taskView = s.taskView := by
  unfold State.sendOut
  dsimp only
  split
  · rw [State.stnSend_taskView, State.putStn_taskView]
  · rw [State.canQueue_taskView, State.putStn_taskView]

theorem State.sendSync_taskView (k : Nat) : (s.sendSync k).taskView = s.taskView := by
  unfold State.sendSync
  dsimp only
  exact (State.each_inv State.taskView _ _ _ fun t e => t.stnSend_taskView _ _ _).trans
    (State.each_inv State.taskView _ _ _ fun t e => t.canQueue_taskView _ _ _ _)

/-! Errors (R178) -/

theorem State.lthErr_taskView (task cause op arg : Nat) : (s.lthErr task cause op arg).taskView = s.taskView := by
  have hqueue : ∀ (t : State) (l : List LthErr), { t with lth := { t.lth with errs := l } }.taskView = t.taskView := fun _ _ => rfl
  unfold State.lthErr
  dsimp only
  split
  · exact s.put_taskView _ _ _ _ _ (by decide)
  · split
    · rw [hqueue]
      split
      · exact s.raise_taskView _ _ _ _ _ _ _ _ (by decide)
      · rfl
    · exact s.put_taskView _ _ _ _ _ (by decide)

end keeps

end Sys2Proof.Machine

/-! SUPPORT. The phases of a run (R158, R171, R173 to R176, R178). -/

namespace Sys2Proof.Machine

/-! Slots written in a row -/

theorem State.mem_taskSlots (s : State) (k : Nat) (p : Nat → Bool) (n : Nat) :
    n ∈ s.taskSlots k p ↔ n < s.slotCount ∧ s.slotTask n = k ∧ p n = true := by
  simp [State.taskSlots, below]

/-- Slots that take values which the writes do not change. -/
theorem State.each_putSlot_slot (g : State → Nat → Word) (hg : ∀ t m v, g (t.putSlot m v) = g t) (l : List Nat) (s : State) (n : Nat) :
    (s.each l fun s n => s.putSlot n (g s n)).slot n = if n ∈ l then g s n else s.slot n := by
  induction l generalizing s with
  | nil => rfl
  | cons m l ih =>
    rw [State.each_cons, ih, hg]
    by_cases hl : n ∈ l
    · rw [if_pos hl, if_pos (List.mem_cons_of_mem m hl)]
    · rw [if_neg hl]
      by_cases hm : n = m
      · rw [hm, State.putSlot_slot_same, if_pos List.mem_cons_self]
      · rw [State.putSlot_slot_ne _ _ _ _ hm, if_neg (by simp [hm, hl])]

/-- A store filled from a list of keys holds the value of each. -/
theorem storeGet_foldl_put (g : Nat → Word) (l : List Nat) (x : Store Word) (n : Nat) :
    storeGet 0#32 (l.foldl (fun x n => storePut 0#32 x n (g n)) x) n = if n ∈ l then g n else storeGet 0#32 x n := by
  induction l generalizing x with
  | nil => rfl
  | cons m l ih =>
    rw [List.foldl_cons, ih]
    by_cases hl : n ∈ l
    · rw [if_pos hl, if_pos (List.mem_cons_of_mem m hl)]
    · rw [if_neg hl]
      by_cases hm : n = m
      · rw [hm, storeGet_put_same, if_pos List.mem_cons_self]
      · rw [storeGet_put_ne _ _ _ _ _ _ hm, if_neg (by simp [hm, hl])]

/-! A release (R158, R171, R173) -/

/-- The shadow that a run takes from the image at its release. -/
def State.shadowTaken (s : State) (k : Nat) : Store Word :=
  (s.taskSlots k s.slotShadowed).foldl (fun l n => storePut 0#32 l n (s.slot n)) []

/-- What a release has made of a task: its phase and shadow, the image, and its state. -/
def State.releaseView (s : State) (k : Nat) : Nat × Store Word × Store Word × Nat :=
  ((s.tk k).phase, (s.tk k).shadow, s.lth.slots, s.taskState k)

theorem State.releaseView_congr {s t : State} (h : t.taskView = s.taskView) (k : Nat) : t.releaseView k = s.releaseView k := by
  unfold State.releaseView
  rw [State.taskView_tk h, State.taskView_slots h, State.taskView_taskState h]

theorem State.sampleInputs_releaseView (s : State) (k : Nat) (maps : List Nat) : (s.sampleInputs k maps).releaseView k = s.releaseView k := by
  unfold State.releaseView State.sampleInputs
  rw [State.putTk_tk]
  rfl

theorem State.release_releaseView (s : State) (k tb : Nat) : (s.release k tb).releaseView k =
    (1, s.shadowTaken k, s.lth.slots, Task.busy) := by
  have hstations : ∀ (t : State) (b : Bool) (l : List Nat), (t.each l fun s n =>
      (s.put F.LTH_STN_STAT_SYNC (b2n b) n).putStn n { s.stn n with answered := false }).taskView = t.taskView := fun t b l =>
    State.each_inv State.taskView _ _ _ fun u n => (State.putStn_taskView _ _ _).trans (u.put_taskView _ _ _ _ _ (by decide))
  unfold State.release
  dsimp only
  rw [apply_ite (State.releaseView · k), State.sampleInputs_releaseView, State.releaseView_congr (State.sendSync_taskView _ _), ite_self,
    State.sampleInputs_releaseView, State.releaseView_congr (hstations _ _ _)]
  unfold State.releaseView
  rw [State.putTk_tk]
  exact congrArg (fun v => (1, s.shadowTaken k, s.lth.slots, v)) (State.get_put_same _ _ _ _ _ _ (by decide))

theorem State.shadowTaken_get (s : State) (k n : Nat) (hin : n < s.slotCount) (htask : s.slotTask n = k) (h : s.slotShadowed n = true) :
    storeGet 0#32 (s.shadowTaken k) n = s.slot n := by
  rw [State.shadowTaken, storeGet_foldl_put, if_pos ((s.mem_taskSlots k _ n).2 ⟨hin, htask, h⟩)]

theorem State.release_shows (s : State) (k tb : Nat) :
    (s.release k tb).taskState k = Task.busy ∧ ((s.release k tb).tk k).phase = 1 ∧ (s.release k tb).lth.slots = s.lth.slots ∧
      ∀ n, n < s.slotCount → s.slotTask n = k → s.slotShadowed n = true → storeGet 0#32 ((s.release k tb).tk k).shadow n = s.slot n := by
  have hview := s.release_releaseView k tb
  refine ⟨congrArg (·.2.2.2) hview, congrArg (·.1) hview, congrArg (·.2.2.1) hview, fun n hin htask h => ?_⟩
  rw [show ((s.release k tb).tk k).shadow = s.shadowTaken k from congrArg (·.2.1) hview]
  exact s.shadowTaken_get k n hin htask h

section due
variable (s : State) (k : Fin 8) (hruns : s.latheRuns = true) (hawake : s.phase ≠ Ph.toSleep) (hdue : s.releaseDue k = true)
include hruns hawake hdue

/-- A release instant is taken once. -/
theorem State.taskRelease_due : s.taskRelease k =
    let p := s.putTk k { s.tk k with made := some s.tbUs }
    if p.taskState k = Task.idle then p.release k (p.tbUs * 1000 * 2 ^ 32)
    else if p.taskState k = Task.busy then
      ((p.bump F.LTH_TASK_OVR_OVERRUNS 1 k).raise F.LTH_TASK_STAT_OVR_EV 1 k 0 0 (p.taskOwner k) 3 k).faultRun k 0x01 0
    else p := by
  have hgo : ¬(!s.latheRuns || s.phase == Ph.toSleep || !s.releaseDue k) = true := by simp [hruns, hawake, hdue]
  exact if_neg hgo

theorem execTaskRelease_idle (hidle : s.taskState k = Task.idle) : Gives (.taskRelease k) s fun t =>
    t.taskState k = Task.busy ∧ (t.tk k).phase = 1 ∧ t.lth.slots = s.lth.slots ∧
      ∀ n, n < s.slotCount → s.slotTask n = k → s.slotShadowed n = true → storeGet 0#32 (t.tk k).shadow n = s.slot n :=
  ⟨_, congrArg Host.Outcome.next ((s.taskRelease_due k hruns hawake hdue).trans (if_pos hidle)), State.release_shows _ _ _⟩

theorem execTaskRelease_busy (hbusy : s.taskState k = Task.busy) : exec (.taskRelease k) s =
    let p := s.putTk k { s.tk k with made := some s.tbUs }
    .next (((p.bump F.LTH_TASK_OVR_OVERRUNS 1 k).raise F.LTH_TASK_STAT_OVR_EV 1 k 0 0 (s.taskOwner k) 3 k).faultRun k 0x01 0) := by
  have hnot : ¬s.taskState k = Task.idle := by rw [hbusy]; decide
  exact congrArg Host.Outcome.next ((s.taskRelease_due k hruns hawake hdue).trans ((if_neg hnot).trans (if_pos hbusy)))

end due

theorem execTaskRelease_early (s : State) (k : Fin 8) (h : s.releaseDue k = false) : exec (.taskRelease k) s = .next s :=
  congrArg Host.Outcome.next (if_pos (by simp [h]))

theorem execErrorTaskRelease_idle (s : State) (hruns : s.latheRuns = true) (hawake : s.phase ≠ Ph.toSleep) (herr : s.lth.errs ≠ [])
    (hidle : s.taskState 8 = Task.idle) : exec .errorTaskRelease s = .next (s.release 8 s.ztm.tb) :=
  congrArg Host.Outcome.next (if_pos (by simp [hruns, hawake, herr, hidle]))

end Sys2Proof.Machine

/-! SUPPORT. The latch, the commit, the execute time limit and FAULT_RUN of a run (R173 to R176). -/

namespace Sys2Proof.Machine

/-! The latch (R173, R174) -/

/-- What the latch leaves as it is: the program, the lanes, and the shadow of its task. -/
def State.latchView (s : State) (k : Nat) : Option Image × Store Nat × Store Word := (s.img, s.lth.lane, (s.tk k).shadow)

/-- The error task takes the oldest record (R178). -/
def State.errTaken (s : State) (k : Nat) : State :=
  if k = 8 then
    match s.lth.errs with
    | r :: rest =>
      let t := s.each ((s.taskSlots 8 fun n => s.slotArea n == Area.input).take 4).zipIdx fun s p =>
        s.putSlot p.1 (BitVec.ofNat 32 (r.word p.2))
      { t with lth := { t.lth with errs := rest } }
    | [] => s
  else s

/-- A latched task before it meets its lane: its inputs have entered their slots. -/
def State.latched (s : State) (k : Nat) : State :=
  let t := if (s.tk k).sync then s.sampleInputs k (s.inputMaps k true) else s
  let u := (t.each (t.tk k).inputs fun s p => s.putSlot p.1 p.2).errTaken k
  u.putTk k { u.tk k with phase := 2, inputs := [] }

section latch
variable (s : State) (k : Nat)

/-- A task whose lane is free starts. -/
theorem State.latchDone_free (h : (s.latched k).laneTask (s.latched k |>.taskLane k) = none) :
    s.latchDone k = (s.latched k).startRun k := by
  have hdone : s.latchDone k =
      match (s.latched k).laneTask ((s.latched k).taskLane k) with
      | none => (s.latched k).startRun k
      | some j =>
        if taskRank k < taskRank j then
          ((s.latched k).putTk j { (s.latched k).tk j with phase := 4, cycles := ((s.latched k).tk j).cycles + 4 }).startRun k
        else s.latched k := rfl
  rw [hdone, h]

theorem State.putSlots_latchView {α : Type} (l : List α) (n : α → Nat) (v : α → Word) :
    (s.each l fun s p => s.putSlot (n p) (v p)).latchView k = s.latchView k :=
  State.each_inv (State.latchView · k) _ _ _ fun _ _ => rfl

theorem State.errTaken_latchView : (s.errTaken k).latchView k = s.latchView k := by
  unfold State.errTaken
  split
  · split
    · exact s.putSlots_latchView k _ _ _
    · rfl
  · rfl

theorem State.sampleInputs_latchView (maps : List Nat) : (s.sampleInputs k maps).latchView k = s.latchView k := by
  unfold State.latchView State.sampleInputs
  rw [State.putTk_tk]
  rfl

theorem State.latched_latchView : (s.latched k).latchView k = s.latchView k := by
  unfold State.latched
  dsimp only
  have hput : ∀ t : State, (t.putTk k { t.tk k with phase := 2, inputs := [] }).latchView k = t.latchView k := fun t => by
    unfold State.latchView
    rw [State.putTk_tk]
    rfl
  rw [hput, State.errTaken_latchView, State.putSlots_latchView, apply_ite (State.latchView · k), State.sampleInputs_latchView, ite_self]

end latch

theorem State.taskRec_congr {s t : State} (h : t.img = s.img) (k w hi lo : Nat) : t.taskRec k w hi lo = s.taskRec k w hi lo := by
  unfold State.taskRec
  rw [State.lw_congr h]

theorem State.putLane_tk (s : State) (l k : Nat) (x : Option Nat) : (s.putLane l x).tk k = s.tk k := rfl

theorem State.startRun_tk (s : State) (k : Nat) : (s.startRun k).tk k =
    { s.tk k with phase := 3, pc := s.taskRec k 5 15 0, flag := false, stack := [], cycles := 0 } := by
  unfold State.startRun
  dsimp only
  rw [State.putLane_tk, State.putTk_tk]

theorem execLatchComplete_free (s : State) (k : Fin 9) (hruns : s.latheRuns = true) (hready : s.latchReady k = true)
    (hfree : s.laneTask (s.taskLane k) = none) : Gives (.latchComplete k) s fun t =>
      t.laneTask (s.taskLane k) = some k.val ∧ (t.tk k).phase = 3 ∧ t.flagF k = false ∧ (t.tk k).stack = [] ∧
        (t.tk k).pc = s.taskRec k 5 15 0 ∧ (t.tk k).shadow = (s.tk k).shadow := by
  have hview := s.latched_latchView k
  have himg : (s.latched k).img = s.img := congrArg (·.1) hview
  have hlane : (s.latched k).taskLane k = s.taskLane k := State.taskRec_congr himg k 0 1 1
  have hnone : (s.latched k).laneTask ((s.latched k).taskLane k) = none := by
    rw [hlane, ← hfree]
    unfold State.laneTask
    rw [show (s.latched k).lth.lane = s.lth.lane from congrArg (·.2.1) hview]
  refine ⟨_, congrArg Host.Outcome.next ((if_pos (by simp [hruns, hready])).trans (s.latchDone_free k hnone)), ?_, ?_⟩
  · rw [← hlane]
    exact State.putLane_laneTask _ _ _
  · rw [State.flagF, State.startRun_tk]
    exact ⟨rfl, rfl, rfl, State.taskRec_congr himg k 5 15 0, congrArg (·.2.2) hview⟩

/-! The commit (R175) -/

/-- The image after the commit of task k: its shadow has entered, and its run is over. -/
def State.imageCommitted (s : State) (k : Nat) : State :=
  let t := { s with lth := { s.lth with commitQ := s.lth.commitQ.filter (· != k) } }
  (t.each (s.taskSlots k s.slotShadowed) fun t n => t.putSlot n (storeGet 0#32 (s.tk k).shadow n)).putTk k
    { s.tk k with phase := 0, shadow := [] }

/-- The commit after it has been published and sent. -/
def State.commitPublished (s : State) (k : Nat) : State :=
  let c := (s.imageCommitted k).firstCommit
  let t := c.publish ((s.taskSlots k s.slotShadowed).filter fun n => c.slotArea n == Area.output) true
  let u := if k < 8 then t.mitreLine k else t
  u.each (u.taskStations k) fun s n => s.sendOut n

/-- The commit as the fields of its task show it. -/
def State.commitShown (s : State) (k resp : Nat) : State :=
  ((((s.commitPublished k).put F.LTH_TASK_STAT_FAULT_RUN 0 k).put F.LTH_TASK_STAT_STATE Task.idle k).incr F.LTH_TASK_COUNT_COUNT k).put
    F.LTH_TASK_RESP_RESP resp k

section commit
variable (s : State) (k resp : Nat)

theorem State.commit_eq : s.commit k resp =
    let t := (s.commitShown k resp).sample 9 k resp
    let u := t.put F.LTH_TASK_TIME_CYCLES (min (s.tk k).cycles 65535) k
    let v := u.put F.LTH_TASK_TMAX_CYCLES (max (min (s.tk k).cycles 65535) (t.get F.LTH_TASK_TMAX_CYCLES k)) k
    match v.taskOwner k with
    | some d => v.trace d 0 k k (resp % 2 ^ 24)
    | none => v := rfl

/-- A shadowed slot of the task takes its shadow, and every other slot keeps its value. -/
theorem State.imageCommitted_slot (n : Nat) : (s.imageCommitted k).slot n =
    if n ∈ s.taskSlots k s.slotShadowed then storeGet 0#32 (s.tk k).shadow n else s.slot n :=
  State.each_putSlot_slot (fun _ n => storeGet 0#32 (s.tk k).shadow n) (fun _ _ _ => rfl) _ _ n

theorem State.imageCommitted_tk : (s.imageCommitted k).tk k = { s.tk k with phase := 0, shadow := [] } := storeGet_put_same _ _ _ _

theorem State.imageCommitted_commitQ : (s.imageCommitted k).lth.commitQ = s.lth.commitQ.filter (· != k) :=
  State.each_inv (·.lth.commitQ) _ _ _ fun _ _ => rfl

theorem State.commitPublished_taskView : (s.commitPublished k).taskView = (s.imageCommitted k).taskView := by
  unfold State.commitPublished
  dsimp only
  rw [State.each_inv State.taskView _ _ _ fun t n => t.sendOut_taskView n, apply_ite State.taskView, State.mitreLine_taskView, ite_self,
    State.publish_taskView, State.firstCommit_taskView]

/-- What follows the fields above shows elsewhere. -/
theorem State.commit_taskView : (s.commit k resp).taskView = (s.commitShown k resp).taskView := by
  rw [State.commit_eq]
  dsimp only
  split
  · rw [State.trace_taskView, State.put_taskView _ _ _ _ _ _ (by decide),
      State.put_taskView _ _ _ _ _ _ (by decide), State.sample_taskView]
  · rw [State.put_taskView _ _ _ _ _ _ (by decide), State.put_taskView _ _ _ _ _ _ (by decide),
      State.sample_taskView]

theorem State.commitShown_state : (s.commitShown k resp).taskState k = Task.idle :=
  (State.get_put_reg _ _ _ _ _ _ _ _ _ _ (by decide)).trans <|
    (State.incr_get_ne _ _ _ _ _ _ _ _ _ (by decide)).trans (State.get_put_same _ _ _ _ _ _ (by decide))

theorem State.commitShown_faultRun : (s.commitShown k resp).get F.LTH_TASK_STAT_FAULT_RUN k = 0 :=
  (State.get_put_reg _ _ _ _ _ _ _ _ _ _ (by decide)).trans <| (State.incr_get_ne _ _ _ _ _ _ _ _ _ (by decide)).trans <|
    (State.get_put_fld _ _ _ _ _ _ _ _ _ _ (by decide) (by decide)).trans (State.get_put_same _ _ _ _ _ _ (by decide))

theorem State.commitShown_resp : (s.commitShown k resp).get F.LTH_TASK_RESP_RESP k = resp % 2 ^ 24 :=
  State.get_put_same _ _ _ _ _ _ (by decide)

end commit

theorem execCommit_oldest (s : State) (k : Nat) (q : List Nat) (resp : BitVec 24) (hruns : s.latheRuns = true)
    (hqueue : s.lth.commitQ = k :: q) : exec (.commit resp) s = .next (s.commit k resp.toNat) := by
  refine congrArg Host.Outcome.next ?_
  unfold State.commitNext
  rw [hqueue]
  exact if_pos hruns

theorem State.commit_shows (s : State) (k resp : Nat) (hresp : resp < 2 ^ 24) :
    (∀ n, n < s.slotCount → s.slotTask n = k → s.slotShadowed n = true → (s.commit k resp).slot n = storeGet 0#32 (s.tk k).shadow n) ∧
      (∀ n, (s.slotTask n ≠ k ∨ s.slotShadowed n = false) → (s.commit k resp).slot n = s.slot n) ∧
      (s.commit k resp).taskState k = Task.idle ∧ (s.commit k resp).get F.LTH_TASK_STAT_FAULT_RUN k = 0 ∧
      ((s.commit k resp).tk k).phase = 0 ∧ k ∉ (s.commit k resp).lth.commitQ ∧ (s.commit k resp).get F.LTH_TASK_RESP_RESP k = resp := by
  have hshown := s.commit_taskView k resp
  have hpublished := s.commitPublished_taskView k
  have hslot : ∀ n, (s.commit k resp).slot n = if n ∈ s.taskSlots k s.slotShadowed then storeGet 0#32 (s.tk k).shadow n else s.slot n :=
    fun n => (State.taskView_slot hshown n).trans ((State.taskView_slot hpublished n).trans (s.imageCommitted_slot k n))
  have htk : (s.commit k resp).tk k = { s.tk k with phase := 0, shadow := [] } :=
    (State.taskView_tk hshown k).trans ((State.taskView_tk hpublished k).trans (s.imageCommitted_tk k))
  have hqueue : (s.commit k resp).lth.commitQ = s.lth.commitQ.filter (· != k) :=
    (State.taskView_commitQ hshown).trans ((State.taskView_commitQ hpublished).trans (s.imageCommitted_commitQ k))
  refine ⟨fun n hin htask h => ?_, fun n hother => ?_, ?_, ?_, ?_, ?_, ?_⟩
  · rw [hslot, if_pos ((s.mem_taskSlots k _ n).2 ⟨hin, htask, h⟩)]
  · rw [hslot, if_neg]
    intro hmem
    obtain ⟨-, htask, h⟩ := (s.mem_taskSlots k _ n).1 hmem
    exact hother.elim (fun hne => hne htask) fun hplain => absurd (h.symm.trans hplain) (by decide)
  · exact (State.taskView_taskState hshown k).trans (s.commitShown_state k resp)
  · exact (State.taskView_get hshown _ _ _ _ (.inl ⟨rfl, by decide⟩)).trans (s.commitShown_faultRun k resp)
  · rw [htk]
  · rw [hqueue]
    simp
  · exact (State.taskView_get hshown _ _ _ _ (.inr rfl)).trans ((s.commitShown_resp k resp).trans (Nat.mod_eq_of_lt hresp))

/-! The execute time limit (R174) -/

theorem State.abandon_slots (s : State) (k : Nat) : (s.abandon k).lth.slots = s.lth.slots := by
  unfold State.abandon
  dsimp only
  split
  · rw [(State.laneNext_slots _ _).1]
    rfl
  · rfl

theorem execInstanceLimit_reached (s : State) (l : Fin 2) (k : Nat) (hruns : s.latheRuns = true) (hlane : s.laneTask l = some k)
    (hlimit : 32768 ≤ (s.tk k).cycles) : exec (.instanceLimit l) s = .next (s.limitRun k) := by
  refine congrArg Host.Outcome.next ?_
  unfold State.instanceLimit
  rw [hlane]
  exact if_pos (by simp [hruns, hlimit])

/-! FAULT_RUN (R176) -/

/-- FAULT_RUN counted, and the error queued. -/
def State.faultCounted (s : State) (k cause op : Nat) : State :=
  (s.put F.LTH_TASK_STAT_FAULT_RUN (min 3 (s.get F.LTH_TASK_STAT_FAULT_RUN k + 1)) k).lthErr k cause op 0

/-- The rest values of task k committed, before they are published. -/
def State.restCommitted (s : State) (k : Nat) : State :=
  let t := s.firstCommit
  t.each (t.taskSlots k fun n => t.slotArea n == Area.output) fun s n => s.putSlot n (s.restVal n)

section fault
variable (s : State) (k cause op : Nat)

theorem State.faultRun_eq : s.faultRun k cause op =
    if (s.faultCounted k cause op).get F.LTH_TASK_STAT_FAULT_RUN k ≥ 3 then (s.faultCounted k cause op).faultStop k
    else s.faultCounted k cause op := rfl

theorem State.faultCounted_faultRun : (s.faultCounted k cause op).get F.LTH_TASK_STAT_FAULT_RUN k =
    min 3 (s.get F.LTH_TASK_STAT_FAULT_RUN k + 1) := by
  refine (State.taskView_get (State.lthErr_taskView _ _ _ _ _) _ _ _ _ (.inl ⟨rfl, by decide⟩)).trans ?_
  rw [State.get_put_same _ _ _ _ _ _ (by decide)]
  exact Nat.mod_eq_of_lt (lt_of_le_of_lt (Nat.min_le_left _ _) (by decide))

theorem State.faultCounted_state : (s.faultCounted k cause op).taskState k = s.taskState k :=
  (State.taskView_taskState (State.lthErr_taskView _ _ _ _ _) k).trans (State.get_put_fld _ _ _ _ _ _ _ _ _ _ (by decide) (by decide))

theorem State.commitRest_taskView : (s.commitRest k).taskView = (s.restCommitted k).taskView :=
  (State.each_inv State.taskView _ _ _ fun t n => t.sendOut_taskView n).trans (State.publish_taskView _ _ _)

theorem State.restVal_congr {s t : State} (h : t.img = s.img) : t.restVal = s.restVal := by
  funext n
  unfold State.restVal State.restCount State.restBase State.mapBase State.mapCount State.initBase State.sidBase
  rw [State.slotCount_congr h, State.lw_congr h]

theorem State.restCommitted_slot (n : Nat) (hin : n < s.slotCount) (htask : s.slotTask n = k) (h : s.slotArea n = Area.output) :
    (s.restCommitted k).slot n = s.restVal n := by
  have himg : s.firstCommit.img = s.img := State.taskView_img s.firstCommit_taskView
  refine (State.each_putSlot_slot State.restVal (fun _ _ _ => rfl) _ _ n).trans ?_
  rw [if_pos, State.restVal_congr himg]
  rw [State.mem_taskSlots, State.slotCount_congr himg, State.slotTask_congr himg, State.slotArea_congr himg]
  exact ⟨hin, htask, beq_iff_eq.2 h⟩

/-- A stop keeps what its task has been given there: STOPPED, its fault mark, and its rest values. -/
theorem State.faultStop_shows : (s.faultStop k).taskState k = Task.stopped ∧ ((s.faultStop k).tk k).faultStop = true ∧
    ∀ n, n < s.slotCount → s.slotTask n = k → s.slotArea n = Area.output → (s.faultStop k).slot n = s.restVal n := by
  let t := (((s.abandon k).commitRest k).lthErr k 0x03 0 0).put F.LTH_TASK_STAT_STATE Task.stopped k
  have hstop : (s.faultStop k).taskView = (t.putTk k { t.tk k with faultStop := true }).taskView :=
    (State.safenSet_taskView _ _).trans (State.raise_taskView _ _ _ _ _ _ _ _ _ (by decide))
  have hrest : (((s.abandon k).commitRest k).lthErr k 0x03 0 0).taskView = ((s.abandon k).restCommitted k).taskView :=
    (State.lthErr_taskView _ _ _ _ _).trans (State.commitRest_taskView _ _)
  have himg : (s.abandon k).img = s.img := by rw [State.abandon_eq]
  refine ⟨?_, ?_, fun n hin htask h => ?_⟩
  · exact (State.taskView_taskState hstop k).trans (State.get_put_same _ _ _ _ _ _ (by decide))
  · rw [State.taskView_tk hstop, State.putTk_tk]
  · rw [State.taskView_slot hstop, ← State.restVal_congr himg]
    refine (State.taskView_slot hrest n).trans (State.restCommitted_slot _ k n ?_ ?_ ?_)
    · rwa [State.slotCount_congr himg]
    · rwa [State.slotTask_congr himg]
    · rwa [State.slotArea_congr himg]

theorem State.faultCounted_img : (s.faultCounted k cause op).img = s.img :=
  (State.taskView_img (State.lthErr_taskView _ _ _ _ _)).trans (State.put_img _ _ _ _ _ _)

theorem State.faultRun_third (h : 2 ≤ s.get F.LTH_TASK_STAT_FAULT_RUN k) :
    (s.faultRun k cause op).taskState k = Task.stopped ∧ ((s.faultRun k cause op).tk k).faultStop = true ∧
      ∀ n, n < s.slotCount → s.slotTask n = k → s.slotArea n = Area.output → (s.faultRun k cause op).slot n = s.restVal n := by
  have himg := s.faultCounted_img k cause op
  rw [State.faultRun_eq, State.faultCounted_faultRun, if_pos (by omega), ← State.slotCount_congr himg, ← State.slotTask_congr himg,
    ← State.slotArea_congr himg, ← State.restVal_congr himg]
  exact State.faultStop_shows _ k

theorem State.faultRun_earlier (h : s.get F.LTH_TASK_STAT_FAULT_RUN k < 2) :
    (s.faultRun k cause op).get F.LTH_TASK_STAT_FAULT_RUN k = s.get F.LTH_TASK_STAT_FAULT_RUN k + 1 ∧
      (s.faultRun k cause op).taskState k = s.taskState k := by
  have hcounted := s.faultCounted_faultRun k cause op
  rw [State.faultRun_eq, hcounted, if_neg (by omega)]
  exact ⟨hcounted.trans (by omega), s.faultCounted_state k cause op⟩

end fault

/-- Settles O26: each row is its branch of the model's operation. Publishing, stations, errors and records keep the image of slots, the
task's record and its fields, so each phase shows what it wrote there. -/
theorem tasksRunThroughTheirPhases : Obligations.TasksRunThroughTheirPhases := by
  unfold Obligations.TasksRunThroughTheirPhases
  refine ⟨fun s k hruns hawake hdue => ⟨execTaskRelease_idle s k hruns hawake hdue, execTaskRelease_busy s k hruns hawake hdue⟩,
    execTaskRelease_early, execErrorTaskRelease_idle, execLatchComplete_free, fun s k q resp hruns hqueue _ => ?_,
    fun s l k hruns hlane hlimit => ⟨execInstanceLimit_reached s l k hruns hlane hlimit, s.abandon_slots k⟩,
    fun s k cause op => ⟨s.faultRun_third k cause op, s.faultRun_earlier k cause op⟩⟩
  exact ⟨_, execCommit_oldest s k q resp hruns hqueue, s.commit_shows k resp.toNat resp.isLt⟩

end Sys2Proof.Machine

/-! SUPPORT. START of a task whose drawer the safe core holds in its safe state (R177, R217). -/

namespace Sys2Proof.Machine

theorem State.taskStart_held (s : State) (k w : Nat) (h : s.taskHeld k = true) : s.taskStart k w = s := by
  unfold State.taskStart
  rw [h]
  exact if_neg (by simp)

theorem State.taskHeld_congr {s t : State} (himg : t.img = s.img) (hdrw : t.drw = s.drw) (hmtr : t.mtrState = s.mtrState) (k : Nat) :
    t.taskHeld k = s.taskHeld k := by
  have hsec : t.sec = s.sec := by
    funext n
    unfold State.sec
    rw [himg]
  have hserved : t.mtrServed = s.mtrServed := by
    funext d
    unfold State.mtrServed State.imgF
    rw [hsec]
  unfold State.taskHeld State.taskOwner State.drawerRec State.imgF
  rw [hserved, hsec, hdrw, hmtr]

/-- Before CLEAR a START of a task that the safe core serves leaves it as it was. -/
theorem execTaskStart_held (s : State) (m : Master) (v : Option (Fin 16)) (k : Fin 9) (a : Access) (h : s.writes m .LTH_TASK_CTRL v k 0 1 a)
    (hheld : s.taskHeld k = true) : exec (.taskStart m v k) s = .next ((s.taken a).answer true 0) := by
  have hpos : hasPos .LTH_TASK_CTRL v k 0 := hasPos_of_kind _ _ _ _ (fun _ => by decide) (fun _ => by decide) k.isLt (by decide)
  have hreg : (hitOf .LTH_TASK_CTRL v k 0).reg = .LTH_TASK_CTRL := by cases v <;> rfl
  have hcmd := s.regCmd_writes_ne m .LTH_TASK_CTRL v k 1 0 a hpos h (by unfold State.posLive; rw [hreg]; rfl) (by rw [hreg]; decide)
  have hwrite : (s.taken a).regWrite (hitOf .LTH_TASK_CTRL v k 0) a.tag 1 = (s.taken a).taskStart k 1 := by cases v <;> rfl
  have hheld' : (s.taken a).taskHeld k = true :=
    (State.taskHeld_congr (s.taken_img a) (s.taken_drw a) (s.taken_get a _ _ _ _ (by decide) (by decide)) k).trans hheld
  exact congrArg Host.Outcome.next (by rw [hcmd, hwrite, State.taskStart_held _ _ _ hheld'])

/-- A machine in SAFE_FAULT: the safe core serves drawer 3, whose task 0 is STOPPED while the engine runs; hart 0 is the keeper's. -/
def safeFaultState : State :=
  let s := { State.reset with
    img := some ⟨[(7, List.replicate 43 0 ++ [1]), (12, [0, 8])], 1, 1, []⟩
    start := { State.reset.start with phase := Ph.run }
    drw := { State.reset.drw with count := 4 }
    hart := [(0, { HartSt.rst with w := false, inReset := false })] }
  ((s.put F.LTH_STATE_STATE Eng.running).put F.LTH_TASK_STAT_STATE Task.stopped 0).put F.MTR_STATE_STATE Mtr.safeFault

/-- The keeper's write of START of task 0. -/
def startAccess : Access := ⟨⟨0, false, .core⟩, 0, regAddr .LTH_TASK_CTRL none 0 0, 4, .write, 1, 0⟩

theorem safeFaultState_writes : safeFaultState.writes (.hart 0 false) .LTH_TASK_CTRL none 0 0 1 startAccess := by
  unfold State.writes State.opens
  and_intros <;> decide +kernel

theorem safeFaultState_stopped : safeFaultState.engine = Eng.running ∧ safeFaultState.taskState 0 = Task.stopped ∧
    safeFaultState.taskHeld 0 = true := by
  and_intros <;> decide +kernel

/-- Refutes O27: START of a STOPPED task of a RUNNING engine is ignored while the safe core holds the task's drawer in its safe state (R217),
which the statement does not exclude. In SAFE_FAULT the task stays STOPPED. -/
theorem not_latheEngineCommands : ¬ Obligations.LatheEngineCommands := by
  unfold Obligations.LatheEngineCommands
  rintro ⟨-, hstart, -⟩
  obtain ⟨hruns, hstopped, hheld⟩ := safeFaultState_stopped
  have hwrites := safeFaultState_writes
  obtain ⟨t, hexec, hidle, -⟩ := (hstart safeFaultState (.hart 0 false) none 0 startAccess hwrites).1 hruns hstopped
  have hstays := Host.Outcome.next.inj (hexec.symm.trans (execTaskStart_held _ _ _ _ _ hwrites hheld))
  have hkept : t.taskState 0 = safeFaultState.taskState 0 := by
    rw [hstays]
    exact safeFaultState.taken_get startAccess _ _ _ _ (by decide) (by decide)
  exact absurd ((hidle.symm.trans hkept).trans hstopped) (by decide)

end Sys2Proof.Machine

/-! SUPPORT. What an event and an error record leave of the stations (R178, R192), and what a dropout and a valid IN make of one. -/

namespace Sys2Proof.Machine

/-- The fields a station shows: STATE, SYNC and FAULT, and its count of dropouts (R192). -/
abbrev stnField (y : Fld) : Prop := y.reg = .LTH_STN_STAT ∧ y.hi < 8 ∨ y.reg = .LTH_STN_DROPS

theorem stnField_win {y : Fld} (hy : stnField y) : (regDef y.reg).win = .lth := by
  rcases hy with ⟨h, -⟩ | h <;> rw [h] <;> rfl

/-! Records of the Lathe and events -/

section record
variable (s : State) (task cause op arg : Nat)

theorem State.lthErr_stnAll : (s.lthErr task cause op arg).lth.stn = s.lth.stn := by
  have hqueue : ∀ (t : State) (l : List LthErr), { t with lth := { t.lth with errs := l } }.lth.stn = t.lth.stn := fun _ _ => rfl
  unfold State.lthErr
  dsimp only
  split
  · rfl
  · split
    · rw [hqueue]
      split
      · exact congrArg LthSt.stn (s.raise_lth _ _ _ _ _ _ _ _)
      · rfl
    · rfl

theorem State.lthErr_stn (n : Nat) : (s.lthErr task cause op arg).stn n = s.stn n :=
  congrArg (storeGet StnSt.fresh · n) (s.lthErr_stnAll task cause op arg)

theorem State.lthErr_stnField (y : Fld) (i j cp : Nat) (hy : stnField y) : (s.lthErr task cause op arg).get y i j cp = s.get y i j cp := by
  have hqueue : ∀ (t : State) (l : List LthErr), { t with lth := { t.lth with errs := l } }.get y i j cp = t.get y i j cp := fun _ _ => rfl
  have hapart : y.reg.ctorIdx ≠ RegId.LTH_ERR_STAT.ctorIdx ∧ y.reg.ctorIdx ≠ RegId.LTH_TASK_STAT.ctorIdx := by
    rcases hy with ⟨h, -⟩ | h <;> rw [h] <;> decide
  obtain ⟨herr, htask⟩ := hapart
  unfold State.lthErr
  dsimp only
  split
  · exact s.bump_get_ne _ _ _ _ _ _ _ _ _ herr
  · split
    · rw [hqueue]
      split
      · exact s.raise_get _ _ _ _ _ _ _ _ _ _ _ _ (by rw [stnField_win hy]; decide) htask
      · rfl
    · exact s.bump_get_ne _ _ _ _ _ _ _ _ _ herr

end record

theorem State.raise_stn (s : State) (x : Fld) (mask i j cp : Nat) (owner : Option Nat) (src unit n : Nat) :
    (s.raise x mask i j cp owner src unit).stn n = s.stn n :=
  congrArg (fun l : LthSt => storeGet StnSt.fresh l.stn n) (s.raise_lth x mask i j cp owner src unit)

/-- The event bits of a station stand apart from the fields it shows. -/
theorem State.raise_stnField (s : State) (x : Fld) (mask i j cp : Nat) (owner : Option Nat) (src unit : Nat) (y : Fld) (i' j' cp' : Nat)
    (hevent : x.reg = .LTH_STN_STAT ∧ 8 ≤ x.lo ∧ x.hi < 32) (hy : stnField y) :
    (s.raise x mask i j cp owner src unit).get y i' j' cp' = s.get y i' j' cp' := by
  have hwin : (regDef y.reg).win ≠ .recw := by rw [stnField_win hy]; decide
  obtain ⟨hreg, hlo, hhi⟩ := hevent
  rcases hy with ⟨-, hlow⟩ | hdrops
  · exact s.raise_get_fld _ _ _ _ _ _ _ _ _ _ _ _ hwin hhi (.inl (by omega))
  · exact s.raise_get _ _ _ _ _ _ _ _ _ _ _ _ hwin (by rw [hreg, hdrops]; decide)

theorem State.putStn_stn (s : State) (n : Nat) (x : StnSt) : (s.putStn n x).stn n = x := storeGet_put_same _ _ _ _

theorem State.putStn_stn_ne (s : State) {n m : Nat} (x : StnSt) (h : m ≠ n) : (s.putStn n x).stn m = s.stn m :=
  storeGet_put_ne _ _ _ _ _ _ h

/-! Entering DROPPED (R192) -/

section drop
variable (s : State) (n cause : Nat)

/-- STATE and DROPS of a station that drops. -/
def State.dropCounted : State := (s.put F.LTH_STN_STAT_STATE Stn.dropped n).bump F.LTH_STN_DROPS_COUNT 1 n

theorem State.stnDrop_eq : s.stnDrop n cause =
    let t := s.dropCounted n
    ((t.raise F.LTH_STN_STAT_DROP_EV 1 n 0 0 (t.stnOwner n) 4 n).putStn n { s.stn n with run := 0 }).lthErr 15 cause 0 n := rfl

/-- The event and the record that follow show elsewhere. -/
theorem State.stnDrop_stnField (y : Fld) (i j cp : Nat) (hy : stnField y) :
    (s.stnDrop n cause).get y i j cp = (s.dropCounted n).get y i j cp := by
  rw [State.stnDrop_eq]
  exact (State.lthErr_stnField _ _ _ _ _ y i j cp hy).trans (State.raise_stnField _ _ _ _ _ _ _ _ _ y i j cp (by decide) hy)

theorem State.stnDrop_stateOf (m : Nat) : (s.stnDrop n cause).stnState m = (s.put F.LTH_STN_STAT_STATE Stn.dropped n).stnState m :=
  (s.stnDrop_stnField n cause _ _ _ _ (by decide)).trans (State.bump_get_ne _ _ _ _ _ _ _ _ _ _ (by decide))

theorem State.stnDrop_state : (s.stnDrop n cause).stnState n = Stn.dropped :=
  (s.stnDrop_stateOf n cause n).trans (s.get_put_same _ _ _ _ _ (by decide))

/-- A station that is DROPPED stays so while others drop. -/
theorem State.stnDrop_dropped (m : Nat) (h : s.stnState m = Stn.dropped) : (s.stnDrop n cause).stnState m = Stn.dropped := by
  rw [State.stnDrop_stateOf]
  by_cases hpos : m % 4096 = n % 4096
  · have hkey : keyOf .LTH_STN_STAT 0 m 0 = keyOf .LTH_STN_STAT 0 n 0 := by unfold keyOf; rw [hpos]
    unfold State.stnState State.get
    rw [regGet_key _ _ _ _ _ _ _ _ hkey]
    exact s.get_put_same F.LTH_STN_STAT_STATE Stn.dropped n 0 0 (by decide)
  · exact (s.get_put_pos _ _ _ _ _ _ _ _ (.inl hpos)).trans h

theorem State.stnDrop_count : (s.stnDrop n cause).get F.LTH_STN_DROPS_COUNT n = min (s.get F.LTH_STN_DROPS_COUNT n + 1) (2 ^ 16 - 1) := by
  rw [s.stnDrop_stnField n cause _ _ _ _ (by decide)]
  refine (State.get_put_same _ _ _ _ _ _ (by decide)).trans ?_
  rw [s.get_put_reg _ _ _ _ _ _ _ _ _ (by decide)]
  exact Nat.mod_eq_of_lt (lt_of_le_of_lt (Nat.min_le_right _ _) (by decide))

theorem State.stnDrop_stn : (s.stnDrop n cause).stn n = { s.stn n with run := 0 } := by
  rw [State.stnDrop_eq]
  dsimp only
  rw [State.lthErr_stn, State.putStn_stn]

theorem State.stnDrop_stn_ne {m : Nat} (h : m ≠ n) : (s.stnDrop n cause).stn m = s.stn m := by
  rw [State.stnDrop_eq]
  dsimp only
  rw [State.lthErr_stn, State.putStn_stn_ne _ _ h, State.raise_stn]
  rfl

/-- A drop keeps which stations have answered. -/
theorem State.stnDrop_answered (m : Nat) : ((s.stnDrop n cause).stn m).answered = (s.stn m).answered := by
  by_cases h : m = n
  · rw [h, State.stnDrop_stn]
  · rw [State.stnDrop_stn_ne _ _ _ h]

end drop

/-! A valid IN (R189, R192) -/

section valid
variable (s : State) (n seq : Nat) (fault : Bool) (vals : List Nat)

/-- A valid IN as it is taken: its values, FAULT, and the record of a fault that has come. -/
def State.inTaken : State :=
  let t := (s.putStn n { s.stn n with
    lastSeq := some seq, vals := vals, run := (s.stn n).run + 1, answered := true, fault := some fault }).put F.LTH_STN_STAT_FAULT (b2n fault) n
  if fault && (s.stn n).fault == some false then t.lthErr 15 0x13 0 n else t

/-- A station enters ACTIVE; a return from DROPPED is an event with a record. -/
def State.stnActivate : State :=
  let t := s.put F.LTH_STN_STAT_STATE Stn.active n
  if s.stnState n == Stn.dropped then (t.raise F.LTH_STN_STAT_RET_EV 1 n 0 0 (t.stnOwner n) 4 n).lthErr 15 0x11 0 n else t

theorem State.stnValid_eq : s.stnValid n seq fault vals =
    let t := s.inTaken n seq fault vals
    if (s.stn n).run + 1 ≥ 2 && t.stnState n != Stn.active then t.stnActivate n else t := rfl

theorem State.inTaken_stn : (s.inTaken n seq fault vals).stn n =
    { s.stn n with lastSeq := some seq, vals := vals, run := (s.stn n).run + 1, answered := true, fault := some fault } := by
  unfold State.inTaken
  dsimp only
  split
  · rw [State.lthErr_stn]
    exact State.putStn_stn _ _ _
  · exact State.putStn_stn _ _ _

theorem State.inTaken_state : (s.inTaken n seq fault vals).stnState n = s.stnState n := by
  have hfault : ∀ t : State, (t.put F.LTH_STN_STAT_FAULT (b2n fault) n).stnState n = t.stnState n := fun t =>
    t.get_put_fld _ _ _ _ _ _ _ _ _ (by decide) (by decide)
  unfold State.inTaken
  dsimp only
  split
  · exact (State.lthErr_stnField _ _ _ _ _ _ _ _ _ (by decide)).trans (hfault _)
  · exact hfault _

theorem State.inTaken_fault : (s.inTaken n seq fault vals).is F.LTH_STN_STAT_FAULT n = fault := by
  have hfault : ∀ t : State, (t.put F.LTH_STN_STAT_FAULT (b2n fault) n).is F.LTH_STN_STAT_FAULT n = fault := fun t => by
    unfold State.is
    rw [t.get_put_same _ _ _ _ _ (by decide)]
    cases fault <;> rfl
  have hrecord : ∀ t : State, (t.lthErr 15 0x13 0 n).is F.LTH_STN_STAT_FAULT n = t.is F.LTH_STN_STAT_FAULT n := fun t =>
    congrArg (· == 1) (t.lthErr_stnField _ _ _ _ _ _ _ _ (by decide))
  unfold State.inTaken
  dsimp only
  split
  · exact (hrecord _).trans (hfault _)
  · exact hfault _

theorem State.stnActivate_stn : (s.stnActivate n).stn n = s.stn n := by
  unfold State.stnActivate
  dsimp only
  split
  · rw [State.lthErr_stn, State.raise_stn]
    rfl
  · rfl

theorem State.stnActivate_stnField (y : Fld) (i j cp : Nat) (hy : stnField y) :
    (s.stnActivate n).get y i j cp = (s.put F.LTH_STN_STAT_STATE Stn.active n).get y i j cp := by
  unfold State.stnActivate
  dsimp only
  split
  · exact (State.lthErr_stnField _ _ _ _ _ y i j cp hy).trans (State.raise_stnField _ _ _ _ _ _ _ _ _ y i j cp (by decide) hy)
  · rfl

theorem State.stnActivate_state : (s.stnActivate n).stnState n = Stn.active :=
  (s.stnActivate_stnField n _ _ _ _ (by decide)).trans (s.get_put_same _ _ _ _ _ (by decide))

theorem State.stnActivate_fault : (s.stnActivate n).is F.LTH_STN_STAT_FAULT n = s.is F.LTH_STN_STAT_FAULT n :=
  congrArg (· == 1) <| (s.stnActivate_stnField n _ _ _ _ (by decide)).trans (s.get_put_fld _ _ _ _ _ _ _ _ _ (by decide) (by decide))

theorem State.stnValid_stn : (s.stnValid n seq fault vals).stn n =
    { s.stn n with lastSeq := some seq, vals := vals, run := (s.stn n).run + 1, answered := true, fault := some fault } := by
  rw [State.stnValid_eq]
  dsimp only
  rw [apply_ite (State.stn · n), State.stnActivate_stn, ite_self, State.inTaken_stn]

theorem State.stnValid_fault : (s.stnValid n seq fault vals).is F.LTH_STN_STAT_FAULT n = fault := by
  rw [State.stnValid_eq]
  dsimp only
  rw [apply_ite (State.is · F.LTH_STN_STAT_FAULT n), State.stnActivate_fault, ite_self, State.inTaken_fault]

/-- The first IN in a row leaves STATE, and the second makes the station ACTIVE. -/
theorem State.stnValid_state : (s.stnValid n seq fault vals).stnState n = if (s.stn n).run = 0 then s.stnState n else Stn.active := by
  have htaken := s.inTaken_state n seq fault vals
  rw [State.stnValid_eq]
  dsimp only
  by_cases hfirst : (s.stn n).run = 0
  · rw [if_pos hfirst, if_neg (by simp [hfirst]), htaken]
  · rw [if_neg hfirst]
    have hsecond : 1 ≤ (s.stn n).run := Nat.one_le_iff_ne_zero.2 hfirst
    by_cases hactive : s.stnState n = Stn.active
    · rw [if_neg (by simp [htaken, hactive]), htaken, hactive]
    · rw [if_pos (by simp [htaken, hactive, hsecond]), State.stnActivate_state]

end valid

end Sys2Proof.Machine

/-! SUPPORT. How a station message is judged (R188, R189), and what the clocks of the stations do (R192, R194). -/

namespace Sys2Proof.Machine

/-! The judgement of a message -/

section judge
variable (s : State) (n : Nat) (pdu : List Nat)

/-- Whether an IN passes every check of R189 but that of SEQ. -/
def State.inOk : Bool :=
  let len := leNat (slice pdu 8 2)
  let t := s.tk (s.stnTask n)
  at0 pdu 0 == 0x13 && at0 pdu 1 == n && len == 4 * s.stnIn n && decide (pdu.length ≥ 16 + len)
    && leNat (slice pdu (12 + len) 4) == crc32 (pdu.take (12 + len)) && (!t.sync || leNat (slice pdu 4 4) == t.relUs % 2 ^ 32)

/-- Whether the SEQ of an IN is new (R189). -/
def State.inFresh : Bool :=
  match (s.stn n).lastSeq with
  | none => true
  | some l => let d := (leNat (slice pdu 2 2) + 65536 - l) % 65536; decide (1 ≤ d ∧ d ≤ 32767)

theorem State.stationIn_eq : s.stationIn n pdu =
    if !s.inOk n pdu then s.bump F.LTH_STN_ERR_BAD 1 n
    else if !s.inFresh n pdu then s.bump F.LTH_STN_ERR_STALE 1 n
    else s.stnValid n (leNat (slice pdu 2 2)) (bitOf (leNat (slice pdu 10 2)) 1) (leWords (slice pdu 12 (leNat (slice pdu 8 2)))) := rfl

theorem State.stationIn_bad (h : ¬s.inOk n pdu = true) : s.stationIn n pdu = s.bump F.LTH_STN_ERR_BAD 1 n := by
  rw [State.stationIn_eq, if_pos (by simpa using h)]

theorem State.stationIn_stale (hok : s.inOk n pdu = true) (h : ¬s.inFresh n pdu = true) :
    s.stationIn n pdu = s.bump F.LTH_STN_ERR_STALE 1 n := by
  rw [State.stationIn_eq, if_neg (by simp [hok]), if_pos (by simpa using h)]

theorem State.stationIn_valid (hok : s.inOk n pdu = true) (h : s.inFresh n pdu = true) : s.stationIn n pdu =
    s.stnValid n (leNat (slice pdu 2 2)) (bitOf (leNat (slice pdu 10 2)) 1) (leWords (slice pdu 12 (leNat (slice pdu 8 2)))) := by
  rw [State.stationIn_eq, if_neg (by simp [hok]), if_neg (by simp [h])]

theorem State.inOk_iff : s.inOk n pdu = true ↔
    at0 pdu 0 = 0x13 ∧ at0 pdu 1 = n ∧ leNat (slice pdu 8 2) = 4 * s.stnIn n ∧ 16 + leNat (slice pdu 8 2) ≤ pdu.length ∧
      leNat (slice pdu (12 + leNat (slice pdu 8 2)) 4) = crc32 (pdu.take (12 + leNat (slice pdu 8 2))) ∧
      ((s.tk (s.stnTask n)).sync = true → leNat (slice pdu 4 4) = (s.tk (s.stnTask n)).relUs % 2 ^ 32) := by
  have hcycle : ∀ (sync : Bool) (a b : Nat), (!sync || a == b) = true ↔ (sync = true → a = b) := fun sync a b => by
    cases sync <;> simp
  unfold State.inOk
  simp only [Bool.and_eq_true, beq_iff_eq, decide_eq_true_eq, hcycle, and_assoc, ge_iff_le]

theorem State.inFresh_iff : s.inFresh n pdu = true ↔ ∀ p, (s.stn n).lastSeq = some p →
    1 ≤ (leNat (slice pdu 2 2) + 65536 - p) % 65536 ∧ (leNat (slice pdu 2 2) + 65536 - p) % 65536 ≤ 32767 := by
  unfold State.inFresh
  cases (s.stn n).lastSeq with
  | none => simp
  | some p => simp

end judge

/-! The station of an address -/

section message
variable (s : State) (eth : Bool) (e src : Nat) (pdu : List Nat)

theorem State.stnMessage_unknown (h : ∀ n < 64, s.stnAt eth e n = true → s.stnSource n ≠ src) : s.stnMessage eth e src pdu =
    if s.stnAt eth e (at0 pdu 1) then s.bump F.LTH_STN_ERR_BAD 1 (at0 pdu 1) else s := by
  have hnone : (List.range 64).find? (fun n => s.stnAt eth e n && s.stnSource n == src) = none := by
    rw [List.find?_eq_none]
    intro n hn
    simpa using h n (List.mem_range.1 hn)
  unfold State.stnMessage
  rw [hnone]

theorem State.stnMessage_known (n : Nat) (hin : n < 64) (hat : s.stnAt eth e n = true) (hsrc : s.stnSource n = src)
    (hfirst : ∀ j < n, s.stnAt eth e j = true → s.stnSource j ≠ src) : s.stnMessage eth e src pdu = s.stationIn n pdu := by
  have hsome : (List.range 64).find? (fun n => s.stnAt eth e n && s.stnSource n == src) = some n := by
    rw [List.find?_range_eq_some]
    refine ⟨by simp [hat, hsrc], List.mem_range.2 hin, fun j hj => ?_⟩
    simpa [imp_iff_not_or] using hfirst j hj
  unfold State.stnMessage
  rw [hsome]

end message

theorem execStationIn_runs (s : State) (x : StnFrom) (l : List (BitVec 8)) (hruns : s.latheRuns = true) :
    exec (.stationIn x l) s = .next (s.stnMessage x.eth x.unit x.addr.toNat (natsOf l)) :=
  congrArg Host.Outcome.next (if_pos hruns)

/-! The allowance and the synchronous time-out -/

theorem execStationAllowanceExpiry_dropped (s : State) (n : Fin 64) (hruns : s.latheRuns = true) (hen : s.stnEn n = true)
    (h : s.stnState n = Stn.dropped) : exec (.stationAllowanceExpiry n) s = .next (s.putStn n { s.stn n with run := 0 }) := by
  refine congrArg Host.Outcome.next ?_
  unfold State.stnAllowance
  rw [if_neg (by simp [hruns, hen]), if_pos h]

theorem execStationAllowanceExpiry_drops (s : State) (n : Fin 64) (hruns : s.latheRuns = true) (hen : s.stnEn n = true)
    (h : s.stnState n ≠ Stn.dropped) : exec (.stationAllowanceExpiry n) s = .next (s.stnDrop n 0x10) := by
  refine congrArg Host.Outcome.next ?_
  unfold State.stnAllowance
  rw [if_neg (by simp [hruns, hen]), if_neg h]

/-- The stations of task k that a synchronous time-out finds without an answer (R194). -/
def State.unanswered (s : State) (k : Nat) : List Nat :=
  (s.taskStations k).filter fun n => s.stnState n != Stn.dropped && !(s.stn n).answered

theorem State.mem_unanswered (s : State) (k n : Nat) :
    n ∈ s.unanswered k ↔ n ∈ s.taskStations k ∧ s.stnState n ≠ Stn.dropped ∧ (s.stn n).answered = false := by
  simp [State.unanswered]

theorem execStationSyncTimeout_waiting (s : State) (k : Fin 8) (hruns : s.latheRuns = true) (hphase : (s.tk k).phase = 1)
    (hsync : (s.tk k).sync = true) :
    exec (.stationSyncTimeout k) s = .next (s.each (s.unanswered k) fun s n => s.stnDrop n 0x12) :=
  congrArg Host.Outcome.next (if_pos (by simp [hruns, hphase, hsync]))

section timeout
variable (s : State) (cause : Nat) (l : List Nat)

theorem State.eachDrop_state : ∀ n ∈ l, (s.each l fun s n => s.stnDrop n cause).stnState n = Stn.dropped :=
  State.each_establishes (fun n t => t.stnState n = Stn.dropped) l _ s (fun t n => t.stnDrop_state n cause) fun t n m =>
    t.stnDrop_dropped n cause m

theorem State.eachDrop_dropped (m : Nat) (h : s.stnState m = Stn.dropped) : (s.each l fun s n => s.stnDrop n cause).stnState m = Stn.dropped :=
  State.each_keeps (fun t => t.stnState m = Stn.dropped) l _ s h fun t n => t.stnDrop_dropped n cause m

theorem State.eachDrop_answered (m : Nat) : ((s.each l fun s n => s.stnDrop n cause).stn m).answered = (s.stn m).answered :=
  State.each_inv (fun t => (t.stn m).answered) l _ s fun t n => t.stnDrop_answered n cause m

end timeout

/-- After the time-out every station of the task is DROPPED or has answered. -/
theorem State.eachDrop_unanswered (s : State) (k n : Nat) (hn : n ∈ s.taskStations k) :
    let t := s.each (s.unanswered k) fun s n => s.stnDrop n 0x12
    t.stnState n = Stn.dropped ∨ (t.stn n).answered = true := by
  by_cases hdropped : s.stnState n = Stn.dropped
  · exact .inl (s.eachDrop_dropped _ _ n hdropped)
  · cases hanswered : (s.stn n).answered with
    | true => exact .inr ((s.eachDrop_answered _ _ n).trans hanswered)
    | false => exact .inl (s.eachDrop_state _ _ n ((s.mem_unanswered k n).2 ⟨hn, hdropped, hanswered⟩))

/-- Settles O32: the source address finds the station, whose judgement is R189's; what a valid IN and a dropout write is read back through
the event and the record that follow them. The station of an unknown address is the choice of log entry 129. -/
theorem stationsFollowTheirStates : Obligations.StationsFollowTheirStates := by
  unfold Obligations.StationsFollowTheirStates
  refine ⟨fun s eth e src l hruns hnone => ?_, fun s n eth e src l hruns hat hsrc hfirst => ?_,
    fun s n hruns hen => ⟨execStationAllowanceExpiry_dropped s n hruns hen, fun h =>
      ⟨_, execStationAllowanceExpiry_drops s n hruns hen h, s.stnDrop_state n _, congrArg StnSt.run (s.stnDrop_stn n _),
        s.stnDrop_count n _⟩⟩,
    fun s k hruns hphase hsync => ⟨_, execStationSyncTimeout_waiting s k hruns hphase hsync, fun n hn => s.eachDrop_unanswered k n hn,
      fun n hn hstate hanswered => s.eachDrop_state _ _ n ((s.mem_unanswered k n).2 ⟨hn, hstate, hanswered⟩)⟩⟩
  · rw [execStationIn_runs s _ l hruns, s.stnMessage_unknown eth e _ _ hnone]
  · have hexec : exec (.stationIn ⟨eth, e, src⟩ l) s = .next (s.stationIn n (natsOf l)) := by
      rw [execStationIn_runs s _ l hruns, s.stnMessage_known eth e _ _ n n.isLt hat hsrc hfirst]
    dsimp only
    rw [← State.inOk_iff, ← State.inFresh_iff]
    refine ⟨fun hbad => ?_, fun hgood hstale => ?_, fun hgood hnext => ⟨_, hexec, ?_⟩⟩
    · rw [hexec, State.stationIn_bad _ _ _ hbad]
    · rw [hexec, State.stationIn_stale _ _ _ hgood hstale]
    · beta_reduce
      rw [State.stationIn_valid _ _ _ hgood hnext, State.stnValid_stn, State.stnValid_fault, State.stnValid_state]
      exact ⟨rfl, rfl, rfl, rfl, fun hfirst _ => if_pos hfirst, fun hsecond => if_neg (by omega)⟩

end Sys2Proof.Machine

/-! SUPPORT. The braced unit's local memory (R208), and what its operations leave: the words of a bank, the registers, and the state that the
end of a copy judges. -/

namespace Sys2Proof.Machine

/-! Words of the two banks (R208) -/

theorem xformWord_eq (a : Nat) : xformWord a = a / 4 ^^^ 0x3FFFF := Nat.xor_div_two_pow (n := 2)

theorem xformWord_inj (a b : Nat) : xformWord a = xformWord b ↔ a / 4 = b / 4 := by
  rw [xformWord_eq, xformWord_eq, Nat.xor_left_inj]

theorem rotateRight_rotateLeft (v : Word) : (v.rotateLeft 13).rotateRight 13 = v := by
  ext i hi
  rw [BitVec.getElem_rotateRight]
  split
  · rw [BitVec.getElem_rotateLeft, dif_neg (by omega)]
    exact getElem_congr_idx (by omega)
  · rw [BitVec.getElem_rotateLeft, dif_pos (by omega)]
    exact getElem_congr_idx (by omega)

/-- A word of copy B reads back plain. -/
@[simp] theorem loadB_storeB (v : Word) : loadB (storeB v) = v := by
  unfold loadB storeB
  rw [rotateRight_rotateLeft, BitVec.not_not]

section lmem
variable (s : State) (a b : Nat) (v : Word)

theorem State.putLmemA_lmemA_same : (s.putLmemA a v).lmemA a = v := storeGet_put_same _ _ _ _

theorem State.lmemA_of_word (h : b / 4 = a / 4) : s.lmemA b = s.lmemA a := congrArg (storeGet 0#32 s.mtr.bank0) h

theorem State.putLmemB_lmemA : (s.putLmemB a v).lmemA b = s.lmemA b := rfl

theorem State.putLmemB_lmemB_word (h : b / 4 = a / 4) : (s.putLmemB a v).lmemB b = v := by
  have hread : (s.putLmemB a v).lmemB b =
      loadB (storeGet s.bank1Zero (storePut s.bank1Zero s.mtr.bank1 (xformWord a) (storeB v)) (xformWord b)) := rfl
  rw [hread, (xformWord_inj b a).2 h, storeGet_put_same, loadB_storeB]

theorem State.putLmemB_lmemB_ne (h : b / 4 ≠ a / 4) : (s.putLmemB a v).lmemB b = s.lmemB b :=
  congrArg loadB (storeGet_put_ne _ _ _ _ _ _ fun e => h ((xformWord_inj b a).1 e))

end lmem

theorem State.lmemB_congr {s t : State} (hbank : t.mtr.bank1 = s.mtr.bank1) (himg : t.img = s.img) (a : Nat) : t.lmemB a = s.lmemB a := by
  unfold State.lmemB State.bank1Zero State.mtrSplit State.imgF State.sec
  rw [hbank, himg]

/-! What the writes of a copy leave -/

/-- What the end of a copy judges beside its records: the registers, bank 0, the histories of R214 and the requests that wait. -/
def State.sliceView (s : State) : RegFile × Store Word × List Nat × List Nat × Bool × Nat :=
  (s.regs, s.mtr.bank0, s.mtr.latents, s.mtr.mismatches, s.mtr.haltReq, s.mtr.dbgReq)

theorem State.sliceView_get {s t : State} (h : t.sliceView = s.sliceView) (y : Fld) (i j cp : Nat) : t.get y i j cp = s.get y i j cp :=
  State.get_congr _ _ (congrArg (·.1) h) _ _ _ _

theorem State.sliceView_parts {s t : State} (h : t.sliceView = s.sliceView) : t.mtr.bank0 = s.mtr.bank0 ∧ t.mtr.latents = s.mtr.latents ∧
    t.mtr.mismatches = s.mtr.mismatches ∧ t.mtr.haltReq = s.mtr.haltReq ∧ t.mtr.dbgReq = s.mtr.dbgReq :=
  ⟨congrArg (·.2.1) h, congrArg (·.2.2.1) h, congrArg (·.2.2.2.1) h, congrArg (·.2.2.2.2.1) h, congrArg (·.2.2.2.2.2) h⟩

theorem State.copyBState_sliceView (s : State) (r : CopyRec) : (s.copyBState r).sliceView = s.sliceView :=
  State.each_inv State.sliceView _ _ _ fun _ _ => rfl

theorem State.copyCState_sliceView (s : State) (r : CopyRec) : (s.copyCState r).sliceView = s.sliceView :=
  State.each_inv State.sliceView _ _ _ fun _ _ => rfl

/-! The checkpoint and the next slice (R205) -/

section checkpoint
variable (s : State)

theorem State.coreTrap_eq (c : Nat) (cause tval : Word) : s.coreTrap c cause tval =
    { s with mtr := { s.mtr with archA := (s.coreTrap c cause tval).mtr.archA, archB := (s.coreTrap c cause tval).mtr.archB } } := by
  unfold State.coreTrap
  dsimp only
  split
  · rfl
  · split <;> rfl

theorem State.coreIrq_eq (c lines : Nat) : s.coreIrq c lines =
    { s with mtr := { s.mtr with archA := (s.coreIrq c lines).mtr.archA, archB := (s.coreIrq c lines).mtr.archB } } := by
  unfold State.coreIrq
  split
  · exact s.coreTrap_eq _ _ _
  · rfl

theorem State.coreIrq_get (c lines : Nat) (y : Fld) (i j cp : Nat) : (s.coreIrq c lines).get y i j cp = s.get y i j cp :=
  State.get_congr _ _ (by rw [State.coreIrq_eq]) _ _ _ _

theorem State.checkpoint_mtrState : s.checkpoint.mtrState = Mtr.running :=
  (State.get_put_fld _ _ _ _ _ _ _ _ _ _ (by decide) (by decide)).trans (State.get_put_same _ _ _ _ _ _ (by decide))

theorem State.checkpoint_copy : s.checkpoint.get F.MTR_STATE_COPY = 1 := State.get_put_same _ _ _ _ _ _ (by decide)

theorem State.checkpoint_get (y : Fld) (i j cp : Nat) (h : y.reg.ctorIdx ≠ RegId.MTR_STATE.ctorIdx) :
    s.checkpoint.get y i j cp = s.get y i j cp :=
  (State.get_put_reg _ _ _ _ _ _ _ _ _ _ h).trans ((State.get_put_reg _ _ _ _ _ _ _ _ _ _ h).trans (State.coreIrq_get _ _ _ _ _ _ _))

theorem State.checkpoint_img : s.checkpoint.img = s.img := by
  unfold State.checkpoint
  dsimp only
  rw [State.put_img, State.put_img, State.coreIrq_eq]

/-- A checkpoint starts without records and with no odd copy, and keeps local memory. -/
theorem State.checkpoint_mtr : s.checkpoint.mtr.recA = none ∧ s.checkpoint.mtr.odd = 0 ∧ s.checkpoint.mtr.bank0 = s.mtr.bank0 ∧
    s.checkpoint.mtr.bank1 = s.mtr.bank1 := by
  unfold State.checkpoint
  dsimp only
  rw [State.put_mtr, State.put_mtr, State.coreIrq_eq]
  exact ⟨rfl, rfl, rfl, rfl⟩

theorem State.nextSlice_checkpoint (hhalt : s.mtr.haltReq = false) (hdbg : bitOf s.mtr.dbgReq 0 = false) : s.nextSlice = s.checkpoint := by
  unfold State.nextSlice
  rw [if_neg (by simp [hhalt]), if_neg (by simp [hdbg])]

end checkpoint

/-! Compare events, the release and the safe fault (R211, R214, R216) -/

section events
variable (s : State)

theorem State.queueRelease_nil : s.queueRelease [] = s := rfl

theorem State.sliceReleased_count : s.sliceReleased.get F.MTR_SLICES_COUNT = (s.get F.MTR_SLICES_COUNT + 1) % 2 ^ 32 :=
  (State.get_put_same _ _ _ _ _ _ (by decide)).trans (Nat.mod_mod _ _)

theorem State.resyncBegin_mtrState (odd : Nat) : (s.resyncBegin odd).mtrState = Mtr.running :=
  (State.get_put_fld _ _ _ _ _ _ _ _ _ _ (by decide) (by decide)).trans (State.get_put_same _ _ _ _ _ _ (by decide))

theorem State.resyncBegin_copy (odd : Nat) : (s.resyncBegin odd).get F.MTR_STATE_COPY = 0 := State.get_put_same _ _ _ _ _ _ (by decide)

theorem State.resyncBegin_get (odd : Nat) (y : Fld) (i j cp : Nat) (h : y.reg.ctorIdx ≠ RegId.MTR_STATE.ctorIdx) :
    (s.resyncBegin odd).get y i j cp = s.get y i j cp :=
  (State.get_put_reg _ _ _ _ _ _ _ _ _ _ h).trans (State.get_put_reg _ _ _ _ _ _ _ _ _ _ h)

theorem State.mtrIrq_get (b : Nat) (y : Fld) (i j cp : Nat) (hwin : (regDef y.reg).win ≠ .recw)
    (h : y.reg.ctorIdx ≠ RegId.MTR_IRQ.ctorIdx) : (s.mtrIrq b).get y i j cp = s.get y i j cp :=
  s.raise_get _ _ _ _ _ _ _ _ _ _ _ _ hwin h

theorem State.mtrGap_get (ix now : Nat) (old : List Nat) (y : Fld) (i j cp : Nat) : (s.mtrGap ix now old).get y i j cp = s.get y i j cp := by
  unfold State.mtrGap
  split <;> rfl

theorem State.mtrLast_get (kind odd : Nat) (d : Nat × Nat × Nat) (y : Fld) (i j cp : Nat) (h : y.reg.ctorIdx ≠ RegId.MTR_LAST.ctorIdx)
    (hlanes : y.reg.ctorIdx ≠ RegId.MTR_LAST_LANES.ctorIdx) (hslice : y.reg.ctorIdx ≠ RegId.MTR_LAST_SLICE.ctorIdx) :
    (s.mtrLast kind odd d).get y i j cp = s.get y i j cp := by
  unfold State.mtrLast
  dsimp only
  rw [State.get_put_reg _ _ _ _ _ _ _ _ _ _ hslice, State.get_put_reg _ _ _ _ _ _ _ _ _ _ hlanes,
    State.get_put_reg _ _ _ _ _ _ _ _ _ _ h, State.get_put_reg _ _ _ _ _ _ _ _ _ _ h, State.get_put_reg _ _ _ _ _ _ _ _ _ _ h,
    State.get_put_reg _ _ _ _ _ _ _ _ _ _ h]

theorem State.mtrLast_odd (kind odd : Nat) (d : Nat × Nat × Nat) : (s.mtrLast kind odd d).get F.MTR_LAST_ODD = odd % 4 := by
  unfold State.mtrLast
  dsimp only
  rw [State.get_put_reg _ _ _ _ _ _ _ _ _ _ (by decide), State.get_put_reg _ _ _ _ _ _ _ _ _ _ (by decide),
    State.get_put_fld _ _ _ _ _ _ _ _ _ _ (by decide) (by decide), State.get_put_fld _ _ _ _ _ _ _ _ _ _ (by decide) (by decide)]
  exact State.get_put_same _ _ _ _ _ _ (by decide)

/-- A LATENT_DIVERGENCE is counted, up to the largest number MTR_EVENTS holds (R214). -/
theorem State.latentEvent_count (a b : CopyRec) :
    (s.latentEvent a b).2.get F.MTR_EVENTS_LATENT = min (s.get F.MTR_EVENTS_LATENT + 1) (2 ^ 16 - 1) := by
  have hcounted : ∀ t : State, (t.bump F.MTR_EVENTS_LATENT 1).get F.MTR_EVENTS_LATENT = min (t.get F.MTR_EVENTS_LATENT + 1) (2 ^ 16 - 1) :=
    fun t => (State.get_put_same _ _ _ _ _ _ (by decide)).trans (Nat.mod_eq_of_lt (lt_of_le_of_lt (Nat.min_le_right _ _) (by decide)))
  refine (State.mtrIrq_get _ _ _ _ _ _ (by decide) (by decide)).trans ((hcounted _).trans ?_)
  rw [State.mtrLast_get _ _ _ _ _ _ _ _ (by decide) (by decide) (by decide), State.mtrGap_get]

/-- A resolved MISMATCH names its odd copy in MTR_LAST (R212). -/
theorem State.mismatchEvent_lastOdd (odd : Nat) (a b : CopyRec) : (s.mismatchEvent odd a b).2.get F.MTR_LAST_ODD = odd % 4 :=
  (State.mtrIrq_get _ _ _ _ _ _ (by decide) (by decide)).trans
    ((State.bump_get_ne _ _ _ _ _ _ _ _ _ _ (by decide)).trans (State.mtrLast_odd _ _ _ _))

/-- Once a safe fault has put its cause and its state, it raises events alone (R216). -/
theorem State.safeFault_get (cause : Nat) (y : Fld) (hwin : (regDef y.reg).win ≠ .recw) (hirq : y.reg.ctorIdx ≠ RegId.MTR_IRQ.ctorIdx)
    (hview : y.reg.ctorIdx ≠ RegId.MTR_VIEW_STAT.ctorIdx) :
    ∃ t : State, (s.safeFault cause).get y = ((t.put F.MTR_STATE_CAUSE cause).put F.MTR_STATE_STATE Mtr.safeFault).get y :=
  ⟨_, (State.each_inv (fun u => u.get y) _ _ _ fun _ _ => State.raise_get _ _ _ _ _ _ _ _ _ _ _ _ _ hwin hview).trans
    (State.mtrIrq_get _ _ _ _ _ _ hwin hirq)⟩

theorem State.safeFault_mtrState (cause : Nat) : (s.safeFault cause).mtrState = Mtr.safeFault := by
  obtain ⟨t, ht⟩ := s.safeFault_get cause F.MTR_STATE_STATE (by decide) (by decide) (by decide)
  exact ht.trans (State.get_put_same _ _ _ _ _ _ (by decide))

theorem State.safeFault_cause (cause : Nat) : (s.safeFault cause).get F.MTR_STATE_CAUSE = cause % 8 := by
  obtain ⟨t, ht⟩ := s.safeFault_get cause F.MTR_STATE_CAUSE (by decide) (by decide) (by decide)
  exact ht.trans ((State.get_put_fld _ _ _ _ _ _ _ _ _ _ (by decide) (by decide)).trans (State.get_put_same _ _ _ _ _ _ (by decide)))

end events

end Sys2Proof.Machine

/-! SUPPORT. The ends of the copies of a braced slice and of a resynchronisation (R204, R210 to R214), row by row. -/

namespace Sys2Proof.Machine

theorem State.copyAt_of (s : State) (st n : Nat) (hlive : s.live 12 = true) (hsplit : s.mtrSplit = false) (hstate : s.mtrState = st)
    (hcopy : s.get F.MTR_STATE_COPY = n) : s.copyAt st n = true := by
  unfold State.copyAt
  simp [hlive, hsplit, hstate, hcopy]

theorem State.sliceDone_next (s : State) (l : List QEntry) : s.sliceDone l 0 = ((s.queueRelease l).sliceReleased).nextSlice := rfl

theorem State.sliceDone_odd (s : State) (l : List QEntry) (odd : Nat) (h : odd ≠ 0) :
    s.sliceDone l odd = ((s.queueRelease l).sliceReleased).resyncBegin odd := if_neg h

/-! Copy A (R204) -/

theorem execCopyAEnd_fits (s : State) (r : CopyRec) (hat : s.copyAt Mtr.running 1 = true) (hfits : s.sliceFits r = true)
    (hend : s.endOk r = true) (hloads : r.loads = s.mtr.loads) : exec (.copyAEnd r) s = .next (s.copyAEnd r) :=
  congrArg Host.Outcome.next (if_pos (by simp [hat, hfits, hend, hloads]))

theorem State.copyAEnd_copy (s : State) (r : CopyRec) : (s.copyAEnd r).get F.MTR_STATE_COPY = 2 := State.get_put_same _ _ _ _ _ _ (by decide)

theorem State.copyAEnd_bank1 (s : State) (r : CopyRec) : (s.copyAEnd r).mtr.bank1 = s.mtr.bank1 :=
  State.each_inv (fun t => t.mtr.bank1) _ _ s fun _ _ => rfl

theorem State.copyAEnd_lmemA (s : State) (r : CopyRec) (a : Nat) (v : Word) (h : r.writes = [(a, v)]) : (s.copyAEnd r).lmemA a = v := by
  have hstored : (s.copyAEnd r).lmemA a = (s.each r.writes fun s p => s.putLmemA p.1 p.2).lmemA a := rfl
  rw [hstored, h]
  exact s.putLmemA_lmemA_same a v

/-! Copy B (R211) -/

section copyB
variable (s : State) (r a : CopyRec) (hat : s.copyAt Mtr.running 2 = true) (hrec : s.mtr.recA = some a) (hinstrs : r.instrs = a.instrs)
  (hfits : s.sliceFits (r.logged a) = true)
include hat hrec hinstrs hfits

/-- Copy B's end in its place is the compare of R211. -/
theorem execCopyBEnd_compares : exec (.copyBEnd r) s =
    let b := r.logged a
    let u := s.copyBState b
    .next (if !queuesAgree a b then (u.put F.MTR_STATE_STATE Mtr.resolving).put F.MTR_STATE_COPY 3
      else if a.signature = b.signature then u.sliceDone a.queue 0
      else if (u.latentEvent a b).1 then (u.latentEvent a b).2.safeFault 2 else (u.latentEvent a b).2.sliceDone a.queue 2) := by
  have hgo : ¬(!s.copyAt Mtr.running 2 || !s.sliceFits (r.logged a) || (r.logged a).instrs != a.instrs) = true := by
    have hsame : (r.logged a).instrs = a.instrs := hinstrs
    simp [hat, hfits, hsame]
  refine congrArg Host.Outcome.next ?_
  unfold State.copyBDone
  rw [hrec]
  exact if_neg hgo

theorem execCopyBEnd_mismatch (hq : queuesAgree a (r.logged a) = false) : exec (.copyBEnd r) s =
    .next (((s.copyBState (r.logged a)).put F.MTR_STATE_STATE Mtr.resolving).put F.MTR_STATE_COPY 3) :=
  (execCopyBEnd_compares s r a hat hrec hinstrs hfits).trans (congrArg Host.Outcome.next (if_pos (by simp [hq])))

theorem execCopyBEnd_agree (hq : queuesAgree a (r.logged a) = true) (hsig : a.signature = (r.logged a).signature) : exec (.copyBEnd r) s =
    .next ((((s.copyBState (r.logged a)).queueRelease a.queue).sliceReleased).nextSlice) := by
  rw [execCopyBEnd_compares s r a hat hrec hinstrs hfits]
  dsimp only
  rw [if_neg (by simp [hq]), if_pos hsig, State.sliceDone_next]

section latent
variable (hq : queuesAgree a (r.logged a) = true) (hsig : a.signature ≠ (r.logged a).signature)
include hq hsig

/-- The rate of R214 is judged on the slices before copy B's writes, which leave the history. -/
theorem execCopyBEnd_latent : exec (.copyBEnd r) s =
    let e := (s.copyBState (r.logged a)).latentEvent a (r.logged a)
    .next (if rateMet s.mtr.latents 2 (s.get F.MTR_SLICES_COUNT) then e.2.safeFault 2
      else ((e.2.queueRelease a.queue).sliceReleased).resyncBegin 2) := by
  have hview := s.copyBState_sliceView (r.logged a)
  obtain ⟨-, hlatents, -, -, -⟩ := State.sliceView_parts hview
  have hhit : ((s.copyBState (r.logged a)).latentEvent a (r.logged a)).1 = rateMet s.mtr.latents 2 (s.get F.MTR_SLICES_COUNT) := by
    rw [← hlatents, ← State.sliceView_get hview]
    rfl
  rw [execCopyBEnd_compares s r a hat hrec hinstrs hfits]
  dsimp only
  rw [if_neg (by simp [hq]), if_neg hsig, hhit, State.sliceDone_odd _ _ _ (by decide)]

theorem execCopyBEnd_resync (hrate : rateMet s.mtr.latents 2 (s.get F.MTR_SLICES_COUNT) = false) : exec (.copyBEnd r) s =
    .next (((((s.copyBState (r.logged a)).latentEvent a (r.logged a)).2.queueRelease a.queue).sliceReleased).resyncBegin 2) :=
  (execCopyBEnd_latent s r a hat hrec hinstrs hfits hq hsig).trans (congrArg Host.Outcome.next (if_neg (by simp [hrate])))

theorem execCopyBEnd_rate (hrate : rateMet s.mtr.latents 2 (s.get F.MTR_SLICES_COUNT) = true) : exec (.copyBEnd r) s =
    .next (((s.copyBState (r.logged a)).latentEvent a (r.logged a)).2.safeFault 2) :=
  (execCopyBEnd_latent s r a hat hrec hinstrs hfits hq hsig).trans (congrArg Host.Outcome.next (if_pos hrate))

end latent
end copyB

/-- A mismatch leaves the unit RESOLVING with copy C, and no write has left it (R211, R220). -/
theorem State.resolving_shows (s : State) (b : CopyRec) :
    let t := ((s.copyBState b).put F.MTR_STATE_STATE Mtr.resolving).put F.MTR_STATE_COPY 3
    t.mtrState = Mtr.resolving ∧ t.get F.MTR_STATE_COPY = 3 ∧ t.mem = s.mem ∧ t.get F.MTR_SLICES_COUNT = s.get F.MTR_SLICES_COUNT := by
  refine ⟨(State.get_put_fld _ _ _ _ _ _ _ _ _ _ (by decide) (by decide)).trans (State.get_put_same _ _ _ _ _ _ (by decide)),
    State.get_put_same _ _ _ _ _ _ (by decide), s.copyBState_mem b, ?_⟩
  rw [State.get_put_reg _ _ _ _ _ _ _ _ _ _ (by decide), State.get_put_reg _ _ _ _ _ _ _ _ _ _ (by decide),
    State.sliceView_get (s.copyBState_sliceView b)]

/-- After slices that agree, the next slice starts with copy A, and the slice is counted (R211, R214). -/
theorem State.agreed_shows (s : State) (b : CopyRec) (hhalt : s.mtr.haltReq = false) (hdbg : bitOf s.mtr.dbgReq 0 = false) :
    let t := (((s.copyBState b).queueRelease []).sliceReleased).nextSlice
    t.mtrState = Mtr.running ∧ t.get F.MTR_STATE_COPY = 1 ∧ t.mtr.recA = none ∧
      t.get F.MTR_SLICES_COUNT = (s.get F.MTR_SLICES_COUNT + 1) % 2 ^ 32 := by
  have hview := s.copyBState_sliceView b
  obtain ⟨-, -, -, hhalt', hdbg'⟩ := State.sliceView_parts hview
  dsimp only
  rw [State.queueRelease_nil, State.nextSlice_checkpoint (s.copyBState b).sliceReleased (hhalt'.trans hhalt)
    ((congrArg (bitOf · 0) hdbg').trans hdbg)]
  refine ⟨State.checkpoint_mtrState _, State.checkpoint_copy _, (State.checkpoint_mtr _).1, ?_⟩
  rw [State.checkpoint_get _ _ _ _ _ (by decide), State.sliceReleased_count, State.sliceView_get hview]

/-- After a LATENT_DIVERGENCE copy B is resynchronised, and the event is counted (R211, R214). -/
theorem State.latent_shows (s : State) (a b : CopyRec) :
    let t := ((((s.copyBState b).latentEvent a b).2.queueRelease []).sliceReleased).resyncBegin 2
    t.mtrState = Mtr.running ∧ t.get F.MTR_STATE_COPY = 0 ∧ t.mtr.odd = 2 ∧
      t.get F.MTR_EVENTS_LATENT = min (s.get F.MTR_EVENTS_LATENT + 1) (2 ^ 16 - 1) := by
  refine ⟨State.resyncBegin_mtrState _ _, State.resyncBegin_copy _ _, rfl, ?_⟩
  rw [State.queueRelease_nil, State.resyncBegin_get _ _ _ _ _ _ (by decide)]
  refine (State.incr_get_ne _ _ _ _ _ _ _ _ _ (by decide)).trans ((State.latentEvent_count _ a b).trans ?_)
  rw [State.sliceView_get (s.copyBState_sliceView b)]

/-! Copy C (R212) -/

section copyC
variable (s : State) (a b r : CopyRec) (hat : s.copyAt Mtr.resolving 3 = true) (hrecA : s.mtr.recA = some a) (hrecB : s.mtr.recB = some b)
  (hfits : s.sliceFits (r.logged a) = true) (hinstrs : r.instrs = a.instrs)
include hat hrecA hrecB hfits hinstrs

/-- Copy C's end in its place is the majority of R212. -/
theorem execCopyCEnd_judges (odd : Nat)
    (hodd : (if copiesAgree a (r.logged a) then 2 else if copiesAgree b (r.logged a) then 1 else 0) = odd) : exec (.copyCEnd r) s =
    let u := s.copyCState (r.logged a)
    .next (if odd = 0 then (u.mtrLast 3 0 (diffOf a b)).safeFault 1
      else if (u.mismatchEvent odd a b).1 then (u.mismatchEvent odd a b).2.safeFault 3
      else (u.mismatchEvent odd a b).2.sliceDone (if odd = 2 then a.queue else b.queue) odd) := by
  have hgo : ¬(!s.copyAt Mtr.resolving 3 || !s.sliceFits (r.logged a) || (r.logged a).instrs != a.instrs) = true := by
    have hsame : (r.logged a).instrs = a.instrs := hinstrs
    simp [hat, hfits, hsame]
  subst hodd
  refine congrArg Host.Outcome.next ?_
  unfold State.copyCDone
  rw [hrecA, hrecB]
  exact if_neg hgo

theorem execCopyCEnd_noMajority (hA : copiesAgree a (r.logged a) = false) (hB : copiesAgree b (r.logged a) = false) :
    exec (.copyCEnd r) s = .next (((s.copyCState (r.logged a)).mtrLast 3 0 (diffOf a b)).safeFault 1) :=
  (execCopyCEnd_judges s a b r hat hrecA hrecB hfits hinstrs 0 (by simp [hA, hB])).trans (congrArg Host.Outcome.next (if_pos rfl))

section majority
variable (odd : Nat) (hodd : (odd = 2 ∧ copiesAgree a (r.logged a) = true) ∨
  (odd = 1 ∧ copiesAgree a (r.logged a) = false ∧ copiesAgree b (r.logged a) = true))
include hodd

/-- The rate of R214 is judged on the slices before; copy C's writes leave the history. -/
theorem execCopyCEnd_majority : exec (.copyCEnd r) s =
    let e := (s.copyCState (r.logged a)).mismatchEvent odd a b
    .next (if rateMet s.mtr.mismatches 6 (s.get F.MTR_SLICES_COUNT) then e.2.safeFault 3
      else ((e.2.queueRelease (if odd = 2 then a.queue else b.queue)).sliceReleased).resyncBegin odd) := by
  have hview := s.copyCState_sliceView (r.logged a)
  obtain ⟨-, -, hmismatches, -, -⟩ := State.sliceView_parts hview
  have hhit : ((s.copyCState (r.logged a)).mismatchEvent odd a b).1 = rateMet s.mtr.mismatches 6 (s.get F.MTR_SLICES_COUNT) := by
    rw [← hmismatches, ← State.sliceView_get hview]
    rfl
  have hne : odd ≠ 0 := by omega
  rw [execCopyCEnd_judges s a b r hat hrecA hrecB hfits hinstrs odd (by
    rcases hodd with ⟨rfl, hA⟩ | ⟨rfl, hA, hB⟩
    · simp [hA]
    · simp [hA, hB])]
  dsimp only
  rw [if_neg hne, hhit, State.sliceDone_odd _ _ _ hne]

theorem execCopyCEnd_rate (hrate : rateMet s.mtr.mismatches 6 (s.get F.MTR_SLICES_COUNT) = true) : exec (.copyCEnd r) s =
    .next (((s.copyCState (r.logged a)).mismatchEvent odd a b).2.safeFault 3) :=
  (execCopyCEnd_majority s a b r hat hrecA hrecB hfits hinstrs odd hodd).trans (congrArg Host.Outcome.next (if_pos hrate))

theorem execCopyCEnd_resync (hrate : rateMet s.mtr.mismatches 6 (s.get F.MTR_SLICES_COUNT) = false) : exec (.copyCEnd r) s =
    .next (((((s.copyCState (r.logged a)).mismatchEvent odd a b).2.queueRelease
      (if odd = 2 then a.queue else b.queue)).sliceReleased).resyncBegin odd) :=
  (execCopyCEnd_majority s a b r hat hrecA hrecB hfits hinstrs odd hodd).trans (congrArg Host.Outcome.next (if_neg (by simp [hrate])))

end majority
end copyC

/-- No majority is a safe fault of cause NO_MAJORITY, and nothing of the slice has left (R212, R216). -/
theorem State.noMajority_shows (s : State) (a b c : CopyRec) :
    let t := ((s.copyCState c).mtrLast 3 0 (diffOf a b)).safeFault 1
    t.mtrState = Mtr.safeFault ∧ t.get F.MTR_STATE_CAUSE = 1 ∧ t.mem = s.mem :=
  ⟨State.safeFault_mtrState _ _, State.safeFault_cause _ _, by simp⟩

/-- After a majority the odd copy is resynchronised, and MTR_LAST names it (R212, R213). -/
theorem State.majority_shows (s : State) (a b c : CopyRec) (odd : Nat) (hodd : odd < 4) :
    let t := ((((s.copyCState c).mismatchEvent odd a b).2.queueRelease []).sliceReleased).resyncBegin odd
    t.mtrState = Mtr.running ∧ t.get F.MTR_STATE_COPY = 0 ∧ t.mtr.odd = odd ∧ t.get F.MTR_LAST_ODD = odd := by
  refine ⟨State.resyncBegin_mtrState _ _, State.resyncBegin_copy _ _, rfl, ?_⟩
  rw [State.queueRelease_nil, State.resyncBegin_get _ _ _ _ _ _ (by decide)]
  exact (State.incr_get_ne _ _ _ _ _ _ _ _ _ (by decide)).trans ((State.mismatchEvent_lastOdd _ odd a b).trans (Nat.mod_eq_of_lt hodd))

/-! Resynchronisation (R213) -/

theorem execResyncEnd_odd (s : State) (hat : s.copyAt Mtr.running 0 = true) (hodd : s.mtr.odd ≠ 0) : exec .resyncEnd s = .next s.resyncEnd :=
  congrArg Host.Outcome.next (if_pos (by simp [hat, hodd]))

/-- The words at these offsets of copy B taken from copy A. -/
def State.copyBResynced (s : State) (l : List Nat) : State := s.each l fun s a => s.putLmemB a (s.lmemA a)

theorem State.copyBResynced_sliceView (s : State) (l : List Nat) : (s.copyBResynced l).sliceView = s.sliceView :=
  State.each_inv State.sliceView _ _ _ fun _ _ => rfl

/-- Each word resynchronised reads the same in both copies: a later one either is the same word or leaves it. -/
theorem State.copyBResynced_lmemB (s : State) (l : List Nat) : ∀ a ∈ l, (s.copyBResynced l).lmemB a = (s.copyBResynced l).lmemA a := by
  refine State.each_establishes (fun a t => t.lmemB a = t.lmemA a) l _ s (fun t a => t.putLmemB_lmemB_word a a _ rfl) fun t b a h => ?_
  rw [State.putLmemB_lmemA]
  by_cases hword : a / 4 = b / 4
  · rw [State.putLmemB_lmemB_word _ _ _ _ hword, State.lmemA_of_word _ _ _ hword]
  · rw [State.putLmemB_lmemB_ne _ _ _ _ hword, h]

section resync
variable (s : State)

/-- The state in which the next slice starts when copy B was odd: its words and its registers are copy A's. -/
def State.copyBTaken : State :=
  let t := s.copyBResynced (wroteOf s.mtr.recA ++ wroteOf s.mtr.recB)
  { t with mtr := { t.mtr with archB := t.mtr.archA.map (~~~ ·) } }

theorem State.resyncEnd_copyB (hodd : s.mtr.odd = 2) : s.resyncEnd = s.copyBTaken.nextSlice := by
  unfold State.resyncEnd
  rw [hodd]
  rfl

theorem State.resyncEnd_shows (hodd : s.mtr.odd = 2) (hhalt : s.mtr.haltReq = false) (hdbg : bitOf s.mtr.dbgReq 0 = false) :
    s.resyncEnd.get F.MTR_STATE_COPY = 1 ∧ s.resyncEnd.mtr.odd = 0 ∧ s.resyncEnd.mtr.bank0 = s.mtr.bank0 ∧
      ∀ a ∈ wroteOf s.mtr.recA ++ wroteOf s.mtr.recB, s.resyncEnd.lmemB a = s.resyncEnd.lmemA a := by
  have hview : s.copyBTaken.sliceView = s.sliceView := s.copyBResynced_sliceView _
  obtain ⟨hbank, -, -, hhalt', hdbg'⟩ := State.sliceView_parts hview
  have hnext : s.resyncEnd = s.copyBTaken.checkpoint :=
    (s.resyncEnd_copyB hodd).trans (State.nextSlice_checkpoint _ (hhalt'.trans hhalt) ((congrArg (bitOf · 0) hdbg').trans hdbg))
  obtain ⟨-, hnone, hbank0, hbank1⟩ := s.copyBTaken.checkpoint_mtr
  rw [hnext]
  refine ⟨State.checkpoint_copy _, hnone, hbank0.trans hbank, fun a ha => ?_⟩
  calc s.copyBTaken.checkpoint.lmemB a
      _ = s.copyBTaken.lmemB a := State.lmemB_congr hbank1 (State.checkpoint_img _) a
      _ = s.copyBTaken.lmemA a := s.copyBResynced_lmemB _ a ha
      _ = s.copyBTaken.checkpoint.lmemA a := congrArg (storeGet 0#32 · (a / 4)) hbank0.symm

end resync

/-- Settles O35: each end of a copy, in its place, is its branch of the compare. Records and words that the copies store leave the registers,
the histories of R214 and the waiting requests, so the branch is chosen on the state before the row. MTR_LAST after NO_MAJORITY is the choice
of log entry 28. -/
theorem bracedSlicesAreCompared : Obligations.BracedSlicesAreCompared := by
  unfold Obligations.BracedSlicesAreCompared
  refine ⟨fun s r hlive hsplit hstate => ⟨fun hcopy hfits hend hloads => ?copyA, fun hcopy a hrec hinstrs hfits => ?copyB⟩,
    fun s a b r hlive hsplit hstate hcopy hrecA hrecB hfits hinstrs => ?copyC, fun s hlive hsplit hstate hcopy => ?resync⟩
  case copyA =>
    have hat := s.copyAt_of Mtr.running 1 hlive hsplit hstate hcopy
    exact ⟨execCopyAEnd_fits s r hat hfits hend hloads, s.copyAEnd_copy r, rfl, rfl, s.copyAEnd_lmemA r, s.copyAEnd_bank1 r⟩
  case copyB =>
    have hat := s.copyAt_of Mtr.running 2 hlive hsplit hstate hcopy
    refine ⟨fun hq => ?_, fun hq hsig => ?_, fun hq hsig hrate => ?_, fun hq hsig hrate => ?_⟩
    · have hexec := execCopyBEnd_mismatch s r a hat hrec hinstrs hfits hq
      exact ⟨hexec, _, hexec, s.resolving_shows _⟩
    · have hexec := execCopyBEnd_agree s r a hat hrec hinstrs hfits hq hsig
      exact ⟨hexec, fun hnone hhalt hdbg => ⟨_, hexec, hnone ▸ s.agreed_shows _ hhalt hdbg⟩⟩
    · have hexec := execCopyBEnd_resync s r a hat hrec hinstrs hfits hq hsig hrate
      exact ⟨hexec, fun hnone => ⟨_, hexec, hnone ▸ s.latent_shows a _⟩⟩
    · have hexec := execCopyBEnd_rate s r a hat hrec hinstrs hfits hq hsig hrate
      exact ⟨hexec, _, hexec, State.safeFault_mtrState _ _, State.safeFault_cause _ _⟩
  case copyC =>
    have hat := s.copyAt_of Mtr.resolving 3 hlive hsplit hstate hcopy
    refine ⟨fun hA hB => ?_, fun odd hodd => ⟨execCopyCEnd_rate s a b r hat hrecA hrecB hfits hinstrs odd hodd, fun hrate => ?_⟩⟩
    · have hexec := execCopyCEnd_noMajority s a b r hat hrecA hrecB hfits hinstrs hA hB
      exact ⟨hexec, _, hexec, s.noMajority_shows a b _⟩
    · have hexec := execCopyCEnd_resync s a b r hat hrecA hrecB hfits hinstrs odd hodd hrate
      exact ⟨hexec, fun hnone => ⟨_, hexec, hnone ▸ s.majority_shows a b _ odd (by omega)⟩⟩
  case resync =>
    have hat := s.copyAt_of Mtr.running 0 hlive hsplit hstate hcopy
    refine ⟨execResyncEnd_odd s hat, fun hodd hhalt hdbg => ⟨_, execResyncEnd_odd s hat (by omega), ?_⟩⟩
    obtain ⟨hstart, hnone, hbank, hwords⟩ := s.resyncEnd_shows hodd hhalt hdbg
    exact ⟨hstart, hnone, hbank, fun a _ _ => hwords a⟩

end Sys2Proof.Machine
